-- ==== Sys2Proof/Word.lean ====
section
/-! DEFINITION. The word types of the Cuith (R4) and the sparse table that holds like things by number. -/

namespace Sys2Proof

/-- A byte (R4). -/
abbrev Byte := BitVec 8

/-- A scalar register, an address or a doubleword (R4, R149). -/
abbrev Word := BitVec 64

/-- A 512-bit vector register, line or 64-byte record (R4, R22). -/
abbrev Vec := BitVec 512

/-- A 64-bit mask register (R240). -/
abbrev Mask := BitVec 64

/-- Like things held by number: pairs of number and value, numbers strictly rising, no entry equal to the
value that an unlisted number has (Machine/Tab.lean gives the operations and the form). -/
abbrev Tab (α : Type) := List (Nat × α)

end Sys2Proof
end

