-- ==== Sys2Proof/Config.lean ====
section
/-! DEFINITION. What the manual leaves open, as constants with no body: no proof can see their values. -/

namespace Sys2Proof.Config

/-- The free choice number n, read when the state's own list of choices is used up: which of several agents acts
next, how many clocks pass, which line a full cache gives up (log 2). -/
opaque free : Nat → Nat

/-- The distance, in encodings, of an approximation of R89 from the exactly rounded result: op 0 VEXP2, 1 VLOG2,
2 VRCP, 3 VRSQ. The model clamps it to the bound of R89 (log 20). It depends on the operand alone (R75). -/
opaque approxErr : Nat → BitVec 32 → Int

/-- The code that MXST stores for an element of a 4-bit type where it would store the record's z itself and z does not fit (log 29): a
function of the element's operands, its scale, its bias and the parameter record (R75). -/
opaque zCode : BitVec 32 → Nat → Nat → Nat → Nat

/-- The fuse configuration as measurement block 5 holds it (R426; log 7). -/
opaque fuses : Nat

/-- What a control and status register of a task reads on an engine hart, which has no task (log 22), by the number of the
read. -/
opaque freeWord : Nat → BitVec 64

/-- What a load through the peer region brings of a byte that lies in a barrier area, which no load reaches (R109, R209, log 135): by the
address and the clock. -/
opaque areaByte : Nat → Nat → BitVec 8

end Sys2Proof.Config
end

