-- ==== Sys2Proof/Syntax.lean ====
section
/-! DEFINITION. The instructions of the Cuith: the words of Bexdeoth and the steps of the other agents, with the data that
such a step carries. -/

namespace Sys2Proof

/-- An agent that runs words: a bogie by its global number (R20), or an engine hart (R233). -/
inductive Agent where
  | bogie (g : Nat)
  | hart (die h : Nat)
  deriving DecidableEq, Repr

/-- Who made a request and is told when it is performed (R184): the frame of a bogie, an engine hart (a copy hart
for its channel), a matrix array, the host, firmware, or another module. -/
inductive Src where
  | task (g uid : Nat)
  | hart (die h : Nat)
  | array (die coach : Nat)
  | host
  | firmware
  | peer (module : Nat)
  deriving DecidableEq, Repr

/-- A release (R119): its type (R120), priority, context, the bogie it is addressed to when named, argument and record
address; for a NODE release its node reference (R305), for an EVENT its handler class (R100). -/
structure Release where
  type  : Nat := 1
  prio  : Nat := 0
  ctx   : Nat := 0
  named : Option Nat := none
  arg   : BitVec 32 := 0
  record : Nat := 0
  node  : BitVec 32 := 0
  cls   : Nat := 0
  deriving DecidableEq, Repr

/-- What an atomic computes: an integer operation of R199 by its code, a compare and swap (R201), or a floating-point
addition by its format code (R202). -/
inductive AtomF where
  | int (o : BitVec 4)
  | cas
  | fadd (fmt : BitVec 3)
  deriving DecidableEq, Repr

/-- Where the old value of an atomic goes: nowhere, with the word that posted it (R289), to the register of the frame that awaits it, or, for AMOA, to raw
offset off of frame uid, arriving on its barrier k (R200). -/
inductive Ret where
  | posted (word : BitVec 32)
  | reg
  | amoa (uid off k : Nat) (word : BitVec 32)
  deriving DecidableEq, Repr

/-- What a store carries beside its bytes: the notification of an STF (R206), that its lines are poison (R228, R277), or that it is the
commit of a COPYC: it is made only where the version word holds what is expected, which then rises by 1, and the lines of the addresses
given are poison (R228, R229). -/
inductive Note where
  | flag (va : Nat) (word : BitVec 32)
  | task (record prio : Nat) (arg : BitVec 32)
  | poison
  | version (va : Nat) (expected : Word) (bad : List Nat)
  deriving DecidableEq, Repr

/-- An update of a barrier (R211): bytes, arrivals and a poison code, 0 for none. -/
structure Update where
  bytes : Nat := 0
  arr   : Nat := 0
  code  : Byte := 0
  deriving DecidableEq, Repr

/-- A matrix command (R266) without its issuer. The address operands are virtual addresses; control words are carried as
they stood at issue. -/
inductive MxOp where
  | ldb (slot ty k : Nat) (src ctl : Word)
  | z (tile : Nat) (i32 : Bool)
  | lda (tile : Nat) (src ctl : Word) (i32 : Bool)
  | mma (tile : Nat) (src : Word) (slot stride k : Nat) (aint : Bool) (base : BitVec 10)
  | st (tile : Nat) (dst ctl : Word) (bar : Option Nat) (out g : Nat) (round : BitVec 3) (sat : Bool)
  | pass (d : Vec) (tiles : List Nat)
  deriving DecidableEq, Repr

/-- A matrix command as it stands in a command FIFO: its place in program order, its context, its bogie, its level (R267), the frame that issued it
and that frame's record. -/
structure MxCmd where
  id    : Nat := 0
  ctx   : Nat
  g     : Nat
  level : Nat
  uid   : Nat
  record : Nat
  op    : MxOp
  deriving DecidableEq, Repr

/-- What a fault record tells (R291): code, address, extra and cause, the pc and record of the task, the faulting frame's
bogie and priority, instance and node when one frame caused it, the clock, and the die where the event arose (R294). -/
structure FaultInfo where
  code  : Nat
  addr  : Word := 0
  extra : Word := 0
  cause : Nat := 0
  pc    : Word := 0
  record : Nat := 0
  frame : Option (Nat × Nat) := none
  inst  : BitVec 32 := 0
  node  : BitVec 32 := 0
  clock : Nat := 0
  die   : Nat := 8
  deriving DecidableEq, Repr

/-- What one outbox entry (R137), or one request of another agent, asks for. Bytes of a store are paired with their
virtual addresses. A notify is the notification of the STF whose stored bytes went out under number store and lie at va: it is an operation
of its own once they are on their way (R206, R433). -/
inductive Op where
  | store (bytes : Tab Byte) (rel bypass : Bool) (note : Option Note)
  | notify (store va : Nat) (note : Note)
  | atomic (va n : Nat) (f : AtomF) (x y : Word) (ord : BitVec 2) (ret : Ret)
  | load (va n : Nat) (sync : Bool)
  | release (die : Option Nat) (peer : Bool) (r : Release)
  | notice (node inst : BitVec 32) (report credit : Bool)
  | gdec (h : Word) (c : Nat)
  | arrive (h : Word) (u : Update)
  | copy (desc : Nat) (p : Vec)
  | matrix (c : MxCmd)
  | scale (entry : Nat) (recs : List (BitVec 32)) (mask : BitVec 8)
  | bwait (k : Nat) (p : Bool)
  | fence
  | csync
  | trap (n : Nat) (a : Word)
  | event (i : FaultInfo)
  | mxqTile (tile : Nat)
  | mxqSlot (slot : Nat)
  | cring (va : Nat) (n : Nat := 0)
  | pageqHome (va : Nat)
  | couple (c die : Nat)
  | uncouple (c die : Nat)
  | cquery (c : Nat) (g : Bool)
  deriving DecidableEq, Repr

/-- A request under way: its number, its maker, its context and what it asks for. -/
structure Req where
  id  : Nat := 0
  src : Src := .host
  ctx : Nat := 0
  op  : Op
  deriving DecidableEq, Repr

/-- A release under way (R184, R321); agent tells that no bogie sent it, though one is told of it: the release of an STF (R329). -/
structure RelReq where
  id  : Nat := 0
  src : Src := .firmware
  rel : Release
  agent : Bool := false
  deriving DecidableEq, Repr

/-- The frame that a delivery is for: by handle (R213, R214), or the issuing frame itself. -/
inductive Who where
  | handle (h : Word)
  | frame (uid : Nat)
  deriving DecidableEq, Repr

/-- Something held at a bogie until its next boundary (R171): bytes at physical scratchpad offsets from the peer region,
a delivery at a raw offset of a frame with the update it makes on a barrier, an arrival, an atomic of the peer region,
or records for the scale file. -/
inductive Held where
  | peer (id : Nat) (src : Src) (bytes : Tab Byte)
  | deliver (id : Nat) (src : Src) (who : Who) (off : Nat) (data : List Byte) (bar : Option (Nat × Update))
  | arrive (who : Who) (k : Nat) (u : Update)
  | atomic (q : Req) (off : Nat)
  | scale (id : Nat) (src : Src) (entry : Nat) (recs : List (BitVec 32))
  deriving DecidableEq, Repr

/-- What a step of another agent is about: the numbers of the bogie, die, hart, context or unit that acts, and what it
carries. The state holds it for the step that runs (State.arg); each step reads only the parts its meaning names. -/
structure Args where
  g    : Nat := 0
  d    : Nat := 0
  h    : Nat := 0
  c    : Nat := 0
  n    : Nat := 0
  m    : Nat := 0
  va   : Nat := 0
  flag : Bool := false
  val  : Word := 0
  req  : Req := { op := .fence }
  rel  : RelReq := { rel := {} }
  held : List Held := []
  pkt  : Vec := 0
  info : FaultInfo := { code := 0 }
  deriving DecidableEq, Repr

/-- The instructions: one constructor per row of the operation table. The first 177 are the 32-bit words, their operands the
fields of the encoding (R57, R61-R64); the rest are the steps of the other agents, their operands what the step is about. -/
inductive Instr where
  /-- ILL (R66) -/
  | ill (i : BitVec 26)
  /-- ADD (R152) -/
  | add (d : BitVec 5) (a : BitVec 5) (b : BitVec 5)
  /-- SUB (R152) -/
  | sub (d : BitVec 5) (a : BitVec 5) (b : BitVec 5)
  /-- AND (R152) -/
  | and (d : BitVec 5) (a : BitVec 5) (b : BitVec 5)
  /-- OR (R152) -/
  | or (d : BitVec 5) (a : BitVec 5) (b : BitVec 5)
  /-- XOR (R152) -/
  | xor (d : BitVec 5) (a : BitVec 5) (b : BitVec 5)
  /-- ANDN (R152) -/
  | andn (d : BitVec 5) (a : BitVec 5) (b : BitVec 5)
  /-- ORN (R152) -/
  | orn (d : BitVec 5) (a : BitVec 5) (b : BitVec 5)
  /-- SHL (R152) -/
  | shl (d : BitVec 5) (a : BitVec 5) (b : BitVec 5)
  /-- SHR (R152) -/
  | shr (d : BitVec 5) (a : BitVec 5) (b : BitVec 5)
  /-- SRA (R152) -/
  | sra (d : BitVec 5) (a : BitVec 5) (b : BitVec 5)
  /-- MIN (R152) -/
  | min (d : BitVec 5) (a : BitVec 5) (b : BitVec 5)
  /-- MAX (R152) -/
  | max (d : BitVec 5) (a : BitVec 5) (b : BitVec 5)
  /-- MINN (R152) -/
  | minn (d : BitVec 5) (a : BitVec 5) (b : BitVec 5)
  /-- MAXN (R152) -/
  | maxn (d : BitVec 5) (a : BitVec 5) (b : BitVec 5)
  /-- SLT (R152) -/
  | slt (d : BitVec 5) (a : BitVec 5) (b : BitVec 5)
  /-- SLTN (R152) -/
  | sltn (d : BitVec 5) (a : BitVec 5) (b : BitVec 5)
  /-- MUL (R152) -/
  | mul (d : BitVec 5) (a : BitVec 5) (b : BitVec 5)
  /-- MULH (R152) -/
  | mulh (d : BitVec 5) (a : BitVec 5) (b : BitVec 5)
  /-- MULHN (R152) -/
  | mulhn (d : BitVec 5) (a : BitVec 5) (b : BitVec 5)
  /-- DIV (R153) -/
  | div (d : BitVec 5) (a : BitVec 5) (b : BitVec 5)
  /-- DIVN (R153) -/
  | divn (d : BitVec 5) (a : BitVec 5) (b : BitVec 5)
  /-- REM (R153) -/
  | rem (d : BitVec 5) (a : BitVec 5) (b : BitVec 5)
  /-- REMN (R153) -/
  | remn (d : BitVec 5) (a : BitVec 5) (b : BitVec 5)
  /-- CLZ (R152) -/
  | clz (d : BitVec 5) (a : BitVec 5)
  /-- CTZ (R152) -/
  | ctz (d : BitVec 5) (a : BitVec 5)
  /-- POPC (R152) -/
  | popc (d : BitVec 5) (a : BitVec 5)
  /-- ADDS (R152) -/
  | adds (d : BitVec 5) (a : BitVec 5) (b : BitVec 5) (n : BitVec 6)
  /-- SHLI (R152) -/
  | shli (d : BitVec 5) (a : BitVec 5) (n : BitVec 6)
  /-- SHRI (R152) -/
  | shri (d : BitVec 5) (a : BitVec 5) (n : BitVec 6)
  /-- SRAI (R152) -/
  | srai (d : BitVec 5) (a : BitVec 5) (n : BitVec 6)
  /-- ADDI (R154) -/
  | addi (d : BitVec 5) (a : BitVec 5) (i : BitVec 16)
  /-- ANDI (R154) -/
  | andi (d : BitVec 5) (a : BitVec 5) (i : BitVec 16)
  /-- ORI (R154) -/
  | ori (d : BitVec 5) (a : BitVec 5) (i : BitVec 16)
  /-- XORI (R154) -/
  | xori (d : BitVec 5) (a : BitVec 5) (i : BitVec 16)
  /-- SLTI (R154) -/
  | slti (d : BitVec 5) (a : BitVec 5) (i : BitVec 16)
  /-- SLTNI (R154) -/
  | sltni (d : BitVec 5) (a : BitVec 5) (i : BitVec 16)
  /-- MOVHI (R155) -/
  | movhi (d : BitVec 5) (i : BitVec 16)
  /-- ADDPC (R156) -/
  | addpc (d : BitVec 5) (i : BitVec 16)
  /-- BEQ (R157) -/
  | beq (a : BitVec 5) (b : BitVec 5) (i : BitVec 16)
  /-- BNE (R157) -/
  | bne (a : BitVec 5) (b : BitVec 5) (i : BitVec 16)
  /-- BLT (R157) -/
  | blt (a : BitVec 5) (b : BitVec 5) (i : BitVec 16)
  /-- BGE (R157) -/
  | bge (a : BitVec 5) (b : BitVec 5) (i : BitVec 16)
  /-- BLTN (R157) -/
  | bltn (a : BitVec 5) (b : BitVec 5) (i : BitVec 16)
  /-- BGEN (R157) -/
  | bgen (a : BitVec 5) (b : BitVec 5) (i : BitVec 16)
  /-- JAL (R158) -/
  | jal (d : BitVec 5) (i : BitVec 21)
  /-- JALR (R159) -/
  | jalr (d : BitVec 5) (a : BitVec 5) (i : BitVec 16)
  /-- YIELD (R143) -/
  | yield (n : BitVec 12)
  /-- END (R144) -/
  | endTask (a : BitVec 5) (s : BitVec 1) (n : BitVec 1)
  /-- END_CONT (R144) -/
  | endCont (d : BitVec 5) (a : BitVec 5)
  /-- RELEASE (R145) -/
  | release (d : BitVec 5) (a : BitVec 5) (x : BitVec 1) (p : BitVec 4)
  /-- RELEASE_DIE (R145) -/
  | releaseDie (d : BitVec 5) (a : BitVec 5) (e : BitVec 4) (x : BitVec 1) (p : BitVec 4)
  /-- RELEASE_PEER (R145) -/
  | releasePeer (d : BitVec 5) (a : BitVec 5) (x : BitVec 1) (p : BitVec 4)
  /-- CLAIM (R146) -/
  | claim (e : BitVec 6)
  /-- UNCLAIM (R146) -/
  | unclaim (e : BitVec 6)
  /-- PRIO (R147) -/
  | prio (d : BitVec 5)
  /-- PRIO_SET (R147) -/
  | prioSet (d : BitVec 5) (a : BitVec 5)
  /-- SELF (R148) -/
  | self (d : BitVec 5)
  /-- SELF_FRAME (R148) -/
  | selfFrame (d : BitVec 5)
  /-- GDEC (R317) -/
  | gdec (a : BitVec 5) (c : BitVec 12)
  /-- GNODE (R318) -/
  | gnode (d : BitVec 5)
  /-- GNODE_N (R318) -/
  | gnodeN (d : BitVec 5)
  /-- LD (R194) -/
  | ld (t : BitVec 5) (b : BitVec 5) (d : BitVec 13) (q : BitVec 3)
  /-- ST (R195) -/
  | st (t : BitVec 5) (b : BitVec 5) (d : BitVec 13) (q : BitVec 2)
  /-- LDA (R196) -/
  | lda (t : BitVec 5) (b : BitVec 5) (d : BitVec 13) (q : BitVec 2)
  /-- STL (R196) -/
  | stl (t : BitVec 5) (b : BitVec 5) (d : BitVec 13) (q : BitVec 2)
  /-- AMO (R199) -/
  | amo (t : BitVec 5) (b : BitVec 5) (s : BitVec 5) (o : BitVec 4) (r : BitVec 2) (q : BitVec 3)
  /-- AMOP (R200) -/
  | amop (b : BitVec 5) (s : BitVec 5) (o : BitVec 4) (r : BitVec 2) (q : BitVec 1)
  /-- AMOA (R200) -/
  | amoa (t : BitVec 5) (b : BitVec 5) (s : BitVec 5) (o : BitVec 4) (k : BitVec 4) (q : BitVec 1)
  /-- CAS (R201) -/
  | cas (t : BitVec 5) (b : BitVec 5) (c : BitVec 5) (n : BitVec 5) (r : BitVec 2) (q : BitVec 3)
  /-- FADD (R202) -/
  | fadd (t : BitVec 5) (b : BitVec 5) (s : BitVec 5) (r : BitVec 2) (q : BitVec 3)
  /-- FADD_POSTED (R202) -/
  | faddPosted (b : BitVec 5) (s : BitVec 5) (r : BitVec 1) (q : BitVec 3)
  /-- STF_FLAG (R206) -/
  | stfFlag (t : BitVec 5) (b : BitVec 5) (f : BitVec 5) (q : BitVec 3)
  /-- STF_TASK (R206) -/
  | stfTask (t : BitVec 5) (b : BitVec 5) (f : BitVec 5) (q : BitVec 3)
  /-- PREF (R207) -/
  | pref (b : BitVec 5) (d : BitVec 13)
  /-- PREF_FAR (R207) -/
  | prefFar (b : BitVec 5) (d : BitVec 13)
  /-- FENCE (R208) -/
  | fence
  /-- BINIT (R219) -/
  | binit (d : BitVec 5) (a : BitVec 5) (k : BitVec 4)
  /-- BEXPECT (R219) -/
  | bexpect (a : BitVec 5) (k : BitVec 4)
  /-- BARRIVE (R219) -/
  | barrive (k : BitVec 4)
  /-- BARRIVE_H (R219) -/
  | barriveH (a : BitVec 5)
  /-- BWAIT (R219) -/
  | bwait (d : BitVec 5) (a : BitVec 5) (k : BitVec 4)
  /-- BTEST (R219) -/
  | btest (d : BitVec 5) (h : BitVec 1) (k : BitVec 4)
  /-- BPOISON (R219) -/
  | bpoison (c : BitVec 8) (k : BitVec 4)
  /-- COPY (R236) -/
  | copy (d : BitVec 5) (a : BitVec 5)
  /-- COPYC (R236) -/
  | copyc (d : BitVec 5) (a : BitVec 5)
  /-- COPYM (R236) -/
  | copym (d : BitVec 5) (a : BitVec 5)
  /-- CWP (R237) -/
  | cwp (d : BitVec 5) (n : BitVec 2)
  /-- CRING (R238) -/
  | cring (d : BitVec 5) (a : BitVec 5)
  /-- VLD (R244) -/
  | vld (t : BitVec 5) (b : BitVec 5) (d : BitVec 13)
  /-- VLD_H (R244) -/
  | vldH (t : BitVec 5) (b : BitVec 5) (d : BitVec 13)
  /-- VST (R244) -/
  | vst (t : BitVec 5) (b : BitVec 5) (d : BitVec 13)
  /-- VST_H (R244) -/
  | vstH (t : BitVec 5) (b : BitVec 5) (d : BitVec 13)
  /-- VLDS (R245) -/
  | vlds (t : BitVec 5) (b : BitVec 5) (s : BitVec 5) (w : BitVec 2)
  /-- VSTS (R245) -/
  | vsts (t : BitVec 5) (b : BitVec 5) (s : BitVec 5) (w : BitVec 2)
  /-- VGATH (R247) -/
  | vgath (d : BitVec 5) (a : BitVec 5) (b : BitVec 5) (k : BitVec 3) (t : BitVec 2)
  /-- VSCAT (R247) -/
  | vscat (d : BitVec 5) (a : BitVec 5) (b : BitVec 5) (k : BitVec 3) (t : BitVec 2)
  /-- VBCAST (R248) -/
  | vbcast (d : BitVec 5) (a : BitVec 5) (k : BitVec 3) (t : BitVec 2)
  /-- VINS (R248) -/
  | vins (d : BitVec 5) (a : BitVec 5) (b : BitVec 5) (t : BitVec 2)
  /-- VEXT (R248) -/
  | vext (d : BitVec 5) (a : BitVec 5) (b : BitVec 5) (u : BitVec 1) (t : BitVec 2)
  /-- VADD (R249) -/
  | vadd (d : BitVec 5) (a : BitVec 5) (b : BitVec 5) (k : BitVec 3) (t : BitVec 2)
  /-- VSUB (R249) -/
  | vsub (d : BitVec 5) (a : BitVec 5) (b : BitVec 5) (k : BitVec 3) (t : BitVec 2)
  /-- VMUL (R249) -/
  | vmul (d : BitVec 5) (a : BitVec 5) (b : BitVec 5) (k : BitVec 3) (t : BitVec 2)
  /-- VMIN (R249) -/
  | vmin (d : BitVec 5) (a : BitVec 5) (b : BitVec 5) (k : BitVec 3) (t : BitVec 2)
  /-- VMAX (R249) -/
  | vmax (d : BitVec 5) (a : BitVec 5) (b : BitVec 5) (k : BitVec 3) (t : BitVec 2)
  /-- VDIV (R249) -/
  | vdiv (d : BitVec 5) (a : BitVec 5) (b : BitVec 5) (k : BitVec 3) (t : BitVec 2)
  /-- VFMA (R250) -/
  | vfma (d : BitVec 5) (a : BitVec 5) (b : BitVec 5) (k : BitVec 3) (t : BitVec 2)
  /-- VFMS (R250) -/
  | vfms (d : BitVec 5) (a : BitVec 5) (b : BitVec 5) (k : BitVec 3) (t : BitVec 2)
  /-- VNFMA (R250) -/
  | vnfma (d : BitVec 5) (a : BitVec 5) (b : BitVec 5) (k : BitVec 3) (t : BitVec 2)
  /-- VABS (R251) -/
  | vabs (d : BitVec 5) (a : BitVec 5) (k : BitVec 3) (t : BitVec 2)
  /-- VNEG (R251) -/
  | vneg (d : BitVec 5) (a : BitVec 5) (k : BitVec 3) (t : BitVec 2)
  /-- VSQRT (R251) -/
  | vsqrt (d : BitVec 5) (a : BitVec 5) (k : BitVec 3) (t : BitVec 2)
  /-- VRCP (R251) -/
  | vrcp (d : BitVec 5) (a : BitVec 5) (k : BitVec 3) (t : BitVec 2)
  /-- VRSQ (R251) -/
  | vrsq (d : BitVec 5) (a : BitVec 5) (k : BitVec 3) (t : BitVec 2)
  /-- VEXP2 (R251) -/
  | vexp2 (d : BitVec 5) (a : BitVec 5) (k : BitVec 3) (t : BitVec 2)
  /-- VLOG2 (R251) -/
  | vlog2 (d : BitVec 5) (a : BitVec 5) (k : BitVec 3) (t : BitVec 2)
  /-- VCMP (R252) -/
  | vcmp (d : BitVec 5) (a : BitVec 5) (b : BitVec 5) (k : BitVec 3) (c : BitVec 3) (t : BitVec 2)
  /-- VSEL (R253) -/
  | vsel (d : BitVec 5) (a : BitVec 5) (b : BitVec 5) (k : BitVec 3) (t : BitVec 2)
  /-- VCVT (R254) -/
  | vcvt (d : BitVec 5) (a : BitVec 5) (k : BitVec 3) (h : BitVec 1) (c : BitVec 4) (r : BitVec 1) (u : BitVec 1)
  /-- VIADD (R255) -/
  | viadd (d : BitVec 5) (a : BitVec 5) (b : BitVec 5) (k : BitVec 3) (u : BitVec 1) (t : BitVec 2)
  /-- VISUB (R255) -/
  | visub (d : BitVec 5) (a : BitVec 5) (b : BitVec 5) (k : BitVec 3) (u : BitVec 1) (t : BitVec 2)
  /-- VIMUL (R255) -/
  | vimul (d : BitVec 5) (a : BitVec 5) (b : BitVec 5) (k : BitVec 3) (u : BitVec 1) (t : BitVec 2)
  /-- VIMULH (R255) -/
  | vimulh (d : BitVec 5) (a : BitVec 5) (b : BitVec 5) (k : BitVec 3) (u : BitVec 1) (t : BitVec 2)
  /-- VIMIN (R255) -/
  | vimin (d : BitVec 5) (a : BitVec 5) (b : BitVec 5) (k : BitVec 3) (u : BitVec 1) (t : BitVec 2)
  /-- VIMAX (R255) -/
  | vimax (d : BitVec 5) (a : BitVec 5) (b : BitVec 5) (k : BitVec 3) (u : BitVec 1) (t : BitVec 2)
  /-- VAND (R256) -/
  | vand (d : BitVec 5) (a : BitVec 5) (b : BitVec 5) (k : BitVec 3) (t : BitVec 2)
  /-- VOR (R256) -/
  | vor (d : BitVec 5) (a : BitVec 5) (b : BitVec 5) (k : BitVec 3) (t : BitVec 2)
  /-- VXOR (R256) -/
  | vxor (d : BitVec 5) (a : BitVec 5) (b : BitVec 5) (k : BitVec 3) (t : BitVec 2)
  /-- VSHL (R256) -/
  | vshl (d : BitVec 5) (a : BitVec 5) (b : BitVec 5) (k : BitVec 3) (t : BitVec 2)
  /-- VSHR (R256) -/
  | vshr (d : BitVec 5) (a : BitVec 5) (b : BitVec 5) (k : BitVec 3) (t : BitVec 2)
  /-- VSRA (R256) -/
  | vsra (d : BitVec 5) (a : BitVec 5) (b : BitVec 5) (k : BitVec 3) (t : BitVec 2)
  /-- VICMP (R256) -/
  | vicmp (d : BitVec 5) (a : BitVec 5) (b : BitVec 5) (k : BitVec 3) (u : BitVec 1) (c : BitVec 3) (t : BitVec 2)
  /-- VREDADD (R257) -/
  | vredadd (d : BitVec 5) (a : BitVec 5) (k : BitVec 3) (u : BitVec 1) (f : BitVec 1) (t : BitVec 2)
  /-- VREDMIN (R257) -/
  | vredmin (d : BitVec 5) (a : BitVec 5) (k : BitVec 3) (u : BitVec 1) (f : BitVec 1) (t : BitVec 2)
  /-- VREDMAX (R257) -/
  | vredmax (d : BitVec 5) (a : BitVec 5) (k : BitVec 3) (u : BitVec 1) (f : BitVec 1) (t : BitVec 2)
  /-- VREDMINI (R257) -/
  | vredmini (d : BitVec 5) (a : BitVec 5) (k : BitVec 3) (u : BitVec 1) (t : BitVec 2)
  /-- VPERM (R258) -/
  | vperm (d : BitVec 5) (a : BitVec 5) (b : BitVec 5) (k : BitVec 3) (t : BitVec 2)
  /-- VSLIDE_UP (R258) -/
  | vslideUp (d : BitVec 5) (a : BitVec 5) (b : BitVec 5) (k : BitVec 3) (t : BitVec 2)
  /-- VSLIDE_DN (R258) -/
  | vslideDn (d : BitVec 5) (a : BitVec 5) (b : BitVec 5) (k : BitVec 3) (t : BitVec 2)
  /-- VZIP_LO (R258) -/
  | vzipLo (d : BitVec 5) (a : BitVec 5) (b : BitVec 5) (k : BitVec 3) (t : BitVec 2)
  /-- VZIP_HI (R258) -/
  | vzipHi (d : BitVec 5) (a : BitVec 5) (b : BitVec 5) (k : BitVec 3) (t : BitVec 2)
  /-- VCOMPR (R258) -/
  | vcompr (d : BitVec 5) (a : BitVec 5) (k : BitVec 3) (t : BitVec 2)
  /-- KAND (R259) -/
  | kand (d : BitVec 5) (a : BitVec 5) (b : BitVec 5)
  /-- KOR (R259) -/
  | kor (d : BitVec 5) (a : BitVec 5) (b : BitVec 5)
  /-- KXOR (R259) -/
  | kxor (d : BitVec 5) (a : BitVec 5) (b : BitVec 5)
  /-- KNOT (R259) -/
  | knot (d : BitVec 5) (a : BitVec 5)
  /-- KPOPC (R259) -/
  | kpopc (d : BitVec 5) (a : BitVec 5)
  /-- KFIRST (R259) -/
  | kfirst (d : BitVec 5) (a : BitVec 5)
  /-- KSET (R259) -/
  | kset (d : BitVec 5) (a : BitVec 5)
  /-- KMOV (R259) -/
  | kmov (d : BitVec 5) (a : BitVec 5)
  /-- KMOV_X (R259) -/
  | kmovX (d : BitVec 5) (a : BitVec 5)
  /-- BKANY (R260) -/
  | bkany (a : BitVec 5) (i : BitVec 16)
  /-- BKNONE (R260) -/
  | bknone (a : BitVec 5) (i : BitVec 16)
  /-- REP (R261) -/
  | rep (d : BitVec 5) (a : BitVec 5) (b : BitVec 5) (c : BitVec 8) (l : BitVec 3)
  /-- MXLDB (R279) -/
  | mxldb (s : BitVec 5) (a : BitVec 5) (c : BitVec 5) (k : BitVec 4) (y : BitVec 4)
  /-- MXZ (R280) -/
  | mxz (t : BitVec 5) (y : BitVec 1)
  /-- MXLDA (R280) -/
  | mxlda (t : BitVec 5) (a : BitVec 5) (c : BitVec 5) (y : BitVec 1)
  /-- MMA (R281) -/
  | mma (t : BitVec 5) (a : BitVec 5) (s : BitVec 5) (p : BitVec 6) (i : BitVec 1) (k : BitVec 4)
  /-- MXST (R282) -/
  | mxst (t : BitVec 5) (a : BitVec 5) (c : BitVec 5) (b : BitVec 4) (e : BitVec 1) (o : BitVec 3) (g : BitVec 2)
  /-- SCMC (R283) -/
  | scmc (e : BitVec 5) (s : BitVec 5) (m : BitVec 5) (n : BitVec 4)
  /-- MXPASS (R285) -/
  | mxpass (p : BitVec 5) (n : BitVec 1)
  /-- MXQ_T (R287) -/
  | mxqT (d : BitVec 5) (t : BitVec 5)
  /-- MXQ_S (R287) -/
  | mxqS (d : BitVec 5) (a : BitVec 5)
  /-- COUPLE (R372) -/
  | couple (d : BitVec 5) (a : BitVec 5) (c : BitVec 6)
  /-- UNCOUPLE (R372) -/
  | uncouple (d : BitVec 5) (a : BitVec 5) (c : BitVec 6)
  /-- CQUERY (R374) -/
  | cquery (d : BitVec 5) (g : BitVec 1) (c : BitVec 6)
  /-- CSYNC (R375) -/
  | csync
  /-- PAGEQ (R358) -/
  | pageq (d : BitVec 5) (a : BitVec 5)
  /-- PAGEQ_H (R358) -/
  | pageqH (d : BitVec 5) (a : BitVec 5)
  /-- CSRR (R161) -/
  | csrr (d : BitVec 5) (c : BitVec 12)
  /-- CSRW (R161) -/
  | csrw (a : BitVec 5) (c : BitVec 12)
  /-- TRAP (R300) -/
  | trap (d : BitVec 5) (a : BitVec 5) (n : BitVec 12)
  /-- BRK (R301) -/
  | brk (n : BitVec 12)
  /-- HNOP (R72) -/
  | hnop
  /-- EXT (R69) -/
  | ext (p : BitVec 22)
  /-- MOD (R70) -/
  | mod (b : BitVec 1) (s : BitVec 1) (r : BitVec 3)
  /-- SCHED (R71) -/
  | sched (s : BitVec 1) (d : BitVec 6)
  /-- WATCHDOG (R134) The fetched-word count reaches the yield window and the next fetch faults WATCHDOG. -/
  | watchdog
  /-- WITNESS_VERDICT (R139) Both digests reach the witness, which forwards the outbox or rolls back. -/
  | witnessVerdict
  /-- STREAK_LIMIT (R141) A third consecutive mismatch rollback closes the bogie and saves its stack, or raises PAIR_FAULT on a replacement. -/
  | streakLimit
  /-- QUARANTINE_MOVE (R141) When an empty replacement bogie exists, homes are rewritten and a RESUME release is sent. -/
  | quarantineMove
  /-- UNCORRECTABLE_ERROR (R296) An uncorrectable error in a core's state rolls the activation back and repairs or poisons it. -/
  | uncorrectableError
  /-- CORRECTED_ERROR (R297) A corrected error is counted by F4 per array and domain. -/
  | correctedError
  /-- TRIGGER_DELIVERY (R133) The witness delivers a result message, starting the next activation. -/
  | triggerDelivery
  /-- HELD_WRITE_ARRIVAL (R171) Bytes from outside reach a bogie's scratchpad and are held or applied. -/
  | heldWriteArrival
  /-- RELEASE_ENQUEUE_PUSH (R325) A release entering a FIFO of an idle or waiting bogie triggers a push decision. -/
  | releaseEnqueuePush
  /-- FRAME_DRAIN_END (R123) A draining frame's last command or delivery completes and its holdings are freed. -/
  | frameDrainEnd
  /-- HOME_STORE (R183) A store arrives at the home L2, is applied and records owners, sending drops. -/
  | homeStore
  /-- DROP_RECEIVED (R183) A bogie receiving a drop invalidates the word in both L1s and acknowledges. -/
  | dropReceived
  /-- STORE_PERFORMED (R184) Every drop acknowledgement returns and the store is performed. -/
  | storePerformed
  /-- LOAD_FILL (R172) A missing load's data returns from L2, RDC or HBM. -/
  | loadFill
  /-- ATOMIC_EXECUTE (R198) An atomic arrives at its executing unit and is applied serially. -/
  | atomicExecute
  /-- BARRIER_UPDATE (R212) A combined update is applied to a barrier, possibly flipping or poisoning it. -/
  | barrierUpdate
  /-- HANDLE_ARRIVAL (R214) An arrival through a handle is applied to a matching frame or dropped. -/
  | handleArrival
  /-- ENGINE_KICK (R222) A store to a hart's kick register is accepted or dropped. -/
  | engineKick
  /-- COPY_APPEND (R236) At the descriptor's home the packet claims a slot when room exists, and the hart is kicked. -/
  | copyAppend
  /-- COPY_PACKET_EXECUTE (R225) A hart checks the packet at rd and the channel moves its bytes. -/
  | copyPacketExecute
  /-- COPY_COMPLETION (R227) Once every byte is applied, barrier, successor and ring completions are issued. -/
  | copyCompletion
  /-- COMPLETION_RECORD_WRITE (R232) When ring room exists the record is written, prod advanced and wake released. -/
  | completionRecordWrite
  /-- ENGINE_HART_FAULT (R234) A hart faults, F4 completes its work with COPY_FAULT and restarts it. -/
  | engineHartFault
  /-- ENGINE_QUANTUM (R235) A 50 µs engine quantum expires and the hart switches context. -/
  | engineQuantum
  /-- MICROCODE_LOAD (R235) F2 loads a context's routine into a collective or snapshot hart. -/
  | microcodeLoad
  /-- ARRAY_COMMAND_EXECUTE (R273) The array takes the next startable command of the leased FIFO. -/
  | arrayCommandExecute
  /-- MMA_STEP (R274) An uninterruptible step of array work ends and arbitration runs again. -/
  | mmaStep
  /-- LEASE_END (R273) A lease ends on its 16-command count or 2,048-clock limit. -/
  | leaseEnd
  /-- SCALE_DELIVERY (R283) SCMC records arrive at masked bogies and are held. -/
  | scaleDelivery
  /-- SCALE_FILE_APPLY (R272) Held scale writes are applied once earlier commands finish reading. -/
  | scaleFileApply
  /-- PASS_EXECUTE (R286) An MXPASS streams operands, accumulates and stores tiles. -/
  | passExecute
  /-- PASS_COMPLETE (R286) Every pass store is performed and the successor or event is sent. -/
  | passComplete
  /-- RAISE_EVENT (R294) An agent raises an event, writing a fault record and sending an EVENT. -/
  | raiseEvent
  /-- EVENT_UNQUEUE (R293) An outstanding EVENT ends and F4 sends the next queued event of the class. -/
  | eventUnqueue
  /-- VERSION (R300) TRAP service returning the firmware version and build. -/
  | version
  /-- LINK_STATE (R396) TRAP service returning a link's LSTAT or LRETIRED. -/
  | linkState
  /-- TEMPERATURE (R300) TRAP service returning a sensor's temperature. -/
  | temperature
  /-- POWER (R300) TRAP service returning module power. -/
  | power
  /-- ERRLOG_COUNT (R300) TRAP service returning the PF error log count. -/
  | errlogCount
  /-- STEP_ENTER (R411) Engine-mode service asking F6 whether a collective step may proceed. -/
  | stepEnter
  /-- STEP_DONE (R411) Engine-mode service reporting a collective step done. -/
  | stepDone
  /-- GROUP_UPDATE (R311) The home applies one clock's reports, notices and GDECs to a group's counters. -/
  | groupUpdate
  /-- ISSUE_INSTANCE (R312) A dispatcher issues one NODE release per clock from its ready queues. -/
  | issueInstance
  /-- RELEASE_ACCEPT (R321) A dispatcher accepts a release into its pending store or refuses it. -/
  | releaseAccept
  /-- RELEASE_RESEND (R321) A refused release is sent again no sooner than 1 µs later. -/
  | releaseResend
  /-- RELEASE_FORWARD (R324) A release forwarded to another die is accepted into the named bogie's FIFO. -/
  | releaseForward
  /-- HOLD_END (R324) A held release goes through placement again when its hold ends. -/
  | holdEnd
  /-- CREATE (R106) Context command moving Free to Created. -/
  | create
  /-- ARM (R106) Context command checking configuration and loading tables. -/
  | arm
  /-- ACTIVATE (R106) Context command starting queue fetching and dispatching held releases. -/
  | activate
  /-- QUIESCE (R106) Context command stopping fetching and starting the drain. -/
  | quiesce
  /-- FREEZE (R104) Context command saving every stack at its next boundary. -/
  | freeze
  /-- THAW (R105) Context command restoring saved stacks and pending releases. -/
  | thaw
  /-- DESTROY (R106) Context command starting the scrub. -/
  | destroy
  /-- CONTEXT_COMMAND_INVALID (R97) An unknown nonzero command code sets WRONG_STATE. -/
  | contextCommandInvalid
  /-- CONTEXT_FIELD_WRITE (R96) A write to a context block RW field, taken or refused by state and range. -/
  | contextFieldWrite
  /-- QUIESCE_DRAIN_DONE (R106) No issued operation remains and the context returns to Armed. -/
  | quiesceDrainDone
  /-- FREEZE_COMPLETE (R104) Every stack is saved and nothing issued remains; state Frozen. -/
  | freezeComplete
  /-- SCRUB_DONE (R106) No operation remains and the context number returns to Free. -/
  | scrubDone
  /-- FUNCTION_LEVEL_RESET (R106) Reset of the bound function destroys the context. -/
  | functionLevelReset
  /-- KERNEL_DRAIN_END (R112) The last live frame of a Draining index ends and the held registration completes. -/
  | kernelDrainEnd
  /-- QUEUE_NOTIFY (R333) A write to a notify register marks the queue notified. -/
  | queueNotify
  /-- QUEUE_ENABLE (R331) Writing state 1 enables a Disabled queue. -/
  | queueEnable
  /-- QUEUE_TEARDOWN (R341) Writing state 0 tears an Enabled queue down. -/
  | queueTeardown
  /-- PASID_INVALIDATE (R341) Host PASID invalidation tears down every queue with that PASID. -/
  | pasidInvalidate
  /-- LAST_FETCH_RETURN (R341) A Draining queue's last fetch returns and it becomes Disabled. -/
  | lastFetchReturn
  /-- MAPPER_BIND (R335) A free mapper slot takes the head of the notified FIFO. -/
  | mapperBind
  /-- MAPPER_UNBIND (R335) A slot unbinds after 16 packets, an unsatisfied WAIT, or an empty ring. -/
  | mapperUnbind
  /-- NOP (R337) Packet that does nothing. -/
  | nop
  /-- LAUNCH_TASK (R337) Packet sending a TASK release. -/
  | launchTask
  /-- LAUNCH_GROUP (R306) Packet checking and launching a group. -/
  | launchGroup
  /-- QUEUE_COPY (R337) COPY packet appending a copy packet to a copy queue. -/
  | queueCopy
  /-- SIGNAL_STORE (R337) SIGNAL op 0: release store of a value. -/
  | signalStore
  /-- SIGNAL_ADD (R337) SIGNAL op 1: atomic add with release. -/
  | signalAdd
  /-- SIGNAL_TRIGGER (R340) SIGNAL op 2: add to a trigger counter. -/
  | signalTrigger
  /-- WAIT (R337) Packet repeating an acquire load until a condition holds. -/
  | wait
  /-- WAIT_TIMEOUT (R337) A WAIT's timeout expires and it ends TIMEOUT. -/
  | waitTimeout
  /-- SKIP_IF (R337) Packet skipping the next n packets when a condition holds. -/
  | skipIf
  /-- JUMP (R339) Packet moving execution to a command list. -/
  | jump
  /-- CALL (R339) Packet calling a command list. -/
  | call
  /-- RETURN (R339) Packet returning from a command list. -/
  | returnList
  /-- ARM_TRIGGER (R340) Packet arming a trigger with a saved packet and threshold. -/
  | armTrigger
  /-- SNAPSHOT_CUT (R413) Packet arming a snapshot at a step. -/
  | snapshotCut
  /-- REGISTER_KERNEL (R110) Packet registering or removing a kernel. -/
  | registerKernel
  /-- SET_CEILINGS (R99) Packet checking and loading the ceiling table. -/
  | setCeilings
  /-- UNMAP (R355) Translation request unmapping a range. -/
  | unmap
  /-- PROTECT (R355) Translation request changing permissions. -/
  | protect
  /-- MIGRATE (R356) Translation request moving pages to another die. -/
  | migrate
  /-- INVALIDATE_ACK (R355) An agent acknowledges a page invalidation; the last ends Restricting. -/
  | invalidateAck
  /-- MIGRATE_COPY_DONE (R356) The migrated frame is copied and parked requests replay at the new home. -/
  | migrateCopyDone
  /-- TLB_MISS (R346) A first-level miss asks the translation unit. -/
  | tlbMiss
  /-- WALK_COMPLETE (R347) A table walk finishes and the TLB is filled or the access faults. -/
  | walkComplete
  /-- PARK_REPAIR (R350) F3 repairs a parked unit and its requests replay in order. -/
  | parkRepair
  /-- UNIT_POISON (R351) F3 poisons an unrepairable unit and replays against poison. -/
  | unitPoison
  /-- FAULT_QUEUE_RESEND (R350) A request refused by a full fault queue is sent again after 1 µs. -/
  | faultQueueResend
  /-- COW_COPY_DONE (R352) A copy-on-write break's copy ends; leaf rewritten and writes replayed. -/
  | cowCopyDone
  /-- CONSIST_CREATE (R359) Consist request allocating zeroed replicas. -/
  | consistCreate
  /-- CONSIST_DESTROY (R359) Consist request returning the replicas. -/
  | consistDestroy
  /-- CHAIN_APPLY (R363) A chained store or atomic is applied at a member and forwarded. -/
  | chainApply
  /-- CHAIN_ACK (R364) An acknowledgement cleans a dirty line and passes toward the head. -/
  | chainAck
  /-- TAIL_QUERY (R366) A dirty-line read queries the tail and is served there. -/
  | tailQuery
  /-- COUPLE_COPY_DONE (R368) The last line is sent; the new die becomes tail. -/
  | coupleCopyDone
  /-- COUPLE_STREAM_DONE (R368) The new tail has applied the stream; the consist leaves Recoupling. -/
  | coupleStreamDone
  /-- UNCOUPLE_DONE (R369) The leaving member holds no outstanding work and its replica is returned. -/
  | uncoupleDone
  /-- MEMBER_FAIL (R370) A member fails and F4 forces its removal. -/
  | memberFail
  /-- FLIT_SEND (R381) A sender numbers and sends a DATA flit, keeping a retry copy. -/
  | flitSend
  /-- FLIT_RECEIVE (R382) A receiver checks a flit's CRC and sequence, delivering or NAKing. -/
  | flitReceive
  /-- REPLAY_TIMEOUT (R383) The oldest unacked flit waits 4,096 flit times and is replayed. -/
  | replayTimeout
  /-- NAK_PENDING_EXPIRY (R382) nak_pending clears after 4,096 flit times. -/
  | nakPendingExpiry
  /-- MESSAGE_INGRESS (R386) A message arriving at a die is delivered, held or discarded by stamp. -/
  | messageIngress
  /-- BOUNCE_RESEND (R389) A bounced message is sent again after 1 µs. -/
  | bounceResend
  /-- LCTL_RATE (R391) Writing the requested rate retrains the link. -/
  | lctlRate
  /-- LCTL_RETRAIN (R398) Retrain bit makes a Down link retrain. -/
  | lctlRetrain
  /-- LCTL_CLR (R398) Clr bit zeroes every counter of the block. -/
  | lctlClr
  /-- LCTL_PIN (R385) Setting pin routes the pair's traffic to this link and clears other pins. -/
  | lctlPin
  /-- LINJ_LANE_ARM (R401) A lane is made to fail permanently and is retired. -/
  | linjLaneArm
  /-- LINJ_CRC_ARM (R401) Arms inversion of a later DATA flit's CRC. -/
  | linjCrcArm
  /-- LANE_RETIRE (R392) A failing lane is retired, repaired or halves the width. -/
  | laneRetire
  /-- RETRAIN_DONE (R394) A retrain ends with the link Up, stepped down or Down. -/
  | retrainDone
  /-- REPLAY_WINDOW (R393) Replays in a 1,000,000-flit window exceed rlimit and the rate steps down. -/
  | replayWindow
  /-- FLIT_REPLAY_LIMIT (R393) A flit replayed 8 times forces a retrain. -/
  | flitReplayLimit
  /-- PEER_INGRESS (R406) A remote request is delivered in stamp order and served at the target. -/
  | peerIngress
  /-- PROXY_ATOMIC (R408) The proxy bogie issues an atomic to a peer or host in its lane. -/
  | proxyAtomic
  /-- REMOTE_TIMEOUT (R409) No acknowledgement within 10 ms ends the request with POISON. -/
  | remoteTimeout
  /-- STATION_FAIL (R410) A station goes down and traffic is re-striped. -/
  | stationFail
  /-- SNAPSHOT_CUT_TAKEN (R414) The cut condition holds; epoch advances and held STEP_ENTERs are answered. -/
  | snapshotCutTaken
  /-- DRAIN_UNIT (R418) A snapshot hart writes one unit record to storage. -/
  | drainUnit
  /-- SNAPSHOT_DONE (R420) Every unit drained; completion record written and event sent. -/
  | snapshotDone
  /-- MODULE_RESET (R425) Reset starts both hubs' boot. -/
  | moduleReset
  /-- BOOT_STAGE (R425) A boot stage completes or fails. -/
  | bootStage
  /-- SPDM_REQUEST (R426) An SPDM request is answered by one complex. -/
  | spdmRequest
  /-- FEAT_COMMIT (R428) Commit locks the accepted feature set or reports NOT_OFFERED. -/
  | featCommit
  /-- SCALE_REQ (R429) Request to enable or disable a scale server. -/
  | scaleReq
  /-- PWR_LIMIT (R430) Write of the power limit, clamped to 1,000 to 3,400 W. -/
  | pwrLimit
  /-- POWER_WINDOW (R430) Each 1 ms window F7 compares average power and withholds issue slots. -/
  | powerWindow
  /-- ERROR_RATE_THRESHOLD (R431) A domain's corrected-error rate crosses or stays above the threshold. -/
  | errorRateThreshold
  /-- FW_STAGE (R427) PF driver stages an image on the standby complex. -/
  | fwStage
  /-- FW_COMMIT (R427) Commit of a staged image begins. -/
  | fwCommit
  /-- FW_ABORT (R427) Abort discards a staged image. -/
  | fwAbort
  /-- MAILBOXES_EMPTY (R427) Every mailbox empty; the standby becomes active. -/
  | mailboxesEmpty
  /-- COMPLEX_FAILOVER (R431) The active complex fails and the standby takes over. -/
  | complexFailover
  /-- DIAGNOSTICS_DONE (R432) Bogie diagnostics end, reopening it or retiring its coach. -/
  | diagnosticsDone
  /-- UNIT_RETIRE (R432) Service retires a coach or channel and replaces it with a spare. -/
  | unitRetire
  /-- REGISTER_WRITE (R423) A write to a register with no behaviour of its own. -/
  | registerWrite
  /-- ILLEGAL_INSTRUCTION (R74) A fetched word with a reserved major opcode, reserved function value, nonzero reserved field or reserved hint kind faults ILLEGAL_INSTRUCTION. -/
  | illegalInstruction
  /-- FETCH_BOUND (R114) A fetch of a word outside the frame's code extent, or from a page not mapped executable or unmapped, faults FETCH_BOUND, EXEC_PROT or PAGE_INVALID before the word is decoded. -/
  | fetchBound
  /-- THAW_RESTORE_DONE (R106) Every saved stack of a thawed context has been restored and busy returns to 0. -/
  | thawRestoreDone
  /-- ACK_CONTROL_FLIT (R381) A receiver sends a CONTROL flit carrying its ack when no reverse DATA flit has carried it within 64 flit times. -/
  | ackControlFlit
  /-- REMOTE_ACKNOWLEDGEMENT (R405) The acknowledgement, result or failure code of a remote write or proxy atomic returns from the target to the sending die, performing the request or raising its failure. -/
  | remoteAcknowledgement
  /-- STATION_RETURN (R410) F5 brings a failed UALink station back into service and traffic is striped over it again, with no event. -/
  | stationReturn
  /-- UNDERVOLT_STEP (R431) F7 undervolts a voltage domain while UNDERVOLT is accepted and the domain's undervolt has not been revoked. -/
  | undervoltStep
  /-- MEMORY_UNCORRECTABLE_ERROR (R295) An uncorrectable error in an L2 line, HBM, an RDC line, an instruction cache, the array, the weight buffer or the accumulator pool poisons or invalidates the affected line, tile or fragment. -/
  | memoryUncorrectableError
  deriving DecidableEq, Repr

end Sys2Proof
end

