-- ==== Sys2Proof/WellFormed.lean ====
section
/-! DEFINITION. The encoding constraints of the entries: a word whose fields break one is ILLEGAL_INSTRUCTION (R59, R74).
Whether a register field lies within its kind's range or the kernel's declaration is no matter of encoding (R58, R115). -/

namespace Sys2Proof

/-- The control and status registers (R162, R189). -/
def csrNumbers : List (BitVec 12) :=
  [0x001, 0x002, 0x003, 0x010, 0x011, 0x020, 0x030, 0x031, 0x032, 0x033, 0x100, 0x101, 0x102, 0x103]

/-- The sizes of integer atomics: .i32, .n32, .i64 (R199, R201). -/
def atomicSize (q : BitVec 3) : Bool := q == 2 || q == 6 || q == 3

/-- The kinds of VCVT's codes (R254): widening, narrowing, or same width. -/
def cvtWidens (c : BitVec 4) : Bool := c == 0 || c == 1 || c == 0xB || c == 0xD

/-- See cvtWidens. -/
def cvtNarrows (c : BitVec 4) : Bool := c == 2 || c == 3 || c == 0xA || c == 0xC || c == 0xE

/-- The B types of the matrix array (R278). -/
def isBType (y : BitVec 4) : Bool :=
  y == 0 || y == 1 || y == 4 || y == 5 || y == 6 || y == 8 || y == 9 || y == 0xA

/-- An instruction whose operands keep every constraint of its entry. An instruction not named here has none beyond the
fixed bits of its encoding. -/
def wellFormed (i : Instr) : Bool :=
  match i with
  | .endTask a s _ => s == 1 || a == 0                                            -- R144
  | .release _ _ x p => x == 1 || p == 0                                          -- R145
  | .releaseDie _ _ e x p => decide (e.toNat ≤ 7) && (x == 1 || p == 0)           -- R145
  | .releasePeer _ _ x p => x == 1 || p == 0                                      -- R145
  | .gdec _ c => c != 0                                                           -- R317
  | .ld _ _ _ q => q != 7                                                         -- R194
  | .amo _ _ _ o _ q => decide (o.toNat ≤ 8) && atomicSize q                      -- R199
  | .amop _ _ o r _ => decide (o.toNat ≤ 8) && (r == 0 || r == 2)                 -- R200
  | .amoa _ _ _ o _ _ => decide (o.toNat ≤ 8)                                     -- R200
  | .cas _ _ _ _ _ q => atomicSize q                                              -- R201
  | .fadd _ _ _ _ q => decide (q.toNat ≤ 2)                                       -- R202
  | .faddPosted _ _ _ q => decide (q.toNat ≤ 2)                                   -- R202
  | .stfFlag _ _ _ q => decide (q.toNat ≤ 3)                                      -- R206
  | .stfTask _ _ _ q => decide (q.toNat ≤ 3)                                      -- R206
  | .bpoison c _ => c != 0                                                        -- R218
  | .vadd _ _ _ _ t => t != 3                                                     -- R239, R249-R252
  | .vsub _ _ _ _ t => t != 3
  | .vmul _ _ _ _ t => t != 3
  | .vmin _ _ _ _ t => t != 3
  | .vmax _ _ _ _ t => t != 3
  | .vdiv _ _ _ _ t => t != 3
  | .vfma _ _ _ _ t => t != 3
  | .vfms _ _ _ _ t => t != 3
  | .vnfma _ _ _ _ t => t != 3
  | .vabs _ _ _ t => t != 3
  | .vneg _ _ _ t => t != 3
  | .vsqrt _ _ _ t => t != 3
  | .vrcp _ _ _ t => t != 3
  | .vrsq _ _ _ t => t != 3
  | .vexp2 _ _ _ t => t != 3
  | .vlog2 _ _ _ t => t != 3
  | .vcmp _ _ _ _ _ t => t != 3
  | .vcvt _ _ _ h c r u =>                                                        -- R254
    c != 15 && (u == 0 || decide (6 ≤ c.toNat)) && (r == 0 || c == 6 || c == 8 || c == 14) &&
      (h == 0 || cvtWidens c || cvtNarrows c)
  | .vicmp _ _ _ _ _ c _ => decide (c.toNat ≤ 5)                                  -- R256
  | .vredadd _ _ _ u f t => f == 0 || (u == 0 && t != 3)                          -- R257
  | .vredmin _ _ _ u f t => f == 0 || (u == 0 && t != 3)
  | .vredmax _ _ _ u f t => f == 0 || (u == 0 && t != 3)
  | .vredmini _ _ _ _ t => t != 3
  | .mxldb _ _ _ k y =>                                                           -- R279
    isBType y && (y != 0 || decide (k.toNat ≤ 7)) && (!(y == 5 || y == 9) || decide (k.toNat % 2 = 1)) &&
      (!(y == 6 || y == 0xA) || decide (k.toNat % 4 = 3))
  | .mma _ _ _ p _ _ => p != 0                                                    -- R281
  | .mxst _ _ _ b e o g =>                                                        -- R282
    o != 7 && g != 3 && (o == 5 || o == 6 || g == 0) && (e == 1 || b == 0)
  | .csrr _ c => csrNumbers.contains c                                            -- R161
  | .csrw _ c => c == 0x020                                                       -- R161, R162, R189
  | .mod _ _ r => decide (r.toNat ≤ 4)                                            -- R70
  | _ => true

end Sys2Proof
end

