-- ==== Sys2Proof/Decode.lean ====
section
/-! DEFINITION. From words to instructions (R55-R74) and back. -/

namespace Sys2Proof

/-- The n bits of a word from bit lo upwards. -/
def field (w : BitVec 32) (lo n : Nat) : BitVec n := w.extractLsb' lo n


/-- The words of major opcode 0x00. -/
def decodeMajor00 (w : BitVec 32) : Option Instr :=
  some (.ill (field w 0 26))

/-- The words of major opcode 0x01. -/
def decodeMajor01 (w : BitVec 32) : Option Instr :=
  if field w 0 11 = 0x0#11 then some (.add (field w 21 5) (field w 16 5) (field w 11 5))
  else if field w 0 11 = 0x40#11 then some (.sub (field w 21 5) (field w 16 5) (field w 11 5))
  else if field w 0 11 = 0x80#11 then some (.and (field w 21 5) (field w 16 5) (field w 11 5))
  else if field w 0 11 = 0xC0#11 then some (.or (field w 21 5) (field w 16 5) (field w 11 5))
  else if field w 0 11 = 0x100#11 then some (.xor (field w 21 5) (field w 16 5) (field w 11 5))
  else if field w 0 11 = 0x140#11 then some (.andn (field w 21 5) (field w 16 5) (field w 11 5))
  else if field w 0 11 = 0x180#11 then some (.orn (field w 21 5) (field w 16 5) (field w 11 5))
  else if field w 0 11 = 0x1C0#11 then some (.shl (field w 21 5) (field w 16 5) (field w 11 5))
  else if field w 0 11 = 0x200#11 then some (.shr (field w 21 5) (field w 16 5) (field w 11 5))
  else if field w 0 11 = 0x240#11 then some (.sra (field w 21 5) (field w 16 5) (field w 11 5))
  else if field w 0 11 = 0x280#11 then some (.min (field w 21 5) (field w 16 5) (field w 11 5))
  else if field w 0 11 = 0x2C0#11 then some (.max (field w 21 5) (field w 16 5) (field w 11 5))
  else if field w 0 11 = 0x300#11 then some (.minn (field w 21 5) (field w 16 5) (field w 11 5))
  else if field w 0 11 = 0x340#11 then some (.maxn (field w 21 5) (field w 16 5) (field w 11 5))
  else if field w 0 11 = 0x380#11 then some (.slt (field w 21 5) (field w 16 5) (field w 11 5))
  else if field w 0 11 = 0x3C0#11 then some (.sltn (field w 21 5) (field w 16 5) (field w 11 5))
  else if field w 0 11 = 0x400#11 then some (.mul (field w 21 5) (field w 16 5) (field w 11 5))
  else if field w 0 11 = 0x440#11 then some (.mulh (field w 21 5) (field w 16 5) (field w 11 5))
  else if field w 0 11 = 0x480#11 then some (.mulhn (field w 21 5) (field w 16 5) (field w 11 5))
  else if field w 0 11 = 0x4C0#11 then some (.div (field w 21 5) (field w 16 5) (field w 11 5))
  else if field w 0 11 = 0x500#11 then some (.divn (field w 21 5) (field w 16 5) (field w 11 5))
  else if field w 0 11 = 0x540#11 then some (.rem (field w 21 5) (field w 16 5) (field w 11 5))
  else if field w 0 11 = 0x580#11 then some (.remn (field w 21 5) (field w 16 5) (field w 11 5))
  else if field w 0 16 = 0x5C0#16 then some (.clz (field w 21 5) (field w 16 5))
  else if field w 0 16 = 0x600#16 then some (.ctz (field w 21 5) (field w 16 5))
  else if field w 0 16 = 0x640#16 then some (.popc (field w 21 5) (field w 16 5))
  else if field w 6 5 = 0x1A#5 then some (.adds (field w 21 5) (field w 16 5) (field w 11 5) (field w 0 6))
  else if field w 6 10 = 0x1B#10 then some (.shli (field w 21 5) (field w 16 5) (field w 0 6))
  else if field w 6 10 = 0x1C#10 then some (.shri (field w 21 5) (field w 16 5) (field w 0 6))
  else if field w 6 10 = 0x1D#10 then some (.srai (field w 21 5) (field w 16 5) (field w 0 6))
  else none

/-- The words of major opcode 0x02. -/
def decodeMajor02 (w : BitVec 32) : Option Instr :=
  some (.addi (field w 21 5) (field w 16 5) (field w 0 16))

/-- The words of major opcode 0x03. -/
def decodeMajor03 (w : BitVec 32) : Option Instr :=
  some (.andi (field w 21 5) (field w 16 5) (field w 0 16))

/-- The words of major opcode 0x04. -/
def decodeMajor04 (w : BitVec 32) : Option Instr :=
  some (.ori (field w 21 5) (field w 16 5) (field w 0 16))

/-- The words of major opcode 0x05. -/
def decodeMajor05 (w : BitVec 32) : Option Instr :=
  some (.xori (field w 21 5) (field w 16 5) (field w 0 16))

/-- The words of major opcode 0x06. -/
def decodeMajor06 (w : BitVec 32) : Option Instr :=
  some (.slti (field w 21 5) (field w 16 5) (field w 0 16))

/-- The words of major opcode 0x07. -/
def decodeMajor07 (w : BitVec 32) : Option Instr :=
  some (.sltni (field w 21 5) (field w 16 5) (field w 0 16))

/-- The words of major opcode 0x08. -/
def decodeMajor08 (w : BitVec 32) : Option Instr :=
  if field w 16 5 = 0x0#5 then some (.movhi (field w 21 5) (field w 0 16))
  else if field w 16 5 = 0x1#5 then some (.addpc (field w 21 5) (field w 0 16))
  else none

/-- The words of major opcode 0x09. -/
def decodeMajor09 (w : BitVec 32) : Option Instr :=
  some (.beq (field w 21 5) (field w 16 5) (field w 0 16))

/-- The words of major opcode 0x0A. -/
def decodeMajor0A (w : BitVec 32) : Option Instr :=
  some (.bne (field w 21 5) (field w 16 5) (field w 0 16))

/-- The words of major opcode 0x0B. -/
def decodeMajor0B (w : BitVec 32) : Option Instr :=
  some (.blt (field w 21 5) (field w 16 5) (field w 0 16))

/-- The words of major opcode 0x0C. -/
def decodeMajor0C (w : BitVec 32) : Option Instr :=
  some (.bge (field w 21 5) (field w 16 5) (field w 0 16))

/-- The words of major opcode 0x0D. -/
def decodeMajor0D (w : BitVec 32) : Option Instr :=
  some (.bltn (field w 21 5) (field w 16 5) (field w 0 16))

/-- The words of major opcode 0x0E. -/
def decodeMajor0E (w : BitVec 32) : Option Instr :=
  some (.bgen (field w 21 5) (field w 16 5) (field w 0 16))

/-- The words of major opcode 0x0F. -/
def decodeMajor0F (w : BitVec 32) : Option Instr :=
  some (.jal (field w 21 5) (field w 0 21))

/-- The words of major opcode 0x10. -/
def decodeMajor10 (w : BitVec 32) : Option Instr :=
  some (.jalr (field w 21 5) (field w 16 5) (field w 0 16))

/-- The words of major opcode 0x11. -/
def decodeMajor11 (w : BitVec 32) : Option Instr :=
  if field w 12 14 = 0x0#14 then some (.yield (field w 0 12))
  else none

/-- The words of major opcode 0x12. -/
def decodeMajor12 (w : BitVec 32) : Option Instr :=
  if field w 21 5 = 0x0#5 ∧ field w 2 14 = 0x0#14 then some (.endTask (field w 16 5) (field w 1 1) (field w 0 1))
  else if field w 0 16 = 0x4#16 then some (.endCont (field w 21 5) (field w 16 5))
  else none

/-- The words of major opcode 0x13. -/
def decodeMajor13 (w : BitVec 32) : Option Instr :=
  if field w 5 11 = 0x0#11 then some (.release (field w 21 5) (field w 16 5) (field w 4 1) (field w 0 4))
  else if field w 9 7 = 0x1#7 then some (.releaseDie (field w 21 5) (field w 16 5) (field w 5 4) (field w 4 1) (field w 0 4))
  else if field w 5 11 = 0x20#11 then some (.releasePeer (field w 21 5) (field w 16 5) (field w 4 1) (field w 0 4))
  else if field w 6 20 = 0x40#20 then some (.claim (field w 0 6))
  else if field w 6 20 = 0x80#20 then some (.unclaim (field w 0 6))
  else if field w 0 21 = 0x3000#21 then some (.prio (field w 21 5))
  else if field w 0 16 = 0x3001#16 then some (.prioSet (field w 21 5) (field w 16 5))
  else if field w 0 21 = 0x4000#21 then some (.self (field w 21 5))
  else if field w 0 21 = 0x4001#21 then some (.selfFrame (field w 21 5))
  else if field w 21 5 = 0x0#5 ∧ field w 12 4 = 0x8#4 then some (.gdec (field w 16 5) (field w 0 12))
  else if field w 0 21 = 0x9000#21 then some (.gnode (field w 21 5))
  else if field w 0 21 = 0x9001#21 then some (.gnodeN (field w 21 5))
  else none

/-- The words of major opcode 0x14. -/
def decodeMajor14 (w : BitVec 32) : Option Instr :=
  some (.ld (field w 21 5) (field w 16 5) (field w 3 13) (field w 0 3))

/-- The words of major opcode 0x15. -/
def decodeMajor15 (w : BitVec 32) : Option Instr :=
  if field w 2 1 = 0x0#1 then some (.st (field w 21 5) (field w 16 5) (field w 3 13) (field w 0 2))
  else none

/-- The words of major opcode 0x16. -/
def decodeMajor16 (w : BitVec 32) : Option Instr :=
  if field w 2 1 = 0x0#1 then some (.lda (field w 21 5) (field w 16 5) (field w 3 13) (field w 0 2))
  else if field w 2 1 = 0x1#1 then some (.stl (field w 21 5) (field w 16 5) (field w 3 13) (field w 0 2))
  else none

/-- The words of major opcode 0x17. -/
def decodeMajor17 (w : BitVec 32) : Option Instr :=
  if field w 3 2 = 0x0#2 then some (.amo (field w 21 5) (field w 16 5) (field w 11 5) (field w 7 4) (field w 5 2) (field w 0 3))
  else none

/-- The words of major opcode 0x18. -/
def decodeMajor18 (w : BitVec 32) : Option Instr :=
  if field w 21 5 = 0x0#5 ∧ field w 1 4 = 0x1#4 then some (.amop (field w 16 5) (field w 11 5) (field w 7 4) (field w 5 2) (field w 0 1))
  else if field w 1 2 = 0x3#2 then some (.amoa (field w 21 5) (field w 16 5) (field w 11 5) (field w 7 4) (field w 3 4) (field w 0 1))
  else none

/-- The words of major opcode 0x19. -/
def decodeMajor19 (w : BitVec 32) : Option Instr :=
  if field w 3 1 = 0x0#1 then some (.cas (field w 21 5) (field w 16 5) (field w 11 5) (field w 6 5) (field w 4 2) (field w 0 3))
  else if field w 6 5 = 0x1#5 ∧ field w 3 1 = 0x1#1 then some (.fadd (field w 21 5) (field w 16 5) (field w 11 5) (field w 4 2) (field w 0 3))
  else if field w 21 5 = 0x0#5 ∧ field w 6 5 = 0x0#5 ∧ field w 3 2 = 0x1#2 then some (.faddPosted (field w 16 5) (field w 11 5) (field w 5 1) (field w 0 3))
  else none

/-- The words of major opcode 0x1A. -/
def decodeMajor1A (w : BitVec 32) : Option Instr :=
  if field w 3 8 = 0x0#8 then some (.stfFlag (field w 21 5) (field w 16 5) (field w 11 5) (field w 0 3))
  else if field w 3 8 = 0x1#8 then some (.stfTask (field w 21 5) (field w 16 5) (field w 11 5) (field w 0 3))
  else none

/-- The words of major opcode 0x1B. -/
def decodeMajor1B (w : BitVec 32) : Option Instr :=
  if field w 21 5 = 0x0#5 ∧ field w 0 3 = 0x0#3 then some (.pref (field w 16 5) (field w 3 13))
  else if field w 21 5 = 0x0#5 ∧ field w 0 3 = 0x1#3 then some (.prefFar (field w 16 5) (field w 3 13))
  else if field w 0 26 = 0x4#26 then some (.fence)
  else none

/-- The words of major opcode 0x1C. -/
def decodeMajor1C (w : BitVec 32) : Option Instr :=
  if field w 4 12 = 0x0#12 then some (.binit (field w 21 5) (field w 16 5) (field w 0 4))
  else if field w 21 5 = 0x0#5 ∧ field w 4 12 = 0x100#12 then some (.bexpect (field w 16 5) (field w 0 4))
  else if field w 4 22 = 0x200#22 then some (.barrive (field w 0 4))
  else if field w 21 5 = 0x0#5 ∧ field w 0 16 = 0x2010#16 then some (.barriveH (field w 16 5))
  else if field w 4 12 = 0x300#12 then some (.bwait (field w 21 5) (field w 16 5) (field w 0 4))
  else if field w 5 16 = 0x200#16 then some (.btest (field w 21 5) (field w 4 1) (field w 0 4))
  else if field w 12 14 = 0x5#14 then some (.bpoison (field w 4 8) (field w 0 4))
  else none

/-- The words of major opcode 0x1D. -/
def decodeMajor1D (w : BitVec 32) : Option Instr :=
  if field w 0 16 = 0x0#16 then some (.copy (field w 21 5) (field w 16 5))
  else if field w 0 16 = 0x1000#16 then some (.copyc (field w 21 5) (field w 16 5))
  else if field w 0 16 = 0x2000#16 then some (.copym (field w 21 5) (field w 16 5))
  else if field w 2 19 = 0xC00#19 then some (.cwp (field w 21 5) (field w 0 2))
  else if field w 0 16 = 0x4000#16 then some (.cring (field w 21 5) (field w 16 5))
  else none

/-- The words of major opcode 0x1E. -/
def decodeMajor1E (w : BitVec 32) : Option Instr :=
  if field w 0 3 = 0x0#3 then some (.vld (field w 21 5) (field w 16 5) (field w 3 13))
  else if field w 0 3 = 0x1#3 then some (.vldH (field w 21 5) (field w 16 5) (field w 3 13))
  else if field w 0 3 = 0x2#3 then some (.vst (field w 21 5) (field w 16 5) (field w 3 13))
  else if field w 0 3 = 0x3#3 then some (.vstH (field w 21 5) (field w 16 5) (field w 3 13))
  else if field w 0 9 = 0x4#9 then some (.vlds (field w 21 5) (field w 16 5) (field w 11 5) (field w 9 2))
  else if field w 0 9 = 0x5#9 then some (.vsts (field w 21 5) (field w 16 5) (field w 11 5) (field w 9 2))
  else none

/-- The words of major opcode 0x1F. -/
def decodeMajor1F (w : BitVec 32) : Option Instr :=
  if field w 2 6 = 0x0#6 then some (.vgath (field w 21 5) (field w 16 5) (field w 11 5) (field w 8 3) (field w 0 2))
  else if field w 2 6 = 0x1#6 then some (.vscat (field w 21 5) (field w 16 5) (field w 11 5) (field w 8 3) (field w 0 2))
  else if field w 11 5 = 0x0#5 ∧ field w 2 6 = 0x2#6 then some (.vbcast (field w 21 5) (field w 16 5) (field w 8 3) (field w 0 2))
  else if field w 2 9 = 0x3#9 then some (.vins (field w 21 5) (field w 16 5) (field w 11 5) (field w 0 2))
  else if field w 8 3 = 0x0#3 ∧ field w 2 5 = 0x4#5 then some (.vext (field w 21 5) (field w 16 5) (field w 11 5) (field w 7 1) (field w 0 2))
  else none

/-- The words of major opcode 0x20. -/
def decodeMajor20 (w : BitVec 32) : Option Instr :=
  if field w 2 6 = 0x0#6 then some (.vadd (field w 21 5) (field w 16 5) (field w 11 5) (field w 8 3) (field w 0 2))
  else if field w 2 6 = 0x1#6 then some (.vsub (field w 21 5) (field w 16 5) (field w 11 5) (field w 8 3) (field w 0 2))
  else if field w 2 6 = 0x2#6 then some (.vmul (field w 21 5) (field w 16 5) (field w 11 5) (field w 8 3) (field w 0 2))
  else if field w 2 6 = 0x3#6 then some (.vmin (field w 21 5) (field w 16 5) (field w 11 5) (field w 8 3) (field w 0 2))
  else if field w 2 6 = 0x4#6 then some (.vmax (field w 21 5) (field w 16 5) (field w 11 5) (field w 8 3) (field w 0 2))
  else if field w 2 6 = 0x5#6 then some (.vdiv (field w 21 5) (field w 16 5) (field w 11 5) (field w 8 3) (field w 0 2))
  else none

/-- The words of major opcode 0x21. -/
def decodeMajor21 (w : BitVec 32) : Option Instr :=
  if field w 2 6 = 0x0#6 then some (.vfma (field w 21 5) (field w 16 5) (field w 11 5) (field w 8 3) (field w 0 2))
  else if field w 2 6 = 0x1#6 then some (.vfms (field w 21 5) (field w 16 5) (field w 11 5) (field w 8 3) (field w 0 2))
  else if field w 2 6 = 0x2#6 then some (.vnfma (field w 21 5) (field w 16 5) (field w 11 5) (field w 8 3) (field w 0 2))
  else none

/-- The words of major opcode 0x22. -/
def decodeMajor22 (w : BitVec 32) : Option Instr :=
  if field w 11 5 = 0x0#5 ∧ field w 2 6 = 0x0#6 then some (.vabs (field w 21 5) (field w 16 5) (field w 8 3) (field w 0 2))
  else if field w 11 5 = 0x0#5 ∧ field w 2 6 = 0x1#6 then some (.vneg (field w 21 5) (field w 16 5) (field w 8 3) (field w 0 2))
  else if field w 11 5 = 0x0#5 ∧ field w 2 6 = 0x2#6 then some (.vsqrt (field w 21 5) (field w 16 5) (field w 8 3) (field w 0 2))
  else if field w 11 5 = 0x0#5 ∧ field w 2 6 = 0x3#6 then some (.vrcp (field w 21 5) (field w 16 5) (field w 8 3) (field w 0 2))
  else if field w 11 5 = 0x0#5 ∧ field w 2 6 = 0x4#6 then some (.vrsq (field w 21 5) (field w 16 5) (field w 8 3) (field w 0 2))
  else if field w 11 5 = 0x0#5 ∧ field w 2 6 = 0x5#6 then some (.vexp2 (field w 21 5) (field w 16 5) (field w 8 3) (field w 0 2))
  else if field w 11 5 = 0x0#5 ∧ field w 2 6 = 0x6#6 then some (.vlog2 (field w 21 5) (field w 16 5) (field w 8 3) (field w 0 2))
  else none

/-- The words of major opcode 0x23. -/
def decodeMajor23 (w : BitVec 32) : Option Instr :=
  if field w 5 3 = 0x0#3 then some (.vcmp (field w 21 5) (field w 16 5) (field w 11 5) (field w 8 3) (field w 2 3) (field w 0 2))
  else if field w 2 6 = 0x8#6 then some (.vsel (field w 21 5) (field w 16 5) (field w 11 5) (field w 8 3) (field w 0 2))
  else if field w 11 5 = 0x0#5 ∧ field w 7 1 = 0x1#1 then some (.vcvt (field w 21 5) (field w 16 5) (field w 8 3) (field w 6 1) (field w 2 4) (field w 1 1) (field w 0 1))
  else none

/-- The words of major opcode 0x24. -/
def decodeMajor24 (w : BitVec 32) : Option Instr :=
  if field w 2 5 = 0x0#5 then some (.viadd (field w 21 5) (field w 16 5) (field w 11 5) (field w 8 3) (field w 7 1) (field w 0 2))
  else if field w 2 5 = 0x1#5 then some (.visub (field w 21 5) (field w 16 5) (field w 11 5) (field w 8 3) (field w 7 1) (field w 0 2))
  else if field w 2 5 = 0x2#5 then some (.vimul (field w 21 5) (field w 16 5) (field w 11 5) (field w 8 3) (field w 7 1) (field w 0 2))
  else if field w 2 5 = 0x3#5 then some (.vimulh (field w 21 5) (field w 16 5) (field w 11 5) (field w 8 3) (field w 7 1) (field w 0 2))
  else if field w 2 5 = 0x4#5 then some (.vimin (field w 21 5) (field w 16 5) (field w 11 5) (field w 8 3) (field w 7 1) (field w 0 2))
  else if field w 2 5 = 0x5#5 then some (.vimax (field w 21 5) (field w 16 5) (field w 11 5) (field w 8 3) (field w 7 1) (field w 0 2))
  else none

/-- The words of major opcode 0x25. -/
def decodeMajor25 (w : BitVec 32) : Option Instr :=
  if field w 2 6 = 0x0#6 then some (.vand (field w 21 5) (field w 16 5) (field w 11 5) (field w 8 3) (field w 0 2))
  else if field w 2 6 = 0x1#6 then some (.vor (field w 21 5) (field w 16 5) (field w 11 5) (field w 8 3) (field w 0 2))
  else if field w 2 6 = 0x2#6 then some (.vxor (field w 21 5) (field w 16 5) (field w 11 5) (field w 8 3) (field w 0 2))
  else if field w 2 6 = 0x3#6 then some (.vshl (field w 21 5) (field w 16 5) (field w 11 5) (field w 8 3) (field w 0 2))
  else if field w 2 6 = 0x4#6 then some (.vshr (field w 21 5) (field w 16 5) (field w 11 5) (field w 8 3) (field w 0 2))
  else if field w 2 6 = 0x5#6 then some (.vsra (field w 21 5) (field w 16 5) (field w 11 5) (field w 8 3) (field w 0 2))
  else if field w 5 2 = 0x1#2 then some (.vicmp (field w 21 5) (field w 16 5) (field w 11 5) (field w 8 3) (field w 7 1) (field w 2 3) (field w 0 2))
  else none

/-- The words of major opcode 0x26. -/
def decodeMajor26 (w : BitVec 32) : Option Instr :=
  if field w 11 5 = 0x0#5 ∧ field w 2 4 = 0x0#4 then some (.vredadd (field w 21 5) (field w 16 5) (field w 8 3) (field w 7 1) (field w 6 1) (field w 0 2))
  else if field w 11 5 = 0x0#5 ∧ field w 2 4 = 0x1#4 then some (.vredmin (field w 21 5) (field w 16 5) (field w 8 3) (field w 7 1) (field w 6 1) (field w 0 2))
  else if field w 11 5 = 0x0#5 ∧ field w 2 4 = 0x2#4 then some (.vredmax (field w 21 5) (field w 16 5) (field w 8 3) (field w 7 1) (field w 6 1) (field w 0 2))
  else if field w 11 5 = 0x0#5 ∧ field w 2 5 = 0x3#5 then some (.vredmini (field w 21 5) (field w 16 5) (field w 8 3) (field w 7 1) (field w 0 2))
  else none

/-- The words of major opcode 0x27. -/
def decodeMajor27 (w : BitVec 32) : Option Instr :=
  if field w 2 6 = 0x0#6 then some (.vperm (field w 21 5) (field w 16 5) (field w 11 5) (field w 8 3) (field w 0 2))
  else if field w 2 6 = 0x1#6 then some (.vslideUp (field w 21 5) (field w 16 5) (field w 11 5) (field w 8 3) (field w 0 2))
  else if field w 2 6 = 0x2#6 then some (.vslideDn (field w 21 5) (field w 16 5) (field w 11 5) (field w 8 3) (field w 0 2))
  else if field w 2 6 = 0x3#6 then some (.vzipLo (field w 21 5) (field w 16 5) (field w 11 5) (field w 8 3) (field w 0 2))
  else if field w 2 6 = 0x4#6 then some (.vzipHi (field w 21 5) (field w 16 5) (field w 11 5) (field w 8 3) (field w 0 2))
  else if field w 11 5 = 0x0#5 ∧ field w 2 6 = 0x5#6 then some (.vcompr (field w 21 5) (field w 16 5) (field w 8 3) (field w 0 2))
  else none

/-- The words of major opcode 0x28. -/
def decodeMajor28 (w : BitVec 32) : Option Instr :=
  if field w 0 11 = 0x0#11 then some (.kand (field w 21 5) (field w 16 5) (field w 11 5))
  else if field w 0 11 = 0x4#11 then some (.kor (field w 21 5) (field w 16 5) (field w 11 5))
  else if field w 0 11 = 0x8#11 then some (.kxor (field w 21 5) (field w 16 5) (field w 11 5))
  else if field w 0 16 = 0xC#16 then some (.knot (field w 21 5) (field w 16 5))
  else if field w 0 16 = 0x10#16 then some (.kpopc (field w 21 5) (field w 16 5))
  else if field w 0 16 = 0x14#16 then some (.kfirst (field w 21 5) (field w 16 5))
  else if field w 0 16 = 0x18#16 then some (.kset (field w 21 5) (field w 16 5))
  else if field w 0 16 = 0x1C#16 then some (.kmov (field w 21 5) (field w 16 5))
  else if field w 0 16 = 0x20#16 then some (.kmovX (field w 21 5) (field w 16 5))
  else none

/-- The words of major opcode 0x29. -/
def decodeMajor29 (w : BitVec 32) : Option Instr :=
  if field w 16 5 = 0x0#5 then some (.bkany (field w 21 5) (field w 0 16))
  else if field w 16 5 = 0x1#5 then some (.bknone (field w 21 5) (field w 0 16))
  else none

/-- The words of major opcode 0x2A. -/
def decodeMajor2A (w : BitVec 32) : Option Instr :=
  some (.rep (field w 21 5) (field w 16 5) (field w 11 5) (field w 3 8) (field w 0 3))

/-- The words of major opcode 0x2B. -/
def decodeMajor2B (w : BitVec 32) : Option Instr :=
  if field w 8 3 = 0x0#3 then some (.mxldb (field w 21 5) (field w 16 5) (field w 11 5) (field w 4 4) (field w 0 4))
  else none

/-- The words of major opcode 0x2C. -/
def decodeMajor2C (w : BitVec 32) : Option Instr :=
  if field w 1 20 = 0x0#20 then some (.mxz (field w 21 5) (field w 0 1))
  else if field w 1 10 = 0x200#10 then some (.mxlda (field w 21 5) (field w 16 5) (field w 11 5) (field w 0 1))
  else none

/-- The words of major opcode 0x2D. -/
def decodeMajor2D (w : BitVec 32) : Option Instr :=
  some (.mma (field w 21 5) (field w 16 5) (field w 11 5) (field w 5 6) (field w 4 1) (field w 0 4))

/-- The words of major opcode 0x2E. -/
def decodeMajor2E (w : BitVec 32) : Option Instr :=
  if field w 0 1 = 0x0#1 then some (.mxst (field w 21 5) (field w 16 5) (field w 11 5) (field w 7 4) (field w 6 1) (field w 3 3) (field w 1 2))
  else none

/-- The words of major opcode 0x2F. -/
def decodeMajor2F (w : BitVec 32) : Option Instr :=
  if field w 4 7 = 0x0#7 then some (.scmc (field w 21 5) (field w 16 5) (field w 11 5) (field w 0 4))
  else none

/-- The words of major opcode 0x30. -/
def decodeMajor30 (w : BitVec 32) : Option Instr :=
  if field w 1 20 = 0x0#20 then some (.mxpass (field w 21 5) (field w 0 1))
  else if field w 0 16 = 0x200#16 then some (.mxqT (field w 21 5) (field w 16 5))
  else if field w 0 16 = 0x400#16 then some (.mxqS (field w 21 5) (field w 16 5))
  else none

/-- The words of major opcode 0x31. -/
def decodeMajor31 (w : BitVec 32) : Option Instr :=
  if field w 6 10 = 0x0#10 then some (.couple (field w 21 5) (field w 16 5) (field w 0 6))
  else if field w 6 10 = 0x40#10 then some (.uncouple (field w 21 5) (field w 16 5) (field w 0 6))
  else if field w 7 14 = 0x40#14 then some (.cquery (field w 21 5) (field w 6 1) (field w 0 6))
  else if field w 0 26 = 0x3000#26 then some (.csync)
  else none

/-- The words of major opcode 0x32. -/
def decodeMajor32 (w : BitVec 32) : Option Instr :=
  if field w 0 16 = 0x0#16 then some (.pageq (field w 21 5) (field w 16 5))
  else if field w 0 16 = 0x1000#16 then some (.pageqH (field w 21 5) (field w 16 5))
  else none

/-- The words of major opcode 0x33. -/
def decodeMajor33 (w : BitVec 32) : Option Instr :=
  if field w 12 9 = 0x0#9 then some (.csrr (field w 21 5) (field w 0 12))
  else if field w 21 5 = 0x0#5 ∧ field w 12 4 = 0x1#4 then some (.csrw (field w 16 5) (field w 0 12))
  else none

/-- The words of major opcode 0x34. -/
def decodeMajor34 (w : BitVec 32) : Option Instr :=
  if field w 12 4 = 0x0#4 then some (.trap (field w 21 5) (field w 16 5) (field w 0 12))
  else if field w 12 14 = 0x1#14 then some (.brk (field w 0 12))
  else none

/-- The words of major opcode 0x3F. -/
def decodeMajor3F (w : BitVec 32) : Option Instr :=
  if field w 0 26 = 0x0#26 then some (.hnop)
  else if field w 22 4 = 0x1#4 then some (.ext (field w 0 22))
  else if field w 5 21 = 0x40000#21 then some (.mod (field w 4 1) (field w 3 1) (field w 0 3))
  else if field w 7 19 = 0x18000#19 then some (.sched (field w 6 1) (field w 0 6))
  else none

/-- The instruction that a word has by its major opcode and function fields (R61-R64), before the constraints of the entries. -/
def decodeFields (w : BitVec 32) : Option Instr :=
  match (field w 26 6 : BitVec 6).toNat with
  | 0x00 => decodeMajor00 w
  | 0x01 => decodeMajor01 w
  | 0x02 => decodeMajor02 w
  | 0x03 => decodeMajor03 w
  | 0x04 => decodeMajor04 w
  | 0x05 => decodeMajor05 w
  | 0x06 => decodeMajor06 w
  | 0x07 => decodeMajor07 w
  | 0x08 => decodeMajor08 w
  | 0x09 => decodeMajor09 w
  | 0x0A => decodeMajor0A w
  | 0x0B => decodeMajor0B w
  | 0x0C => decodeMajor0C w
  | 0x0D => decodeMajor0D w
  | 0x0E => decodeMajor0E w
  | 0x0F => decodeMajor0F w
  | 0x10 => decodeMajor10 w
  | 0x11 => decodeMajor11 w
  | 0x12 => decodeMajor12 w
  | 0x13 => decodeMajor13 w
  | 0x14 => decodeMajor14 w
  | 0x15 => decodeMajor15 w
  | 0x16 => decodeMajor16 w
  | 0x17 => decodeMajor17 w
  | 0x18 => decodeMajor18 w
  | 0x19 => decodeMajor19 w
  | 0x1A => decodeMajor1A w
  | 0x1B => decodeMajor1B w
  | 0x1C => decodeMajor1C w
  | 0x1D => decodeMajor1D w
  | 0x1E => decodeMajor1E w
  | 0x1F => decodeMajor1F w
  | 0x20 => decodeMajor20 w
  | 0x21 => decodeMajor21 w
  | 0x22 => decodeMajor22 w
  | 0x23 => decodeMajor23 w
  | 0x24 => decodeMajor24 w
  | 0x25 => decodeMajor25 w
  | 0x26 => decodeMajor26 w
  | 0x27 => decodeMajor27 w
  | 0x28 => decodeMajor28 w
  | 0x29 => decodeMajor29 w
  | 0x2A => decodeMajor2A w
  | 0x2B => decodeMajor2B w
  | 0x2C => decodeMajor2C w
  | 0x2D => decodeMajor2D w
  | 0x2E => decodeMajor2E w
  | 0x2F => decodeMajor2F w
  | 0x30 => decodeMajor30 w
  | 0x31 => decodeMajor31 w
  | 0x32 => decodeMajor32 w
  | 0x33 => decodeMajor33 w
  | 0x34 => decodeMajor34 w
  | 0x3F => decodeMajor3F w
  | _ => none

/-- The word of an instruction: the fixed bits of its encoding and each operand at its place. The steps of the other
agents have no word. -/
def encode (i : Instr) : Option (BitVec 32) :=
  match i with
  | .ill i => some (BitVec.ofNat 32 (0x00000000 + i.toNat))
  | .add d a b => some (BitVec.ofNat 32 (0x04000000 + d.toNat * 0x200000 + a.toNat * 0x10000 + b.toNat * 0x800))
  | .sub d a b => some (BitVec.ofNat 32 (0x04000040 + d.toNat * 0x200000 + a.toNat * 0x10000 + b.toNat * 0x800))
  | .and d a b => some (BitVec.ofNat 32 (0x04000080 + d.toNat * 0x200000 + a.toNat * 0x10000 + b.toNat * 0x800))
  | .or d a b => some (BitVec.ofNat 32 (0x040000C0 + d.toNat * 0x200000 + a.toNat * 0x10000 + b.toNat * 0x800))
  | .xor d a b => some (BitVec.ofNat 32 (0x04000100 + d.toNat * 0x200000 + a.toNat * 0x10000 + b.toNat * 0x800))
  | .andn d a b => some (BitVec.ofNat 32 (0x04000140 + d.toNat * 0x200000 + a.toNat * 0x10000 + b.toNat * 0x800))
  | .orn d a b => some (BitVec.ofNat 32 (0x04000180 + d.toNat * 0x200000 + a.toNat * 0x10000 + b.toNat * 0x800))
  | .shl d a b => some (BitVec.ofNat 32 (0x040001C0 + d.toNat * 0x200000 + a.toNat * 0x10000 + b.toNat * 0x800))
  | .shr d a b => some (BitVec.ofNat 32 (0x04000200 + d.toNat * 0x200000 + a.toNat * 0x10000 + b.toNat * 0x800))
  | .sra d a b => some (BitVec.ofNat 32 (0x04000240 + d.toNat * 0x200000 + a.toNat * 0x10000 + b.toNat * 0x800))
  | .min d a b => some (BitVec.ofNat 32 (0x04000280 + d.toNat * 0x200000 + a.toNat * 0x10000 + b.toNat * 0x800))
  | .max d a b => some (BitVec.ofNat 32 (0x040002C0 + d.toNat * 0x200000 + a.toNat * 0x10000 + b.toNat * 0x800))
  | .minn d a b => some (BitVec.ofNat 32 (0x04000300 + d.toNat * 0x200000 + a.toNat * 0x10000 + b.toNat * 0x800))
  | .maxn d a b => some (BitVec.ofNat 32 (0x04000340 + d.toNat * 0x200000 + a.toNat * 0x10000 + b.toNat * 0x800))
  | .slt d a b => some (BitVec.ofNat 32 (0x04000380 + d.toNat * 0x200000 + a.toNat * 0x10000 + b.toNat * 0x800))
  | .sltn d a b => some (BitVec.ofNat 32 (0x040003C0 + d.toNat * 0x200000 + a.toNat * 0x10000 + b.toNat * 0x800))
  | .mul d a b => some (BitVec.ofNat 32 (0x04000400 + d.toNat * 0x200000 + a.toNat * 0x10000 + b.toNat * 0x800))
  | .mulh d a b => some (BitVec.ofNat 32 (0x04000440 + d.toNat * 0x200000 + a.toNat * 0x10000 + b.toNat * 0x800))
  | .mulhn d a b => some (BitVec.ofNat 32 (0x04000480 + d.toNat * 0x200000 + a.toNat * 0x10000 + b.toNat * 0x800))
  | .div d a b => some (BitVec.ofNat 32 (0x040004C0 + d.toNat * 0x200000 + a.toNat * 0x10000 + b.toNat * 0x800))
  | .divn d a b => some (BitVec.ofNat 32 (0x04000500 + d.toNat * 0x200000 + a.toNat * 0x10000 + b.toNat * 0x800))
  | .rem d a b => some (BitVec.ofNat 32 (0x04000540 + d.toNat * 0x200000 + a.toNat * 0x10000 + b.toNat * 0x800))
  | .remn d a b => some (BitVec.ofNat 32 (0x04000580 + d.toNat * 0x200000 + a.toNat * 0x10000 + b.toNat * 0x800))
  | .clz d a => some (BitVec.ofNat 32 (0x040005C0 + d.toNat * 0x200000 + a.toNat * 0x10000))
  | .ctz d a => some (BitVec.ofNat 32 (0x04000600 + d.toNat * 0x200000 + a.toNat * 0x10000))
  | .popc d a => some (BitVec.ofNat 32 (0x04000640 + d.toNat * 0x200000 + a.toNat * 0x10000))
  | .adds d a b n => some (BitVec.ofNat 32 (0x04000680 + d.toNat * 0x200000 + a.toNat * 0x10000 + b.toNat * 0x800 + n.toNat))
  | .shli d a n => some (BitVec.ofNat 32 (0x040006C0 + d.toNat * 0x200000 + a.toNat * 0x10000 + n.toNat))
  | .shri d a n => some (BitVec.ofNat 32 (0x04000700 + d.toNat * 0x200000 + a.toNat * 0x10000 + n.toNat))
  | .srai d a n => some (BitVec.ofNat 32 (0x04000740 + d.toNat * 0x200000 + a.toNat * 0x10000 + n.toNat))
  | .addi d a i => some (BitVec.ofNat 32 (0x08000000 + d.toNat * 0x200000 + a.toNat * 0x10000 + i.toNat))
  | .andi d a i => some (BitVec.ofNat 32 (0x0C000000 + d.toNat * 0x200000 + a.toNat * 0x10000 + i.toNat))
  | .ori d a i => some (BitVec.ofNat 32 (0x10000000 + d.toNat * 0x200000 + a.toNat * 0x10000 + i.toNat))
  | .xori d a i => some (BitVec.ofNat 32 (0x14000000 + d.toNat * 0x200000 + a.toNat * 0x10000 + i.toNat))
  | .slti d a i => some (BitVec.ofNat 32 (0x18000000 + d.toNat * 0x200000 + a.toNat * 0x10000 + i.toNat))
  | .sltni d a i => some (BitVec.ofNat 32 (0x1C000000 + d.toNat * 0x200000 + a.toNat * 0x10000 + i.toNat))
  | .movhi d i => some (BitVec.ofNat 32 (0x20000000 + d.toNat * 0x200000 + i.toNat))
  | .addpc d i => some (BitVec.ofNat 32 (0x20010000 + d.toNat * 0x200000 + i.toNat))
  | .beq a b i => some (BitVec.ofNat 32 (0x24000000 + a.toNat * 0x200000 + b.toNat * 0x10000 + i.toNat))
  | .bne a b i => some (BitVec.ofNat 32 (0x28000000 + a.toNat * 0x200000 + b.toNat * 0x10000 + i.toNat))
  | .blt a b i => some (BitVec.ofNat 32 (0x2C000000 + a.toNat * 0x200000 + b.toNat * 0x10000 + i.toNat))
  | .bge a b i => some (BitVec.ofNat 32 (0x30000000 + a.toNat * 0x200000 + b.toNat * 0x10000 + i.toNat))
  | .bltn a b i => some (BitVec.ofNat 32 (0x34000000 + a.toNat * 0x200000 + b.toNat * 0x10000 + i.toNat))
  | .bgen a b i => some (BitVec.ofNat 32 (0x38000000 + a.toNat * 0x200000 + b.toNat * 0x10000 + i.toNat))
  | .jal d i => some (BitVec.ofNat 32 (0x3C000000 + d.toNat * 0x200000 + i.toNat))
  | .jalr d a i => some (BitVec.ofNat 32 (0x40000000 + d.toNat * 0x200000 + a.toNat * 0x10000 + i.toNat))
  | .yield n => some (BitVec.ofNat 32 (0x44000000 + n.toNat))
  | .endTask a s n => some (BitVec.ofNat 32 (0x48000000 + a.toNat * 0x10000 + s.toNat * 0x2 + n.toNat))
  | .endCont d a => some (BitVec.ofNat 32 (0x48000004 + d.toNat * 0x200000 + a.toNat * 0x10000))
  | .release d a x p => some (BitVec.ofNat 32 (0x4C000000 + d.toNat * 0x200000 + a.toNat * 0x10000 + x.toNat * 0x10 + p.toNat))
  | .releaseDie d a e x p => some (BitVec.ofNat 32 (0x4C000200 + d.toNat * 0x200000 + a.toNat * 0x10000 + e.toNat * 0x20 + x.toNat * 0x10 + p.toNat))
  | .releasePeer d a x p => some (BitVec.ofNat 32 (0x4C000400 + d.toNat * 0x200000 + a.toNat * 0x10000 + x.toNat * 0x10 + p.toNat))
  | .claim e => some (BitVec.ofNat 32 (0x4C001000 + e.toNat))
  | .unclaim e => some (BitVec.ofNat 32 (0x4C002000 + e.toNat))
  | .prio d => some (BitVec.ofNat 32 (0x4C003000 + d.toNat * 0x200000))
  | .prioSet d a => some (BitVec.ofNat 32 (0x4C003001 + d.toNat * 0x200000 + a.toNat * 0x10000))
  | .self d => some (BitVec.ofNat 32 (0x4C004000 + d.toNat * 0x200000))
  | .selfFrame d => some (BitVec.ofNat 32 (0x4C004001 + d.toNat * 0x200000))
  | .gdec a c => some (BitVec.ofNat 32 (0x4C008000 + a.toNat * 0x10000 + c.toNat))
  | .gnode d => some (BitVec.ofNat 32 (0x4C009000 + d.toNat * 0x200000))
  | .gnodeN d => some (BitVec.ofNat 32 (0x4C009001 + d.toNat * 0x200000))
  | .ld t b d q => some (BitVec.ofNat 32 (0x50000000 + t.toNat * 0x200000 + b.toNat * 0x10000 + d.toNat * 0x8 + q.toNat))
  | .st t b d q => some (BitVec.ofNat 32 (0x54000000 + t.toNat * 0x200000 + b.toNat * 0x10000 + d.toNat * 0x8 + q.toNat))
  | .lda t b d q => some (BitVec.ofNat 32 (0x58000000 + t.toNat * 0x200000 + b.toNat * 0x10000 + d.toNat * 0x8 + q.toNat))
  | .stl t b d q => some (BitVec.ofNat 32 (0x58000004 + t.toNat * 0x200000 + b.toNat * 0x10000 + d.toNat * 0x8 + q.toNat))
  | .amo t b s o r q => some (BitVec.ofNat 32 (0x5C000000 + t.toNat * 0x200000 + b.toNat * 0x10000 + s.toNat * 0x800 + o.toNat * 0x80 + r.toNat * 0x20 + q.toNat))
  | .amop b s o r q => some (BitVec.ofNat 32 (0x60000002 + b.toNat * 0x10000 + s.toNat * 0x800 + o.toNat * 0x80 + r.toNat * 0x20 + q.toNat))
  | .amoa t b s o k q => some (BitVec.ofNat 32 (0x60000006 + t.toNat * 0x200000 + b.toNat * 0x10000 + s.toNat * 0x800 + o.toNat * 0x80 + k.toNat * 0x8 + q.toNat))
  | .cas t b c n r q => some (BitVec.ofNat 32 (0x64000000 + t.toNat * 0x200000 + b.toNat * 0x10000 + c.toNat * 0x800 + n.toNat * 0x40 + r.toNat * 0x10 + q.toNat))
  | .fadd t b s r q => some (BitVec.ofNat 32 (0x64000048 + t.toNat * 0x200000 + b.toNat * 0x10000 + s.toNat * 0x800 + r.toNat * 0x10 + q.toNat))
  | .faddPosted b s r q => some (BitVec.ofNat 32 (0x64000008 + b.toNat * 0x10000 + s.toNat * 0x800 + r.toNat * 0x20 + q.toNat))
  | .stfFlag t b f q => some (BitVec.ofNat 32 (0x68000000 + t.toNat * 0x200000 + b.toNat * 0x10000 + f.toNat * 0x800 + q.toNat))
  | .stfTask t b f q => some (BitVec.ofNat 32 (0x68000008 + t.toNat * 0x200000 + b.toNat * 0x10000 + f.toNat * 0x800 + q.toNat))
  | .pref b d => some (BitVec.ofNat 32 (0x6C000000 + b.toNat * 0x10000 + d.toNat * 0x8))
  | .prefFar b d => some (BitVec.ofNat 32 (0x6C000001 + b.toNat * 0x10000 + d.toNat * 0x8))
  | .fence => some (BitVec.ofNat 32 (0x6C000004))
  | .binit d a k => some (BitVec.ofNat 32 (0x70000000 + d.toNat * 0x200000 + a.toNat * 0x10000 + k.toNat))
  | .bexpect a k => some (BitVec.ofNat 32 (0x70001000 + a.toNat * 0x10000 + k.toNat))
  | .barrive k => some (BitVec.ofNat 32 (0x70002000 + k.toNat))
  | .barriveH a => some (BitVec.ofNat 32 (0x70002010 + a.toNat * 0x10000))
  | .bwait d a k => some (BitVec.ofNat 32 (0x70003000 + d.toNat * 0x200000 + a.toNat * 0x10000 + k.toNat))
  | .btest d h k => some (BitVec.ofNat 32 (0x70004000 + d.toNat * 0x200000 + h.toNat * 0x10 + k.toNat))
  | .bpoison c k => some (BitVec.ofNat 32 (0x70005000 + c.toNat * 0x10 + k.toNat))
  | .copy d a => some (BitVec.ofNat 32 (0x74000000 + d.toNat * 0x200000 + a.toNat * 0x10000))
  | .copyc d a => some (BitVec.ofNat 32 (0x74001000 + d.toNat * 0x200000 + a.toNat * 0x10000))
  | .copym d a => some (BitVec.ofNat 32 (0x74002000 + d.toNat * 0x200000 + a.toNat * 0x10000))
  | .cwp d n => some (BitVec.ofNat 32 (0x74003000 + d.toNat * 0x200000 + n.toNat))
  | .cring d a => some (BitVec.ofNat 32 (0x74004000 + d.toNat * 0x200000 + a.toNat * 0x10000))
  | .vld t b d => some (BitVec.ofNat 32 (0x78000000 + t.toNat * 0x200000 + b.toNat * 0x10000 + d.toNat * 0x8))
  | .vldH t b d => some (BitVec.ofNat 32 (0x78000001 + t.toNat * 0x200000 + b.toNat * 0x10000 + d.toNat * 0x8))
  | .vst t b d => some (BitVec.ofNat 32 (0x78000002 + t.toNat * 0x200000 + b.toNat * 0x10000 + d.toNat * 0x8))
  | .vstH t b d => some (BitVec.ofNat 32 (0x78000003 + t.toNat * 0x200000 + b.toNat * 0x10000 + d.toNat * 0x8))
  | .vlds t b s w => some (BitVec.ofNat 32 (0x78000004 + t.toNat * 0x200000 + b.toNat * 0x10000 + s.toNat * 0x800 + w.toNat * 0x200))
  | .vsts t b s w => some (BitVec.ofNat 32 (0x78000005 + t.toNat * 0x200000 + b.toNat * 0x10000 + s.toNat * 0x800 + w.toNat * 0x200))
  | .vgath d a b k t => some (BitVec.ofNat 32 (0x7C000000 + d.toNat * 0x200000 + a.toNat * 0x10000 + b.toNat * 0x800 + k.toNat * 0x100 + t.toNat))
  | .vscat d a b k t => some (BitVec.ofNat 32 (0x7C000004 + d.toNat * 0x200000 + a.toNat * 0x10000 + b.toNat * 0x800 + k.toNat * 0x100 + t.toNat))
  | .vbcast d a k t => some (BitVec.ofNat 32 (0x7C000008 + d.toNat * 0x200000 + a.toNat * 0x10000 + k.toNat * 0x100 + t.toNat))
  | .vins d a b t => some (BitVec.ofNat 32 (0x7C00000C + d.toNat * 0x200000 + a.toNat * 0x10000 + b.toNat * 0x800 + t.toNat))
  | .vext d a b u t => some (BitVec.ofNat 32 (0x7C000010 + d.toNat * 0x200000 + a.toNat * 0x10000 + b.toNat * 0x800 + u.toNat * 0x80 + t.toNat))
  | .vadd d a b k t => some (BitVec.ofNat 32 (0x80000000 + d.toNat * 0x200000 + a.toNat * 0x10000 + b.toNat * 0x800 + k.toNat * 0x100 + t.toNat))
  | .vsub d a b k t => some (BitVec.ofNat 32 (0x80000004 + d.toNat * 0x200000 + a.toNat * 0x10000 + b.toNat * 0x800 + k.toNat * 0x100 + t.toNat))
  | .vmul d a b k t => some (BitVec.ofNat 32 (0x80000008 + d.toNat * 0x200000 + a.toNat * 0x10000 + b.toNat * 0x800 + k.toNat * 0x100 + t.toNat))
  | .vmin d a b k t => some (BitVec.ofNat 32 (0x8000000C + d.toNat * 0x200000 + a.toNat * 0x10000 + b.toNat * 0x800 + k.toNat * 0x100 + t.toNat))
  | .vmax d a b k t => some (BitVec.ofNat 32 (0x80000010 + d.toNat * 0x200000 + a.toNat * 0x10000 + b.toNat * 0x800 + k.toNat * 0x100 + t.toNat))
  | .vdiv d a b k t => some (BitVec.ofNat 32 (0x80000014 + d.toNat * 0x200000 + a.toNat * 0x10000 + b.toNat * 0x800 + k.toNat * 0x100 + t.toNat))
  | .vfma d a b k t => some (BitVec.ofNat 32 (0x84000000 + d.toNat * 0x200000 + a.toNat * 0x10000 + b.toNat * 0x800 + k.toNat * 0x100 + t.toNat))
  | .vfms d a b k t => some (BitVec.ofNat 32 (0x84000004 + d.toNat * 0x200000 + a.toNat * 0x10000 + b.toNat * 0x800 + k.toNat * 0x100 + t.toNat))
  | .vnfma d a b k t => some (BitVec.ofNat 32 (0x84000008 + d.toNat * 0x200000 + a.toNat * 0x10000 + b.toNat * 0x800 + k.toNat * 0x100 + t.toNat))
  | .vabs d a k t => some (BitVec.ofNat 32 (0x88000000 + d.toNat * 0x200000 + a.toNat * 0x10000 + k.toNat * 0x100 + t.toNat))
  | .vneg d a k t => some (BitVec.ofNat 32 (0x88000004 + d.toNat * 0x200000 + a.toNat * 0x10000 + k.toNat * 0x100 + t.toNat))
  | .vsqrt d a k t => some (BitVec.ofNat 32 (0x88000008 + d.toNat * 0x200000 + a.toNat * 0x10000 + k.toNat * 0x100 + t.toNat))
  | .vrcp d a k t => some (BitVec.ofNat 32 (0x8800000C + d.toNat * 0x200000 + a.toNat * 0x10000 + k.toNat * 0x100 + t.toNat))
  | .vrsq d a k t => some (BitVec.ofNat 32 (0x88000010 + d.toNat * 0x200000 + a.toNat * 0x10000 + k.toNat * 0x100 + t.toNat))
  | .vexp2 d a k t => some (BitVec.ofNat 32 (0x88000014 + d.toNat * 0x200000 + a.toNat * 0x10000 + k.toNat * 0x100 + t.toNat))
  | .vlog2 d a k t => some (BitVec.ofNat 32 (0x88000018 + d.toNat * 0x200000 + a.toNat * 0x10000 + k.toNat * 0x100 + t.toNat))
  | .vcmp d a b k c t => some (BitVec.ofNat 32 (0x8C000000 + d.toNat * 0x200000 + a.toNat * 0x10000 + b.toNat * 0x800 + k.toNat * 0x100 + c.toNat * 0x4 + t.toNat))
  | .vsel d a b k t => some (BitVec.ofNat 32 (0x8C000020 + d.toNat * 0x200000 + a.toNat * 0x10000 + b.toNat * 0x800 + k.toNat * 0x100 + t.toNat))
  | .vcvt d a k h c r u => some (BitVec.ofNat 32 (0x8C000080 + d.toNat * 0x200000 + a.toNat * 0x10000 + k.toNat * 0x100 + h.toNat * 0x40 + c.toNat * 0x4 + r.toNat * 0x2 + u.toNat))
  | .viadd d a b k u t => some (BitVec.ofNat 32 (0x90000000 + d.toNat * 0x200000 + a.toNat * 0x10000 + b.toNat * 0x800 + k.toNat * 0x100 + u.toNat * 0x80 + t.toNat))
  | .visub d a b k u t => some (BitVec.ofNat 32 (0x90000004 + d.toNat * 0x200000 + a.toNat * 0x10000 + b.toNat * 0x800 + k.toNat * 0x100 + u.toNat * 0x80 + t.toNat))
  | .vimul d a b k u t => some (BitVec.ofNat 32 (0x90000008 + d.toNat * 0x200000 + a.toNat * 0x10000 + b.toNat * 0x800 + k.toNat * 0x100 + u.toNat * 0x80 + t.toNat))
  | .vimulh d a b k u t => some (BitVec.ofNat 32 (0x9000000C + d.toNat * 0x200000 + a.toNat * 0x10000 + b.toNat * 0x800 + k.toNat * 0x100 + u.toNat * 0x80 + t.toNat))
  | .vimin d a b k u t => some (BitVec.ofNat 32 (0x90000010 + d.toNat * 0x200000 + a.toNat * 0x10000 + b.toNat * 0x800 + k.toNat * 0x100 + u.toNat * 0x80 + t.toNat))
  | .vimax d a b k u t => some (BitVec.ofNat 32 (0x90000014 + d.toNat * 0x200000 + a.toNat * 0x10000 + b.toNat * 0x800 + k.toNat * 0x100 + u.toNat * 0x80 + t.toNat))
  | .vand d a b k t => some (BitVec.ofNat 32 (0x94000000 + d.toNat * 0x200000 + a.toNat * 0x10000 + b.toNat * 0x800 + k.toNat * 0x100 + t.toNat))
  | .vor d a b k t => some (BitVec.ofNat 32 (0x94000004 + d.toNat * 0x200000 + a.toNat * 0x10000 + b.toNat * 0x800 + k.toNat * 0x100 + t.toNat))
  | .vxor d a b k t => some (BitVec.ofNat 32 (0x94000008 + d.toNat * 0x200000 + a.toNat * 0x10000 + b.toNat * 0x800 + k.toNat * 0x100 + t.toNat))
  | .vshl d a b k t => some (BitVec.ofNat 32 (0x9400000C + d.toNat * 0x200000 + a.toNat * 0x10000 + b.toNat * 0x800 + k.toNat * 0x100 + t.toNat))
  | .vshr d a b k t => some (BitVec.ofNat 32 (0x94000010 + d.toNat * 0x200000 + a.toNat * 0x10000 + b.toNat * 0x800 + k.toNat * 0x100 + t.toNat))
  | .vsra d a b k t => some (BitVec.ofNat 32 (0x94000014 + d.toNat * 0x200000 + a.toNat * 0x10000 + b.toNat * 0x800 + k.toNat * 0x100 + t.toNat))
  | .vicmp d a b k u c t => some (BitVec.ofNat 32 (0x94000020 + d.toNat * 0x200000 + a.toNat * 0x10000 + b.toNat * 0x800 + k.toNat * 0x100 + u.toNat * 0x80 + c.toNat * 0x4 + t.toNat))
  | .vredadd d a k u f t => some (BitVec.ofNat 32 (0x98000000 + d.toNat * 0x200000 + a.toNat * 0x10000 + k.toNat * 0x100 + u.toNat * 0x80 + f.toNat * 0x40 + t.toNat))
  | .vredmin d a k u f t => some (BitVec.ofNat 32 (0x98000004 + d.toNat * 0x200000 + a.toNat * 0x10000 + k.toNat * 0x100 + u.toNat * 0x80 + f.toNat * 0x40 + t.toNat))
  | .vredmax d a k u f t => some (BitVec.ofNat 32 (0x98000008 + d.toNat * 0x200000 + a.toNat * 0x10000 + k.toNat * 0x100 + u.toNat * 0x80 + f.toNat * 0x40 + t.toNat))
  | .vredmini d a k u t => some (BitVec.ofNat 32 (0x9800000C + d.toNat * 0x200000 + a.toNat * 0x10000 + k.toNat * 0x100 + u.toNat * 0x80 + t.toNat))
  | .vperm d a b k t => some (BitVec.ofNat 32 (0x9C000000 + d.toNat * 0x200000 + a.toNat * 0x10000 + b.toNat * 0x800 + k.toNat * 0x100 + t.toNat))
  | .vslideUp d a b k t => some (BitVec.ofNat 32 (0x9C000004 + d.toNat * 0x200000 + a.toNat * 0x10000 + b.toNat * 0x800 + k.toNat * 0x100 + t.toNat))
  | .vslideDn d a b k t => some (BitVec.ofNat 32 (0x9C000008 + d.toNat * 0x200000 + a.toNat * 0x10000 + b.toNat * 0x800 + k.toNat * 0x100 + t.toNat))
  | .vzipLo d a b k t => some (BitVec.ofNat 32 (0x9C00000C + d.toNat * 0x200000 + a.toNat * 0x10000 + b.toNat * 0x800 + k.toNat * 0x100 + t.toNat))
  | .vzipHi d a b k t => some (BitVec.ofNat 32 (0x9C000010 + d.toNat * 0x200000 + a.toNat * 0x10000 + b.toNat * 0x800 + k.toNat * 0x100 + t.toNat))
  | .vcompr d a k t => some (BitVec.ofNat 32 (0x9C000014 + d.toNat * 0x200000 + a.toNat * 0x10000 + k.toNat * 0x100 + t.toNat))
  | .kand d a b => some (BitVec.ofNat 32 (0xA0000000 + d.toNat * 0x200000 + a.toNat * 0x10000 + b.toNat * 0x800))
  | .kor d a b => some (BitVec.ofNat 32 (0xA0000004 + d.toNat * 0x200000 + a.toNat * 0x10000 + b.toNat * 0x800))
  | .kxor d a b => some (BitVec.ofNat 32 (0xA0000008 + d.toNat * 0x200000 + a.toNat * 0x10000 + b.toNat * 0x800))
  | .knot d a => some (BitVec.ofNat 32 (0xA000000C + d.toNat * 0x200000 + a.toNat * 0x10000))
  | .kpopc d a => some (BitVec.ofNat 32 (0xA0000010 + d.toNat * 0x200000 + a.toNat * 0x10000))
  | .kfirst d a => some (BitVec.ofNat 32 (0xA0000014 + d.toNat * 0x200000 + a.toNat * 0x10000))
  | .kset d a => some (BitVec.ofNat 32 (0xA0000018 + d.toNat * 0x200000 + a.toNat * 0x10000))
  | .kmov d a => some (BitVec.ofNat 32 (0xA000001C + d.toNat * 0x200000 + a.toNat * 0x10000))
  | .kmovX d a => some (BitVec.ofNat 32 (0xA0000020 + d.toNat * 0x200000 + a.toNat * 0x10000))
  | .bkany a i => some (BitVec.ofNat 32 (0xA4000000 + a.toNat * 0x200000 + i.toNat))
  | .bknone a i => some (BitVec.ofNat 32 (0xA4010000 + a.toNat * 0x200000 + i.toNat))
  | .rep d a b c l => some (BitVec.ofNat 32 (0xA8000000 + d.toNat * 0x200000 + a.toNat * 0x10000 + b.toNat * 0x800 + c.toNat * 0x8 + l.toNat))
  | .mxldb s a c k y => some (BitVec.ofNat 32 (0xAC000000 + s.toNat * 0x200000 + a.toNat * 0x10000 + c.toNat * 0x800 + k.toNat * 0x10 + y.toNat))
  | .mxz t y => some (BitVec.ofNat 32 (0xB0000000 + t.toNat * 0x200000 + y.toNat))
  | .mxlda t a c y => some (BitVec.ofNat 32 (0xB0000400 + t.toNat * 0x200000 + a.toNat * 0x10000 + c.toNat * 0x800 + y.toNat))
  | .mma t a s p i k => some (BitVec.ofNat 32 (0xB4000000 + t.toNat * 0x200000 + a.toNat * 0x10000 + s.toNat * 0x800 + p.toNat * 0x20 + i.toNat * 0x10 + k.toNat))
  | .mxst t a c b e o g => some (BitVec.ofNat 32 (0xB8000000 + t.toNat * 0x200000 + a.toNat * 0x10000 + c.toNat * 0x800 + b.toNat * 0x80 + e.toNat * 0x40 + o.toNat * 0x8 + g.toNat * 0x2))
  | .scmc e s m n => some (BitVec.ofNat 32 (0xBC000000 + e.toNat * 0x200000 + s.toNat * 0x10000 + m.toNat * 0x800 + n.toNat))
  | .mxpass p n => some (BitVec.ofNat 32 (0xC0000000 + p.toNat * 0x200000 + n.toNat))
  | .mxqT d t => some (BitVec.ofNat 32 (0xC0000200 + d.toNat * 0x200000 + t.toNat * 0x10000))
  | .mxqS d a => some (BitVec.ofNat 32 (0xC0000400 + d.toNat * 0x200000 + a.toNat * 0x10000))
  | .couple d a c => some (BitVec.ofNat 32 (0xC4000000 + d.toNat * 0x200000 + a.toNat * 0x10000 + c.toNat))
  | .uncouple d a c => some (BitVec.ofNat 32 (0xC4001000 + d.toNat * 0x200000 + a.toNat * 0x10000 + c.toNat))
  | .cquery d g c => some (BitVec.ofNat 32 (0xC4002000 + d.toNat * 0x200000 + g.toNat * 0x40 + c.toNat))
  | .csync => some (BitVec.ofNat 32 (0xC4003000))
  | .pageq d a => some (BitVec.ofNat 32 (0xC8000000 + d.toNat * 0x200000 + a.toNat * 0x10000))
  | .pageqH d a => some (BitVec.ofNat 32 (0xC8001000 + d.toNat * 0x200000 + a.toNat * 0x10000))
  | .csrr d c => some (BitVec.ofNat 32 (0xCC000000 + d.toNat * 0x200000 + c.toNat))
  | .csrw a c => some (BitVec.ofNat 32 (0xCC001000 + a.toNat * 0x10000 + c.toNat))
  | .trap d a n => some (BitVec.ofNat 32 (0xD0000000 + d.toNat * 0x200000 + a.toNat * 0x10000 + n.toNat))
  | .brk n => some (BitVec.ofNat 32 (0xD0001000 + n.toNat))
  | .hnop => some (BitVec.ofNat 32 (0xFC000000))
  | .ext p => some (BitVec.ofNat 32 (0xFC400000 + p.toNat))
  | .mod b s r => some (BitVec.ofNat 32 (0xFC800000 + b.toNat * 0x10 + s.toNat * 0x8 + r.toNat))
  | .sched s d => some (BitVec.ofNat 32 (0xFCC00000 + s.toNat * 0x40 + d.toNat))
  | .watchdog .. => none
  | .witnessVerdict .. => none
  | .streakLimit .. => none
  | .quarantineMove .. => none
  | .uncorrectableError .. => none
  | .correctedError .. => none
  | .triggerDelivery .. => none
  | .heldWriteArrival .. => none
  | .releaseEnqueuePush .. => none
  | .frameDrainEnd .. => none
  | .homeStore .. => none
  | .dropReceived .. => none
  | .storePerformed .. => none
  | .loadFill .. => none
  | .atomicExecute .. => none
  | .barrierUpdate .. => none
  | .handleArrival .. => none
  | .engineKick .. => none
  | .copyAppend .. => none
  | .copyPacketExecute .. => none
  | .copyCompletion .. => none
  | .completionRecordWrite .. => none
  | .engineHartFault .. => none
  | .engineQuantum .. => none
  | .microcodeLoad .. => none
  | .arrayCommandExecute .. => none
  | .mmaStep .. => none
  | .leaseEnd .. => none
  | .scaleDelivery .. => none
  | .scaleFileApply .. => none
  | .passExecute .. => none
  | .passComplete .. => none
  | .raiseEvent .. => none
  | .eventUnqueue .. => none
  | .version .. => none
  | .linkState .. => none
  | .temperature .. => none
  | .power .. => none
  | .errlogCount .. => none
  | .stepEnter .. => none
  | .stepDone .. => none
  | .groupUpdate .. => none
  | .issueInstance .. => none
  | .releaseAccept .. => none
  | .releaseResend .. => none
  | .releaseForward .. => none
  | .holdEnd .. => none
  | .create .. => none
  | .arm .. => none
  | .activate .. => none
  | .quiesce .. => none
  | .freeze .. => none
  | .thaw .. => none
  | .destroy .. => none
  | .contextCommandInvalid .. => none
  | .contextFieldWrite .. => none
  | .quiesceDrainDone .. => none
  | .freezeComplete .. => none
  | .scrubDone .. => none
  | .functionLevelReset .. => none
  | .kernelDrainEnd .. => none
  | .queueNotify .. => none
  | .queueEnable .. => none
  | .queueTeardown .. => none
  | .pasidInvalidate .. => none
  | .lastFetchReturn .. => none
  | .mapperBind .. => none
  | .mapperUnbind .. => none
  | .nop .. => none
  | .launchTask .. => none
  | .launchGroup .. => none
  | .queueCopy .. => none
  | .signalStore .. => none
  | .signalAdd .. => none
  | .signalTrigger .. => none
  | .wait .. => none
  | .waitTimeout .. => none
  | .skipIf .. => none
  | .jump .. => none
  | .call .. => none
  | .returnList .. => none
  | .armTrigger .. => none
  | .snapshotCut .. => none
  | .registerKernel .. => none
  | .setCeilings .. => none
  | .unmap .. => none
  | .protect .. => none
  | .migrate .. => none
  | .invalidateAck .. => none
  | .migrateCopyDone .. => none
  | .tlbMiss .. => none
  | .walkComplete .. => none
  | .parkRepair .. => none
  | .unitPoison .. => none
  | .faultQueueResend .. => none
  | .cowCopyDone .. => none
  | .consistCreate .. => none
  | .consistDestroy .. => none
  | .chainApply .. => none
  | .chainAck .. => none
  | .tailQuery .. => none
  | .coupleCopyDone .. => none
  | .coupleStreamDone .. => none
  | .uncoupleDone .. => none
  | .memberFail .. => none
  | .flitSend .. => none
  | .flitReceive .. => none
  | .replayTimeout .. => none
  | .nakPendingExpiry .. => none
  | .messageIngress .. => none
  | .bounceResend .. => none
  | .lctlRate .. => none
  | .lctlRetrain .. => none
  | .lctlClr .. => none
  | .lctlPin .. => none
  | .linjLaneArm .. => none
  | .linjCrcArm .. => none
  | .laneRetire .. => none
  | .retrainDone .. => none
  | .replayWindow .. => none
  | .flitReplayLimit .. => none
  | .peerIngress .. => none
  | .proxyAtomic .. => none
  | .remoteTimeout .. => none
  | .stationFail .. => none
  | .snapshotCutTaken .. => none
  | .drainUnit .. => none
  | .snapshotDone .. => none
  | .moduleReset .. => none
  | .bootStage .. => none
  | .spdmRequest .. => none
  | .featCommit .. => none
  | .scaleReq .. => none
  | .pwrLimit .. => none
  | .powerWindow .. => none
  | .errorRateThreshold .. => none
  | .fwStage .. => none
  | .fwCommit .. => none
  | .fwAbort .. => none
  | .mailboxesEmpty .. => none
  | .complexFailover .. => none
  | .diagnosticsDone .. => none
  | .unitRetire .. => none
  | .registerWrite .. => none
  | .illegalInstruction .. => none
  | .fetchBound .. => none
  | .thawRestoreDone .. => none
  | .ackControlFlit .. => none
  | .remoteAcknowledgement .. => none
  | .stationReturn .. => none
  | .undervoltStep .. => none
  | .memoryUncorrectableError .. => none

/-- The one instruction a word decodes as, or none: then the word is ILLEGAL_INSTRUCTION (R56, R74). -/
def decode (w : BitVec 32) : Option Instr :=
  match decodeFields w with
  | some i => if wellFormed i then some i else none
  | none => none

/-- The word that four bytes hold, little-endian (R55). -/
def wordOfBytes (b0 b1 b2 b3 : Byte) : BitVec 32 := b3 ++ b2 ++ b1 ++ b0

/-- Decoding from bytes: the instruction and the bytes after it, or none where fewer than four bytes stand or the word
is no instruction. -/
def decodeBytes (l : List Byte) : Option (Instr × List Byte) :=
  match l with
  | b0 :: b1 :: b2 :: b3 :: rest =>
    match decode (wordOfBytes b0 b1 b2 b3) with
    | some i => some (i, rest)
    | none => none
  | _ => none

/-- The four bytes of a word, the lowest address first (R55). -/
def bytesOfWord (w : BitVec 32) : List Byte :=
  [w.extractLsb' 0 8, w.extractLsb' 8 8, w.extractLsb' 16 8, w.extractLsb' 24 8]

/-- The instruction the decoder reads from a table row's word. -/
def decodeTableWord (_nbits w : Nat) : Option Instr :=
  match decodeBytes (bytesOfWord (BitVec.ofNat 32 w)) with
  | some (i, _) => some i
  | none => none

end Sys2Proof
end

