-- ==== Sys2Proof/Machine/State.lean ====
section
/-! DEFINITION. The state of the machine as plain data, its reset, and the ways a step can stop. -/

namespace Sys2Proof.Machine

/-- Why the machine stops with a fault. -/
inductive Fault where
  /-- A word was to be executed for an agent that has no frame and no engine in that state: no step of the machine asks
  for it, since step runs words only on agents that run (safe). -/
  | noTask
  deriving DecidableEq, Repr

/-- Why an instruction has no meaning here. -/
inductive Refusal where
  /-- The instruction of that mnemonic is not modelled; raised by Dispatch alone (safe). -/
  | notModelled (mnemonic : String)
  deriving DecidableEq, Repr

/-- The prefix before a word (R68): the payloads of its EXT words in order, its MOD and its SCHED payload. -/
structure Prefix where
  exts  : List (BitVec 22) := []
  mod   : Option (BitVec 5) := none
  sched : Option (BitVec 7) := none
  deriving DecidableEq, Repr

/-- What a core and an engine hart share: scalar registers (x0 is not stored, R43), the PC and the prefix. -/
structure Cpu where
  x   : Tab Word := []
  pc  : Word := 0
  pfx : Prefix := {}
  deriving DecidableEq, Repr

/-- The registered copy of a kernel header (R108, R111, R115). -/
structure Header where
  addr     : Nat := 0
  sregs    : Nat := 8
  vregs    : Nat := 0
  kregs    : Nat := 0
  acc      : Nat := 0
  scratch  : Nat := 0
  barriers : Nat := 0
  yield    : Nat := 0
  codeOff  : Int := 64
  words    : Nat := 1
  res      : BitVec 64 := 0
  deriving DecidableEq, Repr

/-- What a frame awaits as its next triggering message (R133): the request, the scalar destination, how its value is
extended, whether the next activation begins with the acquire actions of R186, whether a load is to pass the caches by (R176), the word that
asks, whether the request has been made, and the answer: a value, or the fault code and address that it met. -/
structure Await where
  op      : Op
  dest    : BitVec 5 := 0
  size    : Nat := 8
  sext    : Bool := false
  acquire : Bool := false
  bypass  : Bool := false
  pc      : Word := 0
  word    : BitVec 32 := 0
  started : Bool := false
  reply   : Option (Except (Nat × Word) Word) := none
  deriving DecidableEq, Repr

/-- A frame (R121), with the bogies that it has stood on, by which handles name it (R141, R214). -/
structure Frame where
  uid     : Nat := 1
  ctx     : Nat := 0
  type    : Nat := 1
  record  : Nat := 0
  d0      : Word := 0
  succ    : Nat := 0
  arg     : BitVec 32 := 0
  inst    : BitVec 32 := 0
  node    : BitVec 32 := 0
  ninst   : Nat := 0
  cls     : Nat := 0
  kernel  : Nat := 0
  prio    : Nat := 0
  level   : Nat := 0
  tag     : BitVec 8 := 0
  claims  : List (Nat × Nat) := []
  window  : Nat := 4095
  hdr     : Header := {}
  cpu     : Cpu := {}
  v       : Tab Vec := []
  k       : Tab Mask := []
  sbase   : Nat := 0
  tiles   : List Nat := []
  scaleA  : BitVec 10 := 0
  instret : Word := 0
  faultPc    : Word := 0
  faultCode  : Word := 0
  faultAddr  : Word := 0
  faultExtra : Word := 0
  acquire : Bool := true
  await   : Option Await := none
  bogies  : List Nat := []
  deriving DecidableEq, Repr

/-- A frame that drains (R123): its header, whose scratchpad range and tiles stay counted. -/
structure Drain where
  frame : Frame
  deriving DecidableEq, Repr

/-- A first-level TLB entry (R346). -/
structure TlbEntry where
  ctx   : Nat := 0
  page  : Nat := 0
  size  : Nat := 0
  x     : Bool := false
  w     : Bool := false
  rd    : Bool := false
  cls   : Nat := 0
  place : Nat := 0
  epoch : BitVec 8 := 0
  syn   : Bool := false
  deriving DecidableEq, Repr

/-- A 32-byte sector of the L1 data cache (R172): which bytes are valid, which words are owned, whether a PREF brought it
in, which bytes a load has read since and which have been overwritten (R189), whether its line is poisoned (R298), and whether it is to be replaced first (R71). -/
structure Sector where
  ctx   : Nat := 0
  va    : Nat := 0
  data  : Tab Byte := []
  valid : BitVec 32 := 0
  owned : BitVec 8 := 0
  pref  : Bool := false
  used  : BitVec 32 := 0
  stale : BitVec 32 := 0
  poison : Bool := false
  stream : Bool := false
  deriving DecidableEq, Repr

/-- A line of 64 bytes of an instruction cache (R22). -/
structure CodeLine where
  ctx  : Nat := 0
  va   : Nat := 0
  data : Vec := 0
  deriving DecidableEq, Repr

/-- What one maker, a copy hart by its number, has written of a poisoned line or sector, byte by byte (R296, R298). -/
structure Wipe where
  at'  : Nat
  by'  : Nat
  mask : BitVec 64
  deriving DecidableEq, Repr

/-- The repetition buffer (R261): the address of the REP, the words of its body, the number of passes, the strides, and
the pass and body word that issue next. -/
structure Rep where
  addr  : Word
  body  : List (BitVec 32)
  count : Nat
  sd    : Int
  sa    : Int
  sb    : Int
  pass  : Nat := 0
  idx   : Nat := 0
  deriving DecidableEq, Repr

/-- How an activation ended (R132): at a suspension point or forced commit with nothing awaited, awaiting a request, at the
end of its task by END or MXPASS, at the end by BRK, or at a synchronous fault. -/
inductive Boundary where
  | commit
  | await
  | ended
  | brk (f : FaultInfo)
  | fault (f : FaultInfo)
  deriving DecidableEq, Repr

/-- What a bogie does: nothing, an activation, an activation stalled on a missing line or translation of an address, a
boundary that the witness has not judged, or waiting for its next triggering message. -/
inductive Phase where
  | idle
  | running
  | stalled (va : Nat)
  | boundary (b : Boundary)
  | waiting
  deriving DecidableEq, Repr

/-- A forwarded outbox entry that is not performed (R184, R185, R433). -/
structure Transit where
  id   : Nat
  uid  : Nat
  ctx  : Nat
  op   : Op
  sent : Bool := false
  deriving DecidableEq, Repr

/-- A bogie (R22, R121). Its two cores hold identical contents whenever an activation commits, and one copy stands for both
(R21, R22). written holds, since the last acquire, each line that an own store or atomic performed meanwhile touched, with its context and
the die's count of RDC fills at that time (log 118); peerReads holds what the activation has loaded through the peer region, by bogie,
offset and bytes (R189). -/
structure Bogie where
  stack    : List Frame := []
  draining : List Drain := []
  floor    : Nat := 0
  closed   : Bool := false
  streak   : Nat := 0
  replaces : Option Nat := none
  pushes   : BitVec 8 := 0
  scratch  : Tab Byte := []
  spoison  : List Nat := []
  fresh    : List Nat := []
  scale    : Tab (BitVec 32) := []
  outbox   : List Op := []
  journal  : List (Nat × List Byte × Bool) := []
  ckpt     : Option Frame := none
  cycle    : Nat := 0
  cwp      : List (BitVec 64) := []
  pfLatch  : List (BitVec 64) := []
  peerReads : List (Nat × Nat × Nat) := []
  phase    : Phase := .idle
  fetched  : Nat := 0
  rep      : Option Rep := none
  tlb      : List TlbEntry := []
  unmapped : Option Nat := none
  l1       : List Sector := []
  buf      : List Sector := []
  icache   : List CodeLine := []
  wiping   : List Wipe := []
  stamp    : Nat := 0
  written  : List (Nat × Nat × Nat) := []
  held     : List (Nat × Held) := []
  transit  : List Transit := []
  owed     : List Nat := []
  quarantined : Option Nat := none
  pfBrought : BitVec 64 := 0
  pfUsed    : BitVec 64 := 0
  pfWait    : BitVec 64 := 0
  pfEvict   : BitVec 64 := 0
  deriving DecidableEq, Repr

/-- A weight-buffer slot (R271). -/
structure Slot where
  loaded : Bool := false
  type   : Nat := 0
  k      : Nat := 0
  base   : Nat := 0
  data   : Tab Byte := []
  poison : List Nat := []
  deriving DecidableEq, Repr

/-- An accumulator tile (R270): element (i, j) is number i × 128 + j. -/
structure Tile where
  data   : Tab (BitVec 32) := []
  i32    : Bool := false
  poison : Bool := false
  sat    : Bool := false
  deriving DecidableEq, Repr

/-- A lease of the array (R273). -/
structure Lease where
  level : Nat
  bogie : Nat
  done  : Nat := 0
  start : Nat := 0
  deriving DecidableEq, Repr

/-- A command that a shadow context holds (R274): the command, the steps it has completed, and how a pass has fared
(R286). -/
structure MxRun where
  cmd    : MxCmd
  steps  : Nat := 0
  status : Nat := 0
  cause  : Nat := 0
  addr   : Nat := 0
  deriving DecidableEq, Repr

/-- A command whose global stores are not all performed (R268, R282, R286): their request numbers, and the address and home
die of the highest line stored. -/
structure MxJob where
  cmd    : MxCmd
  owed   : List Nat := []
  bytes  : Nat := 0
  status : Nat := 0
  cause  : Nat := 0
  addr   : Nat := 0
  top    : Option (Nat × Nat) := none
  deriving DecidableEq, Repr

/-- A coach: the matrix array and what it holds (R266-R275), the progress of its copy channels (R237), and its instruction cache (R22). -/
structure Coach where
  slots   : Tab Slot := []
  tiles   : Tab Tile := []
  fifos   : Tab (List MxCmd) := []
  shadow  : Tab MxRun := []
  lease   : Option Lease := none
  jobs    : List MxJob := []
  chPackets : Tab (BitVec 40) := []
  chBytes   : Tab (BitVec 24) := []
  icache  : List CodeLine := []
  deriving DecidableEq, Repr

/-- Where a release of the pending store stands (R127, R129, R321, R324, R327): held, waiting for a bogie that it fits, waiting for a
bogie to reopen, to be replaced or to be thawed, in a bogie's FIFO, in a save slot, on its way to another die's dispatcher, or pushed as
the frame of a number, whose first activation has not committed. -/
inductive Place where
  | held
  | waiting
  | closed (g : Nat)
  | fifo (g level : Nat)
  | saved
  | leaving
  | pushed (uid : Nat)
  deriving DecidableEq, Repr

/-- An entry of the pending store: its number, the release, who sent it (the rank of its sender among those of one clock, R127),
the first doubleword of its record as read at placement, where it waits, the clock at which it came there, and its place among those that
came in that clock where that is settled before: of releases held or saved, which go in their order (R105, R106, R141). -/
structure Pending where
  id    : Nat := 0
  rel   : Release
  sender : Nat := 0
  d0    : Word := 0
  place : Place := .held
  clock : Nat := 0
  order : Option Nat := none
  deriving DecidableEq, Repr

/-- A line of an RDC (R172, R187): the fill count it carries, and the first half's and second half's bytes as one record. -/
structure RdcLine where
  ctx    : Nat := 0
  va     : Nat := 0
  data   : Vec := 0
  fill   : Nat := 0
  poison : Bool := false
  deriving DecidableEq, Repr

/-- A record of a remap filter (R353): the first frame and how many 64 KiB units of it a leaf names, the page that it maps them at and
that page's size code. -/
structure Alias where
  frame : Nat
  ctx   : Nat
  page  : Nat
  size  : Nat := 0
  units : Nat := 1
  deriving DecidableEq, Repr

/-- A store or atomic that its home applied and that waits for drop acknowledgements (R183, R184, R198): the bogies that owe one, the words
of memory that it touched, and the old value of an atomic. -/
structure Dropping where
  req  : Req
  owed : List Nat
  words : List Nat := []
  old  : Nat := 0
  deriving DecidableEq, Repr

/-- A message between dies (R379): its kind, its source and destination die and endpoint, its stamp (R386), context, slots,
spread address (R385) and whether it was bounced, with the step that it brings about at its destination. -/
structure Msg where
  kind   : Nat
  src    : Nat
  ep     : Nat
  dst    : Nat
  dstEp  : Nat := 0
  stamp  : BitVec 16
  ctx    : Nat := 0
  slots  : Nat := 1
  spread : Nat := 0
  bounced : Bool := false
  ev     : Instr
  arg    : Args
  deriving DecidableEq, Repr

/-- A DATA flit in a retry buffer (R381): its number, its messages, how often it has been replayed and when it was sent. -/
structure Flit where
  seq     : BitVec 12
  msgs    : List Msg
  replays : Nat := 0
  clock   : Nat := 0
  deriving DecidableEq, Repr

/-- A flit on the wire of one direction (R378): its number, in a CONTROL flit the next that the sender will use; the messages of a DATA
flit, none in a CONTROL flit; the message slots in use; the sender's rate and width codes; whether its CRC is damaged; and the
acknowledgement of the reverse direction. -/
structure Wire where
  seq  : BitVec 12
  data : Option (List Msg)
  slots : Nat := 0
  rate : Nat := 0
  width : Nat := 0
  bad  : Bool := false
  nak  : Bool := false
  ack  : BitVec 12 := 0
  deriving DecidableEq, Repr

/-- One direction of a link (R381-R383, R393, R400): the sender's next number, retry buffer, how many of its flits are sent
since the last go-back, the messages that wait and the flits on the wire; the receiver's expected number, when nak_pending
was set, whether a NAK or an acknowledgement is owed; the counters and the running window. -/
structure LinkDir where
  n       : BitVec 12 := 0
  retry   : List Flit := []
  resent  : Nat := 0
  waiting : List Msg := []
  wire    : List Wire := []
  e       : BitVec 12 := 0
  nakPending : Option Nat := none
  nakOwed : Bool := false
  ackOwed : Bool := false
  sent    : BitVec 64 := 0
  crc     : BitVec 64 := 0
  naks    : BitVec 64 := 0
  replays : BitVec 64 := 0
  winFlits   : Nat := 0
  winReplays : Nat := 0
  deriving DecidableEq, Repr

/-- A die-to-die link (R376, R392-R401): the control fields, the state, the lanes, the repair lanes with the lane each
stands for, the retrain under way, the clock in which a change of rate began it with the rate before (the model's own), the injection fields and the two directions. -/
structure Link where
  rlimit  : BitVec 16 := 64
  single  : Bool := false
  pin     : Bool := false
  req     : BitVec 3 := 2
  rate    : Nat := 2
  width   : Nat := 0
  base    : Nat := 0
  state   : Nat := 0
  repRetired : BitVec 4 := 0
  repairs : List (Nat × Nat) := []
  lanes   : BitVec 64 := 0
  further : Bool := false
  why     : Option (Nat × Nat) := none
  begun   : Option (Nat × Nat) := none
  injLane : BitVec 7 := 0
  injDir  : Bool := false
  crcAfter : BitVec 16 := 0
  crcArm  : Bool := false
  crcLeft : Nat := 0
  ab      : LinkDir := {}
  ba      : LinkDir := {}
  retrains : BitVec 64 := 0
  deriving DecidableEq, Repr

/-- The part of a die, or hub, that links reach (R386, R388, R389): the stamps its endpoints have sent, the stamps it expects,
messages that have arrived and are not taken, held messages, the delivered ones not handed to their endpoints yet, with whether they take
their context's reserved entries, the bounce store with the clocks from which each may go again, and messages with no way on. -/
structure Ingress where
  sentStamps : Tab (BitVec 16) := []
  expected : Tab (BitVec 16) := []
  arrived  : List Msg := []
  held     : List Msg := []
  ready    : List (Msg × Bool) := []
  bounce   : List (Msg × Nat) := []
  stuck    : List Msg := []
  deriving DecidableEq, Repr

/-- A node of a live group (R303, R308): what the table gave, the predecessor and done counters, and whether it has
completed. -/
structure GNode where
  kernel : Nat := 0
  prio   : Nat := 0
  succs  : List Nat := []
  count  : Nat := 0
  pred   : Nat := 0
  left   : Nat := 1
  complete : Bool := false
  deriving DecidableEq, Repr

/-- A group in a slot of a counter store (R302, R308): state 1 Running, 2 Complete, 3 Faulted; flight counts the instances in
flight of each die (R310). -/
structure Group where
  ctx     : Nat
  block   : Nat
  table   : Nat
  nodes   : List GNode
  limit   : Nat := 0
  weights : List Nat := []
  args    : List Word := []
  last    : Nat := 0
  done    : Nat := 0
  state   : Nat := 1
  completed : Nat := 0
  flight  : Tab Nat := []
  deriving DecidableEq, Repr

/-- A node in a ready queue of a die (R312): its group, its level, the instances of the die's share left to issue, and the clock in which
it entered. -/
structure Ready where
  home  : Nat
  slot  : Nat
  gen   : BitVec 8
  node  : Nat
  level : Nat
  next  : Nat
  last  : Nat
  since : Nat := 0
  deriving DecidableEq, Repr

/-- An update of a group's counters that reached its home (R311): when, from which bogie, in which context, and whether it
is a notice or a GDEC. -/
structure GroupMsg where
  clock : Nat
  g     : Nat
  ctx   : Nat
  op    : Op
  deriving DecidableEq, Repr

/-- A translation that a die's unit holds (R22, R347): the page, its size code, the entry's word and where memory holds it. -/
structure Trans where
  ctx  : Nat
  page : Nat
  size : Nat
  key  : Nat
  word : Word
  deriving DecidableEq, Repr

/-- A compute die. -/
structure Die where
  coaches  : Nat := 24
  spareCo  : Nat := 2
  channels : Nat := 64
  spareCh  : Nat := 4
  store    : List Pending := []
  pointer  : Nat := 0
  rdc      : List RdcLine := []
  rdcFills : Nat := 0
  parked   : List Req := []
  remap    : List Alias := []
  reserve  : List Nat := []
  trans    : List Trans := []
  walks    : List (Nat × Nat) := []
  walkq    : List (Nat × Nat) := []
  dropping : List Dropping := []
  alloc    : Nat := 0
  groups   : Tab Group := []
  gens     : Tab (BitVec 8) := []
  groupIn  : List GroupMsg := []
  ready    : List Ready := []
  lanes    : Tab (List Req) := []
  deriving DecidableEq, Repr

/-- A delivery or store that a copy has sent (R226): its number, its bytes and where they begin, and whether it is applied. -/
structure Owed where
  id   : Nat
  len  : Nat := 0
  addr : Nat := 0
  done : Bool := false
  deriving DecidableEq, Repr

/-- A copy packet in hand (R225-R230): its context, queue and slot, the packet, its channel; how many of its bytes have been
sent, the source bytes read for the next delivery, the remote read that it waits for; the first poisoned source line among those and which
of them lie in one; the deliveries and stores sent; the bytes applied in address order, and its status, cause and failing address; stage 0
moving, 1 completing, 2 waiting at its completion ring, 3 with its completion record being written, 4 with its slot being emptied, 5 with its
arrival or its successor's release to be performed and no record to follow. -/
structure CopyRun where
  ctx   : Nat
  desc  : Nat
  slot  : Nat
  pkt   : Vec
  coach : Nat
  ch    : Nat
  sent  : Nat := 0
  buf   : List Byte := []
  asked : Option (Nat × Nat) := none
  tainted : Option Nat := none
  bad   : List Nat := []
  owed  : List Owed := []
  bytes : Nat := 0
  status : Nat := 0
  cause  : Nat := 0
  addr   : Nat := 0
  stage  : Nat := 0
  deriving DecidableEq, Repr

/-- An engine hart (R233): its registers and mailbox; the stamp of its last acquire and the lines that its own writes touched since (R182,
R187); the contexts and descriptors, or command records, kicked and not served (R222, R235); the packet in hand, and the status and cause
of the last command that ended; when the served context's quantum began; the microcode image, the context that it runs for, the context
that it is being loaded for, and the images of the contexts whose load is to go on in their next quantum; the request whose answer it waits for; and, by context, the last step that
STEP_ENTER was answered for and the last STEP_DONE, and the step whose STEP_ENTER is held (R411, R414). -/
structure Hart where
  cpu     : Cpu := {}
  state   : BitVec 8 := 0
  ctx     : Nat := 0
  done    : BitVec 64 := 0
  stopped : Option Nat := none
  transit : List Transit := []
  stamp   : Nat := 0
  written : List (Nat × Nat × Nat) := []
  work    : List (Nat × Nat) := []
  run     : Option CopyRun := none
  last    : Nat := 0
  turn    : Nat := 0
  image   : Tab Byte := []
  entry   : Word := 0
  loaded  : Option Nat := none
  loading : Option Nat := none
  parts   : Tab (Tab Byte) := []
  await   : Option Await := none
  entered : Tab (BitVec 32) := []
  finished : Tab (BitVec 32) := []
  asking  : Option (BitVec 32) := none
  deriving DecidableEq, Repr

/-- Something under way: the lane it travels on (happenings of one lane come in order), the clock before which it does not
come, the step it is and what that step is about. -/
structure Happening where
  ev   : Instr
  arg  : Args := {}
  lane : Option (Nat × Nat) := none
  due  : Nat := 0
  deriving DecidableEq, Repr

/-- Stores of firmware that are made one after the other, each once the one before it is performed, so that each is a release store (R313,
R338): the number of the store under way, the context, the stores to follow, and what comes about once all of them are performed. -/
structure FwWork where
  id     : Nat := 0
  ctx    : Nat
  stores : List (Nat × List Byte) := []
  after  : List Happening := []
  deriving DecidableEq, Repr

/-- A kernel index (R112): state 0 Empty, 1 Registered, 2 Draining; its header, and in Draining the header that waits, none
for a removal, with the queue whose packet waits. -/
structure Kernel where
  state : Nat := 0
  hdr   : Header := {}
  next  : Option Header := none
  queue : Nat := 0
  deriving DecidableEq, Repr

/-- A trigger (R340). -/
structure Trigger where
  counter : BitVec 64 := 0
  armed   : Bool := false
  threshold : BitVec 64 := 0
  pkt     : Vec := 0
  queue   : Nat := 0
  deriving DecidableEq, Repr

/-- A frame in a save slot (R103): its scratchpad range, the poisoned sectors of it, with what has been written of them (R296), and its
tiles. -/
structure SavedFrame where
  frame   : Frame
  scratch : List Byte := []
  poison  : List Nat := []
  wiping  : List Wipe := []
  tiles   : List Tile := []
  deriving DecidableEq, Repr

/-- A save slot (R103): the stack, top first, the scale file and the pending releases, of a bogie; of an activation that was
rolled back, what its triggering message latched (R104, R133, R141); moved tells that a RESUME is to restore it elsewhere; seed is the
number of the free choice that the bytes of its memory are drawn from (the model's own). -/
structure Saved where
  g      : Nat
  moved  : Bool := false
  seed   : Nat := 0
  latch  : Option (Nat × List (BitVec 64) × List (BitVec 64)) := none
  frames : List SavedFrame := []
  scale  : Tab (BitVec 32) := []
  fifo   : List Pending := []
  streak : Nat := 0
  deriving DecidableEq, Repr

/-- A unit of a snapshot (R417): state 0 Pending, 1 Saved, 2 Drained; the die that drains it and the snapshot hart that has begun to, its
class at the cut, the frames that keep its old contents by their dies, whether that is the frame of a broken copy-on-write page; when, among
all, the first write that waits for it parked (R418); the number of its record, the pieces of the record that have been sent, and the poisoned
lines met. -/
structure SnapUnit where
  va    : Nat
  state : Nat := 0
  home  : Nat := 0
  hart  : Nat := 20
  cls   : Nat := 0
  copies : Tab Nat := []
  shared : Bool := false
  asked : Option Nat := none
  number : Option Nat := none
  next  : Nat := 0
  bad   : List Nat := []
  deriving DecidableEq, Repr

/-- A snapshot (R412-R421): state 0 Idle, 1 Armed, 2 Draining; the operands of its packet; the cut cycle, the dies that have taken the
advance, the units; the bytes written, the outcome, the writes not acknowledged with the numbers of their records; the millisecond that
the cap counts in and the bytes sent in it; when the drain ended; and how far the header is: that many of its zero pieces sent, 64
with its first piece, 65 with the completion record on its way. -/
structure Snap where
  state : Nat := 0
  step  : BitVec 32 := 0
  base  : Nat := 0
  cap   : Nat := 0
  record : Nat := 0
  regions : List (Nat × Nat) := []
  cutCycle : Nat := 0
  advanced : List Nat := []
  units : List SnapUnit := []
  bytes : Nat := 0
  status : Nat := 0
  cause : Nat := 0
  owed  : List (Nat × Nat) := []
  window : Nat := 0
  sent  : Nat := 0
  doneCycle : Nat := 0
  stage : Nat := 0
  deriving DecidableEq, Repr

/-- A context (R96): the fields of its block, then what it has loaded (R99, R100, R111), its EVENTs (R292, R293: sequence
counters, outstanding EVENTs by their sequence numbers and queues, by class), its triggers and the additions to them, by tag and clock, that are not evaluated (R340), its save slots by bogie (R103), the scale-server
settings that wait and those in force, by coach (R429), whether service retired a coach of its set with no spare left (R432), its snapshot and
epoch (R414). -/
structure Ctx where
  state    : Nat := 0
  busy     : Bool := false
  status   : Nat := 0
  command  : Nat := 0
  bandLow  : Nat := 0
  bandHigh : Nat := 0
  kernelCount : Nat := 0
  ceilBase    : Word := 0
  handlerBase : Word := 0
  kernelBase  : Word := 0
  consistBase : Word := 0
  ptRoot   : Word := 0
  saveBase : Word := 0
  saveSize : Word := 0
  coaches  : BitVec 192 := 0
  handlerNew : Bool := false
  ceilings : Tab Word := []
  handlers : Tab Word := []
  kernels  : Tab Kernel := []
  seqs     : Tab (BitVec 32) := []
  outstanding : Tab (List (BitVec 32)) := []
  eventq   : Tab (List FaultInfo) := []
  triggers : Tab Trigger := []
  sums     : List (Nat × Nat × Option Word) := []
  saved    : Tab Saved := []
  servers  : Tab Bool := []
  serving  : Tab Bool := []
  lost     : Bool := false
  epoch    : BitVec 8 := 0
  snap     : Snap := {}
  deriving DecidableEq, Repr

/-- Where a command queue stands (R339): in the ring, or in a list at an address with its call stack and return slot. -/
structure Point where
  list  : Option Nat := none
  stack : List Nat := []
  ret   : Nat := 0
  deriving DecidableEq, Repr

/-- A command queue (R331-R341): the fields of its table entry; whether it is notified, in the FIFO, bound to a slot, with
a fetch outstanding; packets retired since it was bound; its execution point, the packets it is still to skip, when its
WAIT began, and whether its packet is held, or has begun: the number of the request that it waits for, 0 while firmware's stores for it are
performed; and the failures that F1 has counted since it was enabled, none before the first of them. -/
structure Queue where
  state  : Nat := 0
  ctx    : Nat := 0
  host   : Bool := false
  pasid  : Nat := 0
  desc   : Word := 0
  notified : Bool := false
  queued : Bool := false
  slot   : Option Nat := none
  fetching : Bool := false
  retired : Nat := 0
  point  : Point := {}
  skips  : Nat := 0
  waitFrom : Option Nat := none
  held   : Bool := false
  begun  : Option Nat := none
  fired  : List Nat := []
  fails  : Option Nat := none
  deriving DecidableEq, Repr

/-- A consist (R359-R370): state 0 Free, 1 Active, 2 Recoupling, 3 Degraded; the dies head first; the generation; the dies
joining and leaving; the region's units; the head's version count; each member's replica, dirty lines with their versions,
poisoned lines, and the generation its link to its successor was formed in; the state to return to, and whether a member has failed during
the re-link; how much of its
region a joining die has applied; the newest version each member has applied; what copies have written of poisoned lines, numbered
line × 8 + member; whether it has been without a member (R370); the request that a re-link answers; and the
versions that have no acknowledgement at the head, with their requests and old values. -/
structure Consist where
  state   : Nat := 0
  dies    : List Nat := []
  gen     : BitVec 32 := 0
  joining : Nat := 15
  leaving : Nat := 15
  units   : Nat := 0
  version : Nat := 0
  replicas : Tab (Tab Byte) := []
  dirty   : Tab (Tab Nat) := []
  poison  : Tab (List Nat) := []
  linkGen : Tab (BitVec 32) := []
  back    : Nat := 1
  failed  : Bool := false
  copied  : Nat := 0
  applied : Tab Nat := []
  wiping  : List Wipe := []
  dead    : Bool := false
  asker   : Option Req := none
  unacked : List (Nat × Req × Nat) := []
  deriving DecidableEq, Repr

/-- What F3 has assigned to a frame of a device page (R349): the link register page, a context's notify region, the engine blocks of a
die (R233), or a window of host memory with its first address. -/
inductive Device where
  | links
  | engine (die : Nat)
  | notify (ctx : Nat)
  | host (base : Nat)
  deriving DecidableEq, Repr

/-- A request sent to another module and not acknowledged (R405-R409): its die, module, sequence number, the effective address,
and the clock at which it was sent. -/
structure Remote where
  req    : Req
  die    : Nat
  module : Nat
  seq    : BitVec 32
  va     : Nat
  clock  : Nat
  deriving DecidableEq, Repr

/-- A request of another module (R406): the module and the die it came from, its sequence number, the sender's context, and the
request, in the target context. -/
structure PeerReq where
  module : Nat
  die    : Nat
  seq    : BitVec 32
  ctx    : Nat
  req    : Req
  deriving DecidableEq, Repr

/-- A voltage domain (R297, R431): the corrected errors of the running second, when that second began, whether the domain is
undervolted, whether that has been revoked, and since when its rate has stayed above the threshold at nominal voltage. -/
structure Domain where
  errors : Nat := 0
  since  : Nat := 0
  under  : Bool := false
  revoked : Bool := false
  above  : Option Nat := none
  deriving DecidableEq, Repr

/-- A firmware complex (R422, R425-R427). -/
structure Complex where
  stage  : Nat := 0
  error  : Nat := 0
  version : BitVec 32 := 0
  build  : BitVec 32 := 0
  blocks : Tab Nat := []
  failed : Bool := false
  deriving DecidableEq, Repr

/-- A response of the module to a verifier (R426): to each request that the device supports, of GET_MEASUREMENTS with its blocks, and the
error that answers any other. -/
inductive SpdmResponse where
  | version
  | capabilities
  | algorithms
  | digests
  | certificate
  | challengeAuth
  | measurements (blocks : Tab Nat)
  | error
  deriving DecidableEq, Repr

/-- The identity block and the service state (R422-R432); waiting holds the requests in the mailboxes that no complex has taken. -/
structure Sys where
  part    : BitVec 16 := 0x8192
  rev     : BitVec 16 := 1
  h0      : Complex := {}
  h1      : Complex := {}
  active  : Nat := 0
  update  : Nat := 0
  staged  : Complex := {}
  waiting : List Happening := []
  offer   : BitVec 256 := 0x1F
  accept  : BitVec 256 := 0
  featStatus : Nat := 0
  locked  : Bool := false
  scaleResult : Nat := 0
  scaleLast : Option (Nat × Nat × Bool) := none
  powerLimit : Nat := 3400
  withhold : Nat := 0
  temps   : Tab Word := []
  power   : Word := 0
  arrayErrors : Tab Nat := []
  domains : Tab Domain := []
  threshold : Nat := 10
  xreq    : Tab Byte := []
  creq    : Tab Byte := []
  responses : List SpdmResponse := []
  deriving DecidableEq, Repr

/-- Whose turn it is: free to be drawn, a given agent's, or a given happening of the agenda. -/
inductive Turn where
  | free
  | agent (a : Agent)
  | event (n : Nat)
  deriving DecidableEq, Repr

/-- A page under change (R352, R354-R357): the kind of change (1 UNMAP, 2 PROTECT, 3 MIGRATE, 4 the break of a
copy-on-write page), the page, its home, the new frame and die, the new permissions, who owes an acknowledgement, whether
the copy is done, and the request it belongs to. -/
structure PageOp where
  kind   : Nat
  ctx    : Nat
  page   : Nat
  size   : Nat
  home   : Nat
  target : Nat := 0
  frame  : Nat := 0
  perms  : BitVec 3 := 0
  owed   : List Nat := []
  copied : Bool := false
  req    : Nat := 0
  done   : Nat := 0
  deriving DecidableEq, Repr

/-- A frame and a barrier of it that a packet, by its context, descriptor and slot, is to write to, and whether it brings bytes there or
only arrives (R123, R189). -/
structure Feed where
  ctx  : Nat
  desc : Nat
  slot : Nat
  uid  : Nat
  bar  : Nat
  data : Bool := true
  deriving DecidableEq, Repr

/-- An entry of F4's error log (R97, R101, R107, R118, R300): a code, a context number and an address or value. -/
structure LogEntry where
  code : Nat
  ctx  : Nat := 0
  addr : Nat := 0
  deriving DecidableEq, Repr

/-- The state of the machine. -/
structure State where
  turn    : Turn := .free
  agenda  : List Happening := []
  oracle  : List Nat := []
  freeCtr : Nat := 0
  uid     : Nat := 1
  cur     : Agent := .bogie 0
  arg     : Args := {}
  clock   : Nat := 0
  module  : BitVec 10 := 0
  mem     : List Host.Cell := []
  poison  : List Nat := []
  wiping  : List Wipe := []
  owner   : Tab (Option Src) := []
  hostMem : List Host.Cell := []
  errlog  : List LogEntry := []
  pageOps : List PageOp := []
  links   : Tab Link := []
  ingress : Tab Ingress := []
  bogies  : Tab Bogie := []
  coaches : Tab Coach := []
  dies    : Tab Die := []
  harts   : Tab Hart := []
  ctxs    : Tab Ctx := []
  queues  : Tab Queue := []
  slots   : Tab Nat := []
  notified : List Nat := []
  waiting : List Nat := []
  consists : Tab Consist := []
  peers   : Tab (BitVec 32) := []
  devices : Tab Device := []
  copies  : List Feed := []
  fwork   : List FwWork := []
  ringq   : List (Nat × Nat × Nat) := []
  stationsDown : List Nat := []
  planes  : Nat := 1
  remote  : List Remote := []
  sentSeq : Tab (BitVec 32) := []
  nextSeq : Tab (BitVec 32) := []
  peerHeld : List PeerReq := []
  peerOut : List (Nat × Nat × Nat × Vec) := []
  answers : Tab (Word × Nat) := []
  sys     : Sys := {}
  deriving DecidableEq, Repr

/-- The machine right after module reset. -/
def State.reset : State := {}

end Sys2Proof.Machine
end

