-- ==== Sys2Proof/Machine/Tab.lean ====
section
/-! DEFINITION. Operations on tables of like things held by number. -/

namespace Sys2Proof

/-- The value at number k, or d where none is listed. -/
def Tab.get {α : Type} (t : Tab α) (d : α) (k : Nat) : α :=
  match t with
  | [] => d
  | (j, v) :: r => if j = k then v else Tab.get r d k

/-- The value listed at number k, if any. -/
def Tab.find {α : Type} (t : Tab α) (k : Nat) : Option α :=
  match t with
  | [] => none
  | (j, v) :: r => if j = k then some v else Tab.find r k

/-- The table without an entry at number k. -/
def Tab.del {α : Type} (t : Tab α) (k : Nat) : Tab α :=
  match t with
  | [] => []
  | (j, v) :: r => if j = k then Tab.del r k else (j, v) :: Tab.del r k

/-- The table with value v listed at number k, numbers rising. -/
def Tab.put {α : Type} (t : Tab α) (k : Nat) (v : α) : Tab α :=
  match t with
  | [] => [(k, v)]
  | (j, w) :: r =>
    if k < j then (k, v) :: (j, w) :: r
    else if k = j then (k, v) :: r
    else (j, w) :: Tab.put r k v

/-- The table with value v at number k, where d is what an unlisted number has: writing d takes the entry away, so that
equal contents are equal tables. -/
def Tab.set {α : Type} [DecidableEq α] (t : Tab α) (d : α) (k : Nat) (v : α) : Tab α :=
  if v = d then Tab.del t k else Tab.put t k v

/-- The table of f at the numbers below n, counted from lo, leaving out d. -/
def Tab.ofFn {α : Type} [DecidableEq α] (d : α) (lo : Nat) (n : Nat) (f : Nat → α) : Tab α :=
  (List.range n).filterMap fun i => if f i = d then none else some (lo + i, f i)

/-- The canonical form: numbers strictly rising and no entry equal to d. -/
def Tab.wf {α : Type} [DecidableEq α] (d : α) (t : Tab α) : Bool :=
  match t with
  | [] => true
  | (j, v) :: r => (v != d) && r.all (fun e => decide (j < e.1)) && Tab.wf d r

/-- The value of every entry changed by f. -/
def Tab.mapVals {α : Type} (t : Tab α) (f : α → α) : Tab α := t.map fun e => (e.1, f e.2)

/-- The contents of the numbers from lo to lo + n - 1. -/
def Tab.range {α : Type} (t : Tab α) (d : α) (lo n : Nat) : List α :=
  (List.range n).map fun i => Tab.get t d (lo + i)

/-- The values of l written from number lo upwards. -/
def Tab.setList {α : Type} [DecidableEq α] (t : Tab α) (d : α) (lo : Nat) (l : List α) : Tab α :=
  match l with
  | [] => t
  | v :: r => Tab.setList (Tab.set t d lo v) d (lo + 1) r

/-- Every number below n from lo upwards given the value that an unlisted number has. -/
def Tab.clear {α : Type} (t : Tab α) (lo n : Nat) : Tab α :=
  t.filter fun e => decide (e.1 < lo) || decide (lo + n ≤ e.1)

end Sys2Proof
end

