-- ==== Sys2Proof/Machine/Ops.lean ====
section
/-! DEFINITION. The named operations over memory, registers and the agents' states, and how a word ends: advancing,
stalling, reaching a boundary or faulting. -/

namespace Sys2Proof.Machine

/-! ### Numbers and bytes -/

/-- The number that bytes hold, little-endian (R4). -/
def natOfBytes (l : List Byte) : Nat :=
  match l with
  | [] => 0
  | b :: r => b.toNat + 256 * natOfBytes r

/-- The n bytes of a number, the lowest first (R4). -/
def bytesOfNat (n v : Nat) : List Byte :=
  match n with
  | 0 => []
  | k + 1 => BitVec.ofNat 8 v :: bytesOfNat k (v / 256)

/-- Sext(v, n) to 64 bits. -/
def sext (n v : Nat) : Word := (BitVec.ofNat n v).signExtend 64

/-- Bits hi..lo of a doubleword or record as a number. -/
def bits {w : Nat} (x : BitVec w) (hi lo : Nat) : Nat := x.toNat / 2 ^ lo % 2 ^ (hi + 1 - lo)

/-- Bit i of x. -/
def bit {w : Nat} (x : BitVec w) (i : Nat) : Bool := x.getLsbD i

/-- 1 for true and 0 for false. -/
def ofBool (b : Bool) : Word := if b then 1 else 0

/-! ### Free choices (log 2) -/

/-- The next free choice. -/
def State.draw (s : State) : Nat × State :=
  match s.oracle with
  | n :: r => (n, { s with oracle := r })
  | [] => (Config.free s.freeCtr, { s with freeCtr := s.freeCtr + 1 })

/-- A free choice among n; none is drawn where there is nothing to choose. -/
def State.choose (s : State) (n : Nat) : Nat × State :=
  if n ≤ 1 then (0, s) else (s.draw.1 % n, s.draw.2)

/-! ### Parts of the state -/

/-- Bogie g. -/
def State.bogie (s : State) (g : Nat) : Bogie := Tab.get s.bogies {} g

/-- Bogie g replaced. -/
def State.setBogie (s : State) (g : Nat) (b : Bogie) : State := { s with bogies := Tab.put s.bogies g b }

/-- Coach c of the module, numbered die × 24 + coach. -/
def State.coach (s : State) (c : Nat) : Coach := Tab.get s.coaches {} c

/-- Coach c replaced. -/
def State.setCoach (s : State) (c : Nat) (x : Coach) : State := { s with coaches := Tab.put s.coaches c x }

/-- Compute die d. -/
def State.die (s : State) (d : Nat) : Die := Tab.get s.dies { pointer := d * 192 } d

/-- Compute die d replaced. -/
def State.setDie (s : State) (d : Nat) (x : Die) : State := { s with dies := Tab.put s.dies d x }

/-- Engine hart h of die d. -/
def State.hart (s : State) (d h : Nat) : Hart := Tab.get s.harts {} (d * 22 + h)

/-- Engine hart h of die d replaced. -/
def State.setHart (s : State) (d h : Nat) (x : Hart) : State := { s with harts := Tab.put s.harts (d * 22 + h) x }

/-- Context c. -/
def State.ctx (s : State) (c : Nat) : Ctx := Tab.get s.ctxs {} c

/-- Context c replaced. -/
def State.setCtx (s : State) (c : Nat) (x : Ctx) : State := { s with ctxs := Tab.put s.ctxs c x }

/-- The compute die of bogie g (R20). -/
def dieOf (g : Nat) : Nat := g / 192

/-- The coach of bogie g, numbered die × 24 + coach (R20). -/
def coachOf (g : Nat) : Nat := g / 8

/-! ### Memory (R4, R17, R349) -/

/-- The number under which memory lists the byte at physical address pa of die d. -/
def memKey (d pa : Nat) : Nat := d * 2 ^ 48 + pa

/-- What a byte that nothing has written reads as (log 4). -/
def unlisted : Byte := 0

/-- One byte of memory. -/
def State.readByte (s : State) (a : Nat) : Byte := Tab.get s.mem unlisted a

/-- One byte of memory written. -/
def State.writeByte (s : State) (a : Nat) (b : Byte) : State := { s with mem := Tab.set s.mem unlisted a b }

/-- The n bytes from a upwards. -/
def State.readBytes (s : State) (a n : Nat) : List Byte := Tab.range s.mem unlisted a n

/-- The bytes of l written from a upwards. -/
def State.writeBytes (s : State) (a : Nat) (l : List Byte) : State := { s with mem := Tab.setList s.mem unlisted a l }

/-- The canonical form of a memory: addresses strictly rising, and no byte listed that reads so unlisted. -/
def memWf (m : List Host.Cell) : Bool := Tab.wf unlisted m

/-! ### Registers (R43, R58, R239, R240) -/

/-- Scalar register r; x0 reads zero. -/
def Cpu.getX (c : Cpu) (r : BitVec 5) : Word := if r = 0 then 0 else Tab.get c.x 0 r.toNat

/-- Scalar register r written; a write of x0 is discarded. -/
def Cpu.setX (c : Cpu) (r : BitVec 5) (v : Word) : Cpu :=
  if r = 0 then c else { c with x := Tab.set c.x 0 r.toNat v }

/-- Scalar register r of a frame. -/
def Frame.getX (f : Frame) (r : BitVec 5) : Word := f.cpu.getX r

/-- Scalar register r of a frame written. -/
def Frame.setX (f : Frame) (r : BitVec 5) (v : Word) : Frame := { f with cpu := f.cpu.setX r v }

/-- Vector register r. -/
def Frame.getV (f : Frame) (r : BitVec 5) : Vec := Tab.get f.v 0 r.toNat

/-- Vector register r written. -/
def Frame.setV (f : Frame) (r : BitVec 5) (v : Vec) : Frame := { f with v := Tab.set f.v 0 r.toNat v }

/-- Mask register r; k0 reads all ones. -/
def Frame.getK (f : Frame) (r : Nat) : Mask := if r = 0 then BitVec.allOnes 64 else Tab.get f.k 0 r

/-- Mask register r written. -/
def Frame.setK (f : Frame) (r : BitVec 5) (v : Mask) : Frame := { f with k := Tab.set f.k 0 r.toNat v }

/-! ### How a word ends -/

/-- Why a word does not complete now: a fault with its address and code-specific value (R289), a translation that the TLB
does not hold, a line that the L1 does not hold, an earlier access that must be performed first, or a forced commit. -/
inductive Stop where
  | fault (code : Nat) (addr : Nat) (val : Nat)
  | miss (va : Nat)
  | line (va : Nat)
  | wait (va : Nat)
  | commit
  deriving DecidableEq, Repr

/-- What a word does to its bogie, and the happenings it starts. -/
structure BRes where
  b   : Bogie
  evs : List Happening := []

/-- The bogie with its top frame replaced. The outcome of a walk that found no mapping is never kept (R345). -/
def Bogie.setTop (b : Bogie) (f : Frame) : Bogie := { b with stack := f :: b.stack.tail, unmapped := none, buf := [] }

/-- The top frame past the word it executed: the next word, or in a repetition the next word of the body or pass (R261,
R263, R264). The prefix ends unless the word was part of it. -/
def Bogie.advance (b : Bogie) (f : Frame) (keep : Bool := false) : Bogie :=
  let pfx := if keep then f.cpu.pfx else {}
  match b.rep with
  | none => b.setTop { f with cpu := { f.cpu with pc := f.cpu.pc + 4, pfx := pfx }, instret := f.instret + 1 }
  | some r =>
    let last := decide (r.body.length ≤ r.idx + 1)
    let r' := if last then { r with pass := r.pass + 1, idx := 0 } else { r with idx := r.idx + 1 }
    let done := last && decide (r.count ≤ r.pass + 1)
    let pc := if done then r.addr + BitVec.ofNat 64 (4 * (r.body.length + 1)) else r.addr + BitVec.ofNat 64 (4 * (r'.idx + 1))
    { b.setTop { f with cpu := { f.cpu with pc := pc, pfx := pfx }, instret := f.instret + 1 }
      with rep := if done then none else some r' }

/-- The word completes and the next one follows. -/
def Bogie.go (b : Bogie) (f : Frame) : Except Stop BRes := .ok { b := b.advance f }

/-- The words of the prefix that stands before the word at the PC. -/
def Cpu.prefixWords (c : Cpu) : Word :=
  BitVec.ofNat 64 (c.pfx.exts.length + (if c.pfx.mod.isSome then 1 else 0) + (if c.pfx.sched.isSome then 1 else 0))

/-- The first word of that prefix (R68, R73). -/
def Cpu.prefixStart (c : Cpu) : Word := c.pc - 4 * c.prefixWords

/-- The prefix asks that the lines which the instruction brings be replaced first (R71). -/
def Cpu.streams (c : Cpu) : Bool := c.pfx.sched.any fun p => bit p 6

/-- The activation ends (R132, R139): the witness is to judge it. -/
def Bogie.boundary (b : Bogie) (g : Nat) (k : Boundary) : BRes :=
  { b := { b with phase := .boundary k, unmapped := none, buf := [] }, evs := [{ ev := .witnessVerdict, arg := { g := g } }] }

/-- The word completes and ends the activation. -/
def Bogie.commit (b : Bogie) (g : Nat) (f : Frame) (k : Boundary) : Except Stop BRes :=
  .ok ((b.advance f).boundary g k)

/-- The extra field of a synchronous fault's record (R291): the code-specific value above, and the pass when the fault fell
in a repetition. -/
def extraOf (b : Bogie) (val : Nat) : Word :=
  BitVec.ofNat 64 (val % 2 ^ 32 * 2 ^ 32 + (match b.rep with | some r => 256 + r.pass % 256 | none => 0))

/-- TAKING A SYNCHRONOUS FAULT (R290): the core stops at the word without completing it, and the boundary is judged. What
a matching verdict then does is takeFault in Task.lean. -/
def Bogie.syncFault (b : Bogie) (g code addr val : Nat) : BRes :=
  b.boundary g (.fault { code := code, addr := BitVec.ofNat 64 addr, extra := extraOf b val })

/-- What a word does that does not complete. A forced commit (R135) ends the activation before the first word of the
prefix, whose words have not executed, since they execute again in the next activation (R73, R164). -/
def Bogie.stop (b : Bogie) (g : Nat) (f : Frame) (st : Stop) : BRes :=
  match st with
  | .fault code addr val => b.syncFault g code addr val
  | .miss va => { b := { b with phase := .stalled va }, evs := [{ ev := .tlbMiss, arg := { g := g, va := va } }] }
  | .line va => { b := { b with phase := .stalled va }, evs := [{ ev := .loadFill, arg := { g := g, va := va } }] }
  | .wait va => { b := { b with phase := .stalled va } }
  | .commit =>
    (b.setTop { f with cpu := { f.cpu with pc := f.cpu.prefixStart, pfx := {} }, instret := f.instret - f.cpu.prefixWords }).boundary g .commit

/-- Happenings added to those under way. -/
def State.add (s : State) (l : List Happening) : State := { s with agenda := s.agenda ++ l }

/-- The state after a word of bogie g: only that bogie and the happenings under way change (R137). -/
def State.afterWord (s : State) (g : Nat) (r : BRes) : State := (s.setBogie g r.b).add r.evs

end Sys2Proof.Machine
end

