-- ==== Sys2Proof/Machine/Net.lean ====
section
/-! DEFINITION. Messages between dies and the links that carry them (R376-R401). Dies 0 to 7 are the compute dies, 8 and 9
the hubs H0 and H1. -/

namespace Sys2Proof.Machine

/-- The die number of the active hub. -/
def State.hub (s : State) : Nat := s.sys.active + 8

/-- Link l. -/
def State.link (s : State) (l : Nat) : Link := Tab.get s.links {} l
/-- Link l replaced. -/
def State.setLink (s : State) (l : Nat) (k : Link) : State := { s with links := Tab.put s.links l k }
/-- The ingress of a die or hub. -/
def State.ing (s : State) (d : Nat) : Ingress := Tab.get s.ingress {} d
/-- The ingress of a die or hub replaced. -/
def State.setIng (s : State) (d : Nat) (x : Ingress) : State := { s with ingress := Tab.put s.ingress d x }

/-- The direction of a link, false for A to B. -/
def Link.dir (k : Link) (r : Bool) : LinkDir := if r then k.ba else k.ab
/-- A direction of a link replaced. -/
def Link.setDir (k : Link) (r : Bool) (x : LinkDir) : Link := if r then { k with ba := x } else { k with ab := x }

/-- The end dies of the pairs (R376). -/
def pairEnds : List (Nat × Nat) :=
  [(0, 1), (1, 2), (2, 3), (4, 5), (5, 6), (6, 7), (0, 4), (1, 5), (2, 6), (3, 7), (0, 8), (4, 8), (3, 9), (7, 9)]

/-- End A's die, or end B's, of a link. -/
def linkEnd (l : Nat) (b : Bool) : Nat :=
  match pairEnds[l / 4]? with
  | some (x, y) => if b then y else x
  | none => 0

/-- The pair that joins two dies, and whether the way from the first is from B to A. -/
def pairOf (x y : Nat) : Option (Nat × Bool) :=
  match pairEnds.findIdx? (fun p => p == (x, y)) with
  | some p => some (p, false)
  | none =>
    match pairEnds.findIdx? (fun p => p == (y, x)) with
    | some p => some (p, true)
    | none => none

/-- The next die on the route (R377): along the row to the destination's column, then across; a hub is column 0 or 3 of
whichever row the route needs, and between the hubs the route runs along row 0. -/
def nextHop (at' dst : Nat) : Nat :=
  if at' = 8 then (if dst = 9 then 0 else if dst < 4 then 0 else 4)
  else if at' = 9 then (if dst = 8 then 3 else if dst < 4 then 3 else 7)
  else
    let col := at' % 4
    let want := if dst = 8 then 0 else if dst = 9 then 3 else dst % 4
    if col < want then at' + 1
    else if want < col then at' - 1
    else if 8 ≤ dst then dst
    else if at' < 4 then at' + 4 else at' - 4

/-- The link of a pair that a message takes (R385): the pinned one while it is Up, else the one its spread address names
or the next that is Up. -/
def State.pickLink (s : State) (pair spread : Nat) : Option Nat :=
  let up := (List.range 4).map (4 * pair + ·) |>.filter fun l => (s.link l).state == 0
  match up.find? (fun l => (s.link l).pin) with
  | some l => some l
  | none =>
    let x := ((spread / 64) ^^^ (spread / 256) ^^^ (spread / 1024) ^^^ (spread / 4096)) % 4
    ((List.range 4).map fun i => 4 * pair + (x + i) % 4).find? fun l => up.contains l

/-- A pair of dies has a link Up. -/
def State.joined (s : State) (x y : Nat) : Bool :=
  match pairOf x y with
  | some (p, _) => (List.range 4).any fun i => (s.link (4 * p + i)).state == 0
  | none => false

/-- Every pair on the route from a die has a link Up (R377). -/
def State.routeUp (s : State) (at' dst fuel : Nat) : Bool :=
  match fuel with
  | 0 => false
  | n + 1 => at' == dst || (s.joined at' (nextHop at' dst) && s.routeUp (nextHop at' dst) dst n)

/-- The dies from which joined pairs lead to a die in at most n hops, with no hub between. -/
def State.within (s : State) (dst n : Nat) : List Nat :=
  match n with
  | 0 => [dst]
  | n + 1 =>
    let l := s.within dst n
    l ++ (List.range 8).filter fun x => !l.contains x && l.any fun y => s.joined x y

/-- The die that a message goes to next: on its route while every pair of it has a link Up, else on the replacement that F5 programs
through the other row, or from a hub through its other compute die, the shortest that is left (R377, R385). -/
def State.hop (s : State) (at' dst : Nat) : Option Nat :=
  if s.routeUp at' dst 8 then some (nextHop at' dst)
  else (List.range 8).findSome? fun n => (s.within dst n).find? fun x => s.joined at' x

/-- The link, and its direction, that a message takes from a die. -/
def State.way (s : State) (at' : Nat) (m : Msg) : Option (Nat × Bool) :=
  match (s.hop at' m.dst).map fun next => pairOf at' next with
  | some (some (p, r)) => (s.pickLink p m.spread).map fun l => (l, r)
  | _ => none

/-- A message put to the link that it takes from a die; it waits at the die while there is no way on. -/
def State.forward (s : State) (at' : Nat) (m : Msg) : State :=
  match s.way at' m with
  | some (l, r) =>
    let k := s.link l
    let d := k.dir r
    (s.setLink l (k.setDir r { d with waiting := d.waiting ++ [m] })).add
      [{ ev := .flitSend, arg := { n := l, flag := r }, lane := some (l, if r then 1 else 0) }]
  | none => s.setIng at' { s.ing at' with stuck := (s.ing at').stuck ++ [m] }

/-- The messages that wait at a die tried again; while its bounce store holds 960 entries or more its own new ones stay, and those in
transit and those bounced back go (R377, R389). -/
def State.unstick (s : State) (d : Nat) : State :=
  let stays := fun (m : Msg) => decide (960 ≤ (s.ing d).bounce.length) && m.src == d && !m.bounced
  ((s.ing d).stuck.filter fun m => !stays m).foldl (fun s m => s.forward d m)
    (s.setIng d { s.ing d with stuck := (s.ing d).stuck.filter stays })

/-- Endpoint numbers (R379: each die numbers its own): bogies from 0, then the home, dispatcher, harts, channels, arrays, the
translation unit, the proxy bogie. -/
def epBogie (g : Nat) : Nat := g % 192
/-- See epBogie. -/
def epHome : Nat := 200
/-- See epBogie. -/
def epDispatcher : Nat := 201
/-- See epBogie. -/
def epUnit : Nat := 202
/-- See epBogie. -/
def epProxy : Nat := 203
/-- See epBogie. -/
def epHart (h : Nat) : Nat := 210 + h
/-- See epBogie. -/
def epArray (c : Nat) : Nat := 240 + c % 24

/-- The endpoint of a request's maker on its die. -/
def srcEp (q : Src) : Nat :=
  match q with
  | .task g _ => epBogie g
  | .hart _ h => epHart h
  | .array _ c => epArray c
  | _ => epUnit

/-- The endpoint at which a step takes place. -/
def destOf (ev : Instr) (a : Args) : Nat :=
  match ev with
  | .storePerformed => srcEp a.req.src
  | .heldWriteArrival | .handleArrival => epBogie a.g
  | .dropReceived => if a.flag then epHome else epBogie a.g
  | .loadFill => if a.n = 5 then epBogie a.g else epHome
  | .releaseAccept | .releaseResend | .releaseForward => epDispatcher
  | .engineKick => epHart a.h
  | .proxyAtomic => epProxy
  | .groupUpdate | .issueInstance => epDispatcher
  | .scaleDelivery | .walkComplete => epUnit
  | _ => epHome

/-- The kind of a message by the step that it brings about, what that is about and its slots (R379). -/
def kindOf (ev : Instr) (a : Args) (slots : Nat) : Nat :=
  match ev with
  | .chainApply =>
    match a.req.op with
    | .atomic _ _ _ _ _ _ _ => 5
    | _ => if slots = 5 then 3 else 4
  | .loadFill | .tailQuery => if slots = 5 then 2 else 1
  | .storePerformed => if slots = 5 then 2 else if slots = 2 then 6 else 7
  | .atomicExecute | .proxyAtomic => 5
  | .releaseAccept | .releaseResend | .releaseForward => 8
  | _ => if slots = 5 then 3 else if slots = 2 then 4 else 7

/-- The lane of what one endpoint sends to another (R387). -/
def pairLane (src ep dst dstEp : Nat) : Nat × Nat := (1000 + src * 4096 + ep, dst * 4096 + dstEp)

/-- A step brought about at a die by an endpoint of a die. On one die it comes in the order of its two endpoints (R387); between
dies it goes as a message with the endpoint's next stamp (R386), held back while the die's bounce store is that full (R389). A CONTROL
message spreads by its destination endpoint (R385). -/
def State.post (s : State) (src ep dst ctx spread slots : Nat) (ev : Instr) (arg : Args) : State :=
  let dstEp := destOf ev arg
  if src = dst then s.add [{ ev := ev, arg := arg, lane := some (pairLane src ep dst dstEp) }]
  else
    let g := s.ing src
    let key := ep * 16 + dst
    let st := Tab.get g.sentStamps 0 key
    let kind := kindOf ev arg slots
    let m : Msg := { kind := kind, src := src, ep := ep, dst := dst, dstEp := dstEp, stamp := st, ctx := ctx, slots := slots
                     spread := if kind = 7 then dstEp else spread, ev := ev, arg := arg }
    let g := { g with sentStamps := Tab.put g.sentStamps key (st + 1) }
    if 960 ≤ g.bounce.length then s.setIng src { g with stuck := g.stuck ++ [m] } else (s.setIng src g).forward src m

/-- The clocks of n flit times at the link's rate and width (R381, R390). -/
def Link.flitTimes (k : Link) (n : Nat) : Nat := n * 256 * 8 * 17 / (10 * (16 + 8 * k.rate) * (64 / 2 ^ k.width))

/-- As many messages as fit one flit (R380): 15 slots, or one message with single set. -/
def fillFlit (single : Bool) (room : Nat) (l : List Msg) : List Msg × List Msg :=
  match l with
  | [] => ([], [])
  | m :: r =>
    if room < m.slots then ([], l)
    else if single then ([m], r)
    else
      let x := fillFlit single (room - m.slots) r
      (m :: x.1, x.2)

/-- A flit of direction r as the sender makes it (R378, R381, R382): with the reverse direction's ack and nak; sending them pays what is
owed. -/
def Link.payload (k : Link) (r : Bool) (seq : BitVec 12) (data : Option (List Msg)) (bad : Bool) : Wire × Link :=
  let d := k.dir (!r)
  ({ seq := seq, data := data, slots := ((data.getD []).map (·.slots)).sum, rate := k.rate, width := k.width, bad := bad, nak := d.nakOwed, ack := d.e - 1 },
   k.setDir (!r) { d with nakOwed := false, ackOwed := false })

/-! ### The bytes of a flit (R378, R379) -/

/-- The header slot of a message (R379). A CONTROL message names no address. -/
def Msg.header (m : Msg) : Nat :=
  (if m.kind % 128 = 7 then 0 else m.spread % 2 ^ 56) * 2 ^ 72 + m.dstEp % 2 ^ 12 * 2 ^ 60 + m.dst % 16 * 2 ^ 56 + m.ep % 2 ^ 12 * 2 ^ 44 +
    m.src % 16 * 2 ^ 40 + m.stamp.toNat * 2 ^ 24 + m.ctx % 256 * 2 ^ 16 + (m.slots - 1) % 8 * 2 ^ 8 + (if m.bounced then 128 else 0) + m.kind % 128

/-- The value of the later slots of a message (R379): the 64 bytes of a line, or a doubleword and, above it, the byte enables of a PWRITE or
what else the message tells. Their order within is the model's (log 139). -/
def Msg.rest (m : Msg) : Nat :=
  match m.arg.req.op with
  | .store bytes _ _ _ =>
    let lo := (bytes.head?.map (·.1)).getD 0 / (if m.slots = 5 then 64 else 8) * (if m.slots = 5 then 64 else 8)
    bytes.foldl (fun n e => n + e.2.toNat * 256 ^ (e.1 - lo) + (if m.slots = 5 then 0 else 2 ^ (64 + (e.1 - lo) % 8))) 0
  | .atomic _ _ _ x y _ _ => x.toNat + y.toNat * 2 ^ 64
  | _ => if m.slots = 5 then m.arg.pkt.toNat else m.arg.val.toNat + m.arg.m * 2 ^ 64

/-- The bytes of a message's slots. -/
def Msg.bytes (m : Msg) : List Byte := bytesOfNat 16 m.header ++ bytesOfNat (16 * (m.slots - 1)) m.rest

/-- Bytes 0 to 251 of a flit: the header, the fifteen slots, the link control. -/
def Wire.image (w : Wire) : List Byte :=
  let head := w.slots * 2 ^ 32 + (if w.data.isSome then 0 else 2 ^ 28) + (if w.nak then 2 ^ 24 else 0) + w.ack.toNat * 2 ^ 12 + w.seq.toNat
  let used := (w.data.getD []).flatMap Msg.bytes
  bytesOfNat 8 head ++ (used ++ List.replicate (240 - used.length) 0) ++ bytesOfNat 4 (w.rate % 8 + w.width % 4 * 8)

/-- One bit of the reflected CRC-32C. -/
def crcBit (c : Nat) : Nat := if c % 2 = 1 then (c / 2) ^^^ 0x82F63B78 else c / 2

/-- One byte of it. -/
def crcByte (c : Nat) (b : Byte) : Nat := crcBit (crcBit (crcBit (crcBit (crcBit (crcBit (crcBit (crcBit (c ^^^ b.toNat))))))))

/-- CRC-32C of bytes in address order: polynomial 0x1EDC6F41, reflected, with an initial value and final exclusive-or of all ones (R378). -/
def crc32c (l : List Byte) : BitVec 32 := BitVec.ofNat 32 (l.foldl crcByte 0xFFFFFFFF) ^^^ 0xFFFFFFFF

/-- The CRC that a flit carries, bytes 252 to 255: inverted where LINJ damages it (R378, R401). -/
def Wire.crc (w : Wire) : BitVec 32 := if w.bad then ~~~crc32c w.image else crc32c w.image

/-- CRC(f) fails at the receiver (R382); noise 1 has damaged a bit that the check finds. -/
def Wire.fails (w : Wire) (noise : Nat) : Bool := (if noise = 1 then w.crc ^^^ 1 else w.crc) != crc32c w.image

/-- A flit put on the wire of direction r. -/
def State.transmit (s : State) (l : Nat) (r : Bool) (seq : BitVec 12) (data : Option (List Msg)) (bad : Bool) : State :=
  let (w, k) := (s.link l).payload r seq data bad
  let d := k.dir r
  (s.setLink l (k.setDir r { d with wire := d.wire ++ [w] })).add
    [{ ev := .flitReceive, arg := { n := l, flag := r }, lane := some (l, if r then 3 else 2) }]

/-- Another flit is to be sent in direction r. -/
def State.wantSend (s : State) (l : Nat) (r : Bool) : State :=
  s.add [{ ev := .flitSend, arg := { n := l, flag := r }, lane := some (l, if r then 1 else 0) }]

/-- A message in transit at a die finds its egress link busy: messages wait there, or its retry buffer is full (R377). -/
def State.busyBeyond (s : State) (d : Nat) (m : Msg) : Bool :=
  m.dst != d && (match s.way d m with
    | some (l, r) => !((s.link l).dir r).waiting.isEmpty || decide (512 ≤ ((s.link l).dir r).retry.length)
    | none => false)

/-- The links into a die that hold messages send again, an egress of the die being free (R377). -/
def State.feed (s : State) (d : Nat) : State :=
  (List.range 56).foldl (fun s l =>
    [false, true].foldl (fun s r => if linkEnd l (!r) = d ∧ !((s.link l).dir r).waiting.isEmpty then s.wantSend l r else s) s) s

/-- FLIT_SEND (R377, R380, R381, R383, R401): a flit that a go-back resends, else the next new one, of the messages that wait, in their
order, up to one in transit whose egress at the next die is busy. -/
def flitSend (l : Nat) (r : Bool) (s : State) : State :=
  let k := s.link l
  let d := k.dir r
  if k.state ≠ 0 then s
  else
    match d.retry[d.resent]? with
    | some f =>
      let f' := { f with replays := f.replays + 1, clock := s.clock }
      let s := s.setLink l (k.setDir r { d with retry := d.retry.set d.resent f', resent := d.resent + 1 })
      let s := s.transmit l r f.seq (some f.msgs) false
      let s := if 8 ≤ f'.replays then s.add [{ ev := .flitReplayLimit, arg := { n := l, flag := r } }] else s
      s.wantSend l r
    | none =>
      if 512 ≤ d.retry.length then s
      else if d.waiting.isEmpty then s.feed (linkEnd l r)
      else
        let now := (fillFlit k.single 15 (d.waiting.takeWhile fun m => !s.busyBeyond (linkEnd l (!r)) m)).1
        if now.isEmpty then s
        else
          let later := d.waiting.drop now.length
          let hit := k.crcArm && k.injDir == r
          let bad := hit && k.crcLeft == 0
          let d' := { d with n := d.n + 1, retry := d.retry ++ [{ seq := d.n, msgs := now, clock := s.clock }],
                             resent := d.resent + 1, waiting := later, sent := d.sent + 1, winFlits := d.winFlits + 1 }
          let d' := if 1000000 ≤ d'.winFlits then { d' with winFlits := 0, winReplays := 0 } else d'
          let k := { k.setDir r d' with crcArm := k.crcArm && !bad, crcLeft := if hit then k.crcLeft - 1 else k.crcLeft }
          let s := (s.setLink l k).transmit l r d.n (some now) bad
          let s := s.add [{ ev := .replayTimeout, arg := { n := l, flag := r, m := d.n.toNat }, due := s.clock + k.flitTimes 4096 }]
          s.wantSend l r

/-- The sender of direction r frees every flit up to number a (R381). -/
def LinkDir.free (d : LinkDir) (a : BitVec 12) : LinkDir :=
  let keep := d.retry.filter fun f => !decide ((a - f.seq).toNat < 2048)
  { d with retry := keep, resent := d.resent - (d.retry.length - keep.length) }

/-- A go-back of direction r (R383, R393): everything not acknowledged is sent again, and the replay counts. -/
def State.goBack (s : State) (l : Nat) (r : Bool) : State :=
  let k := s.link l
  let d := k.dir r
  let s := s.setLink l (k.setDir r { d with resent := 0, replays := d.replays + 1, winReplays := d.winReplays + 1 })
  let s := if k.rlimit ≠ 0 ∧ k.rlimit.toNat < d.winReplays + 1 ∧ !s.agenda.any (fun h => h.ev == .replayWindow && h.arg.n == l) then
      s.add [{ ev := .replayWindow, arg := { n := l, flag := r } }]
    else s
  s.wantSend l r

/-- A NAK is owed to direction r's sender unless one is pending (R382). -/
def State.oweNak (s : State) (l : Nat) (r : Bool) : State :=
  let k := s.link l
  let d := k.dir r
  if d.nakPending.isSome then s
  else
    (s.setLink l (k.setDir r { d with nakPending := some s.clock, nakOwed := true, naks := d.naks + 1 })).add
      [{ ev := .ackControlFlit, arg := { n := l, flag := !r } },
       { ev := .nakPendingExpiry, arg := { n := l, flag := r }, due := s.clock + k.flitTimes 4096 }]

/-- Messages of a flit that arrived in order at the die at the end of direction r: taken by its ingress, or passed on
by its transit switch (R377, R384). -/
def State.arrive (s : State) (d : Nat) (l : List Msg) : State :=
  match l with
  | [] => s
  | m :: r =>
    let s := if m.dst = d then
        (s.setIng d { s.ing d with arrived := (s.ing d).arrived ++ [m] }).add
          [{ ev := .messageIngress, arg := { d := d }, lane := some (900 + d, 0) }]
      else s.forward d m
    s.arrive d r

/-- FLIT_RECEIVE (R378, R382): the flit at the head of direction r's wire. Noise 1 damages it so that its CRC fails; noise 2 leaves it a
CRC that passes and an illegal type or reserved field: it is discarded, and F5 logs it. -/
def flitReceive (l : Nat) (r : Bool) (noise : Nat) (s : State) : State :=
  let k := s.link l
  let d := k.dir r
  match d.wire with
  | [] => s
  | w :: rest =>
    if k.state = 1 then s
    else
    let s := s.setLink l (k.setDir r { d with wire := rest })
    if w.fails noise then
      let d := (s.link l).dir r
      (s.setLink l ((s.link l).setDir r { d with crc := d.crc + 1 })).oweNak l r
    else if noise = 2 then { s with errlog := s.errlog ++ [{ code := 0, addr := l }] }
    else
      let back := ((s.link l).dir (!r)).free w.ack
      let freed := decide (back.retry.length < ((s.link l).dir (!r)).retry.length)
      let s := s.setLink l ((s.link l).setDir (!r) back)
      let s := if w.nak then s.goBack l (!r) else if back.waiting.isEmpty && !freed then s else s.wantSend l (!r)
      match w.data with
      | none => s
      | some msgs =>
        let d := (s.link l).dir r
        if w.seq = d.e then
          let s := s.setLink l ((s.link l).setDir r { d with e := d.e + 1, nakPending := none, ackOwed := true })
          let s := s.add [{ ev := .ackControlFlit, arg := { n := l, flag := !r }, due := s.clock }]
          s.arrive (linkEnd l (!r)) msgs
        else if (w.seq - d.e).toNat < 2048 then s.oweNak l r
        else s

/-- ACK_CONTROL_FLIT (R381, R382): a CONTROL flit in direction r carries the acknowledgement or NAK that is still owed. -/
def ackControlFlit (l : Nat) (r : Bool) (s : State) : State :=
  let d := (s.link l).dir (!r)
  if (s.link l).state = 0 ∧ (d.ackOwed ∨ d.nakOwed) then s.transmit l r ((s.link l).dir r).n none false else s

/-- REPLAY_TIMEOUT (R383): the oldest flit has waited 4,096 flit times without an acknowledgement. -/
def replayTimeout (l : Nat) (r : Bool) (seq : Nat) (s : State) : State :=
  let k := s.link l
  match (k.dir r).retry.head? with
  | none => s
  | some f =>
    if f.seq.toNat = seq ∧ k.state = 0 ∧ f.clock + k.flitTimes 4096 ≤ s.clock then
      (s.goBack l r).add [{ ev := .replayTimeout, arg := { n := l, flag := r, m := seq }, due := s.clock + k.flitTimes 4096 }]
    else if (k.dir r).retry.any (fun f => f.seq.toNat == seq) then
      s.add [{ ev := .replayTimeout, arg := { n := l, flag := r, m := seq }, due := s.clock + k.flitTimes 4096 }]
    else s

/-- NAK_PENDING_EXPIRY (R382): nak_pending clears 4,096 flit times, as they are now, after it was set. -/
def nakPendingExpiry (l : Nat) (r : Bool) (s : State) : State :=
  let k := s.link l
  let d := k.dir r
  match d.nakPending with
  | some c =>
    if c + k.flitTimes 4096 ≤ s.clock then s.setLink l (k.setDir r { d with nakPending := none })
    else s.add [{ ev := .nakPendingExpiry, arg := { n := l, flag := r }, due := c + k.flitTimes 4096 }]
  | none => s

/-- LINK_DEGRADED or LINK_DOWN (R395), sent by R294 to every context that has a class 5 handler. -/
def State.linkEvent (s : State) (l code lane reason : Nat) : State :=
  let k := s.link l
  let extra := lane * 2 ^ 16 + reason * 2 ^ 8 + (if k.state = 2 then 3 else k.width) * 2 ^ 4 + k.rate
  s.add ((List.range 193).filterMap fun c =>
    if Tab.get (s.ctx c).handlers 0 5 ≠ 0 then
      some { ev := .raiseEvent,
             arg := { c := c, d := linkEnd l false, info := { code := code, addr := BitVec.ofNat 64 l, extra := BitVec.ofNat 64 extra } } }
    else none)

/-- The link begins to retrain (R391, R394); why is the lane and reason that its end reports. -/
def State.retrain (s : State) (l : Nat) (why : Option (Nat × Nat)) : State :=
  let k := s.link l
  (s.setLink l { k with state := 1, retrains := k.retrains + 1, why := if why.isSome then why else k.why }).add
    [{ ev := .retrainDone, arg := { n := l } }]

/-- LCTL_RATE (R391, R394, R398): a requested rate; a reserved code, or an overdrive code while the feature is declined, is
ignored. One written in the clock in which a step-down began its retrain joins it at the lower of the two rates. -/
def lctlRate (l : Nat) (rate : BitVec 3) (overdrive : Bool) (s : State) : State :=
  let k := s.link l
  if 4 < rate.toNat ∨ (2 < rate.toNat ∧ !overdrive) then s
  else
    let s := s.setLink l { k with req := rate }
    if k.state = 0 then
      if rate.toNat = k.rate then s
      else (s.setLink l { k with req := rate, rate := rate.toNat, begun := some (s.clock, k.rate) }).retrain l none
    else if k.state = 1 then
      if k.why = some (0xFF, 2) ∧ k.begun.map (·.1) = some s.clock then s.setLink l { k with req := rate, rate := min k.rate rate.toNat }
      else s.setLink l { k with req := rate, further := true }
    else s

/-- The counters of a direction at zero. -/
def LinkDir.clear (d : LinkDir) : LinkDir := { d with sent := 0, crc := 0, naks := 0, replays := 0 }

/-- LCTL_CLR (R398): every counter of the block := 0. -/
def lctlClr (l : Nat) (s : State) : State :=
  let k := s.link l
  s.setLink l { k with ab := k.ab.clear, ba := k.ba.clear, retrains := 0 }

/-- LCTL_PIN (R398): pin set or cleared; setting it clears pin in the pair's other links. -/
def lctlPin (l : Nat) (on : Bool) (s : State) : State :=
  let s := if on then (List.range 4).foldl (fun s i => s.setLink (l / 4 * 4 + i) { s.link (l / 4 * 4 + i) with pin := false }) s else s
  s.setLink l { s.link l with pin := on }

/-- The lowest free repair lane, if any (R392). -/
def Link.freeRepair (k : Link) : Option Nat :=
  (List.range 4).find? fun i => !bit k.repRetired i && !(k.repairs.any fun p => p.1 == i)

/-- A lane is retired and no repair lane stands for it. -/
def Link.bare (k : Link) (lane : Nat) : Bool := bit k.lanes lane && !(k.repairs.any fun p => p.2 == lane)

/-- The lanes of the active range (R392, R399). -/
def Link.active (k : Link) (lane : Nat) : Bool :=
  k.width ≠ 3 && decide (16 * k.base ≤ lane) && decide (lane < 16 * k.base + 64 / 2 ^ k.width)

/-- The lowest aligned range of width code w within the current range that holds no bare lane (R392). -/
def Link.rangeOf (k : Link) (w : Nat) : Option Nat :=
  let span := 64 / 2 ^ w
  ((List.range (2 ^ w)).map (span * ·)).find? fun a =>
    decide (16 * k.base ≤ a) && decide (a + span ≤ 16 * k.base + 64 / 2 ^ k.width) && !((List.range span).any fun i => k.bare (a + i))

/-- The width halved until a range of it, within the current range, holds no bare lane (R392); width 3 where none does. -/
def Link.halve (k : Link) : Link :=
  (([1, 2].filter (k.width < ·)).findSome? fun w => (k.rangeOf w).map fun a => { k with width := w, base := a / 16 }).getD { k with width := 3 }

/-- The link goes Down (R393, R394): the messages not acknowledged and those that wait are sent again on other links. -/
def State.linkDown (s : State) (l lane : Nat) : State :=
  let k := s.link l
  let out := fun (d : LinkDir) => d.retry.foldl (fun a f => a ++ f.msgs) [] ++ d.waiting
  let s := s.setLink l { k with state := 2, further := false, why := none, begun := none, ab := { k.ab with retry := [], resent := 0, waiting := [], wire := [] },
                                ba := { k.ba with retry := [], resent := 0, waiting := [], wire := [] } }
  let s := (out k.ab).foldl (fun s m => s.forward (linkEnd l false) m) s
  let s := (out k.ba).foldl (fun s m => s.forward (linkEnd l true) m) s
  s.linkEvent l 0x31 lane 3

/-- A data lane that no repair lane stands for leaves the active range (R392, R394). -/
def State.loseLane (s : State) (l lane : Nat) : State :=
  let k := (s.link l).halve
  if k.width = 3 then (s.setLink l { s.link l with width := 3 }).linkDown l lane
  else if k.state = 1 then s.setLink l { k with why := some (lane, 1) }
  else (s.setLink l k).retrain l (some (lane, 1))

/-- The entry that the retirement of a lane writes to the PF error log (R432). -/
def State.logLane (s : State) (l lane : Nat) : State :=
  let k := s.link l
  if lane < 68 ∧ !(if lane < 64 then bit k.lanes lane else bit k.repRetired (lane - 64)) then
    { s with errlog := s.errlog ++ [{ code := 0x30, addr := l * 128 + lane }] }
  else s

/-- LANE_RETIRE (R392, R394, R432): lane 0 to 63, or 64 to 67 for a repair lane, fails and is retired, and F4 logs it. Of several that join
one retrain its event reports the last (log 138). -/
def laneRetire (l lane : Nat) (s : State) : State :=
  let s := s.logLane l lane
  let k := s.link l
  if lane < 64 then
    if bit k.lanes lane then s
    else
      let k := { k with lanes := k.lanes ||| (1 <<< lane) }
      if k.state = 2 then s.setLink l k
      else if !k.active lane then (s.setLink l k).linkEvent l 0x30 lane 0
      else
        match k.freeRepair with
        | some i =>
          let k := { k with repairs := k.repairs ++ [(i, lane)] }
          if k.state = 1 then s.setLink l { k with why := some (lane, 0) } else (s.setLink l k).retrain l (some (lane, 0))
        | none => (s.setLink l k).loseLane l lane
  else if lane < 68 then
    let i := lane - 64
    if bit k.repRetired i then s
    else
      let k := { k with repRetired := k.repRetired ||| (1 <<< i) }
      let left := { k with repairs := k.repairs.filter fun p => p.1 != i }
      if k.state = 2 then s.setLink l left
      else
        match k.repairs.find? (fun p => p.1 == i) with
        | none => (s.setLink l k).linkEvent l 0x30 lane 0
        | some (_, data) =>
          match left.freeRepair with
          | some j =>
            let k := { left with repairs := left.repairs ++ [(j, data)] }
            if k.state = 1 then s.setLink l { k with why := some (lane, 0) } else (s.setLink l k).retrain l (some (lane, 0))
          | none => (s.setLink l left).loseLane l lane
  else s

/-- LINJ_LANE_ARM (R401): the lane fails permanently; a lane value from 68 on has no effect. -/
def linjLaneArm (l lane : Nat) (s : State) : State := laneRetire l lane s

/-- LINJ_CRC_ARM (R401): the CRC of the (crc_after + 1)th DATA flit first sent in the direction is to be inverted. -/
def linjCrcArm (l : Nat) (s : State) : State :=
  let k := s.link l
  s.setLink l { k with crcArm := true, crcLeft := k.crcAfter.toNat }

/-- A direction resumes after a retrain from the number that the receiver tells (R391), without counting a replay. -/
def LinkDir.resume (d : LinkDir) : LinkDir :=
  let d := d.free (d.e - 1)
  { d with resent := 0, n := if d.retry.isEmpty then d.e else d.n }

/-- The retired data lanes of the active range with no repair lane, which a Down link recorded (R392, R394). -/
def Link.bareActive (k : Link) : List Nat := (List.range 64).filter fun i => k.active i && k.bare i

/-- Before a Down link retrains, the lanes that it recorded while Down take the free repair lanes, lowest first; where a lane
of the active range is left with none, the width halves (R392). -/
def Link.settleLanes (k : Link) : Link :=
  let k := k.bareActive.foldl (fun (k : Link) lane =>
    match k.freeRepair with
    | some i => { k with repairs := k.repairs ++ [(i, lane)] }
    | none => k) k
  if k.bareActive.isEmpty then k else k.halve

/-- LCTL_RETRAIN (R394, R398): a Down link retrains at the requested rate; with the overdrive declined, at no more than code 2 (R391). -/
def lctlRetrain (l : Nat) (s : State) : State :=
  let k := s.link l
  let rate := if s.sys.locked && !bit s.sys.accept 0 then min 2 k.req.toNat else k.req.toNat
  if k.state = 2 then (s.setLink l { k.settleLanes with rate := rate }).retrain l none else s

/-- The flits on the wires that the retrain held back are received once the link is Up (R394). -/
def State.receiveHeld (s : State) (l : Nat) : State :=
  let k := s.link l
  s.add ((k.ab.wire.map fun _ => { ev := .flitReceive, arg := { n := l, flag := false }, lane := some (l, 2) }) ++
    (k.ba.wire.map fun _ => { ev := .flitReceive, arg := { n := l, flag := true }, lane := some (l, 3) }))

/-- RETRAIN_DONE (R391-R394). ok tells whether the retrain could bring the link up; with no range of x16 or wider it cannot. -/
def retrainDone (l : Nat) (ok : Bool) (s : State) : State :=
  let k := s.link l
  if k.state ≠ 1 then s
  else if ok ∧ k.width ≠ 3 then
    let k' := { k with state := 0, ab := k.ab.resume, ba := k.ba.resume, why := none, begun := none }
    let s := (((s.setLink l k').receiveHeld l).wantSend l false).wantSend l true
    let s := match k.why with
      | some (lane, reason) => s.linkEvent l 0x30 lane reason
      | none => s
    let s := (List.range 10).foldl (fun s d => s.unstick d) s
    if k.further then ((s.setLink l { s.link l with further := false, rate := k.req.toNat }).retrain l none) else s
  else if 0 < k.rate then
    (s.setLink l { k with rate := k.rate - 1, why := some (0xFF, 2) }).add [{ ev := .retrainDone, arg := { n := l } }]
  else s.linkDown l 0xFF

/-- REPLAY_WINDOW (R393, R394): the replays of a window exceeded the limit; above code 0 the rate steps down, and both directions start new
windows. A retrain that has begun meanwhile takes the step-down up, and one that a request began takes the lower of the two rates. -/
def replayWindow (l : Nat) (s : State) : State :=
  let k := s.link l
  let fresh := { k with ab := { k.ab with winFlits := 0, winReplays := 0 }, ba := { k.ba with winFlits := 0, winReplays := 0 } }
  if k.state = 0 ∧ 0 < k.rate then
    (s.setLink l { fresh with rate := k.rate - 1, begun := some (s.clock, k.rate) }).retrain l (some (0xFF, 2))
  else if k.state = 1 then
    match k.begun with
    | some (_, old) => if 0 < old then s.setLink l { fresh with rate := min k.rate (old - 1), why := some (0xFF, 2) } else s
    | none => if 0 < k.rate then s.setLink l { fresh with rate := k.rate - 1, why := some (0xFF, 2) } else s
  else s

/-- FLIT_REPLAY_LIMIT (R393): a flit replayed 8 times makes the link retrain at its rate and width. -/
def flitReplayLimit (l : Nat) (r : Bool) (s : State) : State :=
  let k := s.link l
  let d := k.dir r
  if k.state = 0 ∧ d.retry.any (fun f => 8 ≤ f.replays) then
    (s.setLink l (k.setDir r { d with retry := d.retry.map fun f => { f with replays := 0 } })).retrain l none
  else s

/-! ### Registers (R397-R401) -/

/-- The LSTAT word (R399). -/
def Link.lstat (k : Link) : Word :=
  BitVec.ofNat 64 (k.repRetired.toNat * 2 ^ 20 +
    (k.repairs.foldl (fun n p => if n / 2 ^ p.1 % 2 = 1 then n else n + 2 ^ p.1) 0) % 16 * 2 ^ 16 +
    k.base % 4 * 2 ^ 12 + k.state % 4 * 2 ^ 8 + k.width % 4 * 2 ^ 4 + k.rate % 8)

/-- The LCTL word (R398). -/
def Link.lctl (k : Link) : Word :=
  BitVec.ofNat 64 (k.rlimit.toNat * 2 ^ 32 + (if k.single then 2 ^ 9 else 0) + (if k.pin then 2 ^ 8 else 0) + k.req.toNat)

/-- The LINJ word (R401). -/
def Link.linj (k : Link) : Word :=
  BitVec.ofNat 64 (k.injLane.toNat * 2 ^ 40 + (if k.injDir then 2 ^ 38 else 0) + k.crcAfter.toNat * 2 ^ 16 +
    (if k.crcArm then 1 else 0))

/-- Counter i of a direction: flits sent, CRC errors, NAKs, replays (R400). -/
def LinkDir.counter (d : LinkDir) (i : Nat) : Word :=
  match i with
  | 0 => d.sent
  | 1 => d.crc
  | 2 => d.naks
  | _ => d.replays

/-- The doubleword of the link register page at an offset that is a multiple of 8 (R397); LINJ reads 0 through a mapping. -/
def State.linkReg (s : State) (mapped : Bool) (o : Nat) : Word :=
  let k := s.link (o / 256)
  if 56 * 256 ≤ o then 0
  else
    let r := o % 256
    if r = 0 then k.lctl
    else if r = 8 then k.lstat
    else if r = 0x10 then k.lanes
    else if 0x20 ≤ r ∧ r < 0x40 then k.ab.counter ((r - 0x20) / 8)
    else if 0x40 ≤ r ∧ r < 0x60 then k.ba.counter ((r - 0x40) / 8)
    else if r = 0x60 then k.retrains
    else if r = 0x68 then (if mapped then 0 else k.linj)
    else 0

/-! ### Ingress (R386-R389) -/

/-- Every message between dies, wherever it waits. -/
def State.messages (s : State) : List Msg :=
  let dir := fun (d : LinkDir) => d.waiting ++ d.retry.flatMap (·.msgs)
  (s.links.flatMap fun e => dir e.2.ab ++ dir e.2.ba) ++
    s.ingress.flatMap fun e => e.2.arrived ++ e.2.held ++ e.2.ready.map (·.1) ++ e.2.bounce.map (·.1) ++ e.2.stuck

/-- Every message that a direction of a link holds changed. -/
def LinkDir.mapMsgs (d : LinkDir) (f : Msg → Msg) : LinkDir :=
  { d with waiting := d.waiting.map f, retry := d.retry.map fun x => { x with msgs := x.msgs.map f }
           wire := d.wire.map fun w => { w with data := w.data.map fun l => l.map f } }

/-- Every message that the ingress of a die holds changed. -/
def Ingress.mapMsgs (x : Ingress) (f : Msg → Msg) : Ingress :=
  { x with arrived := x.arrived.map f, held := x.held.map f, ready := x.ready.map fun e => (f e.1, e.2)
           bounce := x.bounce.map fun e => (f e.1, e.2), stuck := x.stuck.map f }

/-- The slots of messages. -/
def slotsOf (l : List Msg) : Nat := (l.map (·.slots)).sum

/-- The reserved entries of a context in use (R388). -/
def Ingress.usedOwn (g : Ingress) (c : Nat) : Nat := slotsOf ((g.ready.filter fun m => m.2 && m.1.ctx == c).map (·.1))

/-- The shared entries in use (R388). -/
def Ingress.usedShared (g : Ingress) : Nat := slotsOf g.held + slotsOf ((g.ready.filter fun m => !m.2).map (·.1))

/-- The source endpoint of a message among those of the module. -/
def Msg.key (m : Msg) : Nat := m.src * 4096 + m.ep

/-- The entries that an endpoint's held messages use, of which it may have 64 (R388). -/
def Ingress.heldBy (g : Ingress) (key : Nat) : Nat := slotsOf (g.held.filter fun h => h.key == key)

/-- A message delivered: it keeps its entries until the ingress hands it to its endpoint (R388). -/
def State.deliver (s : State) (d : Nat) (m : Msg) (own : Bool) : State :=
  let g := s.ing d
  (s.setIng d { g with ready := g.ready ++ [(m, own)], expected := Tab.put g.expected m.key (m.stamp + 1) }).add
    [{ ev := .messageIngress, arg := { d := d, flag := true, n := m.key, m := m.stamp.toNat }, lane := some (100000 + m.key, d * 4096 + m.dstEp) }]

/-- The held messages of an endpoint that follow, delivered in turn (R386). -/
def State.drainHeld (s : State) (d key fuel : Nat) : State :=
  match fuel with
  | 0 => s
  | n + 1 =>
    let g := s.ing d
    match g.held.find? (fun m => m.key == key && m.stamp == Tab.get g.expected 0 key) with
    | none => s
    | some m => ((s.setIng d { g with held := g.held.erase m }).deliver d m false).drainHeld d key n

/-- A delivered message handed to its endpoint: its entries are free, and its step comes in the order of the two endpoints (R387, R388). One
of a kind that R379 does not give is discarded, and F4 logs it. -/
def handOver (d key stamp : Nat) (s : State) : State :=
  let g := s.ing d
  match g.ready.find? (fun m => m.1.key == key && m.1.stamp.toNat == stamp) with
  | none => s
  | some (m, own) =>
    let s := s.setIng d { g with ready := g.ready.erase (m, own) }
    if m.kind = 0 ∨ 8 < m.kind then { s with errlog := s.errlog ++ [{ code := 0, ctx := m.ctx, addr := m.kind }] }
    else s.add [{ ev := m.ev, arg := m.arg, lane := some (pairLane m.src m.ep d m.dstEp) }]

/-- The message that arrived first at a die is delivered, held, discarded as a copy, or bounced where it finds no entry (R386, R388, R389).
One that comes back bounced waits while its die's bounce store is full. -/
def takeMessage (d : Nat) (s : State) : State :=
  let g := s.ing d
  match g.arrived with
  | [] => s
  | m :: rest =>
    let g := { g with arrived := rest }
    if m.bounced then
      if 1024 ≤ g.bounce.length then
        (s.setIng d { g with arrived := rest ++ [m] }).add [{ ev := .messageIngress, arg := { d := d }, due := s.clock + 1 }]
      else
        (s.setIng d { g with bounce := g.bounce ++ [({ m with bounced := false, dst := m.src, src := d }, s.clock + 1700)] }).add
          [{ ev := .bounceResend, arg := { d := d }, due := s.clock + 1700 }]
    else
      let s := s.setIng d g
      let ahead := (m.stamp - Tab.get g.expected 0 m.key).toNat
      let bounce := s.forward d { m with bounced := true, src := m.dst, dst := m.src }
      if ahead = 0 then
        if g.usedOwn m.ctx + m.slots ≤ 16 ∧ m.ctx ≤ 192 then (s.deliver d m true).drainHeld d m.key 64
        else if g.usedShared + m.slots ≤ 5104 then (s.deliver d m false).drainHeld d m.key 64
        else bounce
      else if 2 ^ 15 ≤ ahead ∨ g.held.any (fun h => h.key == m.key && h.stamp == m.stamp) then s
      else if g.usedShared + m.slots ≤ 5104 ∧ g.heldBy m.key + m.slots ≤ 64 then s.setIng d { g with held := g.held ++ [m] }
      else bounce

/-- MESSAGE_INGRESS (R386-R389): the ingress takes the message that arrived first, or hands a delivered one to its endpoint. -/
def messageIngress (a : Args) (s : State) : State := if a.flag then handOver a.d a.n a.m s else takeMessage a.d s

/-- An entry of the bounce store may go again: its time has come, and no earlier-stamped one of its endpoint waits there (R389). -/
def Ingress.mayResend (g : Ingress) (clock : Nat) (e : Msg × Nat) : Bool :=
  decide (e.2 ≤ clock) && !g.bounce.any fun h =>
    h.1.ep == e.1.ep && h.1.dst == e.1.dst && h.1.stamp != e.1.stamp && decide ((e.1.stamp - h.1.stamp).toNat < 2 ^ 15)

/-- BOUNCE_RESEND (R389): a bounced message is sent again with its stamp, no sooner than 1 µs after it was bounced, in stamp order for its
endpoint. -/
def bounceResend (d : Nat) (s : State) : State :=
  let g := s.ing d
  match g.bounce.find? (g.mayResend s.clock) with
  | some e =>
    let s := ((s.setIng d { g with bounce := g.bounce.erase e }).forward d e.1).unstick d
    if (s.ing d).bounce.isEmpty then s else s.add [{ ev := .bounceResend, arg := { d := d }, due := s.clock + 1 }]
  | none => if g.bounce.isEmpty then s else s.add [{ ev := .bounceResend, arg := { d := d }, due := s.clock + 1 }]

/-- FLIT_SEND. -/
def execFlitSend (s : State) : Host.Outcome State Fault Refusal := .next (flitSend s.arg.n s.arg.flag s)
/-- FLIT_RECEIVE: m says what noise did to the flit. -/
def execFlitReceive (s : State) : Host.Outcome State Fault Refusal := .next (flitReceive s.arg.n s.arg.flag s.arg.m s)
/-- ACK_CONTROL_FLIT. -/
def execAckControlFlit (s : State) : Host.Outcome State Fault Refusal := .next (ackControlFlit s.arg.n s.arg.flag s)
/-- REPLAY_TIMEOUT. -/
def execReplayTimeout (s : State) : Host.Outcome State Fault Refusal := .next (replayTimeout s.arg.n s.arg.flag s.arg.m s)
/-- NAK_PENDING_EXPIRY. -/
def execNakPendingExpiry (s : State) : Host.Outcome State Fault Refusal := .next (nakPendingExpiry s.arg.n s.arg.flag s)
/-- MESSAGE_INGRESS: flag tells a hand-over, n and m then being the message's source and stamp. -/
def execMessageIngress (s : State) : Host.Outcome State Fault Refusal := .next (messageIngress s.arg s)
/-- BOUNCE_RESEND. -/
def execBounceResend (s : State) : Host.Outcome State Fault Refusal := .next (bounceResend s.arg.d s)
/-- LCTL_RATE: val is the rate code. -/
def execLctlRate (s : State) : Host.Outcome State Fault Refusal := .next (lctlRate s.arg.n (s.arg.val.setWidth 3) (bit s.sys.accept 0) s)
/-- LCTL_RETRAIN. -/
def execLctlRetrain (s : State) : Host.Outcome State Fault Refusal := .next (lctlRetrain s.arg.n s)
/-- LCTL_CLR. -/
def execLctlClr (s : State) : Host.Outcome State Fault Refusal := .next (lctlClr s.arg.n s)
/-- LCTL_PIN. -/
def execLctlPin (s : State) : Host.Outcome State Fault Refusal := .next (lctlPin s.arg.n s.arg.flag s)
/-- LINJ_LANE_ARM: m is the lane. -/
def execLinjLaneArm (s : State) : Host.Outcome State Fault Refusal := .next (linjLaneArm s.arg.n s.arg.m s)
/-- LINJ_CRC_ARM. -/
def execLinjCrcArm (s : State) : Host.Outcome State Fault Refusal := .next (linjCrcArm s.arg.n s)
/-- LANE_RETIRE: m is the lane. -/
def execLaneRetire (s : State) : Host.Outcome State Fault Refusal := .next (laneRetire s.arg.n s.arg.m s)
/-- RETRAIN_DONE: m is 1 where the retrain failed. -/
def execRetrainDone (s : State) : Host.Outcome State Fault Refusal := .next (retrainDone s.arg.n (s.arg.m != 1) s)
/-- REPLAY_WINDOW. -/
def execReplayWindow (s : State) : Host.Outcome State Fault Refusal := .next (replayWindow s.arg.n s)
/-- FLIT_REPLAY_LIMIT. -/
def execFlitReplayLimit (s : State) : Host.Outcome State Fault Refusal := .next (flitReplayLimit s.arg.n s.arg.flag s)

end Sys2Proof.Machine
end

