-- ==== Sys2Proof/Machine/Operands.lean ====
section
/-! DEFINITION. The operands of a word: the kind of each register field, the checks that come before a word's own faults
(R58, R60, R68, R115), the assembled immediate (R69) and the modifiers (R70). -/

namespace Sys2Proof.Machine

/-- The kinds of register fields (R58); kd is a mask register as destination. -/
inductive Kind where
  | x
  | v
  | k
  | kd
  | tile
  | slot
  | bar
  deriving DecidableEq, Repr

/-- The register fields of a word in the order of the format, each with the kind that its entry gives it. -/
def operands (i : Instr) : List (Kind × BitVec 5) :=
  match i with
  | .ill _ => []
  | .add d a b => [(.x, d), (.x, a), (.x, b)]
  | .sub d a b => [(.x, d), (.x, a), (.x, b)]
  | .and d a b => [(.x, d), (.x, a), (.x, b)]
  | .or d a b => [(.x, d), (.x, a), (.x, b)]
  | .xor d a b => [(.x, d), (.x, a), (.x, b)]
  | .andn d a b => [(.x, d), (.x, a), (.x, b)]
  | .orn d a b => [(.x, d), (.x, a), (.x, b)]
  | .shl d a b => [(.x, d), (.x, a), (.x, b)]
  | .shr d a b => [(.x, d), (.x, a), (.x, b)]
  | .sra d a b => [(.x, d), (.x, a), (.x, b)]
  | .min d a b => [(.x, d), (.x, a), (.x, b)]
  | .max d a b => [(.x, d), (.x, a), (.x, b)]
  | .minn d a b => [(.x, d), (.x, a), (.x, b)]
  | .maxn d a b => [(.x, d), (.x, a), (.x, b)]
  | .slt d a b => [(.x, d), (.x, a), (.x, b)]
  | .sltn d a b => [(.x, d), (.x, a), (.x, b)]
  | .mul d a b => [(.x, d), (.x, a), (.x, b)]
  | .mulh d a b => [(.x, d), (.x, a), (.x, b)]
  | .mulhn d a b => [(.x, d), (.x, a), (.x, b)]
  | .div d a b => [(.x, d), (.x, a), (.x, b)]
  | .divn d a b => [(.x, d), (.x, a), (.x, b)]
  | .rem d a b => [(.x, d), (.x, a), (.x, b)]
  | .remn d a b => [(.x, d), (.x, a), (.x, b)]
  | .clz d a => [(.x, d), (.x, a)]
  | .ctz d a => [(.x, d), (.x, a)]
  | .popc d a => [(.x, d), (.x, a)]
  | .adds d a b _ => [(.x, d), (.x, a), (.x, b)]
  | .shli d a _ => [(.x, d), (.x, a)]
  | .shri d a _ => [(.x, d), (.x, a)]
  | .srai d a _ => [(.x, d), (.x, a)]
  | .addi d a _ => [(.x, d), (.x, a)]
  | .andi d a _ => [(.x, d), (.x, a)]
  | .ori d a _ => [(.x, d), (.x, a)]
  | .xori d a _ => [(.x, d), (.x, a)]
  | .slti d a _ => [(.x, d), (.x, a)]
  | .sltni d a _ => [(.x, d), (.x, a)]
  | .movhi d _ => [(.x, d)]
  | .addpc d _ => [(.x, d)]
  | .beq a b _ => [(.x, a), (.x, b)]
  | .bne a b _ => [(.x, a), (.x, b)]
  | .blt a b _ => [(.x, a), (.x, b)]
  | .bge a b _ => [(.x, a), (.x, b)]
  | .bltn a b _ => [(.x, a), (.x, b)]
  | .bgen a b _ => [(.x, a), (.x, b)]
  | .jal d _ => [(.x, d)]
  | .jalr d a _ => [(.x, d), (.x, a)]
  | .yield _ => []
  | .endTask a _ _ => [(.x, a)]
  | .endCont d a => [(.x, d), (.x, a)]
  | .release d a _ _ => [(.x, d), (.x, a)]
  | .releaseDie d a _ _ _ => [(.x, d), (.x, a)]
  | .releasePeer d a _ _ => [(.x, d), (.x, a)]
  | .claim _ => []
  | .unclaim _ => []
  | .prio d => [(.x, d)]
  | .prioSet d a => [(.x, d), (.x, a)]
  | .self d => [(.x, d)]
  | .selfFrame d => [(.x, d)]
  | .gdec a _ => [(.x, a)]
  | .gnode d => [(.x, d)]
  | .gnodeN d => [(.x, d)]
  | .ld t b _ _ => [(.x, t), (.x, b)]
  | .st t b _ _ => [(.x, t), (.x, b)]
  | .lda t b _ _ => [(.x, t), (.x, b)]
  | .stl t b _ _ => [(.x, t), (.x, b)]
  | .amo t b s _ _ _ => [(.x, t), (.x, b), (.x, s)]
  | .amop b s _ _ _ => [(.x, b), (.x, s)]
  | .amoa t b s _ k _ => [(.x, t), (.x, b), (.x, s), (.bar, k.setWidth 5)]
  | .cas t b c n _ _ => [(.x, t), (.x, b), (.x, c), (.x, n)]
  | .fadd t b s _ _ => [(.x, t), (.x, b), (.x, s)]
  | .faddPosted b s _ _ => [(.x, b), (.x, s)]
  | .stfFlag t b f _ => [(.x, t), (.x, b), (.x, f)]
  | .stfTask t b f _ => [(.x, t), (.x, b), (.x, f)]
  | .pref b _ => [(.x, b)]
  | .prefFar b _ => [(.x, b)]
  | .fence => []
  | .binit d a k => [(.x, d), (.x, a), (.bar, k.setWidth 5)]
  | .bexpect a k => [(.x, a), (.bar, k.setWidth 5)]
  | .barrive k => [(.bar, k.setWidth 5)]
  | .barriveH a => [(.x, a)]
  | .bwait d a k => [(.x, d), (.x, a), (.bar, k.setWidth 5)]
  | .btest d _ k => [(.x, d), (.bar, k.setWidth 5)]
  | .bpoison _ k => [(.bar, k.setWidth 5)]
  | .copy d a => [(.x, d), (.x, a)]
  | .copyc d a => [(.x, d), (.x, a)]
  | .copym d a => [(.x, d), (.x, a)]
  | .cwp d _ => [(.x, d)]
  | .cring d a => [(.x, d), (.x, a)]
  | .vld t b _ => [(.v, t), (.x, b)]
  | .vldH t b _ => [(.v, t), (.x, b)]
  | .vst t b _ => [(.v, t), (.x, b)]
  | .vstH t b _ => [(.v, t), (.x, b)]
  | .vlds t b s _ => [(.v, t), (.x, b), (.x, s)]
  | .vsts t b s _ => [(.v, t), (.x, b), (.x, s)]
  | .vgath d a b k _ => [(.v, d), (.x, a), (.v, b), (.k, k.setWidth 5)]
  | .vscat d a b k _ => [(.v, d), (.x, a), (.v, b), (.k, k.setWidth 5)]
  | .vbcast d a k _ => [(.v, d), (.x, a), (.k, k.setWidth 5)]
  | .vins d a b _ => [(.v, d), (.x, a), (.x, b)]
  | .vext d a b _ _ => [(.x, d), (.v, a), (.x, b)]
  | .vadd d a b k _ => [(.v, d), (.v, a), (.v, b), (.k, k.setWidth 5)]
  | .vsub d a b k _ => [(.v, d), (.v, a), (.v, b), (.k, k.setWidth 5)]
  | .vmul d a b k _ => [(.v, d), (.v, a), (.v, b), (.k, k.setWidth 5)]
  | .vmin d a b k _ => [(.v, d), (.v, a), (.v, b), (.k, k.setWidth 5)]
  | .vmax d a b k _ => [(.v, d), (.v, a), (.v, b), (.k, k.setWidth 5)]
  | .vdiv d a b k _ => [(.v, d), (.v, a), (.v, b), (.k, k.setWidth 5)]
  | .vfma d a b k _ => [(.v, d), (.v, a), (.v, b), (.k, k.setWidth 5)]
  | .vfms d a b k _ => [(.v, d), (.v, a), (.v, b), (.k, k.setWidth 5)]
  | .vnfma d a b k _ => [(.v, d), (.v, a), (.v, b), (.k, k.setWidth 5)]
  | .vabs d a k _ => [(.v, d), (.v, a), (.k, k.setWidth 5)]
  | .vneg d a k _ => [(.v, d), (.v, a), (.k, k.setWidth 5)]
  | .vsqrt d a k _ => [(.v, d), (.v, a), (.k, k.setWidth 5)]
  | .vrcp d a k _ => [(.v, d), (.v, a), (.k, k.setWidth 5)]
  | .vrsq d a k _ => [(.v, d), (.v, a), (.k, k.setWidth 5)]
  | .vexp2 d a k _ => [(.v, d), (.v, a), (.k, k.setWidth 5)]
  | .vlog2 d a k _ => [(.v, d), (.v, a), (.k, k.setWidth 5)]
  | .vcmp d a b k _ _ => [(.kd, d), (.v, a), (.v, b), (.k, k.setWidth 5)]
  | .vsel d a b k _ => [(.v, d), (.v, a), (.v, b), (.k, k.setWidth 5)]
  | .vcvt d a k _ _ _ _ => [(.v, d), (.v, a), (.k, k.setWidth 5)]
  | .viadd d a b k _ _ => [(.v, d), (.v, a), (.v, b), (.k, k.setWidth 5)]
  | .visub d a b k _ _ => [(.v, d), (.v, a), (.v, b), (.k, k.setWidth 5)]
  | .vimul d a b k _ _ => [(.v, d), (.v, a), (.v, b), (.k, k.setWidth 5)]
  | .vimulh d a b k _ _ => [(.v, d), (.v, a), (.v, b), (.k, k.setWidth 5)]
  | .vimin d a b k _ _ => [(.v, d), (.v, a), (.v, b), (.k, k.setWidth 5)]
  | .vimax d a b k _ _ => [(.v, d), (.v, a), (.v, b), (.k, k.setWidth 5)]
  | .vand d a b k _ => [(.v, d), (.v, a), (.v, b), (.k, k.setWidth 5)]
  | .vor d a b k _ => [(.v, d), (.v, a), (.v, b), (.k, k.setWidth 5)]
  | .vxor d a b k _ => [(.v, d), (.v, a), (.v, b), (.k, k.setWidth 5)]
  | .vshl d a b k _ => [(.v, d), (.v, a), (.v, b), (.k, k.setWidth 5)]
  | .vshr d a b k _ => [(.v, d), (.v, a), (.v, b), (.k, k.setWidth 5)]
  | .vsra d a b k _ => [(.v, d), (.v, a), (.v, b), (.k, k.setWidth 5)]
  | .vicmp d a b k _ _ _ => [(.kd, d), (.v, a), (.v, b), (.k, k.setWidth 5)]
  | .vredadd d a k _ _ _ => [(.x, d), (.v, a), (.k, k.setWidth 5)]
  | .vredmin d a k _ _ _ => [(.x, d), (.v, a), (.k, k.setWidth 5)]
  | .vredmax d a k _ _ _ => [(.x, d), (.v, a), (.k, k.setWidth 5)]
  | .vredmini d a k _ _ => [(.x, d), (.v, a), (.k, k.setWidth 5)]
  | .vperm d a b k _ => [(.v, d), (.v, a), (.v, b), (.k, k.setWidth 5)]
  | .vslideUp d a b k _ => [(.v, d), (.v, a), (.x, b), (.k, k.setWidth 5)]
  | .vslideDn d a b k _ => [(.v, d), (.v, a), (.x, b), (.k, k.setWidth 5)]
  | .vzipLo d a b k _ => [(.v, d), (.v, a), (.v, b), (.k, k.setWidth 5)]
  | .vzipHi d a b k _ => [(.v, d), (.v, a), (.v, b), (.k, k.setWidth 5)]
  | .vcompr d a k _ => [(.v, d), (.v, a), (.k, k.setWidth 5)]
  | .kand d a b => [(.kd, d), (.k, a), (.k, b)]
  | .kor d a b => [(.kd, d), (.k, a), (.k, b)]
  | .kxor d a b => [(.kd, d), (.k, a), (.k, b)]
  | .knot d a => [(.kd, d), (.k, a)]
  | .kpopc d a => [(.x, d), (.k, a)]
  | .kfirst d a => [(.x, d), (.k, a)]
  | .kset d a => [(.kd, d), (.x, a)]
  | .kmov d a => [(.kd, d), (.k, a)]
  | .kmovX d a => [(.x, d), (.k, a)]
  | .bkany a _ => [(.k, a)]
  | .bknone a _ => [(.k, a)]
  | .rep _ _ _ _ _ => []
  | .mxldb s a c _ _ => [(.slot, s), (.x, a), (.x, c)]
  | .mxz t _ => [(.tile, t)]
  | .mxlda t a c _ => [(.tile, t), (.x, a), (.x, c)]
  | .mma t a s _ _ _ => [(.tile, t), (.x, a), (.slot, s)]
  | .mxst t a c b e _ _ => [(.tile, t), (.x, a), (.x, c)] ++ (if e = 1 then [(.bar, b.setWidth 5)] else [])
  | .scmc e s m _ => [(.x, e), (.x, s), (.x, m)]
  | .mxpass p _ => [(.x, p)]
  | .mxqT d t => [(.x, d), (.tile, t)]
  | .mxqS d a => [(.x, d), (.x, a)]
  | .couple d a _ => [(.x, d), (.x, a)]
  | .uncouple d a _ => [(.x, d), (.x, a)]
  | .cquery d _ _ => [(.x, d)]
  | .csync => []
  | .pageq d a => [(.x, d), (.x, a)]
  | .pageqH d a => [(.x, d), (.x, a)]
  | .csrr d _ => [(.x, d)]
  | .csrw a _ => [(.x, a)]
  | .trap d a _ => [(.x, d), (.x, a)]
  | .brk _ => []
  | .hnop => []
  | .ext _ => []
  | .mod _ _ _ => []
  | .sched _ _ => []
  | _ => []

/-- ILLEGAL_OPERAND for a field: beyond the range of its kind (R58) or, for a register, beyond the declaration (R115). -/
def badField (h : Header) (p : Kind × BitVec 5) : Bool :=
  match p.1 with
  | .x => decide (h.sregs ≤ p.2.toNat)
  | .v => decide (16 ≤ p.2.toNat) || decide (h.vregs ≤ p.2.toNat)
  | .k => decide (8 ≤ p.2.toNat) || (p.2 != 0 && decide (h.kregs ≤ p.2.toNat))
  | .kd => p.2 == 0 || decide (8 ≤ p.2.toNat) || decide (h.kregs ≤ p.2.toNat)
  | .tile => decide (8 ≤ p.2.toNat)
  | .slot => decide (16 ≤ p.2.toNat)
  | .bar => decide (16 ≤ p.2.toNat)

/-- BARRIER_BOUND or MX_BOUND for a field beyond the declaration (R115): the code and the index. -/
def boundField (h : Header) (p : Kind × BitVec 5) : Option (Nat × Nat) :=
  match p.1 with
  | .bar => if h.barriers ≤ p.2.toNat then some (0x0A, p.2.toNat) else none
  | .tile => if h.acc ≤ p.2.toNat then some (0x0C, p.2.toNat) else none
  | _ => none

/-- An instruction of format I or B: it takes its immediate through EXT (R68, R69). -/
def takesExt (i : Instr) : Bool :=
  match i with
  | .addi _ _ _ | .andi _ _ _ | .ori _ _ _ | .xori _ _ _ | .slti _ _ _ | .sltni _ _ _ | .movhi _ _ | .addpc _ _
  | .jalr _ _ _ | .beq _ _ _ | .bne _ _ _ | .blt _ _ _ | .bge _ _ _ | .bltn _ _ _ | .bgen _ _ _
  | .bkany _ _ | .bknone _ _ => true
  | _ => false

/-- The modifiers that a word accepts: bypass, sat, round (R70, R190, R242, R278). -/
def takesMod (i : Instr) : Bool × Bool × Bool :=
  match i with
  | .ld _ _ _ _ | .st _ _ _ _ | .vld _ _ _ | .vldH _ _ _ | .vst _ _ _ | .vstH _ _ _ | .vlds _ _ _ _ | .vsts _ _ _ _
  | .vgath _ _ _ _ _ | .vscat _ _ _ _ _ => (true, false, false)
  | .vadd _ _ _ _ _ | .vsub _ _ _ _ _ | .vmul _ _ _ _ _ | .vdiv _ _ _ _ _ | .vfma _ _ _ _ _ | .vfms _ _ _ _ _
  | .vnfma _ _ _ _ _ | .vsqrt _ _ _ _ | .vrcp _ _ _ _ | .vrsq _ _ _ _ | .vexp2 _ _ _ _ | .vlog2 _ _ _ _
  | .vcvt _ _ _ _ _ _ _ | .mxst _ _ _ _ _ _ _ => (false, true, true)
  | .vredadd _ _ _ _ f _ => (false, false, f == 1)
  | .viadd _ _ _ _ _ _ | .visub _ _ _ _ _ _ | .vimul _ _ _ _ _ _ => (false, true, false)
  | _ => (false, false, false)

/-- The modifier fields of a MOD payload: bypass, sat, round (R70). -/
def modBypass (m : Option (BitVec 5)) : Bool := match m with | some p => bit p 4 | none => false
/-- See modBypass. -/
def modSat (m : Option (BitVec 5)) : Bool := match m with | some p => bit p 3 | none => false
/-- See modBypass. -/
def modRound (m : Option (BitVec 5)) : BitVec 3 := match m with | some p => p.setWidth 3 | none => 0

/-- A prefix that R68 does not allow before the word. -/
def badPrefix (i : Instr) (p : Prefix) : Bool :=
  match i with
  | .ext _ => decide (2 ≤ p.exts.length)
  | .mod _ _ _ => p.mod.isSome || !p.exts.isEmpty
  | .sched _ _ => p.sched.isSome || !p.exts.isEmpty
  | .rep _ _ _ _ _ => p.mod.isSome || !p.exts.isEmpty
  | _ =>
    (!p.exts.isEmpty && !takesExt i) || (modBypass p.mod && !(takesMod i).1) || (modSat p.mod && !(takesMod i).2.1) ||
      (modRound p.mod != 0 && !(takesMod i).2.2)

/-- The faults of ranks 2 to 4 of R60 that the prefix and the register fields of a word raise. -/
def gate (i : Instr) (p : Prefix) (h : Header) (w : BitVec 32) : Option Stop :=
  if badPrefix i p then some (.fault 0x01 0 w.toNat)
  else if (operands i).any (badField h) then some (.fault 0x02 0 w.toNat)
  else
    match ((operands i).filterMap (boundField h)).head? with
    | some (code, n) => some (.fault code 0 n)
    | none => none

/-- The immediate of a word of format I or B (R69). -/
def immediate (p : Prefix) (imm : BitVec 16) : Word :=
  match p.exts with
  | [] => imm.signExtend 64
  | [e1] => (e1 ++ imm).signExtend 64
  | e1 :: e2 :: _ => (e2 ++ e1 ++ imm).signExtend 64

end Sys2Proof.Machine
end

