-- ==== Sys2Proof/Machine/Room.lean ====
section
/-! DEFINITION. The address map (R167, R168), and whether a word finds room for the outbox and journal entries that it needs
(R135, R137, R138, R142). -/

namespace Sys2Proof.Machine

/-! ### The address map -/

/-- Where an address lies (R167): global memory, the peer-module window, a window of the own scratchpad with the offset,
the raw scratchpad of a core of the coach with the offset, a block of the engine region, or nothing. -/
inductive Region where
  | glob
  | peerWindow
  | own (w o : Nat)
  | peer (core o : Nat)
  | engine (die hart off : Nat)
  | nothing
  deriving DecidableEq, Repr

/-- The region of an address. -/
def region (va : Nat) : Region :=
  if va < 2 ^ 56 then .glob
  else if 0xFE00000000000000 ≤ va ∧ va < 0xFF00000000000000 then .peerWindow
  else if 0xFF00000000000000 ≤ va ∧ va < 0xFF00000000100000 then
    .own ((va - 0xFF00000000000000) / 0x10000) (va % 0x10000)
  else if 0xFF10000000000000 ≤ va ∧ va < 0xFF10000000100000 then
    .peer ((va - 0xFF10000000000000) / 0x10000) (va % 0x10000)
  else if 0xFF20000000000000 ≤ va ∧ va < 0xFF21000000000000 then
    if (va - 0xFF20000000000000) / 2 ^ 32 < 8 ∧ va % 2 ^ 32 / 0x100 < 22 then
      .engine ((va - 0xFF20000000000000) / 2 ^ 32) (va % 2 ^ 32 / 0x100) (va % 0x100)
    else .nothing
  else .nothing

/-- The bytes of a page of size code 0, 1 or 2 (R342, R358). -/
def pageBytes (size : Nat) : Nat :=
  match size with
  | 0 => 2 ^ 16
  | 1 => 2 ^ 21
  | _ => 2 ^ 30

/-- Whether a TLB entry maps the address in the context. -/
def TlbEntry.covers (e : TlbEntry) (ctx va : Nat) : Bool :=
  e.ctx == ctx && e.page == va / pageBytes e.size * pageBytes e.size

/-- The address of raw offset o of the own frame through window 0. -/
def ownAddr (o : Nat) : Nat := 0xFF00000000000000 + o

/-- The bytes of one decoded element of a window (R169). -/
def windowElem (w : Nat) : Nat :=
  if w = 0 ∨ (7 ≤ w ∧ w ≤ 9) then 1 else if w = 11 then 4 else 2

/-- The group size of windows 1 to 9 (R168). -/
def windowGroup (w : Nat) : Nat :=
  match w % 3 with
  | 1 => 32
  | 2 => 64
  | _ => 128

/-- The first raw byte behind decoded element e of a window, and how many there are (R168, R169). -/
def rawOf (w e : Nat) : Nat × Nat :=
  if w = 0 then (e, 1)
  else if w ≤ 3 ∨ (7 ≤ w ∧ w ≤ 9) then (e / 2, 1)
  else if w ≤ 6 then (e, 1)
  else (2 * e, 2)

/-! ### What a word names -/

/-- The word that executes, as it stands in memory: in a repetition the body word before its fields are stepped (R261). -/
def Bogie.wordNow (b : Bogie) (i : Instr) : BitVec 32 :=
  match b.rep with
  | some r => (r.body[r.idx]?).getD 0
  | none => (encode i).getD 0

/-- The width in bits of an element of the width class. -/
def widthOf (t : BitVec 2) : Nat := 8 * 2 ^ t.toNat

/-- Element i of a vector register, of w bits. -/
def elem (w : Nat) (v : Vec) (i : Nat) : Nat := v.toNat / 2 ^ (w * i) % 2 ^ w

/-- The effective address with a displacement in units of n (R190). -/
def dispAddr (c : Cpu) (base : BitVec 5) (d : BitVec 13) (n : Nat) : Nat :=
  (c.getX base + d.signExtend 64 * BitVec.ofNat 64 n).toNat

/-- The address of element i at a stride (R245). -/
def strideAddr (f : Frame) (base st : BitVec 5) (i : Nat) : Nat := (f.getX base + BitVec.ofNat 64 i * f.getX st).toNat

/-- The address of element i through an index vector (R247). -/
def indexAddr (f : Frame) (a b : BitVec 5) (w i : Nat) : Nat :=
  (f.getX a + sext w (elem w (f.getV b) i) * BitVec.ofNat 64 (w / 8)).toNat

/-! ### Room for a word's entries -/

/-- The sectors of 32 bytes that n bytes at physical offset a touch. -/
def sectorsOf (a n : Nat) : List Nat := if n = 0 then [] else (List.range ((a + n - 1) / 32 - a / 32 + 1)).map (a / 32 + ·)

/-- The journal entries that a write of n bytes at physical offset a still needs (R138). -/
def Bogie.journalNeed (b : Bogie) (a n : Nat) : List Nat :=
  (sectorsOf a n).filter fun k => !(b.journal.any fun e => e.1 == k)

/-- The addresses and numbers of the bytes that a word stores (R195, R244, R245, R247, R144). -/
def storeSpans (i : Instr) (f : Frame) : List (Nat × Nat) :=
  match i with
  | .st _ b d q => [(dispAddr f.cpu b d (2 ^ q.toNat), 2 ^ q.toNat)]
  | .vst _ b d => [(dispAddr f.cpu b d 64, 64)]
  | .vstH _ b d => [(dispAddr f.cpu b d 32, 32)]
  | .vsts _ b v_s w => (List.range (512 / widthOf w)).map fun e => (strideAddr f b v_s e, widthOf w / 8)
  | .vscat _ a b k t =>
    ((List.range (512 / widthOf t)).filter fun e => bit (f.getK k.toNat) e).map fun e => (indexAddr f a b (widthOf t) e, widthOf t / 8)
  | .endCont _ _ => [(f.record, 48)]
  | _ => []

/-- A load that the witness makes once, of a device page, an engine block or the peer-module window, which takes an entry (R192). -/
def Bogie.asksOnce (b : Bogie) (ctx va : Nat) : Bool :=
  match region va with
  | .glob => b.tlb.any fun e => e.covers ctx va && e.cls == 4
  | .peerWindow | .engine _ _ _ => true
  | _ => false

/-- The messages and commands that a word sends beside the bytes it stores (R137, R192, R266). -/
def Bogie.messagesOf (bo : Bogie) (i : Instr) (f : Frame) : Nat :=
  match i with
  | .ld _ b d q => if bo.asksOnce f.ctx (dispAddr f.cpu b d (2 ^ (q.toNat % 4))) then 1 else 0
  | .stl _ _ _ _ | .lda _ _ _ _ | .amo _ _ _ _ _ _ | .amop _ _ _ _ _ | .amoa _ _ _ _ _ _ | .cas _ _ _ _ _ _ | .fadd _ _ _ _ _
  | .faddPosted _ _ _ _ | .stfFlag _ _ _ _ | .stfTask _ _ _ _ | .release _ _ _ _ | .releaseDie _ _ _ _ _ | .releasePeer _ _ _ _
  | .endCont _ _ | .gdec _ _ | .barriveH _ | .cring _ _ | .copy _ _ | .copyc _ _ | .copym _ _ | .mxldb _ _ _ _ _ | .mxz _ _ | .mxlda _ _ _ _
  | .mma _ _ _ _ _ _ | .mxst _ _ _ _ _ _ _ | .scmc _ _ _ _ => 1
  | .endTask _ v_s n => (if v_s = 1 then 1 else 0) + (if n = 1 ∧ bit f.d0 33 then 1 else 0)
  | .mxpass _ n => 1 + (if n = 1 ∧ bit f.d0 33 then 1 else 0)
  | _ => 0

/-- The barrier that a word changes in the core (R210). -/
def barrierOf (i : Instr) : Option Nat :=
  match i with
  | .binit _ _ k | .bexpect _ k | .barrive k | .bpoison _ k => some k.toNat
  | _ => none

/-- The bytes of the scratchpad that a word writes itself: its stores through window 0 and its barrier. -/
def ownSpans (i : Instr) (f : Frame) : List (Nat × Nat) :=
  ((storeSpans i f).filterMap fun e => match region e.1 with
    | .own 0 o => some (f.sbase + o, e.2)
    | _ => none) ++ ((barrierOf i).map fun k => (f.sbase + f.hdr.scratch * 256 + 16 * k, 16)).toList

/-- The 64-byte blocks of its stores that a word sends out of the bogie. -/
def sentBlocks (i : Instr) (f : Frame) : List Nat :=
  ((storeSpans i f).flatMap fun e => match region e.1 with
    | .own _ _ => []
    | _ => (List.range ((e.1 + e.2 - 1) / 64 - e.1 / 64 + 1)).map (e.1 / 64 + ·)).eraseDups

/-- The outbox or the journal lacks the entries that a word needs (R135). -/
def Bogie.lacksRoom (b : Bogie) (i : Instr) (f : Frame) : Bool :=
  decide (256 < b.outbox.length + (sentBlocks i f).length + b.messagesOf i f) ||
    decide (256 < b.journal.length + ((ownSpans i f).flatMap fun e => b.journalNeed e.1 e.2).eraseDups.length)

/-- A fault of a word that lacks room gives way to the forced commit (R142); a word that is no instruction needs no room, and no boundary
falls inside a REP, which found room for all its passes (R262). -/
def Bogie.orCommit (b : Bogie) (i : Instr) (f : Frame) (st : Stop) : Stop :=
  match st with
  | .fault code _ _ => if code ≠ 0x01 ∧ b.rep.isNone ∧ b.lacksRoom i f then .commit else st
  | _ => st

end Sys2Proof.Machine
end

