-- ==== Sys2Proof/Machine/Exec.lean ====
section
/-! DEFINITION. How a word is run: on the task of a bogie, after the checks of its prefix and register fields, or on an engine
hart (R234). -/

namespace Sys2Proof.Machine

/-- What a word does to its bogie: the checks of ranks 2 to 4 of R60, then its own effect or stop. A word that lacks room for its
entries forces a commit, and meets its fault in the next activation (R142). -/
def Bogie.run (b : Bogie) (i : Instr) (g : Nat) (f : Frame) (body : Except Stop BRes) : BRes :=
  match gate i f.cpu.pfx f.hdr (b.wordNow i) with
  | some st => b.stop g f (b.orCommit i f st)
  | none =>
    match body with
    | .ok r => r
    | .error st => b.stop g f (b.orCommit i f st)

/-- The words that engine mode accepts (R234): majors 0x00 to 0x10, 0x14 to 0x1B, 0x33, 0x34 and the hints. -/
def engineMode (i : Instr) : Bool :=
  match encode i with
  | some w =>
    let m := w.toNat / 2 ^ 26
    decide (m ≤ 0x10) || (decide (0x14 ≤ m) && decide (m ≤ 0x1B)) || m == 0x33 || m == 0x34 || m == 0x3F
  | none => false

/-- A hart that faults, at an address where there is one, stops, and F4 is to complete its work and restart it (R234). -/
def State.hartFault (s : State) (d h code : Nat) (va : Nat := 2 ^ 64) : State :=
  (s.setHart d h { s.hart d h with state := 2, stopped := some code }).add
    [{ ev := .engineHartFault, arg := { d := d, h := h, n := code, va := va } }]

/-- A word on an engine hart: ILLEGAL_INSTRUCTION unless engine mode accepts it and its prefix is legal. A stop that is
no fault leaves the hart where it is, to try the word again. -/
def State.hartWord (s : State) (i : Instr) (d h : Nat) (body : Except Stop State) : State :=
  if !engineMode i || badPrefix i (s.hart d h).cpu.pfx then s.hartFault d h 0x01
  else
    match body with
    | .ok s' => s'
    | .error (.fault code va _) => s.hartFault d h code va
    | .error _ => s

/-- A word that acts on a task of a bogie alone; on an engine hart it is ILLEGAL_INSTRUCTION (R65). -/
def taskWord (i : Instr) (body : State → Nat → Bogie → Frame → Except Stop BRes) (s : State) :
    Host.Outcome State Fault Refusal :=
  match s.cur with
  | .bogie g =>
    match (s.bogie g).stack with
    | [] => .fault .noTask
    | f :: _ => .next (s.afterWord g ((s.bogie g).run i g f (body s g (s.bogie g) f)))
  | .hart d h => .next (s.hartFault d h 0x01)

/-- A word that acts on a task, or, by its own rule, on an engine hart. -/
def agentWord (i : Instr) (body : State → Nat → Bogie → Frame → Except Stop BRes)
    (hbody : State → Nat → Nat → Except Stop State) (s : State) : Host.Outcome State Fault Refusal :=
  match s.cur with
  | .bogie g =>
    match (s.bogie g).stack with
    | [] => .fault .noTask
    | f :: _ => .next (s.afterWord g ((s.bogie g).run i g f (body s g (s.bogie g) f)))
  | .hart d h => .next (s.hartWord i d h (hbody s d h))

/-- The registers and PC after a word that completes: the prefix ends (R68). -/
def Cpu.done (c : Cpu) : Cpu := { c with pfx := {} }

/-- A word that acts on the scalar registers and the PC alone, in the same way on a task and on an engine hart. -/
def scalarWord (i : Instr) (f : Cpu → Except Stop Cpu) (s : State) : Host.Outcome State Fault Refusal :=
  agentWord i
    (fun _ _ b fr => (f fr.cpu).map fun c => { b := b.setTop { fr with cpu := c.done, instret := fr.instret + 1 } })
    (fun s d h => (f (s.hart d h).cpu).map fun c => s.setHart d h { s.hart d h with cpu := c.done }) s

/-- The registers with the PC at the next word. -/
def Cpu.next (c : Cpu) : Cpu := { c with pc := c.pc + 4 }

end Sys2Proof.Machine
end

