-- ==== Sys2Proof/Machine/Float.lean ====
section
/-! DEFINITION. Numbers and arithmetic (R75-R94): floating-point values as exact dyadic numbers, rounded once. -/

namespace Sys2Proof.Machine

/-- A floating-point format by its exponent and fraction widths (R76). -/
structure Fmt where
  eb : Nat
  mb : Nat
  deriving DecidableEq, Repr

/-- FP32, BF16 and FP16 (R76). -/
def fp32 : Fmt := ⟨8, 23⟩
/-- See fp32. -/
def bf16 : Fmt := ⟨8, 7⟩
/-- See fp32. -/
def fp16 : Fmt := ⟨5, 10⟩

/-- The width of a format in bits. -/
def Fmt.width (f : Fmt) : Nat := 1 + f.eb + f.mb

/-- The exponent bias. -/
def Fmt.bias (f : Fmt) : Int := 2 ^ (f.eb - 1) - 1

/-- The encoding of +infinity (R77). -/
def Fmt.inf (f : Fmt) : Nat := (2 ^ f.eb - 1) * 2 ^ f.mb

/-- The canonical NaN (R77). -/
def Fmt.nan (f : Fmt) : Nat := f.inf + 2 ^ (f.mb - 1)

/-- The sign bit at its place. -/
def Fmt.sign (f : Fmt) (s : Bool) : Nat := if s then 2 ^ (f.eb + f.mb) else 0

/-- A floating-point value: a NaN, an infinity by its sign, or sign × m × 2^e. -/
inductive FV where
  | nan
  | inf (s : Bool)
  | fin (s : Bool) (m : Nat) (e : Int)
  deriving DecidableEq, Repr

/-- The value of an encoding (R76, R77). -/
def Fmt.unpack (f : Fmt) (n : Nat) : FV :=
  let s := n / 2 ^ (f.eb + f.mb) % 2 == 1
  let x := n / 2 ^ f.mb % 2 ^ f.eb
  let m := n % 2 ^ f.mb
  if x = 2 ^ f.eb - 1 then (if m = 0 then .inf s else .nan)
  else if x = 0 then .fin s m (1 - f.bias - f.mb)
  else .fin s (2 ^ f.mb + m) (x - f.bias - f.mb)

/-- The rounding directions (R84). -/
inductive Dir where
  | rne
  | rtz
  | rdn
  | rup
  deriving DecidableEq, Repr

/-- The direction of a MOD-controlled step whose default is RNE (R70, R85). -/
def dirOf (round : BitVec 3) : Dir :=
  match round.toNat with
  | 2 => .rtz
  | 3 => .rdn
  | 4 => .rup
  | _ => .rne

/-- Whether a number of sign s whose part below the kept digit is rem of 2 × half is rounded away from zero (R84). -/
def roundsAway (d : Dir) (s : Bool) (odd : Bool) (rem half : Nat) : Bool :=
  match d with
  | .rne => decide (half < rem) || (decide (rem = half) && odd)
  | .rtz => false
  | .rdn => s && decide (0 < rem)
  | .rup => !s && decide (0 < rem)

/-- m × 2^e as a multiple of 2^q, rounded once (R84, R86). -/
def roundAt (d : Dir) (s : Bool) (m : Nat) (e q : Int) : Nat :=
  if q ≤ e then m * 2 ^ (e - q).toNat
  else
    let sh := (q - e).toNat
    let n := m / 2 ^ sh
    if roundsAway d s (n % 2 == 1) (m % 2 ^ sh) (2 ^ (sh - 1)) then n + 1 else n

/-- What an overflow delivers (R84, R87). -/
def Fmt.overflow (f : Fmt) (d : Dir) (sat s : Bool) : Nat :=
  let toInf := match d with
    | .rne => true
    | .rtz => false
    | .rdn => s
    | .rup => !s
  f.sign s + (if toInf && !sat then f.inf else f.inf - 1)

/-- The encoding of sign × m × 2^e rounded once in direction d; sat turns an overflow to the largest finite (R84-R87). -/
def Fmt.pack (f : Fmt) (d : Dir) (sat s : Bool) (m : Nat) (e : Int) : Nat :=
  if m = 0 then f.sign s
  else
    let q := max (e + Nat.log2 m) (1 - f.bias) - f.mb
    let n := (q + f.mb + f.bias - 1).toNat * 2 ^ f.mb + roundAt d s m e q
    if f.inf ≤ n then f.overflow d sat s else f.sign s + n

/-- The encoding of a value rounded once (R77, R84-R87). -/
def Fmt.round (f : Fmt) (d : Dir) (sat : Bool) (v : FV) : Nat :=
  match v with
  | .nan => f.nan
  | .inf s => f.sign s + f.inf
  | .fin s m e => f.pack d sat s m e

/-- sign × m × 2^e as a whole multiple of 2^q, q at most e. -/
def fixAt (s : Bool) (m : Nat) (e q : Int) : Int :=
  let n : Int := (m * 2 ^ (e - q).toNat : Nat)
  if s then -n else n

/-- The value k × 2^q. -/
def ofFix (k : Int) (q : Int) : FV := .fin (decide (k < 0)) k.natAbs q

/-- −v. -/
def FV.neg (v : FV) : FV :=
  match v with
  | .nan => .nan
  | .inf s => .inf (!s)
  | .fin s m e => .fin (!s) m e

/-- a + b exactly; an exact zero sum of opposite signs is +0, and −0 under rdn (R84). -/
def FV.add (d : Dir) (a b : FV) : FV :=
  match a, b with
  | .nan, _ => .nan
  | _, .nan => .nan
  | .inf s, .inf t => if s == t then .inf s else .nan
  | .inf s, .fin _ _ _ => .inf s
  | .fin _ _ _, .inf t => .inf t
  | .fin s m e, .fin t n k =>
    let q := min e k
    let r := fixAt s m e q + fixAt t n k q
    if r = 0 then .fin (if m = 0 ∧ n = 0 ∧ s = t then s else decide (d = .rdn)) 0 q else ofFix r q

/-- a × b exactly. -/
def FV.mul (a b : FV) : FV :=
  match a, b with
  | .nan, _ => .nan
  | _, .nan => .nan
  | .inf s, .inf t => .inf (s != t)
  | .inf s, .fin t n _ => if n = 0 then .nan else .inf (s != t)
  | .fin s m _, .inf t => if m = 0 then .nan else .inf (s != t)
  | .fin s m e, .fin t n k => .fin (s != t) (m * n) (e + k)

/-- The digit that stands for everything below a quotient or root cut off with remainder: a 1 beneath its last digit, or
nothing where it is exact. -/
def sticky (m : Nat) (e : Int) (exact : Bool) : Nat × Int := if exact then (m, e) else (2 * m + 1, e - 1)

/-- a ÷ b, cut off 80 bits below its leading digit and marked so that one rounding gives the exact result's (R88, R249). -/
def FV.div (a b : FV) : FV :=
  match a, b with
  | .nan, _ => .nan
  | _, .nan => .nan
  | .inf _, .inf _ => .nan
  | .inf s, .fin t _ _ => .inf (s != t)
  | .fin s _ _, .inf t => .fin (s != t) 0 0
  | .fin s m e, .fin t n k =>
    if n = 0 then (if m = 0 then .nan else .inf (s != t))
    else
      let sh := 80 + Nat.log2 n
      let w := m * 2 ^ sh
      let r := sticky (w / n) (e - k - sh) (w % n == 0)
      .fin (s != t) r.1 r.2

/-- The whole square root of n, found digit by digit from bit k − 1 downwards. -/
def isqrt (n k r : Nat) : Nat :=
  match k with
  | 0 => r
  | j + 1 => if (r + 2 ^ j) * (r + 2 ^ j) ≤ n then isqrt n j (r + 2 ^ j) else isqrt n j r

/-- √a, cut off and marked as a quotient is (R88, R251). -/
def FV.sqrt (a : FV) : FV :=
  match a with
  | .nan => .nan
  | .inf s => if s then .nan else .inf false
  | .fin s m e =>
    if m = 0 then .fin s 0 0
    else if s then .nan
    else
      let up : Nat := if e % 2 = 0 then 80 else 81
      let w := m * 2 ^ up
      let r := isqrt w ((Nat.log2 w) / 2 + 1) 0
      let x := sticky r ((e - up) / 2) (r * r == w)
      .fin false x.1 x.2

/-- a < b for ordered values; −0 equals +0. -/
def FV.lt (a b : FV) : Bool :=
  match a, b with
  | .nan, _ => false
  | _, .nan => false
  | .inf s, .inf t => s && !t
  | .inf s, .fin _ _ _ => s
  | .fin _ _ _, .inf t => !t
  | .fin s m e, .fin t n k => decide (fixAt s m e (min e k) < fixAt t n k (min e k))

/-- Whether the pair is unordered (R252). -/
def FV.unordered (a b : FV) : Bool := a == .nan || b == .nan

/-- The sign of a value; false for a NaN. -/
def FV.sign (a : FV) : Bool :=
  match a with
  | .nan => false
  | .inf s => s
  | .fin s _ _ => s

/-- Minimum or maximum of R88 in a format: a NaN operand gives the canonical NaN, and −0 is less than +0. -/
def Fmt.minmax (f : Fmt) (max : Bool) (x y : Nat) : Nat :=
  let a := f.unpack x
  let b := f.unpack y
  if a.unordered b then f.nan
  else
    let less := a.lt b || (!b.lt a && a.sign && !b.sign)
    if less != max then x else y

/-- A value rounded to a whole number in direction d; none for a NaN, and an infinity by its sign. -/
def FV.toInt (d : Dir) (v : FV) : Option (Except Bool Int) :=
  match v with
  | .nan => none
  | .inf s => some (.error s)
  | .fin s m e =>
    let n : Int := (roundAt d s m e 0 : Nat)
    some (.ok (if s then -n else n))

/-- v clamped to lo..hi. -/
def clampInt (lo hi v : Int) : Int := if v < lo then lo else if hi < v then hi else v

/-- The least and the greatest value of an integer type of width w (R79). -/
def intMin (u : Bool) (w : Nat) : Int := if u then 0 else -(2 ^ (w - 1))
/-- See intMin. -/
def intMax (u : Bool) (w : Nat) : Int := if u then 2 ^ w - 1 else 2 ^ (w - 1) - 1

/-- Float to integer of width w: always saturates, and a NaN gives 0 (R90). -/
def FV.toIntSat (d : Dir) (u : Bool) (w : Nat) (v : FV) : Int :=
  match v.toInt d with
  | none => 0
  | some (.error s) => if s then intMin u w else intMax u w
  | some (.ok n) => clampInt (intMin u w) (intMax u w) n

/-- An integer as a value; zero is +0. -/
def FV.ofInt (n : Int) : FV := ofFix n 0

/-! ### Approximations (R89) -/

/-- A rounded FP32 result off by err encodings, kept within `bound` units in the last place of the rounded result: beyond
a power of two a step between encodings is half a unit downwards, and two units upwards. The result stays finite and keeps its sign. -/
def nudge (bound : Nat) (err : Int) (n : Nat) : Nat :=
  let s : Nat := n / 2 ^ 31 * 2 ^ 31
  let m : Nat := n % 2 ^ 31
  let below := m % 2 ^ 23
  let above := 2 ^ 23 - below
  let down : Nat := if bound ≤ below ∨ m < 2 ^ 24 then bound else below + 2 * (bound - below)
  let up : Nat := if bound ≤ above ∨ m < 2 ^ 23 then bound else above + (bound - above) / 2
  let k := clampInt (-(down : Int)) up err
  s + (clampInt 0 ((fp32.inf - 1 : Nat) : Int) (m + k)).toNat

/-- 2^(2^−i) as a multiple of 2^−128, i = 1 first, n of them after c. -/
def rootsOfTwo (n c : Nat) : List Nat :=
  match n with
  | 0 => []
  | k + 1 =>
    let r := isqrt (c * 2 ^ 128) 130 0
    r :: rootsOfTwo k r

/-- The product of those roots whose digit of f, the highest first, is 1. -/
def expProduct (roots : List Nat) (f i acc : Nat) : Nat :=
  match roots with
  | [] => acc
  | r :: rest =>
    let acc' := if f / 2 ^ (i - 1) % 2 = 1 then acc * r / 2 ^ 128 else acc
    expProduct rest f (i - 1) acc'

/-- 2^v for a finite v, as a value marked below its 128th digit; v below −200 or at 200 and above is cut there. -/
def exp2Exact (s : Bool) (m : Nat) (e : Int) : FV :=
  let k := clampInt (-(200 * 2 ^ 60)) (200 * 2 ^ 60) (if 0 ≤ e + 60 then fixAt s m (e + 60) 0
    else (if s then -((m / 2 ^ (-(e + 60)).toNat : Nat) : Int) - 1 else ((m / 2 ^ (-(e + 60)).toNat : Nat) : Int)))
  let n := k / 2 ^ 60
  let f := (k % 2 ^ 60).toNat
  let p := expProduct (rootsOfTwo 60 (2 * 2 ^ 128)) f 60 (2 ^ 128)
  .fin false (2 * p + 1) (n - 129)

/-- The binary digits of log2 of y × 2^−200, y in [1, 2), n of them after acc. -/
def logDigits (n y acc : Nat) : Nat :=
  match n with
  | 0 => acc
  | k + 1 =>
    let z := y * y / 2 ^ 200
    if 2 ^ 201 ≤ z then logDigits k (z / 2) (2 * acc + 1) else logDigits k z (2 * acc)

/-- log2 of m × 2^e, m > 0, cut off 80 digits below the point and marked beneath. -/
def log2Exact (m : Nat) (e : Int) : FV :=
  let l := Nat.log2 m
  let y := m * 2 ^ 200 / 2 ^ l
  let f := logDigits 80 y 0
  let k : Int := (e + l) * 2 ^ 80 + f
  ofFix (2 * k + 1) (-81)

/-- VRCP of an FP32 value (R89): the encoding, and whether it is an overflow from a finite operand. -/
def rcp32 (n : Nat) : Nat × Bool :=
  let v := fp32.unpack n
  let r := fp32.round .rne false (FV.div (.fin false 1 0) v)
  match v with
  | .fin _ m _ =>
    if m = 0 then (r, false)
    else if m = 2 ^ Nat.log2 m then (r, r % 2 ^ 31 == fp32.inf)
    else if r % 2 ^ 31 = fp32.inf then (r, true)
    else (nudge 1 (Config.approxErr 2 (BitVec.ofNat 32 n)) r, false)
  | _ => (r, false)

/-- VRSQ (R89). -/
def rsq32 (n : Nat) : Nat × Bool :=
  match fp32.unpack n with
  | .nan => (fp32.nan, false)
  | .inf s => (if s then fp32.nan else 0, false)
  | .fin s m e =>
    if m = 0 then (fp32.sign s + fp32.inf, false)
    else if s then (fp32.nan, false)
    else
      let r := fp32.round .rne false (FV.div (.fin false 1 0) (FV.sqrt (.fin s m e)))
      if m = 2 ^ Nat.log2 m ∧ (e + Nat.log2 m) % 2 = 0 then (r, false)
      else (nudge 1 (Config.approxErr 3 (BitVec.ofNat 32 n)) r, false)

/-- VEXP2 (R89). -/
def exp32 (n : Nat) : Nat × Bool :=
  match fp32.unpack n with
  | .nan => (fp32.nan, false)
  | .inf s => (if s then 0 else fp32.inf, false)
  | .fin s m e =>
    if m = 0 then (fp32.round .rne false (.fin false 1 0), false)
    else
      match (FV.fin s m e).toInt .rtz with
      | some (.ok k) =>
        if FV.fin s m e |>.lt (FV.ofInt 128) then
          if !(FV.lt (FV.ofInt k) (.fin s m e)) && !(FV.lt (.fin s m e) (FV.ofInt k)) then
            (let r := fp32.round .rne false (.fin false 1 k)
             if -149 ≤ k then r else nudge 2 (Config.approxErr 0 (BitVec.ofNat 32 n)) r, false)
          else (nudge 2 (Config.approxErr 0 (BitVec.ofNat 32 n)) (fp32.round .rne false (exp2Exact s m e)), false)
        else (fp32.inf, true)
      | _ => (fp32.nan, false)

/-- VLOG2 (R89). -/
def log32 (n : Nat) : Nat × Bool :=
  match fp32.unpack n with
  | .nan => (fp32.nan, false)
  | .inf s => (if s then fp32.nan else fp32.inf, false)
  | .fin s m e =>
    if m = 0 then (fp32.sign true + fp32.inf, false)
    else if s then (fp32.nan, false)
    else if m = 2 ^ Nat.log2 m then (fp32.round .rne false (FV.ofInt (e + Nat.log2 m)), false)
    else (nudge 2 (Config.approxErr 1 (BitVec.ofNat 32 n)) (fp32.round .rne false (log2Exact m e)), false)

/-- An approximation on an element of a format: on the widened element, then narrowed in direction d; sat turns an
overflow from a finite operand, of the approximation or of the narrowing, to the largest finite (R87, R89). -/
def approx (op : Nat → Nat × Bool) (f : Fmt) (d : Dir) (sat : Bool) (x : Nat) : Nat :=
  let w := fp32.round .rne false (f.unpack x)
  let r := op w
  if r.2 && sat then (f.sign (r.1 / 2 ^ 31 % 2 == 1)) + (f.inf - 1)
  else f.round d sat (fp32.unpack r.1)

/-! ### Sums in the matrix array (R91-R93) -/

/-- Adds to a sum kept as a multiple of 2^−700. -/
def fix700 (s : Bool) (m : Nat) (e : Int) : Int := fixAt s m e (-700)

/-- What a chunk's products have summed to so far: a NaN seen, the infinities seen, the exact finite part and whether every
product was −0. -/
structure ChunkSum where
  nan    : Bool := false
  pinf   : Bool := false
  ninf   : Bool := false
  sum    : Int := 0
  allNeg0 : Bool := true

/-- One more product. -/
def ChunkSum.add (c : ChunkSum) (p : FV) : ChunkSum :=
  match p with
  | .nan => { c with nan := true }
  | .inf s => if s then { c with ninf := true } else { c with pinf := true }
  | .fin s m e => { c with sum := c.sum + fix700 s m e, allNeg0 := c.allNeg0 && s && decide (m = 0) }

/-- The exact sum of the products (R91). -/
def ChunkSum.value (c : ChunkSum) : FV :=
  if c.nan || (c.pinf && c.ninf) then .nan
  else if c.pinf then .inf false
  else if c.ninf then .inf true
  else if c.sum = 0 then .fin c.allNeg0 0 0
  else ofFix c.sum (-700)

/-- The exact sum of products. -/
def sumProducts (l : List (FV × FV)) : FV := (l.foldl (fun (c : ChunkSum) p => c.add (p.1.mul p.2)) {}).value

/-- acc + t rounded to FP32 (R91, R92). -/
def accAdd (acc : BitVec 32) (t : Nat) : BitVec 32 :=
  BitVec.ofNat 32 (fp32.round .rne false (FV.add .rne (fp32.unpack acc.toNat) (fp32.unpack t)))

/-- One chunk of a BF16 sum (R91). -/
def chunkBf16 (acc : BitVec 32) (l : List (FV × FV)) : BitVec 32 := accAdd acc (fp32.round .rne false (sumProducts l))

/-- One group of a grouped sum (R92); scale is the FP16 encoding. -/
def chunkGrouped (acc : BitVec 32) (scale : Nat) (l : List (FV × FV)) : BitVec 32 :=
  accAdd acc (fp32.round .rne false (FV.mul (sumProducts l) (fp16.unpack scale)))

/-- One chunk of an INT8 sum: the new element, and whether it was clamped (R93). -/
def chunkInt8 (acc : BitVec 32) (l : List (Int × Int)) : BitVec 32 × Bool :=
  let t := acc.toInt + l.foldl (fun c p => c + p.1 * p.2) 0
  let v := clampInt (intMin false 32) (intMax false 32) t
  (BitVec.ofInt 32 v, v != t)

/-- The floating-point atomic addition (R94). -/
def Fmt.atomicAdd (f : Fmt) (v x : Nat) : Nat := f.round .rne false (FV.add .rne (f.unpack v) (f.unpack x))

/-- The format that a size code of FADD, or ty of the float class, names (R202, R239). -/
def fmtOf (t : Nat) : Fmt :=
  match t with
  | 0 => fp32
  | 1 => bf16
  | _ => fp16

/-! ### Grouped codes (R81-R83) -/

/-- The FP16 scale of a parameter record (R82). -/
def recScale (r : BitVec 32) : Nat := r.toNat % 2 ^ 16

/-- The zero point of a parameter record (R82). -/
def recZero (r : BitVec 32) : Nat := r.toNat / 2 ^ 16 % 256

/-- A code decoded to BF16 (R83). -/
def decodeBf16 (r : BitVec 32) (q : Nat) : Nat :=
  bf16.round .rne false (FV.mul (fp16.unpack (recScale r)) (FV.ofInt ((q : Int) - recZero r)))

/-- A code decoded to INT8 (R83). -/
def decodeInt8 (r : BitVec 32) (q : Nat) : Nat :=
  (BitVec.ofInt 8 (clampInt (-128) 127 ((q : Int) - recZero r))).toNat

end Sys2Proof.Machine
end

