-- ==== Sys2Proof/Machine/Access.lean ====
section
/-! DEFINITION. How a task reaches memory: the address map (R167), the order of the faults of an access (R191), translation
at the first-level TLB (R346, R348), the alias windows (R168, R169), peer scratchpads (R170), the outbox (R137), the L1
(R172) and the journal (R138). -/

namespace Sys2Proof.Machine

/-! ### Translation -/

/-- The first-level translation of a global address: a miss asks the translation unit; an address whose walk has just
found no mapping is unmapped (R345, R346). -/
def Bogie.translate (b : Bogie) (ctx va : Nat) : Except Stop (Option TlbEntry) :=
  match b.tlb.find? (fun e => e.covers ctx va) with
  | some e => .ok (some e)
  | none => if b.unmapped = some (va / 65536) then .ok none else .error (.miss va)

/-- The home die of an address by its TLB entry (R174). -/
def TlbEntry.home (e : TlbEntry) (va : Nat) : Nat := if e.cls = 1 then va / 8192 % 8 else e.place

/-- The classes whose lines the L1 and the RDC may hold (R175): all but memory-side and device. -/
def cachedClass (cls : Nat) : Bool := cls != 2 && cls != 4

/-! ### The order of the faults of an access (R191) -/

/-- What an access is, for its checks: ordinary and vector loads and stores, acquire loads, release stores, notifying
stores, atomics. -/
inductive AccKind where
  | load
  | store
  | lda
  | stl
  | stf
  | atomic
  | vload
  | vstore
  deriving DecidableEq, Repr

/-- The access writes. -/
def AccKind.writes (k : AccKind) : Bool :=
  match k with
  | .load | .lda | .vload => false
  | _ => true

/-- A vector access. -/
def AccKind.vector (k : AccKind) : Bool := k == .vload || k == .vstore

/-- The entry of a context's peer table for the module that an address of the peer-module window names (R403, R404); the
module's own entry reads zero. -/
def peerEntry (s : State) (ctx va : Nat) : BitVec 32 :=
  let m := va / 2 ^ 46 % 1024
  if m = s.module.toNat then 0 else Tab.get s.peers 0 (ctx * 1024 + m)

/-- Step 1, the range (R167, R169, R170, R191, R206, R246, R404), for bogie g and context ctx. -/
def rangeCheck (s : State) (g ctx : Nat) (k : AccKind) (va : Nat) : Except Stop Unit :=
  match region va with
  | .glob => .ok ()
  | .nothing => .error (.fault 0x09 va 0)
  | .peerWindow => if k.vector || !bit (peerEntry s ctx va) 0 then .error (.fault 0x09 va 0) else .ok ()
  | .engine _ _ _ => if k == .stf then .error (.fault 0x09 va 0) else .ok ()
  | .peer c _ => if c % 8 = g % 8 || k == .stf then .error (.fault 0x09 va 0) else .ok ()
  | .own w _ =>
    if k.writes then
      if w ≠ 0 then .error (.fault 0x06 va 0)
      else if k == .store || k == .vstore then .ok () else .error (.fault 0x09 va 0)
    else if 12 ≤ w ∨ k = .lda then .error (.fault 0x09 va 0)
    else .ok ()

/-- Step 2, alignment to n bytes, and through a window the fit of R169. -/
def alignCheck (va n : Nat) : Except Stop Unit :=
  if va % n ≠ 0 then .error (.fault 0x04 va 0)
  else
    match region va with
    | .own w o => if 0x10000 < o + n ∨ o % windowElem w ≠ 0 then .error (.fault 0x04 va 0) else .ok ()
    | _ => .ok ()

/-- The first raw byte at or beyond bound behind decoded bytes o to o + n - 1 of a window, if there is one. -/
def rawBeyond (w o n bound : Nat) : Option Nat :=
  let last := rawOf w ((o + n - 1) / windowElem w)
  if last.1 + last.2 ≤ bound then none else some (max bound (rawOf w (o / windowElem w)).1)

/-- Step 3, SCRATCH_BOUND (R115, R169, R170). -/
def boundCheck (h : Header) (va n : Nat) : Except Stop Unit :=
  match region va with
  | .own w o =>
    match rawBeyond w o n (h.scratch * 256) with
    | some r => .error (.fault 0x05 va r)
    | none => .ok ()
  | .peer _ o => if 49152 < o + n then .error (.fault 0x05 va (max o 49152)) else .ok ()
  | _ => .ok ()

/-- Steps 4 and 5 for a global address: translation and WRITE_PROT (R348, R175). -/
def pageCheck (b : Bogie) (ctx : Nat) (k : AccKind) (va : Nat) : Except Stop TlbEntry := do
  match ← b.translate ctx va with
  | none => .error (.fault 0x09 va 0)
  | some e =>
    if !e.rd then .error (.fault 0x09 va 0)
    else if e.cls = 4 ∧ (k.vector ∨ k = .stf) then .error (.fault 0x09 va 0)
    else if k.writes && (!e.w || e.cls == 5) then .error (.fault 0x07 va 0)
    else .ok e

/-- The way an access takes once it passed its checks. -/
inductive Route where
  | mem (e : TlbEntry)
  | device
  | peerWindow
  | own (w o : Nat)
  | peer (core o : Nat)
  deriving DecidableEq, Repr

/-- Steps 4 and 5 for the peer-module window: the permissions of the peer entry (R404). -/
def peerCheck (s : State) (ctx : Nat) (k : AccKind) (va : Nat) : Except Stop Unit :=
  let e := peerEntry s ctx va
  if k.writes then (if bit e 2 then .ok () else .error (.fault 0x07 va 0))
  else if bit e 1 then .ok () else .error (.fault 0x09 va 0)

/-! ### What committed matrix commands hold of the scratchpad (R269) -/

/-- The bits of a code of a B type (R278). -/
def codeBits (ty : Nat) : Nat := if ty = 0 then 16 else if 4 ≤ ty ∧ ty ≤ 6 then 4 else 8

/-- The bytes of a column of K codes (R278). -/
def columnBytes (ty k : Nat) : Nat := k * codeBits ty / 8

/-- The bytes from one column to the next of an MXLDB (R279). -/
def ldbPitch (ty k : Nat) (ctl : Word) : Nat := if bits ctl 63 32 = 0 then columnBytes ty k else bits ctl 63 32

/-- The bytes from one row to the next of an MXLDA (R280). -/
def ldaPitch (ctl : Word) : Nat := if bits ctl 63 48 = 0 then 512 else bits ctl 63 48 * 16

/-- The bytes of n elements of an out type (R282, R284). -/
def outBytes (out n : Nat) : Nat :=
  match out with
  | 0 | 4 => 4 * n
  | 1 | 2 => 2 * n
  | 5 => n / 2
  | _ => n

/-- The columns that an MXST stores (R282). -/
def stWidth (ctl : Word) : Nat := 16 * (bits ctl 40 38 + 1)

/-- The bytes from one row to the next of an MXST (R282). -/
def stPitch (out : Nat) (ctl : Word) : Nat := if bits ctl 63 48 = 0 then outBytes out (stWidth ctl) else bits ctl 63 48 * 16

/-- The raw bytes, from the first to beyond the last, behind decoded bytes o to o + n - 1 of a window. -/
def rawSpan (w o n : Nat) : Nat × Nat :=
  let last := rawOf w ((o + n - 1) / windowElem w)
  ((rawOf w (o / windowElem w)).1, last.1 + last.2)

/-- The raw bytes behind count rows of n bytes at a pitch, where they lie in the own scratchpad. -/
def rowSpan (va n pitch count : Nat) : List (Nat × Nat) :=
  match region va with
  | .own w o => [rawSpan w o ((count - 1) * pitch + n)]
  | _ => []

/-- The ranges of its frame that a command reads when the array executes it. -/
def mxReads (o : MxOp) : List (Nat × Nat) :=
  match o with
  | .ldb _ ty k src ctl => rowSpan src.toNat (columnBytes ty k) (ldbPitch ty k ctl) (bits ctl 22 16 + 1)
  | .lda _ src ctl _ => rowSpan src.toNat 512 (ldaPitch ctl) (bits ctl 47 41 + 1)
  | .mma _ src _ stride k aint _ => rowSpan src.toNat (if aint then k else 2 * k) stride 128
  | .st _ _ ctl _ _ _ _ _ => if bit ctl 37 then [(bits ctl 36 26 * 64, bits ctl 36 26 * 64 + 516)] else []
  | _ => []

/-- The ranges of its frame that a command writes. -/
def mxWrites (o : MxOp) : List (Nat × Nat) :=
  match o with
  | .st _ dst ctl _ out _ _ _ => rowSpan dst.toNat (outBytes out (stWidth ctl)) (stPitch out ctl) (bits ctl 47 41 + 1)
  | _ => []

/-- The matrix commands of a frame that are committed and that the array has not executed. -/
def mxPending (s : State) (g : Nat) (b : Bogie) (uid : Nat) : List MxCmd :=
  let x := s.coach (coachOf g)
  ((b.transit.filterMap fun t => match t.op with
    | .matrix c => some c
    | _ => none) ++ x.fifos.flatMap (·.2) ++ x.shadow.map (·.2.cmd)).filter fun c => c.uid == uid

/-- Raw bytes lo to hi - 1 of a frame wait for a committed command: one that writes them, or, before a write, reads them. -/
def scratchBusy (s : State) (g : Nat) (b : Bogie) (f : Frame) (write : Bool) (lo hi : Nat) : Bool :=
  (mxPending s g b f.uid).any fun c =>
    (mxWrites c.op ++ (if write then mxReads c.op else [])).any fun r => decide (r.1 < hi) && decide (lo < r.2)

/-- The checks of R191 in their order; then bytes that a committed matrix command holds make the word wait (R269). -/
def checkAccess (s : State) (g : Nat) (b : Bogie) (f : Frame) (k : AccKind) (va n : Nat) : Except Stop Route := do
  rangeCheck s g f.ctx k va
  alignCheck va n
  boundCheck f.hdr va n
  match region va with
  | .own w o =>
    let r := rawSpan w o n
    if scratchBusy s g b f k.writes r.1 r.2 then .error (.wait va) else .ok (.own w o)
  | .peer c o => .ok (.peer c o)
  | .peerWindow =>
    peerCheck s f.ctx k va
    .ok .peerWindow
  | .engine _ _ _ => if k.vector then .error (.fault 0x09 va 0) else .ok .device
  | .nothing => .error (.fault 0x09 va 0)
  | .glob =>
    let e ← pageCheck b f.ctx k va
    .ok (if e.cls = 4 then .device else .mem e)

/-! ### Scratchpad -/

/-- POISON for a raw byte of the frame in a poisoned sector (R296, R298). -/
def scratchPoison (b : Bogie) (f : Frame) (va r n : Nat) : Except Stop Unit :=
  if (List.range n).any (fun i => b.spoison.contains ((f.sbase + r + i) / 32)) then .error (.fault 0x10 (va / 64 * 64) 0)
  else .ok ()

/-- Raw byte r of a frame's data. -/
def rawByte (b : Bogie) (f : Frame) (r : Nat) : Byte := Tab.get b.scratch 0 (f.sbase + r)

/-- The scale-file record of decoded element e of windows 1 to 9 (R169). -/
def windowRecord (b : Bogie) (base : BitVec 10) (w e : Nat) : BitVec 32 :=
  Tab.get b.scale 0 ((base.toNat + e / windowGroup w) % 1024)

/-- Decoded element e of window w (R169, R83, R90), as a number of windowElem w bytes. -/
def windowDecode (b : Bogie) (f : Frame) (base : BitVec 10) (w e : Nat) : Nat :=
  let raw := (rawByte b f (rawOf w e).1).toNat
  let nib := if e % 2 = 0 then raw % 16 else raw / 16
  if w = 0 then raw
  else if w ≤ 3 then decodeBf16 (windowRecord b base w e) nib
  else if w ≤ 6 then decodeBf16 (windowRecord b base w e) raw
  else if w ≤ 9 then decodeInt8 (windowRecord b base w e) nib
  else
    let h := raw + 256 * (rawByte b f (2 * e + 1)).toNat
    if w = 10 then bf16.round .rne false (fp16.unpack h) else fp32.round .rne false (bf16.unpack h)

/-- Decoded byte i of window w. -/
def windowByte (b : Bogie) (f : Frame) (base : BitVec 10) (w i : Nat) : Byte :=
  BitVec.ofNat 8 (windowDecode b f base w (i / windowElem w) / 256 ^ (i % windowElem w))

/-- Decoded bytes o to o + n - 1 of window w; poison behind any of them is POISON. -/
def windowRead (b : Bogie) (f : Frame) (va w o n : Nat) : Except Stop (List Byte) := do
  let first := (rawOf w (o / windowElem w)).1
  let last := rawOf w ((o + n - 1) / windowElem w)
  scratchPoison b f va first (last.1 + last.2 - first)
  .ok ((List.range n).map fun i => windowByte b f f.scaleA w (o + i))

/-- The bytes that copies brought are used once read (R189). -/
def Bogie.useFresh (b : Bogie) (lo n : Nat) : Bogie :=
  let hit := b.fresh.filter fun a => decide (lo ≤ a) && decide (a < lo + n)
  if hit.isEmpty then b
  else { b with pfUsed := b.pfUsed + BitVec.ofNat 64 hit.length,
                fresh := b.fresh.filter fun a => !(decide (lo ≤ a) && decide (a < lo + n)) }

/-- The use of the raw bytes behind a window read. -/
def Bogie.useWindow (b : Bogie) (f : Frame) (w o n : Nat) : Bogie :=
  let first := (rawOf w (o / windowElem w)).1
  let last := rawOf w ((o + n - 1) / windowElem w)
  b.useFresh (f.sbase + first) (last.1 + last.2 - first)

/-- The old contents of those sectors put into the journal. -/
def Bogie.journalise (b : Bogie) (a n : Nat) : Bogie :=
  { b with journal := b.journal ++ (b.journalNeed a n).map fun k => (k, Tab.range b.scratch 0 (32 * k) 32, b.spoison.contains k) }

/-- Bytes written to the scratchpad at physical offset a: a sector that is covered whole is poisoned no more (R296), and
bytes that are overwritten can no longer be used as a copy brought them (R189). -/
def Bogie.scratchWrite (b : Bogie) (a : Nat) (l : List Byte) : Bogie :=
  { b with
    scratch := Tab.setList b.scratch 0 a l
    spoison := b.spoison.filter fun k => !(decide (a ≤ 32 * k) && decide (32 * k + 32 ≤ a + l.length))
    wiping := b.wiping.filter fun w => !(decide (a ≤ 32 * w.at') && decide (32 * w.at' + 32 ≤ a + l.length))
    fresh := b.fresh.filter fun x => !(decide (a ≤ x) && decide (x < a + l.length)) }

/-- The task's own write to its scratchpad: journalled, or a forced commit where the journal lacks room (R135, R138). -/
def Bogie.ownWrite (b : Bogie) (a : Nat) (l : List Byte) : Except Stop Bogie :=
  if 256 < b.journal.length + (b.journalNeed a l.length).length then .error .commit
  else .ok ((b.journalise a l.length).scratchWrite a l)

/-! ### Outbox, L1 and the levels below -/

/-- The bytes that an entry's store covers. -/
def stored (o : Op) : Tab Byte :=
  match o with
  | .store bytes _ _ _ => bytes
  | _ => []

/-- The addresses that an operation names in memory, for the order of R193, R198 and R433. -/
def touches (o : Op) (va : Nat) : Bool :=
  match o with
  | .store bytes _ _ (some (.flag fa _)) | .store bytes _ _ (some (.version fa _ _)) =>
    (Tab.find bytes va).isSome || (decide (fa ≤ va) && decide (va < fa + 8))
  | .store bytes _ _ _ => (Tab.find bytes va).isSome
  | .notify _ _ (.flag fa _) => decide (fa ≤ va) && decide (va < fa + 8)
  | .atomic a n _ _ _ _ _ => decide (a ≤ va) && decide (va < a + n)
  | .load a n _ => decide (a ≤ va) && decide (va < a + n)
  | _ => false

/-- The byte of the newest outbox entry that covers the address (R137). -/
def outboxByte (l : List Op) (va : Nat) : Option Byte := l.reverse.findSome? fun o => Tab.find (stored o) va

/-- Outbox entries appended, or a forced commit where there is no room (R135, R137). -/
def Bogie.send (b : Bogie) (l : List Op) : Except Stop Bogie :=
  if 256 < b.outbox.length + l.length then .error .commit else .ok { b with outbox := b.outbox ++ l }

/-- The sector of an L1 that holds the address. -/
def findSector (l : List Sector) (ctx va : Nat) : Option Sector :=
  l.find? fun e => e.ctx == ctx && e.va == va / 32 * 32

/-- The line of an address is poisoned in an L1 (R298). -/
def poisonedLine (l : List Sector) (ctx va : Nat) : Bool := l.any fun e => e.ctx == ctx && e.va / 64 == va / 64 && e.poison

/-- A byte of a sector where it is valid. -/
def Sector.byte (e : Sector) (va : Nat) : Option Byte :=
  if bit e.valid (va % 32) then some (Tab.get e.data 0 (va % 32)) else none

/-- One byte of global memory for an ordinary load (R172, R176, R198, R298). -/
def loadByte (b : Bogie) (f : Frame) (cached : Bool) (va : Nat) : Except Stop Byte :=
  match outboxByte b.outbox va with
  | some v => .ok v
  | none =>
    match findSector (if cached then b.l1 else b.buf) f.ctx va with
    | some e =>
      match e.byte va with
      | some v => if e.poison then .error (.fault 0x10 (va / 64 * 64) 0) else .ok v
      | none =>
        if b.transit.any (fun t => (List.range 32).any fun i => touches t.op (va / 32 * 32 + i)) then .error (.wait va)
        else .error (.line va)
    | none =>
      if b.transit.any (fun t => (List.range 32).any fun i => touches t.op (va / 32 * 32 + i)) then .error (.wait va)
      else .error (.line va)

/-- The n bytes at va for an ordinary load. -/
def loadBytes (b : Bogie) (f : Frame) (cached : Bool) (va n : Nat) : Except Stop (List Byte) :=
  (List.range n).mapM fun i => loadByte b f cached (va + i)

/-- The bytes of prefetched lines are used once read (R189). -/
def Sector.use (e : Sector) (l : List Nat) : Sector :=
  if e.pref then { e with used := l.foldl (fun u a => if a / 32 * 32 = e.va then u ||| (1 <<< (a % 32)) else u) e.used }
  else e

/-- The count of a sector's bytes that were brought, were read and were not overwritten before (R189). -/
def Sector.usedCount (e : Sector) : Nat := (List.range 32).foldl (fun n i => if bit (e.used &&& ~~~e.stale) i then n + 1 else n) 0

/-- The use of the lines that a load read in the L1 at given addresses. -/
def Bogie.useLines (b : Bogie) (ctx : Nat) (read : List Nat) : Bogie :=
  if b.l1.any (fun e => e.pref) then
    let l := b.l1.map fun e => if e.ctx = ctx then e.use read else e
    let before := b.l1.foldl (fun k e => k + e.usedCount) 0
    let after := l.foldl (fun k e => k + e.usedCount) 0
    { b with l1 := l, pfUsed := b.pfUsed + BitVec.ofNat 64 (after - before) }
  else b

/-- The bogie whose scratchpad core c of the coach of bogie g holds (R19, R20, R170). -/
def peerBogie (g c : Nat) : Nat := g / 8 * 8 + c % 8

/-- The address by which both cores' names of one peer scratchpad byte are one. -/
def peerAddr (c o : Nat) : Nat := 0xFF10000000000000 + c % 8 * 0x10000 + o

/-- A byte of the scratchpad lies in the barrier area of a frame on the stack or draining (R209). -/
def Bogie.inArea (b : Bogie) (a : Nat) : Bool :=
  (b.stack ++ b.draining.map (·.frame)).any fun f =>
    decide (f.sbase + f.hdr.scratch * 256 ≤ a) && decide (a < f.sbase + f.hdr.scratch * 256 + 16 * f.hdr.barriers)

/-- A byte of a bogie's scratchpad as it stood at its last boundary (R170). -/
def Bogie.boundaryByte (b : Bogie) (a : Nat) : Byte :=
  match b.journal.find? (fun e => e.1 == a / 32) with
  | some e => (e.2.1[a % 32]?).getD 0
  | none => Tab.get b.scratch 0 a

/-- The sector was poisoned at the last boundary. -/
def Bogie.boundaryPoison (b : Bogie) (a : Nat) : Bool :=
  match b.journal.find? (fun e => e.1 == a / 32) with
  | some e => e.2.2
  | none => b.spoison.contains (a / 32)

/-- A byte of a bogie's scratchpad for a load through the peer region, which reaches no barrier area: its bytes there are free (R109, R170,
R209, log 135). -/
def State.peerData (s : State) (g a : Nat) : Byte :=
  if (s.bogie g).inArea a then Config.areaByte (g * 2 ^ 16 + a) s.clock else (s.bogie g).boundaryByte a

/-- One byte of a peer scratchpad for a load of bogie g (R137, R170). -/
def peerByte (s : State) (g : Nat) (b : Bogie) (c o : Nat) : Except Stop Byte :=
  match outboxByte b.outbox (peerAddr c o) with
  | some v => .ok v
  | none =>
    if b.transit.any (fun t => touches t.op (peerAddr c o)) then .error (.wait (peerAddr c o))
    else if (s.bogie (peerBogie g c)).boundaryPoison o then .error (.fault 0x10 (peerAddr c o / 64 * 64) 0)
    else .ok (s.peerData (peerBogie g c) o)

/-- The n bytes at va for an ordinary load that passed its checks, and the bogie with their use counted. -/
def readRoute (s : State) (g : Nat) (b : Bogie) (f : Frame) (bypass : Bool) (r : Route) (va n : Nat) :
    Except Stop (Bogie × List Byte) :=
  match r with
  | .own w o => (windowRead b f va w o n).map fun l => (b.useWindow f w o n, l)
  | .peer c o =>
    ((List.range n).mapM fun i => peerByte s g b c (o + i)).map fun l => ({ b with peerReads := b.peerReads ++ [(peerBogie g c, o, n)] }, l)
  | .mem e =>
    let cached := cachedClass e.cls && !bypass
    (loadBytes b f cached va n).map fun l =>
      (if cached then b.useLines f.ctx (((List.range n).map (va + ·)).filter fun a => (outboxByte b.outbox a).isNone) else b, l)
  | _ => .error (.fault 0x09 va 0)

/-- Bytes paired with their addresses. -/
def placed (va : Nat) (l : List Byte) : Tab Byte :=
  match l with
  | [] => []
  | v :: r => (va, v) :: placed (va + 1) r

/-- Bytes of a store cut into one entry for each 64-byte block they touch (R137), lowest first. -/
def blocks (bytes : Tab Byte) : List (Tab Byte) :=
  ((bytes.map fun e => e.1 / 64).eraseDups).map fun k => bytes.filter fun e => e.1 / 64 == k

/-- A store of bytes at va that passed its checks: to the own scratchpad at once, else by the outbox (R195). -/
def writeRoute (b : Bogie) (f : Frame) (bypass : Bool) (r : Route) (va : Nat) (l : List Byte) : Except Stop Bogie :=
  match r with
  | .own _ o => b.ownWrite (f.sbase + o) l
  | .peer c o => b.send ((blocks (placed (peerAddr c o) l)).map fun k => .store k false bypass none)
  | .device => b.send ((blocks (placed va l)).map fun k => .store k true bypass none)
  | _ => b.send ((blocks (placed va l)).map fun k => .store k false bypass none)

/-- The translation of a release's record, which must be mapped readable (R145). -/
def recordCheck (b : Bogie) (ctx va : Nat) : Except Stop Unit := do
  if region va ≠ .glob then .error (.fault 0x09 va 0)
  match ← b.translate ctx va with
  | none => .error (.fault 0x09 va 0)
  | some e => if e.rd then .ok () else .error (.fault 0x09 va 0)

/-! ### Loads, stores and atomics (R190-R208) -/

/-- A loaded value extended to 64 bits. -/
def extend (signed : Bool) (n v : Nat) : Word := if signed then sext (8 * n) v else BitVec.ofNat 64 v

/-- The word ends its activation awaiting a request that the witness makes once (R133, R136, R192). It takes one outbox
entry in the digest. -/
def Bogie.awaiting (b : Bogie) (g : Nat) (f : Frame) (a : Await) (entry : Bool) : Except Stop BRes :=
  if entry && decide (256 ≤ b.outbox.length) then .error .commit
  else b.commit g { f with await := some { a with pc := f.cpu.pc } } .await

/-- LD (R194): made by each core itself, or, from a device page, the engine region or the peer-module window, once by the
witness, as an acquire load (R175, R405, log 126). -/
def loadWord (s : State) (g : Nat) (b : Bogie) (f : Frame) (t base : BitVec 5) (d : BitVec 13) (q : BitVec 3) :
    Except Stop BRes := do
  let n := 2 ^ (q.toNat % 4)
  let va := dispAddr f.cpu base d n
  let signed := decide (q.toNat < 4)
  let r ← checkAccess s g b f .load va n
  match r with
  | .device | .peerWindow => b.awaiting g f { op := .load va n true, dest := t, size := n, sext := signed, acquire := true } true
  | _ =>
    let (b', l) ← readRoute s g b f (modBypass f.cpu.pfx.mod) r va n
    b'.go (f.setX t (extend signed n (natOfBytes l)))

/-- ST (R195). -/
def storeWord (s : State) (g : Nat) (b : Bogie) (f : Frame) (t base : BitVec 5) (d : BitVec 13) (q : BitVec 2) : Except Stop BRes := do
  let n := 2 ^ q.toNat
  let va := dispAddr f.cpu base d n
  let r ← checkAccess s g b f .store va n
  let b' ← writeRoute b f (modBypass f.cpu.pfx.mod) r va (bytesOfNat n (f.getX t).toNat)
  b'.go f

/-- LDA (R196). -/
def acquireWord (s : State) (g : Nat) (b : Bogie) (f : Frame) (t base : BitVec 5) (d : BitVec 13) (q : BitVec 2) : Except Stop BRes := do
  let n := 2 ^ q.toNat
  let va := dispAddr f.cpu base d n
  let r ← checkAccess s g b f .lda va n
  let va' := match r with
    | .peer c o => peerAddr c o
    | _ => va
  b.awaiting g f { op := .load va' n true, dest := t, size := n, acquire := true } true

/-- STL (R196). -/
def releaseStoreWord (s : State) (g : Nat) (b : Bogie) (f : Frame) (t base : BitVec 5) (d : BitVec 13) (q : BitVec 2) :
    Except Stop BRes := do
  let n := 2 ^ q.toNat
  let va := dispAddr f.cpu base d n
  let r ← checkAccess s g b f .stl va n
  let va' := match r with
    | .peer c o => peerAddr c o
    | _ => va
  let b' ← b.send [.store (placed va' (bytesOfNat n (f.getX t).toNat)) true false none]
  b'.go f

/-- The checks of an atomic and the address it acts on (R191, R197). -/
def atomicAddr (s : State) (g : Nat) (b : Bogie) (f : Frame) (va n : Nat) : Except Stop Nat := do
  let r ← checkAccess s g b f .atomic va n
  .ok (match r with
    | .peer c o => peerAddr c o
    | _ => va)

/-- An atomic that returns its old value (R199, R201, R202). -/
def atomicWord (s : State) (g : Nat) (b : Bogie) (f : Frame) (i : Instr) (t : BitVec 5) (va n : Nat) (signed : Bool) (fn : AtomF) (x y : Word)
    (ord : BitVec 2) : Except Stop BRes := do
  let a ← atomicAddr s g b f va n
  b.awaiting g f { op := .atomic a n fn x y ord .reg, dest := t, size := n, sext := signed, acquire := bit ord 0, word := b.wordNow i } true

/-- A posted atomic (R200, R202). -/
def postedWord (s : State) (g : Nat) (b : Bogie) (f : Frame) (i : Instr) (va n : Nat) (fn : AtomF) (x : Word) (ord : BitVec 2) :
    Except Stop BRes := do
  let a ← atomicAddr s g b f va n
  let b' ← b.send [.atomic a n fn x 0 ord (.posted (b.wordNow i))]
  b'.go f

/-- AMOA (R200): the target's checks, then those of the offset that receives the old value. -/
def amoaWord (s : State) (g : Nat) (b : Bogie) (f : Frame) (i : Instr) (va n o k : Nat) (fn : AtomF) (x : Word) : Except Stop BRes := do
  let a ← atomicAddr s g b f va n
  if o % n ≠ 0 then .error (.fault 0x04 o 0)
  if f.hdr.scratch * 256 < o + n then .error (.fault 0x05 o (max o (f.hdr.scratch * 256)))
  let b' ← b.send [.atomic a n fn x 0 0 (.amoa f.uid o k (b.wordNow i))]
  b'.go f

/-- The flag or record of an STF lies in another module than its destination (R407). -/
def otherModule (va fa : Nat) : Bool :=
  let away := region va == .peerWindow
  away != (region fa == .peerWindow) || (away && va / 2 ^ 46 != fa / 2 ^ 46)

/-- STF (R206): the checks step by step, of the destination and then of the flag or record; a record in another module is found after its
alignment, as a RELEASE finds it (R145). -/
def notifyWord (s : State) (g : Nat) (b : Bogie) (f : Frame) (i : Instr) (t base xf : BitVec 5) (n : Nat) (isTask : Bool) : Except Stop BRes := do
  let va := (f.getX base).toNat
  let fa := (f.getX xf).toNat
  let away := region va == .peerWindow
  rangeCheck s g f.ctx .stf va
  if !isTask then (if otherModule va fa then .error (.fault 0x09 fa 0) else rangeCheck s g f.ctx .atomic fa)
  alignCheck va n
  if fa % (if isTask then 64 else 8) ≠ 0 then .error (.fault 0x04 fa 0)
  if !isTask then boundCheck f.hdr fa 8
  let e ← (if region va = .glob then b.translate f.ctx va else .ok (some { rd := true, w := true }))
  match e with
  | none => .error (.fault 0x09 va 0)
  | some e =>
    if !e.rd ∨ e.cls = 4 then .error (.fault 0x09 va 0)
    if isTask && otherModule va fa then .error (.fault 0x09 fa 0)
    let ef ← (if isTask ∧ !away then (recordCheck b f.ctx fa).map fun _ => some ({ rd := true, w := true } : TlbEntry)
      else if region fa = .glob then b.translate f.ctx fa else .ok (some { rd := true, w := true }))
    match ef with
    | none => .error (.fault 0x09 fa 0)
    | some ef =>
      if !ef.rd then .error (.fault 0x09 fa 0)
      if away then peerCheck s f.ctx .stf va
      if !e.w || e.cls == 5 then .error (.fault 0x07 va 0)
      if !ef.w || ef.cls == 5 then .error (.fault 0x07 fa 0)
      let v := f.getX t
      let fa' := match region fa with
        | .peer c o => peerAddr c o
        | _ => fa
      let note := if isTask then Note.task fa f.prio (v.setWidth 32) else Note.flag fa' (b.wordNow i)
      let b' ← b.send [.store (placed va (bytesOfNat n v.toNat)) false false (some note)]
      b'.go f

/-- PREF (R207): no effect where the address would fault, lies in a core-local range or is of a class that no cache
holds; else the line is to be brought in. The task goes on. -/
def prefWord (g : Nat) (b : Bogie) (f : Frame) (base : BitVec 5) (d : BitVec 13) (far : Bool) : Except Stop BRes := do
  let va := dispAddr f.cpu base d 64
  let r := b.advance f
  if region va ≠ .glob ∨ va % 64 ≠ 0 then .ok { b := r }
  else
    match ← b.translate f.ctx va with
    | none => .ok { b := r }
    | some e =>
      if e.rd && cachedClass e.cls then
        .ok { b := r, evs := [{ ev := .loadFill, arg := { g := g, va := va, c := f.ctx, n := if far then 2 else 1, m := if f.cpu.streams then 1 else 0 } }] }
      else .ok { b := r }

end Sys2Proof.Machine
end

