-- ==== Sys2Proof/Machine/Page.lean ====
section
/-! DEFINITION. Page tables (R342-R345), where the home finds the bytes (R349), and the first-level fill (R346, R347). -/

namespace Sys2Proof.Machine

/-- The memory of a die in bytes: 160 GiB over its 64 channels, less what service has retired (R17, R28). -/
def Die.memory (d : Die) : Nat := d.channels * (160 * 2 ^ 30 / 64)

/-- A leaf entry (R344) by its fields. -/
structure Leaf where
  key     : Nat := 0
  size    : Nat := 0
  epoch   : BitVec 8 := 0
  present : Bool := true
  frame   : Nat := 0
  place   : Nat := 0
  cls     : Nat := 0
  syn     : Bool := false
  migr    : Bool := false
  x       : Bool := false
  w       : Bool := false
  rd      : Bool := false
  deriving DecidableEq, Repr

/-- The fields of a leaf word; key is where memory holds it. -/
def leafOf (key size : Nat) (w : Word) : Leaf :=
  { key := key, size := size, epoch := w.extractLsb' 56 8, present := bit w 55, frame := bits w 47 16, place := bits w 15 10,
    cls := bits w 9 7, syn := bit w 6, migr := bit w 5, x := bit w 4, w := bit w 3, rd := bit w 2 }

/-- The outcome of a walk (R345): a leaf; unmapped; or unmapped because the entry at that place is malformed. -/
inductive Walk where
  | leaf (l : Leaf)
  | unmapped
  | malformed (key : Nat)
  deriving DecidableEq, Repr

/-- The doubleword of memory listed from key upwards. -/
def State.readWord (s : State) (key : Nat) : Word := BitVec.ofNat 64 (natOfBytes (s.readBytes key 8))

/-- A leaf that breaks R345 or R361: a reserved bit, class 7, a Free consist or an offset beyond its region, a place beyond 7
for a class that is not chained, or a frame that is not aligned or lies beyond its die's memory (R342, R349). -/
def malformedLeaf (s : State) (ctx : Nat) (w : Word) (size : Nat) : Bool :=
  let l := leafOf 0 size w
  let k := Tab.get s.consists {} (ctx * 64 + l.place)
  let span := if l.cls = 1 then pageBytes size / 8 else pageBytes size
  bits w 54 48 != 0 || l.cls == 7 || (l.cls == 3 && (k.state == 0 || decide (k.units ≤ l.frame))) || (l.cls != 3 && decide (7 < l.place)) ||
    (l.frame * 65536 % span != 0) ||
    (l.cls != 4 && l.cls != 3 && (if l.cls = 1 then List.range 8 else [l.place]).any fun d => decide ((s.die d).memory < l.frame * 65536 + span))

/-- A pointer entry, or pt_root, that breaks R343 or whose table is not aligned as level next requires (R342). -/
def malformedPointer (s : State) (w : Word) (next : Nat) : Bool :=
  let align := match next with
    | 0 => 256
    | 1 => 4096
    | _ => 65536
  bits w 63 52 != 0 || bits w 7 2 != 0 || bit w 1 || decide (7 < bits w 51 48) ||
    decide (bits w 47 8 * 256 % align ≠ 0) || decide ((s.die (bits w 51 48)).memory < bits w 47 8 * 256 + align)

/-- The index of an address at a level (R342). -/
def levelIndex (va level : Nat) : Nat :=
  match level with
  | 0 => va / 2 ^ 16 % 32
  | 1 => va / 2 ^ 21 % 512
  | 2 => va / 2 ^ 30 % 8192
  | _ => va / 2 ^ 43 % 8192

/-- The walk from a table pointer at a level downwards (R342-R345). -/
def walkFrom (s : State) (ctx : Nat) (ptr : Word) (va level : Nat) : Walk :=
  let key := memKey (bits ptr 51 48) (bits ptr 47 8 * 256 + 8 * levelIndex va level)
  let w := s.readWord key
  if !bit w 0 then .unmapped
  else if bit w 1 then
    if level = 3 ∨ malformedLeaf s ctx w level then .malformed key else .leaf (leafOf key level w)
  else
    match level with
    | 0 => .malformed key
    | n + 1 => if malformedPointer s w n then .malformed key else walkFrom s ctx w va n

/-- The walk of a global address in a context (R342). A pt_root with valid 0 maps nothing (R343). -/
def State.walk (s : State) (ctx va : Nat) : Walk :=
  let root := (s.ctx ctx).ptRoot
  if !bit root 0 then .unmapped
  else if malformedPointer s root 3 then .unmapped
  else walkFrom s ctx root va 3

/-- The leaf that maps an address, if any. Homes and engines translate by the table as it stands; a cached translation that a direct
write has left behind is one that their accesses may use as well, and do not (R354, log 119). -/
def State.leaf (s : State) (ctx va : Nat) : Option Leaf :=
  if va < 2 ^ 56 then
    match s.walk ctx va with
    | .leaf l => some l
    | _ => none
  else none

/-- F4 logs the address of the malformed entry that a walk of an address meets, if it meets one (R345). -/
def State.noteWalk (s : State) (ctx va : Nat) : State :=
  match (if va < 2 ^ 56 then s.walk ctx va else .unmapped) with
  | .malformed key => { s with errlog := s.errlog ++ [{ code := 0x09, ctx := ctx, addr := key }] }
  | _ => s

/-- The bytes of a table of a level (R342). -/
def tableBytes (level : Nat) : Nat :=
  match level with
  | 0 => 256
  | 1 => 4096
  | _ => 65536

/-- Every valid, well-formed leaf below a table pointer (R342-R345); only entries that memory lists can be valid. -/
def leavesFrom (s : State) (ctx : Nat) (ptr : Word) (level : Nat) : List Leaf :=
  let base := memKey (bits ptr 51 48) (bits ptr 47 8 * 256)
  let keys := ((s.mem.filter fun e => decide (base ≤ e.1) && decide (e.1 < base + tableBytes level)).map fun e => e.1 / 8 * 8).eraseDups
  keys.flatMap fun key =>
    let w := s.readWord key
    if !bit w 0 then []
    else if bit w 1 then (if level = 3 ∨ malformedLeaf s ctx w level then [] else [leafOf key level w])
    else
      match level with
      | 0 => []
      | n + 1 => if malformedPointer s w n then [] else leavesFrom s ctx w n

/-- Every leaf of a context. -/
def State.leaves (s : State) (ctx : Nat) : List Leaf :=
  let root := (s.ctx ctx).ptRoot
  if !bit root 0 || malformedPointer s root 3 then [] else leavesFrom s ctx root 3

/-- The home die of an address by its leaf (R174, R349). -/
def Leaf.home (l : Leaf) (va : Nat) : Nat := if l.cls = 1 then va / 8192 % 8 else l.place

/-- The physical byte of an address by its leaf (R349): the number under which memory lists it. -/
def Leaf.phys (l : Leaf) (va : Nat) : Nat :=
  let off := va % pageBytes l.size
  if l.cls = 1 then memKey (va / 8192 % 8) (l.frame * 65536 + off / 65536 * 8192 + va % 8192)
  else memKey l.place (l.frame * 65536 + off)

/-- The TLB entry that a leaf fills (R346). -/
def Leaf.entry (l : Leaf) (ctx va : Nat) : TlbEntry :=
  { ctx := ctx, page := va / pageBytes l.size * pageBytes l.size, size := l.size, x := l.x, w := l.w, rd := l.rd,
    cls := l.cls, place := l.place, epoch := l.epoch, syn := l.syn }

/-- The physical byte of an address in a context, if it is mapped to memory. -/
def State.phys (s : State) (ctx va : Nat) : Option Nat :=
  match s.leaf ctx va with
  | some l => if l.cls = 4 ∨ l.cls = 3 then none else some (l.phys va)
  | none => none

/-- The page of an address is Restricting: walks of it wait (R355). -/
def State.restricting (s : State) (ctx va : Nat) : Bool :=
  s.pageOps.any fun o => (o.kind == 1 || o.kind == 2) && o.ctx == ctx && o.page == va / pageBytes o.size * pageBytes o.size

/-- A copy-on-write break of the page is under way (R352). -/
def State.breaking (s : State) (ctx va : Nat) : Bool :=
  s.pageOps.any fun o => o.kind == 4 && o.ctx == ctx && o.page == va / pageBytes o.size * pageBytes o.size

/-- A number taken from a list, or 0. -/
def pick (l : List Nat) (i : Nat) : Nat := (l[i]?).getD 0

/-- Element i taken out of a list. -/
def dropAt {α : Type} (l : List α) (i : Nat) : List α := l.take i ++ l.drop (i + 1)

/-- An entry put into a TLB of 192; a full one gives up a free choice of entry (R346). -/
def State.fillTlb (s : State) (g : Nat) (e : TlbEntry) : State :=
  let b := s.bogie g
  if b.tlb.length < 192 then s.setBogie g { b with tlb := b.tlb ++ [e] }
  else
    let (i, s) := s.choose b.tlb.length
    s.setBogie g { b with tlb := dropAt b.tlb i ++ [e] }

/-- Whether a cached translation maps an address of a context. -/
def Trans.covers (t : Trans) (ctx va : Nat) : Bool := t.ctx == ctx && t.page == va / pageBytes t.size * pageBytes t.size

/-- The translation of an address that a die's unit holds (R347). -/
def Die.cached (d : Die) (ctx va : Nat) : Option Leaf :=
  (d.trans.find? fun t => t.covers ctx va).map fun t => leafOf t.key t.size t.word

/-- A leaf that a walk has found cached by a die's unit; a full one of 32 Ki gives up a free choice of entry (R22, R347). -/
def State.fillTrans (s : State) (d ctx va : Nat) (l : Leaf) : State :=
  let x := s.die d
  let t : Trans := { ctx := ctx, page := va / pageBytes l.size * pageBytes l.size, size := l.size, key := l.key, word := s.readWord l.key }
  if x.trans.length < 32768 then s.setDie d { x with trans := x.trans ++ [t] }
  else
    let (i, s) := s.choose x.trans.length
    s.setDie d { x with trans := dropAt x.trans i ++ [t] }

/-- A stalled bogie tries its word again. -/
def Bogie.wake (b : Bogie) : Bogie :=
  match b.phase with
  | .stalled _ => { b with phase := .running }
  | _ => b

/-- The context of a bogie's top frame. -/
def Bogie.topCtx (b : Bogie) : Nat := (b.stack.head?.map (·.ctx)).getD 0

/-- The dies whose memories hold the tables that a walk from a pointer reads, in order (R342, R347). -/
def walkDies (s : State) (ptr : Word) (va level : Nat) : List Nat :=
  bits ptr 51 48 :: match level with
    | 0 => []
    | n + 1 =>
      let w := s.readWord (memKey (bits ptr 51 48) (bits ptr 47 8 * 256 + 8 * levelIndex va level))
      if !bit w 0 || bit w 1 || malformedPointer s w n then [] else walkDies s w va n

/-- The way of a walk's CONTROL messages from a die's unit, to each table on another die and back, as one number: a digit d + 1 of base 16
for each die d, the first lowest (R347, R379). -/
def State.walkWay (s : State) (d ctx va : Nat) : Nat :=
  let root := (s.ctx ctx).ptRoot
  if va < 2 ^ 56 ∧ bit root 0 ∧ !malformedPointer s root 3 then
    ((walkDies s root va 3).filter fun t => t != d).foldr (fun t n => (n * 16 + d + 1) * 16 + t + 1) 0
  else 0

/-- A bogie's walk goes on from a die along what is left of its way, and is complete at its end. -/
def State.walkOn (s : State) (g va d n : Nat) : State :=
  if n = 0 then s.add [{ ev := .walkComplete, arg := { g := g, va := va } }]
  else s.post d epUnit (n % 16 - 1) (s.bogie g).topCtx va 1 .walkComplete { d := n % 16 - 1, g := g, va := va, n := n / 16 }

/-- A walk begun for a bogie by its die's unit. -/
def State.beginWalk (s : State) (g va : Nat) : State := s.walkOn g va (dieOf g) (s.walkWay (dieOf g) (s.bogie g).topCtx va)

/-- TLB_MISS (R346, R347): a first-level miss asks the die's translation unit, which answers from its cached translations or walks, at most
64 walks at once; further misses wait in arrival order. -/
def tlbMiss (g va : Nat) (s : State) : State :=
  let d := s.die (dieOf g)
  if (d.cached (s.bogie g).topCtx va).isSome then s.add [{ ev := .walkComplete, arg := { g := g, va := va, flag := true } }]
  else if d.walks.length < 64 then
    (s.setDie (dieOf g) { d with walks := d.walks ++ [(g, va)] }).beginWalk g va
  else s.setDie (dieOf g) { d with walkq := d.walkq ++ [(g, va)] }

/-- The walk leaves the unit, and the first that waits begins. -/
def walkDone (g va : Nat) (s : State) : State :=
  let d := s.die (dieOf g)
  let left := d.walks.erase (g, va)
  match d.walkq with
  | [] => s.setDie (dieOf g) { d with walks := left }
  | (g', va') :: r =>
    (s.setDie (dieOf g) { d with walks := left ++ [(g', va')], walkq := r }).beginWalk g' va'

/-- WALK_COMPLETE (R345-R348, R355): the first-level entry is filled, from a cached translation (flag) or a walk, or the address is
unmapped for the access that stalled; a walk of a page in Restricting waits. -/
def walkComplete (g va : Nat) (flag : Bool) (s : State) : State :=
  let b := s.bogie g
  match b.stack with
  | [] => if flag then s else walkDone g va s
  | f :: _ =>
    if s.restricting f.ctx va then s.add [{ ev := .walkComplete, arg := { g := g, va := va, flag := flag } }]
    else if flag then
      match (s.die (dieOf g)).cached f.ctx va with
      | some l => (s.setBogie g b.wake).fillTlb g (l.entry f.ctx va)
      | none => tlbMiss g va s
    else
      let s := walkDone g va s
      match s.walk f.ctx va with
      | .leaf l => ((s.fillTrans (dieOf g) f.ctx va l).setBogie g b.wake).fillTlb g (l.entry f.ctx va)
      | _ => (s.noteWalk f.ctx va).setBogie g { b.wake with unmapped := some (va / 65536) }

/-- TLB_MISS. -/
def execTlbMiss (s : State) : Host.Outcome State Fault Refusal := .next (tlbMiss s.arg.g s.arg.va s)
/-- WALK_COMPLETE: n is what is left of the walk's way between dies. -/
def execWalkComplete (s : State) : Host.Outcome State Fault Refusal :=
  .next (if s.arg.n = 0 then walkComplete s.arg.g s.arg.va s.arg.flag s else s.walkOn s.arg.g s.arg.va s.arg.d s.arg.n)

end Sys2Proof.Machine
end

