-- ==== Sys2Proof/Machine/Home.lean ====
section
/-! DEFINITION. What a home does with the requests that reach it: stores and their owners (R183), atomics (R197-R203), loads
(R172, R187), parking (R350), copy-on-write (R352), synonyms (R353) and the guard of a snapshot (R416). -/

namespace Sys2Proof.Machine

/-- A number that no frame or request has had. -/
def State.newId (s : State) : Nat × State := (s.uid, { s with uid := s.uid + 1 })

/-- The die of a request's maker; the host, firmware and other modules act through the active hub. -/
def State.srcDie (s : State) (q : Src) : Nat :=
  match q with
  | .task g _ => dieOf g
  | .hart d _ => d
  | .array d _ => d
  | _ => s.hub

/-- The first address that a request names. -/
def opVa (o : Op) : Nat :=
  match o with
  | .store bytes _ _ _ => (bytes.head?.map (·.1)).getD 0
  | .notify _ _ (.flag fa _) => fa
  | .notify _ va _ => va
  | .atomic va _ _ _ _ _ _ => va
  | .load va _ _ => va
  | .copy desc _ => desc
  | .cring va _ => va
  | .pageqHome va => va
  | _ => 0

/-- The step that serves a request at a home. -/
def homeStep (o : Op) : Instr :=
  match o with
  | .store _ _ _ _ => .homeStore
  | .atomic _ _ _ _ _ _ _ => .atomicExecute
  | .copy _ _ => .copyAppend
  | _ => .loadFill

/-- The slots of a write (R379). -/
def writeSlots (bytes : Tab Byte) : Nat := if bytes.length ≤ 8 then 2 else 5

/-- The slots of the message that carries a request (R379). -/
def opSlots (o : Op) : Nat :=
  match o with
  | .store bytes _ _ _ => writeSlots bytes
  | .atomic _ _ _ _ _ _ _ => 2
  | .copy _ _ => 5
  | _ => 1

/-- The slots of the answer to a request (R379): the line of a read, the old value of an atomic, or an acknowledgement. -/
def answerSlots (o : Op) : Nat :=
  match o with
  | .load _ _ _ | .cring _ _ => 5
  | .atomic _ _ _ _ _ _ .reg | .pageqHome _ | .trap _ _ => 2
  | _ => 1

/-- The answer to a request sent back to its maker: a value, and a code that is 0 where the request was carried out. The maker of
a request number 0 waits for none. -/
def State.answer (s : State) (d : Nat) (q : Req) (val : Word) (code : Nat) : State :=
  if q.id = 0 then s
  else s.post d epHome (s.srcDie q.src) q.ctx (opVa q.op) (answerSlots q.op) .storePerformed { req := q, val := val, n := code }

/-- Bytes as one number. -/
def vecOf (l : List Byte) : Vec := BitVec.ofNat 512 (natOfBytes l)

/-- The bytes of a load sent back to its maker: more than eight of them, as only another module asks for, whole (R402). -/
def State.answerData (s : State) (d : Nat) (q : Req) (l : List Byte) : State :=
  if q.id = 0 then s
  else s.post d epHome (s.srcDie q.src) q.ctx (opVa q.op) (answerSlots q.op) .storePerformed
    { req := q, val := BitVec.ofNat 64 (natOfBytes l), pkt := if l.length ≤ 8 then 0 else vecOf l }

/-! ### Parking (R350) -/

/-- The request's 64 KiB unit holds a parked request at the die. -/
def Die.holdsUnit (d : Die) (ctx va : Nat) : Bool := d.parked.any fun q => q.ctx == ctx && opVa q.op / 65536 == va / 65536

/-- A load parks at a page that is not present or migrates, and behind the requests that its unit holds; those that wait for a
copy-on-write break hold no load back (R352). -/
def State.blocked (s : State) (d ctx va : Nat) (l : Leaf) : Bool :=
  ((s.die d).holdsUnit ctx va && !s.breaking ctx va) || !l.present || l.migr

/-- The addresses that a request writes, with the version word of a COPYC. -/
def opWrites (o : Op) : List Nat :=
  match o with
  | .store bytes _ _ (some (.version v _ _)) => bytes.map (·.1) ++ [v]
  | .store bytes _ _ _ => bytes.map (·.1)
  | o => [opVa o]

/-- One address in each 64 KiB unit that a request writes. -/
def opUnits (o : Op) : List Nat :=
  (opWrites o).foldl (fun l a => if l.any fun b => b / 65536 == a / 65536 then l else l ++ [a]) []

/-- The units, by their first addresses, that a parked request is to write (R416); none for a read. -/
def parkedUnits (o : Op) : List Nat :=
  match o with
  | .store _ _ _ _ | .atomic _ _ _ _ _ _ _ | .copy _ _ => (opUnits o).map fun a => a / 65536 * 65536
  | _ => []

/-- The Pending units of a snapshot that a write waits for, as it parks, remember when the first one did (R418). -/
def State.noteParked (s : State) (ctx : Nat) (o : Op) : State :=
  let x := (s.ctx ctx).snap
  let new := fun (u : SnapUnit) => u.asked.isNone && (parkedUnits o).contains u.va
  if !x.units.any new then s
  else
    let units := x.units.map fun u => if new u then { u with asked := some s.uid } else u
    { s.setCtx ctx { s.ctx ctx with snap := { x with units := units } } with uid := s.uid + 1 }

/-- A request parks, and F3 is told of the first of its unit; a full fault queue refuses it, and its sender sends it again no
sooner than 1 µs later. -/
def State.park (s : State) (d : Nat) (q : Req) : State :=
  let s := s.noteParked q.ctx q.op
  let x := s.die d
  if 256 ≤ x.parked.length then
    s.add [{ ev := .faultQueueResend, arg := { d := d, req := q }, due := s.clock + 1700 }]
  else
    let s' := s.setDie d { x with parked := x.parked ++ [q] }
    if x.holdsUnit q.ctx (opVa q.op) then s'
    else s'.add [{ ev := .parkRepair, arg := { d := d, c := q.ctx, va := opVa q.op / 65536 * 65536 }, due := s.clock + 1 }]

/-! ### Memory behind a home -/

/-- Memory from one place copied to another, with its poison and what has been written of its poisoned lines (R298, R356). -/
def State.moveMem (s : State) (src dst n : Nat) : State :=
  let cells := (s.mem.filter fun e => decide (src ≤ e.1) && decide (e.1 < src + n)).map fun e => (e.1 - src + dst, e.2)
  let lines := (s.poison.filter fun k => decide (src ≤ 64 * k) && decide (64 * k < src + n)).map fun k => (64 * k - src + dst) / 64
  { s with mem := cells.foldl (fun m e => Tab.set m unlisted e.1 e.2) (Tab.clear s.mem dst n)
           poison := (s.poison.filter fun k => !(decide (dst ≤ 64 * k) && decide (64 * k < dst + n))) ++ lines
           wiping := (s.wiping.filter fun w => !(decide (dst ≤ 64 * w.at') && decide (64 * w.at' < dst + n))) ++
             (s.wiping.filter fun w => decide (src ≤ 64 * w.at') && decide (64 * w.at' < src + n)).map fun w => { w with at' := (64 * w.at' - src + dst) / 64 } }

/-- Every table below a pointer of a level, by its number in memory and its bytes (R342, R343). -/
def tablesFrom (s : State) (ptr : Word) (level : Nat) : List (Nat × Nat) :=
  let base := memKey (bits ptr 51 48) (bits ptr 47 8 * 256)
  let keys := ((s.mem.filter fun e => decide (base ≤ e.1) && decide (e.1 < base + tableBytes level)).map fun e => e.1 / 8 * 8).eraseDups
  (base, tableBytes level) :: match level with
    | 0 => []
    | n + 1 => keys.flatMap fun key =>
      let w := s.readWord key
      if !bit w 0 || bit w 1 || malformedPointer s w n then [] else tablesFrom s w n

/-- The tables of a context. -/
def State.tables (s : State) (ctx : Nat) : List (Nat × Nat) :=
  let root := (s.ctx ctx).ptRoot
  if !bit root 0 || malformedPointer s root 3 then [] else tablesFrom s root 3

/-- The ranges of memory that leaves, tables, the reserve pools, snapshots and page changes hold, by their numbers in memory and their
bytes. -/
def State.usedSpans (s : State) : List (Nat × Nat) :=
  let leaves := (List.range 193).flatMap fun c => (s.leaves c).flatMap fun l =>
    if l.cls = 3 ∨ l.cls = 4 then []
    else if l.cls = 1 then (List.range 8).map fun d => (memKey d (l.frame * 65536), pageBytes l.size / 8)
    else [(memKey l.place (l.frame * 65536), pageBytes l.size)]
  let tables := (List.range 193).flatMap fun c => s.tables c
  let pools := s.dies.flatMap fun e => e.2.reserve.map fun f => (memKey e.1 (f * 65536), 65536)
  let copies := s.ctxs.flatMap fun e => e.2.snap.units.flatMap fun u => u.copies.map fun x => (memKey x.1 (x.2 * 65536), 65536)
  let ops := s.pageOps.filterMap fun o => if 3 ≤ o.kind then some (memKey (if o.kind = 3 then o.target else o.home) (o.frame * 65536), pageBytes o.size) else none
  (leaves ++ tables ++ pools ++ copies ++ ops).eraseDups

/-- n frames of 64 KiB, one after the other and aligned, taken from a die's reserve pool (R352, R416). -/
def takeFrames (pool : List Nat) (n : Nat) : Option (Nat × List Nat) :=
  (pool.find? fun f => f % n == 0 && (List.range n).all fun i => pool.contains (f + i)).map fun f =>
    (f, pool.filter fun x => !(decide (f ≤ x) && decide (x < f + n)))

/-- A leaf entry rewritten in memory; no translation unit holds its old word on (R355). -/
def State.writeLeaf (s : State) (key : Nat) (w : Word) : State :=
  { s.writeBytes key (bytesOfNat 8 w.toNat) with dies := Tab.mapVals s.dies fun d => { d with trans := d.trans.filter fun t => t.key != key } }

/-- The word of a leaf entry with other fields in it (R344). -/
def Leaf.word (l : Leaf) (valid : Bool) : Word :=
  BitVec.ofNat 64 (l.epoch.toNat * 2 ^ 56 + (if l.present then 2 ^ 55 else 0) + l.frame * 2 ^ 16 + l.place * 2 ^ 10 +
    l.cls * 2 ^ 7 + (if l.syn then 2 ^ 6 else 0) + (if l.migr then 2 ^ 5 else 0) + (if l.x then 2 ^ 4 else 0) +
    (if l.w then 2 ^ 3 else 0) + (if l.rd then 2 ^ 2 else 0) + 2 + (if valid then 1 else 0))

/-- The line of 64 bytes that holds an address. -/
def State.lineAt (s : State) (l : Leaf) (va : Nat) : Vec :=
  BitVec.ofNat 512 (natOfBytes (s.readBytes (l.phys (va / 64 * 64)) 64))

/-- The line that holds an address is poisoned (R298). -/
def State.poisoned (s : State) (l : Leaf) (va : Nat) : Bool := s.poison.contains (l.phys va / 64)

/-- The copy hart that made a request, by its number: what one copy writes of a line counts together (R298). -/
def copyMaker (q : Src) : Option Nat :=
  match q with
  | .hart d h => if h < 16 then some (d * 22 + h) else none
  | _ => none

/-- More bytes that a maker has written of a poisoned line or sector, and all those that it has written by now. -/
def wipe (l : List Wipe) (at' by' : Nat) (mask : BitVec 64) : List Wipe × BitVec 64 :=
  let m := mask ||| ((l.find? fun w => w.at' == at' && w.by' == by').map (·.mask)).getD 0
  ((l.filter fun w => !(w.at' == at' && w.by' == by')) ++ [{ at' := at', by' := by', mask := m }], m)

/-- Bytes written to line k by a maker: it is poisoned no more once a store, or a copy, has covered it whole (R298). -/
def State.wipeLine (s : State) (q : Src) (k : Nat) (mask : BitVec 64) : State :=
  let (w, m) := match copyMaker q with
    | some c => wipe s.wiping k c mask
    | none => (s.wiping, mask)
  if m = BitVec.allOnes 64 then { s with poison := s.poison.filter (· != k), wiping := w.filter fun x => x.at' != k }
  else { s with wiping := w }

/-- Bytes of a maker's applied where a leaf finds them, and the poisoned lines that they cover. -/
def State.applyBytes (s : State) (q : Src) (l : Leaf) (bytes : Tab Byte) : State :=
  let s := bytes.foldl (fun s e => s.writeByte (l.phys e.1) e.2) s
  let lines := ((bytes.map fun e => l.phys e.1 / 64).eraseDups).filter s.poison.contains
  lines.foldl (fun s k => s.wipeLine q k
    (bytes.foldl (fun (m : BitVec 64) e => if l.phys e.1 / 64 = k then m ||| (1 <<< (l.phys e.1 % 64)) else m) 0)) s

/-- A store whose lines become poison (R228, R277). -/
def poisons (o : Op) : Bool :=
  match o with
  | .store _ _ _ (some .poison) => true
  | _ => false

/-- The lines of bytes made poison where a leaf finds them. -/
def State.poisonBytes (s : State) (l : Leaf) (bytes : Tab Byte) : State :=
  let lines := (bytes.map fun e => l.phys e.1 / 64).eraseDups
  { s with poison := s.poison ++ lines.filter (fun k => !s.poison.contains k), wiping := s.wiping.filter fun w => !lines.contains w.at' }

/-! ### Owners and drops (R183, R198) -/

/-- The agent that owns the words it stores: a bogie, an engine hart or an array (R182, R183, R268). -/
def ownerOf (q : Src) : Option Src :=
  match q with
  | .task g _ => some (.task g 0)
  | .hart d h => some (.hart d h)
  | .array d c => some (.array d c)
  | _ => none

/-- The words at the keys pass to a new owner; the bogies that owned one and are not it are to drop it. Harts and arrays hold
no cache of data, and so have nothing to drop (log 5). -/
def State.takeWords (s : State) (me : Option Src) (keys : List Nat) : State × List Nat :=
  ((keys.map (· / 4)).eraseDups).foldl (fun (r : State × List Nat) w =>
    let old := Tab.get r.1.owner none w
    let owed := match old with
      | some (.task g _) => if old = me ∨ r.2.contains g then r.2 else r.2 ++ [g]
      | _ => r.2
    ({ r.1 with owner := Tab.set r.1.owner none w me }, owed)) (s, [])

/-- Drops sent for a request to the bogies that owned its words. -/
def State.sendDrops (s : State) (d : Nat) (q : Req) (l : List Nat) : State :=
  l.foldl (fun s g => s.post d epHome (dieOf g) q.ctx (opVa q.op) 1 .dropReceived { g := g, d := d, req := q }) s

/-- A word invalidated in an L1: its bytes are valid no more and it is not owned. -/
def Sector.dropWord (e : Sector) (va : Nat) : Sector :=
  let w := va % 32 / 4
  { e with valid := e.valid &&& ~~~((15 : BitVec 32) <<< (4 * w)), owned := e.owned &&& ~~~((1 : BitVec 8) <<< w) }

/-- Every word that an operation touches invalidated in an L1; a sector with no word left leaves it. -/
def Bogie.dropTouched (b : Bogie) (ctx : Nat) (o : Op) : Bogie :=
  let drop := fun (e : Sector) =>
    if e.ctx = ctx then
      (List.range 8).foldl (fun e w =>
        if (List.range 4).any fun i => touches o (e.va + 4 * w + i) then e.dropWord (e.va + 4 * w) else e) e
    else e
  { b with l1 := (b.l1.map drop).filter fun e => e.valid != 0 || e.owned != 0 }

/-! ### Synonyms (R353) -/

/-- Every line of n bytes from an address of a context invalidated in every L1 and RDC. -/
def State.invalidateLines (s : State) (ctx va n : Nat) : State :=
  let hit := fun (c a : Nat) => c == ctx && decide (va ≤ a) && decide (a < va + n)
  { s with bogies := Tab.mapVals s.bogies fun b => { b with l1 := b.l1.filter fun e => !hit e.ctx e.va }
           dies := Tab.mapVals s.dies fun d => { d with rdc := d.rdc.filter fun e => !hit e.ctx e.va } }

/-- The lines of n bytes from an address of a context leave every instruction cache (R111, R355). -/
def State.dropCode (s : State) (ctx va n : Nat) : State :=
  let keep := fun (l : List CodeLine) => l.filter fun e => !(e.ctx == ctx && decide (va < e.va + 64) && decide (e.va < va + n))
  { s with bogies := Tab.mapVals s.bogies fun b => { b with icache := keep b.icache }
           coaches := Tab.mapVals s.coaches fun c => { c with icache := keep c.icache } }

/-- What a leaf names at die d, as a remap filter keeps it: frames of a die's memory, or of a chained page's region. -/
def Leaf.alias (l : Leaf) (d ctx va : Nat) : Alias :=
  { frame := memKey (if l.cls = 3 then 1000 + ctx * 64 + l.place else if l.cls = 1 then d else l.place) l.frame
    ctx := ctx, page := va / pageBytes l.size * pageBytes l.size, size := l.size
    units := if l.cls = 1 then pageBytes l.size / 2 ^ 19 + (if l.size = 0 then 1 else 0) else pageBytes l.size / 2 ^ 16 }

/-- Two pages name a frame in common. -/
def Alias.meets (a b : Alias) : Bool := decide (a.frame < b.frame + b.units) && decide (b.frame < a.frame + a.units)

/-- The home, or a chained page's member, translates a request through a leaf: an alias is recorded, and before a write, or a fill that may
be written, the frame's lines under every other alias are invalidated. -/
def State.aliases (s : State) (d ctx va : Nat) (l : Leaf) (write : Bool) : State :=
  if !l.syn then s
  else
    let me := l.alias d ctx va
    let x := s.die d
    let s :=
      if x.remap.contains me then s
      else if x.remap.length < 16384 then s.setDie d { x with remap := x.remap ++ [me] }
      else
        match x.remap with
        | [] => s
        | old :: rest => (s.setDie d { x with remap := rest ++ [me] }).invalidateLines old.ctx old.page (pageBytes old.size)
    if write || l.w then
      ((s.dies.flatMap fun e => e.2.remap).filter fun a => a.meets me && !(a.ctx == me.ctx && a.page == me.page)).foldl
        (fun s a => s.invalidateLines a.ctx a.page (pageBytes a.size)) s
    else s

/-! ### Snapshot guard (R415-R417) -/

/-- A context's snapshot replaced. -/
def State.setSnap (s : State) (c : Nat) (x : Snap) : State := s.setCtx c { s.ctx c with snap := x }

/-- The unit of a draining snapshot that holds an address. -/
def State.snapUnit (s : State) (ctx va : Nat) : Option SnapUnit :=
  let sn := (s.ctx ctx).snap
  if sn.state = 2 then sn.units.find? (fun u => u.va == va / 65536 * 65536) else none

/-- A unit of a context's snapshot replaced. -/
def State.putUnit (s : State) (ctx : Nat) (u : SnapUnit) : State :=
  let sn := (s.ctx ctx).snap
  s.setSnap ctx { sn with units := sn.units.map fun x => if x.va = u.va then u else x }

/-- What a write to an address at die d does first for the image of one unit: nothing, a copy of the old contents into a reserve frame (of
an interleaved page, of the granule at this home, log 23), or, with the pool empty, no state: the write parks. -/
def State.guardUnit (s : State) (d ctx va : Nat) (l : Leaf) : Option State :=
  match s.snapUnit ctx va with
  | none => some s
  | some u =>
    if !(s.ctx ctx).snap.advanced.contains d || u.state == 2 || (u.state == 1 && (l.cls != 1 || (Tab.find u.copies d).isSome)) then some s
    else
      match takeFrames (s.die d).reserve 1 with
      | none => none
      | some (f, pool) =>
        let s := s.setDie d { s.die d with reserve := pool }
        let s := if l.cls = 1 then s.moveMem (l.phys (va / 8192 * 8192)) (memKey d (f * 65536)) 8192
          else s.moveMem (l.phys (va / 65536 * 65536)) (memKey d (f * 65536)) 65536
        some (s.putUnit ctx { u with state := 1, copies := Tab.put u.copies d f })

/-- The other addresses, in any context, at which units of draining snapshots map the byte that a leaf with syn maps at die d (R353). -/
def State.otherUnits (s : State) (d ctx va : Nat) (l : Leaf) : List (Nat × Nat × Leaf) :=
  if !l.syn then []
  else
    s.ctxs.flatMap fun e => e.2.snap.units.filterMap fun u =>
      (s.leaf e.1 u.va).bind fun m =>
        let first := u.va + (if m.cls = 1 then d * 8192 else 0)
        let n := if m.cls = 1 then 8192 else 65536
        if e.2.snap.state = 2 ∧ !(e.1 = ctx ∧ u.va = va / 65536 * 65536) ∧ m.cls ≠ 3 ∧ m.cls ≠ 4 ∧ m.phys first ≤ l.phys va ∧ l.phys va < m.phys first + n then
          some (e.1, first + (l.phys va - m.phys first), m)
        else none

/-- What a write to an address at die d does first for every image that holds its byte. -/
def State.snapGuard (s : State) (d ctx va : Nat) (l : Leaf) : Option State :=
  ((ctx, va, l) :: s.otherUnits d ctx va l).foldl (fun (o : Option State) e => o.bind fun s => s.guardUnit d e.1 e.2.1 e.2.2) (some s)

/-! ### Copy-on-write (R352) -/

/-- A write to a Shared page begins its break where the pool has the frames. -/
def State.startBreak (s : State) (d ctx va : Nat) (l : Leaf) : Option State :=
  match takeFrames (s.die d).reserve (pageBytes l.size / 65536) with
  | none => none
  | some (f, pool) =>
    let page := va / pageBytes l.size * pageBytes l.size
    some { (s.setDie d { s.die d with reserve := pool }).add [{ ev := .cowCopyDone, arg := { d := d, c := ctx, va := page } }] with
      pageOps := s.pageOps ++ [{ kind := 4, ctx := ctx, page := page, size := l.size, home := d, frame := f }] }

/-- A write that reaches a home: where the request belongs, what parks it, and what must be done before it is applied. The
state is ready for the bytes, or the request has gone elsewhere. -/
def State.beforeWrite (s : State) (d : Nat) (q : Req) (l : Leaf) : Except State State :=
  let va := opVa q.op
  if l.home va ≠ d then
    .error (s.post d epHome (l.home va) q.ctx va (opSlots q.op) (homeStep q.op) { d := l.home va, req := q })
  else if (s.die d).holdsUnit q.ctx va || !l.present || l.migr then .error (s.park d q)
  else if l.cls = 6 then
    if s.breaking q.ctx va then .error (s.park d q)
    else
      match s.startBreak d q.ctx va l with
      | none => .error (s.park d q)
      | some s => .error (s.park d q)
  else
    match (opUnits q.op).foldl (fun (o : Option State) a => o.bind fun s => s.snapGuard d q.ctx a l) (some s) with
    | none => .error (s.park d q)
    | some s => .ok (s.aliases d q.ctx va l true)

/-- A request whose page the home finds unmapped after commit, which software brings about by breaking R354: it has no place
to act on, counts as carried out with PAGE_INVALID, and F4 logs it (log 24), with the entry's address where it is malformed (R345). -/
def State.lost (s : State) (d : Nat) (q : Req) : State :=
  let s := s.noteWalk q.ctx (opVa q.op)
  { s.answer d q 0 0x09 with errlog := s.errlog ++ [{ code := 0x09, ctx := q.ctx, addr := opVa q.op }] }

/-- Consist number k of a context. -/
def State.consist (s : State) (ctx k : Nat) : Consist := Tab.get s.consists {} (ctx * 64 + k)
/-- Consist number k of a context replaced. -/
def State.setConsist (s : State) (ctx k : Nat) (x : Consist) : State :=
  { s with consists := Tab.put s.consists (ctx * 64 + k) x }

/-- The offset in its region of an address of a chained page (R361). -/
def Leaf.chainOff (l : Leaf) (va : Nat) : Nat := l.frame * 65536 + va % pageBytes l.size

/-- A request for a chained page goes to its consist's head from an endpoint of die d (R363, R365, R386). -/
def State.toHead (s : State) (d ep : Nat) (q : Req) (l : Leaf) : State :=
  match (s.consist q.ctx l.place).dies.head? with
  | some h => s.post d ep h q.ctx (opVa q.op) (opSlots q.op) .chainApply { d := h, c := q.ctx, n := l.place, req := q }
  | none => s.add [{ ev := .chainApply, arg := { d := d, c := q.ctx, n := l.place, req := q } }]

/-- The value of the bytes of a store. -/
def storedValue (bytes : Tab Byte) : Nat := natOfBytes (bytes.map (·.2))

/-- A store to a device page, sent from an endpoint of die d (R333, R349, R386, R397): a notify region's takes a queue number, an engine
block's may be a kick, host memory takes the bytes, and the link registers take none through a mapping. -/
def State.deviceStore (s : State) (d ep : Nat) (q : Req) (l : Leaf) (bytes : Tab Byte) : State :=
  let va := opVa q.op
  let off := va % pageBytes l.size
  match Tab.find s.devices l.frame with
  | some (.notify c) =>
    s.post d ep s.hub q.ctx va 2 .queueNotify { c := c, n := storedValue bytes % 2 ^ 32, va := off, m := bytes.length, req := q }
  | some (.engine die) =>
    s.post d ep die q.ctx va 2 .engineKick
      { d := die, h := off / 256, c := q.ctx, n := off % 256, m := bytes.length, val := BitVec.ofNat 64 (storedValue bytes), req := q }
  | some (.host base) =>
    s.post d ep s.hub q.ctx va (writeSlots bytes) .homeStore
      { d := s.hub, req := { q with op := .store (bytes.map fun e => (e.1 - va + base + off, e.2)) true false none } }
  | _ => s.answer d q 0 0

/-- The result that an AMOA sends to its bogie, in one message that also tells it that the atomic is performed (R184, R208, R379): the
delivery of its old value (R200), or the poison that its barrier takes (R203). -/
def State.amoaDeliver (s : State) (d ep : Nat) (q : Req) (uid off k n old code : Nat) : State :=
  match q.src with
  | .task g _ =>
    let u : Update := if code = 0 then { bytes := n } else { code := BitVec.ofNat 8 code }
    s.post d ep (dieOf g) q.ctx (opVa q.op) 2 .storePerformed
      { req := q, held := [.deliver 0 .firmware (.frame uid) off (if code = 0 then bytesOfNat n old else []) (some (k, u))] }
  | _ => s.answer d q 0 0

/-- A request of another module, which hears of a failure itself (R409). -/
def isPeer (q : Src) : Bool :=
  match q with
  | .peer _ => true
  | _ => false

/-- What an executed atomic sends out: its old value, an AMOA's delivery, or only that it is performed (R184, R200, R203). A
posted atomic that met poison is dropped, and its unit sends POISON to class 1 (R203). -/
def State.atomicDone (s : State) (d : Nat) (q : Req) (old code : Nat) : State :=
  match q.op with
  | .atomic va n _ _ _ _ ret =>
    match ret with
    | .reg => s.answer d q (BitVec.ofNat 64 old) code
    | .amoa uid off k _ => s.amoaDeliver d epHome q uid off k n old code
    | .posted w =>
      let s := if code = 0x10 ∧ !isPeer q.src then
          s.add [{ ev := .raiseEvent
                   arg := { d := d, c := q.ctx, info := { code := 0x10, addr := BitVec.ofNat 64 (va / 64 * 64), extra := w.setWidth 64 } } }]
        else s
      s.answer d q 0 (if q.src = .firmware ∨ isPeer q.src then code else 0)
  | _ => s

/-! ### Performance at a home (R183, R184, R198) -/

/-- A store or atomic is performed: its maker is told, and an atomic's value goes out. -/
def State.performed (s : State) (d : Nat) (q : Req) (old : Nat) : State :=
  match q.op with
  | .atomic _ _ _ _ _ _ _ => s.atomicDone d q old 0
  | _ => s.answer d q 0 0

/-- The words that a request has written pass to another owner, or to none, and it is performed once the bogies that owned them have dropped
them (R183, R184). An atomic waits for that as a store does, so that what follows it finds no old copy (R179, log 140). -/
def State.passWords (s : State) (d : Nat) (q : Req) (me : Option Src) (keys : List Nat) (old : Nat) : State :=
  let (s, owed) := s.takeWords me keys
  let s := s.sendDrops d q owed
  if owed.isEmpty then s.performed d q old
  else s.setDie d { s.die d with dropping := (s.die d).dropping ++ [{ req := q, owed := owed, words := (keys.map (· / 4)).eraseDups, old := old }] }

/-- The words of a store pass to its maker. -/
def State.ownWords (s : State) (d : Nat) (q : Req) (keys : List Nat) : State := s.passWords d q (ownerOf q.src) keys 0

/-- A bogie's acknowledgement of a drop reaches the home: the request is performed once no acknowledgement is owed (R184). -/
def State.dropAcked (s : State) (g d : Nat) (q : Req) : State :=
  let x := s.die d
  match x.dropping.find? (fun p => p.req == q) with
  | none => s
  | some p =>
    let owed := p.owed.erase g
    if owed.isEmpty then (s.setDie d { x with dropping := x.dropping.filter fun p => p.req != q }).performed d q p.old
    else s.setDie d { x with dropping := x.dropping.map fun p => if p.req = q then { p with owed := owed } else p }

/-- DROP_RECEIVED (R183): the bogie invalidates the words in its L1s and acknowledges to the home, or that acknowledgement arrives (flag). -/
def dropReceived (a : Args) (s : State) : State :=
  if a.flag then s.dropAcked a.g a.d a.req
  else
    (s.setBogie a.g ((s.bogie a.g).dropTouched a.req.ctx a.req.op)).post (dieOf a.g) (epBogie a.g) a.d a.req.ctx (opVa a.req.op) 1
      .dropReceived { a with flag := true }

/-- A word of n bytes has been written at die d and its old owner has not acknowledged the drop: what synchronises on it waits, so that
nobody who has seen the new value can bring the owner to read the old one (R178, R179, log 140). -/
def State.dropsOwed (s : State) (d : Nat) (l : Leaf) (va n : Nat) : Bool :=
  (s.die d).dropping.any fun p => (List.range n).any fun i => p.words.contains ((l.phys va + i) / 4)

/-- The commit of a COPYC at its destination's home (R229): the row and the version's increment, or neither where the version differs or
is poisoned. -/
def State.commitVersion (s : State) (d : Nat) (q : Req) (l : Leaf) (bytes : Tab Byte) (v : Nat) (expected : Word) (bad : List Nat) : State :=
  let old := natOfBytes (s.readBytes (l.phys v) 8)
  if s.poisoned l v then s.answer d q 0 0x10
  else if old = expected.toNat then
    (((s.applyBytes q.src l bytes).poisonBytes l (bytes.filter fun e => bad.contains e.1)).writeBytes (l.phys v) (bytesOfNat 8 (old + 1))).ownWords d q
      ((bytes.map fun e => l.phys e.1) ++ (List.range 8).map fun i => l.phys v + i)
  else s.answer d q 0 0x22

/-- A store served at its home. -/
def State.serveStore (s : State) (d : Nat) (q : Req) (bytes : Tab Byte) : State :=
  match s.leaf q.ctx (opVa q.op) with
  | none => s.lost d q
  | some l =>
    if l.cls = 3 then s.toHead d epHome q l
    else if l.cls = 4 then s.deviceStore d epHome q l bytes
    else
      match s.beforeWrite d q l with
      | .error s => s
      | .ok s =>
        match q.op with
        | .store _ _ _ (some (.version v x bad)) => s.commitVersion d q l bytes v x bad
        | _ =>
          let s := s.applyBytes q.src l bytes
          let s := if poisons q.op then s.poisonBytes l bytes else s
          if l.cls = 2 then s.answer d q 0 0 else s.ownWords d q (bytes.map fun e => l.phys e.1)

/-! ### Atomics (R94, R197-R203) -/

/-- The new value of an n-byte atomic (R94, R199, R201, R202). -/
def atomNew (fn : AtomF) (n : Nat) (old : Nat) (x y : Word) : Nat :=
  let b := x.toNat % 2 ^ (8 * n)
  let so := (BitVec.ofNat (8 * n) old).toInt
  let sb := (BitVec.ofNat (8 * n) b).toInt
  match fn with
  | .cas => if old = b then y.toNat % 2 ^ (8 * n) else old
  | .fadd fmt => (if fmt = 0 then fp16 else if fmt = 1 then bf16 else fp32).atomicAdd old b
  | .int o =>
    match o.toNat with
    | 0 => (old + b) % 2 ^ (8 * n)
    | 1 => old &&& b
    | 2 => old ||| b
    | 3 => old ^^^ b
    | 4 => if so ≤ sb then old else b
    | 5 => if so ≤ sb then b else old
    | 6 => min old b
    | 7 => max old b
    | _ => b

/-- An atomic served at its home. -/
def State.serveAtomic (s : State) (d : Nat) (q : Req) (va n : Nat) (fn : AtomF) (x y : Word) : State :=
  match s.leaf q.ctx va with
  | none => s.lost d q
  | some l =>
    if l.cls = 3 then s.toHead d epHome q l
    else if l.cls = 4 then s.lost d q
    else if s.dropsOwed d l va n then s.add [{ ev := .atomicExecute, arg := { d := d, req := q }, due := s.clock + 1 }]
    else
      match s.beforeWrite d q l with
      | .error s => s
      | .ok s =>
        if s.poisoned l va then s.atomicDone d q 0 0x10
        else
          let old := natOfBytes (s.readBytes (l.phys va) n)
          let s := s.writeBytes (l.phys va) (bytesOfNat n (atomNew fn n old x y))
          if l.cls = 2 then s.atomicDone d q old 0
          else s.passWords d q none ((List.range n).map fun i => l.phys va + i) old

/-! ### Chained lines as loads see them (R361, R366) -/

/-- The dies that serve reads of a consist: its members but for one that joins or leaves (R366). -/
def Consist.readers (c : Consist) : List Nat := c.dies.filter fun d => d != c.leaving && d != c.joining

/-- The die to which a query to the tail goes (R366, R368). -/
def Consist.tail (c : Consist) : Nat := c.dies.getLast?.getD 0

/-- Die-to-die hops between two dies (R16, R366); a hub lies beside its two compute dies. -/
def hops (a b : Nat) : Nat :=
  let col := fun (d : Nat) => if d = 8 then 0 else if d = 9 then 3 else d % 4
  let side := (col a - col b) + (col b - col a)
  if 8 ≤ a ∨ 8 ≤ b then (if a = b then 0 else side + 1)
  else side + (if a / 4 = b / 4 then 0 else 1)

/-- The nearest member of a consist from a die, the lowest number where two are as near (R366). -/
def Consist.nearest (c : Consist) (d : Nat) : Option Nat :=
  c.readers.foldl (fun m x =>
    match m with
    | none => some x
    | some y => if hops d x < hops d y ∨ (hops d x = hops d y ∧ x < y) then some x else some y) none

/-- The bytes of a replica from an offset upwards. -/
def Consist.bytes (c : Consist) (d o n : Nat) : List Byte := Tab.range (Tab.get c.replicas [] d) 0 o n

/-- The version of a line that a member holds dirty. -/
def Consist.dirtyAt (c : Consist) (d o : Nat) : Option Nat := Tab.find (Tab.get c.dirty [] d) (o / 64)

/-- A line of a replica is poisoned, or there is, or has been, no member left (R370). -/
def Consist.poisonAt (c : Consist) (d o : Nat) : Bool := c.dies.isEmpty || c.dead || (Tab.get c.poison [] d).contains (o / 64)

/-! ### Loads (R172, R186, R187) -/

/-- A sector taken from a line, whole, so that no piece of it is torn (R181); the words that the bogie owns stay owned. -/
def Sector.merge (e : Sector) (line : Vec) (poison pref stream : Bool) : Sector :=
  { e with data := Tab.ofFn 0 0 32 fun i => BitVec.ofNat 8 (bits line (8 * (e.va % 64 + i) + 7) (8 * (e.va % 64 + i)))
           valid := BitVec.allOnes 32
           poison := poison
           pref := pref || e.pref
           stream := stream }

/-- A line leaves an L1: bytes that a PREF brought and no load read are counted (R189). -/
def Bogie.evict (b : Bogie) (ctx line : Nat) : Bogie :=
  let gone := b.l1.filter fun e => e.ctx == ctx && e.va / 64 == line
  let lone := gone.any (fun e => e.pref) && gone.all fun e => e.used == 0
  { b with l1 := b.l1.filter fun e => !(e.ctx == ctx && e.va / 64 == line)
           pfEvict := if lone then b.pfEvict + 1 else b.pfEvict }

/-- Room for a line in an L1 of 256 lines: of the streamed lines, or of all where there is none, a free choice leaves a full one (R71,
log 5). -/
def State.makeRoom (s : State) (g ctx line : Nat) : State :=
  let b := s.bogie g
  let lines := (b.l1.map fun e => (e.ctx, e.va / 64)).eraseDups
  if lines.contains (ctx, line) || decide (lines.length < 256) then s
  else
    let streamed := lines.filter fun k => b.l1.any fun e => e.stream && e.ctx == k.1 && e.va / 64 == k.2
    let from' := if streamed.isEmpty then lines else streamed
    let (i, s) := s.choose from'.length
    match from'[i]? with
    | some (c, k) => s.setBogie g (b.evict c k)
    | none => s

/-- A line that a core asks for: the bogie, the context and address, whether for a stalled load (0), a PREF (1) or a pref.far (2), whether
the caches may hold it, and whether it is streamed (R71). -/
structure Fetch where
  g      : Nat
  ctx    : Nat
  va     : Nat
  kind   : Nat := 0
  cached : Bool := true
  stream : Bool := false
  deriving DecidableEq, Repr

/-- A fetch as what a step at die d is about. -/
def Fetch.args (f : Fetch) (d n : Nat) : Args :=
  { g := f.g, c := f.ctx, va := f.va, d := d, n := n, m := f.kind + (if f.stream then 4 else 0), flag := f.cached }

/-- The fetch that a step is about. -/
def fetchOf (a : Args) : Fetch :=
  { g := a.g, ctx := a.c, va := a.va, kind := a.m % 4, cached := a.flag, stream := decide (4 ≤ a.m) }

/-- The die of the core that asks. -/
def Fetch.die (f : Fetch) : Nat := dieOf f.g

/-- A sector of a line put into the L1, or into what an uncached load reads for its own word alone. The line's poison is that of each
sector of it that the L1 holds (R298). A PREF brings the sectors that the L1 does not hold yet (R189). -/
def State.fillSector (s : State) (f : Fetch) (va : Nat) (line : Vec) (poison pref : Bool) : State :=
  let s := if f.cached then s.makeRoom f.g f.ctx (va / 64) else s
  let b := s.bogie f.g
  let old := (findSector (if f.cached then b.l1 else b.buf) f.ctx va).getD { ctx := f.ctx, va := va / 32 * 32 }
  let pref := pref && !(findSector b.l1 f.ctx va).isSome
  let new := old.merge line poison pref f.stream
  let put := fun (l : List Sector) =>
    ((l.filter fun e => !(e.ctx == f.ctx && e.va == va / 32 * 32)).map fun e => if e.ctx = f.ctx ∧ e.va / 64 = va / 64 then { e with poison := poison } else e) ++ [new]
  let brought := if pref then 32 else 0
  s.setBogie f.g (if f.cached then { b with l1 := put b.l1, pfBrought := b.pfBrought + BitVec.ofNat 64 brought } else { b with buf := put b.buf })

/-- An operation of the bogie that is not performed touches one of n bytes. -/
def Bogie.passing (b : Bogie) (va n : Nat) : Bool := b.transit.any fun t => (List.range n).any fun i => touches t.op (va + i)

/-- A line reaches its core: a stalled load's sector, both sectors for a PREF; the word tries again. Bytes that an own
operation is still to change are not taken: the load waits for it, and a PREF comes later (R173, R198). -/
def State.fillCore (s : State) (f : Fetch) (line : Vec) (poison : Bool) : State :=
  let b := s.bogie f.g
  match f.kind with
  | 0 =>
    let s := if b.passing (f.va / 32 * 32) 32 then s else s.fillSector f f.va line poison false
    s.setBogie f.g (s.bogie f.g).wake
  | 1 =>
    if poison then s
    else if b.passing (f.va / 64 * 64) 64 then
      s.add [{ ev := .loadFill, arg := { g := f.g, va := f.va, c := f.ctx, n := 1, m := if f.stream then 1 else 0 }, due := s.clock + 1 }]
    else (s.fillSector f (f.va / 64 * 64) line false true).fillSector f (f.va / 64 * 64 + 32) line false true
  | _ => s

/-- A line put into an RDC with the next fill count (R187); a full RDC of 32 MiB gives up its oldest line. -/
def Die.fillRdc (d : Die) (ctx va : Nat) (line : Vec) (poison : Bool) : Die :=
  let rest := d.rdc.filter fun e => !(e.ctx == ctx && e.va == va / 64 * 64)
  let rest := if 524288 ≤ rest.length then rest.tail else rest
  { d with rdcFills := d.rdcFills + 1
           rdc := rest ++ [{ ctx := ctx, va := va / 64 * 64, data := line, fill := d.rdcFills + 1, poison := poison }] }

/-- The die to which a query for a chained line goes from die d (R366): its nearest member, or the tail where the line is dirty there. -/
def Consist.server (c : Consist) (d o : Nat) : Option Nat :=
  (c.nearest d).map fun m => if (c.dirtyAt m o).isSome then c.tail else m

/-- The tail, while it joins, has not applied the copied line yet (R366, R368). -/
def Consist.notYet (c : Consist) (d o : Nat) : Bool := d == c.tail && d == c.joining && decide (c.copied ≤ o)

/-- Why a read that a dispatcher, an engine or firmware makes itself of an address waits (R350, R355-R357): its walk, or a line that the tail
has not applied, lets it wait where it is; at a die whose home it has reached it parks. -/
def State.readWaits (s : State) (ctx va : Nat) : Option (Option Nat) :=
  if s.restricting ctx va then some none
  else
    match s.leaf ctx va with
    | none => none
    | some l =>
      let c := s.consist ctx l.place
      let d := if l.cls = 3 then c.tail else l.home va
      if l.cls = 4 then none
      else if l.cls = 3 ∧ c.notYet d (l.chainOff va) then some none
      else if s.blocked d ctx va l then some (some d)
      else none

/-- The line of 64 bytes that holds an address as die d serves it, and its poison. -/
def State.lineFor (s : State) (ctx va : Nat) (l : Leaf) (d : Nat) : Vec × Bool :=
  if l.cls = 3 then
    let c := s.consist ctx l.place
    let o := l.chainOff va / 64 * 64
    (BitVec.ofNat 512 (natOfBytes (c.bytes ((c.server d o).getD d) o 64)), c.poisonAt ((c.server d o).getD d) o)
  else (s.lineAt l va, s.poisoned l va)

/-- The DATA of a line of die d reaches the core, by way of the RDC where that is another die (R172, R187, R298). -/
def State.dataArrive (s : State) (f : Fetch) (d : Nat) : State :=
  match s.leaf f.ctx f.va with
  | none => s.setBogie f.g (s.bogie f.g).wake
  | some l =>
    let (line, poison) := s.lineFor f.ctx f.va l d
    let s := if f.cached && d != f.die && !(f.kind != 0 && poison) then
        s.setDie f.die ((s.die f.die).fillRdc f.ctx f.va line poison)
      else s
    s.fillCore f line poison

/-- Die d answers a core's READ with DATA (R379). -/
def State.sendLine (s : State) (f : Fetch) (d : Nat) : State :=
  if d = f.die then s.dataArrive f d else s.post d epHome f.die f.ctx f.va 5 .loadFill (f.args d 5)

/-- A core's READ served at die d: the line's home, or, for a chained line, its nearest member, which asks the tail where the line is
dirty (R172, R366). A load may park there (R350). -/
def State.serveLine (s : State) (f : Fetch) (d : Nat) : State :=
  match s.leaf f.ctx f.va with
  | none => (s.noteWalk f.ctx f.va).setBogie f.g (s.bogie f.g).wake
  | some l =>
    let c := s.consist f.ctx l.place
    let x := if l.cls = 3 then (c.server d (l.chainOff f.va)).getD d else l.home f.va
    if x ≠ d then s.post d epHome x f.ctx f.va 1 (if l.cls = 3 ∧ x = c.tail then .tailQuery else .loadFill) (f.args x 4)
    else if s.blocked d f.ctx f.va l then
      s.park d { src := .task f.g 0, ctx := f.ctx, op := .load f.va (1 + f.kind) false }
    else (s.aliases d f.ctx f.va l false).sendLine f d

/-- TAIL_QUERY (R366, R368): a line that is dirty at the nearest member is served by the tail, which, while it joins, answers
once it has applied the copied line. -/
def tailQuery (a : Args) (s : State) : State :=
  match s.leaf a.c a.va with
  | none => s.setBogie a.g (s.bogie a.g).wake
  | some l =>
    if (s.consist a.c l.place).notYet a.d (l.chainOff a.va) then s.add [{ ev := .tailQuery, arg := a, due := s.clock + 1 }]
    else s.serveLine (fetchOf a) a.d

/-- A store or atomic of an agent touched the line and was performed after the RDC's fill of it, which the agent's loads may then see no
more (R173, R193, R198). -/
def wroteSince (written : List (Nat × Nat × Nat)) (e : RdcLine) : Bool :=
  written.any fun w => w.1 == e.ctx && w.2.1 == e.va && decide (e.fill ≤ w.2.2)

/-- The line of a die's RDC that is valid for an agent of that stamp and those writes (R187). -/
def Die.rdcHit (d : Die) (stamp : Nat) (written : List (Nat × Nat × Nat)) (ctx va : Nat) : Option RdcLine :=
  d.rdc.find? fun e => e.ctx == ctx && e.va == va / 64 * 64 && decide (stamp < e.fill) && !wroteSince written e

/-- A line asked for by a core (R172, R187): from the RDC where it holds the line since the core's last acquire, unless the line
has left it; else from the home, or the nearest member, by a READ. -/
def State.fetchLine (s : State) (f : Fetch) : State :=
  match s.leaf f.ctx f.va with
  | none => (s.noteWalk f.ctx f.va).setBogie f.g (s.bogie f.g).wake
  | some l =>
    let b := s.bogie f.g
    let home := if l.cls = 3 then (s.consist f.ctx l.place).nearest f.die else some (l.home f.va)
    match home with
    | none => s.fillCore f 0 true
    | some d =>
      if d = f.die then s.serveLine f d
      else
        let read := fun (s : State) => s.post f.die (epBogie f.g) d f.ctx f.va 1 .loadFill (f.args d 4)
        match (if f.cached then (s.die f.die).rdcHit b.stamp b.written f.ctx f.va else none) with
        | some e =>
          let (i, s) := s.choose 2
          if i = 0 then s.fillCore f e.data e.poison else read s
        | none => read s

/-! ### Requests that the witness makes once (R136, R186) -/

/-- The doubleword of an engine hart's mailbox at an offset of its block (R233). -/
def Hart.mailbox (h : Hart) (o : Nat) : Word :=
  if o = 0x40 then BitVec.ofNat 64 (h.state.toNat + h.ctx % 256 * 256) else if o = 0x48 then h.done else 0

/-- n bytes of a doubleword register, from byte o of it. -/
def subWord (w : Word) (o n : Nat) : Word := BitVec.ofNat 64 (w.toNat / 2 ^ (8 * (o % 8)) % 2 ^ (8 * n))

/-- The n bytes at an address of a device page (R349, R397, R333): link registers, an engine block, a notify region, which reads zero, or
host memory. -/
def State.deviceRead (s : State) (l : Leaf) (va n : Nat) : Word :=
  let off := va % pageBytes l.size
  match Tab.find s.devices l.frame with
  | some .links => subWord (s.linkReg true (off / 8 * 8)) off n
  | some (.engine die) => if 22 ≤ off / 256 then 0 else subWord ((s.hart die (off / 256)).mailbox (off % 256 / 8 * 8)) off n
  | some (.host base) => BitVec.ofNat 64 (natOfBytes (Tab.range s.hostMem unlisted (base + off) n))
  | _ => 0

/-- The home word of PAGEQ.h (R358). -/
def State.homeWord (s : State) (ctx va : Nat) : Word :=
  match s.leaf ctx va with
  | none => 0
  | some l =>
    if l.cls = 4 then 0
    else
      let d := if l.cls = 3 then ((s.consist ctx l.place).dies.head?).getD 0 else l.home va
      let x := s.die d
      let parked := (x.parked.filter fun q => q.ctx == ctx && opVa q.op / 65536 == va / 65536).length
      let poison := if l.cls = 3 then (s.consist ctx l.place).poisonAt d (l.chainOff va) else s.poisoned l va
      let syn := x.remap.any fun a => a.ctx == ctx && a.page == va / pageBytes l.size * pageBytes l.size
      let cow := if l.cls = 6 then (if s.breaking ctx va then 2 else 1) else 0
      BitVec.ofNat 64 (parked * 2 ^ 32 + (if poison then 128 else 0) + (if syn then 64 else 0) + cow * 16 +
        (if l.migr then 8 else 0) + (if l.present then 4 else 0) + 3)

/-- An ordinary load of an engine hart or an array fills the RDC of its die (R182, R187). -/
def State.refill (s : State) (d : Nat) (q : Req) (va : Nat) (l : Leaf) (sync : Bool) : State :=
  let x := s.srcDie q.src
  let bypass : Bool := match q.src with
    | .hart c h => (s.hart c h).await.any (·.bypass)
    | _ => false
  if sync ∨ d = x ∨ 8 ≤ x ∨ !cachedClass l.cls ∨ bypass then s
  else
    let (line, poison) := s.lineFor q.ctx va l d
    s.setDie x ((s.die x).fillRdc q.ctx va line poison)

/-- A load made at a home, by the witness (R186), an engine hart (R182) or another module: of n bytes. -/
def State.serveLoad (s : State) (d : Nat) (q : Req) (va n : Nat) (sync : Bool) : State :=
  match region va with
  | .peer c o =>
    match q.src with
    | .task g _ =>
      let g := peerBogie g c
      if (s.bogie g).boundaryPoison o then s.answer d q 0 0x10
      else
        (s.setBogie g ((s.bogie g).useFresh o n)).answer d q
          (BitVec.ofNat 64 (natOfBytes ((List.range n).map fun i => s.peerData g (o + i)))) 0
    | _ => s.answer d q 0 0x09
  | .engine die h off => s.answer d q (subWord ((s.hart die h).mailbox (off / 8 * 8)) off n) 0
  | .glob =>
    match s.leaf q.ctx va with
    | none => s.lost d q
    | some l =>
      let on := fun (x : Nat) => s.post d epHome x q.ctx va 1 .loadFill { d := x, req := q, n := 3 }
      if l.cls = 4 then s.answer d q (s.deviceRead l va n) 0
      else if l.cls = 3 then
        let c := s.consist q.ctx l.place
        let o := l.chainOff va
        let x := if c.dies.isEmpty then d else if sync then c.tail else (c.server d o).getD d
        if x ≠ d then on x
        else if c.notYet d o then s.add [{ ev := .loadFill, arg := { d := d, req := q, n := 3 }, due := s.clock + 1 }]
        else if s.blocked d q.ctx va l then s.park d q
        else if c.poisonAt d o then s.answer d q 0 0x10
        else ((s.aliases d q.ctx va l false).refill d q va l sync).answerData d q (c.bytes d o n)
      else if l.home va ≠ d then on (l.home va)
      else if s.blocked d q.ctx va l then s.park d q
      else if sync && s.dropsOwed d l va n then s.add [{ ev := .loadFill, arg := { d := d, req := q, n := 3 }, due := s.clock + 1 }]
      else if s.poisoned l va then s.answer d q 0 0x10
      else ((s.aliases d q.ctx va l false).refill d q va l sync).answerData d q (s.readBytes (l.phys va) n)
  | _ => s.answer d q 0 0x09

/-- n bytes of a global address as the home, or the tail of a chained page, has them: their place, and their poison. -/
def State.atHome (s : State) (ctx va n : Nat) : Option (List Byte × Bool) :=
  (s.leaf ctx va).bind fun l =>
    if l.cls = 4 then none
    else if l.cls = 3 then
      let c := s.consist ctx l.place
      some (c.bytes c.tail (l.chainOff va) n, c.poisonAt c.tail (l.chainOff va))
    else some (s.readBytes (l.phys va) n, s.poisoned l va)

/-- A request sent to another module with the next number of the series of its die and that module; 10 ms without an
acknowledgement end it (R409). -/
def State.sendRemote (s : State) (d va : Nat) (q : Req) : State :=
  let m := va / 2 ^ 46 % 1024
  let seq := Tab.get s.sentSeq 0 (d * 1024 + m)
  { s.add [{ ev := .remoteTimeout, arg := { d := d, m := m, n := seq.toNat }, due := s.clock + 17000000 }] with
    sentSeq := Tab.put s.sentSeq (d * 1024 + m) (seq + 1)
    remote := s.remote ++ [{ req := q, die := d, module := m, seq := seq, va := va, clock := s.clock }] }

/-- n bytes that are not memory's, as the unit that serves them has them: of a scratchpad of the task's coach, an engine block or a device
page; and their poison (R195, R233, R349). -/
def State.nearBytes (s : State) (q : Req) (va n : Nat) : Option (List Byte × Bool) :=
  let each := fun (f : Nat → Word) => (List.range n).map fun i => (f i).setWidth 8
  match region va, q.src with
  | .peer c o, .task g _ =>
    let p := peerBogie g c
    some ((List.range n).map (fun i => s.peerData p (o + i)), (List.range n).any fun i => (s.bogie p).boundaryPoison (o + i))
  | .engine die h off, _ => some (each fun i => subWord ((s.hart die h).mailbox ((off + i) / 8 * 8)) (off + i) 1, false)
  | .glob, _ => (s.leaf q.ctx va).bind fun l => if l.cls = 4 then some (each fun i => s.deviceRead l (va + i) 1, false) else none
  | _, _ => none

/-- CRING with its ring header read: the records not consumed, and the status byte of the first, which another module may hold (R231, R238).
DESIGN CHOICE: the status is 0 where no page holds that byte, and the byte itself where its line is poisoned (log 148). -/
def State.ringStatus (s : State) (d : Nat) (q : Req) (h : Vec) : State :=
  let n := (bits h 95 64 + 2 ^ 32 - bits h 127 96) % 2 ^ 32
  let a := bits h 63 0 + 32 * (bits h 127 96 % 2 ^ bits h 131 128)
  let status := match (s.nearBytes q a 1).orElse fun _ => s.atHome q.ctx a 1 with
    | some (b :: _, _) => if 0 < n then b.toNat else 0
    | _ => 0
  if 0 < n ∧ region a = .peerWindow then s.sendRemote (s.srcDie q.src) a { q with op := .cring a n }
  else s.answer d q (BitVec.ofNat 64 (status * 2 ^ 32 + n)) 0

/-- CRING where its ring header is served: at its home, at the tail of a chained page, or at the unit that holds it. -/
def State.serveRing (s : State) (d : Nat) (q : Req) (va : Nat) : State :=
  match s.nearBytes q va 64 with
  | some (_, true) => s.answer d q 0 0x10
  | some (l, _) => s.ringStatus d q (vecOf l)
  | none =>
    match s.leaf q.ctx va with
    | none => s.lost d q
    | some l =>
      let c := s.consist q.ctx l.place
      let x := if l.cls = 3 then (if c.dies.isEmpty then d else c.tail) else l.home va
      if x ≠ d then s.post d epHome x q.ctx va 1 .loadFill { d := x, req := q, n := 3 }
      else if l.cls = 3 ∧ c.notYet d (l.chainOff va) then s.add [{ ev := .loadFill, arg := { d := d, req := q, n := 3 }, due := s.clock + 1 }]
      else if s.blocked d q.ctx va l then s.park d q
      else
        match s.atHome q.ctx (va / 64 * 64) 64 with
        | none => s.lost d q
        | some (_, true) => s.answer d q 0 0x10
        | some (bytes, _) => (s.aliases d q.ctx va l false).ringStatus d q (vecOf bytes)

/-- The fetch for which a bogie's load stalls, by its TLB entry and the prefix of its word (R71, R175, R176). -/
def State.taskFetch (s : State) (g ctx va : Nat) : Option Fetch :=
  let b := s.bogie g
  (b.tlb.find? fun e => e.covers ctx va).map fun e =>
    let cpu := (b.stack.head?.map (·.cpu)).getD {}
    { g := g, ctx := ctx, va := va, cached := cachedClass e.cls && !modBypass cpu.pfx.mod, stream := cpu.streams }

/-- A request that reads, served at die d. A core's fetch that parked is its stalled load's (of 1 byte), a PREF (2) or a pref.far (3). -/
def State.serveRead (s : State) (d : Nat) (q : Req) : State :=
  match q.op with
  | .load va n sync =>
    match q.src, sync with
    | .task g _, false =>
      match s.taskFetch g q.ctx va with
      | some f => s.serveLine (if n = 1 then f else { f with kind := n - 1, cached := true, stream := false }) d
      | none => if n = 1 then s.setBogie g (s.bogie g).wake else s
    | _, _ => s.serveLoad d q va n sync
  | .cring va _ => s.serveRing d q va
  | .pageqHome va => (if (s.leaf q.ctx va).isSome then s else s.noteWalk q.ctx va).answer d q (s.homeWord q.ctx va) 0
  | _ => s

/-- The load for which a bogie stalls is the one at an address of a context. -/
def Bogie.stalledOn (b : Bogie) (ctx va : Nat) : Bool := b.phase == .stalled va && (b.stack.head?.map (·.ctx)) == some ctx

/-- LOAD_FILL (R172, R187, R298): a line for a stalled load (n 0), a PREF (1) or a pref.far (2) of bogie g, a request served where it
arrives (3), a core's READ there (4), or the DATA of one (5). -/
def loadFill (a : Args) (s : State) : State :=
  let b := s.bogie a.g
  match a.n with
  | 0 =>
    match (if b.stalledOn b.topCtx a.va then s.taskFetch a.g b.topCtx a.va else none) with
    | some f => s.fetchLine f
    | none => s
  | 3 => s.serveRead a.d a.req
  | 4 => s.serveLine (fetchOf a) a.d
  | 5 => if a.m % 4 = 0 ∧ !b.stalledOn a.c a.va then s else s.dataArrive (fetchOf a) a.d
  | n =>
    if b.tlb.any fun e => e.covers a.c a.va then s.fetchLine { g := a.g, ctx := a.c, va := a.va, kind := n, stream := a.m == 1 } else s

/-- HOME_STORE (R183, R193): a store arrives at its home; at a hub, a store to host memory. A store of the host in no context (R95) is
the PF driver's, at physical addresses of the die: it is how page tables come to memory (log 32). -/
def homeStore (d : Nat) (q : Req) (s : State) : State :=
  match q.op with
  | .store bytes _ _ _ =>
    if 8 ≤ d then
      ({ s with hostMem := bytes.foldl (fun (m : Tab Byte) (e : Nat × Byte) => Tab.set m unlisted e.1 e.2) s.hostMem }).answer d q 0 0
    else if q.src = .host ∧ 192 < q.ctx then bytes.foldl (fun (s : State) (e : Nat × Byte) => s.writeByte (memKey d (e.1 % 2 ^ 48)) e.2) s
    else s.serveStore d q bytes
  | _ => s

/-- ATOMIC_EXECUTE (R94, R197-R203): an atomic is executed at its home. -/
def atomicExecute (d : Nat) (q : Req) (s : State) : State :=
  match q.op with
  | .atomic va n fn x y _ _ => s.serveAtomic d q va n fn x y
  | _ => s

/-! ### Repair and replay (R350-R352) -/

/-- A request served at its home, whatever it is. -/
def State.serve (s : State) (d : Nat) (q : Req) : State :=
  match q.op with
  | .store bytes _ _ _ => s.serveStore d q bytes
  | .atomic va n fn x y _ _ => s.serveAtomic d q va n fn x y
  | .copy _ _ => s.add [{ ev := .copyAppend, arg := { d := d, req := q } }]
  | _ => s.serveRead d q

/-- The parked requests of n bytes of a context's addresses replayed in arrival order, each once (R350). -/
def State.replay (s : State) (d ctx va n : Nat) : State :=
  let x := s.die d
  let mine := fun (q : Req) => q.ctx == ctx && decide (va ≤ opVa q.op) && decide (opVa q.op < va + n)
  (x.parked.filter mine).foldl (fun s q => s.serve d q) (s.setDie d { x with parked := x.parked.filter fun q => !mine q })

/-- PARK_REPAIR (R350): F3 repairs what parked a unit's requests, if it can, and they are replayed. A page that is not present
is brought in to the frame that its leaf names (log 25); an empty pool is repaired when a frame is free; a migration or a break
under way replays them itself. -/
def parkRepair (d ctx va : Nat) (can : Bool) (s : State) : State :=
  if !(s.die d).holdsUnit ctx va then s
  else
    match s.leaf ctx va with
    | none => s.replay d ctx va 65536
    | some l =>
      if l.migr || s.breaking ctx va then s
      else if !l.present then
        if can then (s.writeLeaf l.key ({ l with present := true }.word true)).replay d ctx va 65536
        else s.add [{ ev := .unitPoison, arg := { d := d, c := ctx, va := va } }]
      else if (s.die d).reserve.isEmpty ∧ (l.cls = 6 ∨ s.ctxs.any fun e => e.2.snap.state == 2) then
        s.add [{ ev := .parkRepair, arg := { d := d, c := ctx, va := va }, due := s.clock + 1 }]
      else s.replay d ctx va 65536

/-- UNIT_POISON (R351): F3 cannot repair a unit: every line of it is poisoned, and the parked requests are replayed against
the poisoned lines. -/
def unitPoison (d ctx va : Nat) (s : State) : State :=
  match s.leaf ctx va with
  | none => s.replay d ctx va 65536
  | some l =>
    let s := if l.cls = 3 then
        let c := s.consist ctx l.place
        let lines := (List.range 1024).map (l.chainOff va / 64 + ·)
        s.setConsist ctx l.place { c with poison := c.dies.foldl (fun t m =>
          Tab.put t m (Tab.get t [] m ++ lines.filter fun k => !(Tab.get t [] m).contains k)) c.poison }
      else
        let lines := ((List.range 1024).map fun i => l.phys (va + 64 * i) / 64).filter fun k => !s.poison.contains k
        { s with poison := s.poison ++ lines }
    (s.writeLeaf l.key ({ l with present := true }.word true)).replay d ctx va 65536

/-- FAULT_QUEUE_RESEND (R350): a refused request is sent again. -/
def faultQueueResend (d : Nat) (q : Req) (s : State) : State := s.serve d q

/-- Frames of a die that no leaf, table, snapshot or page change names return to F3's reserve pool (R352, R418). -/
def State.returnFrames (s : State) (d : Nat) (l : List Nat) : State :=
  let used := s.usedSpans
  let free := l.filter fun f => !used.any fun e => decide (e.1 < memKey d (f * 65536) + 65536) && decide (memKey d (f * 65536) < e.1 + e.2)
  s.setDie d { s.die d with reserve := (s.die d).reserve ++ free }

/-- COW_COPY_DONE (R352): the page is copied to its new frame and becomes Private; the parked writes are replayed. The shared
frame stays with a snapshot that has not drained it, and returns to the pool once no leaf names it. -/
def cowCopyDone (d ctx page : Nat) (s : State) : State :=
  match s.pageOps.find? (fun o => o.kind == 4 && o.ctx == ctx && o.page == page), s.leaf ctx page with
  | some o, some l =>
    let n := pageBytes o.size
    let s := s.moveMem (memKey l.place (l.frame * 65536)) (memKey d (o.frame * 65536)) n
    let s := { s with pageOps := s.pageOps.filter fun p => p != o }
    let s := s.writeLeaf l.key ({ l with cls := 0, frame := o.frame, w := true }.word true)
    let s := (List.range (n / 65536)).foldl (fun s i =>
      match s.snapUnit ctx (page + 65536 * i) with
      | some u => if u.state = 0 && (s.ctx ctx).snap.advanced.contains d then s.putUnit ctx { u with state := 1, shared := true, copies := Tab.put u.copies d (l.frame + i) } else s
      | none => s) s
    (s.returnFrames l.place ((List.range (n / 65536)).map (l.frame + ·))).replay d ctx page n
  | _, _ => s

/-- MEMORY_UNCORRECTABLE_ERROR (R277, R295): an uncorrectable error in a dirty L2 line or in HBM poisons the line; in a clean
line, an RDC line or an instruction cache (n tells which) the line is invalidated and fetched again; in an array's tile or in a fragment of a
weight slot it poisons the tile or the fragment. The line of kind 4 is one of the replica that die d holds of a consist. -/
def memoryUncorrectableError (kind d where' n : Nat) (s : State) : State :=
  match kind % 5 with
  | 0 =>
    let k := memKey (d % 8) (where' * 64 % 2 ^ 48) / 64
    if s.poison.contains k then s else { s with poison := s.poison ++ [k] }
  | 1 =>
    let c := s.coach (d % 192)
    s.setCoach (d % 192) { c with tiles := Tab.put c.tiles (where' % 64) { Tab.get c.tiles {} (where' % 64) with poison := true } }
  | 2 =>
    let c := s.coach (d % 192)
    let w := Tab.get c.slots {} (where' % 16)
    if w.poison.contains (n % 1024) then s
    else s.setCoach (d % 192) { c with slots := Tab.put c.slots (where' % 16) { w with poison := w.poison ++ [n % 1024] } }
  | 4 =>
    let c := Tab.get s.consists {} (n % 12352)
    let k := where' % (c.units * 1024)
    if c.units = 0 ∨ !c.dies.contains (d % 8) ∨ (Tab.get c.poison [] (d % 8)).contains k then s
    else { s with consists := Tab.put s.consists (n % 12352) { c with poison := Tab.put c.poison (d % 8) (Tab.get c.poison [] (d % 8) ++ [k]) } }
  | _ =>
    match n % 3 with
    | 0 => s.setDie (d % 8) { s.die (d % 8) with rdc := dropAt (s.die (d % 8)).rdc where' }
    | 1 => s.setCoach (d % 192) { s.coach (d % 192) with icache := dropAt (s.coach (d % 192)).icache where' }
    | _ => s.setBogie (d % 1536) { s.bogie (d % 1536) with icache := dropAt (s.bogie (d % 1536)).icache where' }

/-- A record, or what R117 and R309 put in its place: its eight doublewords as one number. -/
def State.recordAt (s : State) (ctx va : Nat) : Option Vec :=
  if va % 64 ≠ 0 then none
  else
    match s.leaf ctx va with
    | none => none
    | some l =>
      if !l.rd ∨ l.cls = 4 then none
      else if l.cls = 3 then
        let c := s.consist ctx l.place
        if c.poisonAt c.tail (l.chainOff va) then none
        else some (BitVec.ofNat 512 (natOfBytes (c.bytes c.tail (l.chainOff va) 64)))
      else if s.poisoned l va then none
      else some (s.lineAt l va)

/-- Doubleword i of a record. -/
def dword (r : Vec) (i : Nat) : Word := r.extractLsb' (64 * i) 64

/-- What a read that was made at a home leaves there: the alias that it used (R353), or the walk that failed (R345). -/
def State.noteRead (s : State) (ctx va : Nat) : State :=
  match s.leaf ctx va with
  | some l => if l.cls = 4 then s else s.aliases (if l.cls = 3 then (s.consist ctx l.place).tail else l.home va) ctx va l false
  | none => s.noteWalk ctx va

/-- A read of a page that must be repaired parks at its home, so that F3 hears of it (R350); one that waits for a page in Restricting, or
for a line that its tail has not applied, only comes again. -/
def State.parkRead (s : State) (home : Option Nat) (q : Src) (ctx va : Nat) : State :=
  match home with
  | some d => if (s.die d).holdsUnit ctx va then s else s.park d { id := 0, src := q, ctx := ctx, op := .load va 1 false }
  | none => s

/-- The priority of a record's own, 0 where it cannot be read (R319). -/
def State.ownPrio (s : State) (ctx va : Nat) : Nat :=
  match s.recordAt ctx va with
  | some w => bits (dword w 0) 19 16
  | none => 0

/-- A TASK release sent to die d's dispatcher at the record's own priority, which is read now; while that read must wait it is sent
later (R319, R350): its context c, record va and argument n, of the maker of req. -/
def State.sendOwn (s : State) (a : Args) : State :=
  match s.readWaits a.c a.va with
  | some d => (s.parkRead d a.req.src a.c a.va).add [{ ev := .groupUpdate, arg := { a with m := 2 }, due := s.clock + 1 }]
  | none =>
    (s.noteRead a.c a.va).add [{ ev := .releaseAccept
                                 arg := { d := a.d, rel := { id := a.req.id, src := a.req.src, rel := { type := 1, prio := s.ownPrio a.c a.va, ctx := a.c, record := a.va, arg := BitVec.ofNat 32 a.n } } }
                                 lane := some (6000 + a.d, 0) }]

/-- HOME_STORE. -/
def execHomeStore (s : State) : Host.Outcome State Fault Refusal := .next (homeStore s.arg.d s.arg.req s)
/-- DROP_RECEIVED. -/
def execDropReceived (s : State) : Host.Outcome State Fault Refusal := .next (dropReceived s.arg s)
/-- LOAD_FILL. -/
def execLoadFill (s : State) : Host.Outcome State Fault Refusal := .next (loadFill s.arg s)
/-- ATOMIC_EXECUTE. -/
def execAtomicExecute (s : State) : Host.Outcome State Fault Refusal := .next (atomicExecute s.arg.d s.arg.req s)
/-- TAIL_QUERY. -/
def execTailQuery (s : State) : Host.Outcome State Fault Refusal := .next (tailQuery s.arg s)
/-- PARK_REPAIR: flag says whether F3 can repair the cause. -/
def execParkRepair (s : State) : Host.Outcome State Fault Refusal := .next (parkRepair s.arg.d s.arg.c s.arg.va s.arg.flag s)
/-- UNIT_POISON. -/
def execUnitPoison (s : State) : Host.Outcome State Fault Refusal := .next (unitPoison s.arg.d s.arg.c s.arg.va s)
/-- FAULT_QUEUE_RESEND. -/
def execFaultQueueResend (s : State) : Host.Outcome State Fault Refusal := .next (faultQueueResend s.arg.d s.arg.req s)
/-- COW_COPY_DONE. -/
def execCowCopyDone (s : State) : Host.Outcome State Fault Refusal := .next (cowCopyDone s.arg.d s.arg.c s.arg.va s)
/-- MEMORY_UNCORRECTABLE_ERROR: m is the kind, va the line, tile or slot. -/
def execMemoryUncorrectableError (s : State) : Host.Outcome State Fault Refusal := .next (memoryUncorrectableError s.arg.m s.arg.d s.arg.va s.arg.n s)

end Sys2Proof.Machine
end

