-- ==== Sys2Proof/Machine/Barrier.lean ====
section
/-! DEFINITION. Barriers (R209-R220), and what is held at a bogie until its next boundary (R171). -/

namespace Sys2Proof.Machine

/-! ### The object and its updates -/

/-- A barrier (R209); its phase is the lowest bit of flips. -/
structure Bar where
  code    : Nat := 0
  poison  : Bool := false
  expArr  : Nat := 0
  arrivals : Nat := 0
  expBytes : Nat := 0
  bytes   : Nat := 0
  flips   : Nat := 0
  deriving DecidableEq, Repr

/-- The barrier that 128 bits hold. -/
def barOf (n : BitVec 128) : Bar :=
  { code := bits n 127 120, poison := bit n 113, expArr := bits n 111 96, arrivals := bits n 95 80,
    expBytes := bits n 79 56, bytes := bits n 55 32, flips := bits n 31 0 }

/-- The 128 bits of a barrier. -/
def Bar.word (b : Bar) : BitVec 128 :=
  BitVec.ofNat 128 (b.code % 256 * 2 ^ 120 + (if b.poison then 2 ^ 113 else 0) + b.flips % 2 * 2 ^ 112 + b.expArr * 2 ^ 96 +
    b.arrivals * 2 ^ 80 + b.expBytes * 2 ^ 56 + b.bytes * 2 ^ 32 + b.flips)

/-- A combined update applied (R212). -/
def Bar.update (b : Bar) (u : Update) : Bar :=
  if b.poison then b
  else if u.code ≠ 0 then { b with poison := true, code := u.code.toNat }
  else if b.expBytes < b.bytes + u.bytes ∨ b.expArr < b.arrivals + u.arr then { b with poison := true, code := 0x0B }
  else
    let n := b.bytes + u.bytes
    let a := b.arrivals + u.arr
    if n = b.expBytes ∧ a = b.expArr ∧ (b.expBytes ≠ 0 ∨ b.expArr ≠ 0) then
      { b with flips := (b.flips + 1) % 2 ^ 32, bytes := 0, arrivals := 0, expBytes := 0 }
    else { b with bytes := n, arrivals := a }

/-- Updates of one clock as one (R211): sums, and the lowest poison code. -/
def joinUpdate (u v : Update) : Update :=
  { bytes := u.bytes + v.bytes, arr := u.arr + v.arr
    code := if u.code = 0 then v.code else if v.code = 0 then u.code else if u.code ≤ v.code then u.code else v.code }

/-- Where barrier k of a frame lies in the scratchpad (R209). -/
def Frame.barAt (f : Frame) (k : Nat) : Nat := f.sbase + f.hdr.scratch * 256 + 16 * k

/-- Barrier k of a frame. -/
def Bogie.bar (b : Bogie) (f : Frame) (k : Nat) : Bar := barOf (BitVec.ofNat 128 (natOfBytes (Tab.range b.scratch 0 (f.barAt k) 16)))

/-- Barrier k of a frame written by an effect that is not journalled. -/
def Bogie.putBar (b : Bogie) (f : Frame) (k : Nat) (x : Bar) : Bogie := b.scratchWrite (f.barAt k) (bytesOfNat 16 x.word.toNat)

/-- Barrier k written by the task's own word, which is journalled (R210). -/
def Bogie.ownBar (b : Bogie) (f : Frame) (k : Nat) (x : Bar) : Except Stop Bogie :=
  b.ownWrite (f.barAt k) (bytesOfNat 16 x.word.toNat)

/-! ### Handles (R213, R214) -/

/-- The handle of barrier k of a frame of bogie g. -/
def handleOf (g : Nat) (f : Frame) (k : Nat) : Word :=
  BitVec.ofNat 64 (f.ctx * 2 ^ 32 + f.tag.toNat * 2 ^ 24 + f.level * 2 ^ 20 + k * 2 ^ 16 + g)

/-- The context number, barrier index and bogie that a handle names. -/
def handleCtx (h : Word) : Nat := bits h 39 32
/-- See handleCtx. -/
def handleIndex (h : Word) : Nat := bits h 19 16
/-- See handleCtx. -/
def handleBogie (h : Word) : Nat := bits h 10 0

/-- A frame that a handle names by level, tag and declared barriers, and by a bogie that it stands on or has stood on. -/
def handleNames (h : Word) (f : Frame) : Bool :=
  f.bogies.contains (handleBogie h) && f.level == bits h 23 20 && f.tag.toNat == bits h 31 24 && decide (handleIndex h < f.hdr.barriers)

/-- The frame of a bogie that something is for: by handle the nearest to the top of the stack, else by its number; a frame
that drains takes data, and arrivals through a handle only from a stack (R214). -/
def Bogie.frameFor (b : Bogie) (who : Who) (data : Bool) : Option Frame :=
  let fits := fun (f : Frame) => match who with
    | .handle h => handleNames h f
    | .frame uid => f.uid == uid
  match b.stack.find? fits with
  | some f => some f
  | none => if data then (b.draining.find? fun x => fits x.frame).map (·.frame) else none

/-- The bogie that stands for bogie g: its replacement while it is closed and its stack has been moved (R141, R214). -/
def State.standIn (s : State) (g fuel : Nat) : Nat :=
  match fuel, (s.bogie g).quarantined with
  | n + 1, some r => if (s.bogie g).closed then s.standIn r n else g
  | _, _ => g

/-- The bogie that takes what is sent to bogie g: for a frame, the one that holds it, be it one to which a RESUME has moved it (R214). -/
def State.target (s : State) (who : Option Who) (g : Nat) : Nat :=
  match who with
  | none => s.standIn g 8
  | some w =>
    if ((s.bogie g).frameFor w true).isSome then g
    else
      match s.bogies.find? fun e => (e.2.frameFor w true).isSome with
      | some e => e.1
      | none => s.standIn g 8

/-- The frame that something held is for. -/
def Held.who (h : Held) : Option Who :=
  match h with
  | .deliver _ _ w _ _ _ => some w
  | .arrive w _ _ => some w
  | _ => none

/-- The bogie that takes what a handle names. -/
def State.redirect (s : State) (h : Word) : Nat := s.target (some (.handle h)) (handleBogie h)

/-! ### What is held (R171) -/

/-- An activation runs, or stands at a boundary that is not judged. -/
def Bogie.active (b : Bogie) : Bool :=
  match b.phase with
  | .running | .stalled _ | .boundary _ => true
  | _ => false

/-- Bytes put at physical offsets; a sector that they cover whole is poisoned no more (R296). -/
def Bogie.scratchPut (b : Bogie) (t : Tab Byte) : Bogie :=
  { b with
    scratch := t.foldl (fun (m : Tab Byte) (e : Nat × Byte) => Tab.set m 0 e.1 e.2) b.scratch
    spoison := b.spoison.filter fun k => !((List.range 32).all fun i => (Tab.find t (32 * k + i)).isSome)
    fresh := b.fresh.filter fun x => (Tab.find t x).isNone }

/-- n bytes from offset a have been written by one copy, or one MXST: a poisoned sector that it has covered whole is poisoned no more
(R296, log 130). The poisoned sectors, and what has been written of them. -/
def wipeSectors (x : List Nat × List Wipe) (maker a n : Nat) : List Nat × List Wipe :=
  ((sectorsOf a n).filter x.1.contains).foldl (fun (x : List Nat × List Wipe) k =>
    let (w, m) := wipe x.2 k maker
      ((List.range 32).foldl (fun (m : BitVec 64) i => if a ≤ 32 * k + i ∧ 32 * k + i < a + n then m ||| (1 <<< i) else m) 0)
    if m = 0xFFFFFFFF then (x.1.filter (· != k), w.filter fun x => x.at' != k) else (x.1, w)) x

/-- See wipeSectors. -/
def Bogie.wipeSectors (b : Bogie) (maker a n : Nat) : Bogie :=
  let x := Machine.wipeSectors (b.spoison, b.wiping) maker a n
  { b with spoison := x.1, wiping := x.2 }

/-- The number of a maker whose pieces of a sector count together: one copy's, or one MXST's (R296). -/
def wipeMaker (q : Src) : Option Nat :=
  match q with
  | .array _ k => some (176 + k)
  | q => copyMaker q

/-- A delivery's bytes applied; those that a copy brings are counted (R189). -/
def Bogie.deliver (b : Bogie) (a : Nat) (data : List Byte) (src : Src) : Bogie :=
  let b := b.scratchWrite a data
  match copyMaker src with
  | some c =>
    { b.wipeSectors c a data.length with
      pfBrought := b.pfBrought + BitVec.ofNat 64 data.length, fresh := b.fresh ++ (List.range data.length).map (a + ·) }
  | none =>
    match src with
    | .array _ k => b.wipeSectors (176 + k) a data.length
    | _ => b

/-- What one copy hart, or one array, has written of poisoned lines and sectors counts no longer: its packet, or its MXST, has ended
(R296, R298). -/
def State.endWipes (s : State) (maker : Nat) : State :=
  let keep := fun (l : List Wipe) => l.filter fun w => w.by' != maker
  { s with wiping := keep s.wiping
           bogies := Tab.mapVals s.bogies fun b => { b with wiping := keep b.wiping }
           ctxs := Tab.mapVals s.ctxs fun c => { c with saved := Tab.mapVals c.saved fun v => { v with
             frames := v.frames.map fun f => { f with wiping := keep f.wiping } } }
           consists := Tab.mapVals s.consists fun c => { c with wiping := keep c.wiping } }

/-- An update that waits to be joined with those of its clock: the barrier's frame, its index, and the context and handle
that the log would tell. -/
structure BarUpdate where
  uid : Nat
  k   : Nat
  u   : Update

/-- Updates joined by their barrier, in the order in which the barriers were first met (R211). -/
def joinUpdates (l : List BarUpdate) : List BarUpdate :=
  l.foldl (fun (acc : List BarUpdate) x =>
    if acc.any (fun y => y.uid == x.uid && y.k == x.k) then
      acc.map fun y => if y.uid == x.uid && y.k == x.k then { y with u := joinUpdate y.u x.u } else y
    else acc ++ [x]) []

/-- The frame of a save slot that something is for (R214), by handle or by its number. -/
def State.savedFor (s : State) (who : Who) : Option SavedFrame :=
  match who with
  | .handle h => (s.ctx (handleCtx h)).saved.findSome? fun v => v.2.frames.find? fun f => handleNames h f.frame
  | .frame uid => s.ctxs.findSome? fun c => c.2.saved.findSome? fun v => v.2.frames.find? fun f => f.frame.uid == uid

/-- Bytes put into the saved scratchpad of a frame at an offset; a sector that they cover whole, or their maker has by now, is poisoned no
more (R296). -/
def SavedFrame.putBytes (f : SavedFrame) (maker : Option Nat) (o : Nat) (l : List Byte) : SavedFrame :=
  let poison := f.poison.filter fun k => !(decide (o ≤ 32 * k) && decide (32 * k + 32 ≤ o + l.length))
  let x := match maker with
    | some m => wipeSectors (poison, f.wiping) m o l.length
    | none => (poison, f.wiping)
  { f with scratch := f.scratch.take o ++ l ++ f.scratch.drop (o + l.length), poison := x.1, wiping := x.2 }

/-- The saved frame of a number changed. -/
def State.mapSaved (s : State) (uid : Nat) (fn : SavedFrame → SavedFrame) : State :=
  { s with ctxs := Tab.mapVals s.ctxs fun c => { c with saved := Tab.mapVals c.saved fun v => { v with
      frames := v.frames.map fun f => if f.frame.uid = uid then fn f else f } } }

/-- A joined update applied to the barrier of a frame on the stack or draining, or of a frame in a save slot. -/
def State.applyUpdate (s : State) (g : Nat) (x : BarUpdate) : State :=
  let b := s.bogie g
  match b.frameFor (.frame x.uid) true with
  | some f => s.setBogie g (b.putBar f x.k ((b.bar f x.k).update x.u))
  | none =>
    s.mapSaved x.uid fun f =>
      let o := f.frame.hdr.scratch * 256 + 16 * x.k
      let bar := barOf (BitVec.ofNat 128 (natOfBytes ((f.scratch.drop o).take 16)))
      f.putBytes none o (bytesOfNat 16 (bar.update x.u).word.toNat)

/-- An arrival that finds no frame is dropped, and F4 logs it (R214). -/
def State.dropArrival (s : State) (who : Who) : State :=
  match who with
  | .handle h => { s with errlog := s.errlog ++ [{ code := 0, ctx := handleCtx h, addr := h.toNat }] }
  | .frame _ => s

/-- A matrix command reads or writes the tiles or the scratchpad of its frame (R123): all but an MXLDB from global memory. -/
def inFrame (o : MxOp) : Bool :=
  match o with
  | .ldb _ _ _ src _ =>
    match region src.toNat with
    | .own _ _ => true
    | _ => false
  | _ => true

/-- A matrix command's, an AMOA's or a copy's delivery to a frame that drains is no longer owed (R123). -/
def Bogie.pay (b : Bogie) (uid : Nat) : Bogie := { b with owed := b.owed.erase uid }

/-- A copy command on its way writes the scratchpad of a frame: it names the frame's barrier for its bytes, or is a COPYM, whose handles
memory holds (R224). -/
def copiesInto (f : Frame) (o : Op) : Bool :=
  match o with
  | .copy _ p => bits p 7 0 == 3 || (bit p 8 && handleNames (p.extractLsb' 256 64) f && handleCtx (p.extractLsb' 256 64) == f.ctx)
  | _ => false

/-- Something of a frame is still to be completed: a command or AMOA delivery that it is owed, or a copy into its scratchpad, be its
command only on its way (R123). -/
def State.holdsFrame (s : State) (g : Nat) (f : Frame) : Bool :=
  (s.bogie g).owed.contains f.uid || s.copies.any (fun c => c.data && c.uid == f.uid) ||
    (s.bogie g).transit.any fun t => t.uid == f.uid && copiesInto f t.op

/-- A draining frame for which nothing is outstanding gives up its holdings. -/
def State.checkDrain (s : State) (g uid : Nat) : State :=
  if (s.bogie g).draining.any fun x => x.frame.uid == uid && !s.holdsFrame g x.frame then
    s.add [{ ev := .frameDrainEnd, arg := { g := g, n := uid } }]
  else s

/-- The same of the bogie on which a frame of that number drains, whichever that is. -/
def State.checkDrains (s : State) (uid : Nat) : State :=
  match s.bogies.find? fun e => e.2.draining.any fun x => x.frame.uid == uid with
  | some e => s.checkDrain e.1 uid
  | none => s

/-- One held thing applied; the updates that it makes are joined later (R171, R211). A delivery that is dropped is answered with the value 1,
so that its bytes are not counted (R231, R237). A store or atomic through the peer region reaches no
barrier area (R109, R209, log 135). -/
def State.applyHeld (s : State) (g : Nat) (ups : List BarUpdate) (h : Held) : State × List BarUpdate :=
  let b := s.bogie g
  match h with
  | .peer id src bytes =>
    let s := s.setBogie g (b.scratchPut (bytes.filter fun e => !b.inArea e.1))
    (if id = 0 then s else s.answer (dieOf g) { id := id, src := src, op := .fence } 0 0, ups)
  | .deliver id src who off data bar =>
    let tell := fun (s : State) (lost : Word) => if id = 0 then s else s.answer (dieOf g) { id := id, src := src, op := .fence } lost 0
    match b.frameFor who true with
    | some f =>
      let s := s.setBogie g (b.deliver (f.sbase + off) data src)
      let s := match who with
        | .frame uid => if src = .firmware then (s.setBogie g ((s.bogie g).pay uid)).checkDrain g uid else s
        | _ => s
      (tell s 0, match bar with
        | some (k, u) => ups ++ [{ uid := f.uid, k := k, u := u }]
        | none => ups)
    | none =>
      match s.savedFor who with
      | some f =>
        (tell (s.mapSaved f.frame.uid fun f => f.putBytes (wipeMaker src) off data) 0, match bar with
          | some (k, u) => ups ++ [{ uid := f.frame.uid, k := k, u := u }]
          | none => ups)
      | none => (tell (s.dropArrival who) 1, ups)
  | .arrive who k u =>
    match b.frameFor who false with
    | some f => (s, ups ++ [{ uid := f.uid, k := k, u := u }])
    | none =>
      match s.savedFor who with
      | some f => (s, ups ++ [{ uid := f.frame.uid, k := k, u := u }])
      | none => (s.dropArrival who, ups)
  | .atomic q off =>
    match q.op with
    | .atomic _ n fn x y _ _ =>
      if b.inArea off then
        (s.atomicDone (dieOf g) q (natOfBytes ((List.range n).map fun i => s.peerData g (off + i))) 0, ups)
      else if b.boundaryPoison off then (s.atomicDone (dieOf g) q 0 0x10, ups)
      else
        let old := natOfBytes (Tab.range b.scratch 0 off n)
        let s := s.setBogie g (b.scratchWrite off (bytesOfNat n (atomNew fn n old x y)))
        (s.atomicDone (dieOf g) q old 0, ups)
    | _ => (s, ups)
  | .scale id src entry recs =>
    let s := s.setBogie g { b with scale := ((List.range recs.length).zip recs).foldl (fun t e => Tab.set t 0 ((entry + e.1) % 1024) e.2) b.scale }
    (if id = 0 then s else s.answer (dieOf g) { id := id, src := src, op := .fence } 0 0, ups)

/-- What reached the bogie in one clock applied: the bytes in arrival order, then each barrier's combined update. -/
def State.applyClock (s : State) (g : Nat) (l : List Held) : State :=
  let r := l.foldl (fun (r : State × List BarUpdate) h => r.1.applyHeld g r.2 h) (s, [])
  (joinUpdates r.2).foldl (fun s x => s.applyUpdate g x) r.1

/-- The status of a BWAIT on barrier k for phase p, if it completes now (R215). -/
def Bar.waitStatus (x : Bar) (p : Bool) : Option Nat :=
  if x.poison then some x.code else if (x.flips % 2 == 1) = p then some 0 else none

/-- The witness tries the BWAIT of the frame on top, once it has been made (R215, R216). -/
def State.checkBwait (s : State) (g : Nat) : State :=
  let b := s.bogie g
  match b.stack, b.phase with
  | f :: r, .waiting =>
    match f.await with
    | some a =>
      match a.op with
      | .bwait k p =>
        if a.started ∧ a.reply.isNone then
          match (b.bar f k).waitStatus p with
          | some n =>
            (s.setBogie g { b with stack := { f with await := some { a with reply := some (.ok (BitVec.ofNat 64 n)) } } :: r }).add
              [{ ev := .triggerDelivery, arg := { g := g } }]
          | none => s
        else s
      | _ => s
    | none => s
  | _, _ => s

/-- A record for the scale file. -/
def isScale (h : Held) : Bool :=
  match h with
  | .scale _ _ _ _ => true
  | _ => false

/-- Some matrix command that the bogie committed has not finished reading its scale file (R272). -/
def State.scaleBusy (s : State) (g : Nat) : Bool :=
  let x := s.coach (coachOf g)
  ((s.bogie g).transit.any fun t => match t.op with
    | .matrix _ => true
    | _ => false) || x.fifos.any (fun e => e.2.any fun c => c.g == g) || x.shadow.any fun e => e.2.cmd.g == g

/-- Everything held that reached the bogie before the present clock applied, clock by clock (R171, R211); a record for the scale file
waits for the matrix commands that read it (R272). Where no activation runs, a BWAIT is tried after the updates of each clock (R215, R220). -/
def State.releaseHeld (s : State) (g : Nat) (watch : Bool := false) : State :=
  let b := s.bogie g
  let busy := s.scaleBusy g
  let goes := fun (e : Nat × Held) => decide (e.1 < s.clock) && !(busy && isScale e.2)
  let now := b.held.filter goes
  let s := s.setBogie g { b with held := b.held.filter fun e => !goes e }
  let clocks := (now.map (·.1)).eraseDups
  let s := clocks.foldl (fun s c =>
    let s := s.applyClock g ((now.filter fun e => e.1 == c).map (·.2))
    if watch then s.checkBwait g else s) s
  if (s.bogie g).held.isEmpty then s
  else s.add [{ ev := .barrierUpdate, arg := { g := g }, due := s.clock + 1 }]

/-- HELD_WRITE_ARRIVAL (R171): something reaches a bogie from outside; while no activation runs it is applied, as one with
what else reaches it in the clock. -/
def heldWriteArrival (g : Nat) (l : List Held) (s : State) : State :=
  l.foldl (fun (s : State) (h : Held) =>
    let g := s.target (Held.who h) g
    let b := s.bogie g
    let s := s.setBogie g { b with held := b.held ++ [(s.clock, h)] }
    if b.active then s else s.add [{ ev := .barrierUpdate, arg := { g := g }, due := s.clock + 1 }]) s

/-- HANDLE_ARRIVAL (R214): an arrival through a handle reaches the bogie that the handle names, and the sender's request is
performed. -/
def handleArrival (g : Nat) (q : Req) (s : State) : State :=
  match q.op with
  | .arrive h u => (heldWriteArrival g [.arrive (.handle h) (handleIndex h) u] s).answer (dieOf g) q 0 0
  | _ => s

/-- BARRIER_UPDATE (R211, R212, R215): the updates of one clock are applied to a bogie that runs no activation; at a bogie that
runs one they stay held for its boundary. -/
def barrierUpdate (g : Nat) (s : State) : State :=
  if (s.bogie g).active then s else (s.releaseHeld g true).checkBwait g

/-- HELD_WRITE_ARRIVAL. -/
def execHeldWriteArrival (s : State) : Host.Outcome State Fault Refusal :=
  .next (heldWriteArrival s.arg.g s.arg.held s)
/-- HANDLE_ARRIVAL. -/
def execHandleArrival (s : State) : Host.Outcome State Fault Refusal := .next (handleArrival s.arg.g s.arg.req s)
/-- BARRIER_UPDATE. -/
def execBarrierUpdate (s : State) : Host.Outcome State Fault Refusal := .next (barrierUpdate s.arg.g s)

/-! ### The words (R218, R219) -/

/-- BINIT (R219). -/
def execBinit (d a : BitVec 5) (k : BitVec 4) (s : State) : Host.Outcome State Fault Refusal :=
  taskWord (.binit d a k) (fun _ g b f => do
    let x := f.getX a
    let b' ← b.ownBar f k.toNat { expArr := bits x 15 0, expBytes := bits x 39 16 }
    b'.go (f.setX d (handleOf g f k.toNat))) s

/-- BEXPECT (R219). -/
def execBexpect (a : BitVec 5) (k : BitVec 4) (s : State) : Host.Outcome State Fault Refusal :=
  taskWord (.bexpect a k) (fun _ _ b f => do
    let x := b.bar f k.toNat
    let n := (f.getX a).toNat
    if x.poison then b.go f
    else if 2 ^ 24 - 1 < x.expBytes + n then .error (.fault 0x0B 0 (n % 2 ^ 32))
    else
      let b' ← b.ownBar f k.toNat { x with expBytes := x.expBytes + n }
      b'.go f) s

/-- BARRIVE, local (R219). -/
def execBarrive (k : BitVec 4) (s : State) : Host.Outcome State Fault Refusal :=
  taskWord (.barrive k) (fun _ _ b f => do
    let b' ← b.ownBar f k.toNat ((b.bar f k.toNat).update { arr := 1 })
    b'.go f) s

/-- BARRIVE through a handle (R219). -/
def execBarriveH (a : BitVec 5) (s : State) : Host.Outcome State Fault Refusal :=
  taskWord (.barriveH a) (fun _ _ b f => do
    let h := f.getX a
    if bits h 63 40 ≠ 0 ∨ bits h 15 11 ≠ 0 ∨ 1535 < handleBogie h ∨ handleCtx h ≠ f.ctx then
      .error (.fault 0x0A h.toNat (handleIndex h))
    let b' ← b.send [.arrive h { arr := 1 }]
    b'.go f) s

/-- BWAIT (R219): the activation ends, and the status comes as the next triggering message. -/
def execBwait (d a : BitVec 5) (k : BitVec 4) (s : State) : Host.Outcome State Fault Refusal :=
  taskWord (.bwait d a k) (fun _ g b f =>
    b.awaiting g f { op := .bwait k.toNat (bit (f.getX a) 0), dest := d, acquire := true } false) s

/-- BTEST (R219). -/
def execBtest (d : BitVec 5) (h : BitVec 1) (k : BitVec 4) (s : State) : Host.Outcome State Fault Refusal :=
  taskWord (.btest d h k) (fun _ _ b f =>
    let w := (b.bar f k.toNat).word
    b.go (f.setX d (if h = 0 then w.extractLsb' 0 64 else w.extractLsb' 64 64))) s

/-- BPOISON (R219). -/
def execBpoison (c : BitVec 8) (k : BitVec 4) (s : State) : Host.Outcome State Fault Refusal :=
  taskWord (.bpoison c k) (fun _ _ b f => do
    let x := b.bar f k.toNat
    if x.poison then b.go f
    else
      let b' ← b.ownBar f k.toNat { x with poison := true, code := c.toNat }
      b'.go f) s

end Sys2Proof.Machine
end

