-- ==== Sys2Proof/Machine/Consist.lean ====
section
/-! DEFINITION. Consists (R359-R375): creating and destroying them, stores and atomics along the chain, and re-linking. -/

namespace Sys2Proof.Machine

/-! ### Firmware's stores -/

/-- A store that firmware sends from the active hub to a context's memory, with a number by which what waits for it knows its answer, or 0
where nothing waits (R386). -/
def State.fwSend (s : State) (id ctx va : Nat) (l : List Byte) : State :=
  let q : Req := { id := id, src := .firmware, ctx := ctx, op := .store (placed va l) true false none }
  match s.leaf ctx va with
  | none => s.lost s.hub q
  | some f =>
    if f.cls = 3 then s.toHead s.hub epUnit q f
    else if f.cls = 4 then s.deviceStore s.hub epUnit q f (placed va l)
    else s.post s.hub epUnit (f.home va) ctx va (writeSlots (placed va l)) .homeStore { d := f.home va, req := q }

/-- A store that firmware makes in a context's memory; nothing waits for it. -/
def State.fwStore (s : State) (ctx va : Nat) (l : List Byte) : State := s.fwSend 0 ctx va l

/-- The next of firmware's stores sent, or, once all of them are performed, what follows them. -/
def State.fwStep (s : State) (w : FwWork) : State :=
  match w.stores with
  | [] => s.add w.after
  | (va, l) :: rest =>
    let (id, s) := s.newId
    State.fwSend { s with fwork := s.fwork ++ [{ w with id := id, stores := rest }] } id w.ctx va l

/-- Stores of firmware in a context's memory, each a release store, and what follows them (R313, R338). -/
def State.fwStores (s : State) (ctx : Nat) (l : List (Nat × List Byte)) (after : List Happening) : State :=
  s.fwStep { ctx := ctx, stores := l, after := after }

/-- What the answer to a store of firmware lets go on, none where it is not one of these. -/
def State.fwNext (s : State) (id : Nat) : Option State :=
  (s.fwork.find? fun w => w.id == id).map fun w => State.fwStep { s with fwork := s.fwork.filter fun x => x.id != id } w

/-- The outcome of a translation or consist request written to its done doubleword (R354, R359); done is an address of the
request's context (log 26). -/
def State.writeDone (s : State) (r : BitVec 256) (outcome : Nat) : State :=
  s.fwStore (bits r 23 16) (bits r 255 192) (bytesOfNat 8 outcome)

/-! ### The table and the words (R360, R374) -/

/-- The CQUERY word (R374); a Free consist returns 0. -/
def Consist.word (c : Consist) : Word :=
  if c.state = 0 then 0
  else
    let dies := (List.range 8).foldl (fun n k => n + ((c.dies[k]?).getD 15) * 16 ^ k) 0
    BitVec.ofNat 64 (dies * 2 ^ 32 + c.gen.toNat % 2 ^ 16 * 2 ^ 16 + c.joining * 2 ^ 12 + c.leaving * 2 ^ 8 +
      c.dies.length * 2 ^ 4 + c.state)

/-- What CQUERY.g returns (R374). -/
def Consist.genWord (c : Consist) : Word := if c.state = 0 then 0 else BitVec.ofNat 64 (c.units * 2 ^ 32 + c.gen.toNat)

/-- A consist changed, and its entry of the mirror table written (R360). -/
def State.putConsist (s : State) (ctx k : Nat) (c : Consist) : State :=
  let s := s.setConsist ctx k c
  s.fwStore ctx ((s.ctx ctx).consistBase.toNat + 32 * k)
    (bytesOfNat 32 (c.word.toNat + c.gen.toNat * 2 ^ 64 + c.units * 2 ^ 96))

/-- The free 64 KiB units of a die (R359): its memory less the pending store's 1 MiB (R321), what its consists hold, and the ranges
in use. -/
def State.freeUnits (s : State) (d : Nat) : Nat :=
  let used := (s.usedSpans.filter fun e => e.1 / 2 ^ 48 == d).foldl (fun n e => n + e.2) 0
  ((s.die d).memory - (2 ^ 20 + (s.die d).alloc * 65536 + used)) / 65536

/-- Units of a die's memory taken or returned. -/
def State.useUnits (s : State) (d n : Nat) (take : Bool) : State :=
  let x := s.die d
  s.setDie d { x with alloc := if take then x.alloc + n else x.alloc - n }

/-! ### CREATE and DESTROY (R359) -/

/-- The request names this context and consist and breaks no field rule (R359). -/
def consistFields (s : State) (r : BitVec 256) : Bool :=
  bit s.sys.accept 1 && bits r 95 24 == 0 && bits r 191 160 == 0 && bits r 5 4 == 0 && decide (bits r 23 16 ≤ 192) &&
    decide (bits r 255 192 % 8 = 0) && (s.ctx (bits r 23 16)).state != 0 && (s.ctx (bits r 23 16)).state != 6

/-- CONSIST_CREATE (R359, R371). -/
def consistCreate (r : BitVec 256) (s : State) : State :=
  let ctx := bits r 23 16
  let k := bits r 11 6
  let len := bits r 15 12
  let units := bits r 159 128
  let entry := fun i => bits r (99 + 4 * i) (96 + 4 * i)
  let dies := (List.range len).map entry
  if consistFields s r && bits r 3 0 == 1 && decide (2 ≤ len) && decide (len ≤ 8) && decide (1 ≤ units) && decide (units ≤ 65536) &&
      (s.consist ctx k).state == 0 && dies.all (fun d => decide (d ≤ 7)) && decide dies.Nodup &&
      (List.range 8).all (fun i => decide (i < len) || entry i == 15) && dies.all (fun d => decide (units ≤ s.freeUnits d)) then
    let s := dies.foldl (fun s d => s.useUnits d units true) s
    (s.putConsist ctx k { state := 1, dies := dies, units := units }).writeDone r 1
  else s.writeDone r 2

/-- A valid leaf of the context names the consist (R359). -/
def State.namesConsist (s : State) (ctx k : Nat) : Bool := (s.leaves ctx).any fun l => l.cls == 3 && l.place == k

/-- A consist is Free again, and its replicas return to F3. -/
def State.freeConsist (s : State) (ctx k : Nat) : State :=
  let c := s.consist ctx k
  let held := c.dies ++ (if c.joining < 8 ∧ !c.dies.contains c.joining then [c.joining] else [])
  (held.foldl (fun s d => s.useUnits d c.units false) s).putConsist ctx k {}

/-- CONSIST_DESTROY (R359, R371). -/
def consistDestroy (r : BitVec 256) (s : State) : State :=
  let ctx := bits r 23 16
  let k := bits r 11 6
  let c := s.consist ctx k
  if consistFields s r && bits r 3 0 == 2 && c.state != 0 && c.state != 2 &&
      !s.namesConsist ctx k then
    (s.freeConsist ctx k).writeDone r 1
  else s.writeDone r 2

/-! ### Stores and atomics along the chain (R362-R365) -/

/-- The die after a member, and the die before it. -/
def Consist.next (c : Consist) (d : Nat) : Option Nat :=
  match c.dies.findIdx? (· == d) with
  | some i => c.dies[i + 1]?
  | none => none
/-- See Consist.next. -/
def Consist.prev (c : Consist) (d : Nat) : Option Nat :=
  match c.dies.findIdx? (· == d) with
  | some (i + 1) => c.dies[i]?
  | _ => none

/-- The version after one, modulo 2^64 (R362). -/
def nextVersion (v : Nat) : Nat := (v + 1) % 2 ^ 64
/-- Version a is b or an earlier one, as they are counted modulo 2^64 (R362, log 122). -/
def verLe (a b : Nat) : Bool := decide ((b + 2 ^ 64 - a) % 2 ^ 64 < 2 ^ 63)

/-- Bytes written to line k of member d's replica: it is poisoned no more once a store, or a copy, has covered it whole (R298). -/
def Consist.wipeLine (c : Consist) (q : Src) (d k : Nat) (mask : BitVec 64) : Consist :=
  let (w, m) := match copyMaker q with
    | some h => wipe c.wiping (k * 8 + d) h mask
    | none => (c.wiping, mask)
  if m = BitVec.allOnes 64 then
    { c with poison := Tab.put c.poison d ((Tab.get c.poison [] d).filter (· != k)), wiping := w.filter fun x => x.at' != k * 8 + d }
  else { c with wiping := w }

/-- Bytes of a maker, by their offsets in the region, applied to a member's replica with a version; the line is dirty but at the tail. -/
def Consist.put (c : Consist) (q : Src) (d v : Nat) (bytes : Tab Byte) (clean : Bool) : Consist :=
  let r := bytes.foldl (fun (t : Tab Byte) (e : Nat × Byte) => Tab.set t 0 e.1 e.2) (Tab.get c.replicas [] d)
  let lines := (bytes.map fun e => e.1 / 64).eraseDups
  let dt := lines.foldl (fun t k => if clean then Tab.del t k else Tab.put t k v) (Tab.get c.dirty [] d)
  let c := (lines.filter (Tab.get c.poison [] d).contains).foldl (fun c k => c.wipeLine q d k
    (bytes.foldl (fun (m : BitVec 64) e => if e.1 / 64 = k then m ||| (1 <<< (e.1 % 64)) else m) 0)) c
  { c with replicas := Tab.put c.replicas d r, dirty := Tab.put c.dirty d dt
           applied := Tab.put c.applied d (if verLe v (Tab.get c.applied 0 d) then Tab.get c.applied 0 d else v) }

/-- The lines of bytes, by their offsets, made poison in a member's replica; what copies have written of them counts no more (R298). -/
def Consist.taint (c : Consist) (d : Nat) (bytes : Tab Byte) : Consist :=
  let old := Tab.get c.poison [] d
  let lines := (bytes.map fun e => e.1 / 64).eraseDups
  { c with poison := Tab.put c.poison d (old ++ lines.filter fun k => !old.contains k)
           wiping := c.wiping.filter fun w => !lines.any fun k => w.at' == k * 8 + d }

/-- The bytes of a numbered store applied at a member, poison where the store says so. -/
def Consist.apply (c : Consist) (d v : Nat) (q : Req) (bytes : Tab Byte) : Consist :=
  let c' := c.put q.src d v bytes (c.next d).isNone
  if poisons q.op then c'.taint d bytes else c'

/-- The bytes of a chained store by their offsets in the region. -/
def chainBytes (l : Leaf) (bytes : Tab Byte) : Tab Byte := bytes.map fun e => (l.chainOff e.1, e.2)

/-- A copy of a Pending chained unit taken at die d for a snapshot's image (R416); none where the pool is empty. -/
def State.copyChained (s : State) (d ctx : Nat) (c : Consist) (o : Nat) (u : SnapUnit) : Option State :=
  match takeFrames (s.die d).reserve 1 with
  | none => none
  | some (f, pool) =>
    let k := memKey d (f * 65536)
    let s := s.setDie d { s.die d with reserve := pool }
    let s := s.writeBytes k (c.bytes d o 65536)
    let s := { s with poison := s.poison.filter (fun e => !(k / 64 ≤ e && e < k / 64 + 1024)) ++
      ((List.range 1024).filter fun i => c.poisonAt d (o + 64 * i)).map (k / 64 + ·) }
    some (s.putUnit ctx { u with state := 1, copies := Tab.put u.copies d f })

/-- What a write to a chained unit does first at the tail for a snapshot's image, under every address that maps the unit (R353, R415, R416);
none where the pool is empty and the write waits. -/
def State.chainGuard (s : State) (d ctx va : Nat) (l : Leaf) : Option State :=
  let sn := (s.ctx ctx).snap
  let o := l.chainOff va / 65536 * 65536
  if sn.state ≠ 2 ∨ !sn.advanced.contains d then some s
  else
    (sn.units.filter fun u => u.state == 0 && (s.leaf ctx u.va).any fun m => m.cls == 3 && m.place == l.place && m.chainOff u.va == o).foldl
      (fun (r : Option State) u => r.bind fun s => s.copyChained d ctx (s.consist ctx l.place) o u) (some s)

/-- The mark that a numbered store which waits for the reserve pool leaves in the fault queue of the tail: it counts for PAGEQ and makes later
requests of its unit park behind it (R350, R416). -/
def chainMark (ctx va : Nat) : Req := { id := 0, src := .firmware, ctx := ctx, op := .pageqHome (va / 65536 * 65536) }

/-- A numbered store parks at the tail: it is looked at again, or, where the fault queue is full, no sooner than 1 µs later. -/
def State.parkChain (s : State) (a : Args) (va : Nat) : State :=
  let s := s.noteParked a.c a.req.op
  let x := s.die a.d
  let mark := chainMark a.c va
  let full := 256 ≤ x.parked.length ∧ !x.parked.contains mark
  let s := if full ∨ x.parked.contains mark then s else s.setDie a.d { x with parked := x.parked ++ [mark] }
  s.add [{ ev := .chainApply, arg := a, due := s.clock + (if full then 1700 else 1) }]

/-- A numbered store that had parked goes on, and what parked behind it is replayed once it is applied. -/
def State.unparkChain (s : State) (d ctx va : Nat) : State :=
  let mark := chainMark ctx va
  if (s.die d).parked.contains mark then
    (s.setDie d { s.die d with parked := (s.die d).parked.filter (· != mark) }).add
      [{ ev := .parkRepair, arg := { d := d, c := ctx, va := va / 65536 * 65536 }, due := s.clock + 1 }]
  else s

/-- The tail has applied a version: the request is performed but for one that returns a value (R184, R365), and the
acknowledgement goes to the predecessor, or is at the head already. -/
def State.tailDone (s : State) (d ctx k v : Nat) (q : Req) (silent : Bool) : State :=
  let c := s.consist ctx k
  let s := if silent then s else s.answer d q 0 0
  match c.prev d with
  | some p => s.post d epHome p ctx 0 1 .chainAck { d := p, h := d, c := ctx, n := k, va := v, m := c.gen.toNat }
  | none => s.add [{ ev := .chainAck, arg := { d := d, h := d, c := ctx, n := k, va := v, m := c.gen.toNat } }]

/-- A version applied at a member goes on to its successor, or is done at the tail. -/
def State.chainOn (s : State) (d ctx k v : Nat) (q : Req) (silent : Bool) : State :=
  match (s.consist ctx k).next d with
  | some n =>
    s.post d epHome n ctx (opVa q.op) (opSlots q.op) .chainApply
      { d := n, h := d, c := ctx, n := k, req := q, flag := true, va := v, m := if silent then 1 else 0 }
  | none => s.tailDone d ctx k v q silent

/-- A request whose consist has no member left is dropped with POISON (R370). -/
def State.chainLost (s : State) (d : Nat) (q : Req) : State :=
  match q.op with
  | .atomic _ _ _ _ _ _ _ => s.atomicDone d q 0 0x10
  | _ =>
    (s.add [{ ev := .raiseEvent, arg := { d := d, c := q.ctx, info := { code := 0x10, addr := BitVec.ofNat 64 (opVa q.op / 64 * 64) } } }]).answer d q 0 0

/-- A request applied at the head, numbered and passed on (R363, R365), the lines of its other addresses invalidated first (R353). -/
def State.headApply (s : State) (d ctx k : Nat) (q : Req) (l : Leaf) : State :=
  let s := s.aliases d ctx (opVa q.op) l true
  let c := s.consist ctx k
  let v := nextVersion c.version
  match q.op with
  | .store bytes _ _ _ =>
    let c' := { c.apply d v q (chainBytes l bytes) with version := v, unacked := c.unacked ++ [(v, q, 0)] }
    (s.setConsist ctx k c').chainOn d ctx k v q false
  | .atomic va n fn x y _ ret =>
    let o := l.chainOff va
    if c.poisonAt d o then s.atomicDone d q 0 0x10
    else
      let old := natOfBytes (c.bytes d o n)
      let new := placed va (bytesOfNat n (atomNew fn n old x y))
      let c' := { c.apply d v q (chainBytes l new) with version := v, unacked := c.unacked ++ [(v, q, old)] }
      let silent := match ret with
        | .posted _ => false
        | _ => true
      (s.setConsist ctx k c').chainOn d ctx k v { q with op := .store new false false none } silent
  | _ => s.answer d q 0 0

/-- A member's part in a numbered store (R363): its bytes applied and passed on, or, at the tail, performed. -/
def State.memberApply (s : State) (a : Args) (bytes : Tab Byte) : State :=
  let c := s.consist a.c a.n
  (s.setConsist a.c a.n (c.apply a.d a.va a.req bytes)).chainOn a.d a.c a.n a.va a.req (a.m == 1)

/-- CHAIN_APPLY (R363, R365): a request arrives at the head, or a numbered store at the next member, which takes versions from its
predecessor alone, in their order and none of them twice (R369, R370). A request that reaches another die than the head goes on to the
head; a head that leaves passes what it receives to its successor, which keeps it until it is the head (R369). -/
def chainApply (a : Args) (s : State) : State :=
  let c := s.consist a.c a.n
  let va := opVa a.req.op
  let wait := s.add [{ ev := .chainApply, arg := a, due := s.clock + 1 }]
  let guard := fun (l : Leaf) => if (c.next a.d).isNone then s.chainGuard a.d a.c va l else some s
  if a.flag then
    let have' := Tab.get c.applied 0 a.d
    if !c.dies.contains a.d ∨ c.prev a.d ≠ some a.h ∨ verLe a.va have' then s
    else if nextVersion have' ≠ a.va then wait
    else
      match s.leaf a.c va, a.req.op with
      | some l, .store bytes _ _ _ =>
        match guard l with
        | none => s.parkChain a va
        | some s => ((s.unparkChain a.d a.c va).aliases a.d a.c va l true).memberApply a (chainBytes l bytes)
      | _, _ => s.memberApply a []
  else
    match s.leaf a.c va with
    | none => s.lost a.d a.req
    | some l =>
      if c.dies.isEmpty || c.dead then s.chainLost a.d a.req
      else if c.dies.head? = some c.leaving ∧ c.next c.leaving = some a.d then wait
      else if c.dies.head? ≠ some a.d then s.toHead a.d epHome a.req l
      else
        match (if c.leaving = a.d then c.next a.d else none), guard l with
        | some n, _ => s.post a.d epHome n a.c va (opSlots a.req.op) .chainApply { a with d := n }
        | none, none => s.park a.d a.req
        | none, some s' => if s.blocked a.d a.c va l then s.park a.d a.req else s'.headApply a.d a.c a.n a.req l

/-- Every version up to one is acknowledged at the head (R365, R375): a returning atomic's old value goes to its maker, and a task or hart
hears of its other requests, for which a CSYNC may wait; they were performed at the tail. -/
def State.acked (s : State) (d ctx k v : Nat) : State :=
  let c := s.consist ctx k
  let mine := c.unacked.filter fun e => verLe e.1 v
  let s := s.setConsist ctx k { c with unacked := c.unacked.filter fun e => !verLe e.1 v }
  let told := fun (s : State) (q : Req) => match q.src with
    | .task _ _ | .hart _ _ => s.answer d q 0 0
    | _ => s
  mine.foldl (fun s e => match e.2.1.op with
    | .atomic _ _ _ _ _ _ (.posted _) => told s e.2.1
    | .atomic _ _ _ _ _ _ _ => s.atomicDone d e.2.1 e.2.2 0
    | _ => told s e.2.1) s

/-- CHAIN_ACK (R363, R364): an acknowledgement from the current successor, of no older generation than the link to it, makes
its line clean and goes on to the predecessor, or ends at the head. The tail acknowledges versions in their order, so that one stands
for those before it, whose own may be lost with a member (R370). -/
def chainAck (a : Args) (s : State) : State :=
  let c := s.consist a.c a.n
  let v := a.va
  if !c.dies.contains a.d then s
  else if a.h ≠ a.d ∧ (c.next a.d ≠ some a.h ∨ a.m < (Tab.get c.linkGen 0 a.d).toNat) then s
  else
    let dt := (Tab.get c.dirty [] a.d).filter fun e => e.2 != v
    let c := { c with dirty := Tab.put c.dirty a.d dt }
    match c.prev a.d with
    | some p =>
      (s.setConsist a.c a.n c).post a.d epHome p a.c 0 1 .chainAck { a with d := p, h := a.d, m := c.gen.toNat }
    | none => (s.setConsist a.c a.n c).acked a.d a.c a.n v

/-! ### Re-linking (R368-R373) -/

/-- A re-link's request is answered with a status (R373). -/
def State.relinkDone (s : State) (c : Consist) (status : Nat) : State :=
  match c.asker with
  | some q => s.answer (s.srcDie q.src) q (BitVec.ofNat 64 status) 0
  | none => s

/-- COUPLE as F3 takes it (R372, R373). -/
def State.couple (s : State) (q : Req) (k : Nat) (die : Word) : State :=
  let c := s.consist q.ctx k
  let j := die.toNat
  let say := fun n => s.relinkDone { c with asker := some q } n
  if c.state = 0 then say 2
  else if c.state = 2 then say 1
  else if 7 < j then say 5
  else if c.dies.contains j then say 3
  else if 8 ≤ c.dies.length then say 4
  else if s.freeUnits j < c.units then say 6
  else
    ((s.useUnits j c.units true).putConsist q.ctx k { c with state := 2, joining := j, copied := 0, back := c.state, failed := false, asker := some q }).add
      [{ ev := .coupleCopyDone, arg := { c := q.ctx, n := k } }]

/-- UNCOUPLE as F3 takes it (R372, R373). -/
def State.uncouple (s : State) (q : Req) (k : Nat) (die : Word) : State :=
  let c := s.consist q.ctx k
  let m := die.toNat
  let say := fun n => s.relinkDone { c with asker := some q } n
  if c.state = 0 then say 2
  else if c.state = 2 then say 1
  else if 7 < m then say 5
  else if !c.dies.contains m then say 3
  else if c.dies.length ≤ 2 then say 4
  else
    (s.putConsist q.ctx k { c with state := 2, leaving := m, back := c.state, failed := false, asker := some q }).add
      [{ ev := .uncoupleDone, arg := { c := q.ctx, n := k } }]

/-- COUPLE_COPY_DONE (R368 step 3): the last line of the tail's replica has been sent and the joining die is its successor. A consist
that had no member left takes it as its one member, and its region stays poisoned (R370, log 136). -/
def coupleCopyDone (ctx k : Nat) (s : State) : State :=
  let c := s.consist ctx k
  if c.state ≠ 2 ∨ 7 < c.joining ∨ c.dies.contains c.joining then s
  else if c.dies.isEmpty then
    (s.putConsist ctx k { c with dies := [c.joining], gen := c.gen + 1 }).add [{ ev := .coupleStreamDone, arg := { c := ctx, n := k } }]
  else
    let t := c.tail
    let j := c.joining
    (s.putConsist ctx k { c with
      dies := c.dies ++ [j]
      gen := c.gen + 1
      linkGen := Tab.put c.linkGen t (c.gen + 1)
      replicas := Tab.put c.replicas j (Tab.get c.replicas [] t)
      poison := Tab.put c.poison j (Tab.get c.poison [] t)
      dirty := Tab.put c.dirty j []
      wiping := (c.wiping.filter fun w => w.at' % 8 != j) ++ (c.wiping.filter fun w => w.at' % 8 == t).map fun w => { w with at' := w.at' / 8 * 8 + j }
      applied := Tab.put c.applied j (Tab.get c.applied 0 t) }).add [{ ev := .coupleStreamDone, arg := { c := ctx, n := k } }]

/-- COUPLE_STREAM_DONE (R368 step 4): the joining die has applied the whole stream. The consist is Active, or
Degraded where a member has failed meanwhile (R371). -/
def coupleStreamDone (ctx k : Nat) (s : State) : State :=
  let c := s.consist ctx k
  if c.state ≠ 2 ∨ !c.dies.contains c.joining then s
  else
    let c' := { c with state := if c.failed then 3 else 1, joining := 15, copied := c.units * 65536, asker := none }
    (s.putConsist ctx k c').relinkDone c 0

/-- What member p sends its new successor n (R369, R370): each version that p has applied and n has not, with its bytes as p holds them.
A version that n has applied, and whose acknowledgement was lost with the member between them, n acknowledges again. -/
def State.reforward (s : State) (ctx k p n : Nat) : State :=
  let c := s.consist ctx k
  let have' := Tab.get c.applied 0 n
  let again := (Tab.get c.dirty [] p).filter fun e => verLe e.2 have' && !(Tab.get c.dirty [] n).any fun x => x.2 == e.2
  let s := again.foldl (fun s e =>
    s.post n epHome p ctx 0 1 .chainAck { d := p, h := n, c := ctx, n := k, va := e.2, m := c.gen.toNat }) s
  (c.unacked.filter fun e => !verLe e.1 have' && verLe e.1 (Tab.get c.applied 0 p)).foldl (fun s e =>
    let q := e.2.1
    match q.op with
    | .atomic va b _ _ _ _ ret =>
      let bytes := match s.leaf ctx va with
        | some l => c.bytes p (l.chainOff va) b
        | none => []
      let silent := match ret with
        | .posted _ => 0
        | _ => 1
      s.post p epHome n ctx va 2 .chainApply
        { d := n, h := p, c := ctx, n := k, req := { q with op := .store (placed va bytes) false false none }, flag := true, va := e.1, m := silent }
    | _ => s.post p epHome n ctx (opVa q.op) (opSlots q.op) .chainApply { d := n, h := p, c := ctx, n := k, req := q, flag := true, va := e.1 }) s

/-- A member becomes the tail after one that had applied the versions up to a given one (R369): the later ones that it has applied are
performed, its lines are clean, and it acknowledges every version that it held dirty. -/
def State.becomeTail (s : State) (ctx k p done : Nat) : State :=
  let c := s.consist ctx k
  let dt := Tab.get c.dirty [] p
  let s := s.setConsist ctx k { c with dirty := Tab.put c.dirty p [] }
  let s := (c.unacked.filter fun e => !verLe e.1 done && verLe e.1 (Tab.get c.applied 0 p)).foldl (fun s e =>
    match e.2.1.op with
    | .atomic _ _ _ _ _ _ (.posted _) => s.answer p e.2.1 0 0
    | .store _ _ _ _ => s.answer p e.2.1 0 0
    | _ => s) s
  dt.foldl (fun s e => s.tailDone p ctx k e.2 { src := .firmware, op := .fence } true) s

/-- A member taken out of the chain: its successor follows its predecessor, or its predecessor is the tail, or its successor
the head. The generation rises (R364). -/
def State.unlink (s : State) (ctx k m : Nat) : State :=
  let c := s.consist ctx k
  let p := c.prev m
  let n := c.next m
  let c' := { c with
    dies := c.dies.filter (· != m)
    dead := c.dead || c.dies == [m]
    gen := c.gen + 1
    replicas := Tab.del c.replicas m
    dirty := Tab.del c.dirty m
    poison := Tab.del c.poison m
    applied := Tab.del c.applied m
    linkGen := match p with
      | some p => Tab.put (Tab.del c.linkGen m) p (c.gen + 1)
      | none => Tab.del c.linkGen m }
  let s := (s.useUnits m c.units false).putConsist ctx k c'
  match p, n with
  | some p, some n => s.reforward ctx k p n
  | some p, none => s.becomeTail ctx k p (Tab.get c.applied 0 m)
  | _, _ => s

/-- Copies of a consist's Pending units taken at its tail before a member that has applied more becomes the tail, so that none of that comes
into a snapshot's image (R415); none where the pool is empty. -/
def State.saveTail (s : State) (ctx k : Nat) : Option State :=
  let d := (s.consist ctx k).tail
  (s.ctx ctx).snap.units.foldl (fun (r : Option State) u => r.bind fun s =>
    match s.leaf ctx u.va with
    | some l => if l.cls = 3 ∧ l.place = k then s.chainGuard d ctx u.va l else some s
    | none => some s) (some s)

/-- UNCOUPLE_DONE (R369): once the leaving member's successor has what it received and, where it is the head, its versions are
acknowledged, the chain closes over it. -/
def uncoupleDone (ctx k : Nat) (s : State) : State :=
  let c := s.consist ctx k
  let m := c.leaving
  if c.state ≠ 2 ∨ !c.dies.contains m then s
  else
    let passed := match c.next m with
      | some n => Tab.get c.applied 0 n == Tab.get c.applied 0 m
      | none => true
    let again := s.add [{ ev := .uncoupleDone, arg := { c := ctx, n := k }, due := s.clock + 1 }]
    if passed && ((c.prev m).isSome || c.unacked.isEmpty) then
      match (if (c.next m).isNone then s.saveTail ctx k else some s) with
      | none => again
      | some s =>
        let s := s.unlink ctx k m
        let c' := { s.consist ctx k with state := c.back, leaving := 15, asker := none }
        (s.putConsist ctx k c').relinkDone c 0
    else again

/-- MEMBER_FAIL (R368, R370): a member's die fails. A joining die that is not yet linked abandons the COUPLE; any other member
is removed by force, and the context hears CONSIST_DEGRADED. Requests that a failed head had not passed on are sent again. What a failed tail
held of a snapshot's image is lost with it (log 154). -/
def memberFail (ctx k d : Nat) (s : State) : State :=
  let c := s.consist ctx k
  if c.state = 0 then s
  else if c.joining = d ∧ !c.dies.contains d then
    ((s.useUnits d c.units false).putConsist ctx k { c with state := c.back, joining := 15, asker := none }).relinkDone c 6
  else if !c.dies.contains d then s
  else
    let head := c.prev d = none
    let s := s.unlink ctx k d
    let c' := s.consist ctx k
    let busy := c.state = 2 ∧ c.leaving ≠ d ∧ c.joining ≠ d
    let c' := { c' with state := if busy then 2 else 3, back := 3, failed := true, dead := c'.dead || c'.dies.isEmpty
                        leaving := if c.leaving = d then 15 else c'.leaving
                        joining := if c.joining = d then 15 else c'.joining
                        asker := if busy then c.asker else none }
    let n := c'.dies.head?.getD 0
    let reach := if c'.dies.isEmpty then c'.version else Tab.get c'.applied 0 n
    let lost := if !head then [] else c'.unacked.filter fun e => match c'.dies, e.2.1.op with
      | [], .atomic _ _ _ _ _ _ (.posted _) => false
      | [], .atomic _ _ _ _ _ _ _ => true
      | [], _ => false
      | _, _ => !verLe e.1 reach
    let c' := if head then { c' with version := reach, unacked := c'.unacked.filter fun e => verLe e.1 reach && !lost.contains e } else c'
    let s := s.putConsist ctx k c'
    let s := if head ∧ (Tab.get c'.dirty [] n).isEmpty then s.acked n ctx k reach else s
    let s := if c.state = 2 ∧ !busy then s.relinkDone c 0 else s
    let s := lost.foldl (fun s e => s.add [{ ev := .chainApply, arg := { d := n, c := ctx, n := k, req := e.2.1 } }]) s
    s.add [{ ev := .raiseEvent
             arg := { d := s.sys.active + 8, c := ctx, info := { code := 0x32, addr := BitVec.ofNat 64 k, extra := BitVec.ofNat 64 d } } }]

/-- CONSIST_CREATE: pkt is the request. -/
def execConsistCreate (s : State) : Host.Outcome State Fault Refusal := .next (consistCreate (s.arg.pkt.setWidth 256) s)
/-- CONSIST_DESTROY: pkt is the request. -/
def execConsistDestroy (s : State) : Host.Outcome State Fault Refusal := .next (consistDestroy (s.arg.pkt.setWidth 256) s)
/-- CHAIN_APPLY. -/
def execChainApply (s : State) : Host.Outcome State Fault Refusal := .next (chainApply s.arg s)
/-- CHAIN_ACK. -/
def execChainAck (s : State) : Host.Outcome State Fault Refusal := .next (chainAck s.arg s)
/-- COUPLE_COPY_DONE. -/
def execCoupleCopyDone (s : State) : Host.Outcome State Fault Refusal := .next (coupleCopyDone s.arg.c s.arg.n s)
/-- COUPLE_STREAM_DONE. -/
def execCoupleStreamDone (s : State) : Host.Outcome State Fault Refusal := .next (coupleStreamDone s.arg.c s.arg.n s)
/-- UNCOUPLE_DONE. -/
def execUncoupleDone (s : State) : Host.Outcome State Fault Refusal := .next (uncoupleDone s.arg.c s.arg.n s)
/-- MEMBER_FAIL. -/
def execMemberFail (s : State) : Host.Outcome State Fault Refusal := .next (memberFail s.arg.c s.arg.n s.arg.d s)

end Sys2Proof.Machine
end

