-- ==== Sys2Proof/Machine/Transit.lean ====
section
/-! DEFINITION. What has left an agent and is not performed: the order in which it is sent (R185, R193, R320, R433), where it
goes, and what its answer does (R136, R184, R203, R204, R206). -/

namespace Sys2Proof.Machine

/-! ### Kinds and order -/

/-- A store that carries a notification to another module, in one remote write (R405, R407). -/
def remoteNote (bytes : Tab Byte) (note : Option Note) : Bool :=
  note.isSome && (match bytes with
    | [] => false
    | e :: _ => region e.1 == .peerWindow)

/-- An operation that is sent only once every earlier access of its task is performed: the release-kind operations of R177,
R313 and R433, and FENCE, TRAP, COUPLE, UNCOUPLE and an EVENT (R208, R290, R300, R372). -/
def waitsAll (o : Op) : Bool :=
  match o with
  | .store bytes rel _ note => rel || remoteNote bytes note
  | .notify _ _ _ => true
  | .atomic _ _ _ _ _ ord _ => bit ord 1
  | .release _ _ _ | .notice _ _ _ _ | .gdec _ _ | .arrive _ _ | .copy _ _ | .scale _ _ _ | .fence | .trap _ _ | .event _
  | .couple _ _ | .uncouple _ _ => true
  | _ => false

/-- A synchronising operation (R177). -/
def syncOp (o : Op) : Bool :=
  match o with
  | .store bytes rel _ note => rel || remoteNote bytes note
  | .notify _ _ _ => true
  | .atomic _ _ _ _ _ ord _ => ord != 0
  | .load _ _ sync => sync
  | .release _ _ _ | .notice _ _ _ _ | .gdec _ _ | .arrive _ _ | .copy _ _ | .scale _ _ _ | .bwait _ _ | .cring _ _ => true
  | _ => false

/-- A request whose answer is the task's next triggering message (R133, R136). -/
def returnsValue (o : Op) : Bool :=
  match o with
  | .atomic _ _ _ _ _ _ .reg | .load _ _ _ | .bwait _ _ | .fence | .csync | .trap _ _ | .mxqTile _ | .mxqSlot _ | .cring _ _
  | .pageqHome _ | .couple _ _ | .uncouple _ _ | .cquery _ _ => true
  | _ => false

/-- A matrix command, which R433 holds back no further than its FIFO does. -/
def isMatrix (o : Op) : Bool :=
  match o with
  | .matrix _ => true
  | _ => false

/-- An SCMC, which is a matrix command that no array executes (R266). -/
def isScmc (o : Op) : Bool :=
  match o with
  | .scale _ _ _ => true
  | _ => false

/-- The bytes that a notification changes: those of its flag. -/
def noteBytes (note : Option Note) : List Nat :=
  match note with
  | some (.flag fa _) => (List.range 8).map (fa + ·)
  | _ => []

/-- A release that its bogie's witness sends to a dispatcher (R320). -/
def isRelease (o : Op) : Bool :=
  match o with
  | .release _ _ _ | .notify _ _ (.task _ _ _) => true
  | _ => false

/-- FENCE, which waits for no matrix command, an SCMC included (R208, R266). -/
def isFence (o : Op) : Bool :=
  match o with
  | .fence => true
  | _ => false

/-- The addresses that an operation touches; of CRING the ring header, behind the task's own stores to it (R238). -/
def opBytes (o : Op) : List Nat :=
  match o with
  | .store bytes _ _ note => bytes.map (·.1) ++ noteBytes note
  | .notify _ _ note => noteBytes (some note)
  | .atomic va n _ _ _ _ _ => (List.range n).map (va + ·)
  | .load va n _ => (List.range n).map (va + ·)
  | .cring va _ => (List.range 64).map (va + ·)
  | _ => []

/-- R185 lets an entry go, given the entries before it that are not performed; and a bogie sends a release only after its last one is
performed, whichever of its frames sent that (R320, R322). -/
def inOrder (earlier : List Transit) (t : Transit) : Bool :=
  let mine := earlier.filter fun e => e.uid == t.uid && !isMatrix e.op && !(isFence t.op && isScmc e.op)
  (!waitsAll t.op || mine.isEmpty) && (!syncOp t.op || !mine.any fun e => syncOp e.op) &&
    (!isRelease t.op || !earlier.any fun e => isRelease e.op)

/-- Two entries touch a byte in common. -/
def meets (e t : Transit) : Bool := (opBytes t.op).any fun a => touches e.op a

/-- An entry may be sent, given the entries before it that are not performed (R185, R193, R433). -/
def mayIssue (earlier : List Transit) (t : Transit) : Bool := inOrder earlier t && !earlier.any fun e => meets e t

/-- The entry of a number waits only until earlier ones, which have been sent, have changed the bytes that it touches too: no hold of R433
is on it. -/
def waitsInLine (earlier : List Transit) (id : Nat) : Bool :=
  let before := earlier.takeWhile fun t => t.id != id
  match earlier.find? fun t => t.id == id with
  | some t => !t.sent && !isMatrix t.op && inOrder before t && before.all fun e => e.sent || !meets e t
  | none => false

/-! ### The agent's list -/

/-- The entries under way of a bogie or an engine hart. -/
def State.transitOf (s : State) (a : Agent) : List Transit :=
  match a with
  | .bogie g => (s.bogie g).transit
  | .hart d h => (s.hart d h).transit

/-- Those entries replaced. -/
def State.setTransit (s : State) (a : Agent) (l : List Transit) : State :=
  match a with
  | .bogie g => s.setBogie g { s.bogie g with transit := l }
  | .hart d h => s.setHart d h { s.hart d h with transit := l }

/-- The maker of an agent's request, its die and its endpoint there. -/
def agentSrc (a : Agent) (uid : Nat) : Src :=
  match a with
  | .bogie g => .task g uid
  | .hart d h => .hart d h
/-- See agentSrc. -/
def agentDie (a : Agent) : Nat :=
  match a with
  | .bogie g => dieOf g
  | .hart d _ => d
/-- See agentSrc. -/
def agentEp (a : Agent) : Nat :=
  match a with
  | .bogie g => epBogie g
  | .hart _ h => epHart h

/-- The entry as the request that it makes. -/
def Transit.req (t : Transit) (a : Agent) : Req := { id := t.id, src := agentSrc a t.uid, ctx := t.ctx, op := t.op }

/-- The entries that an operation becomes: an STF's stored bytes and its notification are two, the second release-kind (R206, R433),
but for one to another module, whose write carries both. -/
def opEntries (o : Op) (id : Nat) : List Op :=
  match o with
  | .matrix c => [.matrix { c with id := id }]
  | .store bytes rel byp (some note) =>
    if remoteNote bytes (some note) then [o] else [.store bytes rel byp none, .notify id ((bytes.head?.map (·.1)).getD 0) note]
  | o => [o]

/-- Operations added to what is under way, each with a number of its own. -/
def State.forwardOps (s : State) (a : Agent) (uid ctx : Nat) (l : List Op) : State :=
  l.foldl (fun s o =>
    (opEntries o s.uid).foldl (fun s o =>
      let (id, s) := s.newId
      s.setTransit a (s.transitOf a ++ [{ id := id, uid := uid, ctx := ctx, op := o }])) s) s

/-! ### Sending (R184, R197, R349) -/

/-- A store sent where its bytes live. -/
def State.sendStore (s : State) (a : Agent) (q : Req) (bytes : Tab Byte) : State :=
  let d := (agentDie a)
  let va := opVa q.op
  match region va with
  | .glob =>
    match s.leaf q.ctx va with
    | none => s.lost d q
    | some l =>
      if l.cls = 4 then s.deviceStore d (agentEp a) q l bytes
      else if l.cls = 3 then s.toHead d (agentEp a) q l
      else s.post d (agentEp a) (l.home va) q.ctx va (writeSlots bytes) .homeStore { d := l.home va, req := q }
  | .peerWindow => s.sendRemote d va q
  | .peer c _ =>
    let g := match a with
      | .bogie g => peerBogie g c
      | .hart _ _ => 0
    s.post d (agentEp a) d q.ctx va (writeSlots bytes) .heldWriteArrival
      { g := g, held := [.peer q.id q.src (bytes.map fun e => (e.1 % 0x10000, e.2))] }
  | .engine die h off =>
    s.post d (agentEp a) die q.ctx va 2 .engineKick
      { d := die, h := h, c := q.ctx, n := off, m := bytes.length, val := BitVec.ofNat 64 (storedValue bytes), req := q }
  | _ => s.answer d q 0 0

/-- An atomic sent to the unit that executes it (R197). -/
def State.sendAtomic (s : State) (a : Agent) (q : Req) (va : Nat) : State :=
  let d := (agentDie a)
  let proxy := s.post d (agentEp a) d q.ctx va 2 .proxyAtomic { d := d, req := q }
  match region va with
  | .glob =>
    match s.leaf q.ctx va with
    | none => s.lost d q
    | some l =>
      if l.cls = 4 then proxy
      else if l.cls = 3 then s.toHead d (agentEp a) q l
      else s.post d (agentEp a) (l.home va) q.ctx va 2 .atomicExecute { d := l.home va, req := q }
  | .peer c o =>
    let g := match a with
      | .bogie g => peerBogie g c
      | .hart _ _ => 0
    s.post d (agentEp a) d q.ctx va 2 .heldWriteArrival { g := g, held := [.atomic q o] }
  | _ => proxy

/-- The die that a load of a mapped line is sent to (R186, R187, R366): of a chained line the tail for an acquire load, else the nearest
member; of a device page the agent's own. -/
def State.loadDie (s : State) (d ctx va : Nat) (l : Leaf) (sync : Bool) : Nat :=
  if l.cls = 4 then d
  else if l.cls = 3 then
    let c := s.consist ctx l.place
    if c.dies.isEmpty then d else if sync then c.tail else (c.nearest d).getD d
  else l.home va

/-- The line of its die's RDC that may serve an ordinary load of an engine hart that is not to bypass it (R176, R182, R187). -/
def State.hartHit (s : State) (a : Agent) (ctx va : Nat) (sync : Bool) : Option RdcLine :=
  match a, sync with
  | .hart d h, false =>
    if (s.hart d h).await.any (·.bypass) then none else (s.die d).rdcHit (s.hart d h).stamp (s.hart d h).written ctx va
  | _, _ => none

/-- A load that is made once sent to where it is served (R182, R186, R366, R397). -/
def State.sendLoad (s : State) (a : Agent) (q : Req) (va n : Nat) (sync : Bool) : State :=
  let d := (agentDie a)
  let send := fun (s : State) (die : Nat) => s.post d (agentEp a) die q.ctx va 1 .loadFill { d := die, req := q, n := 3 }
  match region va with
  | .glob =>
    match s.leaf q.ctx va with
    | none => s.lost d q
    | some l =>
      let die := s.loadDie d q.ctx va l sync
      match (if die ≠ d ∧ cachedClass l.cls then s.hartHit a q.ctx va sync else none) with
      | some e =>
        let (i, s) := s.choose 2
        if i ≠ 0 then send s die
        else if e.poison then s.answer d q 0 0x10
        else s.answer d q (BitVec.ofNat 64 (e.data.toNat / 2 ^ (8 * (va % 64)) % 2 ^ (8 * n))) 0
      | none => send s die
  | .peerWindow => s.sendRemote d va q
  | .engine die _ _ => send s die
  | _ => send s d

/-- The home of an address, the tail of a chained one, or the agent's own die where it is unmapped. -/
def State.homeOr (s : State) (ctx va d : Nat) : Nat :=
  match s.leaf ctx va with
  | some l => s.loadDie d ctx va l true
  | none => d

/-- The home of an address, or the head of a chained one (R358). -/
def State.headOr (s : State) (ctx va d : Nat) : Nat :=
  match s.leaf ctx va with
  | some l => if l.cls = 3 then ((s.consist ctx l.place).dies.head?).getD d else if l.cls = 4 then d else l.home va
  | none => d

/-- The step by which a function answers a service of a task (R300) or of an engine hart (R411), none for an undefined one. -/
def serviceStep (a : Agent) (n : Nat) : Option Instr :=
  match a, n with
  | .bogie _, 0x001 => some .version
  | .bogie _, 0x501 => some .linkState
  | .bogie _, 0x701 => some .temperature
  | .bogie _, 0x702 => some .power
  | .bogie _, 0x401 => some .errlogCount
  | .hart _ _, 0x601 => some .stepEnter
  | .hart _ _, 0x602 => some .stepDone
  | _, _ => none

/-- The notification of an STF as an operation of its own, from the die where its store is performed (R206). -/
def State.noteOp (s : State) (ctx va : Nat) (n : Note) : Op :=
  match n with
  | .flag fa w => .atomic fa 8 (.int 0) 1 0 2 (.posted w)
  | .task record prio arg =>
    let die := match s.leaf ctx va with
      | some l => if l.cls = 3 then (s.consist ctx l.place).tail else l.home va
      | none => 0
    .release (some die) false { type := 1, prio := prio, ctx := ctx, record := record, arg := arg }
  | .poison | .version _ _ _ => .fence

/-- The priority of a release whose sender reads the record's own when it sends it (R319). -/
def ownPriority : Nat := 16

/-- An entry sent to where it is performed. -/
def State.sendOp (s : State) (a : Agent) (t : Transit) : State :=
  let q := t.req a
  let d := (agentDie a)
  match t.op with
  | .store bytes _ _ _ => s.sendStore a q bytes
  | .notify _ va note =>
    match s.noteOp t.ctx va note with
    | .atomic fa n f x y ord ret => s.sendAtomic a { q with op := .atomic fa n f x y ord ret } fa
    | .release die _ r =>
      s.post d (agentEp a) (die.getD d) t.ctx r.record 2 .releaseAccept { d := die.getD d, rel := { id := t.id, src := q.src, rel := r, agent := true } }
    | _ => s.answer d q 0 0
  | .atomic va _ _ _ _ _ _ => s.sendAtomic a q va
  | .load va n sync => s.sendLoad a q va n sync
  | .release die peer r =>
    if peer then s.sendRemote d r.record q
    else if r.prio = ownPriority then s.sendOwn { d := die.getD d, c := t.ctx, va := r.record, n := r.arg.toNat, req := q }
    else s.post d (agentEp a) (die.getD d) t.ctx r.record 2 .releaseAccept { d := die.getD d, rel := { id := t.id, src := q.src, rel := r } }
  | .notice node _ _ _ =>
    let home := node.toNat / 2 ^ 28 % 8
    s.post d (agentEp a) home t.ctx 0 1 .groupUpdate { d := home, req := q }
  | .gdec h _ =>
    let home := h.toNat / 2 ^ 28 % 8
    s.post d (agentEp a) home t.ctx 0 1 .groupUpdate { d := home, req := q }
  | .arrive h _ => s.post d (agentEp a) (dieOf (handleBogie h)) t.ctx 0 1 .handleArrival { g := handleBogie h, req := q }
  | .copy desc _ => s.post d (agentEp a) (s.homeOr t.ctx desc d) t.ctx desc 5 .copyAppend { d := s.homeOr t.ctx desc d, req := q }
  | .scale _ _ _ => s.post d (agentEp a) d t.ctx 0 5 .scaleDelivery { d := d, req := q }
  | .trap n _ =>
    match serviceStep a n with
    | some ev => s.post d (agentEp a) s.hub t.ctx 0 2 ev { d := s.hub, req := q }
    | none => s.answer d q (BitVec.allOnes 64) 0
  | .mxqTile _ | .mxqSlot _ => s.add [{ ev := .storePerformed, arg := { req := q, m := 1 } }]
  | .cring va _ =>
    if region va = .peerWindow then s.sendRemote d va q
    else
      let die := match region va with
        | .engine die _ _ => die
        | _ => s.homeOr t.ctx va d
      s.post d (agentEp a) die t.ctx va 1 .loadFill { d := die, req := q, n := 3 }
  | .pageqHome va => s.post d (agentEp a) (s.headOr t.ctx va d) t.ctx va 1 .loadFill { d := s.headOr t.ctx va d, req := q, n := 3 }
  | .couple c die => s.couple q c (BitVec.ofNat 64 die)
  | .uncouple c die => s.uncouple q c (BitVec.ofNat 64 die)
  | .cquery c gen => s.answer d q (if gen then (s.consist t.ctx c).genWord else (s.consist t.ctx c).word) 0
  | _ => s.answer d q 0 0

/-! ### Answers -/

/-- The answer given to the frame that awaits it: its next triggering message once it is on top (R133, R204). -/
def State.setReply (s : State) (g uid : Nat) (r : Except (Nat × Word) Word) : State :=
  let b := s.bogie g
  let s := s.setBogie g { b with stack := b.stack.map fun f =>
    if f.uid = uid then { f with await := f.await.map fun a => { a with started := true, reply := some r } } else f }
  match b.stack.head? with
  | some f => if f.uid = uid then s.add [{ ev := .triggerDelivery, arg := { g := g } }] else s
  | none => s

/-- The value that a load of n bytes leaves in a register. -/
def Await.value (a : Await) (v : Word) : Word := if a.size = 8 then v else extend a.sext a.size (v.toNat % 2 ^ (8 * a.size))

/-- An answer given to its agent: a frame, or an engine hart, which goes on with the value or faults with the code. -/
def State.reply (s : State) (a : Agent) (uid : Nat) (r : Except (Nat × Word) Word) : State :=
  match a with
  | .bogie g => s.setReply g uid r
  | .hart d h =>
    let x := s.hart d h
    match x.await with
    | none => s
    | some w =>
      let x' := { x with await := none }
      match r with
      | .ok v =>
        let x' := if w.acquire then { x' with stamp := (s.die d).rdcFills, written := [] } else x'
        s.setHart d h { x' with cpu := x.cpu.setX w.dest (w.value v) }
      | .error e => (s.setHart d h x').hartFault d h e.1

/-- Room for a command in the FIFO of its bogie and level (R267). -/
def State.enqueueMatrix (s : State) (c : MxCmd) : Option State :=
  let x := s.coach (coachOf c.g)
  let key := c.g % 8 * 16 + c.level
  let l := Tab.get x.fifos [] key
  if 64 ≤ l.length then none
  else
    some ((s.setCoach (coachOf c.g) { x with fifos := Tab.put x.fifos key (l ++ [c]) }).add
      [{ ev := .arrayCommandExecute, arg := { h := coachOf c.g } }])

/-- A chained request of a frame whose version's acknowledgement has not reached its head (R375). -/
def State.unackedOf (s : State) (q : Src) : Bool := s.consists.any fun c => c.2.unacked.any fun e => e.2.1.src == q

/-- A store or atomic of a chained page. -/
def State.chained (s : State) (t : Transit) : Bool :=
  match t.op with
  | .store _ _ _ _ | .notify _ _ (.flag _ _) | .atomic _ _ _ _ _ _ _ =>
    match s.leaf t.ctx (opVa t.op) with
    | some l => l.cls == 3
    | none => false
  | _ => false

/-- Matrix commands that a frame committed before a request and that have not completed (R287). -/
def State.matrixBefore (s : State) (a : Agent) (t : Transit) : Bool :=
  match a with
  | .bogie g =>
    let x := s.coach (coachOf g)
    let old := fun (c : MxCmd) => c.uid == t.uid && decide (c.id < t.id)
    x.fifos.any (fun e => e.2.any old) || x.shadow.any (fun e => old e.2.cmd) || x.jobs.any (fun j => old j.cmd)
  | .hart _ _ => false

/-- The home that an operation of a task on die d goes to, where it goes to a home. -/
def State.homeOf (s : State) (ctx : Nat) (o : Op) : Option Nat :=
  match o with
  | .store _ _ _ _ | .notify _ _ (.flag _ _) | .atomic _ _ _ _ _ _ _ | .load _ _ _ | .copy _ _ | .cring _ _ | .pageqHome _ =>
    match region (opVa o), s.leaf ctx (opVa o) with
    | .glob, some l => if l.cls = 3 ∨ l.cls = 4 then none else some (l.home (opVa o))
    | _, _ => none
  | _ => none

/-- An entry waits behind an earlier copy command that has been sent to the home of the entry (R236). -/
def State.behindCopy (s : State) (earlier : List Transit) (t : Transit) : Bool :=
  match s.homeOf t.ctx t.op with
  | none => false
  | some d => earlier.any fun e => e.sent && (match e.op with
    | .copy _ _ => s.homeOf e.ctx e.op == some d
    | _ => false)

/-- The unit that executes a store, an atomic or a load of an agent on die d (R193, R197, R406): a home, a head, a proxy bogie, a scratchpad
bank, or whatever it is at a peer module. -/
def State.unitOf (s : State) (a : Agent) (ctx : Nat) (o : Op) : Option Nat :=
  let unit := fun (va : Nat) (atomic : Bool) =>
    match region va with
    | .glob => (s.leaf ctx va).bind fun l =>
      if l.cls = 4 then (if atomic then some 10 else none)
      else if l.cls = 3 then some (20 + (s.headOr ctx va (agentDie a)))
      else some (l.home va)
    | .peerWindow => some (100 + va / 2 ^ 46 % 1024)
    | .peer c _ => some (2000 + c)
    | _ => none
  match o with
  | .store _ _ _ _ => unit (opVa o) false
  | .notify _ _ (.flag _ _) | .atomic _ _ _ _ _ _ _ => unit (opVa o) true
  | _ => none

/-- An entry waits behind an earlier one to the same unit that is still to be sent, so that they reach it in entry order (R193); and to
another module behind an atomic that the proxy bogie has not sent there yet (R406). -/
def State.behindUnit (s : State) (a : Agent) (earlier : List Transit) (t : Transit) : Bool :=
  match s.unitOf a t.ctx t.op with
  | none => false
  | some u => earlier.any fun e => s.unitOf a e.ctx e.op == some u &&
      (waitsInLine earlier e.id || (100 ≤ u && u < 2000 && e.sent && !s.remote.any fun r => r.req.id == e.id && r.req.src == agentSrc a e.uid))

/-- One entry sent if it may be. -/
def State.pumpOne (s : State) (a : Agent) (id : Nat) : State :=
  let l := s.transitOf a
  let earlier := l.takeWhile fun t => t.id != id
  match l.find? (fun t => t.id == id) with
  | none => s
  | some t =>
    let rest := l.filter fun (x : Transit) => x.id != id
    if t.sent || !mayIssue earlier t || s.behindCopy earlier t || s.behindUnit a earlier t then s
    else
      match t.op with
      | .matrix c =>
        match s.enqueueMatrix c with
        | some s => s.setTransit a rest
        | none => s
      | .fence => (s.setTransit a rest).reply a t.uid (.ok 0)
      | .csync =>
        if (earlier.any fun e => e.uid == t.uid && s.chained e) || s.unackedOf (agentSrc a t.uid) then s
        else (s.setTransit a rest).reply a t.uid (.ok 0)
      | .bwait _ _ =>
        match a with
        | .bogie g =>
          let s := s.setTransit a rest
          let b := s.bogie g
          (s.setBogie g { b with stack := b.stack.map fun f =>
            if f.uid = t.uid then { f with await := f.await.map fun w => { w with started := true } } else f }).checkBwait g
        | .hart _ _ => s.setTransit a rest
      | .event i => (s.setTransit a rest).add [{ ev := .raiseEvent, arg := { d := (agentDie a), c := t.ctx, flag := true, info := i } }]
      | .mxqTile _ =>
        if (earlier.any fun e => e.uid == t.uid && (isMatrix e.op || isScmc e.op)) || s.matrixBefore a t then s
        else (s.setTransit a (l.map fun (x : Transit) => if x.id = id then { x with sent := true } else x)).sendOp a t
      | _ => (s.setTransit a (l.map fun (x : Transit) => if x.id = id then { x with sent := true } else x)).sendOp a t

/-- Every entry that may be sent sent, in order. -/
def State.pump (s : State) (a : Agent) : State := ((s.transitOf a).map (·.id)).foldl (fun s id => s.pumpOne a id) s

/-- A bogie stalled on bytes that an operation touches tries its load again (R198). -/
def State.wakeFor (s : State) (a : Agent) (o : Op) : State :=
  match a with
  | .bogie g =>
    match (s.bogie g).phase with
    | .stalled va =>
      if (List.range 32).any fun i => touches o (va / 32 * 32 + i) then s.setBogie g (s.bogie g).wake else s
    | _ => s
  | .hart _ _ => s

/-- A performed store or atomic of an agent noted with the lines of global memory that it touches, so that no older line of the RDC serves
the agent again (R173, R182, R193, R198). -/
def noteWritten (written : List (Nat × Nat × Nat)) (fills ctx : Nat) (o : Op) : List (Nat × Nat × Nat) :=
  match o with
  | .store _ _ _ _ | .notify _ _ _ | .atomic _ _ _ _ _ _ _ =>
    let lines := (((opBytes o).filter fun a => decide (a < 2 ^ 56)).map fun a => a / 64 * 64).eraseDups
    (written.filter fun w => !(w.1 == ctx && lines.contains w.2.1)) ++ lines.map fun a => (ctx, a, fills)
  | _ => written

/-- STORE_PERFORMED for an agent's own entry (R184): it leaves the list, with the notification of an STF whose store failed, an awaited
value reaches its frame, and what waited for it is sent. -/
def State.finish (s : State) (a : Agent) (id : Nat) (val : Word) (code : Nat) : State :=
  let l := s.transitOf a
  match l.find? (fun t => t.id == id) with
  | none => s.pump a
  | some t =>
    let s := match a with
      | .bogie g => s.setBogie g { s.bogie g with written := noteWritten (s.bogie g).written (s.die (dieOf g)).rdcFills t.ctx t.op }
      | .hart d h => s.setHart d h { s.hart d h with written := noteWritten (s.hart d h).written (s.die d).rdcFills t.ctx t.op }
    let gone := s.setTransit a (l.filter fun (x : Transit) => x.id != id)
    let va := opVa t.op
    let s : State := match t.op with
      | .store _ _ _ _ =>
        if code = 0 then gone
        else gone.setTransit a ((gone.transitOf a).filter fun (x : Transit) => match x.op with
          | .notify k _ _ => k != id
          | _ => true)
      | .copy _ _ =>
        match a with
        | .bogie g => gone.checkDrain g t.uid
        | .hart _ _ => gone
      | .atomic _ _ _ _ _ _ (.amoa uid _ _ _) =>
        match a with
        | .bogie g => if code = 0 then gone else (gone.setBogie g ((gone.bogie g).pay uid)).checkDrain g uid
        | .hart _ _ => gone
      | o =>
        if returnsValue o then
          gone.reply a t.uid (if code = 0 then .ok val
            else .error (code, BitVec.ofNat 64 (if code = 0x10 ∧ region va ≠ Region.peerWindow then va / 64 * 64 else va)))
        else gone
    (s.wakeFor a t.op).pump a

end Sys2Proof.Machine
end

