-- ==== Sys2Proof/Machine/Release.lean ====
section
/-! DEFINITION. Releases (R117-R131, R319-R330): acceptance, placement, FIFOs, the decision of R128 and the push of a frame. -/

namespace Sys2Proof.Machine

/-! ### Contexts, ceilings and thresholds -/

/-- A FREEZE of the context is under way (R104). -/
def Ctx.freezing (c : Ctx) : Bool := (c.state == 3 || c.state == 4) && c.busy && c.command == 5

/-- A THAW of the context is under way (R105, R106). -/
def Ctx.thawing (c : Ctx) : Bool := c.state == 3 && c.busy && c.command == 6

/-- The dispatchers place the context's releases (R104, R105, R107). -/
def Ctx.placing (c : Ctx) : Bool := (c.state == 3 || c.state == 4) && !c.freezing && !c.thawing

/-- The coach, numbered die × 24 + coach, belongs to the context (R96). -/
def Ctx.hasCoach (c : Ctx) (k : Nat) : Bool := bit c.coaches k

/-- The scale server of a coach is enabled for the context (R429). -/
def Ctx.serves (c : Ctx) (k : Nat) : Bool := Tab.get c.serving false k

/-- FREEZE begun, by command or by escalation (R101, R104): the context is frozen once nothing that it issued is outstanding. One that
meets a THAW in progress ends it, and the stacks not restored stay saved (log 121). -/
def State.beginFreeze (s : State) (c : Nat) : State :=
  let x := s.ctx c
  if (x.state = 3 ∨ x.state = 4) ∧ !x.freezing then
    (s.setCtx c { x with busy := true, command := 5 }).add [{ ev := .freezeComplete, arg := { c := c } }]
  else if x.state = 2 then s.setCtx c { x with state := 5, status := 0 }
  else s

/-- ESCALATION (R101): F4 records the event and freezes the context. -/
def State.escalate (s : State) (c code addr : Nat) : State :=
  State.beginFreeze { s with errlog := s.errlog ++ [{ code := code, ctx := c, addr := addr }] } c

/-- Ceiling-table entry e of a context: valid, its ceiling and its home bogie (R99). -/
def Ctx.ceiling (c : Ctx) (e : Nat) : Option (Nat × Nat) :=
  let w := Tab.get c.ceilings 0 e
  if bit w 4 then some (bits w 3 0, bits w 26 16) else none

/-- The resources that a header declares (R108). -/
def Header.resources (h : Header) : List Nat := (List.range 64).filter fun e => bit h.res e

/-- The lowest ceiling among a kernel's resources (R126); 15 where it declares none. -/
def lowestCeiling (c : Ctx) (h : Header) : Nat :=
  h.resources.foldl (fun n e => match c.ceiling e with
    | some p => min n p.1
    | none => n) 15

/-- The threshold of a frame on a bogie with a floor (R125). -/
def Frame.threshold (f : Frame) (floor : Nat) : Nat := f.claims.foldl (fun n p => max n p.2) (max f.prio floor)

/-- The threshold of a bogie (R125). -/
def Bogie.threshold (b : Bogie) : Nat :=
  match b.stack with
  | f :: _ => f.threshold b.floor
  | [] => b.floor

/-- A release of priority p is eligible (R125). -/
def Bogie.eligible (b : Bogie) (p : Nat) : Bool :=
  !b.closed && (match b.stack with
    | [] => decide (b.floor ≤ p)
    | _ => decide (b.threshold < p))

/-! ### Fit (R122) -/

/-- The scratchpad use of a frame in bytes (R122). -/
def Header.scratchUse (h : Header) : Nat := (h.scratch * 256 + 16 * h.barriers + 255) / 256 * 256

/-- The frames whose scratchpad and tiles count: those on the stack and those that drain. -/
def Bogie.holders (b : Bogie) : List Frame := b.stack ++ b.draining.map (·.frame)

/-- The lowest free run for a frame's scratchpad, if there is one (R122). -/
def Bogie.freeRun (b : Bogie) (h : Header) : Option Nat :=
  let n := h.scratchUse
  if n = 0 then some 0
  else
    ((List.range 192).map (256 * ·)).find? fun a =>
      decide (a + n ≤ 49152) && b.holders.all fun f =>
        f.hdr.scratchUse == 0 || decide (a + n ≤ f.sbase) || decide (f.sbase + f.hdr.scratchUse ≤ a)

/-- The bogie's tiles that no frame holds, lowest first; bogie g's share is eight of its coach's 64 (R270). -/
def Bogie.freeTiles (b : Bogie) (g : Nat) : List Nat :=
  ((List.range 8).map fun i => g % 8 * 8 + i).filter fun t => !b.holders.any fun f => f.tiles.contains t

/-- A sum over frames. -/
def sumOf (l : List Frame) (f : Header → Nat) : Nat := l.foldl (fun n x => n + f x.hdr) 0

/-- A kernel's frame fits the bogie (R122). -/
def Bogie.fits (b : Bogie) (h : Header) : Bool :=
  decide (sumOf b.stack (·.sregs) + h.sregs ≤ 512) && decide (sumOf b.stack (·.vregs) + h.vregs ≤ 128) &&
    decide (sumOf b.stack (fun h => h.kregs - 1) + (h.kregs - 1) ≤ 64) &&
    decide (sumOf b.holders (·.scratchUse) + h.scratchUse ≤ 49152) &&
    decide (sumOf b.holders (·.acc) + h.acc ≤ 8) && decide (b.stack.length + 1 ≤ 16) && (b.freeRun h).isSome

/-! ### Records -/

/-- The live group that a node reference names in a context, with its home and slot (R305, R315). -/
def State.groupOf (s : State) (ctx : Nat) (node : BitVec 32) : Option (Nat × Nat × Group) :=
  let home := bits node 31 28
  let slot := bits node 27 20
  match Tab.find (s.die home).groups slot with
  | some g =>
    if g.ctx = ctx ∧ (Tab.get (s.die home).gens 0 slot).toNat = bits node 19 12 ∧ bits node 11 0 < g.nodes.length then some (home, slot, g) else none
  | none => none

/-- The record image of a group instance (R309). -/
def Group.image (g : Group) (node : BitVec 32) (j : BitVec 32) : Vec :=
  let n := (g.nodes[bits node 11 0]?).getD {}
  let arg := fun i => ((g.args[i]?).getD 0).toNat * 2 ^ (64 * (2 + i))
  BitVec.ofNat 512 (n.kernel + n.prio * 2 ^ 16 + 2 ^ 33 + arg 0 + arg 1 + arg 2 + arg 3 + (node.toNat + j.toNat * 2 ^ 32) * 2 ^ 448)

/-- The record that a release names, as its dispatcher reads it (R309, R323). -/
def State.recordOf (s : State) (r : Release) : Option Vec :=
  if r.type = 3 then (s.groupOf r.ctx r.node).map fun g => g.2.2.image r.node r.arg
  else s.recordAt r.ctx r.record

/-- The number of a bogie's save slot in its context (R103), and the bogie that a slot number names. -/
def Ctx.slotOf (c : Ctx) (g : Nat) : Nat := ((List.range (g / 8)).filter fun k => c.hasCoach k).length * 8 + g % 8
/-- See Ctx.slotOf. -/
def Ctx.slotBogie (c : Ctx) (n : Nat) : Option Nat := (c.saved.map (·.1)).find? fun g => c.slotOf g == n

/-! ### Drops -/

/-- An event about a record for a context's class 0 handler, raised by the dispatcher of a die (R118, R124). -/
def State.dropEvent (s : State) (d : Nat) (r : Release) (code : Nat) : State :=
  let s := s.add [{ ev := .raiseEvent, arg := { d := d, c := r.ctx, info := { code := code, addr := BitVec.ofNat 64 r.record, record := r.record } } }]
  if r.type = 3 ∧ code = 0x12 then
    s.add [{ ev := .groupUpdate, arg := { d := bits r.node 31 28, req := { ctx := r.ctx, src := .firmware, op := .notice r.node r.arg false true } } }]
  else s

/-- F4 logs RELEASE_INVALID (R107, R120). -/
def State.dropLog (s : State) (r : Release) : State := { s with errlog := s.errlog ++ [{ code := 0x12, ctx := r.ctx }] }

/-! ### The pending store (R321) -/

/-- Entries of a die's store that a context holds beyond its 256 reserved ones. -/
def Die.shared (d : Die) : Nat :=
  (((d.store.map fun p => p.rel.ctx).eraseDups).map fun c => (d.store.filter fun p => p.rel.ctx == c).length - 256).sum

/-- A dispatcher can take an entry for a context (R321). -/
def Die.hasRoom (d : Die) (ctx : Nat) : Bool :=
  decide ((d.store.filter fun p => p.rel.ctx == ctx).length < 256) || decide (d.shared < 16128)

/-- An entry of a die's store put, changed or removed. -/
def State.putPending (s : State) (d : Nat) (p : Pending) : State :=
  let x := s.die d
  if x.store.any (fun q => q.id == p.id) then s.setDie d { x with store := x.store.map fun q => if q.id = p.id then p else q }
  else s.setDie d { x with store := x.store ++ [p] }
/-- See State.putPending. -/
def State.delPending (s : State) (d id : Nat) : State := s.setDie d { s.die d with store := (s.die d).store.filter fun q => q.id != id }

/-- The rank of a sender among those whose releases reach a FIFO in one clock (R127). -/
def senderRank (q : Src) (record : Nat) : Nat :=
  match q with
  | .task g _ => g
  | _ => 1536 + record

/-! ### FIFOs (R127, R324) -/

/-- A release sent on to another die's dispatcher (R129, R324); it holds its entry until it is accepted there. -/
def State.sendOn (s : State) (d die : Nat) (g : Option Nat) (p : Pending) : State :=
  let rel := match g with
    | some g => { p.rel with named := some g }
    | none => p.rel
  (s.putPending d { p with place := .leaving }).post d epDispatcher die p.rel.ctx p.rel.record 2 .releaseForward
    { d := die, h := d, n := p.id, g := g.getD 0, flag := g.isSome, val := p.d0, m := p.sender
      c := match p.order with
        | some i => i + 1
        | none => 0
      rel := { rel := rel } }

/-- A release put into the FIFO of bogie g of its die. -/
def State.joinBogie (s : State) (d g : Nat) (p : Pending) : State :=
  (s.putPending d { p with place := .fifo g p.rel.prio }).add [{ ev := .releaseEnqueuePush, arg := { g := g }, due := s.clock + 1 }]

/-- The stack of a closed bogie waits in its save slot for the RESUME that moves it (R141). -/
def State.moving (s : State) (ctx g : Nat) : Bool := (Tab.find (s.ctx ctx).saved g).any fun v => v.moved

/-- Bogie r is of a coach of the context that its die presents (R18, R102). -/
def State.hosts (s : State) (ctx r : Nat) : Bool :=
  (s.ctx ctx).hasCoach (r / 8) && decide (r / 8 % 24 < (s.die (dieOf r)).coaches)

/-- A release enters the FIFO of bogie g on die d; one for a closed bogie waits, or goes to the bogie that replaces it once the stack is
there, so that none passes those saved with it (R141, R324). -/
def State.enterFifo (s : State) (d g : Nat) (p : Pending) : State :=
  let b := s.bogie g
  let p := { p with clock := s.clock }
  if b.closed then
    match (if s.moving p.rel.ctx g then none else b.quarantined.filter fun r => s.hosts p.rel.ctx r) with
    | some r => if dieOf r = d then s.joinBogie d r { p with rel := { p.rel with named := some r } } else s.sendOn d (dieOf r) (some r) p
    | none => s.putPending d { p with place := .closed g }
  else s.joinBogie d g p

/-- A release routed to a bogie of any die. -/
def State.toBogie (s : State) (d g : Nat) (p : Pending) : State :=
  if dieOf g = d then s.enterFifo d g p else s.sendOn d (dieOf g) (some g) p

/-! ### Placement (R129) -/

/-- The bogies of the context's coaches that a die presents. -/
def State.bogiesOf (s : State) (c : Ctx) (d : Nat) : List Nat :=
  ((List.range (s.die d).coaches).filter fun k => c.hasCoach (d * 24 + k)).flatMap fun k => (List.range 8).map fun b => d * 192 + k * 8 + b

/-- A die holds a coach of the context. -/
def State.dieOfCtx (s : State) (c : Ctx) (d : Nat) : Bool := (List.range (s.die d).coaches).any fun k => c.hasCoach (d * 24 + k)

/-- The bogie of a die that placement chooses: an empty one before any other, then the lowest threshold, ties round-robin. -/
def State.chooseBogie (s : State) (c : Ctx) (d : Nat) (h : Header) : Option Nat :=
  let l := (s.bogiesOf c d).filter fun g => !(s.bogie g).closed && (s.bogie g).fits h && !(g % 8 == 7 && c.serves (g / 8))
  let empty := l.filter fun g => (s.bogie g).stack.isEmpty
  let best := if empty.isEmpty then
      let low := l.foldl (fun n g => min n (s.bogie g).threshold) 16
      l.filter fun g => (s.bogie g).threshold == low
    else empty
  match best.find? (fun g => decide ((s.die d).pointer ≤ g)) with
  | some g => some g
  | none => best.head?

/-- The header of a kernel index that placement and push use. -/
def Ctx.kernel (c : Ctx) (k : Nat) : Kernel := Tab.get c.kernels {} k

/-- Step 3 of R129 for an entry of a die; none where no bogie fits. DESIGN CHOICE: the round-robin pointer goes behind the bogie chosen,
whether or not there was a tie (log 144). -/
def State.tryPlace (s : State) (d : Nat) (p : Pending) : Option State :=
  let c := s.ctx p.rel.ctx
  if !s.dieOfCtx c d then
    match (List.range 8).find? (fun e => s.dieOfCtx c e) with
    | some e => some (s.sendOn d e none p)
    | none => none
  else
    match s.chooseBogie c d (c.kernel (bits p.d0 15 0)).hdr with
    | some g => some ((s.setDie d { s.die d with pointer := g + 1 }).enterFifo d g p)
    | none => none

/-- A release goes where R129 sends it, or waits in the die's store. -/
def State.route (s : State) (d : Nat) (p : Pending) : State :=
  match p.rel.named with
  | some g => s.toBogie d g p
  | none =>
    let c := s.ctx p.rel.ctx
    let h := (c.kernel (bits p.d0 15 0)).hdr
    match (h.resources.filterMap fun e => c.ceiling e).head? with
    | some r => s.toBogie d r.2 { p with rel := { p.rel with named := some r.2 } }
    | none =>
      if bit p.d0 20 then
        let g := bits p.d0 31 21
        s.toBogie d g { p with rel := { p.rel with named := some g } }
      else
        match s.tryPlace d p with
        | some s => s
        | none => s.putPending d { p with place := .waiting, clock := s.clock, order := none }

/-- R124: the record's affinity names no bogie of the context, or its kernel's resources are not all valid with one home, or the
two differ. -/
def State.inadmissible (s : State) (c : Ctx) (d0 : Word) (h : Header) : Bool :=
  let aff := bits d0 31 21
  let found := h.resources.filterMap fun e => c.ceiling e
  let homes := (found.map (·.2)).eraseDups
  (bit d0 20 && (!c.hasCoach (aff / 8) || decide ((s.die (dieOf aff)).coaches ≤ aff / 8 % 24))) || decide (found.length ≠ h.resources.length) ||
    decide (1 < homes.length) || (bit d0 20 && homes.any fun g => g != aff)

/-- The clamps of R98 and R126, which no handler task meets: neither its EVENT nor the RESUME that moves it. -/
def clampPrio (c : Ctx) (h : Header) (type p : Nat) : Nat :=
  if type = 2 ∨ (type = 4 ∧ p = 15) then 15 else min (min (max p c.bandLow) c.bandHigh) (lowestCeiling c h)

/-- A placed release with its priority clamped into the band as it is now, which a write in Frozen may have moved (R98). DESIGN CHOICE: from
the priority that an earlier clamp gave it, and not from the one asked for (log 142). -/
def State.reclamp (s : State) (p : Pending) : Pending :=
  let c := s.ctx p.rel.ctx
  { p with rel := { p.rel with prio := clampPrio c (c.kernel (bits p.d0 15 0)).hdr p.rel.type p.rel.prio } }

/-- The saved stack that a RESUME names (R141), with its bogie. -/
def State.resumeSlot (s : State) (r : Release) : Option Saved :=
  match (s.ctx r.ctx).slotBogie r.arg.toNat with
  | some g => Tab.find (s.ctx r.ctx).saved g
  | none => none

/-- What waits for a closed bogie enters its FIFO when it is reopened, or goes to its replacement, in arrival order, behind n releases that
went before (R141). What the dispatchers do not place now waits on (R104, R107). -/
def State.endClosed (s : State) (g : Nat) (n : Nat := 0) : State :=
  let l := (s.die (dieOf g)).store.filter fun p => p.place == .closed g && (s.ctx p.rel.ctx).placing
  ((List.range l.length).zip l).foldl (fun s e => s.enterFifo (dieOf g) g { e.2 with order := some (n + e.1) }) s

/-- A release dropped (R118, R124). With a RESUME the stack goes that it was to restore and its saved releases, and what waited for
that goes on (log 137). -/
def State.dropWith (s : State) (d : Nat) (p : Pending) (code : Nat) : State :=
  let t := (s.delPending d p.id).dropEvent d p.rel code
  match (if p.rel.type = 4 then s.resumeSlot p.rel else none) with
  | some v =>
    let t := t.setCtx p.rel.ctx { t.ctx p.rel.ctx with saved := Tab.del (t.ctx p.rel.ctx).saved v.g }
    (v.fifo.foldl (fun t q => t.delPending (dieOf v.g) q.id) t).endClosed v.g
  | none => t

/-- The first doubleword of the record that a release names, as R323 has its dispatcher read it: of a RESUME, the saved frame's. -/
def State.firstWord (s : State) (r : Release) : Option Word :=
  if r.type = 4 then ((s.resumeSlot r).bind fun v => v.frames.head?).map fun f => f.frame.d0
  else (s.recordOf r).map fun w => dword w 0

/-- A release's dispatcher reads its record from memory (R117, R309). -/
def readsRecord (r : Release) : Bool := (r.type == 1 || r.type == 2) && r.record % 64 == 0

/-- Why the read of a release's record must wait (R350, R355, R356). -/
def State.recordWaits (s : State) (r : Release) : Option (Option Nat) := if readsRecord r then s.readWaits r.ctx r.record else none

/-- The alias that the read of a release's record leaves at its home, or the walk that failed (R345, R353). -/
def State.noteRecord (s : State) (r : Release) : State := if readsRecord r then s.noteRead r.ctx r.record else s

/-- The releases of a context that a die holds are to come again in the next clock. -/
def State.holdAgain (s : State) (d ctx : Nat) : State :=
  if s.agenda.any fun h => h.ev == .holdEnd && h.arg.d == d && h.arg.c == ctx && decide (s.clock < h.due) then s
  else s.add [{ ev := .holdEnd, arg := { d := d, c := ctx }, due := s.clock + 1 }]

/-- A release whose record cannot be read yet is held, and read again in the next clock (R350, R355, R356). -/
def State.holdRecord (s : State) (d : Nat) (p : Pending) (home : Option Nat) : State :=
  ((s.parkRead home .firmware p.rel.ctx p.rel.record).putPending d { p with place := .held, clock := s.clock }).holdAgain d p.rel.ctx

/-- RELEASE_PLACEMENT (R323): the checks that an accepted release passes, in order. -/
def State.placeRelease (s : State) (d : Nat) (p : Pending) : State :=
  let r := p.rel
  let c := s.ctx r.ctx
  if c.state = 2 ∨ c.state = 5 ∨ c.freezing ∨ c.thawing then s.putPending d { p with place := .held, clock := s.clock }
  else if !c.placing then (s.delPending d p.id).dropLog r
  else if r.type = 0 ∨ 4 < r.type then (s.delPending d p.id).dropLog r
  else
    match s.recordWaits r, s.firstWord r with
    | some home, _ => s.holdRecord d p home
    | none, none => (s.noteRecord r).dropWith d p 0x12
    | none, some d0 =>
      let s := s.noteRecord r
      let k := c.kernel (bits d0 15 0)
      if bits d0 63 34 ≠ 0 ∨ k.state = 0 then s.dropWith d p 0x12
      else if k.state = 2 then s.putPending d { p with place := .held, clock := s.clock, d0 := d0 }
      else if r.type = 2 ∧ k.hdr.res ≠ 0 then (s.delPending d p.id).escalate r.ctx 0x13 r.record
      else if s.inadmissible c d0 k.hdr then s.dropWith d p 0x13
      else s.route d { p with d0 := d0, rel := { r with prio := clampPrio c k.hdr r.type r.prio } }

/-- A release performed: its sender is told (R184). -/
def State.accepted (s : State) (d : Nat) (q : RelReq) : State :=
  if q.id = 0 then s else s.answer d { id := q.id, src := q.src, ctx := q.rel.ctx, op := .fence } 0 0

/-- A number for each sender of releases, which may have several senders' releases refused at once (R322); the frames of a bogie are one. -/
def senderKey (q : Src) : Nat :=
  match q with
  | .task g _ => 8 * g
  | .hart d h => 8 * (d * 22 + h) + 1
  | .array d c => 8 * (d * 24 + c) + 2
  | .host => 3
  | .firmware => 4
  | .peer m => 8 * m + 5

/-- A release of the same sender, refused by the dispatcher, waits to be sent again (R322). -/
def State.refusedBefore (s : State) (lane : Nat × Nat) : Bool := s.agenda.any fun h => h.lane == some lane

/-- A refused happening comes again, no sooner than 1 µs later: behind those of its sender that were refused before, and before them all
where it is the first of them (R321, R322). -/
def State.sendAgain (s : State) (h : Happening) (lane : Nat × Nat) (first : Bool) : State :=
  let h := { h with lane := some lane, due := s.clock + 1700 }
  if first then { s with agenda := h :: s.agenda } else s.add [h]

/-- A release that arrives at a dispatcher (R321): accepted and placed, or refused and to be sent again. -/
def State.acceptRelease (s : State) (d : Nat) (q : RelReq) (again : Bool) : State :=
  let lane := (7100 + d, senderKey q.src)
  if !(s.die d).hasRoom q.rel.ctx || (!again && s.refusedBefore lane) then
    s.sendAgain { ev := .releaseResend, arg := { d := d, rel := q } } lane again
  else
    let (id, s) := s.newId
    ((s.accepted d q).placeRelease d
      { id := id, rel := q.rel, sender := if q.agent then 1536 + q.rel.record else senderRank q.src q.rel.record })

/-- RELEASE_ACCEPT (R321, R323). -/
def releaseAccept (d : Nat) (q : RelReq) (s : State) : State := s.acceptRelease d q false

/-- RELEASE_RESEND (R321): no sooner than 1 µs after the refusal, and in the sender's order. -/
def releaseResend (d : Nat) (q : RelReq) (s : State) : State := s.acceptRelease d q true

/-- RELEASE_FORWARD (R324): another die's dispatcher accepts a release that was sent on to it, in the order in which that dispatcher sent
them (R322); va is 1 when it comes again. The checks of R323 are not made again; while the dispatchers do not place the context's
releases it waits in the store (R104, R107). -/
def releaseForward (a : Args) (s : State) : State :=
  let lane := (7000 + a.h, a.d)
  if !(s.die a.h).store.any (fun p => p.id == a.n) then s
  else if !(s.die a.d).hasRoom a.rel.rel.ctx || (a.va == 0 && s.refusedBefore lane) then
    s.sendAgain { ev := .releaseForward, arg := { a with va := 1 } } lane (a.va == 1)
  else
    let p := s.reclamp { id := a.n, rel := a.rel.rel, d0 := a.val, sender := a.m, order := if a.c = 0 then none else some (a.c - 1) }
    let c := s.ctx p.rel.ctx
    let s := s.delPending a.h a.n
    if c.state = 0 ∨ c.state = 1 ∨ c.state = 6 then s.dropLog p.rel
    else if !c.placing then
      s.putPending a.d { p with place := if a.flag then .closed a.g else .waiting, clock := s.clock, order := none }
    else if a.flag then s.enterFifo a.d a.g p
    else
      match s.tryPlace a.d p with
      | some s => s
      | none => s.putPending a.d { p with place := .waiting, clock := s.clock, order := none }

/-- HOLD_END (R324, R107, R112): the releases of a context that a die holds go through R323 again, in arrival order. Those
held for a kernel that still drains are held again. -/
def holdEnd (d ctx : Nat) (s : State) : State :=
  let l := (s.die d).store.filter fun p => p.rel.ctx == ctx && p.place == .held
  ((List.range l.length).zip l).foldl (fun s e => s.placeRelease d { e.2 with order := some e.1 }) s

/-- A hold of the context's releases ends on every die. -/
def State.endHolds (s : State) (ctx : Nat) : State :=
  s.add ((List.range 8).map fun d => { ev := .holdEnd, arg := { d := d, c := ctx } })

/-- RETRY_WAITING_RELEASES (R129): the oldest release of the highest waiting level is tried, and so on until one is not placed. -/
def State.retryWaiting (s : State) (d ctx fuel : Nat) : State :=
  match fuel with
  | 0 => s
  | n + 1 =>
    let l := (s.die d).store.filter fun p => p.rel.ctx == ctx && p.place == .waiting
    let top := l.foldl (fun m p => max m p.rel.prio) 0
    match l.find? (fun p => p.rel.prio == top) with
    | none => s
    | some p =>
      if !(s.ctx ctx).placing then s
      else
        match s.tryPlace d p with
        | some s => s.retryWaiting d ctx n
        | none => s

/-- Placing begins again for a context: its releases that wait are clamped into the band as it is now, those for a bogie enter its FIFO, and
the others are tried (R98, R107, R129). -/
def State.resumePlacing (s : State) (ctx : Nat) : State :=
  (List.range 8).foldl (fun s d =>
    let s := s.setDie d { s.die d with store := (s.die d).store.map fun p => if p.rel.ctx = ctx then
      match p.place with
      | .waiting | .closed _ => s.reclamp p
      | _ => p
      else p }
    let gs := ((s.die d).store.filterMap fun p => match p.place with
      | .closed g => if p.rel.ctx = ctx then some g else none
      | _ => none).eraseDups
    let s := gs.foldl (fun s g => s.endClosed g) s
    s.retryWaiting d ctx (s.die d).store.length) s

/-- The waiting releases of a context retried on the die of a bogie. -/
def State.retry (s : State) (g ctx : Nat) : State := s.retryWaiting (dieOf g) ctx (s.die (dieOf g)).store.length

/-! ### The decision (R128) and the push (R130, R326) -/

/-- Entry a comes before entry b in a FIFO (R127): by the clock in which they came, then those whose place was settled before, then by the
sender's rank. -/
def Pending.before (a b : Pending) : Bool :=
  decide (a.clock < b.clock) || (a.clock == b.clock && (match a.order, b.order with
    | some i, some j => decide (i < j)
    | some _, none => true
    | none, some _ => false
    | none, none => decide (a.sender < b.sender)))

/-- An entry put where it belongs among entries in FIFO order. -/
def Pending.insert (p : Pending) (l : List Pending) : List Pending :=
  match l with
  | [] => [p]
  | q :: r => if p.before q then p :: q :: r else q :: p.insert r

/-- Entries in FIFO order. -/
def fifoSort (l : List Pending) : List Pending := l.foldl (fun m p => p.insert m) []

/-- The head of a bogie's FIFO of a level among the releases that entered before the present clock. -/
def State.fifoHead (s : State) (g level : Nat) : Option Pending :=
  ((s.die (dieOf g)).store.filter fun p => p.place == .fifo g level && decide (p.clock < s.clock)).foldl (fun m p =>
    match m with
    | none => some p
    | some q => if p.before q then some p else some q) none

/-- Whether a FIFO's head fits: a RESUME restores a stack onto an empty bogie (R141). -/
def State.headFits (s : State) (g : Nat) (p : Pending) : Bool :=
  let b := s.bogie g
  if p.rel.type = 4 then b.stack.isEmpty && b.draining.isEmpty else b.fits ((s.ctx p.rel.ctx).kernel (bits p.d0 15 0)).hdr

/-- The release that R128 chooses. -/
def State.decision (s : State) (g : Nat) : Option Pending :=
  ((List.range 16).map (15 - ·)).findSome? fun level =>
    match s.fifoHead g level with
    | some p => if (s.bogie g).eligible level && (s.ctx p.rel.ctx).placing && s.headFits g p then some p else none
    | none => none

/-- A range of the scratchpad and a set of tiles set to zero, with no poison (R130). -/
def State.clearHoldings (s : State) (g base n : Nat) (tiles : List Nat) : State :=
  let b := s.bogie g
  let s := s.setBogie g { b with
    scratch := Tab.clear b.scratch base n
    spoison := b.spoison.filter fun k => !(decide (base ≤ 32 * k) && decide (32 * k < base + n))
    wiping := b.wiping.filter fun w => !(decide (base ≤ 32 * w.at') && decide (32 * w.at' < base + n))
    fresh := b.fresh.filter fun a => !(decide (base ≤ a) && decide (a < base + n)) }
  let c := s.coach (coachOf g)
  s.setCoach (coachOf g) { c with tiles := tiles.foldl (fun t k => Tab.del t k) c.tiles }

/-- The four fault fields that a handler's frame reads, from its fault record's slot (R166, R292). -/
def State.faultFields (s : State) (r : Release) : Word × Word × Word × Word :=
  match (if r.type = 2 then s.recordAt r.ctx (r.record + 64 * (1 + r.arg.toNat % 16)) else none) with
  | some w => (dword w 1, BitVec.ofNat 64 (bits (dword w 2) 7 0), dword w 3, dword w 4)
  | none => (0, 0, 0, 0)

/-- The frame that a release pushes, from its record (R130), on a range and tiles. Its tag counts the pushes before its own (R213,
log 131). -/
def State.newFrame (s : State) (g uid : Nat) (p : Pending) (w : Vec) (h : Header) (base : Nat) (tiles : List Nat) : Frame :=
  let r := p.rel
  let inst := w.extractLsb' 480 32
  let x : Tab Word := [(1, dword w 2), (2, dword w 3), (3, dword w 4), (4, dword w 5), (5, r.arg.setWidth 64),
    (6, BitVec.ofNat 64 r.record), (7, inst.setWidth 64)].filter fun (e : Nat × Word) => e.2 != 0
  let first := BitVec.ofInt 64 ((h.addr : Int) + h.codeOff)
  let ninst := match (if r.type = 3 then s.groupOf r.ctx r.node else none) with
    | some grp => max 1 ((grp.2.2.nodes[bits r.node 11 0]?).getD {}).count
    | none => 0
  let ff := s.faultFields r
  { uid := uid, ctx := r.ctx, type := r.type, record := r.record, d0 := p.d0, succ := (dword w 6).toNat, arg := r.arg, inst := inst,
    node := w.extractLsb' 448 32, ninst := ninst, cls := r.cls, kernel := bits p.d0 15 0, prio := r.prio, level := r.prio,
    tag := (s.bogie g).pushes, window := if h.yield = 0 then 4095 else h.yield, hdr := h,
    cpu := { x := x, pc := if bit p.d0 32 then dword w 1 else first }, sbase := base, tiles := tiles,
    faultPc := ff.1, faultCode := ff.2.1, faultAddr := ff.2.2.1, faultExtra := ff.2.2.2, acquire := true, bogies := [g] }

/-- A frame put on top of the stack; its release is its triggering message. -/
def State.pushFrame (s : State) (g : Nat) (f : Frame) : State :=
  let b := s.bogie g
  (s.setBogie g { b with stack := f :: b.stack, pushes := b.pushes + 1, phase := .waiting }).add
    [{ ev := .triggerDelivery, arg := { g := g } }]

/-- One saved frame restored onto a bogie, with a range and tiles taken afresh (R122). -/
def State.restoreFrame (s : State) (g : Nat) (x : SavedFrame) : State :=
  let b := s.bogie g
  let f := x.frame
  let base := (b.freeRun f.hdr).getD 0
  let tiles := (b.freeTiles g).take f.hdr.acc
  let s := s.clearHoldings g base f.hdr.scratchUse tiles
  let b := s.bogie g
  let s := s.setBogie g { b with
    stack := { f with sbase := base, tiles := tiles, bogies := if f.bogies.contains g then f.bogies else g :: f.bogies } :: b.stack
    scratch := Tab.setList b.scratch 0 base x.scratch
    spoison := b.spoison ++ x.poison.map (base / 32 + ·)
    wiping := b.wiping ++ x.wiping.map fun w => { w with at' := base / 32 + w.at' } }
  let c := s.coach (coachOf g)
  s.setCoach (coachOf g) { c with tiles := (tiles.zip x.tiles).foldl (fun t e => Tab.put t e.1 e.2) c.tiles }

/-- The address of a bogie's save slot (R103). -/
def Ctx.slotBase (c : Ctx) (g : Nat) : Nat := c.saveBase.toNat + c.slotOf g * 655360

/-- The bytes that F2 puts into a slot, whose layout no one else knows: free ones (R103). -/
def slotBytes (seed o n : Nat) : List Byte := (List.range n).map fun i => (Config.freeWord (seed + o + i)).setWidth 8

/-- The physical bytes of a slot as memory lists them, by 8 KiB granules with their offset in the slot. -/
def State.slotSpans (s : State) (ctx g : Nat) : List (Nat × Nat) :=
  (List.range 80).filterMap fun i => (s.phys ctx ((s.ctx ctx).slotBase g + 8192 * i)).map fun k => (8192 * i, k)

/-- A slot written by F2 (R103): every byte of its memory is free. -/
def State.writeSlot (s : State) (ctx g seed : Nat) : State :=
  (s.slotSpans ctx g).foldl (fun s e => s.writeBytes e.2 (slotBytes seed e.1 8192)) s

/-- The memory of a slot no longer holds what F2 wrote. -/
def State.slotAltered (s : State) (v : Saved) : Bool :=
  match v.frames with
  | [] => false
  | f :: _ => (s.slotSpans f.frame.ctx v.g).any fun e => s.readBytes e.2 8192 != slotBytes v.seed e.1 8192

/-- A slot whose memory was altered restored as it stands (R103): what a frame holds is free. -/
def Saved.freed (v : Saved) (ctr : Nat) : Saved :=
  let word := fun (i : Nat) => Config.freeWord (ctr + i)
  let vec := fun (i : Nat) => (BitVec.ofNat 512 (natOfBytes (slotBytes ctr (64 * i) 64)) : Vec)
  { v with
    scale := Tab.ofFn 0 0 1024 fun i => (word i).setWidth 32
    frames := v.frames.map fun f => { f with
      scratch := slotBytes ctr 0 f.scratch.length
      tiles := f.tiles.map fun t => { t with data := Tab.ofFn 0 0 16384 fun i => (word i).setWidth 32 }
      frame := { f.frame with
        cpu := { f.frame.cpu with x := Tab.ofFn 0 1 (f.frame.hdr.sregs - 1) word, pc := word 0 }
        v := Tab.ofFn 0 0 f.frame.hdr.vregs vec
        k := Tab.ofFn 0 1 (f.frame.hdr.kregs - 1) word } } }

/-- A saved release enters a FIFO again (R105, R141): with the clock at which it came, so that it stays before what came since, and with
its priority clamped into the band as it is now (R98). DESIGN CHOICE: where the band has made one level of two, their releases go by those
clocks and not by the levels at which they were saved (log 143). -/
def State.rejoin (s : State) (d g : Nat) (p : Pending) : State :=
  let p := s.reclamp p
  let p := { p with rel := { p.rel with named := some g } }
  if dieOf g = d then s.joinBogie d g p else s.sendOn d (dieOf g) (some g) p

/-- A save slot restored onto a bogie: the stack in order, the scale file, then the pending FIFOs in level and FIFO order
(R105, R141). -/
def State.restoreSlot (s : State) (g : Nat) (v : Saved) : State :=
  let v := if s.slotAltered v then v.freed s.freeCtr else v
  let s := v.frames.reverse.foldl (fun s x => s.restoreFrame g x) s
  let b := s.bogie g
  let s := s.setBogie g { b with scale := v.scale, streak := v.streak, phase := if v.frames.isEmpty then b.phase else .waiting }
  let s := match v.latch with
    | some (c, w, p) => s.setBogie g { s.bogie g with cycle := c, cwp := w, pfLatch := p, ckpt := (s.bogie g).stack.head? }
    | none => s
  let s := if v.frames.isEmpty then s else (s.add [{ ev := .triggerDelivery, arg := { g := g } }]).checkBwait g
  ((List.range v.fifo.length).zip v.fifo).foldl (fun s e => s.rejoin (dieOf v.g) g { e.2 with order := some e.1 }) s

/-- The next activation of the top frame begins with the acquire actions. -/
def State.acquireTop (s : State) (g : Nat) : State :=
  match (s.bogie g).stack with
  | f :: r => s.setBogie g { s.bogie g with stack := { f with acquire := true } :: r }
  | [] => s

/-- Why a push must wait: the read of its record, or of the fault record that a handler is given (R292, R350, R355, R356), with the address. -/
def State.pushWaits (s : State) (r : Release) : Option (Option Nat × Nat) :=
  match s.recordWaits r with
  | some home => some (home, r.record)
  | none =>
    let slot := r.record + 64 * (1 + r.arg.toNat % 16)
    if r.type = 2 then (s.readWaits r.ctx slot).map fun home => (home, slot) else none

/-- RELEASE_PUSH (R326): the kernel index is tested, the record read, and the frame set up, all once the reads need not wait; a RESUME restores the saved stack, the push
being an acquire for its task as well, and then what waited for the closed bogie follows it. -/
def State.pushRelease (s : State) (g : Nat) (p : Pending) : State :=
  let d := dieOf g
  let r := p.rel
  let c := s.ctx r.ctx
  let k := c.kernel (bits p.d0 15 0)
  if k.state = 0 then s.dropWith d p 0x12
  else if k.state = 2 then s.putPending d { p with place := .held, clock := s.clock }
  else if r.type = 4 then
    match s.resumeSlot r with
    | some v =>
      let uid := (v.frames.head?.map fun f => f.frame.uid).getD 0
      let s := (s.putPending d { p with place := .pushed uid }).setCtx r.ctx { c with saved := Tab.del c.saved v.g }
      (((s.setBogie g { s.bogie g with replaces := some v.g }).restoreSlot g v).acquireTop g).endClosed v.g v.fifo.length
    | none => s.delPending d p.id
  else
    match s.pushWaits r, s.recordOf r with
    | some (home, va), _ => s.parkRead home .firmware r.ctx va
    | none, none =>
      let s := (s.noteRecord r).delPending d p.id
      if r.type = 2 then s.escalate r.ctx 0x12 r.record else s.dropEvent d r 0x12
    | none, some w =>
      let s := s.noteRecord r
      let base := ((s.bogie g).freeRun k.hdr).getD 0
      let tiles := ((s.bogie g).freeTiles g).take k.hdr.acc
      let (uid, s) := s.newId
      let f := s.newFrame g uid p w k.hdr base tiles
      (((s.putPending d { p with place := .pushed uid }).clearHoldings g base k.hdr.scratchUse tiles).pushFrame g f)

/-- A pushed release consumed: its entry is freed (R327, R330). -/
def State.consume (s : State) (uid : Nat) : State :=
  if s.dies.any fun d => d.2.store.any fun p => p.place == .pushed uid then
    { s with dies := Tab.mapVals s.dies fun d => { d with store := d.store.filter fun p => p.place != .pushed uid } }
  else s

/-- PREEMPTION_DECISION (R128): the chosen release, if any, is pushed. One that is dropped or held instead lets the bogie decide again
in the next clock (R326). -/
def State.preempt (s : State) (g : Nat) : State :=
  match s.decision g with
  | some p =>
    let t := s.pushRelease g p
    if (t.bogie g).stack.length = (s.bogie g).stack.length then
      t.add [{ ev := .releaseEnqueuePush, arg := { g := g }, due := s.clock + 1 }]
    else t
  | none => s

/-- The top frame goes on: its triggering message is delivered, at once or when it comes (R128, R133). -/
def State.resumeTop (s : State) (g : Nat) : State :=
  let b := s.bogie g
  match b.stack with
  | [] => s.setBogie g { b with phase := .idle }
  | _ =>
    ((s.setBogie g { b with phase := .waiting }).add [{ ev := .triggerDelivery, arg := { g := g } }]).checkBwait g

/-- A request during whose wait a bogie may push (R216, R300, R325, R372): an acquire load, a returning atomic, BWAIT, MXQ, CRING, TRAP,
COUPLE or UNCOUPLE. -/
def pushesWhile (o : Op) : Bool :=
  match o with
  | .load _ _ _ | .atomic _ _ _ _ _ _ _ | .bwait _ _ | .mxqTile _ | .mxqSlot _ | .cring _ _ | .trap _ _ | .couple _ _ | .uncouple _ _ => true
  | _ => false

/-- The bogie makes the decision of R128 outside a verdict (R216, R325): its stack is empty, or its top frame awaits an answer. A frame
whose activation was rolled back awaits none: its message is only redelivered, and a rollback grants no preemption (R140). -/
def Bogie.awaitsTop (b : Bogie) : Bool :=
  match b.stack.head? with
  | some f => b.phase == .waiting && b.ckpt.isNone && f.await.any fun a => pushesWhile a.op
  | none => b.stack.isEmpty

/-- RELEASE_ENQUEUE_PUSH (R325): a release entered a FIFO of a bogie that may then decide. -/
def releaseEnqueuePush (g : Nat) (s : State) : State := if (s.bogie g).awaitsTop then s.preempt g else s

/-- FRAME_DRAIN_END (R123, R129, R325): a draining frame gives up its scratchpad and tiles, and releases that wait are tried. -/
def frameDrainEnd (g uid : Nat) (s : State) : State :=
  let b := s.bogie g
  match b.draining.find? (fun x => x.frame.uid == uid) with
  | none => s
  | some x =>
    if s.holdsFrame g x.frame then s
    else
      let lo := x.frame.sbase
      let n := x.frame.hdr.scratchUse
      let s := s.setBogie g { b with draining := b.draining.filter fun y => y.frame.uid != uid
                                     fresh := b.fresh.filter fun a => !(decide (lo ≤ a) && decide (a < lo + n)) }
      let s := s.retry g x.frame.ctx
      if (s.bogie g).stack.isEmpty then s.preempt g else s

/-- RELEASE_ACCEPT. -/
def execReleaseAccept (s : State) : Host.Outcome State Fault Refusal := .next (releaseAccept s.arg.d s.arg.rel s)
/-- RELEASE_RESEND. -/
def execReleaseResend (s : State) : Host.Outcome State Fault Refusal := .next (releaseResend s.arg.d s.arg.rel s)
/-- RELEASE_FORWARD. -/
def execReleaseForward (s : State) : Host.Outcome State Fault Refusal := .next (releaseForward s.arg s)
/-- HOLD_END. -/
def execHoldEnd (s : State) : Host.Outcome State Fault Refusal := .next (holdEnd s.arg.d s.arg.c s)
/-- RELEASE_ENQUEUE_PUSH. -/
def execReleaseEnqueuePush (s : State) : Host.Outcome State Fault Refusal := .next (releaseEnqueuePush s.arg.g s)
/-- FRAME_DRAIN_END. -/
def execFrameDrainEnd (s : State) : Host.Outcome State Fault Refusal := .next (frameDrainEnd s.arg.g s.arg.n s)

end Sys2Proof.Machine
end

