-- ==== Sys2Proof/Machine/Group.lean ====
section
/-! DEFINITION. Groups (R302-R318): counters, completion, ready queues and instances, and the words GDEC and GNODE. -/

namespace Sys2Proof.Machine

/-! ### Shares (R307) -/

/-- The lowest-numbered die with a nonzero weight. -/
def Group.homeDie (g : Group) : Nat := (g.weights.findIdx? fun w => w != 0).getD 0

/-- The instances of an indexed node of n that die d takes: the first, and the first beyond. -/
def Group.share (g : Group) (n d : Nat) : Nat × Nat :=
  let w := g.weights.sum
  let before := (g.weights.take d).sum
  (n * before / w, n * (before + (g.weights[d]?).getD 0) / w)

/-- The instances of node i that die d issues. -/
def Group.portion (g : Group) (i d : Nat) : Nat × Nat :=
  let n := ((g.nodes[i]?).getD {}).count
  if n = 0 then (if d = g.homeDie then (0, 1) else (0, 0)) else g.share n d

/-- The die that issued instance j of node i (R310). -/
def Group.issuer (g : Group) (i j : Nat) : Nat :=
  ((List.range 8).find? fun d => decide ((g.portion i d).1 ≤ j) && decide (j < (g.portion i d).2)).getD g.homeDie

/-! ### Counters (R311) -/

/-- A group within one clock: the nodes that have reached zero, the reports dropped, and the underflow that stopped it. -/
structure GStep where
  g       : Group
  reached : List Nat := []
  dropped : Nat := 0
  under   : Option (Nat × Nat) := none

/-- Decrement(m, c) for a cause (R311, R314). -/
def GStep.decrement (t : GStep) (m c cause : Nat) : GStep :=
  if t.under.isSome then t
  else
    let n := (t.g.nodes[m]?).getD {}
    if n.pred < c then { t with under := some (m, cause) }
    else
      let t := { t with g := { t.g with nodes := t.g.nodes.set m { n with pred := n.pred - c } } }
      if n.pred = c then { t with reached := t.reached ++ [m] } else t

/-- Complete(n) (R311). -/
def GStep.complete (t : GStep) (n : Nat) : GStep :=
  let x := (t.g.nodes[n]?).getD {}
  let t := { t with g := { t.g with nodes := t.g.nodes.set n { x with complete := true }, done := t.g.done + 1 } }
  x.succs.foldl (fun t m => t.decrement m 1 n) t

/-- A report for node n. -/
def GStep.report (t : GStep) (n : Nat) : GStep :=
  let x := (t.g.nodes[n]?).getD {}
  if x.pred ≠ 0 ∨ x.complete then { t with dropped := t.dropped + 1 }
  else
    let t := { t with g := { t.g with nodes := t.g.nodes.set n { x with left := x.left - 1 } } }
    if x.left = 1 then t.complete n else t

/-- The empty nodes that reached zero and have not completed complete, the lowest first; each does so at most once. -/
def GStep.empties (t : GStep) (fuel : Nat) : GStep :=
  match fuel with
  | 0 => t
  | k + 1 =>
    if t.under.isSome then t
    else
      let l := t.reached.filter fun n => ((t.g.nodes[n]?).getD {}).kernel == 0xFFFF && !((t.g.nodes[n]?).getD {}).complete
      match l.foldl (fun (m : Option Nat) n => match m with
          | some x => some (min x n)
          | none => some n) none with
      | some n => (t.complete n).empties k
      | none => t

/-- The group is no longer Running: its state says so, or an update of this clock has brought its completed nodes to all (R316). -/
def GStep.ended (t : GStep) : Bool := decide (t.g.state ≠ 1) || decide (t.g.done = t.g.nodes.length)

/-- One update of a clock; a credit returns even once an underflow has stopped the rest, which is discarded (R314). -/
def GStep.apply (t : GStep) (o : Op) : GStep :=
  match o with
  | .notice node inst report credit =>
    let i := bits node 11 0
    let d := t.g.issuer i inst.toNat
    let t := if credit then { t with g := { t.g with flight := Tab.put t.g.flight d (Tab.get t.g.flight 0 d - 1) } } else t
    if !report || t.under.isSome then t else if t.ended then { t with dropped := t.dropped + 1 } else t.report i
  | .gdec h c =>
    if t.under.isSome then t else if t.ended then { t with dropped := t.dropped + 1 } else t.decrement (bits h 11 0) c 0xFFFFFFFF
  | _ => t

/-! ### What follows from a clock's updates -/

/-- The reference of node i of the group in a slot of a home (R305). -/
def State.nodeRef (s : State) (home slot i : Nat) : BitVec 32 :=
  BitVec.ofNat 32 (home * 2 ^ 28 + slot * 2 ^ 20 + (Tab.get (s.die home).gens 0 slot).toNat * 2 ^ 12 + i)

/-- A slot of a counter store changed. -/
def State.putGroup (s : State) (home slot : Nat) (g : Group) : State :=
  s.setDie home { s.die home with groups := Tab.put (s.die home).groups slot g }

/-- A slot freed (R316): its generation rises. -/
def State.freeGroup (s : State) (home slot : Nat) : State :=
  let x := s.die home
  s.setDie home { x with groups := Tab.del x.groups slot, gens := Tab.put x.gens slot (Tab.get x.gens 0 slot + 1) }

/-- A group's nodes leave every ready queue (R314). -/
def State.unready (s : State) (home slot : Nat) : State :=
  { s with dies := Tab.mapVals s.dies fun d => { d with ready := d.ready.filter fun r => !(r.home == home && r.slot == slot) } }

/-- A store of firmware that is numbered, so that what follows it can wait until it is performed. -/
def State.fwStoreId (s : State) (ctx va : Nat) (l : List Byte) : Nat × State :=
  let (id, s) := s.newId
  (id, s.fwSend id ctx va l)

/-- A node of a running group enters the ready queue of a die, and an issue of that die is to come (R312). -/
def State.enterReady (s : State) (d home slot i : Nat) (node : BitVec 32) : State :=
  match Tab.find (s.die home).groups slot with
  | some g =>
    let p := g.portion i d
    let x := s.die d
    if g.state = 1 then
      (s.setDie d { x with ready := x.ready ++ [{ home := home, slot := slot, gen := BitVec.ofNat 8 (bits node 19 12), node := i
                                                  level := ((g.nodes[i]?).getD {}).prio, next := p.1, last := p.2, since := s.clock }] }).add
        [{ ev := .issueInstance, arg := { d := d }, due := s.clock + 1 }]
    else s
  | none => s

/-- The nodes that a group names ready enter the ready queue of its home in the same clock, and are announced to the other dies that have a
share of them (R311, R312). -/
def State.announce (s : State) (home slot : Nat) (g : Group) (nodes : List Nat) : State :=
  nodes.foldl (fun s i => (List.range 8).foldl (fun s d =>
    let p := g.portion i d
    if p.2 ≤ p.1 then s
    else if d = home then s.enterReady d home slot i (s.nodeRef home slot i)
    else
      s.post home epDispatcher d g.ctx 0 1 .issueInstance
        { d := d, h := home, n := slot, m := i, flag := true, val := (s.nodeRef home slot i).setWidth 64 }) s) s

/-- The outcome of a clock for the group of a slot (R311, R314, R316). The stores to its block come one after the other, each a release
store, and the event of an underflow, or the done release, only once they are performed (R313). -/
def State.settle (s : State) (home slot : Nat) (t : GStep) : State :=
  let s := (List.replicate t.dropped ()).foldl (fun s _ => { s with errlog := s.errlog ++ [{ code := 0x11, ctx := t.g.ctx }] }) s
  let g := t.g
  let s := match t.under with
    | some (m, cause) =>
      ((s.putGroup home slot { g with state := 3, completed := g.done }).unready home slot).fwStores g.ctx
        [(g.block + 20, bytesOfNat 4 m), (g.block + 16, bytesOfNat 4 g.done), (g.block + 13, [BitVec.ofNat 8 (3 * 16)])]
        [{ ev := .raiseEvent, arg := { d := home, c := g.ctx, info := { code := 0x11, addr := BitVec.ofNat 64 g.table, extra := BitVec.ofNat 64 (m * 2 ^ 32 + cause), record := g.block } } }]
    | none =>
      if g.state = 1 ∧ g.done = g.nodes.length then
        (s.putGroup home slot { g with state := 2, completed := g.done }).fwStores g.ctx
          [(g.block + 16, bytesOfNat 8 g.done), (g.block + 13, [BitVec.ofNat 8 (2 * 16)])]
          (if g.last = 0 then [] else [{ ev := .groupUpdate, arg := { d := home, c := g.ctx, m := 2, va := g.last } }])
      else
        let ready := ((List.range g.nodes.length).filter fun i => t.reached.contains i && ((g.nodes[i]?).getD {}).kernel != 0xFFFF)
        (s.putGroup home slot g).announce home slot g ready
  match Tab.find (s.die home).groups slot with
  | some g => if g.state ≠ 1 ∧ g.flight.all (fun e => e.2 == 0) then s.freeGroup home slot else s
  | none => s

/-- The updates of one clock for one group applied, in their order. -/
def State.groupClock (s : State) (home slot : Nat) (l : List GroupMsg) : State :=
  match Tab.find (s.die home).groups slot with
  | none => s
  | some g =>
    let t := l.foldl (fun (t : GStep) m => t.apply m.op) { g := g }
    let t := t.empties g.nodes.length
    let back := l.filterMap fun m => match m.op with
      | .notice node inst _ true => some (g.issuer (bits node 11 0) inst.toNat)
      | _ => none
    (s.settle home slot t).add (back.eraseDups.map fun d => { ev := .issueInstance, arg := { d := d } })

/-- The node reference that an update names. -/
def updateRef (o : Op) : BitVec 32 :=
  match o with
  | .notice node _ _ _ => node
  | .gdec h _ => h.setWidth 32
  | _ => 0

/-- Updates in ascending order of their bogie, those of one bogie as they came (R311). -/
def insertMsg (m : GroupMsg) (l : List GroupMsg) : List GroupMsg :=
  match l with
  | [] => [m]
  | x :: r => if x.g ≤ m.g then x :: insertMsg m r else m :: x :: r

/-- What reached a home in the clocks before the present one applied, clock by clock and group by group; an update whose reference
names no live node of its context is dropped and logged (R315). -/
def State.groupFlush (s : State) (d : Nat) : State :=
  let x := s.die d
  let now := x.groupIn.filter fun m => decide (m.clock < s.clock)
  let s := s.setDie d { x with groupIn := x.groupIn.filter fun m => !decide (m.clock < s.clock) }
  ((now.map (·.clock)).eraseDups).foldl (fun s c =>
    let l := (now.filter fun m => m.clock == c).foldl (fun acc m => insertMsg m acc) []
    let good := l.filter fun m => (s.groupOf m.ctx (updateRef m.op)).isSome
    let s := { s with errlog := s.errlog ++ (l.filter fun m => (s.groupOf m.ctx (updateRef m.op)).isNone).map fun m => { code := 0x11, ctx := m.ctx } }
    ((good.map fun m => bits (updateRef m.op) 27 20).eraseDups).foldl (fun s slot =>
      s.groupClock d slot (good.filter fun m => bits (updateRef m.op) 27 20 == slot)) s) s

/-- GROUP_UPDATE (R311): an update reaches a group's home, where it waits for those of its clock (flag false); the updates of a
clock are applied (flag true); or a release is sent at its record's own priority (m 2). -/
def groupUpdate (a : Args) (s : State) : State :=
  if a.m = 2 then s.sendOwn a
  else if a.flag then s.groupFlush a.d
  else
    let x := s.die a.d
    let g := match a.req.src with
      | .task g _ => g
      | _ => 1536
    let s := s.setDie a.d { x with groupIn := x.groupIn ++ [{ clock := s.clock, g := g, ctx := a.req.ctx, op := a.req.op }] }
    let s := s.add [{ ev := .groupUpdate, arg := { d := a.d, flag := true }, due := s.clock + 1 }]
    if a.req.id = 0 then s else s.answer a.d a.req 0 0

/-! ### Issue (R309, R312) -/

/-- A die's dispatcher has an issue to come. It issues at most one instance per clock, and one such step stands for all (R312). -/
def State.issuePending (s : State) (d : Nat) : Bool := s.agenda.any fun h => h.ev == .issueInstance && h.arg.d == d && !h.arg.flag

/-- The group of a ready node, if it is below its limit on the die and its context is dispatched. -/
def State.issuable (s : State) (d : Nat) (r : Ready) : Option Group :=
  match Tab.find (s.die r.home).groups r.slot with
  | some g =>
    if (g.limit = 0 ∨ Tab.get g.flight 0 d < g.limit) ∧ (s.ctx g.ctx).placing ∧ Tab.get (s.die r.home).gens 0 r.slot = r.gen then some g else none
  | none => none

/-- One instance of a ready node issued by a die's dispatcher. -/
def State.issue (s : State) (d : Nat) (r : Ready) (g : Group) : State :=
  let x := s.die d
  let rest := if r.next + 1 < r.last then x.ready.map fun y => if y = r then { r with next := r.next + 1 } else y else x.ready.filter fun y => y != r
  let s := s.setDie d { x with ready := rest }
  let s := s.putGroup r.home r.slot { g with flight := Tab.put g.flight d (Tab.get g.flight 0 d + 1) }
  let node := (g.nodes[r.node]?).getD {}
  s.add [{ ev := .releaseAccept
           arg := { d := d, rel := { src := .firmware, rel := { type := 3, prio := node.prio, ctx := g.ctx, arg := BitVec.ofNat 32 r.next, record := g.table + 64 * r.node, node := s.nodeRef r.home r.slot r.node } } }
           lane := some (6000 + d, 0) },
         { ev := .issueInstance, arg := { d := d }, due := s.clock + 1 }]

/-- ISSUE_INSTANCE (R312): a ready notice reaches a die (flag), or its dispatcher issues the next instance: of the highest level
that holds a node below its limit, the first such node, of those that entered in earlier clocks. -/
def issueInstance (a : Args) (s : State) : State :=
  let x := s.die a.d
  if a.flag then s.enterReady a.d a.h a.n a.m (a.val.setWidth 32)
  else if s.issuePending a.d then s
  else
    let l := x.ready.filter fun r => decide (r.since < s.clock) && (s.issuable a.d r).isSome
    let top := l.foldl (fun n r => max n r.level) 0
    match l.find? (fun r => r.level == top) with
    | none => if x.ready.any fun r => r.since == s.clock then s.add [{ ev := .issueInstance, arg := { d := a.d }, due := s.clock + 1 }] else s
    | some r =>
      match s.issuable a.d r with
      | some g => s.issue a.d r g
      | none => s

/-- GROUP_UPDATE. -/
def execGroupUpdate (s : State) : Host.Outcome State Fault Refusal := .next (groupUpdate s.arg s)
/-- ISSUE_INSTANCE. -/
def execIssueInstance (s : State) : Host.Outcome State Fault Refusal := .next (issueInstance s.arg s)

/-! ### The words -/

/-- GDEC (R317). -/
def execGdec (a : BitVec 5) (c : BitVec 12) (s : State) : Host.Outcome State Fault Refusal :=
  taskWord (.gdec a c) (fun _ _ b f => do
    let x := f.getX a
    if bits x 63 32 ≠ 0 ∨ 7 < bits x 31 28 then .error (.fault 0x12 x.toNat 0)
    let b' ← b.send [.gdec x c.toNat]
    b'.go f) s

/-- GNODE (R318). -/
def execGnode (d : BitVec 5) (s : State) : Host.Outcome State Fault Refusal :=
  taskWord (.gnode d) (fun _ _ b f =>
    b.go (f.setX d (if bit f.d0 33 then (f.inst ++ f.node) else BitVec.allOnes 64))) s

/-- GNODE.n (R318): the count of the node; 0 in a member pushed from a TASK record. -/
def execGnodeN (d : BitVec 5) (s : State) : Host.Outcome State Fault Refusal :=
  taskWord (.gnodeN d) (fun _ _ b f =>
    b.go (f.setX d (if bit f.d0 33 then BitVec.ofNat 64 f.ninst else BitVec.allOnes 64))) s

end Sys2Proof.Machine
end

