-- ==== Sys2Proof/Machine/Memory.lean ====
section
/-! DEFINITION. Loads, stores, atomics, notifying stores, prefetches and FENCE (R190-R208) as words, on a task and on an engine
hart (R182, R234). -/

namespace Sys2Proof.Machine

/-! ### Engine harts (R234) -/

/-- Step 1 of R191 for a hart: no core-local range, a peer module that its context reaches, and no STF to the engine region (R206). -/
def hartRange (s : State) (ctx : Nat) (k : AccKind) (va : Nat) : Except Stop Unit :=
  match region va with
  | .glob => .ok ()
  | .engine _ _ _ => if k = .stf then .error (.fault 0x09 va 0) else .ok ()
  | .peerWindow => if !bit (peerEntry s ctx va) 0 then .error (.fault 0x09 va 0) else .ok ()
  | _ => .error (.fault 0x09 va 0)

/-- Step 4 of R191 for a hart: translation, which waits while the page is Restricting (R355), and rd_ok of a peer entry (R404). -/
def hartPage (s : State) (ctx : Nat) (k : AccKind) (va : Nat) : Except Stop Unit :=
  match region va with
  | .glob =>
    if s.restricting ctx va then .error (.wait va)
    else
    match s.leaf ctx va with
    | none => .error (.fault 0x09 va 0)
    | some l => if !l.rd ∨ (l.cls = 4 ∧ k = .stf) then .error (.fault 0x09 va 0) else .ok ()
  | .peerWindow => if k.writes then .ok () else peerCheck s ctx k va
  | _ => .ok ()

/-- Step 5 of R191 for a hart: WRITE_PROT, of a peer entry too (R404). -/
def hartProt (s : State) (ctx : Nat) (k : AccKind) (va : Nat) : Except Stop Unit := do
  if region va = .peerWindow ∧ k.writes then peerCheck s ctx k va
  match (if region va = .glob then s.leaf ctx va else none) with
  | some l => if k.writes && (!l.w || l.cls == 5) then .error (.fault 0x07 va 0) else .ok ()
  | none => .ok ()

/-- The checks of an access of a hart in the order of R191. -/
def hartCheck (s : State) (ctx : Nat) (k : AccKind) (va n : Nat) : Except Stop Unit := do
  hartRange s ctx k va
  if va % n ≠ 0 then .error (.fault 0x04 va 0)
  hartPage s ctx k va
  hartProt s ctx k va

/-- A hart past its word, with operations under way and, it may be, an answer that it waits for. -/
def State.hartIssue (s : State) (d h : Nat) (l : List Op) (a : Option Await) : State :=
  let x := s.hart d h
  ((s.setHart d h { x with cpu := x.cpu.next.done, await := a }).forwardOps (.hart d h) 0 x.ctx l).pump (.hart d h)

/-- An access of a device page or an engine block. -/
def State.deviceAt (s : State) (ctx va : Nat) : Bool :=
  match region va with
  | .glob => (s.leaf ctx va).any fun l => l.cls == 4
  | .engine _ _ _ => true
  | _ => false

/-- A load of a hart, for whose value it waits: an acquire load, as one of a device page, an engine block or another module is (R175, R233,
R405), is made at the home; an ordinary one as R187 lays down (R182), or past the RDC (R176). -/
def State.hartLoad (s : State) (d h : Nat) (k : AccKind) (t : BitVec 5) (va n : Nat) (signed : Bool) : Except Stop State := do
  let ctx := (s.hart d h).ctx
  hartCheck s ctx k va n
  let sync := k == .lda || s.deviceAt ctx va || region va == .peerWindow
  let o : Op := .load va n sync
  let bypass := k == .load && modBypass (s.hart d h).cpu.pfx.mod
  .ok (s.hartIssue d h [o] (some { op := o, dest := t, size := n, sext := signed, acquire := sync, bypass := bypass }))

/-- A store of a hart; one to a device page or engine block is made as a release store (R175, R233). -/
def State.hartStore (s : State) (d h : Nat) (k : AccKind) (va n : Nat) (v : Word) (rel : Bool) (note : Option Note) : Except Stop State := do
  let ctx := (s.hart d h).ctx
  hartCheck s ctx k va n
  let dev := s.deviceAt ctx va
  .ok (s.hartIssue d h ((blocks (placed va (bytesOfNat n v.toNat))).map fun b => .store b (rel || dev) false note) none)

/-- An atomic of a hart, posted or returning. -/
def State.hartAtomic (s : State) (d h : Nat) (t : Option (BitVec 5)) (va n : Nat) (signed : Bool) (fn : AtomF) (x y : Word)
    (ord : BitVec 2) (w : BitVec 32) : Except Stop State := do
  hartCheck s (s.hart d h).ctx .atomic va n
  match t with
  | some t =>
    let o : Op := .atomic va n fn x y ord .reg
    .ok (s.hartIssue d h [o] (some { op := o, dest := t, size := n, sext := signed, acquire := bit ord 0 }))
  | none => .ok (s.hartIssue d h [.atomic va n fn x y ord (.posted w)] none)

/-! ### The words -/

/-- LD (R194). -/
def execLd (t b : BitVec 5) (d : BitVec 13) (q : BitVec 3) (s : State) : Host.Outcome State Fault Refusal :=
  agentWord (.ld t b d q) (fun s g bg f => loadWord s g bg f t b d q)
    (fun s die h =>
      s.hartLoad die h .load t (dispAddr (s.hart die h).cpu b d (2 ^ (q.toNat % 4))) (2 ^ (q.toNat % 4)) (decide (q.toNat < 4))) s

/-- ST (R195). -/
def execSt (t b : BitVec 5) (d : BitVec 13) (q : BitVec 2) (s : State) : Host.Outcome State Fault Refusal :=
  agentWord (.st t b d q) (fun s g bg f => storeWord s g bg f t b d q)
    (fun s die h =>
      s.hartStore die h .store (dispAddr (s.hart die h).cpu b d (2 ^ q.toNat)) (2 ^ q.toNat) ((s.hart die h).cpu.getX t) false none) s

/-- LDA (R196). -/
def execLda (t b : BitVec 5) (d : BitVec 13) (q : BitVec 2) (s : State) : Host.Outcome State Fault Refusal :=
  agentWord (.lda t b d q) (fun s g bg f => acquireWord s g bg f t b d q)
    (fun s die h => s.hartLoad die h .lda t (dispAddr (s.hart die h).cpu b d (2 ^ q.toNat)) (2 ^ q.toNat) false) s

/-- STL (R196). -/
def execStl (t b : BitVec 5) (d : BitVec 13) (q : BitVec 2) (s : State) : Host.Outcome State Fault Refusal :=
  agentWord (.stl t b d q) (fun s g bg f => releaseStoreWord s g bg f t b d q)
    (fun s die h =>
      s.hartStore die h .stl (dispAddr (s.hart die h).cpu b d (2 ^ q.toNat)) (2 ^ q.toNat) ((s.hart die h).cpu.getX t) true none) s

/-- The width of an integer atomic's sq (R199). -/
def atomWidth (q : BitVec 3) : Nat := if q.toNat % 4 = 2 then 4 else 8

/-- AMO (R199). -/
def execAmo (t b v_s : BitVec 5) (o : BitVec 4) (r : BitVec 2) (q : BitVec 3) (s : State) : Host.Outcome State Fault Refusal :=
  agentWord (.amo t b v_s o r q)
    (fun s g bg f => atomicWord s g bg f (.amo t b v_s o r q) t (f.getX b).toNat (atomWidth q) (!bit q 2) (.int o) (f.getX v_s) 0 r)
    (fun s die h =>
      let c := (s.hart die h).cpu
      s.hartAtomic die h (some t) (c.getX b).toNat (atomWidth q) (!bit q 2) (.int o) (c.getX v_s) 0 r 0) s

/-- AMOP (R200). -/
def execAmop (b v_s : BitVec 5) (o : BitVec 4) (r : BitVec 2) (q : BitVec 1) (s : State) : Host.Outcome State Fault Refusal :=
  agentWord (.amop b v_s o r q)
    (fun s g bg f => postedWord s g bg f (.amop b v_s o r q) (f.getX b).toNat (if q = 0 then 4 else 8) (.int o) (f.getX v_s) r)
    (fun s die h =>
      let c := (s.hart die h).cpu
      s.hartAtomic die h none (c.getX b).toNat (if q = 0 then 4 else 8) false (.int o) (c.getX v_s) 0 r
        ((encode (.amop b v_s o r q)).getD 0)) s

/-- AMOA (R200); an engine hart has no barrier (R115, R234). -/
def execAmoa (t b v_s : BitVec 5) (o k : BitVec 4) (q : BitVec 1) (s : State) : Host.Outcome State Fault Refusal :=
  agentWord (.amoa t b v_s o k q)
    (fun s g bg f => amoaWord s g bg f (.amoa t b v_s o k q) (f.getX b).toNat (if q = 0 then 4 else 8) (f.getX t).toNat k.toNat (.int o) (f.getX v_s))
    (fun _ _ _ => .error (.fault 0x0A 0 k.toNat)) s

/-- CAS (R201). -/
def execCas (t b c n : BitVec 5) (r : BitVec 2) (q : BitVec 3) (s : State) : Host.Outcome State Fault Refusal :=
  agentWord (.cas t b c n r q)
    (fun s g bg f => atomicWord s g bg f (.cas t b c n r q) t (f.getX b).toNat (atomWidth q) (!bit q 2) .cas (f.getX c) (f.getX n) r)
    (fun s die h =>
      let x := (s.hart die h).cpu
      s.hartAtomic die h (some t) (x.getX b).toNat (atomWidth q) (!bit q 2) .cas (x.getX c) (x.getX n) r 0) s

/-- The width of a floating-point atomic's format (R202). -/
def faddWidth (q : BitVec 3) : Nat := if q = 2 then 4 else 2

/-- FADD that returns the old value (R202). -/
def execFadd (t b v_s : BitVec 5) (r : BitVec 2) (q : BitVec 3) (s : State) : Host.Outcome State Fault Refusal :=
  agentWord (.fadd t b v_s r q)
    (fun s g bg f => atomicWord s g bg f (.fadd t b v_s r q) t (f.getX b).toNat (faddWidth q) false (.fadd q) (f.getX v_s) 0 r)
    (fun s die h =>
      let c := (s.hart die h).cpu
      s.hartAtomic die h (some t) (c.getX b).toNat (faddWidth q) false (.fadd q) (c.getX v_s) 0 r 0) s

/-- The posted FADD (R202). -/
def execFaddPosted (b v_s : BitVec 5) (r : BitVec 1) (q : BitVec 3) (s : State) : Host.Outcome State Fault Refusal :=
  agentWord (.faddPosted b v_s r q)
    (fun s g bg f => postedWord s g bg f (.faddPosted b v_s r q) (f.getX b).toNat (faddWidth q) (.fadd q) (f.getX v_s) (r ++ (0 : BitVec 1)))
    (fun s die h =>
      let c := (s.hart die h).cpu
      s.hartAtomic die h none (c.getX b).toNat (faddWidth q) false (.fadd q) (c.getX v_s) 0 (r ++ (0 : BitVec 1))
        ((encode (.faddPosted b v_s r q)).getD 0)) s

/-- An STF of a hart (R206, R234); a task that it releases has priority 0, for a hart has no frame (log 27). -/
def State.hartNotify (s : State) (d h : Nat) (i : Instr) (t b xf : BitVec 5) (n : Nat) (isTask : Bool) : Except Stop State := do
  let c := (s.hart d h).cpu
  let ctx := (s.hart d h).ctx
  let va := (c.getX b).toNat
  let fa := (c.getX xf).toNat
  hartRange s ctx .stf va
  if !isTask then (if otherModule va fa then .error (.fault 0x09 fa 0) else hartRange s ctx .atomic fa)
  if va % n ≠ 0 then .error (.fault 0x04 va 0)
  if fa % (if isTask then 64 else 8) ≠ 0 then .error (.fault 0x04 fa 0)
  hartPage s ctx .stf va
  if isTask && region va != .peerWindow && s.restricting ctx fa then .error (.wait fa)
  if isTask then
    (if otherModule va fa || (region va != .peerWindow && !((s.leaf ctx fa).any fun l => l.rd)) then .error (.fault 0x09 fa 0) else .ok ())
  else hartPage s ctx .atomic fa
  hartProt s ctx .stf va
  if !isTask then hartProt s ctx .atomic fa
  let note := if isTask then Note.task fa 0 ((c.getX t).setWidth 32) else Note.flag fa ((encode i).getD 0)
  .ok (s.hartIssue d h [.store (placed va (bytesOfNat n (c.getX t).toNat)) false false (some note)] none)

/-- STF.flag (R206). -/
def execStfFlag (t b f : BitVec 5) (q : BitVec 3) (s : State) : Host.Outcome State Fault Refusal :=
  agentWord (.stfFlag t b f q) (fun s g bg fr => notifyWord s g bg fr (.stfFlag t b f q) t b f (2 ^ q.toNat) false)
    (fun s die h => s.hartNotify die h (.stfFlag t b f q) t b f (2 ^ q.toNat) false) s

/-- STF.task (R206). -/
def execStfTask (t b f : BitVec 5) (q : BitVec 3) (s : State) : Host.Outcome State Fault Refusal :=
  agentWord (.stfTask t b f q) (fun s g bg fr => notifyWord s g bg fr (.stfTask t b f q) t b f (2 ^ q.toNat) true)
    (fun s die h => s.hartNotify die h (.stfTask t b f q) t b f (2 ^ q.toNat) true) s

/-- A pref.far of a hart (R207): the line of another die comes into the local RDC, unless the address would fault. -/
def State.hartPrefFar (s : State) (d h va : Nat) : Except Stop State :=
  let ctx := (s.hart d h).ctx
  match (if region va = .glob ∧ va % 64 = 0 then hartCheck s ctx .load va 1 else .error (.fault 0x09 va 0)) with
  | .error (.wait va) => .error (.wait va)
  | .error _ => .ok (s.hartIssue d h [] none)
  | .ok _ =>
    let s' := s.hartIssue d h [] none
    match s.leaf ctx va with
    | some l => .ok (if cachedClass l.cls then s'.sendLoad (.hart d h) { src := .hart d h, ctx := ctx, op := .load va 1 false } va 1 false else s')
    | none => .ok s'

/-- PREF (R207); a hart has no L1 to fill (log 5). -/
def execPref (b : BitVec 5) (d : BitVec 13) (s : State) : Host.Outcome State Fault Refusal :=
  agentWord (.pref b d) (fun _ g bg f => prefWord g bg f b d false) (fun s die h => .ok (s.hartIssue die h [] none)) s

/-- PREF.far (R207). -/
def execPrefFar (b : BitVec 5) (d : BitVec 13) (s : State) : Host.Outcome State Fault Refusal :=
  agentWord (.prefFar b d) (fun _ g bg f => prefWord g bg f b d true)
    (fun s die h => s.hartPrefFar die h (dispAddr (s.hart die h).cpu b d 64)) s

/-- FENCE (R208): the activation ends, and the next begins once every earlier access is performed, with no acquire actions. -/
def execFence (s : State) : Host.Outcome State Fault Refusal :=
  agentWord .fence (fun _ g b f => b.awaiting g f { op := .fence } false)
    (fun s die h => .ok (s.hartIssue die h [.fence] (some { op := .fence }))) s

end Sys2Proof.Machine
end

