-- ==== Sys2Proof/Machine/Task.lean ====
section
/-! DEFINITION. Activations, the witness's verdict, rollback and synchronous faults (R132-R142, R290, R295, R296), and the task
words (R143-R148, R161-R166). -/

namespace Sys2Proof.Machine

/-! ### Delivering the triggering message (R133, R186) -/

/-- The acquire actions of R186: every word of the L1 that the bogie does not own is invalidated, and the stamp recorded. -/
def Bogie.acquireActions (b : Bogie) (fills : Nat) : Bogie :=
  let keep := fun (e : Sector) =>
    let m : BitVec 32 := (List.range 32).foldl (fun m i => if bit e.owned (i / 4) then m ||| ((1 : BitVec 32) <<< i) else m) 0
    { e with valid := e.valid &&& m }
  { b with stamp := fills, written := [], l1 := (b.l1.map keep).filter fun e => e.valid != 0 || e.owned != 0 }

/-- The copy write pointers of a coach (R237). -/
def Coach.pointers (c : Coach) : List (BitVec 64) :=
  (List.range 4).map fun k => (Tab.get c.chPackets 0 k ++ Tab.get c.chBytes 0 k)

/-- The prefetch counters of a coach (R189): those that its bogies count. -/
def State.pfCounters (s : State) (g : Nat) : List (BitVec 64) :=
  let l := (List.range 8).map fun i => s.bogie (g / 8 * 8 + i)
  [l.foldl (fun n b => n + b.pfBrought) 0, l.foldl (fun n b => n + b.pfUsed) 0, l.foldl (fun n b => n + b.pfWait) 0,
    l.foldl (fun n b => n + b.pfEvict) 0]

/-- The values that the witness latches with a triggering message; a redelivered message presents the same bits (R133, R163). -/
def State.latch (s : State) (g : Nat) : State :=
  let b := s.bogie g
  if b.ckpt.isSome then s
  else s.setBogie g { b with cycle := s.clock, cwp := (s.coach (coachOf g)).pointers, pfLatch := s.pfCounters g }

/-- An activation begins: f0 is the frame with its triggering message, f the frame as its first word finds it. -/
def State.start (s : State) (g : Nat) (f0 f : Frame) (phase : Phase) : State :=
  let s := s.latch g
  let b := s.bogie g
  let b := if f.acquire then b.acquireActions (s.die (dieOf g)).rdcFills else b
  s.setBogie g { b with
    stack := { f with acquire := false, await := none } :: b.stack.tail
    ckpt := some f0, phase := phase, fetched := 0, journal := [], outbox := [], rep := none, unmapped := none, buf := [], peerReads := [] }

/-- TRIGGER_DELIVERY (R133, R163, R186): the frame on top begins its next activation, if its message has come. CYCLE rises
strictly, and held writes come first. A request that failed faults at its word (R203, R408, R409). -/
def triggerDelivery (g : Nat) (s : State) : State :=
  let b := s.bogie g
  match b.stack, b.phase with
  | f :: _, .waiting =>
    if (s.ctx f.ctx).freezing ∨ (s.ctx f.ctx).state = 5 ∨ 3 ≤ b.streak then s
    else if !b.held.isEmpty ∨ (b.ckpt.isNone ∧ s.clock ≤ b.cycle) then s.add [{ ev := .triggerDelivery, arg := { g := g }, due := s.clock + 1 }]
    else
      match f.await with
      | none => s.start g f f .running
      | some a =>
        match a.reply with
        | none => s
        | some (.ok v) => s.start g f { f.setX a.dest (a.value v) with acquire := f.acquire || a.acquire } .running
        | some (.error e) =>
          let f' := { f with cpu := { f.cpu with pc := a.pc } }
          let i : FaultInfo := if e.1 = 0x02 then { code := 0x02, addr := e.2, extra := BitVec.ofNat 64 (a.word.toNat * 2 ^ 32) } else { code := e.1, addr := e.2 }
          (s.start g f f' (.boundary (.fault i))).add [{ ev := .witnessVerdict, arg := { g := g } }]
  | _, _ => s

/-! ### Rollback (R140, R295, R296) -/

/-- The journal applied in reverse order. -/
def Bogie.undo (b : Bogie) : Bogie :=
  let b := b.journal.reverse.foldl (fun (b : Bogie) e =>
    { b with scratch := Tab.setList b.scratch 0 (32 * e.1) e.2.1
             spoison := (b.spoison.filter fun k => k != e.1) ++ (if e.2.2 then [e.1] else []) }) b
  { b with journal := [] }

/-- ROLLBACK (R140): outbox dropped, journal undone, the frame as at the checkpoint, and the triggering message redelivered. -/
def Bogie.rollback (b : Bogie) : Bogie :=
  let b := b.undo
  { b with
    outbox := [], rep := none, unmapped := none, buf := [], fetched := 0
    phase := if b.stack.isEmpty then .idle else .waiting
    stack := match b.ckpt, b.stack with
      | some f, _ :: r => f :: r
      | _, l => l }

/-- The activation of a bogie rolled back; what was held is applied after the journal (R171, R210). -/
def State.rollback (s : State) (g : Nat) : State :=
  ((s.setBogie g (s.bogie g).rollback).releaseHeld g).add [{ ev := .triggerDelivery, arg := { g := g } }]

/-! ### Commit (R139) -/

/-- A committed store's bytes written into the L1 (R173): each written word is owned, and a line that they cover whole is poisoned no more
(R298). The other bytes of a word that was not owned before are valid no more, for an acquire leaves the word in place (R179, R186). -/
def State.commitL1 (s : State) (g ctx : Nat) (bytes : Tab Byte) : State :=
  let sectors := (bytes.map fun e => e.1 / 32 * 32).eraseDups
  sectors.foldl (fun s va =>
    let s := s.makeRoom g ctx (va / 64)
    let b := s.bogie g
    let old := (findSector b.l1 ctx va).getD { ctx := ctx, va := va }
    let whole := (List.range 64).all fun i => (Tab.find bytes (va / 64 * 64 + i)).isSome
    let old := { old with poison := poisonedLine b.l1 ctx va && !whole }
    let mine := bytes.filter fun e => e.1 / 32 * 32 == va
    let old := (List.range 8).foldl (fun (e : Sector) w =>
      if !bit e.owned w && mine.any fun x => x.1 % 32 / 4 == w then { e with valid := e.valid &&& ~~~((15 : BitVec 32) <<< (4 * w)) } else e) old
    let new := mine.foldl (fun (e : Sector) (x : Nat × Byte) =>
      { e with data := Tab.set e.data 0 (x.1 % 32) x.2
               stale := if e.pref then e.stale ||| ((1 : BitVec 32) <<< (x.1 % 32)) else e.stale
               valid := e.valid ||| ((1 : BitVec 32) <<< (x.1 % 32)), owned := e.owned ||| ((1 : BitVec 8) <<< (x.1 % 32 / 4)) }) old
    s.setBogie g { b with l1 := (b.l1.filter fun e => !(e.ctx == ctx && e.va == va)) ++ [new] }) s

/-- What a forwarded entry does to the bogie's own L1 (R173, R176, R198). The words of a store that is not written there, to a chained
page among others (R367), and the words of an STF's flag leave it. -/
def State.commitEntry (s : State) (g ctx : Nat) (o : Op) : State :=
  match o with
  | .store bytes rel bypass note =>
    let s := match s.leaf ctx (opVa o) with
      | some l =>
        if (l.cls = 0 ∨ l.cls = 1 ∨ l.cls = 6) ∧ !bypass then s.commitL1 g ctx bytes
        else s.setBogie g ((s.bogie g).dropTouched ctx (.store bytes rel bypass none))
      | none => s
    match note with
    | some n => s.setBogie g ((s.bogie g).dropTouched ctx (.notify 0 0 n))
    | none => s
  | .atomic _ _ _ _ _ _ _ => s.setBogie g ((s.bogie g).dropTouched ctx o)
  | _ => s

/-- The deliveries and commands of an outbox that its frame will drain for (R123). -/
def owes (uid : Nat) (l : List Op) : List Nat :=
  l.filterMap fun o => match o with
    | .atomic _ _ _ _ _ _ (.amoa _ _ _ _) => some uid
    | .matrix c => if inFrame c.op then some uid else none
    | _ => none

/-- What a committed activation loaded through the peer region counts as used in the bogies that hold it (R189). -/
def State.usePeers (s : State) (g : Nat) : State :=
  let s' := (s.bogie g).peerReads.foldl (fun s e => s.setBogie e.1 ((s.bogie e.1).useFresh e.2.1 e.2.2)) s
  s'.setBogie g { s'.bogie g with peerReads := [] }

/-- The outbox forwarded in a matching verdict, with what the activation's end itself sends (R136, R139). -/
def State.forwardTop (s : State) (g : Nat) (f : Frame) (more : List Op) : State :=
  let ops := (s.bogie g).outbox ++ more
  let s := s.usePeers g
  let s := ops.foldl (fun s o => s.commitEntry g f.ctx o) s
  let b := s.bogie g
  let s := s.setBogie g { b with
    outbox := [], journal := [], ckpt := none, rep := none, streak := 0, replaces := none, owed := b.owed ++ owes f.uid ops, fetched := 0 }
  let s := s.consume f.uid
  s.forwardOps (.bogie g) f.uid f.ctx ops

/-- The live frames of a kernel index (R112): on a stack, or in the save area of a context that is Frozen or still being thawed. -/
def State.liveFrames (s : State) (ctx k : Nat) : Bool :=
  s.bogies.any (fun e => e.2.stack.any fun f => f.ctx == ctx && f.kernel == k) ||
    (s.ctx ctx).saved.any fun e => ((s.ctx ctx).state == 5 || !e.2.moved) && e.2.frames.any fun f => f.frame.kernel == k

/-- The drains end of a context's kernel indices that have no live frame left (R112). -/
def State.endDrains (s : State) (ctx : Nat) : State :=
  s.add (((s.ctx ctx).kernels.filter fun e => e.2.state == 2 && !s.liveFrames ctx e.1).map fun e => { ev := .kernelDrainEnd, arg := { c := ctx, n := e.1 } })

/-- The top frame pops (R123): it drains while something of it is outstanding. Releases that wait are retried (R129), a kernel's
drain may end (R112), and a handler's EVENT is outstanding no more (R293). -/
def State.popTop (s : State) (g : Nat) : State :=
  let b := s.bogie g
  match b.stack with
  | [] => s
  | f :: r =>
    let s := s.setBogie g { b with stack := r, phase := if r.isEmpty then .idle else .waiting }
    let s :=
      if s.holdsFrame g f then s.setBogie g { s.bogie g with draining := b.draining ++ [{ frame := { f with claims := [] } }] }
      else
        s.setBogie g { s.bogie g with fresh := b.fresh.filter fun a => !(decide (f.sbase ≤ a) && decide (a < f.sbase + f.hdr.scratchUse)) }
    let s := if f.type = 2 then s.add [{ ev := .eventUnqueue, arg := { c := f.ctx, n := f.cls, val := f.arg.setWidth 64 } }] else s
    let s := if ((s.ctx f.ctx).kernel f.kernel).state = 2 ∧ !s.liveFrames f.ctx f.kernel then
        s.add [{ ev := .kernelDrainEnd, arg := { c := f.ctx, n := f.kernel } }]
      else s
    s.retry g f.ctx

/-- After a boundary's own effects: what was held is applied, entries are sent, and R128 decides. -/
def State.afterBoundary (s : State) (g : Nat) : State :=
  (((s.releaseHeld g).pump (.bogie g)).preempt g).resumeTop g

/-- The end notice of a frame pushed for a NODE release that made no report of its own (R310). -/
def endNotice (f : Frame) (outbox : List Op) : List Op :=
  if f.type = 3 ∧ !(outbox.any fun o => match o with
      | .notice _ _ _ _ => true
      | _ => false) then [.notice f.node f.inst false true]
  else []

/-- The fields of a fault record that a frame's own fault gives (R291). -/
def Frame.faultInfo (f : Frame) (g cycle : Nat) (i : FaultInfo) : FaultInfo :=
  { i with pc := f.cpu.pc, record := f.record, frame := some (g, f.prio), inst := f.inst
           node := if bit f.d0 33 then f.node else 0, clock := cycle }

/-- SYNC_FAULT (R290): the fault of a frame in a matching verdict. The activation is undone, the frame pops, and the EVENT is
sent once the task's earlier accesses are performed; a fault of a handler escalates (R101). -/
def State.takeFault (s : State) (g : Nat) (i : FaultInfo) : State :=
  let b := s.bogie g
  match b.stack with
  | [] => s
  | f :: _ =>
    let i := f.faultInfo g b.cycle i
    let s := s.setBogie g { b.undo with outbox := [], ckpt := none, rep := none, streak := 0, replaces := none, fetched := 0 }
    let s := s.consume f.uid
    let s := s.forwardOps (.bogie g) f.uid f.ctx (endNotice f [] ++ (if f.type = 2 then [] else [.event i]))
    let s := if f.type = 2 then s.escalate f.ctx i.code f.record else s
    (s.popTop g).afterBoundary g

/-- A matching verdict (R139). -/
def State.commitTop (s : State) (g : Nat) (k : Boundary) : State :=
  let b := s.bogie g
  match b.stack with
  | [] => s
  | f :: _ =>
    match k with
    | .fault i => s.takeFault g i
    | .commit =>
      let s := s.forwardTop g f []
      (s.setBogie g { s.bogie g with phase := .waiting }).afterBoundary g
    | .await =>
      let s := s.forwardTop g f (f.await.map (·.op)).toList
      (s.setBogie g { s.bogie g with phase := .waiting }).afterBoundary g
    | .ended => ((s.forwardTop g f (endNotice f b.outbox)).popTop g).afterBoundary g
    | .brk i =>
      let i := { f.faultInfo g b.cycle i with pc := i.pc }
      let s := s.forwardTop g f (endNotice f b.outbox ++ (if f.type = 2 then [] else [.event i]))
      let s := if f.type = 2 then s.escalate f.ctx i.code f.record else s
      (s.popTop g).afterBoundary g

/-- WITNESS_VERDICT (R139-R141): the digests of an activation at its boundary match, or, after an upset in one core, differ. -/
def witnessVerdict (g : Nat) (upset : Bool) (s : State) : State :=
  match (s.bogie g).phase with
  | .boundary k =>
    if upset then
      let b := s.bogie g
      let s := (s.setBogie g { b with streak := b.streak + 1 }).rollback g
      if 3 ≤ b.streak + 1 then s.add [{ ev := .streakLimit, arg := { g := g } }] else s
    else s.commitTop g k
  | _ => s

/-! ### Streak and quarantine (R141) -/

/-- STREAK_LIMIT (R141): on the first bogie the stack is to move; on the replacement the task takes PAIR_FAULT. -/
def streakLimit (g : Nat) (s : State) : State :=
  let b := s.bogie g
  if b.streak < 3 then s
  else
    match b.replaces with
    | some old => s.takeFault g { code := 0x14, extra := BitVec.ofNat 64 ((old * 2 ^ 16 + g) * 2 ^ 32) }
    | none => (s.setBogie g { b with closed := true }).add [{ ev := .quarantineMove, arg := { g := g } }]

/-- A frame with what its range and tiles hold, as a save slot keeps it. -/
def State.saveFrame (s : State) (g : Nat) (f : Frame) : SavedFrame :=
  let b := s.bogie g
  let n := f.hdr.scratchUse
  { frame := f, scratch := Tab.range b.scratch 0 f.sbase n
    poison := (b.spoison.filter fun k => decide (f.sbase ≤ 32 * k) && decide (32 * k < f.sbase + n)).map (· - f.sbase / 32)
    wiping := (b.wiping.filter fun w => decide (f.sbase ≤ 32 * w.at') && decide (32 * w.at' < f.sbase + n)).map fun w => { w with at' := w.at' - f.sbase / 32 }
    tiles := f.tiles.map fun t => Tab.get (s.coach (coachOf g)).tiles {} t }

/-- Entries in level and FIFO order, as a save slot keeps them. -/
def State.fifoOf (s : State) (g : Nat) : List Pending :=
  ((List.range 16).map (15 - ·)).flatMap fun lvl => fifoSort ((s.die (dieOf g)).store.filter fun p => p.place == .fifo g lvl)

/-- A bogie's stack and FIFOs moved to its save slot (R103, R104, R141); the releases keep their entries of the store (R321). -/
def State.saveBogie (s : State) (g ctx streak : Nat) : State :=
  let b := s.bogie g
  let v : Saved := { g := g, latch := b.ckpt.map fun _ => (b.cycle, b.cwp, b.pfLatch), frames := b.stack.map fun f => s.saveFrame g f
                     scale := b.scale, fifo := s.fifoOf g, streak := streak, seed := s.freeCtr }
  let s := s.setDie (dieOf g) { s.die (dieOf g) with store := (s.die (dieOf g)).store.map fun p => match p.place with
    | .fifo k _ => if k = g then { p with place := .saved } else p
    | _ => p }
  let s := s.setBogie g { b with stack := [], phase := .idle, ckpt := none, streak := 0 }
  let s := s.setCtx ctx { s.ctx ctx with saved := Tab.put (s.ctx ctx).saved g v }
  { s.writeSlot ctx g v.seed with freeCtr := v.seed + 655360 }

/-- The bogie that replaces a closed one: the lowest-numbered empty bogie of the context, of the same coach if there is one. -/
def State.replacement (s : State) (g ctx : Nat) : Option Nat :=
  let l := ((List.range 8).flatMap fun d => s.bogiesOf (s.ctx ctx) d).filter fun r =>
    r != g && !(s.bogie r).closed && (s.bogie r).stack.isEmpty && (s.bogie r).draining.isEmpty
  match l.find? (fun r => r / 8 == g / 8) with
  | some r => some r
  | none => l.head?

/-- QUARANTINE_MOVE (R141): once nothing of the closed bogie is outstanding and an empty bogie exists, the stack and FIFOs are
saved, the homes of resources rewritten, and the failing task's record sent to the replacement as a RESUME; F4 runs diagnostics. -/
def quarantineMove (g : Nat) (s : State) : State :=
  let b := s.bogie g
  match b.stack with
  | [] => s.add [{ ev := .diagnosticsDone, arg := { g := g } }]
  | f :: _ =>
    if (s.ctx f.ctx).state = 5 ∨ (s.ctx f.ctx).freezing then s.add [{ ev := .quarantineMove, arg := { g := g }, due := s.clock + 1 }]
    else if !b.transit.isEmpty ∨ !b.owed.isEmpty ∨ !b.held.isEmpty ∨ !b.draining.isEmpty then
      s.add [{ ev := .quarantineMove, arg := { g := g }, due := s.clock + 1 }]
    else
      match s.replacement g f.ctx with
      | none => s.add [{ ev := .quarantineMove, arg := { g := g }, due := s.clock + 1 }]
      | some r =>
        let s := s.saveBogie g f.ctx 0
        let s := s.setCtx f.ctx { s.ctx f.ctx with saved := Tab.mapVals (s.ctx f.ctx).saved fun v => if v.g = g then { v with moved := true } else v }
        let c := s.ctx f.ctx
        let ceilings := Tab.mapVals c.ceilings fun w =>
          if bit w 4 && bits w 26 16 == g then BitVec.ofNat 64 (w.toNat - g * 2 ^ 16 + r * 2 ^ 16) else w
        let s := s.setCtx f.ctx { c with ceilings := ceilings }
        let s := (s.setBogie g { s.bogie g with quarantined := some r }).endDrains f.ctx
        s.add [{ ev := .releaseAccept
                 arg := { d := dieOf r, rel := { src := .firmware, rel := { type := 4, prio := f.prio, ctx := f.ctx, named := some r, arg := BitVec.ofNat 32 (c.slotOf g), record := f.record } } }
                 lane := some (6000 + dieOf r, 0) },
               { ev := .diagnosticsDone, arg := { g := g } }]

/-! ### Errors (R295, R296) -/

/-- UNCORRECTABLE_ERROR (R140, R296): in a register, checkpoint entry, scratchpad sector or L1 line of one core (kind 0), with an
L1 line of address va invalidated (kind 1), or of one sector in both cores, which becomes poisoned (kind 2). The activation is
rolled back, whatever its boundary was to be; the streak stays. -/
def uncorrectableError (g kind n va : Nat) (s : State) : State :=
  let b := s.bogie g
  let s := if b.active then s.rollback g else s
  let b := s.bogie g
  if kind = 1 then s.setBogie g { b with l1 := b.l1.filter fun e => e.va / 64 != va / 64 }
  else if kind = 2 then
    s.setBogie g { b with spoison := if b.spoison.contains (n % 1536) then b.spoison else b.spoison ++ [n % 1536] }
  else s

/-- TRIGGER_DELIVERY. -/
def execTriggerDelivery (s : State) : Host.Outcome State Fault Refusal := .next (triggerDelivery s.arg.g s)
/-- WITNESS_VERDICT. -/
def execWitnessVerdict (s : State) : Host.Outcome State Fault Refusal := .next (witnessVerdict s.arg.g s.arg.flag s)
/-- STREAK_LIMIT. -/
def execStreakLimit (s : State) : Host.Outcome State Fault Refusal := .next (streakLimit s.arg.g s)
/-- QUARANTINE_MOVE. -/
def execQuarantineMove (s : State) : Host.Outcome State Fault Refusal := .next (quarantineMove s.arg.g s)
/-- UNCORRECTABLE_ERROR. -/
def execUncorrectableError (s : State) : Host.Outcome State Fault Refusal := .next (uncorrectableError s.arg.g s.arg.m s.arg.n s.arg.va s)

/-- The fault that the fetch of a word raises, on the task or hart that fetches it; each is a boundary of its own (R134). -/
def fetchFault (code : Nat) (addr : Word) (val : Nat) (s : State) : Host.Outcome State Fault Refusal :=
  match s.cur with
  | .bogie g => if (s.bogie g).stack.isEmpty then .next s else .next (s.afterWord g ((s.bogie g).syncFault g code addr.toNat val))
  | .hart d h => .next (s.hartFault d h code)

/-- WATCHDOG (R134): the window's words are fetched and no boundary came. -/
def execWatchdog (s : State) : Host.Outcome State Fault Refusal :=
  fetchFault 0x0F 0 (match s.cur with
    | .bogie g => ((s.bogie g).stack.head?.map (·.window)).getD 0
    | .hart _ _ => 0) s

/-- The PC of the agent that runs. -/
def State.curPc (s : State) : Word :=
  match s.cur with
  | .bogie g => ((s.bogie g).stack.head?.map (·.cpu.pc)).getD 0
  | .hart d h => (s.hart d h).cpu.pc

/-- FETCH_BOUND (R114): a fetch outside the code extent. -/
def execFetchBound (s : State) : Host.Outcome State Fault Refusal := fetchFault 0x03 s.curPc 0 s

/-- ILLEGAL_INSTRUCTION (R59, R61, R64): a word that names no instruction; the record's value is the word. -/
def execIllegalInstruction (s : State) : Host.Outcome State Fault Refusal := fetchFault 0x01 0 s.arg.n s

/-! ### The words -/

/-- YIELD (R143). -/
def execYield (n : BitVec 12) (s : State) : Host.Outcome State Fault Refusal :=
  taskWord (.yield n) (fun _ g b f => b.commit g { f with window := if n = 0 then 4095 else n.toNat } .commit) s

/-- A node-done report of the frame, where its record is a node's (R144, R310): from a frame pushed for a NODE release it is the
end notice too. -/
def nodeReport (f : Frame) : List Op := if bit f.d0 33 then [.notice f.node f.inst true (f.type == 3)] else []

/-- END without .cont (R144). -/
def execEndTask (a : BitVec 5) (v_s n : BitVec 1) (s : State) : Host.Outcome State Fault Refusal :=
  taskWord (.endTask a v_s n) (fun _ g b f => do
    if v_s = 1 ∧ f.succ = 0 then .error (.fault 0x12 f.record 0)
    let rel : List Op := if v_s = 1 then
        [.release none false { type := 1, prio := f.prio, ctx := f.ctx, record := f.succ, arg := (f.getX a).setWidth 32 }]
      else []
    let b' ← b.send (rel ++ (if n = 1 then nodeReport f else []))
    b'.commit g { f with claims := [] } .ended) s

/-- The doublewords that END with .cont writes to the record (R144): resume_valid set, the priority, the resume PC and x1 to x4. -/
def contBytes (f : Frame) (pc : Word) : List Byte :=
  let d0 := BitVec.ofNat 64 (bits f.d0 63 33 * 2 ^ 33 + 2 ^ 32 + bits f.d0 31 20 * 2 ^ 20 + f.prio * 2 ^ 16 + bits f.d0 15 0)
  [d0, pc, f.getX 1, f.getX 2, f.getX 3, f.getX 4].flatMap fun w => bytesOfNat 8 w.toNat

/-- END with .cont (R144, R309). -/
def execEndCont (d a : BitVec 5) (s : State) : Host.Outcome State Fault Refusal :=
  taskWord (.endCont d a) (fun s g b f => do
    let pc := f.getX d
    if pc.toNat % 4 ≠ 0 then .error (.fault 0x04 pc.toNat 0)
    if f.type = 3 then .error (.fault 0x12 f.record 0)
    let r ← checkAccess s g b f .store f.record 8
    let b1 ← writeRoute b f false r f.record (contBytes f pc)
    let b' ← b1.send [.release none false { type := 1, prio := f.prio, ctx := f.ctx, record := f.record, arg := (f.getX a).setWidth 32 }]
    b'.commit g { f with claims := [] } .ended) s

/-- RELEASE in its forms (R145, R404; the order of the checks of a release.peer: log 50). -/
def releaseWord (s : State) (b : Bogie) (f : Frame) (d a : BitVec 5) (die : Option Nat) (peer : Bool) (x : BitVec 1) (p : BitVec 4) :
    Except Stop BRes := do
  let r := (f.getX d).toNat
  if r % 64 ≠ 0 then .error (.fault 0x04 r 0)
  if peer != (region r == .peerWindow) then .error (.fault 0x12 r 0)
  if peer then
    (if !bit (peerEntry s f.ctx r) 0 then .error (.fault 0x09 r 0) else if !bit (peerEntry s f.ctx r) 3 then .error (.fault 0x12 r 0) else .ok ())
  else recordCheck b f.ctx r
  let prio := if x = 1 then p.toNat else f.prio
  let b' ← b.send [.release die peer { type := 1, prio := prio, ctx := f.ctx, record := r, arg := (f.getX a).setWidth 32 }]
  b'.go f

/-- RELEASE, local (R145). -/
def execRelease (d a : BitVec 5) (x : BitVec 1) (p : BitVec 4) (s : State) : Host.Outcome State Fault Refusal :=
  taskWord (.release d a x p) (fun s _ b f => releaseWord s b f d a none false x p) s

/-- RELEASE to a die's dispatcher (R145). -/
def execReleaseDie (d a : BitVec 5) (e : BitVec 4) (x : BitVec 1) (p : BitVec 4) (s : State) : Host.Outcome State Fault Refusal :=
  taskWord (.releaseDie d a e x p) (fun s _ b f => releaseWord s b f d a (some e.toNat) false x p) s

/-- RELEASE to another module (R145, R404). -/
def execReleasePeer (d a : BitVec 5) (x : BitVec 1) (p : BitVec 4) (s : State) : Host.Outcome State Fault Refusal :=
  taskWord (.releasePeer d a x p) (fun s _ b f => releaseWord s b f d a none true x p) s

/-- CLAIM (R131, R146). -/
def execClaim (e : BitVec 6) (s : State) : Host.Outcome State Fault Refusal :=
  taskWord (.claim e) (fun s _ b f =>
    match (if bit f.hdr.res e.toNat then (s.ctx f.ctx).ceiling e.toNat else none) with
    | none => .error (.fault 0x0D 0 e.toNat)
    | some c =>
      if f.claims.any (fun p => p.1 == e.toNat) ∨ f.claims.length = 8 then .error (.fault 0x0E 0 e.toNat)
      else b.go { f with claims := (e.toNat, c.1) :: f.claims }) s

/-- UNCLAIM (R131, R146). -/
def execUnclaim (e : BitVec 6) (s : State) : Host.Outcome State Fault Refusal :=
  taskWord (.unclaim e) (fun _ _ b f =>
    if !bit f.hdr.res e.toNat then .error (.fault 0x0D 0 e.toNat)
    else
      match f.claims with
      | (k, _) :: r => if k = e.toNat then b.go { f with claims := r } else .error (.fault 0x0E 0 e.toNat)
      | [] => .error (.fault 0x0E 0 e.toNat)) s

/-- The PRIO word (R147). -/
def prioWord (b : Bogie) (f : Frame) : Word := BitVec.ofNat 64 (b.floor * 2 ^ 8 + f.threshold b.floor * 2 ^ 4 + f.prio)

/-- PRIO (R147). -/
def execPrio (d : BitVec 5) (s : State) : Host.Outcome State Fault Refusal :=
  taskWord (.prio d) (fun _ _ b f => b.go (f.setX d (prioWord b f))) s

/-- The priority that PRIO.set gives a frame (R147). -/
def setPrio (s : State) (b : Bogie) (f : Frame) (p : Nat) : Nat :=
  let c := s.ctx f.ctx
  let lo := match b.stack.tail with
    | under :: _ => max c.bandLow (under.threshold b.floor + 1)
    | [] => c.bandLow
  let hi := min c.bandHigh (lowestCeiling c f.hdr)
  if f.prio = 15 ∨ hi < lo then f.prio else min (max p lo) hi

/-- PRIO.set (R147). -/
def execPrioSet (d a : BitVec 5) (s : State) : Host.Outcome State Fault Refusal :=
  taskWord (.prioSet d a) (fun s _ b f =>
    b.go { f.setX d (prioWord b f) with prio := setPrio s b f ((f.getX a).toNat % 16) }) s

/-- The SELF word (R148): the core field holds the primary's number in both cores. -/
def selfWord (s : State) (g : Nat) (f : Frame) : Word :=
  BitVec.ofNat 64 (s.module.toNat * 2 ^ 35 + f.ctx * 2 ^ 27 + g * 2 ^ 16 + dieOf g * 2 ^ 12 + (g / 8 % 24) * 2 ^ 7 + (g % 8) * 2 ^ 4 + g % 8)

/-- SELF (R148). -/
def execSelf (d : BitVec 5) (s : State) : Host.Outcome State Fault Refusal :=
  taskWord (.self d) (fun s g b f => b.go (f.setX d (selfWord s g f))) s

/-- The frame word (R148). The depth field has four bits, so that sixteen frames read as 0. -/
def frameWord (b : Bogie) (f : Frame) : Word :=
  BitVec.ofNat 64 ((f.window - b.fetched) * 2 ^ 24 + f.claims.length * 2 ^ 20 + b.stack.length % 16 * 2 ^ 16 + f.kernel)

/-- SELF.frame (R148). -/
def execSelfFrame (d : BitVec 5) (s : State) : Host.Outcome State Fault Refusal :=
  taskWord (.selfFrame d) (fun _ _ b f => b.go (f.setX d (frameWord b f))) s

/-- A control and status register as a task reads it (R162-R166, R189). -/
def readCsr (s : State) (g : Nat) (b : Bogie) (f : Frame) (c : BitVec 12) : Word :=
  match c.toNat with
  | 0x001 => selfWord s g f
  | 0x002 => frameWord b f
  | 0x003 => prioWord b f
  | 0x010 => BitVec.ofNat 64 b.cycle
  | 0x011 => f.instret
  | 0x020 => f.scaleA.setWidth 64
  | 0x030 => f.faultPc
  | 0x031 => f.faultCode
  | 0x032 => f.faultAddr
  | 0x033 => f.faultExtra
  | n => (b.pfLatch[n - 0x100]?).getD 0

/-- CSRR (R161). On an engine hart, which has no task and no frame, the value is free (log 22). -/
def execCsrr (d : BitVec 5) (c : BitVec 12) (s : State) : Host.Outcome State Fault Refusal :=
  agentWord (.csrr d c) (fun s g b f => b.go (f.setX d (readCsr s g b f c)))
    (fun s die h =>
      let x := s.hart die h
      let s := { s with freeCtr := s.freeCtr + 1 }
      .ok (s.setHart die h { x with cpu := (x.cpu.setX d (Config.freeWord s.freeCtr)).next.done })) s

/-- CSRW (R161, R165): SCALE_A_BASE is the one register that takes a write. -/
def execCsrw (a : BitVec 5) (c : BitVec 12) (s : State) : Host.Outcome State Fault Refusal :=
  agentWord (.csrw a c) (fun _ _ b f => b.go { f with scaleA := (f.getX a).setWidth 10 })
    (fun s die h => .ok (s.hartIssue die h [] none)) s

end Sys2Proof.Machine
end

