-- ==== Sys2Proof/Machine/Trap.lean ====
section
/-! DEFINITION. Events, fault records and handlers (R289-R294, R299), and the words TRAP and BRK (R300, R301). -/

namespace Sys2Proof.Machine

/-- The handler class of a code (R100, R289). -/
def classOf (code : Nat) : Nat :=
  match code with
  | 0x10 => 1
  | 0x11 => 2
  | 0x14 => 3
  | 0x20 | 0x21 => 4
  | 0x30 | 0x31 => 5
  | 0x32 => 6
  | 0x40 => 7
  | _ => 0

/-- The class whose handler receives a code in a context (R100, R294): its own, or class 0 but for the link codes. -/
def Ctx.receives (c : Ctx) (code : Nat) : Option Nat :=
  let k := classOf code
  if Tab.get c.handlers 0 k ≠ 0 then some k
  else if k ≠ 5 ∧ Tab.get c.handlers 0 0 ≠ 0 then some 0
  else none

/-- The fault record of an event (R291). -/
def faultRecord (ctx cls : Nat) (seq : BitVec 32) (i : FaultInfo) : Vec :=
  let gb := match i.frame with
    | some (g, level) => 2 ^ 31 + g * 2 ^ 20 + level * 2 ^ 16
    | none => 0
  BitVec.ofNat 512 (i.record + i.pc.toNat * 2 ^ 64 + (i.code + cls * 2 ^ 8 + gb + ctx * 2 ^ 32 + i.cause * 2 ^ 40) * 2 ^ 128 +
    i.addr.toNat * 2 ^ 192 + i.extra.toNat * 2 ^ 256 + i.node.toNat * 2 ^ 320 + i.inst.toNat * 2 ^ 352 + i.clock * 2 ^ 384 +
    seq.toNat * 2 ^ 448)

/-- The die whose dispatcher sends an event: the die where it arose, or, from a hub, the lowest that holds a coach of the
context (R294). -/
def State.eventDie (s : State) (c d : Nat) : Nat :=
  if d < 8 then d else ((List.range 8).find? fun e => s.dieOfCtx (s.ctx c) e).getD 0

/-- An address is mapped writable, on a page that takes stores of the device (R292, R413). -/
def State.mappedWritable (s : State) (ctx va : Nat) : Bool := (s.leaf ctx va).any fun l => l.w && l.cls != 5 && l.cls != 4

/-- A fault-record slot can be written (R292). -/
def State.slotWritable (s : State) (ctx va : Nat) : Bool :=
  s.mappedWritable ctx va && !(s.leaf ctx va).any fun l =>
    if l.cls = 3 then (s.consist ctx l.place).poisonAt (s.consist ctx l.place).tail (l.chainOff va) else s.poisoned l va

/-- The next EVENT of class k may be sent (R293): fewer than 16 are outstanding, and none of them has the record slot that it takes. -/
def Ctx.slotFree (c : Ctx) (k : Nat) : Bool :=
  let l := Tab.get c.outstanding [] k
  decide (l.length < 16) && !l.any fun n => n.toNat % 16 == (Tab.get c.seqs 0 k).toNat % 16

/-- An EVENT sent to class k (R292): the counter's value is its sequence number; the record is written, and the release goes
once it is. -/
def State.sendEvent (s : State) (d c k : Nat) (i : FaultInfo) : State :=
  let x := s.ctx c
  let seq := Tab.get x.seqs 0 k
  let h := (Tab.get x.handlers 0 k).toNat
  let s := s.setCtx c { x with seqs := Tab.put x.seqs k (seq + 1) }
  let va := h + 64 * (1 + seq.toNat % 16)
  if s.slotWritable c va then
    let s := s.setCtx c { s.ctx c with outstanding := Tab.put x.outstanding k (Tab.get x.outstanding [] k ++ [seq]) }
    let (id, s) := s.fwStoreId c va (bytesOfNat 64 (faultRecord c k seq i).toNat)
    s.add [{ ev := .raiseEvent
             arg := { d := s.eventDie c d, c := c, m := 1, n := id, rel := { rel := { type := 2, prio := 15, ctx := c, arg := seq, record := h, cls := k } } } }]
  else s.escalate c i.code h

/-- An event queued for class k by F4 (R293); a full queue escalates. -/
def State.queueEvent (s : State) (c k : Nat) (i : FaultInfo) : State :=
  let x := s.ctx c
  let q := Tab.get x.eventq [] k
  if 1024 ≤ q.length then s.escalate c i.code i.record
  else s.setCtx c { x with eventq := Tab.put x.eventq k (q ++ [i]) }

/-- RAISE_EVENT (R101, R292-R294): an event of a context; or (m 1) the EVENT release of one whose record has been written. -/
def raiseEvent (a : Args) (s : State) : State :=
  if a.m = 1 then
    match Tab.find s.answers a.n with
    | some _ => { s with answers := Tab.del s.answers a.n }.add [{ ev := .releaseAccept, arg := { d := a.d, rel := a.rel }, lane := some (6000 + a.d, 0) }]
    | none => s.add [{ ev := .raiseEvent, arg := a, due := s.clock + 1 }]
  else
    let x := s.ctx a.c
    let i := { a.info with clock := if a.flag then a.info.clock else s.clock, die := a.d }
    if x.state = 0 ∨ x.state = 1 ∨ x.state = 6 then { s with errlog := s.errlog ++ [{ code := i.code, ctx := a.c, addr := i.addr.toNat }] }
    else
      match x.receives i.code with
      | none => if classOf i.code = 5 then s else s.escalate a.c i.code i.addr.toNat
      | some k =>
        if x.state = 5 ∨ !x.slotFree k ∨ !(Tab.get x.eventq [] k).isEmpty then s.queueEvent a.c k i
        else s.sendEvent a.d a.c k i

/-- EVENT_UNQUEUE (R293): the frame of a handler ended, whose EVENT had that sequence number (flag false), or a context was thawed or the
queue is to be looked at again (flag true); the event that F4 has held longest in the class is sent if it may be. -/
def eventUnqueue (c k : Nat) (seq : BitVec 32) (flag : Bool) (s : State) : State :=
  let s := if flag then s else s.setCtx c { s.ctx c with outstanding := Tab.put (s.ctx c).outstanding k ((Tab.get (s.ctx c).outstanding [] k).erase seq) }
  let x := s.ctx c
  match Tab.get x.eventq [] k with
  | [] => s
  | i :: r =>
    if x.state = 5 ∨ !x.slotFree k then s
    else
      let s := s.setCtx c { x with eventq := Tab.put x.eventq k r }
      let s := s.sendEvent i.die c k i
      if r.isEmpty then s else s.add [{ ev := .eventUnqueue, arg := { c := c, n := k, flag := true } }]

/-- RAISE_EVENT. -/
def execRaiseEvent (s : State) : Host.Outcome State Fault Refusal := .next (raiseEvent s.arg s)
/-- EVENT_UNQUEUE. -/
def execEventUnqueue (s : State) : Host.Outcome State Fault Refusal := .next (eventUnqueue s.arg.c s.arg.n (s.arg.val.setWidth 32) s.arg.flag s)

/-- TRAP (R300): the activation ends; the service is called once every earlier access is performed, and its reply is the next
triggering message. -/
def execTrap (d a : BitVec 5) (n : BitVec 12) (s : State) : Host.Outcome State Fault Refusal :=
  agentWord (.trap d a n) (fun _ g b f => b.awaiting g f { op := .trap n.toNat (f.getX a), dest := d } false)
    (fun s die h =>
      let o : Op := .trap n.toNat ((s.hart die h).cpu.getX a)
      .ok (s.hartIssue die h [o] (some { op := o, dest := d }))) s

/-- BRK (R301): the activation commits, the task ends, and BREAKPOINT is raised; an engine hart, which runs no task, stops with
the code (R234). -/
def execBrk (n : BitVec 12) (s : State) : Host.Outcome State Fault Refusal :=
  agentWord (.brk n)
    (fun _ g b f => b.commit g { f with claims := [] } (.brk { code := 0x15, extra := BitVec.ofNat 64 (n.toNat * 2 ^ 32), pc := f.cpu.pc }))
    (fun _ _ _ => .error (.fault 0x15 0 n.toNat)) s

end Sys2Proof.Machine
end

