-- ==== Sys2Proof/Machine/Copy.lean ====
section
/-! DEFINITION. Copy queues, packets and completion rings (R221-R232), the engine harts (R233-R235) and the words COPY, COPYC,
COPYM, CWP and CRING (R236-R238). -/

namespace Sys2Proof.Machine

/-! ### Descriptors and packets (R221, R224) -/

/-- The fields of a queue descriptor. -/
structure Desc where
  base  : Nat
  rd    : Nat
  wr    : Nat
  log2n : Nat
  ctx   : Nat
  die   : Nat
  coach : Nat
  ch    : Nat
  hart  : Nat
  rsv   : Bool
  deriving DecidableEq, Repr

/-- A descriptor by its 64 bytes. -/
def descOf (w : Vec) : Desc :=
  { base := bits w 63 0, rd := bits w 95 64, wr := bits w 127 96, log2n := bits w 131 128, ctx := bits w 154 147,
    die := bits w 158 155, coach := bits w 163 159, ch := bits w 165 164, hart := bits w 170 166,
    rsv := bits w 511 171 != 0 || bits w 146 132 != 0 }

/-- The address of slot i of a ring. -/
def Desc.slotAt (q : Desc) (i : Nat) : Nat := q.base + 64 * (i % 2 ^ q.log2n)

/-- The fields of a copy packet. -/
def pKind (p : Vec) : Nat := bits p 7 0
/-- See pKind. -/
def pSpad (p : Vec) : Bool := bit p 8
/-- See pKind. -/
def pBar (p : Vec) : Bool := bit p 9
/-- See pKind. -/
def pSucc (p : Vec) : Bool := bit p 10
/-- See pKind. -/
def pRing (p : Vec) : Bool := bit p 11
/-- See pKind. -/
def pRow (p : Vec) : Nat := bits p 47 24
/-- See pKind. -/
def pTotal (p : Vec) : Nat := (bits p 63 48 + 1) * pRow p
/-- See pKind. -/
def pHandle (p : Vec) : Word := dword p 4
/-- The version word of a COPYC (R229). -/
def pVersion (p : Vec) : Nat := bits p 255 192

/-- The address, or raw offset, of byte n of a packet's source and destination (R224). -/
def pSrcAt (p : Vec) (n : Nat) : Nat := (bits p 127 64 + n / pRow p * bits p 223 192 + n % pRow p) % 2 ^ 64
/-- See pSrcAt. -/
def pDstAt (p : Vec) (n : Nat) : Nat := (bits p 191 128 + n / pRow p * bits p 255 224 + n % pRow p) % 2 ^ 64

/-- A store applied at its home at once, made by an agent that waits for nothing of it. -/
def State.storeNow (s : State) (q : Src) (ctx va : Nat) (l : List Byte) : State :=
  let r : Req := { id := 0, src := q, ctx := ctx, op := .store (placed va l) true false none }
  match s.leaf ctx va with
  | none =>
    let s := s.noteWalk ctx va
    { s with errlog := s.errlog ++ [{ code := 0x09, ctx := ctx, addr := va }] }
  | some f => if f.cls = 3 then s.toHead (s.srcDie q) (srcEp q) r f else s.serveStore (f.home va) r (placed va l)

/-- The handles that a packet delivers through: its own, or those that a COPYM's mask names in its table (R230), which is read anew
at each use (log 133). -/
def State.packetHandles (s : State) (ctx : Nat) (p : Vec) : List Word :=
  if pKind p = 3 then
    match s.recordAt ctx (pHandle p).toNat with
    | some t => ((List.range 8).filter fun i => bit p (448 + i)).map fun i => dword t i
    | none => []
  else if pSpad p ∨ pBar p then [pHandle p] else []

/-- Whether a feed is that of a packet. -/
def Feed.ofPacket (c : Feed) (ctx desc slot : Nat) : Bool := c.ctx == ctx && c.desc == desc && c.slot == slot

/-- A packet's frames counted as owed the copy, and its barriers as fed by it (R123, R189). -/
def State.noteCopy (s : State) (ctx desc slot : Nat) (p : Vec) : State :=
  if s.copies.any (fun c => c.ofPacket ctx desc slot) then s
  else
    { s with copies := s.copies ++ (s.packetHandles ctx p).filterMap fun h =>
        (((s.bogie (s.redirect h)).frameFor (.handle h) (pSpad p)).orElse fun _ => (s.savedFor (.handle h)).map (·.frame)).map fun f =>
          { ctx := ctx, desc := desc, slot := slot, uid := f.uid, bar := handleIndex h, data := pSpad p } }

/-- COPY_APPEND (R236): at the home of the descriptor a slot is claimed, the packet written and the hart kicked; a full ring makes
it wait. DESIGN CHOICE: with a poisoned descriptor the command is dropped, with no event and no entry in the log (log 149). -/
def copyAppend (d : Nat) (q : Req) (s : State) : State :=
  match q.op with
  | .copy desc p =>
    let again := s.add [{ ev := .copyAppend, arg := { d := d, req := q }, due := s.clock + 1 }]
    match s.leaf q.ctx desc, s.readWaits q.ctx desc, s.recordAt q.ctx desc with
    | none, _, _ => s.lost d q
    | some l, wait, w =>
      if l.cls ≠ 3 ∧ l.home desc ≠ d then s.post d epHome (l.home desc) q.ctx desc 5 .copyAppend { d := l.home desc, req := q }
      else
        match wait, w with
        | some (some _), _ => s.park d q
        | some none, _ => again
        | none, none => s.answer d q 0 0x10
        | none, some w =>
          let x := descOf w
          if 2 ^ x.log2n ≤ (x.wr + 2 ^ 32 - x.rd) % 2 ^ 32 ∨ s.restricting q.ctx (x.slotAt x.wr) then again
          else
            let s := s.storeNow q.src q.ctx (x.slotAt x.wr) (bytesOfNat 64 p.toNat)
            let s := s.storeNow q.src q.ctx (desc + 12) (bytesOfNat 4 (x.wr + 1))
            let s := s.noteCopy q.ctx desc (x.wr % 2 ^ x.log2n) p
            s.post d epHome (x.die % 8) q.ctx desc 2 .engineKick
              { d := x.die, h := x.hart, c := q.ctx, n := 0, m := 8, val := BitVec.ofNat 64 desc, req := q }
  | _ => s

/-! ### Kicks (R222, R233) -/

/-- A hart accepts a kick that names a descriptor (R222). -/
def State.kickOk (s : State) (d h c : Nat) (x : Desc) : Bool :=
  x.ctx == c && x.die == d && x.hart == h && (s.ctx c).hasCoach (x.die * 24 + x.coach) && decide (x.coach < 24) &&
    decide (4 ≤ x.log2n) && decide (x.log2n ≤ 15) && !x.rsv

/-- Work put to a hart, once. -/
def Hart.give (x : Hart) (w : Nat × Nat) : Hart := { x with work := if x.work.contains w then x.work else x.work ++ [w] }

/-- A kick that no hart accepts is dropped, and F4 logs it (R222). -/
def State.logKick (s : State) (a : Args) : State := { s with errlog := s.errlog ++ [{ code := 0, ctx := a.c, addr := a.val.toNat }] }

/-- A kick taken, and performed (R184): a copy hart takes the descriptors that R222 allows, a collective or snapshot hart a command record. -/
def State.takeKick (s : State) (a : Args) : State :=
  let s := s.answer (a.d % 8) a.req 0 0
  if a.n ≠ 0 ∨ a.m ≠ 8 then s
  else if 22 ≤ a.h ∨ 8 ≤ a.d then
    match a.req.op with
    | .copy _ _ => s.logKick a
    | _ => s
  else
    let x := s.hart a.d a.h
    if a.h < 16 then
      match (s.recordAt a.c a.val.toNat).map descOf with
      | some q =>
        if s.kickOk a.d a.h a.c q then
          (s.setHart a.d a.h (x.give (a.c, a.val.toNat))).add [{ ev := .copyPacketExecute, arg := { d := a.d, h := a.h } }]
        else s.logKick a
      | none => (s.noteWalk a.c a.val.toNat).logKick a
    else (s.setHart a.d a.h (x.give (a.c, a.val.toNat))).add [{ ev := .engineQuantum, arg := { d := a.d, h := a.h } }]

/-- ENGINE_KICK (R222, R233): a store to an engine block; a COPY's kick may name a hart that does not exist. The kick register takes 8 bytes;
writes to other offsets are ignored. A copy hart takes a kick once it can read the descriptor (R350, R355). -/
def engineKick (a : Args) (s : State) : State :=
  match (if a.h < 16 ∧ a.d < 8 ∧ a.n = 0 ∧ a.m = 8 then s.readWaits a.c a.val.toNat else none) with
  | some d => (s.parkRead d (.hart a.d a.h) a.c a.val.toNat).add [{ ev := .engineKick, arg := a, due := s.clock + 1 }]
  | none => s.takeKick a

/-! ### The checks of a packet (R225) -/

/-- A leaf of ordinary or copy-on-write class. -/
def plainLeaf (l : Option Leaf) : Bool := l.any fun l => l.cls == 0 || l.cls == 6

/-- The first failing check of R225 but the last: its status and cause. A handle table that cannot be read is a COPY_FAULT (log 132). -/
def State.packetCheck (s : State) (r : CopyRun) : Option (Nat × Nat) :=
  let p := r.pkt
  let k := pKind p
  let aux := dword p 7
  if k = 0 ∨ 3 < k ∨ bits p 23 12 ≠ 0 ∨ (pSpad p ∧ !pBar p) ∨ pRow p = 0 ∨ (k = 1 ∧ aux ≠ 0) ∨ (k = 3 ∧ bits aux 63 8 ≠ 0) then some (0x20, 0x02)
  else if 2 ^ 24 - 1 < pTotal p then some (0x21, 0)
  else if k = 2 then
    let v := pVersion p
    let dst := bits p 191 128
    let lv := s.leaf r.ctx v
    let ld := s.leaf r.ctx dst
    let le := s.leaf r.ctx (dst + pTotal p - 1)
    if bits p 63 48 ≠ 0 ∨ pSpad p ∨ 65536 < pTotal p ∨ v % 8 ≠ 0 ∨ !plainLeaf lv ∨ !plainLeaf ld ∨
        lv.map (·.key) ≠ ld.map (·.key) ∨ ld.map (·.key) ≠ le.map (·.key) then some (0x21, 0) else none
  else if k = 3 then
    if !pSpad p ∨ aux = 0 then some (0x21, 0)
    else
      match s.recordAt r.ctx (pHandle p).toNat with
      | none => some (0x20, 0x09)
      | some _ => if (s.packetHandles r.ctx p).any fun h => handleBogie h / 8 != r.coach then some (0x21, 0) else none
  else none

/-- Why the checks of a packet wait, and at which address: a page whose walk they make, or the handle table of a COPYM (R350, R355). -/
def State.checkWaits (s : State) (r : CopyRun) : Option (Option Nat × Nat) :=
  let p := r.pkt
  match pKind p with
  | 2 => ([pVersion p, bits p 191 128, bits p 191 128 + pTotal p - 1].find? fun a => s.restricting r.ctx a).map fun a => (none, a)
  | 3 => (s.readWaits r.ctx (pHandle p).toNat).map fun d => (d, (pHandle p).toNat)
  | _ => none

/-- Why a delivery of a packet waits: the handle table of a COPYM, which is read for it. -/
def State.tableWait (s : State) (r : CopyRun) : Option (Option Nat × Nat) := if pKind r.pkt = 3 then s.checkWaits r else none

/-- The last check of R225: a frame that a packet writes does not hold all its destination bytes. -/
def State.packetBound (s : State) (r : CopyRun) : Bool :=
  pSpad r.pkt && (s.packetHandles r.ctx r.pkt).any fun h =>
    match (s.bogie (s.redirect h)).frameFor (.handle h) true with
    | some f => decide (f.hdr.scratch * 256 < bits r.pkt 191 128 + bits r.pkt 63 48 * bits r.pkt 255 224 + pRow r.pkt)
    | none => (s.savedFor (.handle h)).any fun f =>
      decide (f.frame.hdr.scratch * 256 < bits r.pkt 191 128 + bits r.pkt 63 48 * bits r.pkt 255 224 + pRow r.pkt)

/-! ### Moving the bytes (R226, R228) -/

/-- What a read of source bytes by a copy, an array or firmware gives: bytes and whether their line held poison; a wait, at a home where
F3 may have to repair the page; a remote read to make; or a failure with its cause. -/
inductive CopyRead where
  | bytes (l : List Byte) (poison : Bool)
  | wait (home : Option Nat)
  | remote (n : Nat)
  | fail (cause : Nat)

/-- At most n bytes from an address, within one line, as an agent of die d reads them at their home, or, of a chained line, at the member
that serves d (R186, R366), or from a device page, by its doublewords. A walk of a page in Restricting waits (R355). -/
def State.copyRead (s : State) (d ctx va n : Nat) : CopyRead :=
  match region va with
  | .glob =>
    if s.restricting ctx va then .wait none
    else
    match s.leaf ctx va with
    | none => .fail 0x09
    | some l =>
      let n := min n (64 - va % 64)
      if !l.rd then .fail 0x09
      else if l.cls = 4 then
        let n := min n (8 - va % 8)
        .bytes (bytesOfNat n (s.deviceRead l va n).toNat) false
      else if l.cls = 3 then
        let c := s.consist ctx l.place
        let o := l.chainOff va
        let x := (c.server d o).getD c.tail
        if c.notYet x o then .wait none
        else if s.blocked x ctx va l then .wait (some x)
        else .bytes (c.bytes x o n) (c.poisonAt x o)
      else if s.blocked (l.home va) ctx va l then .wait (some (l.home va))
      else .bytes (s.readBytes (l.phys va) n) (s.poisoned l va)
  | .peerWindow =>
    if !bit (peerEntry s ctx va) 0 || !bit (peerEntry s ctx va) 1 then .fail 0x09 else .remote (min n (8 - va % 8))
  | _ => .fail 0x09

/-- Source bytes of a packet read by its hart as an ordinary load is (R182, R187): from its die's RDC, where that holds the line since the
hart took the packet, unless the line has left it, or from the home, which fills the RDC. The packet's own destination is read at the home
alone. -/
def State.hartRead (s : State) (d h : Nat) (r : CopyRun) (va n : Nat) : CopyRead × State :=
  let home := s.copyRead d r.ctx va n
  match home with
  | .bytes _ _ =>
    match s.leaf r.ctx va with
    | none => (home, s)
    | some l =>
      let x := if l.cls = 3 then ((s.consist r.ctx l.place).nearest d).getD d else l.home va
      let own := !pSpad r.pkt && (List.range (bits r.pkt 63 48 + 1)).any fun i =>
        let a := pDstAt r.pkt (i * pRow r.pkt)
        decide (a < va / 64 * 64 + 64) && decide (va / 64 * 64 < a + pRow r.pkt)
      match (if x ≠ d ∧ cachedClass l.cls ∧ !own then (s.die d).rdcHit (s.hart d h).stamp (s.hart d h).written r.ctx va else none) with
      | some e =>
        let (i, s) := s.choose 2
        if i = 0 then (.bytes ((bytesOfNat 64 e.data.toNat).drop (va % 64) |>.take (min n (64 - va % 64))) e.poison, s)
        else (home, (s.noteRead r.ctx va).refill x { id := 0, src := .hart d h, ctx := r.ctx, op := .load va 1 false } va l false)
      | none => (home, (s.noteRead r.ctx va).refill x { id := 0, src := .hart d h, ctx := r.ctx, op := .load va 1 false } va l false)
  | .fail _ => (home, s.noteRead r.ctx va)
  | _ => (home, s)

/-- A copy hart's packet changed. -/
def State.putRun (s : State) (d h : Nat) (r : CopyRun) : State := s.setHart d h { s.hart d h with run := some r }

/-- A first failure of the packet: its status, cause and address. A poisoned line that was passed on gives way to a fault. -/
def CopyRun.blame (r : CopyRun) (status cause addr : Nat) : CopyRun :=
  if r.status = 0 ∨ (r.status = 0x10 ∧ status = 0x20) then { r with status := status, cause := cause, addr := addr } else r

/-- The packet ends with a status, and what has been sent is still to be applied. -/
def CopyRun.fail (r : CopyRun) (status cause addr : Nat) : CopyRun :=
  { r.blame status cause addr with stage := 1, buf := [], asked := none, tainted := none, bad := [] }

/-- Another step of the hart follows. -/
def State.again (s : State) (d h : Nat) : State := s.add [{ ev := .copyPacketExecute, arg := { d := d, h := h }, due := s.clock + 1 }]

/-- The hart's completion is to be issued once every byte sent is applied (R227). -/
def State.tryComplete (s : State) (d h : Nat) : State :=
  match (s.hart d h).run with
  | some r => if r.stage = 1 ∧ r.owed.isEmpty then s.add [{ ev := .copyCompletion, arg := { d := d, h := h } }] else s
  | none => s

/-- The failure of a global destination for a store of a copy: none where it may be written (R191, R228). -/
def State.copyTarget (s : State) (ctx va : Nat) : Option Nat :=
  match region va with
  | .glob =>
    match s.leaf ctx va with
    | none => some 0x09
    | some l => if !l.rd then some 0x09 else if !l.w ∨ l.cls = 5 then some 0x07 else none
  | .peerWindow => if !bit (peerEntry s ctx va) 0 then some 0x09 else if !bit (peerEntry s ctx va) 2 then some 0x07 else none
  | _ => some 0x09

/-- A delivery of bytes at a raw offset to each frame that the packet names; the last carries the arrival (R226, R230). A handle of a
bogie that does not exist finds no frame, and its delivery is dropped (R214). DESIGN CHOICE: the bytes of a COPYM count once, with the
delivery to the first masked target (log 147). -/
def State.deliverCopy (s : State) (d h : Nat) (r : CopyRun) (off : Nat) (data : List Byte) (last : Bool) : State × List Owed :=
  (s.packetHandles r.ctx r.pkt).foldl (fun (x : State × List Owed) hd =>
    let (id, s) := x.1.newId
    let g := handleBogie hd
    let u : Update := { bytes := data.length, arr := if last then 1 else 0 }
    let len := if x.2.isEmpty then data.length else 0
    if 1535 < g then (if last then s.dropArrival (.handle hd) else s, x.2 ++ [{ id := id, done := true }])
    else
      (s.post d (epHart h) (dieOf g) r.ctx 0 5 .heldWriteArrival
        { g := g, held := [.deliver id (.hart d h) (.handle hd) off data (some (handleIndex hd, u))] },
       x.2 ++ [{ id := id, len := len }])) (s, [])

/-- The bytes that are applied in address order leave the list of those owed. -/
def CopyRun.settle (r : CopyRun) (fuel : Nat) : CopyRun :=
  match fuel, r.owed with
  | n + 1, o :: rest => if o.done then { r with owed := rest, bytes := r.bytes + o.len }.settle n else r
  | _, _ => r

/-- The bytes that a packet has moved shown in its channel's pointer (R237); where two harts serve one channel, each shows its own
(log 128). -/
def State.showBytes (s : State) (r : CopyRun) : State :=
  let x := s.coach r.coach
  s.setCoach r.coach { x with chBytes := Tab.put x.chBytes r.ch (BitVec.ofNat 24 r.bytes) }

/-- The whole row of a COPYC sent to commit at the destination's home (R229): a store of the hart that tests the version. -/
def State.sendCommit (s : State) (d h : Nat) (r : CopyRun) : State :=
  let dst := bits r.pkt 191 128
  if s.restricting r.ctx dst then s.again d h
  else
    match s.copyTarget r.ctx dst with
    | some cause => ((s.noteWalk r.ctx dst).putRun d h (r.fail 0x20 cause dst)).tryComplete d h
    | none =>
      if !plainLeaf (s.leaf r.ctx dst) then (s.putRun d h (r.fail 0x20 0x09 dst)).tryComplete d h
      else
        let (id, s) := s.newId
        let q : Req := { id := id, src := .hart d h, ctx := r.ctx
                         op := .store (placed dst r.buf) false false (some (.version (pVersion r.pkt) (dword r.pkt 7) (r.bad.map (dst + ·)))) }
        let s := s.putRun d h { r with sent := r.buf.length, buf := [], bad := [], stage := 1, owed := [{ id := id, len := r.buf.length, addr := dst }] }
        s.sendStore (.hart d h) q (placed dst r.buf)

/-- The bytes read for the next delivery sent on: to frames, or as a store of the hart (R225, R226, R228). -/
def State.sendCopy (s : State) (d h : Nat) (r : CopyRun) : State :=
  let n := r.buf.length
  let dst := pDstAt r.pkt r.sent
  let last := decide (r.sent + n = pTotal r.pkt)
  let r' := { r with sent := r.sent + n, buf := [], tainted := none, bad := [], stage := if last then 1 else 0 }
  if pSpad r.pkt then
    match r.tainted with
    | some line => (s.putRun d h (r.fail 0x10 0 line)).tryComplete d h
    | none =>
      if r.sent = 0 ∧ s.packetBound r then (s.putRun d h (r.fail 0x21 0 0)).tryComplete d h
      else
        let (s, ids) := s.deliverCopy d h r dst r.buf last
        let r' := { r' with owed := r'.owed ++ ids }
        let r' := r'.settle r'.owed.length
        (((s.putRun d h r').showBytes r').tryComplete d h).again d h
  else if s.restricting r.ctx dst then s.again d h
  else
    match s.copyTarget r.ctx dst with
    | some cause => ((s.noteWalk r.ctx dst).putRun d h (r.fail 0x20 cause dst)).tryComplete d h
    | none =>
      let r' := match r.tainted with
        | some line => r'.blame 0x10 0 line
        | none => r'
      let (id, s) := s.newId
      let q : Req := { id := id, src := .hart d h, ctx := r.ctx, op := .store (placed dst r.buf) false false (if r.tainted.isSome then some .poison else none) }
      let s := s.putRun d h { r' with owed := r'.owed ++ [{ id := id, len := n, addr := dst }] }
      (s.sendStore (.hart d h) q (placed dst r.buf)).again d h

/-- Source bytes that come to the packet in hand, of a line that may be poisoned. -/
def CopyRun.take (r : CopyRun) (va : Nat) (l : List Byte) (poison : Bool) : CopyRun :=
  if poison then
    { r with buf := r.buf ++ l, tainted := some (r.tainted.getD (va / 64 * 64)), bad := r.bad ++ (List.range l.length).map (r.buf.length + ·) }
  else { r with buf := r.buf ++ l }

/-- The next step of a packet that moves its bytes: some source bytes are read, or a complete delivery is sent (R226). -/
def State.moveCopy (s : State) (d h : Nat) (r : CopyRun) : State :=
  let p := r.pkt
  let dst := pDstAt p r.sent
  let goal := if pKind p = 2 then pTotal p else min (pRow p - r.sent % pRow p) (64 - dst % 64)
  if r.asked.isSome then s
  else if goal ≤ r.buf.length then
    match s.tableWait r with
    | some (x, va) => (s.parkRead x (.hart d h) r.ctx va).again d h
    | none => if pKind p = 2 then s.sendCommit d h r else s.sendCopy d h r
  else
    let va := pSrcAt p (r.sent + r.buf.length)
    match s.hartRead d h r va (goal - r.buf.length) with
    | (.bytes l poison, s) => (s.putRun d h (r.take va l poison)).again d h
    | (.wait home, s) => (s.parkRead home (.hart d h) r.ctx va).again d h
    | (.remote n, s) =>
      let (id, s) := s.newId
      let s := s.putRun d h { r with asked := some (id, n) }
      s.sendRemote d va { id := id, src := .hart d h, ctx := r.ctx, op := .load va n false }
    | (.fail cause, s) => (s.putRun d h (r.fail 0x20 cause va)).tryComplete d h

/-- Why a hart cannot read the descriptor, or the next slot, of a queue that it serves, and at which address (R350, R355-R357). -/
def State.queueWaits (s : State) (ctx desc : Nat) : Option (Option Nat × Nat) :=
  match s.readWaits ctx desc, (s.recordAt ctx desc).map descOf with
  | some d, _ => some (d, desc)
  | none, some q => (s.readWaits ctx (q.slotAt q.rd)).map fun d => (d, q.slotAt q.rd)
  | none, none => none

/-- A queue of a hart holds a packet in its next slot. -/
def State.nextPacket (s : State) (ctx desc : Nat) : Option (Desc × Vec) :=
  match s.queueWaits ctx desc, (s.recordAt ctx desc).map descOf with
  | none, some q =>
    match s.recordAt ctx (q.slotAt q.rd) with
    | some p => if pKind p ≠ 0 then some (q, p) else none
    | none => none
  | _, _ => none

/-- The context that a hart with several to serve turns to next, in ascending order round the numbers (R235). -/
def nextCtx (l : List Nat) (now : Nat) : Option Nat :=
  let up := l.filter fun c => decide (now < c)
  let pick := if up.isEmpty then l else up
  pick.foldl (fun (m : Option Nat) c => match m with
    | some x => some (min x c)
    | none => some c) none

/-- The clocks of an engine quantum of 50 µs (R235). -/
def quantum : Nat := 85000

/-- A slot of a queue is claimed and not served (R221). -/
def State.claimed (s : State) (ctx desc : Nat) : Bool :=
  match (s.recordAt ctx desc).map descOf with
  | some q => q.wr != q.rd
  | none => false

/-- A claimed slot of a queue that is not served holds a packet (R104). -/
def State.packetsLeft (s : State) (ctx desc : Nat) : Bool :=
  match (s.recordAt ctx desc).map descOf with
  | some q => (List.range (min (2 ^ q.log2n) ((q.wr + 2 ^ 32 - q.rd) % 2 ^ 32))).any fun i => (s.recordAt ctx (q.slotAt (q.rd + i))).any fun p => pKind p != 0
  | none => false

/-- A hart waits until the next claimed slot of a queue that it serves holds a packet (R222), or until it can read it: it looks again. Where
no slot is claimed it waits for a kick. -/
def State.hartLooks (s : State) (d h : Nat) : State :=
  let s := (s.hart d h).work.foldl (fun s w => match s.queueWaits w.1 w.2 with
    | some (x, va) => s.parkRead x (.hart d h) w.1 va
    | none => s) s
  if !((s.hart d h).work.any fun w => s.claimed w.1 w.2 || (s.queueWaits w.1 w.2).isSome) ∨
      s.agenda.any (fun e => e.ev == .copyPacketExecute && e.arg.d == d && e.arg.h == h) then s
  else s.again d h

/-- A copy hart takes its next packet: of the context that it serves, or of the next once the quantum is over (R222, R235). The kick that
it serves is an acquire (R177, R226). DESIGN CHOICE: the slot that its record and event name is rd modulo the ring's slots (log 145), and a
packet that fails a check of R225 has the failing address 0 (log 146). -/
def State.takePacket (s : State) (d h : Nat) : State :=
  let x := s.hart d h
  let ready := x.work.filter fun w => (s.nextPacket w.1 w.2).isSome
  let ctxs := (ready.map (·.1)).eraseDups
  let stay := ctxs.contains x.ctx && (decide (s.clock < x.turn + quantum) || decide (ctxs.length ≤ 1))
  match (if stay then some x.ctx else nextCtx ctxs x.ctx) with
  | none => (s.setHart d h { x with state := 0 }).hartLooks d h
  | some c =>
    let mine := ready.filter fun w => w.1 == c
    let (i, s) := s.choose mine.length
    match mine[i]? with
    | none => s
    | some w =>
      match s.nextPacket c w.2 with
      | none => s
      | some (q, p) =>
        let slot := q.rd % 2 ^ q.log2n
        let r : CopyRun := { ctx := c, desc := w.2, slot := slot, pkt := p, coach := q.die * 24 + q.coach, ch := q.ch }
        match s.checkWaits r with
        | some (y, va) => (s.parkRead y (.hart d h) c va).again d h
        | none =>
          let s := (s.noteRead c w.2).noteCopy c w.2 slot p
          let s := s.setHart d h { x with state := 1, ctx := c, turn := if stay then x.turn else s.clock, run := some r
                                          stamp := (s.die d).rdcFills, written := [] }
          match s.packetCheck r with
          | some (st, cause) => (s.putRun d h (r.fail st cause 0)).tryComplete d h
          | none => s.again d h

/-- An answer to a copy hart for its packet: a delivery or store applied, or, with a value, a delivery dropped, whose bytes do not count
(R214, R231, R237); or the value of a remote read; none where the answer is for another of its requests. -/
def State.copyAnswer (s : State) (d h id : Nat) (val : Word) (code : Nat) : Option State :=
  match (s.hart d h).run with
  | none => none
  | some r =>
    match r.owed.find? (fun o => o.id == id) with
    | some o =>
      let r := { r with owed := r.owed.map fun (o : Owed) => if o.id = id then { o with done := true, len := if code = 0 ∧ val = 0 then o.len else 0 } else o }
      let r := match code, (if pKind r.pkt = 2 then r.tainted else none) with
        | 0, some line => r.blame 0x10 0 line
        | 0, none => r
        | 0x22, _ => r.blame 0x22 0 0
        | 0x10, _ => r.fail 0x10 0 (if pKind r.pkt = 2 then pVersion r.pkt / 64 * 64 else o.addr / 64 * 64)
        | _, _ => r.fail 0x20 code o.addr
      let r := r.settle r.owed.length
      some (((s.putRun d h r).showBytes r).tryComplete d h)
    | none =>
      match r.asked with
      | some (aid, n) =>
        if aid = id then
          let va := pSrcAt r.pkt (r.sent + r.buf.length)
          if code = 0 then some ((s.putRun d h { r.take va (bytesOfNat n val.toNat) false with asked := none }).again d h)
          else if code = 0x10 then some ((s.putRun d h { r.take va (bytesOfNat n 0) true with asked := none }).again d h)
          else some ((s.putRun d h (r.fail 0x20 code va)).tryComplete d h)
        else none
      | none => none

/-! ### Completion (R227, R231, R232) -/

/-- An update through a handle as an operation of its hart (R227); a handle of a bogie that does not exist finds no frame (R214). -/
def State.arriveCopy (s : State) (hd : Word) (u : Update) : State × List Op :=
  if 1535 < handleBogie hd then (s.dropArrival (.handle hd), []) else (s, [.arrive hd u])

/-- The updates with which a packet completes (R227). -/
def State.completionUpdates (s : State) (r : CopyRun) : State × List Op :=
  let p := r.pkt
  if !pBar p then (s, [])
  else if r.status ≠ 0 then
    (s.packetHandles r.ctx p).foldl (fun x hd =>
      let y := x.1.arriveCopy hd { code := BitVec.ofNat 8 r.status }
      (y.1, x.2 ++ y.2)) (s, [])
  else if pSpad p then (s, [])
  else s.arriveCopy (pHandle p) { bytes := pTotal p, arr := 1 }

/-- The packet's completion has been issued and what it sent is performed (R222, R237): the channel and the mailbox count it, frames that
drained for it may end, and the slot is to be emptied, and then rd to rise by a release store. -/
def State.closePacket (s : State) (d h : Nat) (r : CopyRun) : State :=
  let feeds := s.copies.filter fun c => c.ofPacket r.ctx r.desc r.slot
  let s := { s with copies := s.copies.filter fun c => !c.ofPacket r.ctx r.desc r.slot }
  let x := s.coach r.coach
  let s := s.setCoach r.coach { x with chPackets := Tab.put x.chPackets r.ch (Tab.get x.chPackets 0 r.ch + 1), chBytes := Tab.put x.chBytes r.ch 0 }
  let s := s.setHart d h { s.hart d h with run := some { r with stage := 4 }, done := (s.hart d h).done + 1 }
  let s := feeds.foldl (fun s c => s.checkDrains c.uid) (s.endWipes (d * 22 + h))
  (match (s.recordAt r.ctx r.desc).map descOf with
    | some q => (s.forwardOps (.hart d h) 0 r.ctx [.store (placed (q.base + 64 * r.slot) [0]) false false none,
        .store (placed (r.desc + 8) (bytesOfNat 4 (q.rd + 1))) true false none]).pump (.hart d h)
    | none => s).again d h

/-- COPY_COMPLETION (R227, R319): once every byte is applied, the completions that the packet selects are issued in order: the updates and
the successor's release, by the dispatcher of the channel's die, and then the record, or the event of a failure. -/
def copyCompletion (d h : Nat) (s : State) : State :=
  match (s.hart d h).run with
  | none => s
  | some r =>
    if r.stage ≠ 1 ∨ !r.owed.isEmpty then s
    else
      match (if pBar r.pkt ∧ r.status ≠ 0 then s.tableWait r else none) with
      | some (x, va) => (s.parkRead x (.hart d h) r.ctx va).add [{ ev := .copyCompletion, arg := { d := d, h := h }, due := s.clock + 1 }]
      | none =>
        let p := r.pkt
        let (s, updates) := s.completionUpdates r
        let succ : List Op := if !pSucc p then []
          else [.release (some d) false { type := 1, prio := ownPriority, ctx := r.ctx, record := (dword p 5).toNat, arg := BitVec.ofNat 32 (r.status + 256 * r.cause) }]
        let s := (s.forwardOps (.hart d h) 0 r.ctx (updates ++ succ)).pump (.hart d h)
        if pRing p then
          (({ s with ringq := s.ringq ++ [(r.ctx, (dword p 6).toNat, d * 22 + h)] } : State).putRun d h { r with stage := 2 }).add
            [{ ev := .completionRecordWrite, arg := { d := d, h := h } }]
        else
          let s := if r.status = 0 ∨ r.status = 0x22 then s
            else s.add [{ ev := .raiseEvent, arg := { d := d, c := r.ctx, info := { code := r.status, addr := BitVec.ofNat 64 r.addr, extra := BitVec.ofNat 64 r.slot, cause := if r.status = 0x20 then r.cause else 0 } } }]
          (s.putRun d h { r with stage := 5 }).again d h

/-- The hart leaves its completion ring, where the next in arrival order takes its turn (R232). -/
def State.leaveRing (s : State) (d h ctx ring : Nat) : State :=
  let s := { s with ringq := s.ringq.filter fun q => q.2.2 != d * 22 + h }
  match s.ringq.find? fun q => q.1 == ctx && q.2.1 == ring with
  | some q => s.add [{ ev := .completionRecordWrite, arg := { d := q.2.2 / 22, h := q.2.2 % 22 } }]
  | none => s

/-- A completion ring's header as its hart reads it: of memory, or of a device page. -/
def State.ringHeader (s : State) (d h ctx ring : Nat) : Option Vec :=
  match s.recordAt ctx ring with
  | some w => some w
  | none => if ring % 64 = 0 ∧ region ring = .glob ∧ (s.leaf ctx ring).any (fun l => l.rd) then
      (s.nearBytes { src := .hart d h, ctx := ctx, op := .fence } ring 64).map fun b => vecOf b.1
    else none

/-- COMPLETION_RECORD_WRITE (R231, R232): the hart whose turn it is at the ring waits for room, and writes the record, prod by a release
store and then the release of wake, each once what precedes it is performed. A header that cannot be read takes no record (log 28); one
whose reserved fields or log2n break R231 is used as it stands (log 127). -/
def completionRecordWrite (d h : Nat) (s : State) : State :=
  match (s.hart d h).run with
  | none => s
  | some r =>
    let ring := (dword r.pkt 6).toNat
    if r.stage ≠ 2 ∨ (s.ringq.find? fun q => q.1 == r.ctx && q.2.1 == ring).map (·.2.2) ≠ some (d * 22 + h) then s
    else
      let retry : Happening := { ev := .completionRecordWrite, arg := { d := d, h := h }, due := s.clock + 1 }
      match s.readWaits r.ctx ring with
      | some x => (s.parkRead x (.hart d h) r.ctx ring).add [retry]
      | none =>
        match s.ringHeader d h r.ctx ring with
        | none =>
          let s := s.noteWalk r.ctx ring
          let s : State := { s with errlog := s.errlog ++ [{ code := 0x09, ctx := r.ctx, addr := ring }] }
          ((s.putRun d h { r with stage := 5 }).again d h).leaveRing d h r.ctx ring
        | some w =>
          let prod := bits w 95 64
          let n := 2 ^ bits w 131 128
          if (prod + 2 ^ 32 - bits w 127 96) % 2 ^ 32 = n then s.add [retry]
          else
            let rec' := r.status + r.cause * 2 ^ 8 + prod * 2 ^ 32 + r.slot * 2 ^ 64 + r.bytes * 2 ^ 128 + r.addr * 2 ^ 192
            let wake := bits w 255 192
            let rels : List Op := if wake = 0 then []
              else [.release none false { type := 1, prio := ownPriority, ctx := r.ctx, record := wake, arg := BitVec.ofNat 32 (prod + 1) }]
            ((((s.noteRead r.ctx ring).putRun d h { r with stage := 3 }).forwardOps (.hart d h) 0 r.ctx
              (((blocks (placed (bits w 63 0 + 32 * (prod % n)) (bytesOfNat 32 rec'))).map fun b => .store b false false none) ++
                [.store (placed (ring + 8) (bytesOfNat 4 (prod + 1))) true false none] ++ rels)).pump (.hart d h)).again d h

/-- What a packet's completion sent is performed: it closes, once its descriptor can be read. -/
def State.tryClose (s : State) (d h : Nat) (r : CopyRun) : State :=
  match s.readWaits r.ctx r.desc with
  | some x => (s.parkRead x (.hart d h) r.ctx r.desc).again d h
  | none =>
    let t := s.closePacket d h r
    if r.stage = 3 then t.leaveRing d h r.ctx (dword r.pkt 6).toNat else t

/-- The packet is done once its slot is empty and rd has risen (R222). -/
def State.endPacket (s : State) (d h : Nat) : State := (s.setHart d h { s.hart d h with run := none }).again d h

/-- COPY_PACKET_EXECUTE (R222, R225, R226, R232): a copy hart takes a packet and checks it, or moves on with the one in hand: the next of
its bytes, or what follows once its completion record, or the emptying of its slot, is performed. -/
def copyPacketExecute (d h : Nat) (s : State) : State :=
  let x := s.hart d h
  if x.stopped.isSome ∨ 16 ≤ h then s
  else
    match x.run with
    | none => s.takePacket d h
    | some r =>
      match r.stage, x.transit with
      | 0, _ => s.moveCopy d h r
      | 3, [] | 5, [] => s.tryClose d h r
      | 4, [] => s.endPacket d h
      | _, _ => s

/-! ### Harts (R234, R235) -/

/-- The command in hand of a collective or snapshot hart has ended, with a status and its cause. -/
def Hart.endCommand (x : Hart) (status cause : Nat) : Hart :=
  { x with work := x.work.tail, done := x.done + 1, state := 0, last := status + 256 * cause }

/-- ENGINE_HART_FAULT (R234): F4 completes what a stopped hart has in hand with COPY_FAULT and the code as its cause, and restarts
the hart at its entry point. A walk that failed is logged where it met a malformed entry (R345). -/
def engineHartFault (a : Args) (s : State) : State :=
  let x := s.hart a.d a.h
  if x.stopped.isNone then s
  else
    let s := if a.n = 0x09 then s.noteWalk x.ctx a.va else s
    let x := { x with stopped := none, await := none, cpu := { pc := x.entry } }
    if 16 ≤ a.h then
      let s : State := match x.work.head? with
        | some w => { s with errlog := s.errlog ++ [{ code := 0x20, ctx := w.1, addr := w.2 }] }
        | none => s
      (s.setHart a.d a.h (x.endCommand 0x20 a.n)).add [{ ev := .engineQuantum, arg := { d := a.d, h := a.h } }]
    else
      let s := s.setHart a.d a.h { x with state := 1 }
      match x.run with
      | some r => if r.stage ≤ 1 then (s.putRun a.d a.h (r.fail 0x20 a.n r.addr)).tryComplete a.d a.h else s
      | none => s

/-- A hart begins to load the routine of a context, from what an earlier quantum has loaded of it (R235). -/
def State.beginLoad (s : State) (d h c : Nat) : State :=
  let x := s.hart d h
  (s.setHart d h { x with state := 3, ctx := c, turn := s.clock, loaded := none, loading := some c
                          image := Tab.get x.parts [] c, parts := Tab.del x.parts c }).add
    [{ ev := .engineQuantum, arg := { d := d, h := h }, due := s.clock + quantum }]

/-- ENGINE_QUANTUM (R235): a hart that stands between packets or commands turns to the next context with work, its quantum being
over. A collective or snapshot hart begins its next command at its entry point, with registers of zero (log 129), once the routine that it
holds is that of the command's context; else F2 is to load that. A load that takes longer than the quantum goes on in the context's next.
done tells that the command in hand of such a hart has ended, which counts once what it issued is performed (R177, R185). -/
def engineQuantum (d h : Nat) (done : Bool) (s : State) : State :=
  let x := s.hart d h
  if h < 16 then (if x.run.isNone then s.takePacket d h else s)
  else if x.stopped.isSome then s
  else if done ∧ x.state = 1 ∧ (!x.transit.isEmpty ∨ x.await.isSome) then
    s.add [{ ev := .engineQuantum, arg := { d := d, h := h, flag := true }, due := s.clock + 1 }]
  else
    let x := if done ∧ x.state = 1 then x.endCommand 0 0 else x
    let ctxs := (x.work.map (·.1)).eraseDups
    let late := decide (x.turn + quantum ≤ s.clock)
    if x.state = 1 then s.setHart d h x
    else if x.state = 3 ∧ (!late ∨ ctxs.all (· == x.ctx)) then s
    else
      let x := match x.loading with
        | some c => { x with state := 0, loading := none, image := [], parts := Tab.put x.parts c x.image }
        | none => x
      let stay := ctxs.contains x.ctx && !late
      match (if stay then some x.ctx else nextCtx ctxs x.ctx) with
      | none => s.setHart d h x
      | some c =>
        let s := s.setHart d h { x with work := (x.work.filter fun w => w.1 == c) ++ x.work.filter fun w => w.1 != c }
        let x := s.hart d h
        if x.loaded = some c then
          s.setHart d h { x with ctx := c, turn := if stay then x.turn else s.clock, state := 1, cpu := { pc := x.entry }
                                 stamp := (s.die d).rdcFills, written := [] }
        else if x.transit.isEmpty ∧ x.await.isNone then s.beginLoad d h c
        else s.add [{ ev := .engineQuantum, arg := { d := d, h := h }, due := s.clock + 1 }]

/-- MICROCODE_LOAD (R235): of a collective or snapshot hart with no command in hand and nothing outstanding. Part 0 begins the
load for context c; part 1 writes the n-th 64 bytes of the image; part 2 starts the new routine at its entry point, in what is left of the
context's quantum. -/
def microcodeLoad (a : Args) (s : State) : State :=
  let x := s.hart a.d a.h
  if a.h < 16 ∨ 22 ≤ a.h then s
  else
    match a.m % 3 with
    | 0 => if x.state = 1 ∨ x.stopped.isSome ∨ !x.transit.isEmpty ∨ x.await.isSome then s else s.beginLoad a.d a.h a.c
    | 1 => if x.state = 3 then s.setHart a.d a.h { x with image := Tab.setList x.image 0 (64 * a.n) (bytesOfNat 64 a.pkt.toNat) } else s
    | _ =>
      match x.loading with
      | some c =>
        (s.setHart a.d a.h { x with state := 0, loading := none, loaded := some c, ctx := c, entry := a.val, cpu := { pc := a.val }, parts := Tab.del x.parts c }).add
          [{ ev := .engineQuantum, arg := { d := a.d, h := a.h } }]
      | none => s

/-- COPY_APPEND. -/
def execCopyAppend (s : State) : Host.Outcome State Fault Refusal := .next (copyAppend s.arg.d s.arg.req s)
/-- ENGINE_KICK. -/
def execEngineKick (s : State) : Host.Outcome State Fault Refusal := .next (engineKick s.arg s)
/-- COPY_PACKET_EXECUTE. -/
def execCopyPacketExecute (s : State) : Host.Outcome State Fault Refusal := .next (copyPacketExecute s.arg.d s.arg.h s)
/-- COPY_COMPLETION. -/
def execCopyCompletion (s : State) : Host.Outcome State Fault Refusal := .next (copyCompletion s.arg.d s.arg.h s)
/-- COMPLETION_RECORD_WRITE. -/
def execCompletionRecordWrite (s : State) : Host.Outcome State Fault Refusal := .next (completionRecordWrite s.arg.d s.arg.h s)
/-- ENGINE_HART_FAULT. -/
def execEngineHartFault (s : State) : Host.Outcome State Fault Refusal := .next (engineHartFault s.arg s)
/-- ENGINE_QUANTUM. -/
def execEngineQuantum (s : State) : Host.Outcome State Fault Refusal := .next (engineQuantum s.arg.d s.arg.h s.arg.flag s)
/-- MICROCODE_LOAD. -/
def execMicrocodeLoad (s : State) : Host.Outcome State Fault Refusal := .next (microcodeLoad s.arg s)

/-! ### The words -/

/-- COPY, COPYC and COPYM (R236): the packet at raw offset xp is read at issue and its kind set. -/
def copyWord (s : State) (g : Nat) (b : Bogie) (f : Frame) (d a : BitVec 5) (kind : Nat) : Except Stop BRes := do
  let q := (f.getX a).toNat
  let xp := (f.getX d).toNat
  if region q ≠ .glob then .error (.fault 0x09 q 0)
  if q % 64 ≠ 0 then .error (.fault 0x04 q 0)
  if xp % 64 ≠ 0 then .error (.fault 0x04 xp 0)
  let bound := f.hdr.scratch * 256
  if bound < xp + 64 then .error (.fault 0x05 xp (max xp bound))
  match ← b.translate f.ctx q with
  | none => .error (.fault 0x09 q 0)
  | some e =>
    if !e.rd ∨ e.cls = 4 then .error (.fault 0x09 q 0)
    if !e.w ∨ e.cls = 5 then .error (.fault 0x07 q 0)
    if scratchBusy s g b f false xp (xp + 64) then .error (.wait (ownAddr xp))
    scratchPoison b f (ownAddr xp) xp 64
    let p : Vec := BitVec.ofNat 512 (natOfBytes (Tab.range b.scratch 0 (f.sbase + xp) 64) / 256 * 256 + kind)
    let b' ← b.send [.copy q p]
    b'.go f

/-- COPY (R236). -/
def execCopy (d a : BitVec 5) (s : State) : Host.Outcome State Fault Refusal := taskWord (.copy d a) (fun s g b f => copyWord s g b f d a 1) s
/-- COPYC (R236). -/
def execCopyc (d a : BitVec 5) (s : State) : Host.Outcome State Fault Refusal := taskWord (.copyc d a) (fun s g b f => copyWord s g b f d a 2) s
/-- COPYM (R236). -/
def execCopym (d a : BitVec 5) (s : State) : Host.Outcome State Fault Refusal := taskWord (.copym d a) (fun s g b f => copyWord s g b f d a 3) s

/-- CWP (R237): the pointer that the witness latched with the activation's triggering message. -/
def execCwp (d : BitVec 5) (n : BitVec 2) (s : State) : Host.Outcome State Fault Refusal :=
  taskWord (.cwp d n) (fun _ _ b f => b.go (f.setX d ((b.cwp[n.toNat]?).getD 0))) s

/-- CRING (R238): its faults are those of LDA, with a header at a multiple of 64. -/
def execCring (d a : BitVec 5) (s : State) : Host.Outcome State Fault Refusal :=
  taskWord (.cring d a) (fun s g b f => do
    let va := (f.getX a).toNat
    let _ ← checkAccess s g b f .lda va 64
    b.awaiting g f { op := .cring va, dest := d, acquire := true } true) s

end Sys2Proof.Machine
end

