-- ==== Sys2Proof/Machine/Flags.lean ====
section
/-! DEFINITION. The conditions that a branch, a compare or an array sum forms. The Cuith keeps no status flags (R78, R152):
a condition goes to a branch, a scalar or mask register, or, for an INT32 clamp, to the sticky flag of its tile (R93). -/

namespace Sys2Proof.Machine

/-- The condition c of VCMP on two values of a format (R252). -/
def floatCond (c : BitVec 3) (a b : FV) : Bool :=
  let un := a.unordered b
  match c.toNat with
  | 0 => !un && !a.lt b && !b.lt a
  | 1 => un || a.lt b || b.lt a
  | 2 => !un && a.lt b
  | 3 => !un && !b.lt a
  | 4 => !un && b.lt a
  | 5 => !un && !a.lt b
  | 6 => !un
  | _ => un

/-- The condition c of VICMP on two integers (R256). -/
def intCond (c : BitVec 3) (a b : Int) : Bool :=
  match c.toNat with
  | 0 => a == b
  | 1 => a != b
  | 2 => decide (a < b)
  | 3 => decide (a ≤ b)
  | 4 => decide (b < a)
  | _ => decide (b ≤ a)

/-- An element of width w as an integer, signed or unsigned (R79). -/
def elemInt (u : Bool) (w n : Nat) : Int := if u then n else if n < 2 ^ (w - 1) then n else (n : Int) - 2 ^ w

/-- An integer as an element of width w, modulo 2^w (R79). -/
def elemOf (w : Nat) (n : Int) : Nat := (n % 2 ^ w).toNat

/-- A result of integer arithmetic: wrapped, or clamped with sat (R79). -/
def intResult (sat u : Bool) (w : Nat) (n : Int) : Nat :=
  elemOf w (if sat then clampInt (intMin u w) (intMax u w) n else n)

/-- The conditions of the compare-and-branch words, SLT and SLTN (R152, R157). -/
def ltSigned (a b : Word) : Bool := decide (a.toInt < b.toInt)

/-- See ltSigned. -/
def ltUnsigned (a b : Word) : Bool := decide (a.toNat < b.toNat)

end Sys2Proof.Machine
end

