-- ==== Sys2Proof/Machine/Matrix.lean ====
section
/-! DEFINITION. The matrix array (R266-R288): its words, the commands that it executes, leases and steps, scale files and passes. -/

namespace Sys2Proof.Machine

/-! ### B types (R278) -/

/-- The group size of a B type, 0 for one that is not grouped. -/
def groupSize (ty : Nat) : Nat :=
  match ty with
  | 4 | 8 => 32
  | 5 | 9 => 64
  | 6 | 10 => 128
  | _ => 0

/-- The values of k of one step (R274). -/
def stepSpan (ty : Nat) : Nat := if ty = 0 then 128 else 256

/-- The number of steps of n values of k. -/
def stepCount (ty n : Nat) : Nat := (n + stepSpan ty - 1) / stepSpan ty

/-- A pair of an A type and a B type that has no result (R281). -/
def badPair (aint : Bool) (ty : Nat) : Bool := (ty == 0 && aint) || (ty == 1 && !aint)

/-- Code k of a column whose bytes are given (R80, R278). -/
def codeAt (ty : Nat) (byte : Nat → Byte) (k : Nat) : Nat :=
  if ty = 0 then (byte (2 * k)).toNat + 256 * (byte (2 * k + 1)).toNat
  else if codeBits ty = 4 then (if k % 2 = 0 then (byte (k / 2)).toNat % 16 else (byte (k / 2)).toNat / 16)
  else (byte k).toNat

/-! ### Checks at issue (R279-R282) -/

/-- The first address of each row of n bytes and, where a row ends in another 64 KiB unit, the first address there. -/
def rowUnits (va n pitch count : Nat) : List Nat :=
  (List.range count).flatMap fun i =>
    let a := va + i * pitch
    if (a + n - 1) / 65536 = a / 65536 then [a] else [a, (a + n - 1) / 65536 * 65536]

/-- Translation of every global page that rows touch (R191 step 4). -/
def rowsTranslate (b : Bogie) (ctx : Nat) (l : List Nat) : Except Stop (List TlbEntry) :=
  l.mapM fun a => do
    if region a ≠ .glob then .error (.fault 0x09 a 0)
    match ← b.translate ctx a with
    | none => .error (.fault 0x09 a 0)
    | some e => if !e.rd ∨ e.cls = 4 then .error (.fault 0x09 a 0) else .ok e

/-- SCRATCH_BOUND for rows in window 0 of the frame: the first byte at or beyond its bound. -/
def rowsBound (h : Header) (va o n pitch count : Nat) : Except Stop Unit :=
  match (List.range count).find? fun i => decide (h.scratch * 256 < o + i * pitch + n) with
  | some i => .error (.fault 0x05 va (max (o + i * pitch) (h.scratch * 256)))
  | none => .ok ()

/-- The source checks of MXLDB and MXLDA (R279, R280), in the order of R191. -/
def sourceCheck (b : Bogie) (f : Frame) (va n pitch count : Nat) : Except Stop Unit := do
  let off : Option Nat ← match region va with
    | .glob => .ok none
    | .own 0 o => .ok (some o)
    | _ => .error (.fault 0x09 va 0)
  if va % 16 ≠ 0 ∨ pitch % 16 ≠ 0 then .error (.fault 0x04 va 0)
  match off with
  | some o => rowsBound f.hdr va o n pitch count
  | none => (rowsTranslate b f.ctx (rowUnits va n pitch count)).map fun _ => ()

/-- The tiles that a command reads, and those that it writes (R269). -/
def mxTilesRead (o : MxOp) : List Nat :=
  match o with
  | .mma t _ _ _ _ _ _ => [t]
  | .st t _ _ _ _ _ _ _ => [t]
  | _ => []
/-- See mxTilesRead. -/
def mxTilesWritten (o : MxOp) : List Nat :=
  match o with
  | .z t _ => [t]
  | .lda t _ _ _ => [t]
  | .mma t _ _ _ _ _ _ => [t]
  | .pass _ ts => ts
  | _ => []

/-- Two lists of ranges have a byte in common. -/
def meet (l m : List (Nat × Nat)) : Bool := l.any fun r => m.any fun q => decide (r.1 < q.2) && decide (q.1 < r.2)

/-- A command waits for one that its bogie committed in an earlier activation: one that writes bytes or tiles that it reads or writes, or
that reads those that it writes (R269). -/
def matrixBusy (s : State) (g : Nat) (b : Bogie) (f : Frame) (o : MxOp) : Bool :=
  (mxPending s g b f.uid).any fun c =>
    meet (mxWrites c.op) (mxReads o ++ mxWrites o) || meet (mxReads c.op) (mxWrites o) ||
      (mxTilesWritten c.op).any (fun t => (mxTilesRead o ++ mxTilesWritten o).contains t) ||
      (mxTilesRead c.op).any fun t => (mxTilesWritten o).contains t

/-- The coach's tile that a frame names (R270). -/
def Frame.tile (f : Frame) (t : BitVec 5) : Nat := (f.tiles[t.toNat]?).getD 0

/-- A matrix command put into the outbox, with its level as it stands (R266, R267), once no earlier command stands in its way (R269). -/
def sendMatrix (s : State) (g : Nat) (b : Bogie) (f : Frame) (o : MxOp) : Except Stop Bogie :=
  if matrixBusy s g b f o then .error (.wait (ownAddr 0))
  else b.send [.matrix { ctx := f.ctx, g := g, level := f.prio, uid := f.uid, record := f.record, op := o }]

/-- MXLDB (R279). -/
def execMxldb (v_s a c : BitVec 5) (k y : BitVec 4) (s : State) : Host.Outcome State Fault Refusal :=
  taskWord (.mxldb v_s a c k y) (fun s g b f => do
    let ctl := f.getX c
    let n := 32 * (k.toNat + 1)
    if bits ctl 31 23 ≠ 0 ∨ bits ctl 15 10 ≠ 0 then .error (.fault 0x02 0 (b.wordNow (.mxldb v_s a c k y)).toNat)
    sourceCheck b f (f.getX a).toNat (columnBytes y.toNat n) (ldbPitch y.toNat n ctl) (bits ctl 22 16 + 1)
    let b' ← sendMatrix s g b f (.ldb v_s.toNat y.toNat n (f.getX a) ctl)
    b'.go f) s

/-- MXZ (R280). -/
def execMxz (t : BitVec 5) (y : BitVec 1) (s : State) : Host.Outcome State Fault Refusal :=
  taskWord (.mxz t y) (fun s g b f => do
    let b' ← sendMatrix s g b f (.z (f.tile t) (y == 1))
    b'.go f) s

/-- MXLDA (R280). -/
def execMxlda (t a c : BitVec 5) (y : BitVec 1) (s : State) : Host.Outcome State Fault Refusal :=
  taskWord (.mxlda t a c y) (fun s g b f => do
    let ctl := f.getX c
    if bits ctl 40 0 ≠ 0 then .error (.fault 0x02 0 (b.wordNow (.mxlda t a c y)).toNat)
    sourceCheck b f (f.getX a).toNat 512 (ldaPitch ctl) (bits ctl 47 41 + 1)
    let b' ← sendMatrix s g b f (.lda (f.tile t) (f.getX a) ctl (y == 1))
    b'.go f) s

/-- A window that delivers A's type (R281). -/
def mmaWindow (aint : Bool) (w : Nat) : Bool :=
  w == 0 || (if aint then decide (7 ≤ w) && decide (w ≤ 9) else (decide (1 ≤ w) && decide (w ≤ 6)) || w == 10)

/-- MMA (R281). -/
def execMma (t a v_s : BitVec 5) (p : BitVec 6) (v_i : BitVec 1) (k : BitVec 4) (s : State) : Host.Outcome State Fault Refusal :=
  taskWord (.mma t a v_s p v_i k) (fun s g b f => do
    let va := (f.getX a).toNat
    let aint := v_i == 1
    let n := 32 * (k.toNat + 1)
    let stride := 64 * p.toNat
    let row := if aint then n else 2 * n
    match region va with
    | .own w o =>
      if !mmaWindow aint w then .error (.fault 0x02 0 (b.wordNow (.mma t a v_s p v_i k)).toNat)
      if o % 64 ≠ 0 ∨ 0x10000 < o + 127 * stride + row then .error (.fault 0x04 va 0)
      match (List.range 128).findSome? fun i => rawBeyond w (o + i * stride) row (f.hdr.scratch * 256) with
      | some r => .error (.fault 0x05 va r)
      | none =>
        let b' ← sendMatrix s g b f (.mma (f.tile t) (f.getX a) v_s.toNat stride n aint f.scaleA)
        b'.go f
    | _ => .error (.fault 0x09 va 0)) s

/-- The destination checks of MXST (R282), in the order of R191. -/
def destCheck (b : Bogie) (f : Frame) (va n pitch count : Nat) (epi : Option Nat) : Except Stop Unit := do
  let off : Option Nat ← match region va with
    | .glob => .ok none
    | .own w o => if w = 0 then .ok (some o) else .error (.fault 0x06 va 0)
    | _ => .error (.fault 0x09 va 0)
  if va % 16 ≠ 0 ∨ pitch % 16 ≠ 0 then .error (.fault 0x04 va 0)
  match off with
  | some o => rowsBound f.hdr va o n pitch count
  | none => .ok ()
  match epi with
  | some e => rowsBound f.hdr va e 516 0 1
  | none => .ok ()
  match off with
  | some _ => .ok ()
  | none =>
    let units := rowUnits va n pitch count
    let l ← rowsTranslate b f.ctx units
    match (units.zip l).find? fun e => !e.2.w || e.2.cls == 5 with
    | some e => .error (.fault 0x07 e.1 0)
    | none => .ok ()

/-- MXST (R282). -/
def execMxst (t a c : BitVec 5) (bk : BitVec 4) (e : BitVec 1) (o : BitVec 3) (gs : BitVec 2) (s : State) :
    Host.Outcome State Fault Refusal :=
  taskWord (.mxst t a c bk e o gs) (fun s g b f => do
    let ctl := f.getX c
    let w := stWidth ctl
    if bits ctl 15 0 ≠ 0 ∨ (5 ≤ o.toNat ∧ w % (32 * 2 ^ gs.toNat) ≠ 0) then
      .error (.fault 0x02 0 (b.wordNow (.mxst t a c bk e o gs)).toNat)
    destCheck b f (f.getX a).toNat (outBytes o.toNat w) (stPitch o.toNat ctl) (bits ctl 47 41 + 1)
      (if bit ctl 37 then some (bits ctl 36 26 * 64) else none)
    let b' ← sendMatrix s g b f (.st (f.tile t) (f.getX a) ctl (if e = 1 then some bk.toNat else none) o.toNat gs.toNat
      (modRound f.cpu.pfx.mod) (modSat f.cpu.pfx.mod))
    b'.go f) s

/-- SCMC (R283): the records are read at issue. -/
def execScmc (e v_s m : BitVec 5) (n : BitVec 4) (s : State) : Host.Outcome State Fault Refusal :=
  taskWord (.scmc e v_s m n) (fun s g b f => do
    let va := (f.getX v_s).toNat
    let mask : BitVec 8 := (f.getX m).setWidth 8
    let len := 4 * (n.toNat + 1)
    if g % 8 ≠ 7 ∨ !(s.ctx f.ctx).serves (coachOf g) ∨ mask = 0 then .error (.fault 0x02 0 (b.wordNow (.scmc e v_s m n)).toNat)
    match region va with
    | .own 0 o =>
      if va % 4 ≠ 0 then .error (.fault 0x04 va 0)
      boundCheck f.hdr va len
      if scratchBusy s g b f false o (o + len) then .error (.wait va)
      scratchPoison b f va o len
      let recs := (List.range (n.toNat + 1)).map fun i =>
        BitVec.ofNat 32 (natOfBytes ((List.range 4).map fun j => rawByte b f (o + 4 * i + j)))
      let b' ← b.send [.scale (bits (f.getX e) 9 0) recs mask]
      b'.go f
    | _ => .error (.fault 0x09 va 0)) s

/-! ### MXPASS (R284, R285) -/

/-- The fields of a pass descriptor (R284). -/
def passK (d : Vec) : Nat := bits d 143 128 * 32
/-- See passK. -/
def passType (d : Vec) : Nat := bits d 15 12
/-- See passK. -/
def passInt (d : Vec) : Bool := bit d 16
/-- See passK. -/
def passOut (d : Vec) : Nat := bits d 19 17
/-- See passK. -/
def passRows (d : Vec) : Nat := bits d 31 25 + 1
/-- See passK. -/
def passTiles (d : Vec) : Nat := bits d 24 22 + 1

/-- Check 2 of R285: the version, reserved fields and codes, the pair, the group and the type of the result. A kc of 0 is outside
the field's range. -/
def badPass (d : Vec) : Bool :=
  bits d 7 0 != 1 || bits d 11 8 != 0 || bits d 21 20 != 0 || bits d 127 32 != 0 || decide (4 < passOut d) ||
    !isBType (BitVec.ofNat 4 (passType d)) || passK d == 0 || badPair (passInt d) (passType d) ||
    (groupSize (passType d) != 0 && passK d % groupSize (passType d) != 0) ||
    (passType d == 1 && passOut d != 3 && passOut d != 4)

/-- The first operand of a descriptor that is misaligned (check 4 of R285). -/
def passMisaligned (d : Vec) : Option Nat :=
  [(bits d 255 192, 16), (bits d 319 256, 16), (bits d 383 320, 16), (bits d 447 384, 4), (bits d 511 448, 64)].findSome? fun e =>
    if e.1 % e.2 = 0 then none else some e.1

/-- MXPASS (R285). -/
def execMxpass (p : BitVec 5) (n : BitVec 1) (s : State) : Host.Outcome State Fault Refusal :=
  taskWord (.mxpass p n) (fun s g b f => do
    let xp := (f.getX p).toNat
    let bound := f.hdr.scratch * 256
    if xp % 64 ≠ 0 then .error (.fault 0x04 xp 0)
    if bound < xp + 64 then .error (.fault 0x05 xp (max xp bound))
    if scratchBusy s g b f false xp (xp + 64) then .error (.wait (ownAddr xp))
    scratchPoison b f (ownAddr xp) xp 64
    let d : Vec := BitVec.ofNat 512 (natOfBytes (Tab.range b.scratch 0 (f.sbase + xp) 64))
    if badPass d then .error (.fault 0x02 0 (b.wordNow (.mxpass p n)).toNat)
    if f.hdr.acc < passTiles d then .error (.fault 0x0C 0 f.hdr.acc)
    match passMisaligned d with
    | some a => .error (.fault 0x04 a 0)
    | none =>
      let pass : MxOp := .pass d (f.tiles.take (passTiles d))
      if matrixBusy s g b f pass then .error (.wait (ownAddr 0))
      let cmd : Op := .matrix { ctx := f.ctx, g := g, level := f.prio, uid := f.uid, record := f.record, op := pass }
      let b' ← b.send (cmd :: (if n = 1 then nodeReport f else []))
      b'.commit g { f with claims := [] } .ended) s

/-- MXQ.t (R287). -/
def execMxqT (d t : BitVec 5) (s : State) : Host.Outcome State Fault Refusal :=
  taskWord (.mxqT d t) (fun _ g b f => b.awaiting g f { op := .mxqTile (f.tile t), dest := d } false) s

/-- MXQ.s (R287). -/
def execMxqS (d a : BitVec 5) (s : State) : Host.Outcome State Fault Refusal :=
  taskWord (.mxqS d a) (fun _ g b f =>
    let x := f.getX a
    if bit x 3 ∨ bits x 63 8 ≠ 0 then .error (.fault 0x02 0 (b.wordNow (.mxqS d a)).toNat)
    else b.awaiting g f { op := .mxqSlot (bits x 2 0 + 16 * bits x 7 4), dest := d } false) s

/-! ### What the array reads -/

/-- Bytes that a command reads, each with whether it was poisoned; or a wait for the page at an address, at the home that must first
repair it, if one must; or a failure with its cause and address. -/
inductive Streamed where
  | got (l : List (Byte × Bool))
  | wait (die : Option Nat) (va : Nat)
  | fail (cause va : Nat)

/-- n bytes of global memory from an address, line by line, as the array of a coach of die die, or firmware, reads them (R268): not of a device
page. -/
def State.streamRead (s : State) (die ctx va n fuel : Nat) : Streamed :=
  match fuel with
  | 0 => .got []
  | k + 1 =>
    if n = 0 then .got []
    else if region va = .glob ∧ (s.leaf ctx va).any (fun l => l.cls == 4) then .fail 0x09 va
    else
      match s.copyRead die ctx va n with
      | .bytes l p =>
        match s.streamRead die ctx (va + l.length) (n - l.length) k with
        | .got r => .got (l.map (fun b => (b, p)) ++ r)
        | x => x
      | .wait d => .wait d va
      | .remote _ => .fail 0x09 va
      | .fail c => .fail c va

/-- n raw bytes of a frame, from its primary core's copy (R269); what no frame holds is poison. -/
def State.frameRead (s : State) (g uid o n : Nat) : List (Byte × Bool) :=
  let b := s.bogie g
  match b.frameFor (.frame uid) true with
  | some f => (List.range n).map fun i => (rawByte b f (o + i), b.spoison.contains ((f.sbase + o + i) / 32))
  | none => List.replicate n (0, true)

/-- The source bytes of one row or column of a command. -/
def State.mxRead (s : State) (c : MxCmd) (va n : Nat) : Streamed :=
  match region va with
  | .own _ o => .got (s.frameRead c.g c.uid o n)
  | _ => s.streamRead (dieOf c.g) c.ctx va n (n / 64 + 2)

/-- The lines of rows that the array has read from global memory noted where they were read (R345, R353). -/
def State.noteRows (s : State) (ctx : Nat) (rows : List (Nat × Nat)) : State :=
  rows.foldl (fun s r => if region r.1 = .glob then
    (List.range ((r.1 % 64 + r.2 + 63) / 64)).foldl (fun s i => s.noteRead ctx (r.1 / 64 * 64 + 64 * i)) s else s) s

/-- Rows read one after the other; a row that cannot be read is poison throughout. -/
def State.mxRows (s : State) (c : MxCmd) (va n pitch count : Nat) : Except (Option Nat × Nat) (List (List (Byte × Bool))) :=
  (List.range count).mapM fun i =>
    match s.mxRead c (va + i * pitch) n with
    | .got l => .ok l
    | .wait d a => .error (d, a)
    | .fail _ _ => .ok (List.replicate n (0, true))

/-- The rows of the source of an MXLDB or MXLDA. -/
def State.sourceRows (s : State) (c : MxCmd) : Except (Option Nat × Nat) (List (List (Byte × Bool))) :=
  match c.op with
  | .ldb _ ty k src ctl => s.mxRows c src.toNat (columnBytes ty k) (ldbPitch ty k ctl) (bits ctl 22 16 + 1)
  | .lda _ src ctl _ => s.mxRows c src.toNat 512 (ldaPitch ctl) (bits ctl 47 41 + 1)
  | _ => .ok []

/-- The first byte and length of each row of the source of an MXLDB or MXLDA. -/
def mxSources (c : MxCmd) : List (Nat × Nat) :=
  match c.op with
  | .ldb _ ty k src ctl => (List.range (bits ctl 22 16 + 1)).map fun i => (src.toNat + i * ldbPitch ty k ctl, columnBytes ty k)
  | .lda _ src ctl _ => (List.range (bits ctl 47 41 + 1)).map fun i => (src.toNat + i * ldaPitch ctl, 512)
  | _ => []

/-- A page that an MXST is to write is Restricting, and its walk waits (R355). -/
def State.stWaits (s : State) (c : MxCmd) : Bool :=
  match c.op with
  | .st _ dst ctl _ out _ _ _ =>
    region dst.toNat == .glob && (rowUnits dst.toNat (outBytes out (stWidth ctl)) (stPitch out ctl) (bits ctl 47 41 + 1)).any (s.restricting c.ctx)
  | _ => false

/-! ### Sums (R91-R93, R281) -/

/-- The operands of a sum: A's encodings by row and k, B's codes by k and column, and the parameter record of a column and group. -/
structure MxIn where
  ty   : Nat
  aint : Bool
  a    : Nat → Nat → Nat
  b    : Nat → Nat → Nat
  rec' : Nat → Nat → BitVec 32

/-- An INT8 code as an integer. -/
def int8 (n : Nat) : Int := (BitVec.ofNat 8 n).toInt

/-- The unit of summation: a chunk of 32, or a group (R91-R93). -/
def MxIn.unit (m : MxIn) : Nat := if groupSize m.ty = 0 then 32 else groupSize m.ty

/-- One unit from k0 added to element (i, j), and whether an INT32 total was clamped. -/
def MxIn.add (m : MxIn) (acc : BitVec 32) (i j k0 : Nat) : BitVec 32 × Bool :=
  let ks := (List.range m.unit).map (k0 + ·)
  if m.ty = 0 then (chunkBf16 acc (ks.map fun k => (bf16.unpack (m.a i k), bf16.unpack (m.b k j))), false)
  else if m.ty = 1 then chunkInt8 acc (ks.map fun k => (int8 (m.a i k), int8 (m.b k j)))
  else
    let r := m.rec' j (k0 / m.unit)
    let q := fun (k : Nat) => ((m.b k j : Nat) : Int) - ((recZero r : Nat) : Int)
    if m.aint then
      let sum := ks.foldl (fun (c : Int) k => c + int8 (m.a i k) * q k) 0
      (accAdd acc (fp32.round .rne false (FV.mul (FV.ofInt sum) (fp16.unpack (recScale r)))), false)
    else (chunkGrouped acc (recScale r) (ks.map fun k => (bf16.unpack (m.a i k), FV.ofInt (q k))), false)

/-- Element (i, j) with the n values of k from k0 added, unit by unit. -/
def MxIn.sum (m : MxIn) (acc : BitVec 32) (i j k0 n : Nat) : BitVec 32 × Bool :=
  (List.range (n / m.unit)).foldl (fun (r : BitVec 32 × Bool) c =>
    let x := m.add r.1 i j (k0 + c * m.unit)
    (x.1, r.2 || x.2)) (acc, false)

/-- A tile with the n values of k from k0 added to every element. -/
def Tile.accumulate (t : Tile) (m : MxIn) (k0 n : Nat) : Tile :=
  let l := (List.range 16384).map fun e => (e, m.sum (Tab.get t.data 0 e) (e / 128) (e % 128) k0 n)
  { t with data := l.filterMap fun e => if e.2.1 = 0 then none else some (e.1, e.2.1), sat := t.sat || l.any fun e => e.2.2 }

/-! ### Conversion (R282) -/

/-- An element stored by MXST as its code: v times the scale plus the bias, converted to the out type. A q4 code whose record's z does
not fit four bits, where z itself is to be stored, has no stated value and is free: own (log 29). -/
def mxCode (out : Nat) (dir : Dir) (sat : Bool) (r : BitVec 32) (own : Nat) (v : FV) : Nat :=
  match out with
  | 0 => fp32.round dir sat v
  | 1 => bf16.round dir sat v
  | 2 => fp16.round dir sat v
  | 3 => elemOf 8 (v.toIntSat dir false 8)
  | 4 => elemOf 32 (v.toIntSat dir false 32)
  | _ =>
    let top : Int := if out = 5 then 15 else 255
    let z := recZero r
    let own := if top < z then own % 16 else z
    match v, fp16.unpack (recScale r) with
    | .nan, _ => own
    | _, .nan => own
    | _, .inf _ => own
    | v, .fin s m e =>
      if m = 0 then own
      else
        match (FV.div v (.fin s m e)).toInt dir with
        | some (.ok n) => (clampInt 0 top (n + z)).toNat
        | some (.error neg) => if neg then 0 else top.toNat
        | none => own

/-- Codes of an out type as bytes; q4 codes two to a byte, the low nibble first (R80). -/
def packCodes (out : Nat) (l : List Nat) : List Byte :=
  match out with
  | 5 => (List.range (l.length / 2)).map fun i => BitVec.ofNat 8 ((l[2 * i]?).getD 0 + 16 * (l[2 * i + 1]?).getD 0)
  | 0 | 4 => l.flatMap (bytesOfNat 4)
  | 1 | 2 => l.flatMap (bytesOfNat 2)
  | _ => l.flatMap (bytesOfNat 1)

/-- An element of a tile as a value. -/
def Tile.value (t : Tile) (i j : Nat) : FV :=
  let e := Tab.get t.data 0 (i * 128 + j)
  if t.i32 then FV.ofInt e.toInt else fp32.unpack e.toNat

/-! ### The state of an array -/

/-- The number of a (bogie, level) pair of a coach. -/
def mxKey (c : MxCmd) : Nat := c.g % 8 * 16 + c.level

/-- Tile t of a coach replaced. -/
def State.putTile (s : State) (k t : Nat) (x : Tile) : State := s.setCoach k { s.coach k with tiles := Tab.put (s.coach k).tiles t x }

/-- A step of the array is under way. -/
def State.stepping (s : State) (k : Nat) : Bool :=
  s.agenda.any fun h => (h.ev == .mmaStep || h.ev == .passExecute) && h.arg.h == k

/-- A command reads global memory (R268). -/
def mxGlobal (o : MxOp) : Bool :=
  match o with
  | .ldb _ _ _ src _ | .lda _ src _ _ => region src.toNat == .glob
  | .pass _ _ => true
  | _ => false

/-- A command stores to global memory (R268). -/
def mxStoresGlobal (o : MxOp) : Bool :=
  match o with
  | .st _ dst _ _ _ _ _ _ => region dst.toNat == .glob
  | .pass _ _ => true
  | _ => false

/-- Every access that precedes a command in its task is performed (R268). -/
def State.mxOrdered (s : State) (k : Nat) (c : MxCmd) : Bool :=
  !mxGlobal c.op || (!((s.bogie c.g).transit.any fun t => t.uid == c.uid && decide (t.id < c.id) && !isMatrix t.op) &&
    !(s.coach k).jobs.any fun (j : MxJob) => mxStoresGlobal j.cmd.op && j.cmd.uid == c.uid && decide (j.cmd.id < c.id))

/-- A slot is read by a command held in a shadow context (R275). -/
def Coach.slotHeld (x : Coach) (slot : Nat) : Bool :=
  x.shadow.any fun e => match e.2.cmd.op with
    | .mma _ _ w _ _ _ _ => w == slot
    | _ => false

/-- A FIFO's head is blocked: an MXLDB of such a slot (R275). -/
def Coach.blocks (x : Coach) (c : MxCmd) : Bool :=
  match c.op with
  | .ldb slot _ _ _ _ => x.slotHeld slot
  | _ => false

/-- A pair can start or continue (R267, R273): its shadow context holds a command, or its FIFO's head can start. -/
def State.pairCan (s : State) (k key : Nat) : Bool :=
  let x := s.coach k
  match Tab.find x.shadow key, Tab.get x.fifos [] key with
  | some _, _ => true
  | none, [] => false
  | none, c :: _ =>
    !x.blocks c && s.mxOrdered k c && !s.stWaits c && !(x.jobs.any fun (j : MxJob) => (mxKey j.cmd) == key && (match j.cmd.op with
      | .pass _ _ => true
      | _ => false)) &&
      match s.sourceRows c with
      | .ok _ => true
      | .error _ => false

/-- The ready level (R273). -/
def State.readyLevel (s : State) (k : Nat) : Option Nat :=
  ((List.range 16).map (15 - ·)).find? fun l => (List.range 8).any fun b => s.pairCan k (b * 16 + l)

/-- A lease that has run out: 16 commands, or 2,048 clocks (R273). -/
def Lease.over (l : Lease) (clock : Nat) : Bool := decide (16 ≤ l.done) || decide (l.start + 2048 ≤ clock)

/-- The bogie that holds the array next at a level, and whether its lease is new (R273). Where the ready level has fallen the scan begins at
bogie 0, as where it has risen: DESIGN CHOICE (log 150). -/
def State.holder (s : State) (k level : Nat) : Option (Nat × Bool) :=
  let can := fun b => s.pairCan k (b * 16 + level)
  match (s.coach k).lease with
  | some l =>
    if l.level = level then
      if !l.over s.clock && can l.bogie then some (l.bogie, false)
      else (((List.range 8).map fun i => (l.bogie + 1 + i) % 8).find? can).map fun b => (b, true)
    else ((List.range 8).find? can).map fun b => (b, true)
  | none => ((List.range 8).find? can).map fun b => (b, true)

/-- A coach's arbitration is to run again. -/
def State.arbitrate (s : State) (k : Nat) : State := s.add [{ ev := .arrayCommandExecute, arg := { h := k } }]

/-- A command has left the array: the lease counts it, what waited for it goes on, and arbitration runs again (R269, R272, R273). -/
def State.mxDone (s : State) (k : Nat) (c : MxCmd) : State :=
  let x := s.coach k
  let s := s.setCoach k { x with lease := x.lease.map fun l => { l with done := l.done + 1 } }
  let s := match x.lease with
    | some l => if l.done + 1 = 16 then s.add [{ ev := .leaseEnd, arg := { h := k } }] else s
    | none => s
  let s := (s.setBogie c.g (s.bogie c.g).wake).pump (.bogie c.g)
  let s := if (s.bogie c.g).held.any fun e => isScale e.2 then s.add [{ ev := .scaleFileApply, arg := { g := c.g } }] else s
  s.arbitrate k

/-- A command is complete, its global stores among it: its frame is no longer owed it (R123). -/
def State.mxComplete (s : State) (c : MxCmd) : State :=
  let s := if inFrame c.op then s.setBogie c.g ((s.bogie c.g).pay c.uid) else s
  (s.checkDrain c.g c.uid).pump (.bogie c.g)

/-! ### The array's own stores and arrivals -/

/-- A line stored by the array (R268), poison where the tile is (R277): the request's number. -/
def State.arrayStore (s : State) (k ctx : Nat) (bytes : Tab Byte) (poison : Bool) : State × List Nat :=
  let va := (bytes.head?.map (·.1)).getD 0
  let (id, s) := s.newId
  let q : Req := { id := id, src := .array (k / 24) k, ctx := ctx, op := .store bytes false false (if poison then some .poison else none) }
  match s.leaf ctx va with
  | none => (s.lost (k / 24) q, [id])
  | some l =>
    (if l.cls = 3 then s.toHead (k / 24) (epArray k) q l
      else s.post (k / 24) (epArray k) (l.home va) ctx va (writeSlots bytes) .homeStore { d := l.home va, req := q }, [id])

/-- Something held at the bogie of a command's frame. -/
def State.mxDeliver (s : State) (k : Nat) (c : MxCmd) (l : List Held) : State :=
  s.post (k / 24) (epArray k) (k / 24) c.ctx 0 5 .heldWriteArrival { g := c.g, held := l }

/-- The rows of bytes that an MXST stores, and whether what it reads is poison (R277, R282). -/
def State.stRows (s : State) (c : MxCmd) (t : Tile) (ctl : Word) (out gs : Nat) (round : BitVec 3) (sat : Bool) : List (List Byte) × Bool :=
  let w := stWidth ctl
  let d := dirOf round
  let e := if bit ctl 37 then s.frameRead c.g c.uid (bits ctl 36 26 * 64) 516 else []
  let word := fun (i : Nat) => natOfBytes (((e.drop (4 * i)).take 4).map (·.1))
  let scale : FV := if bit ctl 37 then fp32.unpack (word 128) else .fin false 1 0
  let bias := fun (j : Nat) => if bit ctl 37 then fp32.unpack (word j) else .fin false 0 0
  let file := (s.bogie c.g).scale
  let n := 32 * 2 ^ gs
  ((List.range (bits ctl 47 41 + 1)).map fun i =>
    packCodes out ((List.range w).map fun j =>
      let r := Tab.get file 0 ((bits ctl 25 16 + i * (w / n) + j / n) % 1024)
      mxCode out d sat r (Config.zCode (r &&& 0xFFFFFF) (Tab.get t.data 0 (i * 128 + j)).toNat (if bit ctl 37 then word 128 else 0) (if bit ctl 37 then word j else 0))
        (FV.add d ((t.value i j).mul scale) (bias j))),
   t.poison || e.any (·.2))

/-- Rows of bytes by the lines of 64 bytes that they touch, each line once; where rows meet, the later stands (R282, R298). -/
def rowLines (rows : List (Tab Byte)) : List (Tab Byte) :=
  let parts := rows.flatMap blocks
  let key := fun (t : Tab Byte) => (t.head?.map (·.1)).getD 0 / 64
  ((parts.map key).eraseDups).map fun k =>
    (parts.filter fun t => key t == k).foldl (fun (u : Tab Byte) t => t.foldl (fun (u : Tab Byte) e => Tab.put u e.1 e.2) u) []

/-- What an MXST has stored or sent is to be performed before it is complete (R123, R282, R288). -/
def State.addJob (s : State) (k : Nat) (j : MxJob) : State := s.setCoach k { s.coach k with jobs := (s.coach k).jobs ++ [j] }

/-- MXST as the array executes it (R282); it is complete once its stores are performed, or the last of its deliveries is applied. -/
def State.mxStore (s : State) (k : Nat) (c : MxCmd) (tile : Nat) (dst ctl : Word) (bar : Option Nat) (out gs : Nat) (round : BitVec 3)
    (sat : Bool) : State :=
  let r := s.stRows c (Tab.get (s.coach k).tiles {} tile) ctl out gs round sat
  let pitch := stPitch out ctl
  let rows := (List.range r.1.length).zip r.1
  let src : Src := .array (k / 24) k
  match region dst.toNat with
  | .own _ o =>
    let (id, s) := s.newId
    let parts := if r.2 then (match bar with
        | some _ => [(0, [])]
        | none => [])
      else rows.flatMap fun e => (blocks (placed (o + e.1 * pitch) e.2)).map fun t => ((t.head?.map (·.1)).getD 0, t.map (·.2))
    let held := ((List.range parts.length).zip parts).map fun (e : Nat × Nat × List Byte) =>
      let last := decide (e.1 + 1 = parts.length)
      Held.deliver (if last then id else 0) src (.frame c.uid) e.2.1 e.2.2 (bar.map fun i =>
        (i, if r.2 then { code := 0x10 } else { bytes := e.2.2.length, arr := if last then 1 else 0 }))
    if held.isEmpty then s.mxComplete c else (s.addJob k { cmd := c, owed := [id] }).mxDeliver k c held
  | _ =>
    let x := (rowLines (rows.map fun e => placed (dst.toNat + e.1 * pitch) e.2)).foldl (fun (x : State × List Nat) t =>
      let y := x.1.arrayStore k c.ctx t r.2
      (y.1, x.2 ++ y.2)) (s, [])
    x.1.addJob k { cmd := c, owed := x.2, bytes := (r.1.map List.length).sum }

/-! ### MMA (R276, R281) -/

/-- The cause of R276 for an MMA, tested in the order of its table. -/
def mmaError (w : Slot) (t : Tile) (k : Nat) (aint : Bool) : Option Nat :=
  if !w.loaded then some 1
  else if badPair aint w.type then some 2
  else if w.k < k then some 3
  else if groupSize w.type ≠ 0 ∧ k % groupSize w.type ≠ 0 then some 4
  else if t.i32 != (w.type == 1) then some 5
  else none

/-- A command that cannot be executed poisons its tile and raises ILLEGAL_OPERAND (R276). -/
def State.mxError (s : State) (k : Nat) (c : MxCmd) (tile cause : Nat) : State :=
  (s.putTile k tile { Tab.get (s.coach k).tiles {} tile with poison := true }).add
    [{ ev := .raiseEvent
       arg := { d := k / 24, c := c.ctx, info := { code := 0x02, addr := BitVec.ofNat 64 (c.level * 2 ^ 12 + c.g), extra := BitVec.ofNat 64 cause, record := c.record } } }]

/-- Element (i, k) of A for an MMA: a raw element of window 0, or what the window decodes (R169, R281). -/
def mmaElem (b : Bogie) (f : Frame) (base : BitVec 10) (w o stride es i k : Nat) : Nat :=
  let off := o + i * stride + k * es
  if w = 0 then natOfBytes ((List.range es).map fun j => rawByte b f (off + j)) else windowDecode b f base w (off / es)

/-- The bytes of a slot's column (R271). -/
def Slot.column (w : Slot) (j i : Nat) : Byte := Tab.get w.data 0 (j * columnBytes w.type w.k + i)

/-- A fragment that holds one of the codes k0 to k0 + n - 1 of some column is poisoned (R277). -/
def Slot.poisonIn (w : Slot) (k0 n : Nat) : Bool :=
  let cb := columnBytes w.type w.k
  !w.poison.isEmpty && (List.range 128).any fun j =>
    let lo := (j * cb + k0 * codeBits w.type / 8) / 64
    let hi := (j * cb + ((k0 + n) * codeBits w.type + 7) / 8 - 1) / 64
    w.poison.any fun p => decide (lo ≤ p) && decide (p ≤ hi)

/-- One step of an MMA on its tile (R274, R281); bytes that a copy brought are used by it (R189). -/
def State.mmaWork (s : State) (k : Nat) (c : MxCmd) (tile : Nat) (src : Word) (slot stride kk : Nat) (aint : Bool) (base : BitVec 10)
    (step : Nat) : State :=
  let w := Tab.get (s.coach k).slots {} slot
  let t := Tab.get (s.coach k).tiles {} tile
  let b := s.bogie c.g
  match b.frameFor (.frame c.uid) true, region src.toNat with
  | some f, .own win o =>
    let k0 := step * stepSpan w.type
    let n := min (stepSpan w.type) (kk - k0)
    let es := if aint then 1 else 2
    let m : MxIn := { ty := w.type, aint := aint, a := mmaElem b f base win o stride es, b := fun q j => codeAt w.type (w.column j) q, rec' := fun j g => Tab.get b.scale 0 ((w.base + j * (w.k / groupSize w.type) + g) % 1024) }
    let bad := w.poisonIn k0 n || (!b.spoison.isEmpty && (List.range 128).any fun i =>
      let r := rawSpan win (o + i * stride + k0 * es) (n * es)
      (sectorsOf (f.sbase + r.1) (r.2 - r.1)).any fun q => b.spoison.contains q)
    let used := (List.range 128).foldl (fun (b : Bogie) i =>
      let r := rawSpan win (o + i * stride + k0 * es) (n * es)
      b.useFresh (f.sbase + r.1) (r.2 - r.1)) b
    (s.setBogie c.g used).putTile k tile { t.accumulate m k0 n with poison := t.poison || bad }
  | _, _ => s.putTile k tile { t with poison := true }

/-- The number of steps of a command (R274). What R274 calls the load steps of an MXPASS is one step here, that sets its tiles to zero:
DESIGN CHOICE (log 151). -/
def State.mxTotal (s : State) (k : Nat) (c : MxCmd) : Nat :=
  match c.op with
  | .mma _ _ slot _ n _ _ => stepCount (Tab.get (s.coach k).slots {} slot).type n
  | .pass d tiles => 1 + stepCount (passType d) (passK d) * tiles.length + tiles.length
  | _ => 1

/-! ### Commands as the array executes them -/

/-- MXLDB as the array executes it (R277, R279). -/
def State.mxLoadB (s : State) (k slot ty kk : Nat) (ctl : Word) (rows : List (List (Byte × Bool))) : State :=
  let cb := columnBytes ty kk
  let bytes := ((List.range rows.length).zip rows).flatMap fun e => ((List.range cb).zip e.2).map fun x => (e.1 * cb + x.1, x.2)
  let w : Slot := { loaded := true, type := ty, k := kk, base := bits ctl 9 0, data := bytes.filterMap fun (e : Nat × Byte × Bool) => if e.2.1 = 0 then none else some (e.1, e.2.1), poison := ((bytes.filter fun (e : Nat × Byte × Bool) => e.2.2).map fun (e : Nat × Byte × Bool) => e.1 / 64).eraseDups }
  s.setCoach k { s.coach k with slots := Tab.put (s.coach k).slots slot w }

/-- MXLDA as the array executes it (R277, R280). -/
def State.mxLoadA (s : State) (k tile : Nat) (i32 : Bool) (rows : List (List (Byte × Bool))) : State :=
  let words := ((List.range rows.length).zip rows).flatMap fun e => (List.range 128).map fun j =>
    (e.1 * 128 + j, BitVec.ofNat 32 (natOfBytes (((e.2.drop (4 * j)).take 4).map (·.1))))
  s.putTile k tile { data := words.filter fun e => e.2 != 0, i32 := i32, poison := rows.any fun r => r.any (·.2) }

/-- A command taken from the head of its FIFO: executed where it is one step, else put in its shadow context (R266, R274). -/
def State.mxBegin (s : State) (k : Nat) (c : MxCmd) : State :=
  let hold := fun (s : State) => s.setCoach k { s.coach k with shadow := Tab.put (s.coach k).shadow (mxKey c) { cmd := c } }
  match c.op with
  | .z t i32 => ((s.putTile k t { i32 := i32 }).mxComplete c).mxDone k c
  | .ldb slot ty kk _ ctl =>
    match s.sourceRows c with
    | .ok rows => (((s.noteRows c.ctx (mxSources c)).mxLoadB k slot ty kk ctl rows).mxComplete c).mxDone k c
    | .error _ => s
  | .lda t _ _ i32 =>
    match s.sourceRows c with
    | .ok rows => (((s.noteRows c.ctx (mxSources c)).mxLoadA k t i32 rows).mxComplete c).mxDone k c
    | .error _ => s
  | .st t dst ctl bar out gs round sat => (s.mxStore k c t dst ctl bar out gs round sat).mxDone k c
  | .mma t _ slot _ kk aint _ =>
    match mmaError (Tab.get (s.coach k).slots {} slot) (Tab.get (s.coach k).tiles {} t) kk aint with
    | some e => ((s.mxError k c t e).mxComplete c).mxDone k c
    | none => (hold s).add [{ ev := .mmaStep, arg := { h := k, n := (mxKey c) } }]
  | .pass _ _ => (hold s).add [{ ev := .passExecute, arg := { h := k, n := (mxKey c) } }]

/-- A pair's next work (R273). -/
def State.runPair (s : State) (k key : Nat) : State :=
  let x := s.coach k
  match Tab.find x.shadow key, Tab.get x.fifos [] key with
  | some r, _ =>
    (match r.cmd.op with
    | .pass _ _ => s.add [{ ev := .passExecute, arg := { h := k, n := key } }]
    | _ => s.add [{ ev := .mmaStep, arg := { h := k, n := key } }])
  | none, c :: rest => (s.setCoach k { x with fifos := Tab.put x.fifos key rest }).mxBegin k c
  | none, [] => s

/-- Pages that heads of FIFOs wait for are reported to F3 (R350). -/
def State.parkHeads (s : State) (k : Nat) : State :=
  ((s.coach k).fifos.filterMap fun e => e.2.head?).foldl (fun s c =>
    match s.sourceRows c with
    | .error (d, va) => s.parkRead d (.array (k / 24) k) c.ctx va
    | .ok _ => s) s

/-- ARRAY_COMMAND_EXECUTE (R266-R275): the array chooses its next work, unless a step is under way. Where no FIFO can start, its holder's
cannot, and the lease ends. -/
def arrayCommandExecute (k : Nat) (s : State) : State :=
  if s.stepping k then s
  else
    match s.readyLevel k with
    | none =>
      let s := s.setCoach k { s.coach k with lease := (s.coach k).lease.map fun l => { l with done := max l.done 16 } }
      if (s.coach k).fifos.any fun e => !e.2.isEmpty then
        (s.parkHeads k).add [{ ev := .arrayCommandExecute, arg := { h := k }, due := s.clock + 1 }]
      else s
    | some level =>
      match s.holder k level with
      | none => s
      | some (b, new) =>
        let s := if new then
            (s.setCoach k { s.coach k with lease := some { level := level, bogie := b, start := s.clock } }).add
              [{ ev := .leaseEnd, arg := { h := k }, due := s.clock + 2048 }]
          else s
        s.runPair k (b * 16 + level)

/-- MMA_STEP (R274): a step is done; with the last the command is complete, and arbitration runs again. -/
def mmaStep (k key : Nat) (s : State) : State :=
  match Tab.find (s.coach k).shadow key with
  | none => s
  | some r =>
    match r.cmd.op with
    | .mma t src slot stride kk aint base =>
      let s := s.mmaWork k r.cmd t src slot stride kk aint base r.steps
      let x := s.coach k
      if s.mxTotal k r.cmd ≤ r.steps + 1 then
        ((s.setCoach k { x with shadow := Tab.del x.shadow key }).mxComplete r.cmd).mxDone k r.cmd
      else (s.setCoach k { x with shadow := Tab.put x.shadow key { r with steps := r.steps + 1 } }).arbitrate k
    | _ => s

/-- LEASE_END (R273): a lease that has run out ends, and arbitration runs again. -/
def leaseEnd (k : Nat) (s : State) : State :=
  match (s.coach k).lease with
  | some l => if l.over s.clock then (s.setCoach k { s.coach k with lease := some { l with done := max l.done 16 } }).arbitrate k else s
  | none => s

/-! ### Scale files (R272, R283) -/

/-- SCALE_DELIVERY (R283): the records reach every bogie of the mask, which holds them, and the SCMC is performed. -/
def scaleDelivery (d : Nat) (q : Req) (s : State) : State :=
  match q.op, q.src with
  | .scale entry recs mask, .task g _ =>
    let s := (List.range 8).foldl (fun s b =>
      if bit mask b then heldWriteArrival (g / 8 * 8 + b) [.scale 0 q.src entry recs] s else s) s
    s.answer d q 0 0
  | _, _ => s

/-- SCALE_FILE_APPLY (R272): a held record is applied once the matrix commands that the bogie committed before have finished reading. -/
def scaleFileApply (g : Nat) (s : State) : State := if (s.bogie g).active then s else s.releaseHeld g

/-! ### Passes (R286) -/

/-- The first byte and length of each row that a pass reads for a block of k: of A, of B and of its records. -/
def passSources (d : Vec) (t k0 n : Nat) : List (Nat × Nat) :=
  let ty := passType d
  let es := if passInt d then 1 else 2
  let gs := groupSize ty
  ((List.range (passRows d)).map fun i => (bits d 255 192 + i * (bits d 175 160 * 16) + k0 * es, n * es)) ++
    ((List.range 128).map fun j => (bits d 319 256 + (128 * t + j) * (bits d 159 144 * 16) + k0 * codeBits ty / 8, n * codeBits ty / 8)) ++
    (List.range (if gs = 0 then 0 else 128)).map fun j => (bits d 447 384 + 4 * ((128 * t + j) * (passK d / gs) + k0 / gs), 4 * (n / gs))

/-- What a pass reads for a block of k: rows of A, columns of B and records of its tile t; or a wait, or a failure. -/
def State.passBlock (s : State) (c : MxCmd) (d : Vec) (t k0 n : Nat) : Except ((Option Nat × Nat) ⊕ (Nat × Nat)) (List (List (Byte × Bool)) × List (List (Byte × Bool)) × List (List (Byte × Bool))) := do
  let ty := passType d
  let es := if passInt d then 1 else 2
  let read := fun (va len : Nat) => match s.streamRead (dieOf c.g) c.ctx va len (len / 64 + 2) with
    | .got l => Except.ok l
    | .wait die a => Except.error (.inl (die, a))
    | .fail cause a => Except.error (.inr (cause, a))
  let a ← (List.range (passRows d)).mapM fun i => read (bits d 255 192 + i * (bits d 175 160 * 16) + k0 * es) (n * es)
  let b ← (List.range 128).mapM fun j =>
    read (bits d 319 256 + (128 * t + j) * (bits d 159 144 * 16) + k0 * codeBits ty / 8) (n * codeBits ty / 8)
  let gs := groupSize ty
  let r ← (List.range (if gs = 0 then 0 else 128)).mapM fun j =>
    read (bits d 447 384 + 4 * ((128 * t + j) * (passK d / gs) + k0 / gs)) (4 * (n / gs))
  .ok (a, b, r)

/-- The address of the first poisoned line among rows at a pitch. -/
def firstPoison (va pitch : Nat) (l : List (List (Byte × Bool))) : Option Nat :=
  ((List.range l.length).zip l).findSome? fun e =>
    (e.2.findIdx? (·.2)).map fun i => (va + e.1 * pitch + i) / 64 * 64

/-- Byte i of row r of what was read. -/
def grid (l : List (List (Byte × Bool))) (r i : Nat) : Byte := ((((l[r]?).getD [])[i]?).getD (0, false)).1

/-- A pass ends, successfully or with a status: its stores are still to be performed (R286). -/
def State.passEnd (s : State) (k : Nat) (r : MxRun) : State :=
  let x := s.coach k
  let x := { x with shadow := Tab.del x.shadow (mxKey r.cmd) }
  let old := (x.jobs.find? fun (j : MxJob) => j.cmd.id == r.cmd.id).getD { cmd := r.cmd }
  let j := if old.status = 0x20 then old else { old with status := r.status, cause := r.cause, addr := r.addr }
  let s := s.setCoach k { x with jobs := x.jobs.filter (fun (j : MxJob) => j.cmd.id != r.cmd.id) ++ [j] }
  let s := if j.owed.isEmpty then s.add [{ ev := .passComplete, arg := { h := k, n := r.cmd.id } }] else s
  s.mxDone k r.cmd

/-- One MMA step of a pass on its tile (R286); none where a page must first be repaired. Where several lines of a block are poisoned, or
cannot be read, the first of A's rows, then of B's columns, then of the records gives the pass its address: DESIGN CHOICE (log 152). -/
def State.passWork (s : State) (k : Nat) (r : MxRun) (d : Vec) (t tile k0 n : Nat) : Except (Option Nat × Nat) (State × MxRun) :=
  match s.passBlock r.cmd d t k0 n with
  | .error (.inl w) => .error w
  | .error (.inr (cause, a)) => .ok (s.noteRead r.cmd.ctx a, { r with status := 0x20, cause := cause, addr := a })
  | .ok (a, b, p) =>
    let ty := passType d
    let gs := groupSize ty
    let es := if passInt d then 1 else 2
    let m : MxIn := { ty := ty, aint := passInt d, a := fun i q => if i < passRows d then natOfBytes ((List.range es).map fun e => grid a i ((q - k0) * es + e)) else 0, b := fun q j => codeAt ty (grid b j) (q - k0), rec' := fun j g => BitVec.ofNat 32 (natOfBytes ((List.range 4).map fun e => grid p j (4 * (g - k0 / gs) + e))) }
    let bad := (firstPoison (bits d 255 192 + k0 * es) (bits d 175 160 * 16) a).orElse fun _ =>
      (firstPoison (bits d 319 256 + 128 * t * (bits d 159 144 * 16) + k0 * codeBits ty / 8) (bits d 159 144 * 16) b).orElse fun _ =>
      firstPoison (bits d 447 384 + 4 * (128 * t * (passK d / gs) + k0 / gs)) (4 * (passK d / gs)) p
    let x := Tab.get (s.coach k).tiles {} tile
    let s := (s.noteRows r.cmd.ctx (passSources d t k0 n)).putTile k tile { x.accumulate m k0 n with poison := x.poison || bad.isSome }
    .ok (s, match bad with
      | some va => if r.status = 0 then { r with status := 0x10, addr := va } else r
      | none => r)

/-- The home die of a line (R286): a chained page's is its consist's tail. -/
def State.lineHome (s : State) (ctx va d : Nat) : Nat :=
  match s.leaf ctx va with
  | some l => if l.cls = 3 then (s.consist ctx l.place).tail else l.home va
  | none => d

/-- One store step of a pass: the rows of tile t (R286). A store that may not be made ends the pass. -/
def State.passStore (s : State) (k : Nat) (r : MxRun) (d : Vec) (t tile : Nat) : State × MxRun :=
  let out := passOut d
  let x := Tab.get (s.coach k).tiles {} tile
  let rb := outBytes out 128
  let rows := (List.range (passRows d)).map fun i =>
    (bits d 383 320 + i * (bits d 191 176 * 16) + t * rb, packCodes out ((List.range 128).map fun j => mxCode out .rne false 0 0 (FV.add .rne (x.value i j) (.fin false 0 0))))
  (rowLines (rows.map fun e => placed e.1 e.2)).foldl (fun (y : State × MxRun) line =>
    if y.2.status = 0x20 then y
    else
      let va := (line.head?.map (·.1)).getD 0
      let s := y.1
      let device := match s.leaf r.cmd.ctx va with
        | some l => l.cls == 4
        | none => false
      match (if (!(region va == .glob) || device) = true then some 0x09 else s.copyTarget r.cmd.ctx va) with
      | some cause => (s.noteWalk r.cmd.ctx va, { y.2 with status := 0x20, cause := cause, addr := va })
      | none =>
        let z := s.arrayStore k r.cmd.ctx line (y.2.status == 0x10 || x.poison)
        let s := z.1
        let c := s.coach k
        let old := (c.jobs.find? fun (j : MxJob) => j.cmd.id == r.cmd.id).getD { cmd := r.cmd }
        let j := { old with owed := old.owed ++ z.2, bytes := old.bytes + line.length }
        (s.setCoach k { c with jobs := c.jobs.filter (fun (j : MxJob) => j.cmd.id != r.cmd.id) ++ [j] }, y.2)) (s, r)

/-- PASS_EXECUTE (R286): one step of a pass: its tiles set to zero, then the MMA steps block by block, then the stores tile by tile. A
step that waits for a page is tried again. -/
def passExecute (k key : Nat) (s : State) : State :=
  match Tab.find (s.coach k).shadow key with
  | none => s
  | some r =>
    match r.cmd.op with
    | .pass d tiles =>
      let nt := tiles.length
      let nb := stepCount (passType d) (passK d)
      let span := stepSpan (passType d)
      let next := fun (s : State) (r : MxRun) =>
        if r.status = 0x20 ∨ s.mxTotal k r.cmd ≤ r.steps + 1 then s.passEnd k r
        else (s.setCoach k { s.coach k with shadow := Tab.put (s.coach k).shadow key { r with steps := r.steps + 1 } }).arbitrate k
      if r.steps = 0 then
        next (tiles.foldl (fun s t => s.putTile k t { i32 := passType d == 1 }) s) r
      else if r.steps ≤ nb * nt then
        let t := (r.steps - 1) % nt
        let k0 := (r.steps - 1) / nt * span
        match s.passWork k r d t (pick tiles t) k0 (min span (passK d - k0)) with
        | .error (die, va) =>
          (s.parkRead die (.array (k / 24) k) r.cmd.ctx va).add [{ ev := .passExecute, arg := { h := k, n := key }, due := s.clock + 1 }]
        | .ok (s, r) => next s r
      else
        let t := r.steps - 1 - nb * nt
        let base := bits d 383 320 + t * outBytes (passOut d) 128
        if (rowUnits base (outBytes (passOut d) 128) (bits d 191 176 * 16) (passRows d)).any (s.restricting r.cmd.ctx) then
          s.add [{ ev := .passExecute, arg := { h := k, n := key }, due := s.clock + 1 }]
        else
        let y := s.passStore k r d t (pick tiles t)
        next y.1 y.2
    | _ => s

/-- PASS_COMPLETE (R286): every store of a pass is performed: the successor is released, or a failure is told by an EVENT, and the
frame that drained for the pass may end. -/
def passComplete (k id : Nat) (s : State) : State :=
  let x := s.coach k
  match x.jobs.find? (fun (j : MxJob) => j.cmd.id == id) with
  | none => s
  | some j =>
    if !j.owed.isEmpty then s
    else
      let s := s.setCoach k { x with jobs := x.jobs.filter fun (j : MxJob) => j.cmd.id != id }
      let d := match j.cmd.op with
        | .pass d _ => d
        | _ => 0
      let succ := bits d 511 448
      let die := match j.top with
        | some e => e.2
        | none => k / 24
      let s :=
        if succ ≠ 0 then
          s.add [{ ev := .releaseAccept
                   arg := { d := die, rel := { src := .array (k / 24) k, rel := { type := 1, prio := j.cmd.level, ctx := j.cmd.ctx, record := succ, arg := BitVec.ofNat 32 (j.status + 256 * j.cause) } } }
                   lane := some (6000 + die, 0) }]
        else if j.status ≠ 0 then
          s.add [{ ev := .raiseEvent
                   arg := { d := k / 24, c := j.cmd.ctx, info := { code := j.status, addr := BitVec.ofNat 64 j.addr, cause := j.cause } } }]
        else s
      (s.mxComplete j.cmd).arbitrate k

/-- A store or delivery of the array is performed, or a store has failed with a code (R268): with the last of a command's, an MXST's
barrier receives its update (R282), or a pass completes. A store that failed ends its pass, and the lines that it has stored stay (R286). -/
def State.arrayAnswer (s : State) (k : Nat) (q : Req) (code : Nat) : State :=
  let x := s.coach k
  match x.jobs.find? (fun (j : MxJob) => j.owed.contains q.id) with
  | none => s
  | some j =>
    let va := opVa q.op / 64 * 64
    let top := match j.top with
      | some e => if e.1 < va then some (va, s.lineHome q.ctx va (k / 24)) else some e
      | none => some (va, s.lineHome q.ctx va (k / 24))
    let j := { j with owed := j.owed.erase q.id, top := if code = 0 then top else j.top }
    let j := if code = 0 ∨ j.status = 0x20 then j else { j with status := 0x20, cause := code, addr := opVa q.op }
    let shadow := Tab.mapVals x.shadow fun (r : MxRun) => if r.cmd.id = j.cmd.id ∧ j.status = 0x20 then { r with status := 0x20, cause := j.cause, addr := j.addr } else r
    let s := s.setCoach k { x with shadow := shadow, jobs := x.jobs.map fun (y : MxJob) => if y.cmd.id = j.cmd.id then j else y }
    if !j.owed.isEmpty ∨ x.shadow.any (fun e => e.2.cmd.id == j.cmd.id) then s
    else
      match j.cmd.op with
      | .st _ dst _ bar _ _ _ _ =>
        let s := s.setCoach k { s.coach k with jobs := (s.coach k).jobs.filter fun (y : MxJob) => y.cmd.id != j.cmd.id }
        let s := match bar, region dst.toNat with
          | some i, .glob => s.mxDeliver k j.cmd [.arrive (.frame j.cmd.uid) i { bytes := j.bytes, arr := 1 }]
          | _, _ => s
        (((s.endWipes (176 + k)).mxComplete j.cmd)).arbitrate k
      | _ => s.add [{ ev := .passComplete, arg := { h := k, n := j.cmd.id } }]

/-! ### MXQ (R287) -/

/-- The tile word. -/
def Tile.word (t : Tile) : Word :=
  BitVec.ofNat 64 ((if t.poison then 4 else 0) + (if t.sat then 2 else 0) + (if t.i32 then 1 else 0))

/-- The word of MXQ.s for a pair of a coach. -/
def State.pairWord (s : State) (k key : Nat) : Word :=
  let x := s.coach k
  let q := Tab.get x.fifos [] key
  let low := match Tab.find x.shadow key with
    | some r =>
      let now := s.agenda.any fun h => (h.ev == .mmaStep || h.ev == .passExecute) && h.arg.h == k && h.arg.n == key
      r.steps % 2 ^ 32 * 2 ^ 32 + min 65535 (s.mxTotal k r.cmd) * 2 ^ 16 + (if now then 1 else 2)
    | none =>
      match q.head? with
      | some c => if x.blocks c then 3 else 0
      | none => 0
  BitVec.ofNat 64 (low + q.length % 256 * 2 ^ 8)

/-- ARRAY_COMMAND_EXECUTE. -/
def execArrayCommandExecute (s : State) : Host.Outcome State Fault Refusal := .next (arrayCommandExecute s.arg.h s)
/-- MMA_STEP. -/
def execMmaStep (s : State) : Host.Outcome State Fault Refusal := .next (mmaStep s.arg.h s.arg.n s)
/-- LEASE_END. -/
def execLeaseEnd (s : State) : Host.Outcome State Fault Refusal := .next (leaseEnd s.arg.h s)
/-- SCALE_DELIVERY. -/
def execScaleDelivery (s : State) : Host.Outcome State Fault Refusal := .next (scaleDelivery s.arg.d s.arg.req s)
/-- SCALE_FILE_APPLY. -/
def execScaleFileApply (s : State) : Host.Outcome State Fault Refusal := .next (scaleFileApply s.arg.g s)
/-- PASS_EXECUTE. -/
def execPassExecute (s : State) : Host.Outcome State Fault Refusal := .next (passExecute s.arg.h s.arg.n s)
/-- PASS_COMPLETE. -/
def execPassComplete (s : State) : Host.Outcome State Fault Refusal := .next (passComplete s.arg.h s.arg.n s)

end Sys2Proof.Machine
end

