-- ==== Sys2Proof/Machine/Ask.lean ====
section
/-! DEFINITION. The words that ask firmware or a home about pages and consists (R358, R372-R375). -/

namespace Sys2Proof.Machine

/-- The local word of PAGEQ for a first-level entry (R358). -/
def TlbEntry.word (e : TlbEntry) : Word :=
  BitVec.ofNat 64 (e.epoch.toNat * 2 ^ 56 + e.place * 2 ^ 18 + e.size * 2 ^ 16 + e.cls * 2 ^ 13 + (if e.x then 16 else 0) +
    (if e.w then 8 else 0) + (if e.rd then 4 else 0) + 1)

/-- The local word of PAGEQ for an address (R358); a first-level miss walks, and stalls the word as any other does. -/
def localWord (b : Bogie) (ctx va : Nat) : Except Stop Word :=
  match region va with
  | .own _ _ | .peer _ _ => .ok 2
  | .engine _ _ _ | .peerWindow => .ok 1
  | .nothing => .ok 0
  | .glob => (b.translate ctx va).map fun e => match e with
    | some e => e.word
    | none => 0

/-- PAGEQ (R358). -/
def execPageq (d a : BitVec 5) (s : State) : Host.Outcome State Fault Refusal :=
  taskWord (.pageq d a) (fun _ _ b f => do
    let w ← localWord b f.ctx (f.getX a).toNat
    b.go (f.setX d w)) s

/-- PAGEQ.h (R358). -/
def execPageqH (d a : BitVec 5) (s : State) : Host.Outcome State Fault Refusal :=
  taskWord (.pageqH d a) (fun _ g b f => b.awaiting g f { op := .pageqHome (f.getX a).toNat, dest := d } false) s

/-- COUPLE (R372). -/
def execCouple (d a : BitVec 5) (c : BitVec 6) (s : State) : Host.Outcome State Fault Refusal :=
  taskWord (.couple d a c) (fun _ g b f => b.awaiting g f { op := .couple c.toNat (f.getX a).toNat, dest := d } false) s

/-- UNCOUPLE (R372). -/
def execUncouple (d a : BitVec 5) (c : BitVec 6) (s : State) : Host.Outcome State Fault Refusal :=
  taskWord (.uncouple d a c) (fun _ g b f => b.awaiting g f { op := .uncouple c.toNat (f.getX a).toNat, dest := d } false) s

/-- CQUERY (R374). -/
def execCquery (d : BitVec 5) (v_g : BitVec 1) (c : BitVec 6) (s : State) : Host.Outcome State Fault Refusal :=
  taskWord (.cquery d v_g c) (fun _ g b f => b.awaiting g f { op := .cquery c.toNat (v_g == 1), dest := d } false) s

/-- CSYNC (R375). -/
def execCsync (s : State) : Host.Outcome State Fault Refusal :=
  taskWord .csync (fun _ g b f => b.awaiting g f { op := .csync } false) s

end Sys2Proof.Machine
end

