-- ==== Sys2Proof/Machine/Translate.lean ====
section
/-! DEFINITION. Translation requests: UNMAP, PROTECT and MIGRATE (R354-R357). -/

namespace Sys2Proof.Machine

/-- The pages of n units from an address, each with its leaf; none where an address is unmapped or a page is split (R354). -/
def State.pagesOf (s : State) (ctx va n fuel : Nat) : Option (List (Nat × Leaf)) :=
  match fuel with
  | 0 => none
  | k + 1 =>
    if n = 0 then some []
    else
      match s.leaf ctx va with
      | none => none
      | some l =>
        let size := pageBytes l.size
        if va % size ≠ 0 ∨ n * 65536 < size then none
        else (s.pagesOf ctx (va + size) (n - size / 65536) k).map fun r => (va, l) :: r

/-- The fields of a request that R354 bounds. -/
def requestFields (r : BitVec 256) (kind : Nat) : Bool :=
  (kind == 1 || kind == 2 || kind == 3) && bits r 3 0 == kind && bits r 7 4 == 0 && bits r 95 24 == 0 && decide (bits r 23 16 ≤ 192) && !bit r 8 && decide (bits r 255 192 % 8 = 0) &&
    bits r 127 96 != 0 && decide (bits r 191 128 % 65536 = 0) && decide (bits r 191 128 + bits r 127 96 * 65536 ≤ 2 ^ 56) &&
    (kind != 3 || decide (bits r 15 12 ≤ 7))

/-- The request may not be made of a page (R354). -/
def pageForbids (kind : Nat) (perms : BitVec 3) (l : Leaf) : Bool :=
  (kind == 3 && (l.cls == 3 || l.cls == 1)) || (kind == 2 && bit perms 1 && !l.w && (l.cls == 5 || l.cls == 3))

/-- A page of the list is being changed by another request (R357). -/
def State.underChange (s : State) (ctx : Nat) (l : List (Nat × Leaf)) : Bool :=
  s.pageOps.any fun o => o.kind != 4 && o.ctx == ctx && l.any fun e =>
    decide (e.1 < o.page + pageBytes o.size) && decide (o.page < e.1 + pageBytes e.2.size)

/-- Copies of a page's Pending units taken for a snapshot (R417); none where a pool is empty. -/
def State.saveUnits (s : State) (ctx : Nat) (e : Nat × Leaf) : Option State :=
  (List.range (pageBytes e.2.size / 65536)).foldl (fun (o : Option State) i =>
    let va := e.1 + 65536 * i
    match o with
    | none => none
    | some s =>
      if e.2.cls = 3 then s.chainGuard (s.consist ctx e.2.place).tail ctx va e.2
      else if e.2.cls = 1 then
        (List.range 8).foldl (fun (o : Option State) d => match o with
          | none => none
          | some s => s.snapGuard d ctx (va + 8192 * d) e.2) (some s)
      else s.snapGuard e.2.place ctx va e.2) (some s)

/-! ### The invalidation (R355 step 2) -/

/-- The number of an agent among those that acknowledge. -/
def ackHart (d h : Nat) : Nat := 10000 + d * 22 + h
/-- See ackHart. -/
def ackArray (k : Nat) : Nat := 20000 + k

/-- An operation lies in n bytes from a page of its context. -/
def opWithin (o : Op) (page n : Nat) : Bool :=
  let inside := fun (a : Nat) => decide (page ≤ a) && decide (a < page + n)
  (opBytes o).any inside || (match o with
    | .copy desc _ => inside desc
    | .cring va _ => inside va
    | _ => false)

/-- What an agent had translated of a context's page before an invalidation and has not performed (R355): entries of a bogie or hart, a
copy hart's or an array's stores, numbered below a bound. -/
def State.busyBefore (s : State) (agent ctx page n bound : Nat) : Bool :=
  let inPage := fun (t : Transit) => decide (t.id < bound) && t.ctx == ctx && opWithin t.op page n
  if agent < 10000 then (s.bogie agent).transit.any inPage
  else if agent < 20000 then
    let x := s.hart ((agent - 10000) / 22) ((agent - 10000) % 22)
    x.transit.any inPage || (match x.run with
      | some r => r.ctx == ctx && !pSpad r.pkt && r.owed.any fun e =>
          decide (e.id < bound) && !e.done && decide (e.addr < page + n) && decide (page < e.addr + e.len)
      | none => false)
  else (s.coach (agent - 20000)).jobs.any fun j => j.cmd.ctx == ctx && mxStoresGlobal j.cmd.op && j.owed.any fun id => decide (id < bound)

/-- The invalidation of a page broadcast: translations and lines of it, of code too, are dropped at once, and every agent that may still hold
something of it owes an acknowledgement. -/
def State.broadcast (s : State) (o : PageOp) : State :=
  let n := pageBytes o.size
  let s := (s.invalidateLines o.ctx o.page n).dropCode o.ctx o.page n
  let s := { s with bogies := Tab.mapVals s.bogies fun b => { b with tlb := b.tlb.filter fun e => !(e.ctx == o.ctx && e.page == o.page) }
                    dies := Tab.mapVals s.dies fun d => { d with trans := d.trans.filter fun e => !(e.ctx == o.ctx && e.page == o.page) } }
  let s := match s.leaf o.ctx o.page with
    | some l => if l.cls = 3 ∨ l.cls = 4 then s else
      { s with owner := s.owner.filter fun (e : Nat × Option Src) => !(decide (l.phys o.page ≤ 4 * e.1) && decide (4 * e.1 < l.phys o.page + n)) }
    | none => s
  let mine := s.bogies.filterMap fun e =>
    if (e.2.stack.any (fun f => f.ctx == o.ctx) && e.2.active) || s.busyBefore e.1 o.ctx o.page n s.uid then some e.1 else none
  let harts := s.harts.filterMap fun e =>
    if s.busyBefore (10000 + e.1) o.ctx o.page n s.uid then some (10000 + e.1) else none
  let arrays := s.coaches.filterMap fun e => if s.busyBefore (ackArray e.1) o.ctx o.page n s.uid then some (ackArray e.1) else none
  let owed := mine ++ harts ++ arrays
  let s := { s with pageOps := s.pageOps.map fun (p : PageOp) => if p.ctx = o.ctx ∧ p.page = o.page ∧ p.kind = o.kind then { p with owed := owed } else p }
  s.add ((owed.map fun g =>
    let b := s.bogie g
    { ev := .invalidateAck
      arg := { g := g, c := o.ctx, va := o.page, n := o.kind, m := b.cycle, h := b.streak, flag := decide (10000 ≤ g) || !b.active, val := BitVec.ofNat 64 s.uid } }) ++
    (if owed.isEmpty then [{ ev := .invalidateAck, arg := { g := 30000, c := o.ctx, va := o.page, n := o.kind, flag := true } }] else []))

/-! ### Requests -/

/-- The request is done once none of its pages is under change. -/
def State.requestDone (s : State) (o : PageOp) : State :=
  if s.pageOps.any (fun p => p.req == o.req && p.kind != 4) then s
  else s.fwStore o.ctx o.done (bytesOfNat 8 1)

/-- A translation request of a kind (R354): rejected, or its pages' changes begun. Where a copy-on-write break of a page is under way, while
the homes take a snapshot's advance, or where a reserve pool has no frame for a copy that must first be taken, F3 turns to the request again later. -/
def translationRequest (kind : Nat) (r : BitVec 256) (s : State) : State :=
  let ctx := bits r 23 16
  let perms : BitVec 3 := r.extractLsb' 9 3
  let again := s.add [{ ev := if kind = 1 then .unmap else if kind = 2 then .protect else .migrate, arg := { pkt := r.setWidth 512 }, due := s.clock + 1 }]
  if !requestFields r kind then s.writeDone r 2
  else
    match s.pagesOf ctx (bits r 191 128) (bits r 127 96) (bits r 127 96 + 1) with
    | none => s.writeDone r 2
    | some l =>
      if l.any (fun e => pageForbids kind perms e.2) || s.underChange ctx l then s.writeDone r 2
      else if l.any (fun e => s.breaking ctx e.1) || ((s.ctx ctx).snap.state == 2 && decide ((s.ctx ctx).snap.advanced.length < 8)) then again
      else
        match l.foldl (fun (o : Option State) e => match o with
          | none => none
          | some s => s.saveUnits ctx e) (some s) with
        | none => again
        | some s =>
          let (id, s) := s.newId
          l.foldl (fun s e =>
            let op : PageOp := { kind := kind, ctx := ctx, page := e.1, size := e.2.size, home := e.2.place, target := bits r 15 12, perms := perms, req := id, done := bits r 255 192 }
            let s := { s with pageOps := s.pageOps ++ [op] }
            if kind = 3 then
              (s.writeLeaf e.2.key ({ e.2 with migr := true }.word true)).add [{ ev := .migrateCopyDone, arg := { c := ctx, va := e.1 } }]
            else s.broadcast op) s

/-! ### Acknowledgements and the new leaf -/

/-- What a change of a page that a snapshot's cut has overtaken does first: its Pending units are copied, once every home has taken the
advance; none where that must wait (R414, R417). -/
def State.saveChanged (s : State) (ctx page : Nat) : Option State :=
  let sn := (s.ctx ctx).snap
  match s.leaf ctx page with
  | none => some s
  | some l =>
    if sn.state ≠ 2 then some s
    else if sn.advanced.length < 8 then none
    else s.saveUnits ctx (page, l)

/-- Steps 3 and 4 of R355, or the end of a MIGRATE: the leaf is rewritten, the waiting walks resume, and a request whose last page
this is is done. -/
def State.endChange (s : State) (o : PageOp) : State :=
  let s := { s with pageOps := s.pageOps.filter fun (p : PageOp) => p != o }
  let s := match s.leaf o.ctx o.page with
    | some l =>
      if o.kind = 1 then s.writeLeaf l.key (l.word false)
      else if o.kind = 2 then s.writeLeaf l.key ({ l with x := bit o.perms 2, w := bit o.perms 1, rd := bit o.perms 0 }.word true)
      else s
    | none => s
  s.requestDone o

/-- INVALIDATE_ACK (R355): an agent acknowledges once its running activation's next matching verdict has passed, or the activation was
rolled back, and what it had forwarded by then is performed. With the last acknowledgement the page leaves its state. -/
def invalidateAck (a : Args) (s : State) : State :=
  match s.pageOps.find? (fun o => o.ctx == a.c && o.page == a.va && o.kind == a.n) with
  | none => s
  | some o =>
    let b := s.bogie a.g
    let passed := a.flag || b.ckpt.isNone || b.cycle != a.m || b.streak != a.h || !b.active
    let bound := if a.flag then a.val.toNat else s.uid
    if !passed then s.add [{ ev := .invalidateAck, arg := a, due := s.clock + 1 }]
    else if s.busyBefore a.g o.ctx o.page (pageBytes o.size) bound then
      s.add [{ ev := .invalidateAck, arg := { a with flag := true, val := BitVec.ofNat 64 bound }, due := s.clock + 1 }]
    else
      let o' := { o with owed := o.owed.filter fun g => g != a.g }
      let s := { s with pageOps := s.pageOps.map fun (p : PageOp) => if p = o then o' else p }
      if !o'.owed.isEmpty then s
      else
        match (if s.breaking o.ctx o.page then none else s.saveChanged o.ctx o.page) with
        | none => s.add [{ ev := .invalidateAck, arg := { g := 30000, c := a.c, va := a.va, n := a.n, flag := true }, due := s.clock + 1 }]
        | some s => s.endChange o'

/-- A free run of frames of a die for a page of a size, the search beginning at a frame that F3 chooses. -/
def State.freeFrame (s : State) (d size start fuel : Nat) : Option Nat :=
  match fuel with
  | 0 => none
  | k + 1 =>
    let n := pageBytes size / 65536
    let f := start / n * n % ((s.die d).memory / 65536)
    let lo := memKey d (f * 65536)
    if f * 65536 + pageBytes size ≤ (s.die d).memory ∧ !(s.usedSpans.any fun e => decide (e.1 < lo + pageBytes size) && decide (lo < e.1 + e.2)) then some f
    else s.freeFrame d size (f + n) k

/-- MIGRATE_COPY_DONE (R356): the frame is copied to a new frame on the target die, the leaf names it, and the old home passes its parked
requests to the new one, which serves them in arrival order. Until the target has a free frame F3 waits. -/
def migrateCopyDone (ctx page : Nat) (s : State) : State :=
  match s.pageOps.find? (fun o => o.kind == 3 && o.ctx == ctx && o.page == page && !o.copied), s.leaf ctx page with
  | some o, some l =>
    let (r, s) := s.draw
    match s.freeFrame o.target o.size r ((s.die o.target).memory / pageBytes o.size), s.saveChanged ctx page with
    | none, _ | _, none => s.add [{ ev := .migrateCopyDone, arg := { c := ctx, va := page }, due := s.clock + 1 }]
    | some f, some s =>
      let n := pageBytes o.size
      let s := s.broadcast o
      let s := s.moveMem (l.phys page) (memKey o.target (f * 65536)) n
      let s := s.writeLeaf l.key ({ l with migr := false, place := o.target, frame := f }.word true)
      let s := { s with pageOps := s.pageOps.map fun (p : PageOp) => if p.ctx = ctx ∧ p.page = page ∧ p.kind = 3 then { p with copied := true, frame := f } else p }
      let x := s.die o.home
      let mine := fun (q : Req) => q.ctx == ctx && decide (page ≤ opVa q.op) && decide (opVa q.op < page + n)
      (x.parked.filter mine).foldl (fun s q => s.serve o.target q) (s.setDie o.home { x with parked := x.parked.filter fun q => !mine q })
  | _, _ => s

/-- UNMAP: pkt is the request. -/
def execUnmap (s : State) : Host.Outcome State Fault Refusal := .next (translationRequest 1 (s.arg.pkt.setWidth 256) s)
/-- PROTECT: pkt is the request. -/
def execProtect (s : State) : Host.Outcome State Fault Refusal := .next (translationRequest 2 (s.arg.pkt.setWidth 256) s)
/-- MIGRATE: pkt is the request. -/
def execMigrate (s : State) : Host.Outcome State Fault Refusal := .next (translationRequest 3 (s.arg.pkt.setWidth 256) s)
/-- INVALIDATE_ACK. -/
def execInvalidateAck (s : State) : Host.Outcome State Fault Refusal := .next (invalidateAck s.arg s)
/-- MIGRATE_COPY_DONE. -/
def execMigrateCopyDone (s : State) : Host.Outcome State Fault Refusal := .next (migrateCopyDone s.arg.c s.arg.va s)

end Sys2Proof.Machine
end

