-- ==== Sys2Proof/Machine/Snapshot.lean ====
section
/-! DEFINITION. Snapshots (R411-R421): steps, the cut, the image kept and drained, and its completion. -/

namespace Sys2Proof.Machine

/-- The function of firmware whose mailbox takes a request (R24, R427). -/
def mailboxOf (ev : Instr) : Nat :=
  match ev with
  | .version | .spdmRequest => 0
  | .queueEnable | .queueTeardown | .pasidInvalidate => 1
  | .unmap | .protect | .migrate | .consistCreate | .consistDestroy => 3
  | .errlogCount => 4
  | .linkState => 5
  | .stepEnter | .stepDone => 6
  | .temperature | .power | .pwrLimit => 7
  | _ => 2

/-- A number for who sends it: a bogie, an engine hart, a remote verifier, or the PF driver. -/
def mailSender (ev : Instr) (a : Args) : Nat :=
  match ev, a.req.src with
  | .spdmRequest, _ => 1
  | .version, .task g _ | .linkState, .task g _ | .temperature, .task g _ | .power, .task g _ | .errlogCount, .task g _ => 2 + g
  | .version, .hart d h | .linkState, .hart d h | .temperature, .hart d h | .power, .hart d h | .errlogCount, .hart d h
  | .stepEnter, .hart d h | .stepDone, .hart d h => 1538 + d * 22 + h
  | _, _ => 0

/-- A request waits in its mailbox (R427), which delivers in order for each sender and receiver: they are its lane. -/
def State.mail (s : State) (ev : Instr) (a : Args) : State :=
  { s with sys := { s.sys with waiting := s.sys.waiting ++ [{ ev := ev, arg := a, lane := some (9000 + mailboxOf ev, mailSender ev a) }] } }

/-- A mailbox request of the firmware (R427): while a new image takes over, it waits for the complex that answers then. -/
def State.service (s : State) (ev : Instr) (f : State → State) : State :=
  if s.sys.update = 2 then s.mail ev s.arg else f s

/-- s stands at or after t, modulo 2^32 (R413, R414). -/
def atOrAfter (s t : BitVec 32) : Bool := decide ((s - t).toNat < 2 ^ 31)

/-- The collective harts of the module: die and hart (R233). -/
def collectiveHarts : List (Nat × Nat) := (List.range 8).flatMap fun d => (List.range 4).map fun h => (d, 16 + h)

/-- The harts that run routines: the collective and the snapshot harts. -/
def engineHarts : List (Nat × Nat) := (List.range 8).flatMap fun d => (List.range 6).map fun h => (d, 16 + h)

/-- The collective harts that hold a context's routine. -/
def State.routineHarts (s : State) (c : Nat) : List (Nat × Nat) :=
  collectiveHarts.filter fun e => (s.hart e.1 e.2).loaded == some c

/-! ### Steps (R411, R414) -/

/-- STEP_ENTER waits for the cut: the snapshot is Armed or cutting, and the step is its step or a later one. -/
def Snap.holds (x : Snap) (step : BitVec 32) : Bool :=
  (x.state == 1 || (x.state == 2 && decide (x.advanced.length < 8))) && atOrAfter step x.step

/-- The request of an engine hart's TRAP that waits for a reply. -/
def Hart.trapReq (x : Hart) (d h : Nat) : Option Req :=
  (x.transit.find? fun t => match t.op with
    | .trap 0x601 _ => true
    | _ => false).map fun t => t.req (.hart d h)

/-- STEP_ENTER (R411): answered, or held until the cut. -/
def stepEnter (d h : Nat) (q : Req) (s : State) : State :=
  match q.op with
  | .trap _ a =>
    let x := s.hart d h
    let step : BitVec 32 := a.setWidth 32
    if (s.ctx q.ctx).snap.holds step then s.setHart d h { x with asking := some step }
    else (s.setHart d h { x with entered := Tab.put x.entered q.ctx step }).answer s.hub q 0 0
  | _ => s

/-- The held STEP_ENTER requests of a context answered that its snapshot holds no more (R414 step 3); a Frozen context's wait for its THAW
(R421). -/
def State.answerHeld (s : State) (c : Nat) : State :=
  if (s.ctx c).state = 5 ∨ (s.ctx c).freezing then s
  else
    engineHarts.foldl (fun s e =>
      let x := s.hart e.1 e.2
      match x.asking, x.trapReq e.1 e.2 with
      | some step, some q =>
        if q.ctx ≠ c ∨ (s.ctx c).snap.holds step then s
        else (s.setHart e.1 e.2 { x with asking := none, entered := Tab.put x.entered c step }).answer s.hub q 0 0
      | _, _ => s) s

/-- STEP_DONE (R411). -/
def stepDone (d h : Nat) (q : Req) (s : State) : State :=
  match q.op with
  | .trap _ a =>
    let x := s.hart d h
    (s.setHart d h { x with finished := Tab.put x.finished q.ctx (a.setWidth 32) }).answer s.hub q 0 0
  | _ => s

/-! ### SNAPSHOT_CUT (R412, R413) -/

/-- An entry of a region table of n entries lies on a page that must first be repaired or that is Restricting: at what home, and where
(R350, R355). -/
def State.tableWaits (s : State) (ctx va n : Nat) : Option (Option Nat × Nat) :=
  (List.range n).findSome? fun i =>
    match s.copyRead s.hub ctx (va + 16 * i) 16 with
    | .wait home => some (home, va + 16 * i)
    | _ => none

/-- A region table read: none where it cannot be read, a reserved field is nonzero, an entry lies outside its range or two regions
overlap. -/
def State.regionTable (s : State) (ctx va n : Nat) : Option (List (Nat × Nat)) :=
  let l := (List.range n).mapM fun i =>
    match s.copyRead s.hub ctx (va + 16 * i) 16 with
    | .bytes b false =>
      let w := natOfBytes b
      let a := w % 2 ^ 64
      let k := w / 2 ^ 64 % 2 ^ 32
      if w / 2 ^ 96 ≠ 0 ∨ a % 65536 ≠ 0 ∨ k = 0 then none else some (a, k)
    | _ => none
  match l with
  | none => none
  | some l =>
    if (List.range l.length).all fun i => (List.range i).all fun j =>
        let x := (l[i]?).getD (0, 0)
        let y := (l[j]?).getD (0, 0)
        decide (x.1 + x.2 * 65536 ≤ y.1) || decide (y.1 + y.2 * 65536 ≤ x.1) then some l else none

/-- SNAPSHOT_CUT as F6 takes it (R413, R428): Armed, or refused with the number of the failing check. -/
def State.snapshotCut (s : State) (ctx : Nat) (p : Vec) : Except Nat State :=
  let step : BitVec 32 := (dword p 1).setWidth 32
  let base := (dword p 2).toNat
  let called := collectiveHarts.any fun e =>
    let x := s.hart e.1 e.2
    ((Tab.find x.entered ctx).any fun n => atOrAfter n step) ||
      (x.asking.any (fun n => atOrAfter n step) && (x.trapReq e.1 e.2).any fun q => q.ctx == ctx)
  if !bit s.sys.accept 2 then .error 2
  else if called then .error 1
  else if (s.ctx ctx).snap.state ≠ 0 then .error 2
  else
    match s.regionTable ctx (dword p 5).toNat (dword p 6).toNat with
    | none => .error 3
    | some l =>
      let e := peerEntry s ctx base
      if !(region base == .peerWindow) || !bit e 0 || !bit e 2 || !s.mappedWritable ctx (dword p 4).toNat then .error 4
      else
        .ok ((s.setSnap ctx { state := 1, step := step, base := base, cap := (dword p 3).toNat, record := (dword p 4).toNat, regions := l }).add
          [{ ev := .snapshotCutTaken, arg := { c := ctx }, due := s.clock + 1 }])

/-! ### The cut (R414) -/

/-- Both conditions of R414 hold. -/
def State.cutNow (s : State) (c : Nat) : Bool :=
  let S := (s.ctx c).snap.step
  (s.routineHarts c).all fun e =>
    let x := s.hart e.1 e.2
    let entered := Tab.find x.entered c
    let finished := Tab.find x.finished c
    (S == 0 || (entered.isNone && finished.isNone) || (finished.any fun f => atOrAfter f (S - 1))) && !(entered.any fun f => atOrAfter f S)

/-- The die that drains a unit (R418): its home, a chained unit's tail; the eight homes of an interleaved unit share the work by its
address (log 23). -/
def State.drainDie (s : State) (ctx va : Nat) (l : Leaf) : Nat :=
  if l.cls = 3 then (s.consist ctx l.place).tail else if l.cls = 1 then va / 65536 % 8 else l.place

/-- The units of an image: those of its regions that are mapped with any class but device (R414). -/
def State.unitsOf (s : State) (ctx : Nat) (l : List (Nat × Nat)) : List SnapUnit :=
  l.flatMap fun e => (List.range e.2).filterMap fun i =>
    let va := e.1 + 65536 * i
    match s.leaf ctx va with
    | some f =>
      let parked := s.dies.any fun e => e.2.parked.any fun q => q.ctx == ctx && (parkedUnits q.op).contains va
      if f.cls = 4 then none else some { va := va, cls := f.cls, home := s.drainDie ctx va f, asked := if parked then some 0 else none }
    | none => none

/-- SNAPSHOT_CUT_TAKEN (R414): F6 takes the cut once its conditions hold (m 0), and each die's home takes the advance (m 1); with the
last the held steps are answered and the drain begins. -/
def snapshotCutTaken (c d m : Nat) (s : State) : State :=
  let x := s.ctx c
  let sn := x.snap
  if m = 0 then
    if sn.state ≠ 1 then s
    else if !s.cutNow c then s.add [{ ev := .snapshotCutTaken, arg := { c := c }, due := s.clock + 1 }]
    else
      (s.setCtx c { x with epoch := x.epoch + 1, snap := { sn with state := 2, cutCycle := s.clock, units := s.unitsOf c sn.regions } }).add
        ((List.range 8).map fun d => { ev := .snapshotCutTaken, arg := { c := c, d := d, m := 1 } })
  else if sn.state ≠ 2 ∨ sn.advanced.contains d then s
  else
    let s := s.setSnap c { sn with advanced := sn.advanced ++ [d] }
    if sn.advanced.length + 1 < 8 then s
    else
      (s.answerHeld c).add (((List.range 16).map fun i => { ev := .drainUnit, arg := { c := c, d := i / 2, h := 20 + i % 2 } }) ++
        [{ ev := .snapshotDone, arg := { c := c } }])

/-! ### The drain (R418, R419) -/

/-- A piece of 64 bytes of the image sent to storage by snapshot hart h of die d, if the cap leaves room for it (R418, R419); k is the number
of its record. -/
def State.snapSend (s : State) (c d h off k : Nat) (l : List Byte) : Option State :=
  let sn := (s.ctx c).snap
  let w := s.clock / 1700000
  let sent := if sn.window = w then sn.sent else 0
  if sn.cap ≠ 0 ∧ sn.cap * 1000 < sent + 64 then none
  else
    let va := sn.base + off
    let (id, s) := s.newId
    let s := s.setSnap c { sn with window := w, sent := sent + 64, owed := sn.owed ++ [(id, k)] }
    let q : Req := { id := id, src := .hart d h, ctx := c, op := .store (placed va l) false false none }
    if va / 2 ^ 46 = sn.base / 2 ^ 46 ∧ va < 2 ^ 64 then some (s.sendRemote d va q) else some (s.answer d q 0 0x09)

/-- The clock at which the next window of the cap begins. -/
def State.nextWindow (s : State) : Nat := (s.clock / 1700000 + 1) * 1700000

/-- Line i of a unit's old image, and whether it is poisoned: from its copy where it has one, else from the live frame. -/
def State.unitLine (s : State) (c : Nat) (u : SnapUnit) (i : Nat) : List Byte × Bool :=
  let va := u.va + 64 * i
  let at' := fun (key : Nat) => (s.readBytes key 64, s.poison.contains (key / 64))
  let copy := if u.cls = 1 then (Tab.find u.copies (va / 8192 % 8)).map fun f => memKey (va / 8192 % 8) (f * 65536 + va % 8192)
    else u.copies.head?.map fun e => memKey e.1 (e.2 * 65536 + 64 * i)
  match copy, s.leaf c va with
  | some k, _ => at' k
  | none, some l =>
    if l.cls = 3 then
      let x := s.consist c l.place
      (x.bytes x.tail (l.chainOff va) 64, x.poisonAt x.tail (l.chainOff va))
    else at' (l.phys va)
  | none, none => (List.replicate 64 0, false)

/-- The header of a unit's record (R419), as its 256 bytes. -/
def SnapUnit.header (u : SnapUnit) : List Byte :=
  bytesOfNat 256 (u.va + u.cls * 2 ^ 64 + (u.bad.foldl (fun n i => n + 2 ^ i) 0) * 2 ^ 1024)

/-- The frames of a unit's copy, which the unit names no more, return to their dies' pools (R417); the shared frame of a broken page does
once no leaf names it (R352). -/
def State.freeCopies (s : State) (u : SnapUnit) : State := u.copies.foldl (fun s e => s.returnFrames e.1 [e.2]) s

/-- What waits in the fault queues to write a unit that needs no copy any more is replayed (R417). -/
def State.replayUnit (s : State) (c : Nat) (u : SnapUnit) : State :=
  (List.range 8).foldl (fun s d => if (s.die d).holdsUnit c u.va && !s.breaking c u.va then s.replay d c u.va 65536 else s) s

/-- A unit is Drained (R417): its copy returns, writes that waited for a copy go on, and with the last unit of its page the leaf's epoch is
written. -/
def State.unitDrained (s : State) (c : Nat) (u : SnapUnit) : State :=
  let s := ((s.putUnit c { u with state := 2, copies := [] }).freeCopies u).replayUnit c u
  match s.leaf c u.va with
  | none => s
  | some l =>
    let size := pageBytes l.size
    let page := u.va / size * size
    if (s.ctx c).snap.units.all fun x => x.va < page || page + size ≤ x.va || x.state == 2 then
      s.writeLeaf l.key ({ l with epoch := (s.ctx c).epoch }.word true)
    else s

/-- The die whose harts drain a unit (R418): a chained unit that none has begun goes with its consist's tail. -/
def State.unitDie (s : State) (c : Nat) (u : SnapUnit) : Nat :=
  if u.cls ≠ 3 ∨ u.number.isSome then u.home
  else
    match s.leaf c u.va with
    | some l => s.drainDie c u.va l
    | none => u.home

/-- The first unit of a list by a measure. -/
def leastUnit (key : SnapUnit → Nat) (l : List SnapUnit) : Option SnapUnit :=
  l.foldl (fun (m : Option SnapUnit) u => match m with
    | some x => if key u < key x then some u else some x
    | none => some u) none

/-- The next unit that snapshot hart h of die d drains (R418): the one that it has begun; else, of those that no hart has, a Pending one with
a parked write, by the arrival of the first; a Saved one; any other, the last two in ascending address. -/
def State.nextUnit (s : State) (c d h : Nat) : Option SnapUnit :=
  let mine := (s.ctx c).snap.units.filter fun u => u.state != 2 && s.unitDie c u == d
  let rest := mine.filter fun u => u.number.isNone
  ((mine.find? fun u => u.number.isSome && u.hart == h).orElse fun _ =>
    leastUnit (fun u => u.asked.getD 0) (rest.filter fun u => u.state == 0 && u.asked.isSome)).orElse fun _ =>
      (leastUnit (·.va) (rest.filter fun u => u.state == 1)).orElse fun _ => leastUnit (·.va) rest

/-- DRAIN_UNIT (R418, R419): a snapshot hart sends the next 64 bytes of the unit that it drains, lines first and the record's header last. One
with nothing to drain looks again while a chained unit may come to its die. -/
def drainUnit (c d h : Nat) (s : State) : State :=
  let sn := (s.ctx c).snap
  if sn.state ≠ 2 ∨ sn.advanced.length < 8 then s
  else
    match s.nextUnit c d h with
    | none =>
      if sn.units.any fun u => u.cls == 3 && u.state != 2 && u.number.isNone then s.add [{ ev := .drainUnit, arg := { c := c, d := d, h := h }, due := s.clock + 1 }]
      else s
    | some u =>
      let k := u.number.getD (sn.units.filter fun x => x.number.isSome).length
      let x := s.unitLine c u u.next
      let u' := { u with number := some k, home := d, hart := h, next := u.next + 1, bad := if u.next < 1024 ∧ x.2 then u.bad ++ [u.next] else u.bad }
      let l := if u.next < 1024 then (if x.2 then List.replicate 64 0 else x.1) else (u.header.drop (64 * (u.next - 1024))).take 64
      let off := 4096 + k * 65792 + (if u.next < 1024 then 256 + 64 * u.next else 64 * (u.next - 1024))
      match s.snapSend c d h off k l with
      | none => s.add [{ ev := .drainUnit, arg := { c := c, d := d, h := h }, due := s.nextWindow }]
      | some s =>
        let s := if u'.next = 1028 then (s.unitDrained c u').add [{ ev := .snapshotDone, arg := { c := c } }] else s.putUnit c u'
        s.add [{ ev := .drainUnit, arg := { c := c, d := d, h := h }, due := s.clock + 1 }]

/-- An answer to a write of the drain (R419): the first failure ends the drain, and every remaining unit becomes Drained without a
record. -/
def State.snapAnswer (s : State) (c id code : Nat) : State :=
  let sn := (s.ctx c).snap
  let k := ((sn.owed.find? fun e => e.1 == id).map (·.2)).getD 0
  let sn := { sn with owed := sn.owed.filter fun e => e.1 != id }
  let s :=
    if code = 0 then s.setSnap c { sn with bytes := sn.bytes + 64 }
    else
      let s := s.setSnap c { sn with status := 0x20, cause := if sn.status = 0 then code else sn.cause
                                     units := sn.units.map fun u => if u.number = some k then { u with next := 0 } else u }
      (((s.ctx c).snap.units.filter fun u => u.state != 2).foldl (fun s u => s.unitDrained c { (s.snapUnit c u.va).getD u with next := 0 }) s)
  if (s.ctx c).snap.owed.isEmpty then s.add [{ ev := .snapshotDone, arg := { c := c } }] else s

/-! ### Completion (R419, R420) -/

/-- The units whose records are whole, and the poisoned lines among them. -/
def Snap.written (x : Snap) : Nat × Nat :=
  let l := x.units.filter fun u => u.next == 1028
  (l.length, (l.map fun u => u.bad.length).sum)

/-- The first 64 bytes of the image's header (R419). -/
def State.imageHeader (s : State) (c : Nat) : List Byte :=
  let x := (s.ctx c).snap
  bytesOfNat 64 (1 + x.status * 2 ^ 8 + c * 2 ^ 24 + s.module.toNat * 2 ^ 32 + x.cutCycle * 2 ^ 128 + x.step.toNat * 2 ^ 192 +
    x.written.1 * 2 ^ 256 + x.written.2 * 2 ^ 288)

/-- The completion record (R420). -/
def Snap.record64 (x : Snap) : List Byte :=
  bytesOfNat 64 (x.status + x.cause * 2 ^ 8 + x.step.toNat * 2 ^ 32 + x.written.1 * 2 ^ 256 + x.written.2 * 2 ^ 288 + x.bytes * 2 ^ 320 +
    x.cutCycle * 2 ^ 384 + x.doneCycle * 2 ^ 448)

/-- SNAPSHOT_DONE (R419-R421): every unit is Drained and every write acknowledged: the header's zero bytes are written, then its first
64 bytes, then the completion record, and the context hears SNAPSHOT_DONE. -/
def snapshotDone (c n : Nat) (s : State) : State :=
  let sn := (s.ctx c).snap
  if sn.state ≠ 2 ∨ sn.advanced.length < 8 ∨ (sn.units.any fun u => u.state != 2) then s
  else if sn.stage = 65 then
    match Tab.find s.answers n with
    | none => if n = 0 then s else s.add [{ ev := .snapshotDone, arg := { c := c, n := n }, due := s.clock + 1 }]
    | some _ =>
      (State.setSnap { s with answers := Tab.del s.answers n } c {}).add
        [{ ev := .raiseEvent, arg := { d := 8, c := c, info := { code := 0x40, addr := BitVec.ofNat 64 sn.record, extra := sn.step.setWidth 64 } } }]
  else if !sn.owed.isEmpty then s
  else if sn.stage = 64 then
    let (id, s) := s.fwStoreId c sn.record sn.record64
    (s.setSnap c { sn with stage := 65 }).add [{ ev := .snapshotDone, arg := { c := c, n := id } }]
  else
    let s := if sn.doneCycle = 0 then s.setSnap c { sn with doneCycle := s.clock } else s
    let l := if sn.stage = 63 then s.imageHeader c else List.replicate 64 0
    match s.snapSend c 0 20 (if sn.stage = 63 then 0 else 64 * (sn.stage + 1)) sn.units.length l with
    | none => s.add [{ ev := .snapshotDone, arg := { c := c }, due := s.nextWindow }]
    | some s => s.setSnap c { (s.ctx c).snap with stage := sn.stage + 1 }

/-- A snapshot abandoned (R421): frames returned, no record or event; F4 logs. -/
def State.abandonSnapshot (s : State) (c : Nat) : State :=
  let sn := (s.ctx c).snap
  if sn.state = 0 then s
  else
    let s := sn.units.foldl (fun s u => s.freeCopies u) (s.setSnap c {})
    { s with errlog := s.errlog ++ [{ code := 0x40, ctx := c }] }

/-- STEP_ENTER. -/
def execStepEnter (s : State) : Host.Outcome State Fault Refusal :=
  match s.arg.req.src with
  | .hart d h => .next (s.service .stepEnter (stepEnter d h s.arg.req))
  | _ => .next s
/-- STEP_DONE. -/
def execStepDone (s : State) : Host.Outcome State Fault Refusal :=
  match s.arg.req.src with
  | .hart d h => .next (s.service .stepDone (stepDone d h s.arg.req))
  | _ => .next s
/-- SNAPSHOT_CUT_TAKEN. -/
def execSnapshotCutTaken (s : State) : Host.Outcome State Fault Refusal := .next (snapshotCutTaken s.arg.c s.arg.d s.arg.m s)
/-- DRAIN_UNIT. -/
def execDrainUnit (s : State) : Host.Outcome State Fault Refusal := .next (drainUnit s.arg.c s.arg.d s.arg.h s)
/-- SNAPSHOT_DONE. -/
def execSnapshotDone (s : State) : Host.Outcome State Fault Refusal := .next (snapshotDone s.arg.c s.arg.n s)

end Sys2Proof.Machine
end

