-- ==== Sys2Proof/Machine/Context.lean ====
section
/-! DEFINITION. Contexts (R95-R107): the block's fields, the commands, freezing, thawing, scrubbing and the function-level reset. -/

namespace Sys2Proof.Machine

/-! ### Reading ranges -/

/-- A range read whole: its bytes; a page that must first be repaired, at a home, or that is Restricting; or a failure with its code and address. -/
inductive RangeRead where
  | ok (l : List Byte)
  | wait (d : Option Nat) (va : Nat)
  | bad (code va : Nat)

/-- n bytes of a context's memory as firmware reads them, mapped readable and free of poison (R99, R100, R337). -/
def State.readRange (s : State) (ctx va n : Nat) : RangeRead :=
  match s.streamRead s.hub ctx va n (n / 64 + 2) with
  | .got l => if l.any (·.2) then .bad 0x10 va else .ok (l.map (·.1))
  | .wait d a => .wait d a
  | .fail c a => .bad c a

/-- Doubleword i of bytes. -/
def dwordAt (l : List Byte) (i : Nat) : Word := BitVec.ofNat 64 (natOfBytes ((l.drop (8 * i)).take 8))

/-! ### The block (R96) -/

/-- Doubleword i of a context's block. -/
def Ctx.blockWord (c : Ctx) (i : Nat) : Word :=
  match i with
  | 0 => BitVec.ofNat 64 (c.state + (if c.busy then 8 else 0) + c.bandLow * 2 ^ 8 + c.bandHigh * 2 ^ 12 + c.status * 2 ^ 40)
  | 2 => BitVec.ofNat 64 c.kernelCount
  | 6 => c.ceilBase
  | 7 => c.handlerBase
  | 8 => c.kernelBase
  | 9 => c.consistBase
  | 10 => c.ptRoot
  | 11 => c.saveBase
  | 12 => c.saveSize
  | 13 => c.coaches.extractLsb' 0 64
  | 14 => c.coaches.extractLsb' 64 64
  | 15 => c.coaches.extractLsb' 128 64
  | _ => 0

/-- Bytes o to o + n - 1 of a doubleword replaced by those of v. -/
def mergeWord (w : Word) (o n : Nat) (v : Word) : Word :=
  let m : Word := BitVec.ofNat 64 ((2 ^ (8 * n) - 1) * 2 ^ (8 * o))
  (w &&& ~~~m) ||| ((v <<< (8 * o)) &&& m)

/-- A field that a store changes, in a state that takes it or not (R96). -/
def Ctx.writeField (c : Ctx) (changed frozenToo : Bool) (f : Ctx → Ctx) : Ctx :=
  if !changed then c
  else if c.state = 1 ∨ (frozenToo ∧ c.state = 5) then f c
  else { c with status := 2 }

/-- The two band fields (R96, R98): each written only where it changes; a value of 15 is ignored for its field, and a write in Frozen
that would empty the band is ignored as a whole. -/
def Ctx.writeBand (c : Ctx) (lo hi : Nat) : Ctx :=
  if lo = c.bandLow ∧ hi = c.bandHigh then c
  else if c.state ≠ 1 ∧ c.state ≠ 5 then { c with status := 2 }
  else
    let lo' := if lo = 15 then c.bandLow else lo
    let hi' := if hi = 15 then c.bandHigh else hi
    let bad := (lo == 15 && c.bandLow != 15) || (hi == 15 && c.bandHigh != 15)
    let c' := if bad then { c with status := 3 } else c
    if c.state = 5 ∧ hi' < lo' then { c with status := 3 } else { c' with bandLow := lo', bandHigh := hi' }

/-- Doubleword i of the block written (R96). -/
def Ctx.writeBlock (c : Ctx) (i : Nat) (w : Word) : Ctx :=
  match i with
  | 0 => c.writeBand (bits w 11 8) (bits w 15 12)
  | 2 =>
    let n := bits w 12 0
    c.writeField (n != c.kernelCount) false fun c => if 4096 < n then { c with status := 3 } else { c with kernelCount := n }
  | 6 => c.writeField (w != c.ceilBase) false fun c => { c with ceilBase := w }
  | 7 => c.writeField (w != c.handlerBase) true fun c => { c with handlerBase := w, handlerNew := c.handlerNew || c.state == 5 }
  | 8 => c.writeField (w != c.kernelBase) false fun c => { c with kernelBase := w }
  | 9 => c.writeField (w != c.consistBase) false fun c => { c with consistBase := w }
  | 10 => c.writeField (w != c.ptRoot) false fun c => { c with ptRoot := w }
  | 11 => c.writeField (w != c.saveBase) false fun c => { c with saveBase := w }
  | 12 => c.writeField (w != c.saveSize) false fun c => { c with saveSize := w }
  | 13 => c.writeField (w != c.blockWord 13) false fun c => { c with coaches := c.coaches.extractLsb' 64 128 ++ w }
  | 14 => c.writeField (w != c.blockWord 14) false fun c => { c with coaches := c.coaches.extractLsb' 128 64 ++ w ++ c.coaches.extractLsb' 0 64 }
  | 15 => c.writeField (w != c.blockWord 15) false fun c => { c with coaches := w ++ c.coaches.extractLsb' 0 128 }
  | _ => c

/-- The step that a command code starts (R97). -/
def commandStep (code : Nat) : Instr :=
  match code with
  | 1 => .create
  | 2 => .arm
  | 3 => .activate
  | 4 => .quiesce
  | 5 => .freeze
  | 6 => .thaw
  | 7 => .destroy
  | _ => .contextCommandInvalid

/-! ### Commands (R97, R106) -/

/-- A command ends with a status, in the update that clears busy (R97). -/
def State.done (s : State) (c status : Nat) : State := s.setCtx c { s.ctx c with status := status, busy := false }

/-- A command that the context may not take now: BUSY while another is in progress, else WRONG_STATE (R106). -/
def State.refuse (s : State) (c : Nat) : State :=
  s.setCtx c { s.ctx c with status := if (s.ctx c).busy then 1 else 2 }

/-- CREATE (R106, R428). -/
def create (c : Nat) (s : State) : State :=
  let x := s.ctx c
  if x.busy ∨ x.state ≠ 0 ∨ !s.sys.locked then s.refuse c else s.setCtx c { state := 1 }

/-- The logical coaches that a context names. -/
def Ctx.coachList (c : Ctx) : List Nat := (List.range 192).filter fun k => c.hasCoach k

/-- Every coach of the set is presented by its die (R102, R105). -/
def State.presented (s : State) (c : Ctx) : Bool := c.coachList.all fun k => decide (k % 24 < (s.die (k / 24)).coaches)

/-- A coach of the set is held by another context (R102). -/
def State.coachConflict (s : State) (c : Nat) : Bool :=
  s.ctxs.any fun e => e.1 != c && decide (2 ≤ e.2.state) && decide (e.2.state ≤ 5) && (e.2.coaches &&& (s.ctx c).coaches) != 0

/-- A ceiling entry fails R99. -/
def Ctx.badCeiling (c : Ctx) (w : Word) : Bool :=
  bit w 4 && (bits w 63 27 != 0 || bits w 15 5 != 0 || decide (bits w 3 0 < c.bandLow) || decide (c.bandHigh < bits w 3 0) ||
    decide (1535 < bits w 26 16) || !c.hasCoach (bits w 26 16 / 8))

/-- The ceiling table that 512 bytes give, or the first entry that fails (R99). -/
def Ctx.ceilTable (c : Ctx) (l : List Byte) : Except Nat (Tab Word) :=
  match (List.range 64).find? fun e => c.badCeiling (dwordAt l e) with
  | some e => .error e
  | none => .ok ((List.range 64).filterMap fun e => if bit (dwordAt l e) 4 then some (e, dwordAt l e) else none)

/-- The handler table that 64 bytes give (R100). -/
def handlerTable (l : List Byte) : Option (Tab Word) :=
  if (List.range 8).any fun e => bits (dwordAt l e) 5 0 != 0 then none
  else some ((List.range 8).filterMap fun e => if dwordAt l e = 0 then none else some (e, dwordAt l e))

/-- A command that meets a page under repair is in progress, and is carried out again later (R106). -/
def State.retryCommand (s : State) (c code : Nat) (d : Option Nat) (va : Nat) : State :=
  ((s.setCtx c { s.ctx c with busy := true, command := code }).parkRead d .firmware c va).add [{ ev := commandStep code, arg := { c := c, n := code }, due := s.clock + 1 }]

/-- A command that waited for a page is still in progress for its context. -/
def Ctx.retries (c : Ctx) (code state : Nat) : Bool := c.busy && c.command == code && c.state == state

/-- ARM carried out (R98-R103, R106): the checks in the order R102, R103, R98, R100, R99, then the tables loaded, the sequence counters and
the triggers at zero. -/
def armNow (c : Nat) (s : State) : State :=
  let x := s.ctx c
  if x.coaches = 0 ∨ !s.presented x then s.done c 3
  else if s.coachConflict c then s.done c 4
  else if x.saveSize.toNat < 5242880 * x.coachList.length then s.done c 5
  else if x.bandHigh < x.bandLow then s.done c 3
  else
    match s.readRange c x.handlerBase.toNat 64 with
    | .bad _ va => (s.noteWalk c va).done c 3
    | .wait d va => s.retryCommand c 2 d va
    | .ok hb =>
      match handlerTable hb with
      | none => s.done c 3
      | some h =>
        match s.readRange c x.ceilBase.toNat 512 with
        | .bad _ va => (s.noteWalk c va).done c 3
        | .wait d va => s.retryCommand c 2 d va
        | .ok cb =>
          match x.ceilTable cb with
          | .error _ => s.done c 3
          | .ok t =>
            s.setCtx c { x with
              state := 2, status := 0, busy := false, handlers := h, ceilings := t, seqs := [], outstanding := [], eventq := [], triggers := [], sums := [], handlerNew := false }

/-- ARM (R106), or its next attempt where it waited for a page. -/
def arm (c : Nat) (again : Bool) (s : State) : State :=
  let x := s.ctx c
  if again then (if x.retries 2 1 then armNow c s else s)
  else if x.busy ∨ x.state ≠ 1 then s.refuse c
  else armNow c s

/-- The scale-server settings that waited take effect, of the coaches that are in the context's set now (R429). -/
def State.takeServers (s : State) (c : Nat) : State :=
  let x := s.ctx c
  let l := x.servers.filter fun e => x.hasCoach e.1
  let s := s.setCtx c { x with servers := [], serving := l.foldl (fun t e => Tab.set t false e.1 e.2) x.serving }
  match s.sys.scaleLast with
  | some (n, k, _) => if n = c ∧ l.any (fun e => e.1 == k) then { s with sys := { s.sys with scaleResult := 1, scaleLast := none } } else s
  | none => s

/-- The queues of a context that were notified while it was not Active join the FIFO in their order (R335). -/
def State.joinFifo (s : State) (c : Nat) : State :=
  let mine := s.waiting.filter fun q => (Tab.get s.queues {} q).ctx == c
  let s := { s with waiting := s.waiting.filter fun q => !mine.contains q, notified := s.notified ++ mine
                    queues := Tab.mapVals s.queues fun q => if q.ctx = c ∧ q.notified then { q with queued := true, notified := false } else q }
  s.add [{ ev := .mapperBind }]

/-- What waited for the context to be Active goes on: releases that wait or are held, ready nodes, F4's events and notified queues (R106,
R107, R293, R312, R335). -/
def State.resumeWork (s : State) (c : Nat) : State :=
  let s := ((s.resumePlacing c).endHolds c).joinFifo c
  s.add (((List.range 8).map fun d => { ev := .issueInstance, arg := { d := d }, due := s.clock + 1 }) ++
    ((List.range 8).map fun k => { ev := .eventUnqueue, arg := { c := c, n := k, flag := true } }))

/-- ACTIVATE (R106). -/
def activate (c : Nat) (s : State) : State :=
  let x := s.ctx c
  if x.busy ∨ x.state ≠ 2 then s.refuse c
  else ((s.setCtx c { x with state := 3, status := 0 }).takeServers c).resumeWork c

/-- QUIESCE (R106). -/
def quiesce (c : Nat) (s : State) : State :=
  let x := s.ctx c
  if x.busy ∨ x.state ≠ 3 then s.refuse c
  else (s.setCtx c { x with state := 4, busy := true, command := 4 }).add [{ ev := .quiesceDrainDone, arg := { c := c }, due := s.clock + 1 }]

/-! ### What a context has outstanding (R104, R106) -/

/-- A step under way belongs to an operation of a context that firmware or an engine issued. -/
def stepOf (c : Nat) (h : Happening) : Bool :=
  match h.ev with
  | .homeStore | .atomicExecute | .copyAppend | .chainApply | .chainAck | .proxyAtomic | .faultQueueResend | .handleArrival | .scaleDelivery =>
    h.arg.req.ctx == c && h.arg.req.src != .host
  | .raiseEvent => h.arg.c == c
  | _ => false

/-- A release under way to a dispatcher. -/
def releaseOf (c : Nat) (h : Happening) : Bool :=
  match h.ev with
  | .releaseAccept | .releaseResend | .releaseForward => h.arg.rel.rel.ctx == c
  | _ => false

/-- A message between dies as the happening that it brings about. -/
def Msg.happening (m : Msg) : Happening := { ev := m.ev, arg := m.arg }

/-- Something held is on its way to a bogie that holds a frame of a context. -/
def State.arrivesAt (s : State) (c : Nat) (h : Happening) : Bool := h.ev == .heldWriteArrival && (s.bogie h.arg.g).stack.any fun f => f.ctx == c

/-- A copy queue that a hart serves for a context still holds something by a measure of it. -/
def State.queued (s : State) (c : Nat) (left : Nat → Nat → Bool) : Bool :=
  s.harts.any fun e => e.1 % 22 < 16 && e.2.work.any fun w => w.1 == c && left w.1 w.2

/-- An operation issued for a context is not complete (R104 step 4): a store, atomic, notification or remote request; a copy packet in hand;
a matrix command or pass; a packet of a command queue in hand. A packet that F1 holds waits for the context itself. -/
def State.issued (s : State) (c : Nat) : Bool :=
  (s.bogies.any fun e => e.2.transit.any fun t => t.ctx == c) ||
    (s.bogies.any fun e => e.2.draining.any fun d => d.frame.ctx == c) ||
    (s.harts.any fun e => (e.2.transit.any fun t => t.ctx == c && (match t.op with
      | .trap _ _ => false
      | _ => true)) || (match e.2.run with
      | some r => r.ctx == c
      | none => false)) ||
    (s.coaches.any fun e => (e.2.fifos.any fun q => q.2.any fun m => m.ctx == c) || (e.2.shadow.any fun r => r.2.cmd.ctx == c) ||
      e.2.jobs.any fun j => j.cmd.ctx == c) ||
    (s.remote.any fun r => r.req.ctx == c && !((s.ctx c).snap.owed.any fun e => e.1 == r.req.id)) ||
    (s.dies.any fun e => e.2.parked.any fun q => q.ctx == c && q.src != .host) ||
    (s.agenda.any fun h => stepOf c h || s.arrivesAt c h) || (s.messages.any fun m => stepOf c m.happening || s.arrivesAt c m.happening) ||
    (s.queues.any fun e => e.2.ctx == c && (e.2.begun.isSome || e.2.fetching || !e.2.fired.isEmpty)) || s.fwork.any fun w => w.ctx == c

/-- Anything that R106 counts as outstanding for the drain of Quiescing: of a copy queue every slot that is claimed. -/
def State.outstandingOf (s : State) (c : Nat) : Bool :=
  s.issued c || s.queued c s.claimed || (s.bogies.any fun e => e.2.stack.any fun f => f.ctx == c) || (s.dies.any fun e => e.2.store.any fun p => p.rel.ctx == c) ||
    (s.agenda.any fun h => releaseOf c h) || (s.messages.any fun m => releaseOf c m.happening) ||
    (s.dies.any fun e => e.2.groups.any fun g => g.2.ctx == c && (g.2.flight.any fun x => x.2 != 0)) ||
    (s.dies.any fun e => e.2.ready.any fun r => match Tab.find (s.die r.home).groups r.slot with
      | some g => g.ctx == c && g.state == 1
      | none => false) ||
    ((s.ctx c).outstanding.any fun e => !e.2.isEmpty) || ((s.ctx c).eventq.any fun e => !e.2.isEmpty) ||
    (s.consists.any fun e => e.1 / 64 == c && e.2.state == 2) || (s.queues.any fun e => e.2.ctx == c && e.2.held)

/-- QUIESCE_DRAIN_DONE (R106): nothing of the context remains. -/
def quiesceDrainDone (c : Nat) (s : State) : State :=
  let x := s.ctx c
  if x.state ≠ 4 ∨ x.freezing then s
  else if s.outstandingOf c then s.add [{ ev := .quiesceDrainDone, arg := { c := c }, due := s.clock + 1 }]
  else (s.setCtx c { x with state := 2 }).done c 0

/-! ### FREEZE and THAW (R104, R105) -/

/-- FREEZE (R104, R106). -/
def freeze (c : Nat) (s : State) : State :=
  let x := s.ctx c
  if x.busy ∧ x.state ≠ 4 then s.refuse c
  else if x.state = 2 then s.setCtx c { x with state := 5, status := 0 }
  else if x.state = 3 ∨ x.state = 4 then s.beginFreeze c
  else s.refuse c

/-- The context's bogies. -/
def State.ctxBogies (s : State) (c : Nat) : List Nat := (s.ctx c).coachList.flatMap fun k => (List.range 8).map fun b => k * 8 + b

/-- A bogie stands at a boundary with nothing of its own under way (R104). -/
def Bogie.still (b : Bogie) : Bool := !b.active && b.held.isEmpty && b.owed.isEmpty && b.draining.isEmpty

/-- FREEZE_COMPLETE (R104): every bogie is at a boundary and nothing issued is outstanding, of the copy queues no packet that is written: every
stack is saved with its FIFOs, and the state reads Frozen. A slot whose stack has not been restored yet stays as it is. -/
def freezeComplete (c : Nat) (s : State) : State :=
  let x := s.ctx c
  if !x.freezing then s
  else if s.issued c ∨ s.queued c s.packetsLeft ∨ (s.ctxBogies c).any (fun g => !(s.bogie g).still) then
    s.add [{ ev := .freezeComplete, arg := { c := c }, due := s.clock + 1 }]
  else
    let s := (s.ctxBogies c).foldl (fun s g =>
      if (s.bogie g).stack.isEmpty ∧ (s.fifoOf g).isEmpty ∧ ((s.bogie g).scale.isEmpty ∨ (Tab.find (s.ctx c).saved g).isSome) then s
      else s.saveBogie g c (s.bogie g).streak) s
    (s.setCtx c { s.ctx c with state := 5 }).done c 0

/-- THAW carried out (R100, R105, R106): refused where a coach was retired with no spare left (R432) or a new handler table fails; else Active, with busy
until every stack is restored. -/
def thawNow (c : Nat) (s : State) : State :=
  let x := s.ctx c
  let go := fun (s : State) (h : Tab Word) =>
    (((s.setCtx c { s.ctx c with state := 3, busy := true, command := 6, handlers := h, handlerNew := false }).takeServers c).joinFifo c).add
      [{ ev := .thawRestoreDone, arg := { c := c } }]
  if !s.presented x ∨ x.lost then s.done c 3
  else if !x.handlerNew then go s x.handlers
  else
    match s.readRange c x.handlerBase.toNat 64 with
    | .bad _ va => (s.noteWalk c va).done c 3
    | .wait d va => s.retryCommand c 6 d va
    | .ok l =>
      match handlerTable l with
      | none => s.done c 3
      | some h => go s h

/-- THAW (R106), or its next attempt where it waited for a page. -/
def thaw (c : Nat) (again : Bool) (s : State) : State :=
  let x := s.ctx c
  if again then (if x.retries 6 5 then thawNow c s else s)
  else if x.busy ∨ x.state ≠ 5 then s.refuse c
  else thawNow c s

/-- THAW_RESTORE_DONE (R105): each saved stack is restored onto the bogie whose slot holds it, then the pending releases are
dispatched. A slot that a RESUME is to restore elsewhere waits for it (R141). -/
def thawRestoreDone (c : Nat) (s : State) : State :=
  let x := s.ctx c
  if !x.thawing then s
  else
    let l := x.saved.filter fun e => !e.2.moved
    let s := s.setCtx c { x with saved := x.saved.filter fun e => e.2.moved, busy := false, status := 0 }
    let s := l.foldl (fun s e =>
      let s := s.restoreSlot e.1 e.2
      if 3 ≤ e.2.streak then
        s.add [{ ev := if (s.bogie e.1).closed then .quarantineMove else .streakLimit, arg := { g := e.1 } }]
      else s) s
    ((s.answerHeld c).resumeWork c).endDrains c

/-! ### DESTROY and the function-level reset (R106) -/

/-- A release of the context on its way between dies carries nothing any more (R330). -/
def Msg.drop (m : Msg) (c : Nat) : Msg := if releaseOf c m.happening then { m with ev := .storePerformed, arg := {} } else m

/-- A context's releases dropped, wherever they are held or queued (R330). -/
def State.dropReleases (s : State) (c : Nat) : State :=
  let mine := fun (t : Transit) => t.ctx == c && (match t.op with
    | .release _ false _ | .notify _ _ (.task _ _ _) => true
    | _ => false)
  let gs := (s.bogies.filter fun e => e.2.transit.any mine).map (fun e => Agent.bogie e.1) ++
    (s.harts.filter fun e => e.2.transit.any mine).map fun e => Agent.hart (e.1 / 22) (e.1 % 22)
  let s := { s with dies := Tab.mapVals s.dies fun d => { d with store := d.store.filter fun p => p.rel.ctx != c }
                    agenda := s.agenda.filter fun h => !releaseOf c h
                    links := Tab.mapVals s.links fun k => { k with ab := k.ab.mapMsgs (·.drop c), ba := k.ba.mapMsgs (·.drop c) }
                    ingress := Tab.mapVals s.ingress fun x => x.mapMsgs (·.drop c)
                    bogies := Tab.mapVals s.bogies fun b => { b with transit := b.transit.filter fun t => !mine t }
                    harts := Tab.mapVals s.harts fun h => { h with transit := h.transit.filter fun t => !mine t } }
  gs.foldl (fun s a => match a with
    | .hart d h => (s.pump a).again d h
    | .bogie _ => s.pump a) s

/-- DESTROY (R106): a scrub begins. -/
def destroy (c : Nat) (s : State) : State :=
  let x := s.ctx c
  if x.busy ∨ (x.state ≠ 1 ∧ x.state ≠ 2 ∧ x.state ≠ 5) then s.refuse c
  else
    (((s.setCtx c { x with state := 6, busy := true, command := 7, handlerNew := decide (x.state ≠ 1) }).abandonSnapshot c).dropReleases c).add
      [{ ev := .scrubDone, arg := { c := c } }]

/-- A bogie whose frames are those of a context under reset: its activation is rolled back and every frame ends; one that something
outstanding holds drains (R123). -/
def State.resetBogie (s : State) (g c : Nat) : State :=
  let b := s.bogie g
  if b.stack.any fun f => f.ctx == c then
    let r := if b.active then b.rollback else b
    let kept := b.stack.filter fun f => s.holdsFrame g f
    s.setBogie g { r with stack := [], phase := .idle, ckpt := none, streak := 0, replaces := none, draining := b.draining ++ kept.map fun f => { frame := f } }
  else s

/-- FUNCTION_LEVEL_RESET (R106): running activations are rolled back and their outboxes dropped, and every frame ends; issued operations
complete. -/
def functionLevelReset (c : Nat) (s : State) : State :=
  let x := s.ctx c
  if x.state = 0 ∨ x.state = 6 ∨ 192 < c then s
  else
    let s := (s.bogies.map (·.1)).foldl (fun s g => s.resetBogie g c) s
    (((s.setCtx c { x with state := 6, busy := true, command := 7, handlerNew := decide (x.state ≠ 1), saved := [] }).abandonSnapshot c).dropReleases c).add
      [{ ev := .scrubDone, arg := { c := c } }]

/-- A coach scrubbed: its scratchpads, tiles, scale files, weight slots and prefetch counters are zero (R106, R189, R271). -/
def State.scrubCoach (s : State) (k : Nat) : State :=
  let s := s.setCoach k { s.coach k with slots := [], tiles := [], lease := none }
  (List.range 8).foldl (fun s i =>
    let b := s.bogie (k * 8 + i)
    s.setBogie (k * 8 + i) { b with scratch := [], spoison := [], fresh := [], wiping := [], scale := [], pfBrought := 0, pfUsed := 0, pfWait := 0, pfEvict := 0 }) s

/-- Every cache line, first-level entry and cached translation of a context invalidated. -/
def State.scrubCaches (s : State) (c : Nat) : State :=
  { s with
    bogies := Tab.mapVals s.bogies fun b =>
      { b with l1 := b.l1.filter fun e => e.ctx != c, tlb := b.tlb.filter fun e => e.ctx != c, icache := b.icache.filter fun e => e.ctx != c }
    coaches := Tab.mapVals s.coaches fun k => { k with icache := k.icache.filter fun e => e.ctx != c }
    dies := Tab.mapVals s.dies fun d =>
      { d with rdc := d.rdc.filter fun e => e.ctx != c, remap := d.remap.filter fun a => a.ctx != c, trans := d.trans.filter fun e => e.ctx != c } }

/-- The groups of a context freed, their blocks not written (R316). -/
def State.scrubGroups (s : State) (c : Nat) : State :=
  s.dies.foldl (fun s e => (e.2.groups.filter fun g => g.2.ctx == c).foldl (fun s g => (s.unready e.1 g.1).freeGroup e.1 g.1) s) s

/-- SCRUB_DONE (R106): once no operation of the context is outstanding, its caches, coaches, pages, kernels, groups and consists are
scrubbed, and the number may be created again. A coach that another context has taken since is that context's (R102). -/
def scrubDone (c : Nat) (s : State) : State :=
  let x := s.ctx c
  if x.state ≠ 6 then s
  else if s.issued c ∨ s.queued c (fun c desc => (s.nextPacket c desc).isSome) then s.add [{ ev := .scrubDone, arg := { c := c }, due := s.clock + 1 }]
  else
    let s := s.scrubCaches c
    let free := x.coachList.filter fun k => x.handlerNew && !(s.ctxs.any fun e => e.1 != c && decide (2 ≤ e.2.state) && decide (e.2.state ≤ 5) && e.2.hasCoach k)
    let s := free.foldl (fun s k => s.scrubCoach k) s
    let s := s.scrubGroups c
    let s := (s.consists.filter fun e => e.1 / 64 == c && e.2.state != 0).foldl (fun s e => s.freeConsist c (e.1 % 64)) s
    let s := (s.leaves c).foldl (fun s l => s.writeLeaf l.key (l.word false)) s
    let s := { s with pageOps := s.pageOps.filter fun o => o.ctx != c
                      harts := Tab.mapVals s.harts fun h => { h with entered := Tab.del h.entered c, finished := Tab.del h.finished c } }
    s.setCtx c { x with state := 0, busy := false, status := 0, kernels := [], saved := [], eventq := [], outstanding := [], triggers := [], sums := [], ceilings := [], handlers := [], servers := [], serving := [], lost := false, handlerNew := false, snap := {} }

/-- CONTEXT_COMMAND_INVALID (R97, R106): a command code that the table does not hold; written while another command is in progress, it
completes with BUSY as every command does (log 123). -/
def contextCommandInvalid (c : Nat) (s : State) : State := s.refuse c

/-- A command carried out (R97). -/
def runCommand (code c : Nat) (s : State) : State :=
  match code with
  | 1 => create c s
  | 2 => arm c false s
  | 3 => activate c s
  | 4 => quiesce c s
  | 5 => freeze c s
  | 6 => thaw c false s
  | 7 => destroy c s
  | _ => contextCommandInvalid c s

/-- CONTEXT_FIELD_WRITE (R96-R98): a store of m bytes of the PF driver at offset off of a context's block; a nonzero command code
starts that command. DESIGN CHOICE: of a store that changes a field as well the field is written first, so that the command finds its new
value and the command's status stands (log 141). -/
def contextFieldWrite (c off m : Nat) (v : Word) (s : State) : State :=
  if 192 < c ∨ 128 ≤ off then s
  else
    let x := s.ctx c
    let w := mergeWord (x.blockWord (off / 8)) (off % 8) m v
    let s := s.setCtx c (x.writeBlock (off / 8) w)
    let code := if off / 8 = 0 then bits w 39 32 else 0
    if code = 0 then s else runCommand code c s

/-- CREATE. -/
def execCreate (s : State) : Host.Outcome State Fault Refusal := .next (create s.arg.c s)
/-- ARM: n is its command code where it is an attempt after a wait. -/
def execArm (s : State) : Host.Outcome State Fault Refusal := .next (arm s.arg.c (s.arg.n == 2) s)
/-- ACTIVATE. -/
def execActivate (s : State) : Host.Outcome State Fault Refusal := .next (activate s.arg.c s)
/-- QUIESCE. -/
def execQuiesce (s : State) : Host.Outcome State Fault Refusal := .next (quiesce s.arg.c s)
/-- FREEZE. -/
def execFreeze (s : State) : Host.Outcome State Fault Refusal := .next (freeze s.arg.c s)
/-- THAW: n is its command code where it is an attempt after a wait. -/
def execThaw (s : State) : Host.Outcome State Fault Refusal := .next (thaw s.arg.c (s.arg.n == 6) s)
/-- DESTROY. -/
def execDestroy (s : State) : Host.Outcome State Fault Refusal := .next (destroy s.arg.c s)
/-- CONTEXT_COMMAND_INVALID. -/
def execContextCommandInvalid (s : State) : Host.Outcome State Fault Refusal := .next (contextCommandInvalid s.arg.c s)
/-- CONTEXT_FIELD_WRITE: n is the offset, m the bytes. -/
def execContextFieldWrite (s : State) : Host.Outcome State Fault Refusal := .next (contextFieldWrite s.arg.c s.arg.n s.arg.m s.arg.val s)
/-- QUIESCE_DRAIN_DONE. -/
def execQuiesceDrainDone (s : State) : Host.Outcome State Fault Refusal := .next (quiesceDrainDone s.arg.c s)
/-- FREEZE_COMPLETE. -/
def execFreezeComplete (s : State) : Host.Outcome State Fault Refusal := .next (freezeComplete s.arg.c s)
/-- SCRUB_DONE. -/
def execScrubDone (s : State) : Host.Outcome State Fault Refusal := .next (scrubDone s.arg.c s)
/-- FUNCTION_LEVEL_RESET. -/
def execFunctionLevelReset (s : State) : Host.Outcome State Fault Refusal := .next (functionLevelReset s.arg.c s)
/-- THAW_RESTORE_DONE. -/
def execThawRestoreDone (s : State) : Host.Outcome State Fault Refusal := .next (thawRestoreDone s.arg.c s)

end Sys2Proof.Machine
end

