-- ==== Sys2Proof/Machine/Fetch.lean ====
section
/-! DEFINITION. The fetch of a word: the watchdog (R134), the code extent (R114), the page (R348) and the bytes (R55). -/

namespace Sys2Proof.Machine

/-- The first address of a frame's code extent (R108, R114). -/
def Header.codeStart (h : Header) : Nat := ((h.addr : Int) + h.codeOff).toNat

/-- A word lies in the code extent of a frame (R114). No word does at an address that is no multiple of 4, a record's resume_pc among
them (log 125). -/
def inExtent (h : Header) (pc : Nat) : Bool :=
  pc % 4 == 0 && decide (h.codeStart ≤ pc) && decide (pc + 4 ≤ h.codeStart + 4 * h.words)

/-- The n bytes that memory holds at a mapped address of a context; code is read where its home finds it (R349). -/
def State.codeBytes (s : State) (l : Leaf) (ctx va n : Nat) : Nat :=
  natOfBytes (if l.cls = 3 then (s.consist ctx l.place).bytes (s.consist ctx l.place).tail (l.chainOff va) n else s.readBytes (l.phys va) n)

/-- The word that memory holds at a mapped address of a context. -/
def State.codeWord (s : State) (l : Leaf) (ctx va : Nat) : BitVec 32 := BitVec.ofNat 32 (s.codeBytes l ctx va 4)

/-- The line of an instruction cache that holds an address of a context. -/
def codeLine (l : List CodeLine) (ctx va : Nat) : Option CodeLine := l.find? fun e => e.ctx == ctx && e.va == va / 64 * 64

/-- The line that the L1 instruction cache of bogie g, or its coach's instruction cache, holds of an address (R22). -/
def State.codeHit (s : State) (g : Nat) (ctx va : Nat) : Option CodeLine :=
  match codeLine (s.bogie g).icache ctx va with
  | some e => some e
  | none => codeLine (s.coach (coachOf g)).icache ctx va

/-- The word at an address of a line. -/
def CodeLine.word (e : CodeLine) (va : Nat) : BitVec 32 := e.data.extractLsb' (8 * (va % 64)) 32

/-- A line put into an instruction cache of n lines: a free choice of line may leave, and leaves a full one (log 120). -/
def State.keepCode (s : State) (n : Nat) (l : List CodeLine) (e : CodeLine) : List CodeLine × State :=
  let (i, s) := s.choose (if l.length < n then l.length + 1 else l.length)
  (dropAt l i ++ [e], s)

/-- The line that a fetch reads comes into the L1 instruction cache of bogie g, by way of its coach's; where neither held it, its home has
seen the alias that it was read by (R353). -/
def State.fillCode (s : State) (g ctx va : Nat) : State :=
  match codeLine (s.bogie g).icache ctx va, s.leaf ctx va with
  | none, some l =>
    let s := if (s.codeHit g ctx va).isSome then s else s.noteRead ctx va
    let c := s.coach (coachOf g)
    let e := (codeLine c.icache ctx va).getD { ctx := ctx, va := va / 64 * 64, data := BitVec.ofNat 512 (s.codeBytes l ctx (va / 64 * 64) 64) }
    let (k, s) := if (codeLine c.icache ctx va).isSome then (c.icache, s) else s.keepCode 8192 c.icache e
    let (j, s) := s.keepCode 512 (s.bogie g).icache e
    (s.setCoach (coachOf g) { c with icache := k }).setBogie g { s.bogie g with icache := j }
  | _, _ => s

/-- The fetch at pc of a task once count words of its activation have been fetched: WATCHDOG, then FETCH_BOUND, then PAGE_INVALID
or EXEC_PROT (R60, R114, R134). The instruction caches hold the word or memory does (R22); a page that is not present makes the fetch
wait, as a tail does that has not applied the line yet (R350, R366). -/
def fetchTask (s : State) (g : Nat) (b : Bogie) (f : Frame) (count : Nat) (pc : Nat) : Except Stop (BitVec 32) := do
  if f.window ≤ count then .error (.fault 0x0F 0 f.window)
  if !inExtent f.hdr pc then .error (.fault 0x03 pc 0)
  match ← b.translate f.ctx pc with
  | none => .error (.fault 0x09 pc 0)
  | some e =>
    if !e.x then .error (.fault 0x08 pc 0)
    match s.codeHit g f.ctx pc, s.leaf f.ctx pc with
    | some l, _ => .ok (l.word pc)
    | none, none => .error (.fault 0x09 pc 0)
    | none, some l =>
      let c := s.consist f.ctx l.place
      if !l.present ∨ l.migr ∨ (l.cls = 3 ∧ c.notYet c.tail (l.chainOff pc)) then .error (.line pc)
      .ok (s.codeWord l f.ctx pc)

end Sys2Proof.Machine
end

