-- ==== Sys2Proof/Machine/Queue.lean ====
section
/-! DEFINITION. Command queues (R331-R341): notifying, the mapper, the packets that F1 carries out, command lists, triggers and
teardown; and the registration of kernels (R110-R112), the launch of groups (R306-R308) and the loading of ceilings (R99). -/

namespace Sys2Proof.Machine

/-! ### Queues and descriptors (R331, R332) -/

/-- Command queue n. -/
def State.queue (s : State) (n : Nat) : Queue := Tab.get s.queues {} n
/-- Command queue n replaced. -/
def State.setQueue (s : State) (n : Nat) (q : Queue) : State := { s with queues := Tab.put s.queues n q }

/-- The number under which host memory lists an address of a process, by its PASID. -/
def hostKey (pasid va : Nat) : Nat := (pasid + 1) * 2 ^ 64 + va

/-- n bytes of a queue's descriptor or ring, in host memory or in the context's (R331). -/
def State.queueRead (s : State) (q : Queue) (va n : Nat) : RangeRead :=
  if q.host then .ok (Tab.range s.hostMem unlisted (hostKey q.pasid va) n) else s.readRange q.ctx va n

/-- Bytes of a queue's descriptor or ring written by F1, in their order, and what follows once all are performed (R332, R336, R338). -/
def State.queueStores (s : State) (q : Queue) (l : List (Nat × List Byte)) (after : List Happening) : State :=
  if q.host then
    State.add { s with hostMem := l.foldl (fun m e => Tab.setList m unlisted (hostKey q.pasid e.1) e.2) s.hostMem } after
  else s.fwStores q.ctx l after

/-- The fields of a command descriptor (R332). -/
structure CmdDesc where
  base  : Nat
  wr    : Nat
  rd    : Nat
  log2n : Nat
  fails : Nat
  bad   : Bool
  deriving DecidableEq, Repr

/-- A command descriptor by its 64 bytes. -/
def cmdDescOf (w : Vec) : CmdDesc :=
  { base := bits w 63 0, wr := bits w 95 64, rd := bits w 127 96, log2n := bits w 131 128, fails := bits w 191 160
    bad := bits w 511 192 != 0 || bits w 159 152 != 0 || bits w 135 132 != 0 || decide (bits w 131 128 < 4) || bits w 63 0 % 64 != 0 }

/-- The address of ring slot i. -/
def CmdDesc.slotAt (x : CmdDesc) (i : Nat) : Nat := x.base + 64 * (i % 2 ^ x.log2n)

/-- A queue's descriptor as F1 has it in hand, if it is readable and well formed: a page of it that is under repair or migrates holds F1's
writes back, and no knowledge of what it read before. -/
def State.cmdDesc (s : State) (q : Queue) : Option CmdDesc :=
  (if q.host then some (vecOf (Tab.range s.hostMem unlisted (hostKey q.pasid q.desc.toNat) 64)) else s.recordAt q.ctx q.desc.toNat).bind fun w =>
    if (cmdDescOf w).bad then none else some (cmdDescOf w)

/-! ### Teardown (R341) -/

/-- A packet of queue n that F1 has fetched and not begun, or holds, or its timeout. -/
def packetOf (n : Nat) (h : Happening) : Bool :=
  match h.ev with
  | .nop | .launchTask | .launchGroup | .queueCopy | .signalStore | .signalAdd | .signalTrigger | .wait | .waitTimeout | .skipIf | .jump
  | .call | .returnList | .armTrigger | .snapshotCut | .registerKernel | .setCeilings => h.arg.n == n && !h.arg.flag
  | _ => false

/-- The slot of a queue freed, so that the mapper may bind another. -/
def State.freeSlot (s : State) (n : Nat) : State :=
  match (s.queue n).slot with
  | some i => ({ s with slots := Tab.del s.slots i }.setQueue n { s.queue n with slot := none }).add [{ ev := .mapperBind }]
  | none => s

/-- A packet of queue n that has begun and whose effect is still to come, as no packet of the queue any more: its status and rd
are not written (R341). A drain that the packet began itself ends without it. -/
def beyond (n : Nat) (h : Happening) : Happening :=
  if packetOf n h then { h with arg := { h.arg with n := 1024, flag := true } } else h

/-- A packet of queue n that a teardown drops: one that is not begun, a control or WAIT packet, which has no effect outside the
queue, and one that is held, or waits for its own drain (R341). -/
def packetDropped (n : Nat) (fetching held : Bool) (h : Happening) : Bool :=
  packetOf n h && (fetching || held || (match h.ev with
    | .wait | .waitTimeout | .skipIf | .jump | .call | .returnList | .nop => true
    | _ => h.ev == .registerKernel && h.arg.m == 1))

/-- What a teardown leaves of firmware's stores: of a retiring packet of queue n none more, for its status and rd are not written; those of
an effect go on (R341). -/
def FwWork.beyond (n : Nat) (w : FwWork) : FwWork :=
  if w.after.any fun h => h.ev == .mapperBind && h.arg.n == n && h.arg.m == 2 then { w with stores := [], after := [] }
  else { w with after := w.after.map (Sys2Proof.Machine.beyond n) }

/-- F1 waits for the page of a fetch of queue n, which is outstanding until it looks again. -/
def State.fetchParked (s : State) (n : Nat) : Bool :=
  s.agenda.any fun h => h.ev == .mapperBind && h.arg.n == n && h.arg.flag && h.arg.m == 1

/-- A queue torn down (R341): Draining while a fetch is outstanding, else Disabled. What its packets did stands, and one that has
begun completes its effect. -/
def State.tearDown (s : State) (n : Nat) : State :=
  let q := s.queue n
  let busy := q.fetching || s.fetchParked n
  let s := { s with
    notified := s.notified.filter fun x => x != n
    waiting := s.waiting.filter fun x => x != n
    agenda := (s.agenda.filter fun h => !packetDropped n q.fetching q.held h).map (beyond n)
    fwork := s.fwork.map (FwWork.beyond n)
    ctxs := Tab.mapVals s.ctxs fun c => { c with kernels := Tab.mapVals c.kernels fun k => if k.queue = n then { k with queue := 1024 } else k } }
  let s := s.setQueue n { q with state := if busy then 2 else 0, fetching := busy, notified := false, queued := false, point := {}, skips := 0, waitFrom := none, held := false, begun := none }
  if busy then s.add [{ ev := .lastFetchReturn, arg := { n := n } }] else s.freeSlot n

/-- A queue that F1 cannot execute is torn down, and F4 logs its number (R332). -/
def State.failQueue (s : State) (n : Nat) : State :=
  State.tearDown { s with errlog := s.errlog ++ [{ code := 0, ctx := (s.queue n).ctx, addr := n }] } n

/-- QUEUE_ENABLE (R331): taken in Disabled only. -/
def queueEnable (n : Nat) (s : State) : State :=
  let q := s.queue n
  if q.state = 0 ∧ n < 1024 then
    s.setQueue n { q with state := 1, notified := false, queued := false, slot := none, fetching := false, retired := 0, point := {}, skips := 0, waitFrom := none, held := false, begun := none, fails := none }
  else s

/-- QUEUE_TEARDOWN (R331, R341): taken in Enabled only. -/
def queueTeardown (n : Nat) (s : State) : State := if (s.queue n).state = 1 then s.tearDown n else s

/-- PASID_INVALIDATE (R341): every queue in host memory under that PASID is torn down. -/
def pasidInvalidate (pasid : Nat) (s : State) : State :=
  (s.queues.filter fun e => e.2.host && e.2.pasid == pasid).foldl (fun s e => queueTeardown e.1 s) s

/-- LAST_FETCH_RETURN (R341): what a Draining queue's last fetch brings is discarded, and the queue is Disabled. -/
def lastFetchReturn (n : Nat) (s : State) : State :=
  if (s.queue n).state = 2 then (s.setQueue n { s.queue n with state := 0, fetching := false }).freeSlot n else s

/-! ### Notifying (R333, R335) -/

/-- QUEUE_NOTIFY (R333): a write of m bytes at an offset of the notify region of a function, 0 the PF's. -/
def queueNotify (c off m : Nat) (s : State) : State :=
  let n := off / 8
  let q := s.queue n
  if 1024 ≤ n ∨ m = 0 then s
  else if q.state ≠ 1 ∨ (c ≠ 0 ∧ q.ctx ≠ c) then { s with errlog := s.errlog ++ [{ code := 0, ctx := c, addr := n }] }
  else if q.queued ∨ q.slot.isSome ∨ q.notified then s
  else if (s.ctx q.ctx).state = 3 then
    ({ s with notified := s.notified ++ [n] }.setQueue n { q with queued := true }).add [{ ev := .mapperBind }]
  else { s with waiting := s.waiting ++ [n] }.setQueue n { q with notified := true }

/-! ### The mapper (R335) -/

/-- F1 fetches packets of a context: in Active, with no FREEZE under way (R104, R106, R335). -/
def Ctx.fetches (c : Ctx) : Bool := c.state == 3 && !c.freezing

/-- The step that a packet type and its op start (R337), none for a type outside the table. -/
def packetStep (p : Vec) : Option Instr :=
  match bits p 7 0 with
  | 1 => some .nop
  | 2 => some .launchTask
  | 3 => some .launchGroup
  | 4 => some .queueCopy
  | 5 => some (match (dword p 3).toNat % 4 with
    | 1 => .signalAdd
    | 2 => .signalTrigger
    | _ => .signalStore)
  | 6 => some .wait
  | 7 => some .skipIf
  | 8 => some .jump
  | 9 => some .call
  | 10 => some .returnList
  | 11 => some .armTrigger
  | 12 => some .snapshotCut
  | 13 => some .registerKernel
  | 14 => some .setCeilings
  | _ => none

/-- F1 looks at a bound queue again later. -/
def State.lookAgain (s : State) (n : Nat) : State := s.add [{ ev := .mapperBind, arg := { n := n, flag := true }, due := s.clock + 1 }]

/-- A fetch waits for its page, and is made again later (R350, R355). -/
def State.parkFetch (s : State) (n : Nat) (d : Option Nat) (va : Nat) : State :=
  (s.parkRead d .firmware (s.queue n).ctx va).add [{ ev := .mapperBind, arg := { n := n, flag := true, m := 1 }, due := s.clock + 1 }]

/-- The stores for a packet of a queue that ended with a status other than OK or SKIPPED (R336): lstatus, lcause and fails, which F1 counts
on from what the descriptor held at the first of them. -/
def State.failStores (s : State) (n status cause : Nat) : List (Nat × List Byte) × State :=
  let q := s.queue n
  match s.cmdDesc q with
  | some x =>
    let k := (q.fails.getD x.fails + 1) % 2 ^ 32
    ([(q.desc.toNat + 17, [BitVec.ofNat 8 status, BitVec.ofNat 8 cause]), (q.desc.toNat + 20, bytesOfNat 4 k)], s.setQueue n { q with fails := some k })
  | none => ([], s)

/-- The failure of a fired packet written to its queue (R340). -/
def State.noteFail (s : State) (n status cause : Nat) : State :=
  let (l, s) := s.failStores n status cause
  s.queueStores (s.queue n) l []

/-- One more packet of a bound queue has retired: the slot goes on, or unbinds the queue after 16 with others waiting (R335). -/
def State.countRetired (s : State) (n : Nat) : State :=
  let q := s.queue n
  let s := s.setQueue n { q with retired := q.retired + 1, begun := none, held := false, waitFrom := none }
  if 16 ≤ q.retired + 1 ∧ !s.notified.isEmpty then s.add [{ ev := .mapperUnbind, arg := { n := n } }]
  else s.add [{ ev := .mapperBind, arg := { n := n, flag := true } }]

/-- A bound queue has retired 16 packets and others wait for a slot (R335). -/
def State.quantumOver (s : State) (n : Nat) : Bool := (s.queue n).slot.isSome && decide (16 ≤ (s.queue n).retired) && !s.notified.isEmpty

/-- A packet of queue n is in hand. -/
def State.inHand (s : State) (n : Nat) : Bool := s.agenda.any fun h => packetOf n h && h.ev != .waitTimeout

/-- The stores with which the packet in hand of a queue retires: once they are performed the next may begin (R335, R338). -/
def State.retireBy (s : State) (n : Nat) (l : List (Nat × List Byte)) : State :=
  (s.setQueue n { s.queue n with begun := some 0 }).queueStores (s.queue n) l [{ ev := .mapperBind, arg := { n := n, flag := true, m := 2 } }]

/-- The stores of a packet's failure, none where its status is OK or SKIPPED. -/
def State.endStores (s : State) (n status cause : Nat) : List (Nat × List Byte) × State :=
  if status = 1 ∨ status = 5 then ([], s) else s.failStores n status cause

/-- The ring packet in slot rd retires (R336): d7, then d0 to d6 zero, then the failure, then rd. -/
def State.retireRing (s : State) (n status cause : Nat) : State :=
  let q := s.queue n
  match s.cmdDesc q with
  | none => s.failQueue n
  | some x =>
    let a := x.slotAt x.rd
    let (l, s) := s.endStores n status cause
    s.retireBy n ([(a + 56, bytesOfNat 8 (status + 256 * cause)), (a, bytesOfNat 56 0)] ++ l ++ [(q.desc.toNat + 12, bytesOfNat 4 (x.rd + 1))])

/-- The packet at a queue's execution point retires (R336, R339); a queue torn down since writes nothing. -/
def State.retire (s : State) (n status cause : Nat) : State :=
  let q := s.queue n
  if q.state ≠ 1 then s
  else
    match q.point.list with
    | none => s.retireRing n status cause
    | some a =>
      let s := s.setQueue n { q with point := { q.point with list := some (a + 64) } }
      let (l, s) := s.endStores n status cause
      s.retireBy n l

/-- The packet fetched at an address is carried out next; one to be skipped, or of a type outside the table, ends (R337). -/
def State.takePacketAt (s : State) (n va : Nat) (p : Vec) : State :=
  let q := s.queue n
  if q.skips ≠ 0 then (s.setQueue n { q with skips := q.skips - 1 }).retire n 5 0
  else
    match packetStep p with
    | none => s.retire n 2 0
    | some ev => (s.setQueue n { q with fetching := true }).add [{ ev := ev, arg := { c := q.ctx, n := n, va := va, pkt := p } }]

/-- F1 reads a bound queue's next packet (R334, R339). An empty ring unbinds the queue; an unfinished slot is read again; a queue whose
16 packets are over gives its slot up (R335). The host may refuse the read of its memory under a PASID (log 87). -/
def State.fetchNext (s : State) (n : Nat) : State :=
  let q := s.queue n
  if q.state ≠ 1 ∨ q.slot.isNone ∨ q.fetching ∨ q.begun.isSome ∨ q.held ∨ s.inHand n then s
  else if s.quantumOver n then s.add [{ ev := .mapperUnbind, arg := { n := n } }]
  else if !(s.ctx q.ctx).fetches then s.lookAgain n
  else
    match q.point.list with
    | some a =>
      match s.readRange q.ctx a 64 with
      | .wait d va => s.parkFetch n d va
      | .bad _ va => (s.noteWalk q.ctx va).failQueue n
      | .ok l => s.takePacketAt n a (vecOf l)
    | none =>
      let (refused, s) := if q.host then s.choose 2 else (0, s)
      match (if refused ≠ 0 then .bad 0x09 (2 ^ 56) else s.queueRead q q.desc.toNat 64) with
      | .wait d va => s.parkFetch n d va
      | .bad _ va => (s.noteWalk q.ctx va).failQueue n
      | .ok l =>
        let x := cmdDescOf (vecOf l)
        if x.bad then s.failQueue n
        else if x.wr = x.rd then s.add [{ ev := .mapperUnbind, arg := { n := n, flag := true } }]
        else
          match s.queueRead q (x.slotAt x.rd) 64 with
          | .wait d va => s.parkFetch n d va
          | .bad _ va => (s.noteWalk q.ctx va).failQueue n
          | .ok l => if bits (vecOf l) 7 0 = 0 then s.lookAgain n else s.takePacketAt n (x.slotAt x.rd) (vecOf l)

/-- MAPPER_BIND (R335): a free slot takes the head of the notified FIFO, and F1 reads its next packet; or F1 reads the next packet of
a queue that is bound (flag); or the stores of a packet that retires have been performed (m 2). -/
def mapperBind (a : Args) (s : State) : State :=
  if a.flag then (if a.m ≠ 2 then s.fetchNext a.n else if (s.queue a.n).begun = some 0 then s.countRetired a.n else s)
  else
    match s.notified, (List.range 32).find? (fun i => (Tab.find s.slots i).isNone) with
    | m :: rest, some i =>
      let s := { s with notified := rest, slots := Tab.put s.slots i m }
      ((s.setQueue m { s.queue m with queued := false, slot := some i, retired := 0 }).fetchNext m).add [{ ev := .mapperBind }]
    | _, _ => s

/-- MAPPER_UNBIND (R335): a queue leaves its slot, its execution point saved; it rejoins the FIFO at its tail, or, with an empty ring
and no list, is idle until it is notified again. A case that does not hold any more unbinds nothing. -/
def mapperUnbind (n : Nat) (idle : Bool) (s : State) : State :=
  let q := s.queue n
  if q.slot.isNone ∨ q.state ≠ 1 then s
  else if idle then
    match s.cmdDesc q with
    | some x => if x.wr = x.rd then s.freeSlot n else s.fetchNext n
    | none => s.failQueue n
  else if s.notified.isEmpty ∨ (q.retired < 16 ∧ q.waitFrom.isNone) ∨ q.begun.isSome ∨ (!q.held && s.inHand n) then s.fetchNext n
  else { s with notified := s.notified ++ [n] }.setQueue n { q with queued := true } |>.freeSlot n

/-! ### Carrying a packet out (R337) -/

/-- Doublewords 1 to 6 of a packet hold no bit outside these masks, and d0 none above its type. -/
def fieldsOk (p : Vec) (masks : List Nat) : Bool :=
  bits p 63 8 == 0 && (List.range 6).all fun i => (dword p (i + 1)) &&& ~~~(BitVec.ofNat 64 ((masks[i]?).getD 0)) == 0

/-- All 64 bits. -/
def m64 : Nat := 2 ^ 64 - 1

/-- The packet is begun: what was fetched is in hand. -/
def State.begin' (s : State) (a : Args) : State := if a.flag then s else s.setQueue a.n { s.queue a.n with fetching := false }

/-- The packet ends with a status and cause; of a trigger's saved packet only a failure is written, to the arming queue (R340). -/
def State.finishPacket (s : State) (a : Args) (status cause : Nat) : State :=
  if a.flag then (if status = 1 ∨ status = 5 ∨ (s.queue a.n).state ≠ 1 then s else s.noteFail a.n status cause) else s.retire a.n status cause

/-- The packet ends once the request of that number is answered. -/
def State.awaitPacket (s : State) (a : Args) (id : Nat) : State :=
  let q := s.queue a.n
  if 1024 ≤ a.n then s
  else if a.flag then s.setQueue a.n { q with fired := q.fired ++ [id] } else s.setQueue a.n { q with begun := some id }

/-- The answer to a request of F1 for a packet, none where the number is no packet's (R337). -/
def State.queueAnswer (s : State) (id code : Nat) : Option State :=
  match s.queues.find? fun e => e.2.begun == some id || e.2.fired.contains id with
  | none => none
  | some (n, q) =>
    if q.begun = some id then some (s.retire n (if code = 0 then 1 else 4) code)
    else
      let s := s.setQueue n { q with fired := q.fired.filter fun x => x != id }
      some (if code = 0 ∨ q.state ≠ 1 then s else s.noteFail n 4 code)

/-- The packet is tried again a clock later. -/
def State.repeatPacket (s : State) (a : Args) (ev : Instr) : State := s.add [{ ev := ev, arg := a, due := s.clock + 1 }]

/-- The packet ends once firmware's stores for it are performed (R338). -/
def State.finishAfter (s : State) (a : Args) (l : List (Nat × List Byte)) (status cause : Nat) : State :=
  (if a.flag ∨ 1024 ≤ a.n then s else s.setQueue a.n { s.queue a.n with begun := some 0 }).fwStores a.c l
    [{ ev := .nop, arg := { a with m := 2, h := status, d := cause } }]

/-- A packet held: it keeps its queue, which gives its slot up to others as it does between packets (R335). -/
def State.holdPacket (s : State) (a : Args) (ev : Instr) : State :=
  let s := if a.flag then s else s.setQueue a.n { s.queue a.n with held := true }
  let s := if !a.flag && s.quantumOver a.n && !s.agenda.any (fun h => h.ev == .mapperUnbind && h.arg.n == a.n) then
      s.add [{ ev := .mapperUnbind, arg := { n := a.n } }] else s
  s.repeatPacket a ev

/-- A held packet of a queue that is not bound waits in its execution point (R335). -/
def State.heldAway (s : State) (a : Args) : Bool := !a.flag && (s.queue a.n).held && (s.queue a.n).slot.isNone

/-- The context of a held packet is scrubbed (R112, R306): the packet ends REJECTED, cause 0, and F4 logs it. -/
def State.scrubbedPacket (s : State) (a : Args) : State :=
  State.finishPacket { s with errlog := s.errlog ++ [{ code := 0, ctx := a.c, addr := a.va }] } a 3 0

/-- The context is being scrubbed, or has been. -/
def State.scrubbed (s : State) (c : Nat) : Bool := (s.ctx c).state == 6 || (s.ctx c).state == 0

/-- A store of F1 sent where its bytes live (R338). -/
def State.hubStore (s : State) (q : Req) (va : Nat) (bytes : Tab Byte) : State :=
  if region va = .peerWindow then s.sendRemote s.hub va q
  else
    match s.leaf q.ctx va with
    | none => s.lost s.hub q
    | some l =>
      if l.cls = 4 then s.deviceStore s.hub epUnit q l bytes
      else if l.cls = 3 then s.toHead s.hub epUnit q l
      else s.post s.hub epUnit (l.home va) q.ctx va (writeSlots bytes) .homeStore { d := l.home va, req := q }

/-- An atomic of F1 sent to the unit that executes it (R197, R338); of a device page or another module, die 0's proxy bogie. -/
def State.hubAtomic (s : State) (q : Req) (va : Nat) : State :=
  let proxy := s.post s.hub epUnit 0 q.ctx va 2 .proxyAtomic { d := 0, req := q }
  if region va = .peerWindow then proxy
  else
    match s.leaf q.ctx va with
    | none => s.lost s.hub q
    | some l =>
      if l.cls = 4 then proxy
      else if l.cls = 3 then s.toHead s.hub epUnit q l
      else s.post s.hub epUnit (l.home va) q.ctx va 2 .atomicExecute { d := l.home va, req := q }

/-- The eight bytes of an acquire load of F1: memory, or a device page. -/
def State.hubLoad (s : State) (ctx va : Nat) : RangeRead :=
  match (if region va = .glob then s.leaf ctx va else none) with
  | some l => if l.cls = 4 ∧ l.rd then .ok (bytesOfNat 8 (s.deviceRead l va 8).toNat) else s.readRange ctx va 8
  | none => .bad 0x09 va

/-- The doubleword that a WAIT or SKIP_IF loads (R337), of device memory or of another module; or the packet has ended, or is tried again:
m is then the number of the load that another module has not answered. -/
def State.packetLoad (s : State) (a : Args) (ev : Instr) : State × Option Word :=
  let va := (dword a.pkt 1).toNat
  if a.m ≠ 0 then
    match Tab.find s.answers a.m with
    | none => (s.repeatPacket a ev, none)
    | some (v, code) =>
      let s : State := { s with answers := Tab.del s.answers a.m }
      if code = 0 then (s, some v) else (s.finishPacket a 4 code, none)
  else if region va = .peerWindow ∧ bit (peerEntry s a.c va) 0 ∧ bit (peerEntry s a.c va) 1 then
    let (id, s) := s.newId
    ((s.sendRemote s.hub va { id := id, src := .firmware, ctx := a.c, op := .load va 8 true }).repeatPacket { a with m := id } ev, none)
  else
    match s.hubLoad a.c va with
    | .bad code va => ((s.noteWalk a.c va).finishPacket a 4 code, none)
    | .wait d va => ((s.parkRead d .firmware a.c va).repeatPacket a ev, none)
    | .ok l => (s, some (BitVec.ofNat 64 (natOfBytes l)))

/-- NOP (R337); or (m 2) the end of a packet whose stores have been performed, with its status h and cause d. -/
def nop (a : Args) (s : State) : State :=
  if a.m = 2 then s.finishPacket a a.h a.d
  else
    let s := s.begin' a
    if fieldsOk a.pkt [] then s.finishPacket a 1 0 else s.finishPacket a 2 0

/-- LAUNCH_TASK (R319, R337): without expl the record's own priority is read now, 0 where its page is not mapped readable. -/
def launchTask (a : Args) (s : State) : State :=
  let s := s.begin' a
  let d2 := dword a.pkt 2
  let rec' := (dword a.pkt 1).toNat
  let die := bits d2 43 40
  if !fieldsOk a.pkt [m64, 0xF1FFFFFFFFF] ∨ rec' % 64 ≠ 0 ∨ (7 < die ∧ die ≠ 15) then s.finishPacket a 2 0
  else
    match (if bit d2 36 then .ok [] else s.readRange a.c rec' 64) with
    | .wait d va => (s.parkRead d .firmware a.c va).repeatPacket a .launchTask
    | .bad 0x10 _ => s.finishPacket a 4 0x10
    | x =>
      let (id, s) := s.newId
      let d := if die = 15 then ((List.range 8).find? fun e => s.dieOfCtx (s.ctx a.c) e).getD 0 else die
      let prio := match x with
        | .ok l => if bit d2 36 then bits d2 35 32 else bits (dword (vecOf l) 0) 19 16
        | _ => 0
      let r : Release := { type := 1, prio := prio, ctx := a.c, arg := d2.setWidth 32, record := rec' }
      (s.awaitPacket a id).post s.hub epUnit d a.c rec' 2 .releaseAccept { d := d, rel := { id := id, src := .firmware, rel := r } }

/-- COPY (R223, R337): the packet read now is appended to the copy queue. -/
def queueCopy (a : Args) (s : State) : State :=
  let s := s.begin' a
  let desc := (dword a.pkt 1).toNat
  let src := (dword a.pkt 2).toNat
  if !fieldsOk a.pkt [m64, m64] ∨ desc % 64 ≠ 0 ∨ src % 64 ≠ 0 then s.finishPacket a 2 0
  else
    if s.restricting a.c desc then s.repeatPacket a .queueCopy
    else
    match (if region desc = .glob then s.copyTarget a.c desc else some 0x09) with
    | some code => (s.noteWalk a.c desc).finishPacket a 4 code
    | none =>
      match s.readRange a.c src 64 with
      | .bad code va => (s.noteWalk a.c va).finishPacket a 4 code
      | .wait d va => (s.parkRead d .firmware a.c va).repeatPacket a .queueCopy
      | .ok l =>
        let (id, s) := s.newId
        let q : Req := { id := id, src := .firmware, ctx := a.c, op := .copy desc (vecOf l) }
        let home := s.homeOr a.c desc 0
        (s.awaitPacket a id).post s.hub epUnit home a.c desc 5 .copyAppend { d := home, req := q }

/-- SIGNAL with op 0 (R337): a release store of a doubleword. Op 3 is MALFORMED. -/
def signalStore (a : Args) (s : State) : State :=
  let s := s.begin' a
  let va := (dword a.pkt 1).toNat
  if !fieldsOk a.pkt [m64, m64, 3] ∨ bits (dword a.pkt 3) 1 0 ≠ 0 ∨ va % 8 ≠ 0 then s.finishPacket a 2 0
  else
    if s.restricting a.c va then s.repeatPacket a .signalStore
    else
    match s.copyTarget a.c va with
    | some code => (s.noteWalk a.c va).finishPacket a 4 code
    | none =>
      let (id, s) := s.newId
      let bytes := placed va (bytesOfNat 8 (dword a.pkt 2).toNat)
      (s.awaitPacket a id).hubStore { id := id, src := .firmware, ctx := a.c, op := .store bytes true false none } va bytes

/-- SIGNAL with op 1 (R337): an atomic add with release. -/
def signalAdd (a : Args) (s : State) : State :=
  let s := s.begin' a
  let va := (dword a.pkt 1).toNat
  if !fieldsOk a.pkt [m64, m64, 3] ∨ va % 8 ≠ 0 then s.finishPacket a 2 0
  else
    if s.restricting a.c va then s.repeatPacket a .signalAdd
    else
    match s.copyTarget a.c va with
    | some code => (s.noteWalk a.c va).finishPacket a 4 code
    | none =>
      let (id, s) := s.newId
      (s.awaitPacket a id).hubAtomic { id := id, src := .firmware, ctx := a.c, op := .atomic va 8 (.int 0) (dword a.pkt 2) 0 2 .reg } va

/-! ### Triggers (R340) -/

/-- A trigger of a context evaluated: at its threshold it is disarmed and its saved packet is carried out, after those that fired before
it. -/
def State.evalTrigger (s : State) (c tag : Nat) : State :=
  let x := s.ctx c
  let t := Tab.get x.triggers {} tag
  if t.armed ∧ t.threshold.toNat ≤ t.counter.toNat then
    let s := s.setCtx c { x with triggers := Tab.put x.triggers tag { t with counter := t.counter - t.threshold, armed := false } }
    match packetStep t.pkt with
    | some ev => s.add [{ ev := ev, arg := { c := c, n := t.queue, pkt := t.pkt, flag := true }, lane := some (7000, c) }]
    | none => s
  else s

/-- What came to a context's triggers in one clock: in ascending tag order each is evaluated for its arming, and then its counter takes the
sum of the additions and is evaluated once (R340, log 59). -/
def State.sumClock (s : State) (c clock : Nat) : State :=
  let mine := (s.ctx c).sums.filter fun e => e.2.1 == clock
  let s := s.setCtx c { s.ctx c with sums := (s.ctx c).sums.filter fun e => e.2.1 != clock }
  ((List.range 256).filter fun tag => mine.any fun e => e.1 == tag).foldl (fun s tag =>
    let here := (mine.filter fun e => e.1 == tag).map (·.2.2)
    let s := if here.contains none then s.evalTrigger c tag else s
    let added := here.filterMap id
    if added.isEmpty then s
    else
      let x := s.ctx c
      let t := Tab.get x.triggers {} tag
      (s.setCtx c { x with triggers := Tab.put x.triggers tag { t with counter := t.counter + added.foldl (· + ·) 0 } }).evalTrigger c tag) s

/-- What came to the triggers in every earlier clock evaluated, clock by clock. -/
def State.sumTriggers (s : State) (c : Nat) : State :=
  ((((s.ctx c).sums.map fun e => e.2.1).filter fun k => decide (k < s.clock)).eraseDups).foldl (fun s k => s.sumClock c k) s

/-- An addition (some) or an arming (none) of a trigger, which counts with those of its clock once the clock has passed. -/
def State.touchTrigger (s : State) (c tag : Nat) (v : Option Word) : State :=
  (s.setCtx c { s.ctx c with sums := (s.ctx c).sums ++ [(tag, s.clock, v)] }).add
    [{ ev := .signalTrigger, arg := { c := c, n := 1024, m := 1, flag := true }, due := s.clock + 1 }]

/-- An amount added to a trigger's counter. -/
def State.addTrigger (s : State) (c tag : Nat) (v : Word) : State := s.touchTrigger c tag (some v)

/-- A packet that ends once what it did to a trigger has been evaluated. -/
def State.afterTrigger (s : State) (a : Args) : State := s.add [{ ev := .signalTrigger, arg := { a with m := 2 }, due := s.clock + 1 }]

/-- SIGNAL with op 2 (R337, R340); or (m 1) what came to the triggers in the clocks that have passed is evaluated, and (m 2) the packet that
waited for that ends. -/
def signalTrigger (a : Args) (s : State) : State :=
  if a.m = 1 then s.sumTriggers a.c
  else if a.m = 2 then (s.sumTriggers a.c).finishPacket a 1 0
  else
    let s := s.begin' a
    if !fieldsOk a.pkt [0xFF, m64, 3] then s.finishPacket a 2 0
    else (s.addTrigger a.c (dword a.pkt 1).toNat (dword a.pkt 2)).afterTrigger a

/-- ARM_TRIGGER (R340): the packet to save is read when it executes; the trigger is evaluated for it with those of its clock, and for an
arming of its own before that one is replaced. -/
def armTrigger (a : Args) (s : State) : State :=
  let s := s.begin' a
  let src := (dword a.pkt 1).toNat
  let tag := bits (dword a.pkt 2) 7 0
  if !fieldsOk a.pkt [m64, 0xFF, m64] ∨ dword a.pkt 3 = 0 then s.finishPacket a 2 0
  else
    match s.readRange a.c src 64 with
    | .bad code va => (s.noteWalk a.c va).finishPacket a 4 code
    | .wait d va => (s.parkRead d .firmware a.c va).repeatPacket a .armTrigger
    | .ok l =>
      let p := vecOf l
      if bits p 7 0 < 2 ∨ 5 < bits p 7 0 then s.finishPacket a 2 0
      else
        let s := s.sumTriggers a.c
        let s := if (s.ctx a.c).sums.any fun e => e.1 == tag && e.2.2.isNone then s.evalTrigger a.c tag else s
        let x := s.ctx a.c
        let t := Tab.get x.triggers {} tag
        let s := s.setCtx a.c { x with triggers := Tab.put x.triggers tag { t with armed := true, threshold := dword a.pkt 3, pkt := p, queue := a.n } }
        (s.touchTrigger a.c tag none).afterTrigger a

/-! ### Waiting and skipping (R337) -/

/-- A condition code holds between what was loaded and d2. -/
def condHolds (code : Nat) (x y : Word) : Bool :=
  match code with
  | 0 => x == y
  | 1 => x != y
  | 2 => decide (y.toNat ≤ x.toNat)
  | 3 => decide (x.toNat < y.toNat)
  | 4 => decide (y.toInt ≤ x.toInt)
  | _ => decide (x.toInt < y.toInt)

/-- The clocks of d4 microseconds. -/
def waitClocks (p : Vec) : Nat := (dword p 4).toNat * 1700

/-- A WAIT whose timeout has run out. -/
def State.waitOver (s : State) (a : Args) (from' : Nat) : Bool := dword a.pkt 4 != 0 && decide (from' + waitClocks a.pkt ≤ s.clock)

/-- The clock of a WAIT's first execution noted, from which its timeout runs. -/
def State.startWait (s : State) (a : Args) : State :=
  let q := s.queue a.n
  if q.waitFrom.isSome then s
  else
    let s := s.setQueue a.n { q with waitFrom := some s.clock }
    if dword a.pkt 4 = 0 then s else s.add [{ ev := .waitTimeout, arg := { a with m := s.clock }, due := s.clock + waitClocks a.pkt }]

/-- WAIT (R335, R337): an acquire load is repeated until the condition holds; a queue that waits gives up its slot to others. -/
def wait (a : Args) (s : State) : State :=
  let s := s.begin' a
  let d3 := dword a.pkt 3
  if !fieldsOk a.pkt [m64, m64, 7, m64] ∨ 5 < bits d3 2 0 ∨ (dword a.pkt 1).toNat % 8 ≠ 0 then s.finishPacket a 2 0
  else
    let s := s.startWait a
    let late := s.waitOver a ((s.queue a.n).waitFrom.getD s.clock)
    match s.packetLoad a .wait with
    | (t, none) => if late && t.inHand a.n then s.finishPacket a 6 0 else t
    | (s, some v) =>
      let a := { a with m := 0 }
      if condHolds (bits d3 2 0) v (dword a.pkt 2) then s.finishPacket a 1 0
      else if late then s.finishPacket a 6 0
      else if s.notified.isEmpty then s.repeatPacket a .wait
      else s.add [{ ev := .mapperUnbind, arg := { n := a.n } }]

/-- WAIT_TIMEOUT (R337): the WAIT that began at clock m ends TIMEOUT; one whose queue is not bound ends so when it is bound again. -/
def waitTimeout (a : Args) (s : State) : State :=
  let q := s.queue a.n
  if q.waitFrom = some a.m ∧ q.slot.isSome ∧ s.agenda.any (fun h => h.ev == .wait && packetOf a.n h) then
    State.finishPacket { s with agenda := s.agenda.filter fun h => !(h.ev == .wait && packetOf a.n h) } a 6 0
  else s

/-- SKIP_IF (R337): one acquire load; the next n packets are skipped where the condition holds. -/
def skipIf (a : Args) (s : State) : State :=
  let s := s.begin' a
  let d3 := dword a.pkt 3
  if !fieldsOk a.pkt [m64, m64, 0xFFFF0007, m64] ∨ 5 < bits d3 2 0 ∨ (dword a.pkt 1).toNat % 8 ≠ 0 then s.finishPacket a 2 0
  else
    match s.packetLoad a .skipIf with
    | (s, none) => s
    | (s, some v) =>
      if condHolds (bits d3 2 0) v (dword a.pkt 2) then
        (s.setQueue a.n { s.queue a.n with skips := bits d3 31 16 }).finishPacket a 1 0
      else s.finishPacket a 1 0

/-! ### Command lists (R339) -/

/-- The execution point moved; a ring packet that leaves the ring has not retired. -/
def State.goTo (s : State) (n : Nat) (p : Point) : State :=
  let q := s.queue n
  let s := s.setQueue n { q with point := p }
  if q.point.list.isSome then s.countRetired n else s.add [{ ev := .mapperBind, arg := { n := n, flag := true } }]

/-- The return slot of a ring packet: the one after its own. -/
def State.nextSlot (s : State) (n : Nat) : Nat :=
  match s.cmdDesc (s.queue n) with
  | some x => (x.rd + 1) % 2 ^ 32
  | none => 0

/-- The fault of a list address that a JUMP or CALL names (R337). -/
def State.listFault (s : State) (ctx va : Nat) : Option Nat :=
  match (if (s.leaf ctx va).any fun l => l.cls == 4 then .fail 0x09 else s.copyRead s.hub ctx va 64) with
  | .fail code => some code
  | .remote _ => some 0x09
  | _ => none

/-- JUMP (R339). -/
def jump (a : Args) (s : State) : State :=
  let s := s.begin' a
  let t := (dword a.pkt 1).toNat
  let p := (s.queue a.n).point
  if !fieldsOk a.pkt [m64] ∨ t % 64 ≠ 0 then s.finishPacket a 2 0
  else if s.restricting a.c t then s.repeatPacket a .jump
  else
    match s.listFault a.c t with
    | some code => (s.noteWalk a.c t).finishPacket a 4 code
    | none =>
      if p.list.isSome then s.goTo a.n { p with list := some t }
      else s.goTo a.n { list := some t, stack := [], ret := s.nextSlot a.n }

/-- CALL (R339). -/
def call (a : Args) (s : State) : State :=
  let s := s.begin' a
  let t := (dword a.pkt 1).toNat
  let p := (s.queue a.n).point
  if !fieldsOk a.pkt [m64] ∨ t % 64 ≠ 0 then s.finishPacket a 2 0
  else if s.restricting a.c t then s.repeatPacket a .call
  else
    match s.listFault a.c t, p.list with
    | some code, _ => (s.noteWalk a.c t).finishPacket a 4 code
    | none, none => s.goTo a.n { list := some t, stack := [], ret := s.nextSlot a.n }
    | none, some at' => if 4 ≤ p.stack.length then s.finishPacket a 7 0 else s.goTo a.n { p with list := some t, stack := (at' + 64) :: p.stack }

/-- RETURN (R339): with an empty stack the ring packet that entered the list retires. -/
def returnList (a : Args) (s : State) : State :=
  let s := s.begin' a
  let p := (s.queue a.n).point
  if !fieldsOk a.pkt [] ∨ p.list.isNone then s.finishPacket a 2 0
  else
    match p.stack with
    | t :: rest => s.goTo a.n { p with list := some t, stack := rest }
    | [] =>
      let q := s.queue a.n
      (s.setQueue a.n { q with point := {}, retired := q.retired + 1 }).retireRing a.n 1 0

/-! ### Snapshots and ceilings -/

/-- SNAPSHOT_CUT (R412, R413). An address that the window or the device memory does not hold is check 4's; a misaligned one, or a count of
regions outside 1 to 64, is MALFORMED. -/
def snapshotCut (a : Args) (s : State) : State :=
  let s := s.begin' a
  let n := (dword a.pkt 6).toNat
  if !fieldsOk a.pkt [0xFFFFFFFF, m64, 0xFFFFFFFF, m64, m64, 0x7F] ∨ n = 0 ∨ 64 < n ∨ (dword a.pkt 2).toNat % 4096 ≠ 0 ∨
      (dword a.pkt 4).toNat % 64 ≠ 0 ∨ (dword a.pkt 5).toNat % 16 ≠ 0 then s.finishPacket a 2 0
  else
    match s.tableWaits a.c (dword a.pkt 5).toNat n with
    | some (d, va) => (s.parkRead d .firmware a.c va).repeatPacket a .snapshotCut
    | none =>
      match s.snapshotCut a.c a.pkt with
      | .ok s => s.finishPacket a 1 0
      | .error cause => s.finishPacket a 3 cause

/-- SET_CEILINGS (R99): the whole table or none of it. -/
def setCeilings (a : Args) (s : State) : State :=
  let s := s.begin' a
  let t := (dword a.pkt 1).toNat
  if !fieldsOk a.pkt [m64] ∨ t % 512 ≠ 0 then s.finishPacket a 2 0
  else
    match s.readRange a.c t 512 with
    | .bad code va => (s.noteWalk a.c va).finishPacket a 4 code
    | .wait d va => (s.parkRead d .firmware a.c va).repeatPacket a .setCeilings
    | .ok l =>
      match (s.ctx a.c).ceilTable l with
      | .error e => s.finishPacket a 3 (e + 1)
      | .ok ceil => (s.setCtx a.c { s.ctx a.c with ceilings := ceil }).finishPacket a 1 0

/-! ### Kernels (R108-R112) -/

/-- The registered copy that a header in memory gives (R108). -/
def headerOf (addr : Nat) (w : Vec) : Header :=
  { addr := addr, sregs := bits w 13 8, vregs := bits w 20 16, kregs := bits w 27 24, acc := bits w 31 28, scratch := bits w 39 32
    barriers := bits w 44 40, yield := bits w 59 48, codeOff := (BitVec.ofNat 32 (bits w 95 64)).toInt, words := bits w 127 96
    res := w.extractLsb' 128 64 }

/-- n bytes of a context's memory lie on pages that all satisfy p. -/
def State.mapped (s : State) (ctx va n : Nat) (p : Leaf → Bool) : Bool :=
  (List.range (n / 65536 + 2)).all fun i =>
    let a := if i = 0 then va else (va / 65536 + i) * 65536
    decide (va + n ≤ a) || (region a == .glob && (s.leaf ctx a).any p)

/-- The checks of R110 from the third on, by the number of the first that fails. -/
def Ctx.headerCheck (c : Ctx) (w : Vec) (h : Header) : Option Nat :=
  if bits w 7 0 ≠ 1 ∨ bits w 511 192 ≠ 0 ∨ bits w 63 60 ≠ 0 ∨ bits w 47 45 ≠ 0 ∨ bits w 23 21 ≠ 0 ∨ bits w 15 14 ≠ 0 then some 3
  else if (h.sregs ≠ 8 ∧ h.sregs ≠ 16 ∧ h.sregs ≠ 24 ∧ h.sregs ≠ 32) ∨ 16 < h.vregs ∨ 8 < h.kregs ∨ 8 < h.acc ∨ 192 < h.scratch ∨
      16 < h.barriers ∨ h.words = 0 ∨ 4194304 < h.words ∨ h.codeOff % 4 ≠ 0 then some 4
  else if 49152 < h.scratch * 256 + 16 * h.barriers then some 5
  else
    let homes := h.resources.map fun e => (c.ceiling e).map (·.2)
    if homes.any (·.isNone) ∨ 1 < homes.eraseDups.length then some 6 else none

/-- A kernel index set; and the store of its kernel-table entry (R111). -/
def State.putKernel (s : State) (c k : Nat) (x : Kernel) : List (Nat × List Byte) × State :=
  let y := s.ctx c
  let s := s.setCtx c { y with kernels := if x.state = 0 then Tab.del y.kernels k else Tab.put y.kernels k x }
  let e := if x.state = 0 then 0 else x.hdr.addr % 2 ^ 56 / 64 * 64 + x.state
  ([(y.kernelBase.toNat + 8 * k, bytesOfNat 8 e)], s)

/-- A header, or none for a removal, taken for an index that no live frame holds (R112), and the store of its entry. The old code and the
new leave the instruction caches (R111). -/
def State.install (s : State) (c k : Nat) (h : Option Header) : List (Nat × List Byte) × State :=
  let old := ((s.ctx c).kernel k).hdr
  let s := s.dropCode c old.codeStart (4 * old.words)
  let s := match h with
    | some h => s.dropCode c h.codeStart (4 * h.words)
    | none => s
  match h with
  | some h => s.putKernel c k { state := 1, hdr := h, queue := 1024 }
  | none => s.putKernel c k {}

/-- REGISTER_KERNEL carried out for an index that is Empty or Registered (R110, R112): at once, or once the live frames have ended. -/
def State.register (s : State) (a : Args) (k : Nat) (h : Option Header) : State :=
  let old := (s.ctx a.c).kernel k
  if old.state = 0 ∧ h.isNone then s.finishPacket a 1 0
  else if old.state = 1 ∧ s.liveFrames a.c k then
    let (l, s) := s.putKernel a.c k { old with state := 2, next := h, queue := a.n }
    let s := s.fwStores a.c l []
    if a.flag then s else s.holdPacket { a with m := 1 } .registerKernel
  else
    let (l, s) := s.install a.c k h
    s.finishAfter a l 1 0

/-- REGISTER_KERNEL (R110-R112). A header or code on a page of device class fails check 2 (log 124). A packet that waits for the drain that it began itself (m 1) ends with it; one that meets another's
drain is held until that ends. -/
def registerKernel (a : Args) (s : State) : State :=
  let s := s.begin' a
  let c := s.ctx a.c
  let k := (dword a.pkt 1).toNat
  let addr := (dword a.pkt 2).toNat
  if (a.m = 1 ∨ (s.queue a.n).held ∨ a.flag) ∧ s.scrubbed a.c then s.scrubbedPacket a
  else if s.heldAway a then s.repeatPacket a .registerKernel
  else if a.m = 1 then s.repeatPacket a .registerKernel
  else if !fieldsOk a.pkt [0xFFF, m64] then s.finishPacket a 2 0
  else if c.kernelCount ≤ k then s.finishPacket a 3 1
  else if (c.kernel k).state = 2 then s.holdPacket a .registerKernel
  else if addr = 0 then s.register a k none
  else if addr % 64 ≠ 0 ∨ !s.mapped a.c addr 64 (fun l => l.rd && l.cls != 4) then s.finishPacket a 3 2
  else
    match s.readRange a.c addr 64 with
    | .bad code va => (s.noteWalk a.c va).finishPacket a 4 code
    | .wait d va => (s.parkRead d .firmware a.c va).repeatPacket a .registerKernel
    | .ok l =>
      let w := vecOf l
      let h := headerOf addr w
      if (addr : Int) + h.codeOff < 0 ∨ !s.mapped a.c h.codeStart (4 * h.words) (fun l => l.rd && l.x && l.cls != 4) then s.finishPacket a 3 2
      else
        match c.headerCheck w h with
        | some n => s.finishPacket a 3 n
        | none => s.register a k (some h)

/-- KERNEL_DRAIN_END (R112): the last live frame of a Draining index has ended: the new copy is installed or the entry cleared, the
releases held for it are dispatched, and the packet ends. -/
def kernelDrainEnd (c k : Nat) (s : State) : State :=
  let x := (s.ctx c).kernel k
  if x.state ≠ 2 ∨ s.liveFrames c k then s
  else
    let (l, s) := s.install c k x.next
    let s := s.endHolds c
    if x.queue < 1024 then
      State.finishAfter { s with agenda := s.agenda.filter fun h => !(h.ev == .registerKernel && packetOf x.queue h && h.arg.m == 1) }
        { c := c, n := x.queue } l 1 0
    else s.fwStores c l []

/-! ### Groups (R306-R308) -/

/-- A node of a group by its 64 bytes (R303). -/
def nodeOf (w : Vec) : GNode :=
  { kernel := bits w 15 0, prio := bits w 19 16, succs := (List.range (bits w 43 39)).map fun i => bits w (271 + 16 * i) (256 + 16 * i)
    count := bits w 255 224, pred := bits w 55 44, left := if bits w 255 224 = 0 then 1 else bits w 255 224 }

/-- Check 4 of R306 for a node among n. -/
def nodeOk (w : Vec) (n : Nat) : Bool :=
  bits w 223 56 == 0 && bits w 38 20 == 0 && decide (bits w 43 39 ≤ 16) && (List.range 16).all fun i =>
    let e := bits w (271 + 16 * i) (256 + 16 * i)
    if i < bits w 43 39 then decide (e < n) else e == 0

/-- The weights of a partition vector. -/
def weightsOf (v : Word) : List Nat := (List.range 8).map fun d => bits v (8 * d + 7) (8 * d)

/-- A launch rejected by a check after the first: the block reads Rejected (R306). -/
def State.rejectGroup (s : State) (a : Args) (block check : Nat) (w : Vec) : State :=
  s.finishAfter a [(block + 13, [BitVec.ofNat 8 (bits w 107 104 + 64)])] 3 check

/-- A group that passed its checks, launched in a free slot of its home, or held (R306, R308). -/
def State.launchOn (s : State) (a : Args) (block : Nat) (g : Group) : State :=
  let home := g.homeDie
  let x := s.die home
  let used := (x.groups.map fun e => e.2.nodes.length).sum
  match (List.range 256).find? fun i => (Tab.find x.groups i).isNone with
  | some slot =>
    if 16384 < used + g.nodes.length then s.holdPacket a .launchGroup
    else
      let s := s.finishAfter a [(block + 13, [BitVec.ofNat 8 16])] 1 0
      let ready := (List.range g.nodes.length).filter fun i => ((g.nodes[i]?).getD {}).pred == 0
      let t : GStep := { g := g, reached := ready }
      (s.putGroup home slot g).settle home slot (t.empties g.nodes.length)
  | none => s.holdPacket a .launchGroup

/-- LAUNCH_GROUP (R306-R308). -/
def launchGroup (a : Args) (s : State) : State :=
  let s := s.begin' a
  let block := (dword a.pkt 1).toNat
  let weights := weightsOf (dword a.pkt 2)
  if ((s.queue a.n).held ∨ a.flag) ∧ s.scrubbed a.c then s.scrubbedPacket a
  else if s.heldAway a then s.repeatPacket a .launchGroup
  else if !fieldsOk a.pkt [m64, m64] then s.finishPacket a 2 0
  else if block % 64 ≠ 0 ∨ !s.mapped a.c block 64 (fun l => l.rd && l.w && l.cls != 4 && l.cls != 5) then s.finishPacket a 3 1
  else
    match s.readRange a.c block 64 with
    | .bad code va => (s.noteWalk a.c va).finishPacket a 4 code
    | .wait d va => (s.parkRead d .firmware a.c va).repeatPacket a .launchGroup
    | .ok l =>
      let w := vecOf l
      let table := bits w 63 0
      let n := bits w 76 64
      if bits w 111 108 = 1 then s.finishPacket a 3 1
      else if table % 64 ≠ 0 ∨ !s.mapped a.c table (64 * n) (fun l => l.rd && l.cls != 4) then s.rejectGroup a block 2 w
      else if bits w 107 77 ≠ 0 ∨ n = 0 ∨ 4096 < n then s.rejectGroup a block 3 w
      else
        match s.readRange a.c table (64 * n) with
        | .bad code va => (s.noteWalk a.c va).finishPacket a 4 code
        | .wait d va => (s.parkRead d .firmware a.c va).repeatPacket a .launchGroup
        | .ok t =>
          let nodes := (List.range n).map fun i => vecOf ((t.drop (64 * i)).take 64)
          if nodes.any fun v => !nodeOk v n then s.rejectGroup a block 4 w
          else if nodes.all fun v => bits v 55 44 != 0 then s.rejectGroup a block 5 w
          else if weights.sum = 0 ∨ (List.range 8).any (fun d => (weights[d]?).getD 0 != 0 && !s.dieOfCtx (s.ctx a.c) d) then s.rejectGroup a block 6 w
          else if s.dies.any fun e => e.2.groups.any fun g => g.2.ctx == a.c && g.2.table == table then s.rejectGroup a block 7 w
          else
            s.launchOn a block
              { ctx := a.c, block := block, table := table, nodes := nodes.map nodeOf, limit := bits w 127 112, weights := weights
                args := [dword w 3, dword w 4, dword w 5, dword w 6], last := (dword w 7).toNat }

/-- QUEUE_ENABLE. -/
def execQueueEnable (s : State) : Host.Outcome State Fault Refusal := .next (queueEnable s.arg.n s)
/-- QUEUE_TEARDOWN. -/
def execQueueTeardown (s : State) : Host.Outcome State Fault Refusal := .next (queueTeardown s.arg.n s)
/-- PASID_INVALIDATE. -/
def execPasidInvalidate (s : State) : Host.Outcome State Fault Refusal := .next (pasidInvalidate s.arg.n s)
/-- LAST_FETCH_RETURN. -/
def execLastFetchReturn (s : State) : Host.Outcome State Fault Refusal := .next (lastFetchReturn s.arg.n s)
/-- QUEUE_NOTIFY: req is the store that brought it, where an agent made it (R333). -/
def execQueueNotify (s : State) : Host.Outcome State Fault Refusal := .next ((queueNotify s.arg.c s.arg.va s.arg.m s).answer s.hub s.arg.req 0 0)
/-- MAPPER_BIND. -/
def execMapperBind (s : State) : Host.Outcome State Fault Refusal := .next (mapperBind s.arg s)
/-- MAPPER_UNBIND. -/
def execMapperUnbind (s : State) : Host.Outcome State Fault Refusal := .next (mapperUnbind s.arg.n s.arg.flag s)
/-- NOP. -/
def execNop (s : State) : Host.Outcome State Fault Refusal := .next (nop s.arg s)
/-- LAUNCH_TASK. -/
def execLaunchTask (s : State) : Host.Outcome State Fault Refusal := .next (launchTask s.arg s)
/-- LAUNCH_GROUP. -/
def execLaunchGroup (s : State) : Host.Outcome State Fault Refusal := .next (launchGroup s.arg s)
/-- QUEUE_COPY. -/
def execQueueCopy (s : State) : Host.Outcome State Fault Refusal := .next (queueCopy s.arg s)
/-- SIGNAL_STORE. -/
def execSignalStore (s : State) : Host.Outcome State Fault Refusal := .next (signalStore s.arg s)
/-- SIGNAL_ADD. -/
def execSignalAdd (s : State) : Host.Outcome State Fault Refusal := .next (signalAdd s.arg s)
/-- SIGNAL_TRIGGER. -/
def execSignalTrigger (s : State) : Host.Outcome State Fault Refusal := .next (signalTrigger s.arg s)
/-- WAIT. -/
def execWait (s : State) : Host.Outcome State Fault Refusal := .next (wait s.arg s)
/-- WAIT_TIMEOUT. -/
def execWaitTimeout (s : State) : Host.Outcome State Fault Refusal := .next (waitTimeout s.arg s)
/-- SKIP_IF. -/
def execSkipIf (s : State) : Host.Outcome State Fault Refusal := .next (skipIf s.arg s)
/-- JUMP. -/
def execJump (s : State) : Host.Outcome State Fault Refusal := .next (jump s.arg s)
/-- CALL. -/
def execCall (s : State) : Host.Outcome State Fault Refusal := .next (call s.arg s)
/-- RETURN. -/
def execReturnList (s : State) : Host.Outcome State Fault Refusal := .next (returnList s.arg s)
/-- ARM_TRIGGER. -/
def execArmTrigger (s : State) : Host.Outcome State Fault Refusal := .next (armTrigger s.arg s)
/-- SNAPSHOT_CUT. -/
def execSnapshotCut (s : State) : Host.Outcome State Fault Refusal := .next (snapshotCut s.arg s)
/-- REGISTER_KERNEL. -/
def execRegisterKernel (s : State) : Host.Outcome State Fault Refusal := .next (registerKernel s.arg s)
/-- SET_CEILINGS. -/
def execSetCeilings (s : State) : Host.Outcome State Fault Refusal := .next (setCeilings s.arg s)
/-- KERNEL_DRAIN_END. -/
def execKernelDrainEnd (s : State) : Host.Outcome State Fault Refusal := .next (kernelDrainEnd s.arg.c s.arg.n s)

end Sys2Proof.Machine
end

