-- ==== Sys2Proof/Machine/Fabric.lean ====
section
/-! DEFINITION. The pod (R402-R410): requests of other modules, proxy atomics, acknowledgements and failures of remote requests, and
stations. -/

namespace Sys2Proof.Machine

/-- No station is left, so that nothing reaches or leaves the module (R410). -/
def State.cutOff (s : State) : Bool := (List.range 16).all fun n => s.stationsDown.contains n

/-! ### Requests of other modules (R403-R407) -/

/-- The first offset of the trigger range (R407). -/
def triggerBase : Nat := 0x3FFFFFFFF800

/-- An address lies in the trigger range. -/
def inTriggerRange (va : Nat) : Bool := decide (triggerBase ≤ va) && decide (va ≤ 0x3FFFFFFFFFFF)

/-- The permission bit of a peer entry that an operation needs (R403). -/
def peerBit (o : Op) : Nat :=
  match o with
  | .load _ _ _ => 1
  | .release _ _ _ => 3
  | _ => 2

/-- The target's own peer entry lets the request in (R403). -/
def State.peerAdmits (s : State) (p : PeerReq) : Bool :=
  let e := if p.module = s.module.toNat then 0 else Tab.get s.peers 0 (p.req.ctx * 1024 + p.module)
  bit e 0 && bits e 11 4 == p.ctx && bit e (peerBit p.req.op)

/-- A context whose releases are dropped and whose pages no peer reaches (R107, R405): Free, Created or Destroyed. -/
def Ctx.gone (c : Ctx) : Bool := c.state == 0 || c.state == 1 || c.state == 6

/-- Why an address refuses a peer's access (R409), 0 where it does not. -/
def State.peerPage (s : State) (ctx va : Nat) (write : Bool) : Nat :=
  match (if inTriggerRange va then none else s.leaf ctx va) with
  | none => 0x09
  | some l => if !l.rd ∨ l.cls = 4 then 0x09 else if write ∧ (!l.w ∨ l.cls = 5) then 0x07 else 0

/-- Why a peer's load, store or atomic is refused, 0 where it is carried out (R409); an STF is refused whole where its flag is,
also for poison. -/
def State.peerRefusal (s : State) (p : PeerReq) : Nat :=
  if !s.peerAdmits p || (s.ctx p.req.ctx).gone then 0x09
  else
    match p.req.op with
    | .store _ _ _ (some (.flag fa _)) =>
      if s.peerPage p.req.ctx (opVa p.req.op) true ≠ 0 then s.peerPage p.req.ctx (opVa p.req.op) true
      else if inTriggerRange fa then 0
      else if s.peerPage p.req.ctx fa true ≠ 0 then s.peerPage p.req.ctx fa true
      else if (s.atHome p.req.ctx fa 8).any (·.2) then 0x10 else 0
    | .load va _ _ => s.peerPage p.req.ctx va false
    | o => s.peerPage p.req.ctx (opVa o) true

/-- The answer to a peer's request leaves the module. -/
def State.sendPeer (s : State) (m id : Nat) (code : Nat) (val : Vec) : State := { s with peerOut := s.peerOut ++ [(m, id, code, val)] }

/-- The number by which the answer to a peer's request is known, by its source die and its stamp: never 0, which waits for no answer. -/
def peerId (p : PeerReq) : Nat := p.die * 2 ^ 32 + p.seq.toNat + 1

/-- A peer's request refused with a code, a malformed entry that its walk met logged (R345, R409). -/
def State.refusePeer (s : State) (p : PeerReq) : State :=
  (if s.peerRefusal p = 0x09 ∧ s.peerAdmits p then s.noteWalk p.req.ctx (opVa p.req.op) else s).sendPeer p.module (peerId p) (s.peerRefusal p) 0

/-- A peer's request served as one of the module's own dies' (R405): of a chained page a store or atomic at the head, an acquire load at the
tail, and a copy's read at the member nearest to the hub (R366). -/
def State.servePeer (s : State) (p : PeerReq) : State :=
  let ctx := p.req.ctx
  let q : Req := { id := peerId p, src := .peer p.module, ctx := ctx, op := p.req.op }
  let write := fun (va : Nat) (q : Req) (ev : Instr) =>
    match s.leaf ctx va with
    | some l => if l.cls = 3 then s.toHead s.hub epUnit q l else s.post s.hub epUnit (l.home va) ctx va 2 ev { d := l.home va, req := q }
    | none => s
  match p.req.op with
  | .release _ _ r =>
    if !s.peerAdmits p then (s.dropLog { r with ctx := ctx }).sendPeer p.module (peerId p) 0 0
    else
      let d := ((List.range 8).find? fun e => s.dieOfCtx (s.ctx ctx) e).getD 0
      s.post s.hub epUnit d ctx r.record 2 .releaseAccept { d := d, rel := { id := peerId p, src := .peer p.module, rel := { r with ctx := ctx, type := 1, named := none } } }
  | .store _ _ _ _ => if s.peerRefusal p ≠ 0 then s.refusePeer p else write (opVa q.op) q .homeStore
  | .atomic va n f x y ord _ =>
    if s.peerRefusal p ≠ 0 then s.refusePeer p else write va { q with op := .atomic va n f x y ord .reg } .atomicExecute
  | .load va _ sync =>
    if s.peerRefusal p ≠ 0 then s.refusePeer p
    else
      match s.leaf ctx va with
      | some l =>
        let d := s.loadDie s.hub ctx va l sync
        s.post s.hub epUnit d ctx va 2 .loadFill { d := d, req := q, n := 3 }
      | none => s
  | _ => s

/-- The answer of a home or dispatcher to a peer's request (R407): an STF's notification comes once its data is visible, and then the
acknowledgement. -/
def State.peerAnswer (s : State) (m : Nat) (q : Req) (val : Vec) (code : Nat) : State :=
  match q.op, code with
  | .store _ _ _ (some note), 0 =>
    match note with
    | .flag fa _ =>
      if inTriggerRange fa then (s.addTrigger q.ctx ((fa - triggerBase) / 8) 1).sendPeer m q.id 0 0
      else s.hubAtomic { q with op := s.noteOp q.ctx (opVa q.op) note } fa
    | .task record prio arg =>
      match s.noteOp q.ctx (opVa q.op) (.task record prio arg) with
      | .release die _ r =>
        s.add [{ ev := .releaseAccept, arg := { d := die.getD 0, rel := { id := q.id, src := q.src, rel := r } }, lane := some (6000 + die.getD 0, 0) }]
      | _ => s
    | .poison | .version _ _ _ => s.sendPeer m q.id 0 0
  | _, _ => s.sendPeer m q.id code val

/-- The key of the series of a module's die (R406). -/
def PeerReq.series (p : PeerReq) : Nat := p.module * 16 + p.die

/-- The requests that are next in their series delivered, in stamp order. -/
def State.deliverPeer (s : State) (fuel : Nat) : State :=
  match fuel with
  | 0 => s
  | n + 1 =>
    match s.peerHeld.find? fun p => p.seq == Tab.get s.nextSeq 0 p.series with
    | some p =>
      (State.servePeer { s with peerHeld := s.peerHeld.filter fun x => x != p, nextSeq := Tab.put s.nextSeq p.series (p.seq + 1) } p).deliverPeer n
    | none => s

/-- PEER_INGRESS (R406): a request of die h of module m, with its stamp n, from its context c. One that has come before is
discarded; one that comes early waits for those before it. -/
def peerIngress (a : Args) (s : State) : State :=
  let p : PeerReq := { module := a.m % 1024, die := a.h % 16, seq := BitVec.ofNat 32 a.n, ctx := a.c, req := a.req }
  let old := (p.seq - Tab.get s.nextSeq 0 p.series).toNat
  if s.cutOff ∨ 2 ^ 31 ≤ old ∨ s.peerHeld.any (fun x => x.series == p.series && x.seq == p.seq) then s
  else State.deliverPeer { s with peerHeld := s.peerHeld ++ [p] } (s.peerHeld.length + 1)

/-! ### Failures after commit (R409) -/

/-- The EVENT of a posted request that failed, from the die that sent it. -/
def State.postedEvent (s : State) (d : Nat) (q : Req) (va code : Nat) : State :=
  let word : BitVec 32 := match q.op with
    | .atomic _ _ _ _ _ _ (.posted w) => w
    | .atomic _ _ _ _ _ _ (.amoa _ _ _ w) => w
    | _ => 0
  s.add [{ ev := .raiseEvent, arg := { d := d, c := q.ctx, info := { code := code, addr := BitVec.ofNat 64 va, extra := if code = 0x10 ∨ code = 0x02 then word.setWidth 64 else 0 } } }]

/-- An atomic that a proxy bogie sent has ended: a value to who awaits it, a delivery to an AMOA's frame, and an EVENT for a posted form
that failed (R408, R409). -/
def State.proxyEnd (s : State) (d : Nat) (q : Req) (val : Word) (code : Nat) : State :=
  match q.op with
  | .atomic va n _ _ _ _ ret =>
    match ret with
    | .reg => s.answer d q val code
    | .amoa uid off k _ =>
      let s := if code = 0 then s else s.postedEvent d q va code
      s.amoaDeliver d epProxy q uid off k n val.toNat code
    | .posted _ => (if code = 0 then s else s.postedEvent d q va code).answer d q 0 0
  | _ => s

/-! ### Proxy atomics (R408) -/

/-- The lane of an atomic's address. -/
def laneOf (va : Nat) : Nat := (va / 64 % 4) ^^^ (va / 256 % 4)

/-- A host AtomicOp that PCIe has: add, swap and CAS, of 4 or 8 bytes. -/
def hostAtomic (f : AtomF) (n : Nat) : Bool :=
  (n == 4 || n == 8) && (match f with
    | .int o => o == 0 || o == 8
    | .cas => true
    | .fadd _ => false)

/-- The head of a lane carried out at once, where it needs no other module: its value or code. -/
def State.proxyLocal (s : State) (q : Req) : State × Word × Nat :=
  match q.op with
  | .atomic va n f x y _ _ =>
    match (if region va = .glob then s.leaf q.ctx va else none) with
    | some l =>
      match (if l.cls = 4 then Tab.find s.devices l.frame else none) with
      | some (.host base) =>
        let a := base + va % pageBytes l.size
        if hostAtomic f n then
          let old := natOfBytes (Tab.range s.hostMem unlisted a n)
          ({ s with hostMem := Tab.setList s.hostMem unlisted a (bytesOfNat n (atomNew f n old x y)) }, BitVec.ofNat 64 old, 0)
        else (s, 0, 0x02)
      | _ => (s, 0, 0x02)
    | none => if region va = .glob then (s.noteWalk q.ctx va, 0, 0x09) else (s, 0, 0x02)
  | _ => (s, 0, 0x02)

/-- A lane's next request issued: to another module, or carried out (R408). -/
def State.issueLane (s : State) (d lane fuel : Nat) : State :=
  match fuel with
  | 0 => s
  | k + 1 =>
    match Tab.get (s.die d).lanes [] lane with
    | [] => s
    | q :: rest =>
      if region (opVa q.op) = .peerWindow then s.sendRemote d (opVa q.op) q
      else
        let (s, val, code) := s.proxyLocal q
        ((s.setDie d { s.die d with lanes := Tab.put (s.die d).lanes lane rest }).proxyEnd d q val code).issueLane d lane k

/-- PROXY_ATOMIC (R408): an atomic reaches its die's proxy bogie and takes its place in its lane. A full lane makes it wait. -/
def proxyAtomic (d : Nat) (q : Req) (s : State) : State :=
  let x := s.die d
  let lane := laneOf (opVa q.op)
  let l := Tab.get x.lanes [] lane
  if 64 ≤ l.length then s.add [{ ev := .proxyAtomic, arg := { d := d, req := q }, due := s.clock + 1 }]
  else
    let s := s.setDie d { x with lanes := Tab.put x.lanes lane (l ++ [q]) }
    if l.isEmpty then s.issueLane d lane 1 else s

/-- A remote request ends with a value, or the 64 bytes of a ring header, or a code (R238, R409). -/
def State.remoteEnd (s : State) (r : Remote) (val : Word) (code : Nat) (pkt : Vec := 0) : State :=
  let s := { s with remote := s.remote.filter fun x => !(x.die == r.die && x.module == r.module && x.seq == r.seq) }
  match r.req.op with
  | .atomic _ _ _ _ _ _ _ =>
    let x := s.die r.die
    let lane := laneOf r.va
    let rest := (Tab.get x.lanes [] lane).tail
    ((s.setDie r.die { x with lanes := Tab.put x.lanes lane rest }).proxyEnd r.die r.req val code).issueLane r.die lane (rest.length + 1)
  | .store _ _ _ _ =>
    let posted := match r.req.src with
      | .task _ _ => true
      | .hart d h => (s.hart d h).transit.any fun t => t.id == r.req.id
      | _ => false
    (if code ≠ 0 ∧ posted then s.postedEvent r.die r.req r.va code else s).answer r.die r.req 0 code
  | .release _ _ _ => s.answer r.die r.req 0 0
  | .cring _ n =>
    if code ≠ 0 then s.answer r.die r.req 0 code
    else if n = 0 then s.ringStatus r.die r.req pkt
    else s.answer r.die r.req (BitVec.ofNat 64 (bits val 7 0 * 2 ^ 32 + n)) 0
  | _ => s.answer r.die r.req val code

/-- REMOTE_ACKNOWLEDGEMENT (R405, R409): the acknowledgement of the n-th outstanding request arrives, with its value and, in c, its
code. -/
def remoteAcknowledgement (n code : Nat) (val : Word) (pkt : Vec) (s : State) : State :=
  match (if s.cutOff then none else s.remote[n]?) with
  | some r => s.remoteEnd r val code pkt
  | none => s

/-- REMOTE_TIMEOUT (R409): no acknowledgement within 10 ms. -/
def remoteTimeout (d m seq : Nat) (s : State) : State :=
  match s.remote.find? fun r => r.die == d && r.module == m && r.seq.toNat == seq with
  | some r => s.remoteEnd r 0 0x10
  | none => s

/-! ### Stations (R410) -/

/-- STATION_FAIL (R410, R395): LINK_DEGRADED, or LINK_DOWN with the last station, to every context with a class 5
handler; F4 logs it (R432). -/
def stationFail (n : Nat) (s : State) : State :=
  if 16 ≤ n ∨ s.stationsDown.contains n then s
  else
    let s := { s with stationsDown := s.stationsDown ++ [n] }
    let code := if s.cutOff then 0x31 else 0x30
    let s : State := { s with errlog := s.errlog ++ [{ code := code, addr := 64 + n }] }
    s.add ((List.range 193).filterMap fun c =>
      if Tab.get (s.ctx c).handlers 0 5 ≠ 0 then
        some { ev := .raiseEvent, arg := { c := c, d := 8 + n / 8, info := { code := code, addr := BitVec.ofNat 64 (64 + n), extra := 0x00FF0330 } } }
      else none)

/-- STATION_RETURN (R410): no event. -/
def stationReturn (n : Nat) (s : State) : State := { s with stationsDown := s.stationsDown.filter fun x => x != n }

/-- PEER_INGRESS. -/
def execPeerIngress (s : State) : Host.Outcome State Fault Refusal := .next (peerIngress s.arg s)
/-- PROXY_ATOMIC. -/
def execProxyAtomic (s : State) : Host.Outcome State Fault Refusal := .next (proxyAtomic s.arg.d s.arg.req s)
/-- REMOTE_TIMEOUT: m is the module, n the stamp. -/
def execRemoteTimeout (s : State) : Host.Outcome State Fault Refusal := .next (remoteTimeout s.arg.d s.arg.m s.arg.n s)
/-- REMOTE_ACKNOWLEDGEMENT. -/
def execRemoteAcknowledgement (s : State) : Host.Outcome State Fault Refusal := .next (remoteAcknowledgement s.arg.n s.arg.c s.arg.val s.arg.pkt s)
/-- STATION_FAIL. -/
def execStationFail (s : State) : Host.Outcome State Fault Refusal := .next (stationFail s.arg.n s)
/-- STATION_RETURN. -/
def execStationReturn (s : State) : Host.Outcome State Fault Refusal := .next (stationReturn s.arg.n s)

end Sys2Proof.Machine
end

