-- ==== Sys2Proof/Machine/System.lean ====
section
/-! DEFINITION. Bring-up, firmware, features, power, service and the register spaces (R297, R300, R396-R401, R422-R432). -/

namespace Sys2Proof.Machine

/-! ### Services of TRAP (R300, R396) -/

/-- A service answered by the complex that answers now (R427). -/
def State.reply' (s : State) (ev : Instr) (f : State → Word × State) : State :=
  s.service ev fun s => (f s).2.answer s.arg.d s.arg.req (f s).1 0

/-- The argument of a TRAP. -/
def trapArg (q : Req) : Word :=
  match q.op with
  | .trap _ a => a
  | _ => 0

/-- An argument that the service rejects. -/
def badArg : Word := 0xFFFFFFFFFFFFFFFD

/-- The complex that answers. -/
def State.complex (s : State) : Complex := if s.sys.active = 0 then s.sys.h0 else s.sys.h1

/-- VERSION (R300). -/
def version (s : State) : State :=
  s.reply' .version fun s => (if trapArg s.arg.req ≠ 0 then badArg else s.complex.version ++ s.complex.build, s)

/-- LINK_STATE (R396). -/
def linkState (s : State) : State :=
  s.reply' .linkState fun s =>
    let a := (trapArg s.arg.req).toNat
    (if 512 ≤ a ∨ 55 < a % 256 then badArg else if a < 256 then (s.link a).lstat else (s.link (a - 256)).lanes, s)

/-- TEMPERATURE (R300): what the sensors read last; sensor 0 is the hottest. -/
def temperature (s : State) : State :=
  s.reply' .temperature fun s =>
    let n := (trapArg s.arg.req).toNat
    let at' := fun (i : Nat) => Tab.get s.sys.temps 0 i
    let hot := (List.range 26).foldl (fun (m : Word) i => if m.toInt < (at' (i + 1)).toInt then at' (i + 1) else m) (at' 1)
    (if 26 < n then badArg else if n = 0 then hot else at' n, s)

/-- POWER (R300). -/
def power (s : State) : State := s.reply' .power fun s => (if trapArg s.arg.req ≠ 0 then badArg else s.sys.power, s)

/-- ERRLOG_COUNT (R300): context 0 only. -/
def errlogCount (s : State) : State :=
  s.reply' .errlogCount fun s =>
    (if s.arg.req.ctx ≠ 0 then 0xFFFFFFFFFFFFFFFE else if trapArg s.arg.req ≠ 0 then badArg else BitVec.ofNat 64 s.errlog.length, s)

/-! ### Bring-up (R422, R425) -/

/-- The complex of a hub, and that complex replaced. -/
def Sys.hub (x : Sys) (h : Nat) : Complex := if h = 0 then x.h0 else x.h1
/-- See Sys.hub. -/
def Sys.setHub (x : Sys) (h : Nat) (c : Complex) : Sys := if h = 0 then { x with h0 := c } else { x with h1 := c }

/-- Every register answers (R422). -/
def State.ready (s : State) : Bool := s.complex.stage == 4

/-- MODULE_RESET (R425): everything returns to its reset value and both hubs boot. What memory lists stands (log 30). -/
def moduleReset (s : State) : State :=
  { State.reset with mem := s.mem, poison := s.poison, hostMem := s.hostMem, oracle := s.oracle, freeCtr := s.freeCtr, uid := s.uid, cur := s.cur, arg := s.arg }

/-- F3 sets the reserve pools aside: the highest frames of each die, as many as it chooses (R416, R425). -/
def State.setPools (s : State) : State :=
  (List.range 8).foldl (fun s d =>
    let (n, s) := s.choose 1024
    let top := (s.die d).memory / 65536
    s.setDie d { s.die d with reserve := (List.range n).map fun i => top - 1 - i }) s

/-- F5 gives the module its identifier and the number of switch planes from the pod's configuration (R402). -/
def State.setPod (s : State) : State :=
  let (m, s) := s.choose 1024
  let (p, s) := s.choose 5
  { s with module := BitVec.ofNat 10 m, planes := 2 ^ p }

/-- F3 assigns the frames of device pages (R233, R333, R349, R397, R408; log 9): the link registers, the notify region of each context, the
engine blocks of each die and windows of host memory, from a frame on that it chooses, and to addresses that it chooses. -/
def State.setDevices (s : State) : State :=
  let (b, s) := s.choose (2 ^ 24)
  let (k, s) := s.choose 257
  let fixed := (b, Device.links) :: (List.range 193).map fun c => (b + 1 + c, Device.notify c)
  let fixed := fixed ++ (List.range 8).map fun d => (b + 194 + d, Device.engine d)
  let r := (List.range k).foldl (fun (x : List (Nat × Device) × State) i =>
    (x.1 ++ [(b + 202 + i, Device.host (65536 * x.2.draw.1))], x.2.draw.2)) (fixed, s)
  { r.2 with devices := r.1 }

/-- The image that a boot loads: its version, build and measurements (R425, R426). -/
def State.loadImage (s : State) (c : Complex) : Complex × State :=
  let (v, s) := s.draw
  let (b, s) := s.draw
  let (m, s) := [1, 2, 3, 4].foldl (fun (x : Tab Nat × State) i => (Tab.put x.1 i x.2.draw.1, x.2.draw.2)) (c.blocks, s)
  ({ c with version := BitVec.ofNat 32 v, build := BitVec.ofNat 32 b, blocks := m }, s)

/-- BOOT_STAGE (R425): hub h completes a stage (m 0), or fails with error m, which it cannot before ROM. H0's complex is active unless it has
failed. -/
def bootStage (h m : Nat) (s : State) : State :=
  let c := s.sys.hub h
  if 4 ≤ c.stage then s
  else if m ≠ 0 ∧ c.stage ≠ 0 then
    let code := if c.stage = 3 then 0 else if c.stage = 2 then (m - 1) % 4 + 1 else (m - 1) % 3 + 1
    let x := s.sys.setHub h { c with stage := 5, error := code }
    { s with sys := { x with active := if x.h0.stage = 5 then 1 else 0 } }
  else
    let (c, s) := if c.stage = 2 then s.loadImage c else (c, s)
    let s := if c.stage = 3 ∧ (s.sys.hub (1 - h)).stage ≠ 4 then s.setPools.setPod.setDevices else s
    { s with sys := s.sys.setHub h { c with stage := c.stage + 1 } }

/-! ### Attestation and updates (R426, R427) -/

/-- Blocks 3 and 16: the measurement of a complex's image with its version (R426). -/
def Complex.image (c : Complex) : Nat := Tab.get c.blocks 0 3 * 2 ^ 32 + c.version.toNat

/-- The measurement blocks as a response holds them: the answering complex's, the features with the fuses, and a staged image's (R426). -/
def State.measurements (s : State) : Tab Nat :=
  let m := Tab.put (Tab.put s.complex.blocks 3 s.complex.image) 5 (s.sys.accept.toNat + 2 ^ 256 * Config.fuses)
  if s.sys.update = 0 then m else Tab.put m 16 s.sys.staged.image

/-- The response to request n (R426): GET_MEASUREMENTS, GET_VERSION, GET_CAPABILITIES, NEGOTIATE_ALGORITHMS, GET_DIGESTS, GET_CERTIFICATE and
CHALLENGE are 0 to 6, and the device supports no other. -/
def State.spdmResponse (s : State) (n : Nat) : SpdmResponse :=
  match n with
  | 0 => .measurements s.measurements
  | 1 => .version
  | 2 => .capabilities
  | 3 => .algorithms
  | 4 => .digests
  | 5 => .certificate
  | 6 => .challengeAuth
  | _ => .error

/-- SPDM_REQUEST (R426): one complex builds the response. -/
def spdmRequest (n : Nat) (s : State) : State :=
  s.service .spdmRequest fun s => { s with sys := { s.sys with responses := s.sys.responses ++ [s.spdmResponse n] } }

/-- The complex that stands by. -/
def State.standby (s : State) : Complex := if s.sys.active = 0 then s.sys.h1 else s.sys.h0

/-- F4 logs. -/
def State.log (s : State) (code ctx addr : Nat) : State := { s with errlog := s.errlog ++ [{ code := code, ctx := ctx, addr := addr }] }

/-- FW_STAGE (R427): the image is staged where both its signatures verify (m 0). -/
def fwStage (m : Nat) (s : State) : State :=
  if s.sys.update ≠ 0 ∨ s.standby.failed ∨ s.standby.stage ≠ 4 then s
  else if m ≠ 0 then s.log 0 0 0
  else
    let (c, s) := s.loadImage s.standby
    { s with sys := { s.sys with update := 1, staged := c } }

/-- FW_COMMIT (R427). -/
def fwCommit (s : State) : State :=
  if s.sys.update = 1 then { s with sys := { s.sys with update := 2 } }.add [{ ev := .mailboxesEmpty }] else s

/-- FW_ABORT (R427). -/
def fwAbort (s : State) : State := if s.sys.update = 1 then { s with sys := { s.sys with update := 0, staged := {} } } else s

/-- What waited for the complex that answers goes to it. -/
def State.wakeService (s : State) : State := { s with sys := { s.sys with waiting := [] } }.add s.sys.waiting

/-- MAILBOXES_EMPTY (R427): the standby becomes active with the new image. -/
def mailboxesEmpty (s : State) : State :=
  if s.sys.update ≠ 2 then s
  else
    let h := 1 - s.sys.active
    let x := (s.sys.setHub h s.sys.staged)
    State.wakeService { s with sys := { x with active := h, update := 0, staged := {} } }

/-- COMPLEX_FAILOVER (R427, R431): the active complex fails and the standby, where there is one, takes over. What a packet has begun is in its
journal and ends as it would have; a WAIT, which has had no effect yet, is executed afresh, its timeout with it. -/
def complexFailover (s : State) : State :=
  if s.standby.failed ∨ s.standby.stage ≠ 4 then s
  else
    let x := s.sys.setHub s.sys.active { s.complex with failed := true }
    State.wakeService { s with sys := { x with active := 1 - s.sys.active, update := 0, staged := {} }
                               queues := Tab.mapVals s.queues fun q => { q with waitFrom := none } }

/-! ### Features, servers and power (R428-R430) -/

/-- The overdrive is declined (R391): F5 retrains every link above code 2, or one about to go above it, to code 2, and takes back a request
for more that stands on any other, so that no later retrain goes above it. -/
def State.dropOverdrive (s : State) : State :=
  s.links.foldl (fun s e =>
    let k := s.link e.1
    if 2 < k.rate ∨ (k.further ∧ 2 < k.req.toNat) then lctlRate e.1 2 false s
    else if 2 < k.req.toNat then s.setLink e.1 { k with req := 2 }
    else s) s

/-- FEAT_COMMIT (R391, R428). -/
def featCommit (s : State) : State :=
  if s.sys.accept &&& ~~~s.sys.offer ≠ 0 then { s with sys := { s.sys with featStatus := 2 } }
  else
    let s := { s with sys := { s.sys with featStatus := 1, locked := true } }
    if bit s.sys.accept 0 then s else s.dropOverdrive

/-- SCALE_REQ (R429). -/
def scaleReq (v : Word) (s : State) : State :=
  let c := bits v 23 16
  let k := bits v 15 12 * 24 + bits v 11 7
  let x := s.ctx c
  if !bit s.sys.accept 3 ∨ bits v 6 1 ≠ 0 ∨ bits v 63 32 ≠ 0 ∨ 192 < c ∨ 7 < bits v 15 12 ∨ 23 < bits v 11 7 ∨ x.state = 0 ∨ x.state = 6 ∨ !x.hasCoach k then
    { s with sys := { s.sys with scaleResult := 3, scaleLast := none } }
  else
    let s := s.setCtx c { x with servers := Tab.put x.servers k (bit v 0) }
    { s with sys := { s.sys with scaleResult := 2, scaleLast := some (c, k, bit v 0) } }

/-- PWR_LIMIT (R430). -/
def pwrLimit (v : Word) (s : State) : State := { s with sys := { s.sys with powerLimit := min 3400 (max 1000 (bits v 15 0)) } }

/-- POWER_WINDOW (R430): the power of a window of 1 ms in mW and the temperature of a sensor; above the limit F7 withholds issue slots,
of the arrays first. -/
def powerWindow (n : Nat) (temp mw : Word) (s : State) : State :=
  let high := decide (s.sys.powerLimit * 1000 < mw.toNat)
  { s with sys := { s.sys with
    power := mw
    temps := if 0 < n ∧ n ≤ 26 then Tab.put s.sys.temps n temp else s.sys.temps
    withhold := if high then min 2 (s.sys.withhold + 1) else 0 } }

/-! ### Errors and retirement (R297, R431, R432) -/

/-- A second in clocks. -/
def second : Nat := 1700000000

/-- Voltage domain n. -/
def State.domain (s : State) (n : Nat) : Domain := Tab.get s.sys.domains {} n
/-- Voltage domain n replaced. -/
def State.setDomain (s : State) (n : Nat) (x : Domain) : State := { s with sys := { s.sys with domains := Tab.put s.sys.domains n x } }

/-- CORRECTED_ERROR (R297, R431): counted for its array, number va, and for its domain n; a rate that crosses the threshold is acted on.
The array is of the unit (m, d, h). -/
def correctedError (a : Args) (s : State) : State :=
  let x := s.domain a.n
  let x := if x.since + second ≤ s.clock then
      { x with errors := 0, since := s.clock, above := if x.errors ≤ s.sys.threshold ∨ x.since + 2 * second ≤ s.clock then none else x.above }
    else x
  let x := { x with errors := x.errors + 1 }
  let s : State := { s with sys := { s.sys with arrayErrors := Tab.put s.sys.arrayErrors a.va (Tab.get s.sys.arrayErrors 0 a.va + 1) } }
  let s := s.setDomain a.n x
  if s.sys.threshold < x.errors ∧ x.above.isNone then s.add [{ ev := .errorRateThreshold, arg := { a with flag := false } }] else s

/-- ERROR_RATE_THRESHOLD (R431): the undervolt is revoked; a rate that has stayed above the threshold for 10 s since, in
every second that has ended, retires the unit. -/
def errorRateThreshold (a : Args) (s : State) : State :=
  let x := s.domain a.n
  if a.flag then
    if x.above = some a.va ∧ (s.clock < x.since + second ∨ (s.clock < x.since + 2 * second ∧ s.sys.threshold < x.errors)) then
      (s.setDomain a.n { x with above := none }).add [{ ev := .unitRetire, arg := { d := a.d, h := a.h, m := a.m } }]
    else s
  else
    (s.setDomain a.n { x with under := false, revoked := true, above := some s.clock }).add
      [{ ev := .errorRateThreshold, arg := { a with flag := true, va := s.clock }, due := s.clock + 10 * second }]

/-- UNDERVOLT_STEP (R431): only while UNDERVOLT is accepted and the domain's undervolt has not been revoked. -/
def undervoltStep (n : Nat) (s : State) : State :=
  if bit s.sys.accept 4 ∧ !(s.domain n).revoked then s.setDomain n { s.domain n with under := true } else s

/-- The contexts whose sets hold one of two coaches and that may have something on them: Armed, Active, Quiescing, or under a scrub. -/
def State.holders (s : State) (k j : Nat) : List Nat :=
  (List.range 193).filter fun c =>
    let x := s.ctx c
    (x.hasCoach k || x.hasCoach j) && (x.state == 2 || x.state == 3 || x.state == 4 || x.state == 6)

/-- A coach's number taken by another physical coach: its slots are Empty, its bogies open. -/
def State.freshCoach (s : State) (k : Nat) : State :=
  let s := s.setCoach k {}
  (List.range 8).foldl (fun s i => s.setBogie (k * 8 + i) { pushes := (s.bogie (k * 8 + i)).pushes }) s

/-- Coaches k and j are no more what they were (R18, R432): the Frozen contexts that hold one are lost, and no closed bogie has a replacement
there. -/
def State.loseCoaches (s : State) (k j : Nat) : State :=
  { s with
    ctxs := Tab.mapVals s.ctxs fun x => if x.state = 5 ∧ (x.hasCoach k ∨ x.hasCoach j) then { x with lost := true } else x
    bogies := Tab.mapVals s.bogies fun b => if b.quarantined.any fun r => r / 8 == k || r / 8 == j then { b with quarantined := none } else b }

/-- The retirement of coach h of die d (R432): F4 freezes the contexts that hold it, and waits until none runs; then a spare takes the
number, and those that it froze are thawed: va names them. With no spare the die presents one coach fewer, the highest number as it is then,
whose coach takes h's place; a context that held either is lost to THAW until it is destroyed, and no closed bogie sends what waits for it to a
replacement there (R18; log 31). -/
def retireCoach (a : Args) (s : State) : State :=
  let k := a.d * 24 + a.h
  let last := a.d * 24 + (s.die a.d).coaches - 1
  let spare := (s.die a.d).spareCo != 0
  let j := if spare then k else last
  let mine := (s.holders k j).filter fun c => !(s.ctx c).freezing && (s.ctx c).state != 6
  let s := mine.foldl (fun s c => s.beginFreeze c) s
  let froze := (List.range 193).filter fun c => a.va / 2 ^ c % 2 == 1 || mine.contains c
  if !(s.holders k j).isEmpty then
    s.add [{ ev := .unitRetire, arg := { a with va := froze.foldl (fun n c => n + 2 ^ c) 0 }, due := s.clock + 1 }]
  else
    let s := (s.freshCoach k).log 0 0 k
    let s := if spare then s.setDie a.d { s.die a.d with spareCo := (s.die a.d).spareCo - 1 }
      else ((s.freshCoach last).setDie a.d { s.die a.d with coaches := (s.die a.d).coaches - 1 }).loseCoaches k last
    froze.foldl (fun s c => if (s.ctx c).state ≠ 5 then s else thaw c false s) s

/-- A free run of frames on every die of a list, bytes long on each and below an amount of memory of die d, the search beginning at a frame
that F3 chooses; used are the ranges that are not free. -/
def State.freeSpan (s : State) (used : List (Nat × Nat)) (d top : Nat) (dies : List Nat) (bytes start fuel : Nat) : Option Nat :=
  match fuel with
  | 0 => none
  | k + 1 =>
    let n := max 1 (bytes / 65536)
    let f := start / n * n
    if dies.all fun e =>
        let lo := memKey e (f * 65536)
        decide (f * 65536 + bytes ≤ (if e = d then top else (s.die e).memory)) && !(used.any fun r => decide (r.1 < lo + bytes) && decide (lo < r.1 + r.2)) then some f
    else s.freeSpan used d top dies bytes (f + n) k

/-- The lowest free run of frames on dies that fits below an amount of memory of die d. -/
def State.freeBelow (s : State) (d top : Nat) (dies : List Nat) (bytes : Nat) : Option Nat :=
  s.freeSpan s.usedSpans d top dies bytes 0 (top / max 65536 bytes + 1)

/-- Bytes of memory moved to another place, with the owners of their words, and with the drops that those words wait for (R183, R356). -/
def State.moveBytes (s : State) (src dst n : Nat) : State :=
  let inside := fun (lo w : Nat) => decide (lo ≤ 4 * w) && decide (4 * w < lo + n)
  let to' := fun (w : Nat) => (4 * w - src + dst) / 4
  let s := s.moveMem src dst n
  { s with
    owner := (s.owner.filter fun e => inside src e.1).foldl (fun (m : Tab (Option Src)) e => Tab.set m none (to' e.1) e.2)
      (s.owner.filter fun e => !inside src e.1 && !inside dst e.1)
    dies := Tab.mapVals s.dies fun x => { x with dropping := x.dropping.map fun p => { p with words := p.words.map fun w => if inside src w then to' w else w } } }

/-! ### The memory beyond a die's capacity (R28, R432) -/

/-- The pointers below a table pointer of a level, by their places in memory, each with its level and its word (R343). -/
def pointersFrom (s : State) (ptr : Word) (level : Nat) : List (Nat × Nat × Word) :=
  match level with
  | 0 => []
  | n + 1 =>
    let base := memKey (bits ptr 51 48) (bits ptr 47 8 * 256)
    let keys := ((s.mem.filter fun e => decide (base ≤ e.1) && decide (e.1 < base + tableBytes (n + 1))).map fun e => e.1 / 8 * 8).eraseDups
    keys.flatMap fun key =>
      let w := s.readWord key
      if !bit w 0 || bit w 1 || malformedPointer s w n then [] else (key, n, w) :: pointersFrom s w n

/-- Every table pointer of every context: its place, none for a pt_root, its context, its level and its word. -/
def State.pointers (s : State) : List (Option Nat × Nat × Nat × Word) :=
  (List.range 193).flatMap fun c =>
    let root := (s.ctx c).ptRoot
    if !bit root 0 || malformedPointer s root 3 then []
    else (none, c, 3, root) :: (pointersFrom s root 3).map fun e => (some e.1, c, e.2.1, e.2.2)

/-- A table moved to a frame of die d: every pointer that names it names it there, and no unit holds a translation made by way of it. -/
def State.moveTable (s : State) (d level f : Nat) (w : Word) : State :=
  let new : Word := BitVec.ofNat 64 (w.toNat - bits w 47 8 * 2 ^ 8 + f * 2 ^ 16)
  let s := (s.pointers.filter fun e => e.2.2.2 == w).foldl (fun (s : State) e => match e.1 with
    | some key => s.writeBytes key (bytesOfNat 8 new.toNat)
    | none => s.setCtx e.2.1 { s.ctx e.2.1 with ptRoot := new }) s
  let s := s.moveMem (memKey d (bits w 47 8 * 256)) (memKey d (f * 65536)) (tableBytes level)
  { s with dies := Tab.mapVals s.dies fun x => { x with trans := [] } }

/-- The tables that lie in part beyond an amount of memory of die d moved below it, one after the other. -/
def State.pullTables (s : State) (d top fuel : Nat) : Option State :=
  match s.pointers.find? fun e => bits e.2.2.2 51 48 == d && decide (top < bits e.2.2.2 47 8 * 256 + tableBytes e.2.2.1) with
  | none => some s
  | some e =>
    match fuel with
    | 0 => none
    | k + 1 => (s.freeBelow d top [d] 65536).bind fun f => (s.moveTable d e.2.2.1 f e.2.2.2).pullTables d top k

/-- The frames of a leaf on each die that holds them, in bytes (R349). -/
def Leaf.span (l : Leaf) : Nat := if l.cls = 1 then pageBytes l.size / 8 else pageBytes l.size

/-- The leaves of every context that lie in part beyond an amount of memory of die d. -/
def State.leavesBeyond (s : State) (d top : Nat) : List Leaf :=
  (List.range 193).flatMap fun c => (s.leaves c).filter fun l =>
    l.cls != 3 && l.cls != 4 && (l.cls == 1 || l.place == d) && decide (top < l.frame * 65536 + l.span)

/-- The frames of a page moved to free ones, of an interleaved page on all eight dies; each leaf, of any context, that names one of them names
it where it is then, and so do the remap filters (R349, R353). -/
def State.moveFrames (s : State) (l : Leaf) (f : Nat) : State :=
  let units := max 1 (l.span / 65536)
  let mine := fun (m : Leaf) => (m.cls == 1) == (l.cls == 1) && m.cls != 3 && m.cls != 4 && (l.cls == 1 || m.place == l.place) &&
    decide (l.frame ≤ m.frame) && decide (m.frame < l.frame + units)
  let dies := if l.cls = 1 then List.range 8 else [l.place]
  let s := ((List.range 193).flatMap fun c => (s.leaves c).filter mine).foldl (fun s m =>
    s.writeLeaf m.key ({ m with frame := m.frame - l.frame + f }.word true)) s
  dies.foldl (fun s d =>
    let lo := memKey d l.frame
    let s := s.moveBytes (memKey d (l.frame * 65536)) (memKey d (f * 65536)) l.span
    { s with dies := Tab.mapVals s.dies fun x => { x with remap := x.remap.map fun a =>
        if lo ≤ a.frame ∧ a.frame < lo + units then { a with frame := a.frame - l.frame + f } else a } }) s

/-- The pages that lie in part beyond an amount of memory of die d moved below it, the largest first, so that frames with several names move
together. -/
def State.pullPages (s : State) (d top fuel : Nat) : Option State :=
  let out := s.leavesBeyond d top
  match ([2, 1, 0].filterMap fun n => out.find? fun l => l.size == n).head? with
  | none => some s
  | some l =>
    match fuel with
    | 0 => none
    | k + 1 =>
      (s.freeBelow d top (if l.cls = 1 then List.range 8 else [l.place]) l.span).bind fun f => (s.moveFrames l f).pullPages d top k

/-- The copies that snapshots hold in frames of die d beyond an amount of its memory moved below it (R416). -/
def State.pullCopies (s : State) (d top : Nat) : Option State :=
  (s.ctxs.flatMap fun e => e.2.snap.units.filterMap fun u =>
    (Tab.find u.copies d).bind fun f => if top < (f + 1) * 65536 then some (e.1, u.va, f) else none).foldl (fun (o : Option State) e =>
      o.bind fun s => (s.freeBelow d top [d] 65536).map fun f =>
        let x := (s.ctx e.1).snap
        (s.moveMem (memKey d (e.2.2 * 65536)) (memKey d (f * 65536)) 65536).setSnap e.1
          { x with units := x.units.map fun u => if u.va = e.2.1 then { u with copies := Tab.put u.copies d f } else u }) (some s)

/-- A page change holds a frame of die d beyond an amount of its memory: it must end first. -/
def State.changeBeyond (s : State) (d top : Nat) : Bool :=
  s.pageOps.any fun o => (o.kind == 4 && o.home == d || o.kind == 3 && o.copied && o.target == d) && decide (top < o.frame * 65536 + pageBytes o.size)

/-- Everything that lies beyond an amount of memory of die d moved below it, page tables among it; none while there is no room for it
(R28, R432; log 153). -/
def State.pullIn (s : State) (d top : Nat) : Option State :=
  if s.changeBeyond d top then none
  else
    ((s.pullTables d top s.pointers.length).bind fun s => s.pullPages d top (s.leavesBeyond d top).length).bind fun s => s.pullCopies d top

/-- The retirement of an HBM channel of die d (R432): a spare takes its frames; with none left, F3 moves the frames beyond the capacity that is
left, and capacity shrinks. -/
def retireChannel (a : Args) (s : State) : State :=
  let x := s.die a.d
  if x.spareCh ≠ 0 then (s.setDie a.d { x with spareCh := x.spareCh - 1 }).log 0 0 (1000 + a.d)
  else if x.channels = 0 then s
  else
    let top := { x with channels := x.channels - 1 }.memory
    match (s.setDie a.d { x with reserve := x.reserve.filter fun f => decide ((f + 1) * 65536 ≤ top) }).pullIn a.d top with
    | some s => (s.setDie a.d { s.die a.d with channels := x.channels - 1 }).log 0 0 (1000 + a.d)
    | none => s.add [{ ev := .unitRetire, arg := a, due := s.clock + 1 }]

/-- UNIT_RETIRE (R432): a coach (m 0) or a channel (m 1) of die d. -/
def unitRetire (a : Args) (s : State) : State :=
  if 8 ≤ a.d then s
  else if a.m = 0 then (if a.h < (s.die a.d).coaches then retireCoach a s else s)
  else retireChannel a s

/-- A bogie opened again: what waited for it enters its FIFOs, and it may decide. -/
def State.reopened (s : State) (g : Nat) : State := (s.endClosed g).add [{ ev := .releaseEnqueuePush, arg := { g := g }, due := s.clock + 1 }]

/-- F2's hand on a bogie (R125): its floor set (m 0), the bogie closed (m 1), or one that F2 closed opened again (m 2);
and F4's mailbox, by which the PF driver sets the threshold of corrected errors (R431, m 3). -/
def State.manageBogie (s : State) (a : Args) : State :=
  let b := s.bogie a.g
  match a.m % 4 with
  | 3 => { s with sys := { s.sys with threshold := a.n } }
  | 0 => (s.setBogie a.g { b with floor := a.n % 16 }).add [{ ev := .releaseEnqueuePush, arg := { g := a.g }, due := s.clock + 1 }]
  | 1 => s.setBogie a.g { b with closed := true }
  | _ =>
    if b.closed ∧ b.quarantined.isNone ∧ b.streak < 3 ∧ !(s.agenda.any fun h => h.ev == .diagnosticsDone && h.arg.g == a.g) then
      (s.setBogie a.g { b with closed := false }).reopened a.g
    else s

/-- DIAGNOSTICS_DONE (R141, R432): of a closed bogie, once its stack has gone to its replacement: they pass, and it is reopened, or fail,
and its coach is retired. -/
def diagnosticsDone (g : Nat) (s : State) : State :=
  if !(s.bogie g).closed then s
  else if s.ctxs.any fun e => e.2.saved.any fun v => v.1 == g && v.2.moved then s.add [{ ev := .diagnosticsDone, arg := { g := g }, due := s.clock + 1 }]
  else
    let (i, s) := s.choose 2
    if i = 0 then (s.setBogie g { s.bogie g with closed := false, streak := 0, quarantined := none }).reopened g
    else s.add [{ ev := .unitRetire, arg := { d := dieOf g, h := coachOf g % 24 } }]

/-! ### The register spaces (R422-R424) -/

/-- Bytes of a register image replaced by the m low bytes of v from byte o. -/
def putBytes (t : Tab Byte) (o m : Nat) (v : Word) : Tab Byte := Tab.setList t 0 o (bytesOfNat m v.toNat)

/-- A write of m bytes at an offset of a queue-table entry (R331): the fields in Disabled only, then the state. -/
def State.writeQueue (s : State) (off m : Nat) (v : Word) : State :=
  let n := off / 16
  let q := s.queue n
  let o := off % 16
  let low : Word := BitVec.ofNat 64 (q.pasid * 2 ^ 24 + (if q.host then 2 ^ 23 else 0) + q.ctx * 2 ^ 15 + q.state)
  let s : State :=
    if q.state ≠ 0 then s
    else if 8 ≤ o then s.setQueue n { q with desc := mergeWord q.desc (o - 8) m v }
    else
      let w := mergeWord low o m v
      s.setQueue n { q with pasid := bits w 43 24, host := bit w 23, ctx := bits w 22 15 }
  if o ≠ 0 then s
  else if bits v 1 0 = 1 then queueEnable n s
  else if bits v 1 0 = 0 then queueTeardown n s
  else s

/-- A write of a link's block (R397, R398, R401). -/
def State.writeLink (s : State) (off m : Nat) (v : Word) : State :=
  let l := off / 256
  let o := off % 256 / 8 * 8
  let k := s.link l
  let covers := fun (b : Nat) => decide (off % 8 ≤ b) && decide (b < off % 8 + m)
  if 56 ≤ l then s
  else if o = 0 then
    let w := mergeWord k.lctl (off % 8) m v
    let s := s.setLink l { k with rlimit := BitVec.ofNat 16 (bits w 47 32), single := bit w 9 }
    let s := if covers 1 ∧ bit w 11 then lctlClr l s else s
    let s := if covers 1 then lctlPin l (bit w 8) s else s
    let s := if covers 0 then lctlRate l (w.setWidth 3) (bit s.sys.accept 0) s else s
    if covers 1 ∧ bit w 12 then lctlRetrain l s else s
  else if o = 0x68 then
    let w := mergeWord k.linj (off % 8) m v
    let s := s.setLink l { k with injLane := BitVec.ofNat 7 (bits w 46 40), injDir := bit w 38, crcAfter := BitVec.ofNat 16 (bits w 31 16), crcArm := bit w 0 && k.crcArm }
    let s := if covers 0 ∧ bit w 0 then linjCrcArm l s else s
    if covers 4 ∧ bit w 39 ∧ bits w 46 40 < 68 then linjLaneArm l (bits w 46 40) s else s
  else s

/-- A write of the peer tables (R403). -/
def State.writePeer (s : State) (off m : Nat) (v : Word) : State :=
  let go := fun (s : State) (i : Nat) (o n : Nat) (v : Word) =>
    if i % 1024 = s.module.toNat then s
    else { s with peers := Tab.put s.peers i (((mergeWord ((Tab.get s.peers 0 i).setWidth 64) o n v).setWidth 32) &&& 0xFFF) }
  if m = 8 then go (go s (off / 4) 0 4 v) (off / 4 + 1) 0 4 (v >>> 32) else go s (off / 4) (off % 4) m v

/-- A translation request submitted by its last doubleword (R354). -/
def State.submitTranslation (s : State) : State :=
  let r : BitVec 256 := BitVec.ofNat 256 (natOfBytes (Tab.range s.sys.xreq 0 0 32))
  translationRequest (bits r 3 0) r s

/-- A consist request submitted by its last doubleword (R359). -/
def State.submitConsist (s : State) : State :=
  let r : BitVec 256 := BitVec.ofNat 256 (natOfBytes (Tab.range s.sys.creq 0 0 32))
  if bits r 3 0 = 2 then consistDestroy r s else consistCreate r s

/-- F7 undervolts only while UNDERVOLT is accepted: once it is not, every domain is at nominal voltage (R428, R431). -/
def State.dropUndervolt (s : State) : State :=
  if bit s.sys.accept 4 then s else { s with sys := { s.sys with domains := Tab.mapVals s.sys.domains fun x => { x with under := false } } }

/-- A write of the identity block (R422, R428-R430). A request to F2 is the write of one of its WO fields: one that covers the reserved bits or
the result alone does nothing (R7). -/
def State.writeIdentity (s : State) (off m : Nat) (v : Word) : State :=
  let covers := fun (b : Nat) => decide (off % 8 ≤ b) && decide (b < off % 8 + m)
  if 0x120 ≤ off ∧ off < 0x140 then
    if s.sys.locked then s
    else
      let i := (off - 0x120) / 8
      let w := mergeWord (s.sys.accept.extractLsb' (64 * i) 64) (off % 8) m v
      State.dropUndervolt { s with sys := { s.sys with accept := BitVec.ofNat 256 (s.sys.accept.toNat - bits s.sys.accept (64 * i + 63) (64 * i) * 2 ^ (64 * i) + w.toNat * 2 ^ (64 * i)) } }
  else if off / 8 = 0x28 then (if covers 0 ∧ bit v 0 then featCommit s else s)
  else if off / 8 = 0x29 then (if covers 0 ∨ covers 1 ∨ covers 2 then scaleReq (mergeWord 0 (off % 8) m v) s else s)
  else if off / 8 = 0x2A then pwrLimit (mergeWord (BitVec.ofNat 64 s.sys.powerLimit) (off % 8) m v) s
  else s

/-- The context in whose memory a descriptor address names a descriptor of that context (R423). -/
def State.kickCtx (s : State) (va : Nat) : Nat :=
  ((List.range 193).find? fun c => match s.recordAt c va with
    | some w => (descOf w).ctx == c
    | none => false).getD 0

/-- A write of an engine region (R233, R424). -/
def State.writeEngine (s : State) (c : Option Nat) (off m : Nat) (v : Word) : State :=
  let d := off / 0x2000
  let h := off % 0x2000 / 0x100
  engineKick { d := d, h := h, c := c.getD (s.kickCtx v.toNat), n := off % 0x100, m := m, val := v } s

/-- REGISTER_WRITE (R422-R424): a write of m bytes at an offset of the register space of function c, 0 the PF. An access of another
size, unaligned, elsewhere or before Ready changes nothing. -/
def registerWrite (c off m : Nat) (v : Word) (s : State) : State :=
  if (m ≠ 1 ∧ m ≠ 2 ∧ m ≠ 4 ∧ m ≠ 8) ∨ off % m ≠ 0 ∨ !s.ready ∨ 192 < c then s
  else
    let v := BitVec.ofNat 64 (v.toNat % 2 ^ (8 * m))
    let in' := fun (lo n : Nat) => decide (lo ≤ off) && decide (off < lo + n)
    if c ≠ 0 then
      if in' 0x2000 0x2000 then queueNotify c (off - 0x2000) m s
      else if in' 0x10000 0x10000 then s.writeEngine (some c) (off - 0x10000) m v
      else s
    else if in' 0 0x1000 then s.writeIdentity off m v
    else if in' 0x10000 0x4000 then s.writeQueue (off - 0x10000) m v
    else if in' 0x18000 24704 then contextFieldWrite ((off - 0x18000) / 128) ((off - 0x18000) % 128) m v s
    else if in' 0x20000 32 then
      let s := { s with sys := { s.sys with xreq := putBytes s.sys.xreq (off - 0x20000) m v } }
      if 24 ≤ off - 0x20000 then s.submitTranslation else s
    else if in' 0x20040 32 then
      let s := { s with sys := { s.sys with creq := putBytes s.sys.creq (off - 0x20040) m v } }
      if 24 ≤ off - 0x20040 then s.submitConsist else s
    else if in' 0x22000 0x2000 then queueNotify 0 (off - 0x22000) m s
    else if in' 0x30000 0x3800 then s.writeLink (off - 0x30000) m v
    else if in' 0x40000 0xC1000 then s.writePeer (off - 0x40000) m v
    else if in' 0x120000 0x10000 then s.writeEngine none (off - 0x120000) m v
    else s

/-- A doubleword of an engine region (R233): of a hart's mailbox, or zero. -/
def State.engineRead (s : State) (o : Nat) : Word :=
  if o % 0x2000 / 0x100 < 22 then (s.hart (o / 0x2000) (o % 0x2000 / 0x100)).mailbox (o % 0x100) else 0

/-- DEVID (R422). -/
def State.devid (s : State) : Word := BitVec.ofNat 64 (s.sys.part.toNat + s.sys.rev.toNat * 2 ^ 16)

/-- BOOT as a complex shows it (R422). -/
def State.bootWord (s : State) (c : Complex) : Word := BitVec.ofNat 64 (c.error * 2 ^ 8 + s.sys.active * 2 ^ 4 + c.stage)

/-- What a read of a doubleword of the PF register space gives (R422, R423), none for an unsupported request. -/
def State.pfRead (s : State) (off : Nat) : Option Word :=
  let i := off / 8
  if i = 0 then some s.devid
  else if i = 1 then some (s.bootWord s.complex)
  else if !s.ready then none
  else if i < 10 then
    let x := s.die (i - 2)
    some (BitVec.ofNat 64 (x.spareCh * 2 ^ 24 + x.channels * 2 ^ 16 + x.spareCo * 2 ^ 8 + x.coaches))
  else if 0x20 ≤ i ∧ i < 0x24 then some (s.sys.offer.extractLsb' (64 * (i - 0x20)) 64)
  else if 0x24 ≤ i ∧ i < 0x28 then some (s.sys.accept.extractLsb' (64 * (i - 0x24)) 64)
  else if i = 0x28 then some (BitVec.ofNat 64 (s.sys.featStatus * 2 ^ 8 + (if s.sys.locked then 2 ^ 16 else 0)))
  else if i = 0x29 then some (BitVec.ofNat 64 (s.sys.scaleResult * 2 ^ 24))
  else if i = 0x2A then some (BitVec.ofNat 64 s.sys.powerLimit)
  else if i < 0x200 then some 0
  else if 0x2000 ≤ i ∧ i < 0x2800 then
    let q := s.queue ((i - 0x2000) / 2)
    some (if i % 2 = 1 then q.desc else BitVec.ofNat 64 (q.pasid * 2 ^ 24 + (if q.host then 2 ^ 23 else 0) + q.ctx * 2 ^ 15 + q.state))
  else if 0x3000 ≤ i ∧ i < 0x3000 + 3088 then some ((s.ctx ((i - 0x3000) / 16)).blockWord ((i - 0x3000) % 16))
  else if (0x4000 ≤ i ∧ i < 0x4004) ∨ (0x4008 ≤ i ∧ i < 0x400C) ∨ (0x4400 ≤ i ∧ i < 0x4800) then some 0
  else if 0x6000 ≤ i ∧ i < 0x8000 then some (s.linkReg false ((i - 0x6000) * 8))
  else if 0x8000 ≤ i ∧ i < 0x8000 + 98816 then
    some ((Tab.get s.peers 0 (2 * (i - 0x8000) + 1)) ++ (Tab.get s.peers 0 (2 * (i - 0x8000))))
  else if 0x24000 ≤ i ∧ i < 0x26000 then some (s.engineRead (i * 8 - 0x120000))
  else none

/-- What a read of a doubleword of the register space of VF c gives (R96, R333, R424). -/
def State.vfRead (s : State) (c off : Nat) : Option Word :=
  if !s.ready then none
  else if off < 0x80 then some ((s.ctx c).blockWord (off / 8))
  else if 0x2000 ≤ off ∧ off < 0x4000 then some 0
  else if 0x10000 ≤ off ∧ off < 0x20000 then some (s.engineRead (off - 0x10000))
  else none

/-- What a read of m bytes at an offset of the register space of function c, 0 the PF, gives (R422-R424). -/
def State.registerRead (s : State) (c off m : Nat) : Option Word :=
  if (m ≠ 1 ∧ m ≠ 2 ∧ m ≠ 4 ∧ m ≠ 8) ∨ off % m ≠ 0 ∨ 192 < c then none
  else (if c = 0 then s.pfRead (off / 8 * 8) else s.vfRead c (off / 8 * 8)).map fun w => subWord w off m

/-- What a read through hub h gives (R425): a hub in Failed answers DEVID and its own BOOT, and nothing else. -/
def State.hubRead (s : State) (h c off m : Nat) : Option Word :=
  if (s.sys.hub h).stage ≠ 5 then s.registerRead c off m
  else if (m ≠ 1 ∧ m ≠ 2 ∧ m ≠ 4 ∧ m ≠ 8) ∨ off % m ≠ 0 ∨ c ≠ 0 then none
  else if off / 8 = 0 then some (subWord s.devid off m)
  else if off / 8 = 1 then some (subWord (s.bootWord (s.sys.hub h)) off m)
  else none

/-- VERSION. -/
def execVersion (s : State) : Host.Outcome State Fault Refusal := .next (version s)
/-- LINK_STATE. -/
def execLinkState (s : State) : Host.Outcome State Fault Refusal := .next (linkState s)
/-- TEMPERATURE. -/
def execTemperature (s : State) : Host.Outcome State Fault Refusal := .next (temperature s)
/-- POWER. -/
def execPower (s : State) : Host.Outcome State Fault Refusal := .next (power s)
/-- ERRLOG_COUNT. -/
def execErrlogCount (s : State) : Host.Outcome State Fault Refusal := .next (errlogCount s)
/-- MODULE_RESET. -/
def execModuleReset (s : State) : Host.Outcome State Fault Refusal := .next (moduleReset s)
/-- BOOT_STAGE: h is the hub, m the error, 0 for none. -/
def execBootStage (s : State) : Host.Outcome State Fault Refusal := .next (bootStage (s.arg.h % 2) s.arg.m s)
/-- SPDM_REQUEST. -/
def execSpdmRequest (s : State) : Host.Outcome State Fault Refusal := .next (spdmRequest s.arg.n s)
/-- FEAT_COMMIT. -/
def execFeatCommit (s : State) : Host.Outcome State Fault Refusal := .next (featCommit s)
/-- SCALE_REQ. -/
def execScaleReq (s : State) : Host.Outcome State Fault Refusal := .next (scaleReq s.arg.val s)
/-- PWR_LIMIT. -/
def execPwrLimit (s : State) : Host.Outcome State Fault Refusal := .next (pwrLimit s.arg.val s)
/-- POWER_WINDOW: n is a sensor, va its temperature, val the power. -/
def execPowerWindow (s : State) : Host.Outcome State Fault Refusal := .next (powerWindow s.arg.n (BitVec.ofNat 64 s.arg.va) s.arg.val s)
/-- CORRECTED_ERROR. -/
def execCorrectedError (s : State) : Host.Outcome State Fault Refusal := .next (correctedError s.arg s)
/-- ERROR_RATE_THRESHOLD. -/
def execErrorRateThreshold (s : State) : Host.Outcome State Fault Refusal := .next (errorRateThreshold s.arg s)
/-- UNDERVOLT_STEP. -/
def execUndervoltStep (s : State) : Host.Outcome State Fault Refusal := .next (undervoltStep s.arg.n s)
/-- FW_STAGE. -/
def execFwStage (s : State) : Host.Outcome State Fault Refusal := .next (fwStage s.arg.m s)
/-- FW_COMMIT. -/
def execFwCommit (s : State) : Host.Outcome State Fault Refusal := .next (fwCommit s)
/-- FW_ABORT. -/
def execFwAbort (s : State) : Host.Outcome State Fault Refusal := .next (fwAbort s)
/-- MAILBOXES_EMPTY. -/
def execMailboxesEmpty (s : State) : Host.Outcome State Fault Refusal := .next (mailboxesEmpty s)
/-- COMPLEX_FAILOVER. -/
def execComplexFailover (s : State) : Host.Outcome State Fault Refusal := .next (complexFailover s)
/-- DIAGNOSTICS_DONE. -/
def execDiagnosticsDone (s : State) : Host.Outcome State Fault Refusal := .next (diagnosticsDone s.arg.g s)
/-- UNIT_RETIRE. -/
def execUnitRetire (s : State) : Host.Outcome State Fault Refusal := .next (unitRetire s.arg s)
/-- REGISTER_WRITE: c is the function, n the offset, m the bytes. -/
def execRegisterWrite (s : State) : Host.Outcome State Fault Refusal := .next (registerWrite s.arg.c s.arg.n s.arg.m s.arg.val s)

end Sys2Proof.Machine
end

