-- ==== Sys2Proof/Machine/Finish.lean ====
section
/-! DEFINITION. STORE_PERFORMED (R184): a request's answer reaches its maker. -/

namespace Sys2Proof.Machine

/-- What the witness reads once for the pair of the coach's state (R287). -/
def State.witnessQuery (s : State) (g : Nat) (o : Op) : Word :=
  match o with
  | .mxqTile t => (Tab.get (s.coach (coachOf g)).tiles {} t).word
  | .mxqSlot n => s.pairWord (coachOf g) (n % 16 * 16 + n / 16)
  | _ => 0

/-- The answer to a request of firmware: one of its stores, of F1 for a packet, or one that another step looks for. -/
def State.firmwareAnswer (s : State) (id : Nat) (val : Word) (code : Nat) : State :=
  if id = 0 then s
  else
    match (s.fwNext id).orElse fun _ => s.queueAnswer id code with
    | some s => s
    | none => { s with answers := Tab.put s.answers id (val, code) }

/-- The answer to a request of an engine hart: a piece of a snapshot, a copy's, or one of its own, after which a copy hart moves on. -/
def State.hartAnswer (s : State) (d h id : Nat) (val : Word) (code : Nat) : State :=
  match s.ctxs.find? fun e => e.2.snap.owed.any fun o => o.1 == id with
  | some e => s.snapAnswer e.1 id code
  | none =>
    match s.copyAnswer d h id val code with
    | some s => s
    | none =>
      let s := s.finish (.hart d h) id val code
      if h < 16 then s.again d h else s

/-- An atomic whose old value goes to its frame's barrier (R200). -/
def isAmoa (o : Op) : Bool :=
  match o with
  | .atomic _ _ _ _ _ _ (.amoa _ _ _ _) => true
  | _ => false

/-- STORE_PERFORMED (R184): the request is performed, with a value or a code, and its maker is told. -/
def storePerformed (a : Args) (s : State) : State :=
  match a.req.src with
  | .task g _ =>
    if a.m = 1 then s.finish (.bogie g) a.req.id (s.witnessQuery g a.req.op) 0
    else if (s.bogie g).transit.any fun t => t.id == a.req.id && isAmoa t.op then heldWriteArrival g a.held (s.finish (.bogie g) a.req.id a.val a.n)
    else s.finish (.bogie g) a.req.id a.val a.n
  | .hart d h => s.hartAnswer d h a.req.id a.val a.n
  | .array d k => s.arrayAnswer (d * 24 + k % 24) a.req a.n
  | .firmware => s.firmwareAnswer a.req.id a.val a.n
  | .host => if a.req.id = 0 then s else { s with answers := Tab.put s.answers a.req.id (a.val, a.n) }
  | .peer m => s.peerAnswer m a.req (if a.pkt = 0 then a.val.setWidth 512 else a.pkt) a.n

/-- STORE_PERFORMED. -/
def execStorePerformed (s : State) : Host.Outcome State Fault Refusal := .next (storePerformed s.arg s)

end Sys2Proof.Machine
end

