-- ==== Sys2Proof/Machine/Scalar.lean ====
section
/-! DEFINITION. Scalar, address and branch words (R149-R160) and the hints (R66-R73). -/

namespace Sys2Proof.Machine

/-- The shape of the register-register words: destination d gets a value of the registers, then the next word (R149). -/
def writeX (d : BitVec 5) (f : Cpu → Word) (c : Cpu) : Except Stop Cpu := .ok (c.setX d (f c)).next

/-- A branch: taken to PC + imm × 4, else the next word (R157). -/
def branch (cond : Cpu → Bool) (i : BitVec 16) (c : Cpu) : Except Stop Cpu :=
  .ok (if cond c then { c with pc := c.pc + immediate c.pfx i * 4 } else c.next)

/-- The number of zero bits above the highest one bit (R152). -/
def countLeading (x : Word) : Word := if x = 0 then 64 else BitVec.ofNat 64 (63 - Nat.log2 x.toNat)

/-- The number of zero bits below the lowest one bit of the n lowest, n where there is none. -/
def countTrailing {w : Nat} (x : BitVec w) (i n : Nat) : Nat :=
  match n with
  | 0 => i
  | k + 1 => if x.getLsbD i then i else countTrailing x (i + 1) k

/-- The number of one bits among the n from bit i upwards. -/
def countOnes {w : Nat} (x : BitVec w) (i n : Nat) : Nat :=
  match n with
  | 0 => 0
  | k + 1 => (if x.getLsbD i then 1 else 0) + countOnes x (i + 1) k

/-- DIV (R153): rounds toward zero, wraps, and gives all ones for a zero divisor. -/
def divSigned (a b : Word) : Word := if b = 0 then BitVec.allOnes 64 else BitVec.ofInt 64 (a.toInt.tdiv b.toInt)

/-- REM (R153). -/
def remSigned (a b : Word) : Word := if b = 0 then a else BitVec.ofInt 64 (a.toInt.tmod b.toInt)

/-- DIVN (R153). -/
def divUnsigned (a b : Word) : Word := if b = 0 then BitVec.allOnes 64 else BitVec.ofNat 64 (a.toNat / b.toNat)

/-- REMN (R153). -/
def remUnsigned (a b : Word) : Word := if b = 0 then a else BitVec.ofNat 64 (a.toNat % b.toNat)

/-- The shift count of a register (R152). -/
def shiftCount (x : Word) : Nat := x.toNat % 64

/-- ILL (R66): Fault(ILLEGAL_INSTRUCTION), whatever the word's other bits hold. -/
def execIll (i : BitVec 26) (s : State) := scalarWord (.ill i) (fun _ => .error (.fault 0x01 0 i.toNat)) s

/-- ADD (R152). -/
def execAdd (d a b : BitVec 5) (s : State) := scalarWord (.add d a b) (writeX d fun c => c.getX a + c.getX b) s
/-- SUB (R152). -/
def execSub (d a b : BitVec 5) (s : State) := scalarWord (.sub d a b) (writeX d fun c => c.getX a - c.getX b) s
/-- AND (R152). -/
def execAnd (d a b : BitVec 5) (s : State) := scalarWord (.and d a b) (writeX d fun c => c.getX a &&& c.getX b) s
/-- OR (R152). -/
def execOr (d a b : BitVec 5) (s : State) := scalarWord (.or d a b) (writeX d fun c => c.getX a ||| c.getX b) s
/-- XOR (R152). -/
def execXor (d a b : BitVec 5) (s : State) := scalarWord (.xor d a b) (writeX d fun c => c.getX a ^^^ c.getX b) s
/-- ANDN (R152). -/
def execAndn (d a b : BitVec 5) (s : State) := scalarWord (.andn d a b) (writeX d fun c => c.getX a &&& ~~~c.getX b) s
/-- ORN (R152). -/
def execOrn (d a b : BitVec 5) (s : State) := scalarWord (.orn d a b) (writeX d fun c => c.getX a ||| ~~~c.getX b) s
/-- SHL (R152). -/
def execShl (d a b : BitVec 5) (s : State) :=
  scalarWord (.shl d a b) (writeX d fun c => c.getX a <<< shiftCount (c.getX b)) s
/-- SHR (R152). -/
def execShr (d a b : BitVec 5) (s : State) :=
  scalarWord (.shr d a b) (writeX d fun c => c.getX a >>> shiftCount (c.getX b)) s
/-- SRA (R152). -/
def execSra (d a b : BitVec 5) (s : State) :=
  scalarWord (.sra d a b) (writeX d fun c => (c.getX a).sshiftRight (shiftCount (c.getX b))) s
/-- MIN (R152). -/
def execMin (d a b : BitVec 5) (s : State) :=
  scalarWord (.min d a b) (writeX d fun c => if ltSigned (c.getX a) (c.getX b) then c.getX a else c.getX b) s
/-- MAX (R152). -/
def execMax (d a b : BitVec 5) (s : State) :=
  scalarWord (.max d a b) (writeX d fun c => if ltSigned (c.getX a) (c.getX b) then c.getX b else c.getX a) s
/-- MINN (R152). -/
def execMinn (d a b : BitVec 5) (s : State) :=
  scalarWord (.minn d a b) (writeX d fun c => if ltUnsigned (c.getX a) (c.getX b) then c.getX a else c.getX b) s
/-- MAXN (R152). -/
def execMaxn (d a b : BitVec 5) (s : State) :=
  scalarWord (.maxn d a b) (writeX d fun c => if ltUnsigned (c.getX a) (c.getX b) then c.getX b else c.getX a) s
/-- SLT (R152). -/
def execSlt (d a b : BitVec 5) (s : State) :=
  scalarWord (.slt d a b) (writeX d fun c => ofBool (ltSigned (c.getX a) (c.getX b))) s
/-- SLTN (R152). -/
def execSltn (d a b : BitVec 5) (s : State) :=
  scalarWord (.sltn d a b) (writeX d fun c => ofBool (ltUnsigned (c.getX a) (c.getX b))) s
/-- MUL (R152). -/
def execMul (d a b : BitVec 5) (s : State) := scalarWord (.mul d a b) (writeX d fun c => c.getX a * c.getX b) s
/-- MULH (R152): the upper half of the exact signed product. -/
def execMulh (d a b : BitVec 5) (s : State) :=
  scalarWord (.mulh d a b) (writeX d fun c => BitVec.ofInt 64 ((c.getX a).toInt * (c.getX b).toInt / 2 ^ 64)) s
/-- MULHN (R152): the upper half of the exact unsigned product. -/
def execMulhn (d a b : BitVec 5) (s : State) :=
  scalarWord (.mulhn d a b) (writeX d fun c => BitVec.ofNat 64 ((c.getX a).toNat * (c.getX b).toNat / 2 ^ 64)) s
/-- DIV (R153). -/
def execDiv (d a b : BitVec 5) (s : State) := scalarWord (.div d a b) (writeX d fun c => divSigned (c.getX a) (c.getX b)) s
/-- DIVN (R153). -/
def execDivn (d a b : BitVec 5) (s : State) :=
  scalarWord (.divn d a b) (writeX d fun c => divUnsigned (c.getX a) (c.getX b)) s
/-- REM (R153). -/
def execRem (d a b : BitVec 5) (s : State) := scalarWord (.rem d a b) (writeX d fun c => remSigned (c.getX a) (c.getX b)) s
/-- REMN (R153). -/
def execRemn (d a b : BitVec 5) (s : State) :=
  scalarWord (.remn d a b) (writeX d fun c => remUnsigned (c.getX a) (c.getX b)) s
/-- CLZ (R152). -/
def execClz (d a : BitVec 5) (s : State) := scalarWord (.clz d a) (writeX d fun c => countLeading (c.getX a)) s
/-- CTZ (R152). -/
def execCtz (d a : BitVec 5) (s : State) :=
  scalarWord (.ctz d a) (writeX d fun c => BitVec.ofNat 64 (countTrailing (c.getX a) 0 64)) s
/-- POPC (R152). -/
def execPopc (d a : BitVec 5) (s : State) :=
  scalarWord (.popc d a) (writeX d fun c => BitVec.ofNat 64 (countOnes (c.getX a) 0 64)) s
/-- ADDS (R152). -/
def execAdds (d a b : BitVec 5) (n : BitVec 6) (s : State) :=
  scalarWord (.adds d a b n) (writeX d fun c => c.getX a + c.getX b <<< n.toNat) s
/-- SHLI (R152). -/
def execShli (d a : BitVec 5) (n : BitVec 6) (s : State) :=
  scalarWord (.shli d a n) (writeX d fun c => c.getX a <<< n.toNat) s
/-- SHRI (R152). -/
def execShri (d a : BitVec 5) (n : BitVec 6) (s : State) :=
  scalarWord (.shri d a n) (writeX d fun c => c.getX a >>> n.toNat) s
/-- SRAI (R152). -/
def execSrai (d a : BitVec 5) (n : BitVec 6) (s : State) :=
  scalarWord (.srai d a n) (writeX d fun c => (c.getX a).sshiftRight n.toNat) s

/-- ADDI (R154). -/
def execAddi (d a : BitVec 5) (i : BitVec 16) (s : State) :=
  scalarWord (.addi d a i) (writeX d fun c => c.getX a + immediate c.pfx i) s
/-- ANDI (R154). -/
def execAndi (d a : BitVec 5) (i : BitVec 16) (s : State) :=
  scalarWord (.andi d a i) (writeX d fun c => c.getX a &&& immediate c.pfx i) s
/-- ORI (R154). -/
def execOri (d a : BitVec 5) (i : BitVec 16) (s : State) :=
  scalarWord (.ori d a i) (writeX d fun c => c.getX a ||| immediate c.pfx i) s
/-- XORI (R154). -/
def execXori (d a : BitVec 5) (i : BitVec 16) (s : State) :=
  scalarWord (.xori d a i) (writeX d fun c => c.getX a ^^^ immediate c.pfx i) s
/-- SLTI (R154). -/
def execSlti (d a : BitVec 5) (i : BitVec 16) (s : State) :=
  scalarWord (.slti d a i) (writeX d fun c => ofBool (ltSigned (c.getX a) (immediate c.pfx i))) s
/-- SLTNI (R154). -/
def execSltni (d a : BitVec 5) (i : BitVec 16) (s : State) :=
  scalarWord (.sltni d a i) (writeX d fun c => ofBool (ltUnsigned (c.getX a) (immediate c.pfx i))) s
/-- MOVHI (R155). -/
def execMovhi (d : BitVec 5) (i : BitVec 16) (s : State) :=
  scalarWord (.movhi d i) (writeX d fun c => immediate c.pfx i <<< 48) s
/-- ADDPC (R156). -/
def execAddpc (d : BitVec 5) (i : BitVec 16) (s : State) :=
  scalarWord (.addpc d i) (writeX d fun c => c.pc + immediate c.pfx i) s

/-- BEQ (R157). -/
def execBeq (a b : BitVec 5) (i : BitVec 16) (s : State) :=
  scalarWord (.beq a b i) (branch (fun c => c.getX a == c.getX b) i) s
/-- BNE (R157). -/
def execBne (a b : BitVec 5) (i : BitVec 16) (s : State) :=
  scalarWord (.bne a b i) (branch (fun c => c.getX a != c.getX b) i) s
/-- BLT (R157). -/
def execBlt (a b : BitVec 5) (i : BitVec 16) (s : State) :=
  scalarWord (.blt a b i) (branch (fun c => ltSigned (c.getX a) (c.getX b)) i) s
/-- BGE (R157). -/
def execBge (a b : BitVec 5) (i : BitVec 16) (s : State) :=
  scalarWord (.bge a b i) (branch (fun c => !ltSigned (c.getX a) (c.getX b)) i) s
/-- BLTN (R157). -/
def execBltn (a b : BitVec 5) (i : BitVec 16) (s : State) :=
  scalarWord (.bltn a b i) (branch (fun c => ltUnsigned (c.getX a) (c.getX b)) i) s
/-- BGEN (R157). -/
def execBgen (a b : BitVec 5) (i : BitVec 16) (s : State) :=
  scalarWord (.bgen a b i) (branch (fun c => !ltUnsigned (c.getX a) (c.getX b)) i) s

/-- JAL (R158). -/
def execJal (d : BitVec 5) (i : BitVec 21) (s : State) :=
  scalarWord (.jal d i) (fun c => .ok { c.setX d (c.pc + 4) with pc := c.pc + i.signExtend 64 * 4 }) s
/-- JALR (R159): a target that is no multiple of 4 is MISALIGNED, and then xd keeps its value. -/
def execJalr (d a : BitVec 5) (i : BitVec 16) (s : State) :=
  scalarWord (.jalr d a i) (fun c =>
    let tgt := c.getX a + immediate c.pfx i
    if tgt.toNat % 4 ≠ 0 then .error (.fault 0x04 tgt.toNat 0)
    else .ok { c.setX d (c.pc + 4) with pc := tgt }) s

/-- A hint joins the prefix (R68); in a repetition it stands before the next body word of the pass (R263). -/
def hintWord (i : Instr) (f : Prefix → Prefix) (s : State) : Host.Outcome State Fault Refusal :=
  agentWord i
    (fun _ _ b fr => .ok { b := b.advance { fr with cpu := { fr.cpu with pfx := f fr.cpu.pfx } } true })
    (fun s d h =>
      let c := (s.hart d h).cpu
      .ok (s.setHart d h { s.hart d h with cpu := { c with pc := c.pc + 4, pfx := f c.pfx } })) s

/-- HNOP (R72). -/
def execHnop (s : State) := scalarWord .hnop (fun c => .ok c.next) s
/-- EXT (R69). -/
def execExt (p : BitVec 22) (s : State) := hintWord (.ext p) (fun q => { q with exts := q.exts ++ [p] }) s
/-- MOD (R70). -/
def execMod (b v_s : BitVec 1) (r : BitVec 3) (s : State) :=
  hintWord (.mod b v_s r) (fun q => { q with mod := some (b ++ v_s ++ r) }) s
/-- SCHED (R71): it changes timing and L1 replacement only. -/
def execSched (v_s : BitVec 1) (d : BitVec 6) (s : State) :=
  hintWord (.sched v_s d) (fun q => { q with sched := some (v_s ++ d) }) s

end Sys2Proof.Machine
end

