-- ==== Sys2Proof/Machine/Vector.lean ====
section
/-! DEFINITION. Vector words (R239-R258), mask words (R259, R260) and the repetition buffer (R261-R264). -/

namespace Sys2Proof.Machine

/-! ### Lanes (R239, R240) -/

/-- A number whose digits of w bits are the elements, the first the lowest. -/
def joinElems (w : Nat) (l : List Nat) : Nat := l.foldr (fun x n => x % 2 ^ w + 2 ^ w * n) 0

/-- The register whose element i is f i. -/
def lanes (w : Nat) (f : Nat → Nat) : Vec := BitVec.ofNat 512 (joinElems w ((List.range (512 / w)).map f))

/-- Active elements take their new value; the others merge (R240). -/
def merge (w : Nat) (k : Mask) (old : Vec) (f : Nat → Nat) : Vec := lanes w fun i => if bit k i then f i else elem w old i

/-- A mask destination: bit i is the governing bit and the condition, and the bits from E upwards are 0 (R240). -/
def maskOf (w : Nat) (k : Mask) (c : Nat → Bool) : Mask :=
  BitVec.ofNat 64 (joinElems 1 ((List.range (512 / w)).map fun i => if bit k i && c i then 1 else 0))

/-- The active elements of a register in ascending order, with their numbers. -/
def active (w : Nat) (k : Mask) (v : Vec) : List (Nat × Nat) :=
  ((List.range (512 / w)).filter fun i => bit k i).map fun i => (i, elem w v i)

/-- The rounding direction and the sat modifier that a prefix gives a word (R70, R85). -/
def modDir (f : Frame) : Dir := dirOf (modRound f.cpu.pfx.mod)
/-- See modDir. -/
def modSatOf (f : Frame) : Bool := modSat f.cpu.pfx.mod

/-- A word whose active elements of w bits in vd are a function of the frame, as it stands before the word, and of the
element's number (R240, R241). -/
def vectorTo (i : Instr) (d : BitVec 5) (k : BitVec 3) (w : Nat) (lane : Frame → Nat → Nat) (s : State) :
    Host.Outcome State Fault Refusal :=
  taskWord i (fun _ _ b f => b.go (f.setV d (merge w (f.getK k.toNat) (f.getV d) (lane f)))) s

/-- A word whose mask destination holds a condition of each element. -/
def maskTo (i : Instr) (d : BitVec 5) (k : BitVec 3) (w : Nat) (c : Frame → Nat → Bool) (s : State) :
    Host.Outcome State Fault Refusal :=
  taskWord i (fun _ _ b f => b.go (f.setK d (maskOf w (f.getK k.toNat) (c f)))) s

/-- A word that writes a scalar register. -/
def scalarTo (i : Instr) (d : BitVec 5) (v : Frame → Word) (s : State) : Host.Outcome State Fault Refusal :=
  taskWord i (fun _ _ b f => b.go (f.setX d (v f))) s

/-! ### Loads and stores (R243-R247) -/

/-- Elements of n bytes loaded, each checked and read in turn. -/
def vecRead (s : State) (g : Nat) (b : Bogie) (f : Frame) (n : Nat) (l : List Nat) : Except Stop (Bogie × List (List Byte)) :=
  l.foldlM (fun (acc : Bogie × List (List Byte)) va => do
    let r ← checkAccess s g acc.1 f .vload va n
    let x ← readRoute s g acc.1 f (modBypass f.cpu.pfx.mod) r va n
    .ok (x.1, acc.2 ++ [x.2])) (b, [])

/-- Sectors that one word has written whole, element by element, are poisoned no more (R296). -/
def Bogie.wiped (b : Bogie) (own : Tab Byte) : Bogie :=
  { b with spoison := b.spoison.filter fun k => !((List.range 32).all fun i => (Tab.find own (32 * k + i)).isSome) }

/-- Elements stored: every one is checked in turn, then the bytes go in the same order, where they name the own scratchpad at
once and else by the outbox, with one entry for each 64-byte block (R243). -/
def vecWrite (s : State) (g : Nat) (b : Bogie) (f : Frame) (l : List (Nat × List Byte)) : Except Stop Bogie := do
  let routes ← l.mapM fun e => (checkAccess s g b f .vstore e.1 e.2.length).map fun r => (r, e)
  let out := routes.foldl (fun (t : Tab Byte) e => match e.1 with
    | .own _ _ => t
    | .peer c o => (placed (peerAddr c o) e.2.2).foldl (fun (t : Tab Byte) (x : Nat × Byte) => Tab.put t x.1 x.2) t
    | _ => (placed e.2.1 e.2.2).foldl (fun (t : Tab Byte) (x : Nat × Byte) => Tab.put t x.1 x.2) t) []
  let b ← routes.foldlM (fun (b : Bogie) e => match e.1 with
    | .own _ o => b.ownWrite (f.sbase + o) e.2.2
    | _ => .ok b) b
  let own := routes.flatMap fun e => match e.1 with
    | .own _ o => placed (f.sbase + o) e.2.2
    | _ => []
  (b.wiped own).send ((blocks out).map fun k => .store k false (modBypass f.cpu.pfx.mod) none)

/-- VLD and VLD.h (R244). -/
def vldWord (s : State) (g : Nat) (b : Bogie) (f : Frame) (t base : BitVec 5) (d : BitVec 13) (n : Nat) : Except Stop BRes := do
  let x ← vecRead s g b f n [dispAddr f.cpu base d n]
  x.1.go (f.setV t (BitVec.ofNat 512 (natOfBytes x.2.flatten)))

/-- VST and VST.h (R244). -/
def vstWord (s : State) (g : Nat) (b : Bogie) (f : Frame) (t base : BitVec 5) (d : BitVec 13) (n : Nat) : Except Stop BRes := do
  let b' ← vecWrite s g b f [(dispAddr f.cpu base d n, bytesOfNat n (f.getV t).toNat)]
  b'.go f

/-- VLD (R244). -/
def execVld (t b : BitVec 5) (d : BitVec 13) (s : State) : Host.Outcome State Fault Refusal :=
  taskWord (.vld t b d) (fun s g bo f => vldWord s g bo f t b d 64) s
/-- VLD.h (R244). -/
def execVldH (t b : BitVec 5) (d : BitVec 13) (s : State) : Host.Outcome State Fault Refusal :=
  taskWord (.vldH t b d) (fun s g bo f => vldWord s g bo f t b d 32) s
/-- VST (R244). -/
def execVst (t b : BitVec 5) (d : BitVec 13) (s : State) : Host.Outcome State Fault Refusal :=
  taskWord (.vst t b d) (fun s g bo f => vstWord s g bo f t b d 64) s
/-- VST.h (R244). -/
def execVstH (t b : BitVec 5) (d : BitVec 13) (s : State) : Host.Outcome State Fault Refusal :=
  taskWord (.vstH t b d) (fun s g bo f => vstWord s g bo f t b d 32) s

/-- VLDS (R245). -/
def execVlds (t b v_s : BitVec 5) (w : BitVec 2) (s : State) : Host.Outcome State Fault Refusal :=
  taskWord (.vlds t b v_s w) (fun s g bo f => do
    let n := widthOf w
    let x ← vecRead s g bo f (n / 8) ((List.range (512 / n)).map fun i => strideAddr f b v_s i)
    x.1.go (f.setV t (BitVec.ofNat 512 (natOfBytes x.2.flatten)))) s

/-- VSTS (R245). -/
def execVsts (t b v_s : BitVec 5) (w : BitVec 2) (s : State) : Host.Outcome State Fault Refusal :=
  taskWord (.vsts t b v_s w) (fun s g bo f => do
    let n := widthOf w
    let b' ← vecWrite s g bo f ((List.range (512 / n)).map fun i => (strideAddr f b v_s i, bytesOfNat (n / 8) (elem n (f.getV t) i)))
    b'.go f) s

/-- VGATH (R247). -/
def execVgath (d a b : BitVec 5) (k : BitVec 3) (t : BitVec 2) (s : State) : Host.Outcome State Fault Refusal :=
  taskWord (.vgath d a b k t) (fun s g bo f => do
    let n := widthOf t
    let on := (List.range (512 / n)).filter fun i => bit (f.getK k.toNat) i
    let x ← vecRead s g bo f (n / 8) (on.map fun i => indexAddr f a b n i)
    let got := on.zip (x.2.map natOfBytes)
    x.1.go (f.setV d (merge n (f.getK k.toNat) (f.getV d) fun i => Tab.get got 0 i))) s

/-- VSCAT (R247). -/
def execVscat (d a b : BitVec 5) (k : BitVec 3) (t : BitVec 2) (s : State) : Host.Outcome State Fault Refusal :=
  taskWord (.vscat d a b k t) (fun s g bo f => do
    let n := widthOf t
    let on := active n (f.getK k.toNat) (f.getV d)
    let b' ← vecWrite s g bo f (on.map fun e => (indexAddr f a b n e.1, bytesOfNat (n / 8) e.2))
    b'.go f) s

/-! ### Single elements (R248) -/

/-- VBCAST (R248). -/
def execVbcast (d a : BitVec 5) (k : BitVec 3) (t : BitVec 2) (s : State) : Host.Outcome State Fault Refusal :=
  vectorTo (.vbcast d a k t) d k (widthOf t) (fun f _ => (f.getX a).toNat) s

/-- VINS (R248). -/
def execVins (d a b : BitVec 5) (t : BitVec 2) (s : State) : Host.Outcome State Fault Refusal :=
  taskWord (.vins d a b t) (fun _ _ bo f =>
    let w := widthOf t
    let j := (f.getX b).toNat % (512 / w)
    bo.go (f.setV d (lanes w fun i => if i = j then (f.getX a).toNat else elem w (f.getV d) i))) s

/-- VEXT (R248). -/
def execVext (d a b : BitVec 5) (u : BitVec 1) (t : BitVec 2) (s : State) : Host.Outcome State Fault Refusal :=
  scalarTo (.vext d a b u t) d (fun f =>
    let w := widthOf t
    let v := elem w (f.getV a) ((f.getX b).toNat % (512 / w))
    if u = 0 then sext w v else BitVec.ofNat 64 v) s

/-! ### Floating point (R249-R254) -/

/-- An element of a format as a value. -/
def fpElem (m : Fmt) (v : Vec) (i : Nat) : FV := m.unpack (elem m.width v i)

/-- The float operations of one result from va and vb, rounded once under MOD (R249). -/
def floatBinary (i : Instr) (d a b : BitVec 5) (k : BitVec 3) (t : BitVec 2) (op : Dir → FV → FV → FV) (s : State) :
    Host.Outcome State Fault Refusal :=
  let m := fmtOf t.toNat
  vectorTo i d k m.width (fun f j =>
    m.round (modDir f) (modSatOf f) (op (modDir f) (fpElem m (f.getV a) j) (fpElem m (f.getV b) j))) s

/-- The fused operations: the third operand is the old vd (R250). -/
def floatFused (i : Instr) (d a b : BitVec 5) (k : BitVec 3) (t : BitVec 2) (op : Dir → FV → FV → FV → FV) (s : State) :
    Host.Outcome State Fault Refusal :=
  let m := fmtOf t.toNat
  vectorTo i d k m.width (fun f j =>
    m.round (modDir f) (modSatOf f) (op (modDir f) (fpElem m (f.getV a) j) (fpElem m (f.getV b) j) (fpElem m (f.getV d) j))) s

/-- Minimum and maximum (R88, R249). -/
def floatMinMax (i : Instr) (d a b : BitVec 5) (k : BitVec 3) (t : BitVec 2) (max : Bool) (s : State) :
    Host.Outcome State Fault Refusal :=
  let m := fmtOf t.toNat
  vectorTo i d k m.width (fun f j => m.minmax max (elem m.width (f.getV a) j) (elem m.width (f.getV b) j)) s

/-- The unary operations on encodings (R251). -/
def floatUnary (i : Instr) (d a : BitVec 5) (k : BitVec 3) (t : BitVec 2) (op : Fmt → Dir → Bool → Nat → Nat) (s : State) :
    Host.Outcome State Fault Refusal :=
  let m := fmtOf t.toNat
  vectorTo i d k m.width (fun f j => op m (modDir f) (modSatOf f) (elem m.width (f.getV a) j)) s

/-- VADD (R249). -/
def execVadd (d a b : BitVec 5) (k : BitVec 3) (t : BitVec 2) (s : State) : Host.Outcome State Fault Refusal :=
  floatBinary (.vadd d a b k t) d a b k t FV.add s
/-- VSUB (R249). -/
def execVsub (d a b : BitVec 5) (k : BitVec 3) (t : BitVec 2) (s : State) : Host.Outcome State Fault Refusal :=
  floatBinary (.vsub d a b k t) d a b k t (fun r x y => FV.add r x y.neg) s
/-- VMUL (R249). -/
def execVmul (d a b : BitVec 5) (k : BitVec 3) (t : BitVec 2) (s : State) : Host.Outcome State Fault Refusal :=
  floatBinary (.vmul d a b k t) d a b k t (fun _ x y => x.mul y) s
/-- VMIN (R249). -/
def execVmin (d a b : BitVec 5) (k : BitVec 3) (t : BitVec 2) (s : State) : Host.Outcome State Fault Refusal :=
  floatMinMax (.vmin d a b k t) d a b k t false s
/-- VMAX (R249). -/
def execVmax (d a b : BitVec 5) (k : BitVec 3) (t : BitVec 2) (s : State) : Host.Outcome State Fault Refusal :=
  floatMinMax (.vmax d a b k t) d a b k t true s
/-- VDIV (R249). -/
def execVdiv (d a b : BitVec 5) (k : BitVec 3) (t : BitVec 2) (s : State) : Host.Outcome State Fault Refusal :=
  floatBinary (.vdiv d a b k t) d a b k t (fun _ x y => x.div y) s

/-- VFMA (R250). -/
def execVfma (d a b : BitVec 5) (k : BitVec 3) (t : BitVec 2) (s : State) : Host.Outcome State Fault Refusal :=
  floatFused (.vfma d a b k t) d a b k t (fun r x y z => FV.add r (x.mul y) z) s
/-- VFMS (R250). -/
def execVfms (d a b : BitVec 5) (k : BitVec 3) (t : BitVec 2) (s : State) : Host.Outcome State Fault Refusal :=
  floatFused (.vfms d a b k t) d a b k t (fun r x y z => FV.add r (x.mul y) z.neg) s
/-- VNFMA (R250). -/
def execVnfma (d a b : BitVec 5) (k : BitVec 3) (t : BitVec 2) (s : State) : Host.Outcome State Fault Refusal :=
  floatFused (.vnfma d a b k t) d a b k t (fun r x y z => FV.add r (x.mul y).neg z) s

/-- VABS (R251). -/
def execVabs (d a : BitVec 5) (k : BitVec 3) (t : BitVec 2) (s : State) : Host.Outcome State Fault Refusal :=
  floatUnary (.vabs d a k t) d a k t (fun m _ _ x => x % 2 ^ (m.width - 1)) s
/-- VNEG (R251). -/
def execVneg (d a : BitVec 5) (k : BitVec 3) (t : BitVec 2) (s : State) : Host.Outcome State Fault Refusal :=
  floatUnary (.vneg d a k t) d a k t (fun m _ _ x => x ^^^ 2 ^ (m.width - 1)) s
/-- VSQRT (R251). -/
def execVsqrt (d a : BitVec 5) (k : BitVec 3) (t : BitVec 2) (s : State) : Host.Outcome State Fault Refusal :=
  floatUnary (.vsqrt d a k t) d a k t (fun m r sat x => m.round r sat (m.unpack x).sqrt) s
/-- VRCP (R89, R251). -/
def execVrcp (d a : BitVec 5) (k : BitVec 3) (t : BitVec 2) (s : State) : Host.Outcome State Fault Refusal :=
  floatUnary (.vrcp d a k t) d a k t (approx rcp32) s
/-- VRSQ (R89, R251). -/
def execVrsq (d a : BitVec 5) (k : BitVec 3) (t : BitVec 2) (s : State) : Host.Outcome State Fault Refusal :=
  floatUnary (.vrsq d a k t) d a k t (approx rsq32) s
/-- VEXP2 (R89, R251). -/
def execVexp2 (d a : BitVec 5) (k : BitVec 3) (t : BitVec 2) (s : State) : Host.Outcome State Fault Refusal :=
  floatUnary (.vexp2 d a k t) d a k t (approx exp32) s
/-- VLOG2 (R89, R251). -/
def execVlog2 (d a : BitVec 5) (k : BitVec 3) (t : BitVec 2) (s : State) : Host.Outcome State Fault Refusal :=
  floatUnary (.vlog2 d a k t) d a k t (approx log32) s

/-- VCMP (R252). -/
def execVcmp (d a b : BitVec 5) (k c : BitVec 3) (t : BitVec 2) (s : State) : Host.Outcome State Fault Refusal :=
  let m := fmtOf t.toNat
  maskTo (.vcmp d a b k c t) d k m.width (fun f i => floatCond c (fpElem m (f.getV a) i) (fpElem m (f.getV b) i)) s

/-- VSEL (R253): the mask selects, and no element is inactive. -/
def execVsel (d a b : BitVec 5) (k : BitVec 3) (t : BitVec 2) (s : State) : Host.Outcome State Fault Refusal :=
  taskWord (.vsel d a b k t) (fun _ _ bo f =>
    let w := widthOf t
    bo.go (f.setV d (lanes w fun i => elem w (if bit (f.getK k.toNat) i then f.getV a else f.getV b) i))) s

/-- The source and destination element widths of a VCVT code (R254). -/
def cvtWidths (c : BitVec 4) : Nat × Nat :=
  match c.toNat with
  | 0x0 | 0x1 => (16, 32)
  | 0x2 | 0x3 => (32, 16)
  | 0x4 | 0x5 | 0x8 | 0x9 => (16, 16)
  | 0x6 | 0x7 => (32, 32)
  | 0xA => (16, 8)
  | 0xB => (8, 16)
  | 0xC => (32, 16)
  | 0xD => (16, 32)
  | _ => (16, 8)

/-- Conv of R254 on one element, as R90 gives it; dir is the direction of a MOD-controlled step. -/
def cvtElem (c : BitVec 4) (trunc u : Bool) (dir : Dir) (sat : Bool) (x : Nat) : Nat :=
  let d := if trunc then .rtz else dir
  let ofI := fun (m : Fmt) (w : Nat) => m.round dir sat (FV.ofInt (elemInt u w x))
  let toI := fun (m : Fmt) (w : Nat) => elemOf w ((m.unpack x).toIntSat d u w)
  let narrow := fun (v w : Nat) => elemOf w (clampInt (intMin u w) (intMax u w) (elemInt u v x))
  match c.toNat with
  | 0x0 => fp32.round .rne false (bf16.unpack x)
  | 0x1 => fp32.round .rne false (fp16.unpack x)
  | 0x2 => bf16.round dir sat (fp32.unpack x)
  | 0x3 => fp16.round dir sat (fp32.unpack x)
  | 0x4 => bf16.round .rne false (fp16.unpack x)
  | 0x5 => fp16.round dir sat (bf16.unpack x)
  | 0x6 => toI fp32 32
  | 0x7 => ofI fp32 32
  | 0x8 => toI bf16 16
  | 0x9 => ofI bf16 16
  | 0xA => narrow 16 8
  | 0xB => elemOf 16 (elemInt u 8 x)
  | 0xC => narrow 32 16
  | 0xD => elemOf 32 (elemInt u 16 x)
  | _ => toI bf16 8

/-- VCVT (R254): a narrowing code writes one half of vd, and a widening one reads one half of va. -/
def execVcvt (d a : BitVec 5) (k : BitVec 3) (h : BitVec 1) (c : BitVec 4) (r u : BitVec 1) (s : State) :
    Host.Outcome State Fault Refusal :=
  let ws := (cvtWidths c).1
  let wd := (cvtWidths c).2
  vectorTo (.vcvt d a k h c r u) d k wd (fun f j =>
    let conv := fun i => cvtElem c (r == 1) (u == 1) (modDir f) (modSatOf f) (elem ws (f.getV a) i)
    if ws < wd then conv (h.toNat * (512 / wd) + j)
    else if wd < ws then
      (if j / (512 / ws) = h.toNat then conv (j % (512 / ws)) else elem wd (f.getV d) j)
    else conv j) s

/-! ### Integers (R255, R256) -/

/-- An integer operation on two elements of w bits, by their encodings. -/
def intBinary (i : Instr) (d a b : BitVec 5) (k : BitVec 3) (t : BitVec 2) (op : Frame → Nat → Nat → Nat → Nat) (s : State) :
    Host.Outcome State Fault Refusal :=
  let w := widthOf t
  vectorTo i d k w (fun f j => op f w (elem w (f.getV a) j) (elem w (f.getV b) j)) s

/-- Arithmetic that wraps, or saturates with sat (R79, R255). -/
def intArith (u : BitVec 1) (op : Int → Int → Int) (f : Frame) (w x y : Nat) : Nat :=
  intResult (modSatOf f) (u == 1) w (op (elemInt (u == 1) w x) (elemInt (u == 1) w y))

/-- VIADD (R255). -/
def execViadd (d a b : BitVec 5) (k : BitVec 3) (u : BitVec 1) (t : BitVec 2) (s : State) : Host.Outcome State Fault Refusal :=
  intBinary (.viadd d a b k u t) d a b k t (intArith u (· + ·)) s
/-- VISUB (R255). -/
def execVisub (d a b : BitVec 5) (k : BitVec 3) (u : BitVec 1) (t : BitVec 2) (s : State) : Host.Outcome State Fault Refusal :=
  intBinary (.visub d a b k u t) d a b k t (intArith u (· - ·)) s
/-- VIMUL (R255). -/
def execVimul (d a b : BitVec 5) (k : BitVec 3) (u : BitVec 1) (t : BitVec 2) (s : State) : Host.Outcome State Fault Refusal :=
  intBinary (.vimul d a b k u t) d a b k t (intArith u (· * ·)) s
/-- VIMULH (R255). -/
def execVimulh (d a b : BitVec 5) (k : BitVec 3) (u : BitVec 1) (t : BitVec 2) (s : State) : Host.Outcome State Fault Refusal :=
  intBinary (.vimulh d a b k u t) d a b k t (fun _ w x y =>
    elemOf w (elemInt (u == 1) w x * elemInt (u == 1) w y / 2 ^ w)) s
/-- VIMIN (R255). -/
def execVimin (d a b : BitVec 5) (k : BitVec 3) (u : BitVec 1) (t : BitVec 2) (s : State) : Host.Outcome State Fault Refusal :=
  intBinary (.vimin d a b k u t) d a b k t (fun _ w x y => if elemInt (u == 1) w x ≤ elemInt (u == 1) w y then x else y) s
/-- VIMAX (R255). -/
def execVimax (d a b : BitVec 5) (k : BitVec 3) (u : BitVec 1) (t : BitVec 2) (s : State) : Host.Outcome State Fault Refusal :=
  intBinary (.vimax d a b k u t) d a b k t (fun _ w x y => if elemInt (u == 1) w x ≤ elemInt (u == 1) w y then y else x) s

/-- VAND (R256). -/
def execVand (d a b : BitVec 5) (k : BitVec 3) (t : BitVec 2) (s : State) : Host.Outcome State Fault Refusal :=
  intBinary (.vand d a b k t) d a b k t (fun _ _ x y => x &&& y) s
/-- VOR (R256). -/
def execVor (d a b : BitVec 5) (k : BitVec 3) (t : BitVec 2) (s : State) : Host.Outcome State Fault Refusal :=
  intBinary (.vor d a b k t) d a b k t (fun _ _ x y => x ||| y) s
/-- VXOR (R256). -/
def execVxor (d a b : BitVec 5) (k : BitVec 3) (t : BitVec 2) (s : State) : Host.Outcome State Fault Refusal :=
  intBinary (.vxor d a b k t) d a b k t (fun _ _ x y => x ^^^ y) s
/-- VSHL (R256). -/
def execVshl (d a b : BitVec 5) (k : BitVec 3) (t : BitVec 2) (s : State) : Host.Outcome State Fault Refusal :=
  intBinary (.vshl d a b k t) d a b k t (fun _ w x c => if w ≤ c then 0 else x * 2 ^ c) s
/-- VSHR (R256). -/
def execVshr (d a b : BitVec 5) (k : BitVec 3) (t : BitVec 2) (s : State) : Host.Outcome State Fault Refusal :=
  intBinary (.vshr d a b k t) d a b k t (fun _ w x c => if w ≤ c then 0 else x / 2 ^ c) s
/-- VSRA (R256). -/
def execVsra (d a b : BitVec 5) (k : BitVec 3) (t : BitVec 2) (s : State) : Host.Outcome State Fault Refusal :=
  intBinary (.vsra d a b k t) d a b k t (fun _ w x c => elemOf w (elemInt false w x / 2 ^ min c (w - 1))) s

/-- VICMP (R256). -/
def execVicmp (d a b : BitVec 5) (k : BitVec 3) (u : BitVec 1) (c : BitVec 3) (t : BitVec 2) (s : State) :
    Host.Outcome State Fault Refusal :=
  let w := widthOf t
  maskTo (.vicmp d a b k u c t) d k w (fun f i =>
    intCond c (elemInt (u == 1) w (elem w (f.getV a) i)) (elemInt (u == 1) w (elem w (f.getV b) i))) s

/-! ### Reductions (R257) -/

/-- The float sum of elements in ascending order, each addition rounded in FP32. -/
def floatSum (m : Fmt) (d : Dir) (l : List Nat) : Nat :=
  match l with
  | [] => 0
  | x :: r => r.foldl (fun acc y => fp32.round d false (FV.add d (fp32.unpack acc) (m.unpack y))) (fp32.round .rne false (m.unpack x))

/-- The float minimum or maximum of elements; the result is canonical where it is a NaN (R77, R88). -/
def floatExtreme (m : Fmt) (max : Bool) (l : List Nat) : Nat :=
  match l with
  | [] => m.nan
  | x :: r =>
    let v := r.foldl (fun acc y => m.minmax max acc y) x
    if m.unpack v = .nan then m.nan else v

/-- The least or greatest of integers, or the given one where there is none. -/
def intExtreme (max : Bool) (none' : Int) (l : List Int) : Int :=
  match l with
  | [] => none'
  | x :: r => r.foldl (fun acc y => if (if max then decide (acc < y) else decide (y < acc)) then y else acc) x

/-- The element values that a reduction visits: encodings of the float class (f 1) or the width class. -/
def reduced (fr : Frame) (a : BitVec 5) (k : BitVec 3) (w : Nat) : List Nat :=
  (active w (fr.getK k.toNat) (fr.getV a)).map (·.2)

/-- VREDADD (R257). -/
def execVredadd (d a : BitVec 5) (k : BitVec 3) (u f : BitVec 1) (t : BitVec 2) (s : State) : Host.Outcome State Fault Refusal :=
  scalarTo (.vredadd d a k u f t) d (fun fr =>
    if f = 1 then
      let m := fmtOf t.toNat
      BitVec.ofNat 64 (floatSum m (modDir fr) (reduced fr a k m.width))
    else
      let w := widthOf t
      BitVec.ofInt 64 (((reduced fr a k w).map (elemInt (u == 1) w)).foldl (· + ·) 0)) s

/-- VREDMIN and VREDMAX (R257). -/
def redExtreme (fr : Frame) (a : BitVec 5) (k : BitVec 3) (u f : BitVec 1) (t : BitVec 2) (max : Bool) : Word :=
  if f = 1 then
    let m := fmtOf t.toNat
    BitVec.ofNat 64 (floatExtreme m max (reduced fr a k m.width))
  else
    let w := widthOf t
    let edge := if max then intMin (u == 1) w else intMax (u == 1) w
    BitVec.ofInt 64 (intExtreme max edge ((reduced fr a k w).map (elemInt (u == 1) w)))

/-- VREDMIN (R257). -/
def execVredmin (d a : BitVec 5) (k : BitVec 3) (u f : BitVec 1) (t : BitVec 2) (s : State) : Host.Outcome State Fault Refusal :=
  scalarTo (.vredmin d a k u f t) d (fun fr => redExtreme fr a k u f t false) s
/-- VREDMAX (R257). -/
def execVredmax (d a : BitVec 5) (k : BitVec 3) (u f : BitVec 1) (t : BitVec 2) (s : State) : Host.Outcome State Fault Refusal :=
  scalarTo (.vredmax d a k u f t) d (fun fr => redExtreme fr a k u f t true) s

/-- VREDMINI (R257): the least element and the lowest index that holds it. -/
def execVredmini (d a : BitVec 5) (k : BitVec 3) (u : BitVec 1) (t : BitVec 2) (s : State) : Host.Outcome State Fault Refusal :=
  scalarTo (.vredmini d a k u t) d (fun fr =>
    let w := widthOf t
    match active w (fr.getK k.toNat) (fr.getV a) with
    | [] => BitVec.allOnes 64
    | e :: r =>
      let m := r.foldl (fun (x y : Nat × Nat) => if elemInt (u == 1) w y.2 < elemInt (u == 1) w x.2 then y else x) e
      BitVec.ofNat 64 (m.1 * 2 ^ 32 + m.2)) s

/-! ### Rearranging (R258) -/

/-- VPERM (R258). -/
def execVperm (d a b : BitVec 5) (k : BitVec 3) (t : BitVec 2) (s : State) : Host.Outcome State Fault Refusal :=
  let w := widthOf t
  vectorTo (.vperm d a b k t) d k w (fun f i =>
    let j := elem w (f.getV b) i
    if 512 / w ≤ j then 0 else elem w (f.getV a) j) s
/-- VSLIDE.up (R258). -/
def execVslideUp (d a b : BitVec 5) (k : BitVec 3) (t : BitVec 2) (s : State) : Host.Outcome State Fault Refusal :=
  let w := widthOf t
  vectorTo (.vslideUp d a b k t) d k w (fun f i =>
    let n := (f.getX b).toNat
    if n ≤ i then elem w (f.getV a) (i - n) else 0) s
/-- VSLIDE.dn (R258). -/
def execVslideDn (d a b : BitVec 5) (k : BitVec 3) (t : BitVec 2) (s : State) : Host.Outcome State Fault Refusal :=
  let w := widthOf t
  vectorTo (.vslideDn d a b k t) d k w (fun f i =>
    let n := (f.getX b).toNat
    if i + n < 512 / w then elem w (f.getV a) (i + n) else 0) s
/-- VZIP.lo (R258). -/
def execVzipLo (d a b : BitVec 5) (k : BitVec 3) (t : BitVec 2) (s : State) : Host.Outcome State Fault Refusal :=
  let w := widthOf t
  vectorTo (.vzipLo d a b k t) d k w (fun f i => elem w (if i % 2 = 0 then f.getV a else f.getV b) (i / 2)) s
/-- VZIP.hi (R258). -/
def execVzipHi (d a b : BitVec 5) (k : BitVec 3) (t : BitVec 2) (s : State) : Host.Outcome State Fault Refusal :=
  let w := widthOf t
  vectorTo (.vzipHi d a b k t) d k w (fun f i => elem w (if i % 2 = 0 then f.getV a else f.getV b) (256 / w + i / 2)) s
/-- VCOMPR (R258): the mask selects, and every element of vd is written. -/
def execVcompr (d a : BitVec 5) (k : BitVec 3) (t : BitVec 2) (s : State) : Host.Outcome State Fault Refusal :=
  taskWord (.vcompr d a k t) (fun _ _ bo f =>
    let w := widthOf t
    let l := (active w (f.getK k.toNat) (f.getV a)).map (·.2)
    bo.go (f.setV d (lanes w fun i => (l[i]?).getD 0))) s

/-! ### Masks (R259, R260) -/

/-- A mask word that writes a mask register. -/
def maskWord (i : Instr) (d : BitVec 5) (v : Frame → Mask) (s : State) : Host.Outcome State Fault Refusal :=
  taskWord i (fun _ _ b f => b.go (f.setK d (v f))) s

/-- KAND (R259). -/
def execKand (d a b : BitVec 5) (s : State) : Host.Outcome State Fault Refusal :=
  maskWord (.kand d a b) d (fun f => f.getK a.toNat &&& f.getK b.toNat) s
/-- KOR (R259). -/
def execKor (d a b : BitVec 5) (s : State) : Host.Outcome State Fault Refusal :=
  maskWord (.kor d a b) d (fun f => f.getK a.toNat ||| f.getK b.toNat) s
/-- KXOR (R259). -/
def execKxor (d a b : BitVec 5) (s : State) : Host.Outcome State Fault Refusal :=
  maskWord (.kxor d a b) d (fun f => f.getK a.toNat ^^^ f.getK b.toNat) s
/-- KNOT (R259). -/
def execKnot (d a : BitVec 5) (s : State) : Host.Outcome State Fault Refusal :=
  maskWord (.knot d a) d (fun f => ~~~ f.getK a.toNat) s
/-- KPOPC (R259). -/
def execKpopc (d a : BitVec 5) (s : State) : Host.Outcome State Fault Refusal :=
  scalarTo (.kpopc d a) d (fun f => BitVec.ofNat 64 (countOnes (f.getK a.toNat) 0 64)) s
/-- KFIRST (R259). -/
def execKfirst (d a : BitVec 5) (s : State) : Host.Outcome State Fault Refusal :=
  scalarTo (.kfirst d a) d (fun f => BitVec.ofNat 64 (countTrailing (f.getK a.toNat) 0 64)) s
/-- KSET (R259). -/
def execKset (d a : BitVec 5) (s : State) : Host.Outcome State Fault Refusal :=
  maskWord (.kset d a) d (fun f => f.getX a) s
/-- KMOV to a mask register (R259). -/
def execKmov (d a : BitVec 5) (s : State) : Host.Outcome State Fault Refusal :=
  maskWord (.kmov d a) d (fun f => f.getK a.toNat) s
/-- KMOV to a scalar register (R259). -/
def execKmovX (d a : BitVec 5) (s : State) : Host.Outcome State Fault Refusal :=
  scalarTo (.kmovX d a) d (fun f => f.getK a.toNat) s

/-- A branch on a whole mask (R260). -/
def maskBranch (i : Instr) (a : BitVec 5) (any : Bool) (imm : BitVec 16) (s : State) : Host.Outcome State Fault Refusal :=
  taskWord i (fun _ _ b f =>
    let taken := (f.getK a.toNat != 0) == any
    (branch (fun _ => taken) imm f.cpu).map fun c => { b := b.setTop { f with cpu := c.done, instret := f.instret + 1 } }) s

/-- BKANY (R260). -/
def execBkany (a : BitVec 5) (i : BitVec 16) (s : State) : Host.Outcome State Fault Refusal := maskBranch (.bkany a i) a true i s
/-- BKNONE (R260). -/
def execBknone (a : BitVec 5) (i : BitVec 16) (s : State) : Host.Outcome State Fault Refusal := maskBranch (.bknone a i) a false i s

/-! ### The repetition buffer (R261-R264) -/

/-- How many fields of a word a REP may step: the register fields in the first three places of formats V and X and in the first two
of formats M and S, which are the first operands of the entry (R261). -/
def repArity (i : Instr) : Nat :=
  match i with
  | .vlds _ _ _ _ | .vsts _ _ _ _ | .vbcast _ _ _ _ | .vabs _ _ _ _ | .vneg _ _ _ _ | .vsqrt _ _ _ _ | .vrcp _ _ _ _
  | .vrsq _ _ _ _ | .vexp2 _ _ _ _ | .vlog2 _ _ _ _ | .vcvt _ _ _ _ _ _ _ | .vredadd _ _ _ _ _ _ | .vredmin _ _ _ _ _ _
  | .vredmax _ _ _ _ _ _ | .vredmini _ _ _ _ _ | .vcompr _ _ _ _ => 2
  | _ => 3

/-- The number of names of a kind (R261). -/
def Kind.names (q : Kind) : Nat :=
  match q with
  | .x => 32
  | .v | .slot | .bar => 16
  | .k | .kd | .tile => 8

/-- A word with the register field that stands at bit lo replaced. -/
def putField (w : BitVec 32) (lo n : Nat) : BitVec 32 :=
  BitVec.ofNat 32 (w.toNat / 2 ^ (lo + 5) * 2 ^ (lo + 5) + n % 32 * 2 ^ lo + w.toNat % 2 ^ lo)

/-- A body word as a pass issues it (R261). -/
def stepWord (w : BitVec 32) (i : Instr) (p : Nat) (strides : List Int) : BitVec 32 :=
  ((((operands i).take (repArity i)).zip strides).zip [21, 16, 11]).foldl (fun w e =>
    let f : Int := ((w.toNat / 2 ^ e.2 % 32 : Nat) : Int)
    putField w e.2 ((f + p * e.1.2) % (e.1.1.1.names : Int)).toNat) w

/-- A body word decoded as pass p issues it. -/
def stepInstr (w : BitVec 32) (p : Nat) (strides : List Int) : Option Instr :=
  match decode w with
  | some i => decode (stepWord w i p strides)
  | none => none

/-- The word that a repetition issues next. -/
def Rep.now (r : Rep) : Option Instr := stepInstr ((r.body[r.idx]?).getD 0) r.pass [r.sd, r.sa, r.sb]

/-- A hint that may stand in a body. -/
def bodyHint (i : Instr) : Bool :=
  match i with
  | .mod _ _ _ | .sched _ _ => true
  | _ => false

/-- A word that may stand in a body (R262 check 1): majors 0x1E to 0x28 and 0x2B to 0x2F, COPY, COPYC, COPYM, MOD and SCHED. -/
def bodyWord (i : Instr) (w : BitVec 32) : Bool :=
  let m := w.toNat / 2 ^ 26
  (decide (0x1E ≤ m) && decide (m ≤ 0x28)) || (decide (0x2B ≤ m) && decide (m ≤ 0x2F)) || bodyHint i ||
    match i with
    | .copy _ _ | .copyc _ _ | .copym _ _ => true
    | _ => false

/-- The prefix after a body hint. -/
def afterHint (i : Instr) (p : Prefix) : Prefix :=
  match i with
  | .mod b t r => { p with mod := some (b ++ t ++ r) }
  | .sched t d => { p with sched := some (t ++ d) }
  | _ => {}

/-- Checks 1 and 2 of R262: every body word is an instruction that may stand there behind the hints before it, and the last is
no hint. -/
def bodyLegal (l : List (BitVec 32)) (p : Prefix) : Bool :=
  match l with
  | [] => true
  | w :: r =>
    match decode w with
    | none => false
    | some i => bodyWord i w && !badPrefix i p && !(r.isEmpty && bodyHint i) && bodyLegal r (afterHint i p)

/-- The outbox and the journal entries that one pass of a word can take at most (R262). -/
def bodyCost (i : Instr) : Nat × Nat :=
  match i with
  | .vst _ _ _ => (1, 2)
  | .vstH _ _ _ => (1, 1)
  | .vsts _ _ _ w => (512 / widthOf w, 512 / widthOf w)
  | .vscat _ _ _ _ t => (512 / widthOf t, 512 / widthOf t)
  | .copy _ _ | .copyc _ _ | .copym _ _ | .mxldb _ _ _ _ _ | .mxz _ _ | .mxlda _ _ _ _ | .mma _ _ _ _ _ _
  | .mxst _ _ _ _ _ _ _ | .scmc _ _ _ _ => (1, 0)
  | _ => (0, 0)

/-- The body words of a REP fetched, each a fetch of its own for the watchdog (R134). -/
def repBody (s : State) (g : Nat) (b : Bogie) (f : Frame) (n : Nat) : Except (Nat × Stop) (List (BitVec 32)) :=
  (List.range n).mapM fun j =>
    let pc := (f.cpu.pc.toNat + 4 * (j + 1)) % 2 ^ 64
    match fetchTask s g b f (b.fetched + j) pc with
    | .ok w => .ok w
    | .error st => .error (pc, st)

/-- A name that a pass forms lies beyond the declaration (R115, R116), or beyond its kind. k0 lies beyond none: as a destination it faults
at its word (R46, R264; log 37). -/
def beyondField (h : Header) (p : Kind × BitVec 5) : Bool := badField h p && !(p.1 == .kd && p.2 == 0)

/-- Check 3 of R262: the first fault of R115 that a name of any pass takes, by its rank, and then pass by pass. -/
def repNames (h : Header) (l : List Instr) (w : BitVec 32) : Option Stop :=
  if l.any fun i => (operands i).any (beyondField h) then some (.fault 0x02 0 w.toNat)
  else ((l.flatMap operands).filterMap (boundField h)).head?.map fun e => .fault e.1 0 e.2

/-- REP (R261, R262): the body is fetched and checked, and its passes follow word by word. A body that ends beyond the extent faults at the
REP word (R51, log 134); another fault of a body word's fetch falls at that word (R348). -/
def execRep (d a b : BitVec 5) (c : BitVec 8) (l : BitVec 3) (s : State) : Host.Outcome State Fault Refusal :=
  taskWord (.rep d a b c l) (fun s g bo f =>
    let n := l.toNat + 1
    let count := c.toNat + 1
    let strides := [d.toInt, a.toInt, b.toInt]
    let me := bo.wordNow (.rep d a b c l)
    match repBody s g bo f n with
    | .error (pc, st) =>
      match st with
      | .fault code addr val =>
        .ok ((if code = 0x03 then bo else bo.setTop { f with cpu := { f.cpu with pc := BitVec.ofNat 64 pc } }).syncFault g code addr val)
      | st => .error st
    | .ok body =>
      if !bodyLegal body {} then .error (.fault 0x01 0 me.toNat)
      else
        let words := body.filterMap decode
        let passes := (List.range count).flatMap fun p => body.filterMap fun w => stepInstr w p strides
        match repNames f.hdr passes me with
        | some st => .error st
        | none =>
          let out := count * (words.map fun i => (bodyCost i).1).sum
          let jrn := count * (words.map fun i => (bodyCost i).2).sum
          if 256 < out ∨ 256 < jrn then .error (.fault 0x01 0 me.toNat)
          else if 256 < bo.outbox.length + out ∨ 256 < bo.journal.length + jrn then .error .commit
          else
            let f' := { f with cpu := { f.cpu with pc := f.cpu.pc + 4, pfx := {} }, instret := f.instret + 1 }
            .ok { b := { bo.setTop f' with rep := some { addr := f.cpu.pc, body := body, count := count, sd := d.toInt, sa := a.toInt, sb := b.toInt }, fetched := bo.fetched + n } }) s

end Sys2Proof.Machine
end

