-- ==== Sys2Proof/Machine/Dispatch.lean ====
section
/-! DEFINITION. The meaning of each instruction: one arm per constructor. -/

namespace Sys2Proof.Machine

def exec (i : Instr) (s : State) : Host.Outcome State Fault Refusal :=
  match i with
  | .ill v_i => Sys2Proof.Machine.execIll v_i s
  | .add d a b => Sys2Proof.Machine.execAdd d a b s
  | .sub d a b => Sys2Proof.Machine.execSub d a b s
  | .and d a b => Sys2Proof.Machine.execAnd d a b s
  | .or d a b => Sys2Proof.Machine.execOr d a b s
  | .xor d a b => Sys2Proof.Machine.execXor d a b s
  | .andn d a b => Sys2Proof.Machine.execAndn d a b s
  | .orn d a b => Sys2Proof.Machine.execOrn d a b s
  | .shl d a b => Sys2Proof.Machine.execShl d a b s
  | .shr d a b => Sys2Proof.Machine.execShr d a b s
  | .sra d a b => Sys2Proof.Machine.execSra d a b s
  | .min d a b => Sys2Proof.Machine.execMin d a b s
  | .max d a b => Sys2Proof.Machine.execMax d a b s
  | .minn d a b => Sys2Proof.Machine.execMinn d a b s
  | .maxn d a b => Sys2Proof.Machine.execMaxn d a b s
  | .slt d a b => Sys2Proof.Machine.execSlt d a b s
  | .sltn d a b => Sys2Proof.Machine.execSltn d a b s
  | .mul d a b => Sys2Proof.Machine.execMul d a b s
  | .mulh d a b => Sys2Proof.Machine.execMulh d a b s
  | .mulhn d a b => Sys2Proof.Machine.execMulhn d a b s
  | .div d a b => Sys2Proof.Machine.execDiv d a b s
  | .divn d a b => Sys2Proof.Machine.execDivn d a b s
  | .rem d a b => Sys2Proof.Machine.execRem d a b s
  | .remn d a b => Sys2Proof.Machine.execRemn d a b s
  | .clz d a => Sys2Proof.Machine.execClz d a s
  | .ctz d a => Sys2Proof.Machine.execCtz d a s
  | .popc d a => Sys2Proof.Machine.execPopc d a s
  | .adds d a b n => Sys2Proof.Machine.execAdds d a b n s
  | .shli d a n => Sys2Proof.Machine.execShli d a n s
  | .shri d a n => Sys2Proof.Machine.execShri d a n s
  | .srai d a n => Sys2Proof.Machine.execSrai d a n s
  | .addi d a v_i => Sys2Proof.Machine.execAddi d a v_i s
  | .andi d a v_i => Sys2Proof.Machine.execAndi d a v_i s
  | .ori d a v_i => Sys2Proof.Machine.execOri d a v_i s
  | .xori d a v_i => Sys2Proof.Machine.execXori d a v_i s
  | .slti d a v_i => Sys2Proof.Machine.execSlti d a v_i s
  | .sltni d a v_i => Sys2Proof.Machine.execSltni d a v_i s
  | .movhi d v_i => Sys2Proof.Machine.execMovhi d v_i s
  | .addpc d v_i => Sys2Proof.Machine.execAddpc d v_i s
  | .beq a b v_i => Sys2Proof.Machine.execBeq a b v_i s
  | .bne a b v_i => Sys2Proof.Machine.execBne a b v_i s
  | .blt a b v_i => Sys2Proof.Machine.execBlt a b v_i s
  | .bge a b v_i => Sys2Proof.Machine.execBge a b v_i s
  | .bltn a b v_i => Sys2Proof.Machine.execBltn a b v_i s
  | .bgen a b v_i => Sys2Proof.Machine.execBgen a b v_i s
  | .jal d v_i => Sys2Proof.Machine.execJal d v_i s
  | .jalr d a v_i => Sys2Proof.Machine.execJalr d a v_i s
  | .yield n => Sys2Proof.Machine.execYield n s
  | .endTask a v_s n => Sys2Proof.Machine.execEndTask a v_s n s
  | .endCont d a => Sys2Proof.Machine.execEndCont d a s
  | .release d a x p => Sys2Proof.Machine.execRelease d a x p s
  | .releaseDie d a e x p => Sys2Proof.Machine.execReleaseDie d a e x p s
  | .releasePeer d a x p => Sys2Proof.Machine.execReleasePeer d a x p s
  | .claim e => Sys2Proof.Machine.execClaim e s
  | .unclaim e => Sys2Proof.Machine.execUnclaim e s
  | .prio d => Sys2Proof.Machine.execPrio d s
  | .prioSet d a => Sys2Proof.Machine.execPrioSet d a s
  | .self d => Sys2Proof.Machine.execSelf d s
  | .selfFrame d => Sys2Proof.Machine.execSelfFrame d s
  | .gdec a c => Sys2Proof.Machine.execGdec a c s
  | .gnode d => Sys2Proof.Machine.execGnode d s
  | .gnodeN d => Sys2Proof.Machine.execGnodeN d s
  | .ld t b d q => Sys2Proof.Machine.execLd t b d q s
  | .st t b d q => Sys2Proof.Machine.execSt t b d q s
  | .lda t b d q => Sys2Proof.Machine.execLda t b d q s
  | .stl t b d q => Sys2Proof.Machine.execStl t b d q s
  | .amo t b v_s o r q => Sys2Proof.Machine.execAmo t b v_s o r q s
  | .amop b v_s o r q => Sys2Proof.Machine.execAmop b v_s o r q s
  | .amoa t b v_s o k q => Sys2Proof.Machine.execAmoa t b v_s o k q s
  | .cas t b c n r q => Sys2Proof.Machine.execCas t b c n r q s
  | .fadd t b v_s r q => Sys2Proof.Machine.execFadd t b v_s r q s
  | .faddPosted b v_s r q => Sys2Proof.Machine.execFaddPosted b v_s r q s
  | .stfFlag t b f q => Sys2Proof.Machine.execStfFlag t b f q s
  | .stfTask t b f q => Sys2Proof.Machine.execStfTask t b f q s
  | .pref b d => Sys2Proof.Machine.execPref b d s
  | .prefFar b d => Sys2Proof.Machine.execPrefFar b d s
  | .fence => Sys2Proof.Machine.execFence s
  | .binit d a k => Sys2Proof.Machine.execBinit d a k s
  | .bexpect a k => Sys2Proof.Machine.execBexpect a k s
  | .barrive k => Sys2Proof.Machine.execBarrive k s
  | .barriveH a => Sys2Proof.Machine.execBarriveH a s
  | .bwait d a k => Sys2Proof.Machine.execBwait d a k s
  | .btest d h k => Sys2Proof.Machine.execBtest d h k s
  | .bpoison c k => Sys2Proof.Machine.execBpoison c k s
  | .copy d a => Sys2Proof.Machine.execCopy d a s
  | .copyc d a => Sys2Proof.Machine.execCopyc d a s
  | .copym d a => Sys2Proof.Machine.execCopym d a s
  | .cwp d n => Sys2Proof.Machine.execCwp d n s
  | .cring d a => Sys2Proof.Machine.execCring d a s
  | .vld t b d => Sys2Proof.Machine.execVld t b d s
  | .vldH t b d => Sys2Proof.Machine.execVldH t b d s
  | .vst t b d => Sys2Proof.Machine.execVst t b d s
  | .vstH t b d => Sys2Proof.Machine.execVstH t b d s
  | .vlds t b v_s w => Sys2Proof.Machine.execVlds t b v_s w s
  | .vsts t b v_s w => Sys2Proof.Machine.execVsts t b v_s w s
  | .vgath d a b k t => Sys2Proof.Machine.execVgath d a b k t s
  | .vscat d a b k t => Sys2Proof.Machine.execVscat d a b k t s
  | .vbcast d a k t => Sys2Proof.Machine.execVbcast d a k t s
  | .vins d a b t => Sys2Proof.Machine.execVins d a b t s
  | .vext d a b u t => Sys2Proof.Machine.execVext d a b u t s
  | .vadd d a b k t => Sys2Proof.Machine.execVadd d a b k t s
  | .vsub d a b k t => Sys2Proof.Machine.execVsub d a b k t s
  | .vmul d a b k t => Sys2Proof.Machine.execVmul d a b k t s
  | .vmin d a b k t => Sys2Proof.Machine.execVmin d a b k t s
  | .vmax d a b k t => Sys2Proof.Machine.execVmax d a b k t s
  | .vdiv d a b k t => Sys2Proof.Machine.execVdiv d a b k t s
  | .vfma d a b k t => Sys2Proof.Machine.execVfma d a b k t s
  | .vfms d a b k t => Sys2Proof.Machine.execVfms d a b k t s
  | .vnfma d a b k t => Sys2Proof.Machine.execVnfma d a b k t s
  | .vabs d a k t => Sys2Proof.Machine.execVabs d a k t s
  | .vneg d a k t => Sys2Proof.Machine.execVneg d a k t s
  | .vsqrt d a k t => Sys2Proof.Machine.execVsqrt d a k t s
  | .vrcp d a k t => Sys2Proof.Machine.execVrcp d a k t s
  | .vrsq d a k t => Sys2Proof.Machine.execVrsq d a k t s
  | .vexp2 d a k t => Sys2Proof.Machine.execVexp2 d a k t s
  | .vlog2 d a k t => Sys2Proof.Machine.execVlog2 d a k t s
  | .vcmp d a b k c t => Sys2Proof.Machine.execVcmp d a b k c t s
  | .vsel d a b k t => Sys2Proof.Machine.execVsel d a b k t s
  | .vcvt d a k h c r u => Sys2Proof.Machine.execVcvt d a k h c r u s
  | .viadd d a b k u t => Sys2Proof.Machine.execViadd d a b k u t s
  | .visub d a b k u t => Sys2Proof.Machine.execVisub d a b k u t s
  | .vimul d a b k u t => Sys2Proof.Machine.execVimul d a b k u t s
  | .vimulh d a b k u t => Sys2Proof.Machine.execVimulh d a b k u t s
  | .vimin d a b k u t => Sys2Proof.Machine.execVimin d a b k u t s
  | .vimax d a b k u t => Sys2Proof.Machine.execVimax d a b k u t s
  | .vand d a b k t => Sys2Proof.Machine.execVand d a b k t s
  | .vor d a b k t => Sys2Proof.Machine.execVor d a b k t s
  | .vxor d a b k t => Sys2Proof.Machine.execVxor d a b k t s
  | .vshl d a b k t => Sys2Proof.Machine.execVshl d a b k t s
  | .vshr d a b k t => Sys2Proof.Machine.execVshr d a b k t s
  | .vsra d a b k t => Sys2Proof.Machine.execVsra d a b k t s
  | .vicmp d a b k u c t => Sys2Proof.Machine.execVicmp d a b k u c t s
  | .vredadd d a k u f t => Sys2Proof.Machine.execVredadd d a k u f t s
  | .vredmin d a k u f t => Sys2Proof.Machine.execVredmin d a k u f t s
  | .vredmax d a k u f t => Sys2Proof.Machine.execVredmax d a k u f t s
  | .vredmini d a k u t => Sys2Proof.Machine.execVredmini d a k u t s
  | .vperm d a b k t => Sys2Proof.Machine.execVperm d a b k t s
  | .vslideUp d a b k t => Sys2Proof.Machine.execVslideUp d a b k t s
  | .vslideDn d a b k t => Sys2Proof.Machine.execVslideDn d a b k t s
  | .vzipLo d a b k t => Sys2Proof.Machine.execVzipLo d a b k t s
  | .vzipHi d a b k t => Sys2Proof.Machine.execVzipHi d a b k t s
  | .vcompr d a k t => Sys2Proof.Machine.execVcompr d a k t s
  | .kand d a b => Sys2Proof.Machine.execKand d a b s
  | .kor d a b => Sys2Proof.Machine.execKor d a b s
  | .kxor d a b => Sys2Proof.Machine.execKxor d a b s
  | .knot d a => Sys2Proof.Machine.execKnot d a s
  | .kpopc d a => Sys2Proof.Machine.execKpopc d a s
  | .kfirst d a => Sys2Proof.Machine.execKfirst d a s
  | .kset d a => Sys2Proof.Machine.execKset d a s
  | .kmov d a => Sys2Proof.Machine.execKmov d a s
  | .kmovX d a => Sys2Proof.Machine.execKmovX d a s
  | .bkany a v_i => Sys2Proof.Machine.execBkany a v_i s
  | .bknone a v_i => Sys2Proof.Machine.execBknone a v_i s
  | .rep d a b c l => Sys2Proof.Machine.execRep d a b c l s
  | .mxldb v_s a c k y => Sys2Proof.Machine.execMxldb v_s a c k y s
  | .mxz t y => Sys2Proof.Machine.execMxz t y s
  | .mxlda t a c y => Sys2Proof.Machine.execMxlda t a c y s
  | .mma t a v_s p v_i k => Sys2Proof.Machine.execMma t a v_s p v_i k s
  | .mxst t a c b e o g => Sys2Proof.Machine.execMxst t a c b e o g s
  | .scmc e v_s m n => Sys2Proof.Machine.execScmc e v_s m n s
  | .mxpass p n => Sys2Proof.Machine.execMxpass p n s
  | .mxqT d t => Sys2Proof.Machine.execMxqT d t s
  | .mxqS d a => Sys2Proof.Machine.execMxqS d a s
  | .couple d a c => Sys2Proof.Machine.execCouple d a c s
  | .uncouple d a c => Sys2Proof.Machine.execUncouple d a c s
  | .cquery d g c => Sys2Proof.Machine.execCquery d g c s
  | .csync => Sys2Proof.Machine.execCsync s
  | .pageq d a => Sys2Proof.Machine.execPageq d a s
  | .pageqH d a => Sys2Proof.Machine.execPageqH d a s
  | .csrr d c => Sys2Proof.Machine.execCsrr d c s
  | .csrw a c => Sys2Proof.Machine.execCsrw a c s
  | .trap d a n => Sys2Proof.Machine.execTrap d a n s
  | .brk n => Sys2Proof.Machine.execBrk n s
  | .hnop => Sys2Proof.Machine.execHnop s
  | .ext p => Sys2Proof.Machine.execExt p s
  | .mod b v_s r => Sys2Proof.Machine.execMod b v_s r s
  | .sched v_s d => Sys2Proof.Machine.execSched v_s d s
  | .watchdog => Sys2Proof.Machine.execWatchdog s
  | .witnessVerdict => Sys2Proof.Machine.execWitnessVerdict s
  | .streakLimit => Sys2Proof.Machine.execStreakLimit s
  | .quarantineMove => Sys2Proof.Machine.execQuarantineMove s
  | .uncorrectableError => Sys2Proof.Machine.execUncorrectableError s
  | .correctedError => Sys2Proof.Machine.execCorrectedError s
  | .triggerDelivery => Sys2Proof.Machine.execTriggerDelivery s
  | .heldWriteArrival => Sys2Proof.Machine.execHeldWriteArrival s
  | .releaseEnqueuePush => Sys2Proof.Machine.execReleaseEnqueuePush s
  | .frameDrainEnd => Sys2Proof.Machine.execFrameDrainEnd s
  | .homeStore => Sys2Proof.Machine.execHomeStore s
  | .dropReceived => Sys2Proof.Machine.execDropReceived s
  | .storePerformed => Sys2Proof.Machine.execStorePerformed s
  | .loadFill => Sys2Proof.Machine.execLoadFill s
  | .atomicExecute => Sys2Proof.Machine.execAtomicExecute s
  | .barrierUpdate => Sys2Proof.Machine.execBarrierUpdate s
  | .handleArrival => Sys2Proof.Machine.execHandleArrival s
  | .engineKick => Sys2Proof.Machine.execEngineKick s
  | .copyAppend => Sys2Proof.Machine.execCopyAppend s
  | .copyPacketExecute => Sys2Proof.Machine.execCopyPacketExecute s
  | .copyCompletion => Sys2Proof.Machine.execCopyCompletion s
  | .completionRecordWrite => Sys2Proof.Machine.execCompletionRecordWrite s
  | .engineHartFault => Sys2Proof.Machine.execEngineHartFault s
  | .engineQuantum => Sys2Proof.Machine.execEngineQuantum s
  | .microcodeLoad => Sys2Proof.Machine.execMicrocodeLoad s
  | .arrayCommandExecute => Sys2Proof.Machine.execArrayCommandExecute s
  | .mmaStep => Sys2Proof.Machine.execMmaStep s
  | .leaseEnd => Sys2Proof.Machine.execLeaseEnd s
  | .scaleDelivery => Sys2Proof.Machine.execScaleDelivery s
  | .scaleFileApply => Sys2Proof.Machine.execScaleFileApply s
  | .passExecute => Sys2Proof.Machine.execPassExecute s
  | .passComplete => Sys2Proof.Machine.execPassComplete s
  | .raiseEvent => Sys2Proof.Machine.execRaiseEvent s
  | .eventUnqueue => Sys2Proof.Machine.execEventUnqueue s
  | .version => Sys2Proof.Machine.execVersion s
  | .linkState => Sys2Proof.Machine.execLinkState s
  | .temperature => Sys2Proof.Machine.execTemperature s
  | .power => Sys2Proof.Machine.execPower s
  | .errlogCount => Sys2Proof.Machine.execErrlogCount s
  | .stepEnter => Sys2Proof.Machine.execStepEnter s
  | .stepDone => Sys2Proof.Machine.execStepDone s
  | .groupUpdate => Sys2Proof.Machine.execGroupUpdate s
  | .issueInstance => Sys2Proof.Machine.execIssueInstance s
  | .releaseAccept => Sys2Proof.Machine.execReleaseAccept s
  | .releaseResend => Sys2Proof.Machine.execReleaseResend s
  | .releaseForward => Sys2Proof.Machine.execReleaseForward s
  | .holdEnd => Sys2Proof.Machine.execHoldEnd s
  | .create => Sys2Proof.Machine.execCreate s
  | .arm => Sys2Proof.Machine.execArm s
  | .activate => Sys2Proof.Machine.execActivate s
  | .quiesce => Sys2Proof.Machine.execQuiesce s
  | .freeze => Sys2Proof.Machine.execFreeze s
  | .thaw => Sys2Proof.Machine.execThaw s
  | .destroy => Sys2Proof.Machine.execDestroy s
  | .contextCommandInvalid => Sys2Proof.Machine.execContextCommandInvalid s
  | .contextFieldWrite => Sys2Proof.Machine.execContextFieldWrite s
  | .quiesceDrainDone => Sys2Proof.Machine.execQuiesceDrainDone s
  | .freezeComplete => Sys2Proof.Machine.execFreezeComplete s
  | .scrubDone => Sys2Proof.Machine.execScrubDone s
  | .functionLevelReset => Sys2Proof.Machine.execFunctionLevelReset s
  | .kernelDrainEnd => Sys2Proof.Machine.execKernelDrainEnd s
  | .queueNotify => Sys2Proof.Machine.execQueueNotify s
  | .queueEnable => Sys2Proof.Machine.execQueueEnable s
  | .queueTeardown => Sys2Proof.Machine.execQueueTeardown s
  | .pasidInvalidate => Sys2Proof.Machine.execPasidInvalidate s
  | .lastFetchReturn => Sys2Proof.Machine.execLastFetchReturn s
  | .mapperBind => Sys2Proof.Machine.execMapperBind s
  | .mapperUnbind => Sys2Proof.Machine.execMapperUnbind s
  | .nop => Sys2Proof.Machine.execNop s
  | .launchTask => Sys2Proof.Machine.execLaunchTask s
  | .launchGroup => Sys2Proof.Machine.execLaunchGroup s
  | .queueCopy => Sys2Proof.Machine.execQueueCopy s
  | .signalStore => Sys2Proof.Machine.execSignalStore s
  | .signalAdd => Sys2Proof.Machine.execSignalAdd s
  | .signalTrigger => Sys2Proof.Machine.execSignalTrigger s
  | .wait => Sys2Proof.Machine.execWait s
  | .waitTimeout => Sys2Proof.Machine.execWaitTimeout s
  | .skipIf => Sys2Proof.Machine.execSkipIf s
  | .jump => Sys2Proof.Machine.execJump s
  | .call => Sys2Proof.Machine.execCall s
  | .returnList => Sys2Proof.Machine.execReturnList s
  | .armTrigger => Sys2Proof.Machine.execArmTrigger s
  | .snapshotCut => Sys2Proof.Machine.execSnapshotCut s
  | .registerKernel => Sys2Proof.Machine.execRegisterKernel s
  | .setCeilings => Sys2Proof.Machine.execSetCeilings s
  | .unmap => Sys2Proof.Machine.execUnmap s
  | .protect => Sys2Proof.Machine.execProtect s
  | .migrate => Sys2Proof.Machine.execMigrate s
  | .invalidateAck => Sys2Proof.Machine.execInvalidateAck s
  | .migrateCopyDone => Sys2Proof.Machine.execMigrateCopyDone s
  | .tlbMiss => Sys2Proof.Machine.execTlbMiss s
  | .walkComplete => Sys2Proof.Machine.execWalkComplete s
  | .parkRepair => Sys2Proof.Machine.execParkRepair s
  | .unitPoison => Sys2Proof.Machine.execUnitPoison s
  | .faultQueueResend => Sys2Proof.Machine.execFaultQueueResend s
  | .cowCopyDone => Sys2Proof.Machine.execCowCopyDone s
  | .consistCreate => Sys2Proof.Machine.execConsistCreate s
  | .consistDestroy => Sys2Proof.Machine.execConsistDestroy s
  | .chainApply => Sys2Proof.Machine.execChainApply s
  | .chainAck => Sys2Proof.Machine.execChainAck s
  | .tailQuery => Sys2Proof.Machine.execTailQuery s
  | .coupleCopyDone => Sys2Proof.Machine.execCoupleCopyDone s
  | .coupleStreamDone => Sys2Proof.Machine.execCoupleStreamDone s
  | .uncoupleDone => Sys2Proof.Machine.execUncoupleDone s
  | .memberFail => Sys2Proof.Machine.execMemberFail s
  | .flitSend => Sys2Proof.Machine.execFlitSend s
  | .flitReceive => Sys2Proof.Machine.execFlitReceive s
  | .replayTimeout => Sys2Proof.Machine.execReplayTimeout s
  | .nakPendingExpiry => Sys2Proof.Machine.execNakPendingExpiry s
  | .messageIngress => Sys2Proof.Machine.execMessageIngress s
  | .bounceResend => Sys2Proof.Machine.execBounceResend s
  | .lctlRate => Sys2Proof.Machine.execLctlRate s
  | .lctlRetrain => Sys2Proof.Machine.execLctlRetrain s
  | .lctlClr => Sys2Proof.Machine.execLctlClr s
  | .lctlPin => Sys2Proof.Machine.execLctlPin s
  | .linjLaneArm => Sys2Proof.Machine.execLinjLaneArm s
  | .linjCrcArm => Sys2Proof.Machine.execLinjCrcArm s
  | .laneRetire => Sys2Proof.Machine.execLaneRetire s
  | .retrainDone => Sys2Proof.Machine.execRetrainDone s
  | .replayWindow => Sys2Proof.Machine.execReplayWindow s
  | .flitReplayLimit => Sys2Proof.Machine.execFlitReplayLimit s
  | .peerIngress => Sys2Proof.Machine.execPeerIngress s
  | .proxyAtomic => Sys2Proof.Machine.execProxyAtomic s
  | .remoteTimeout => Sys2Proof.Machine.execRemoteTimeout s
  | .stationFail => Sys2Proof.Machine.execStationFail s
  | .snapshotCutTaken => Sys2Proof.Machine.execSnapshotCutTaken s
  | .drainUnit => Sys2Proof.Machine.execDrainUnit s
  | .snapshotDone => Sys2Proof.Machine.execSnapshotDone s
  | .moduleReset => Sys2Proof.Machine.execModuleReset s
  | .bootStage => Sys2Proof.Machine.execBootStage s
  | .spdmRequest => Sys2Proof.Machine.execSpdmRequest s
  | .featCommit => Sys2Proof.Machine.execFeatCommit s
  | .scaleReq => Sys2Proof.Machine.execScaleReq s
  | .pwrLimit => Sys2Proof.Machine.execPwrLimit s
  | .powerWindow => Sys2Proof.Machine.execPowerWindow s
  | .errorRateThreshold => Sys2Proof.Machine.execErrorRateThreshold s
  | .fwStage => Sys2Proof.Machine.execFwStage s
  | .fwCommit => Sys2Proof.Machine.execFwCommit s
  | .fwAbort => Sys2Proof.Machine.execFwAbort s
  | .mailboxesEmpty => Sys2Proof.Machine.execMailboxesEmpty s
  | .complexFailover => Sys2Proof.Machine.execComplexFailover s
  | .diagnosticsDone => Sys2Proof.Machine.execDiagnosticsDone s
  | .unitRetire => Sys2Proof.Machine.execUnitRetire s
  | .registerWrite => Sys2Proof.Machine.execRegisterWrite s
  | .illegalInstruction => Sys2Proof.Machine.execIllegalInstruction s
  | .fetchBound => Sys2Proof.Machine.execFetchBound s
  | .thawRestoreDone => Sys2Proof.Machine.execThawRestoreDone s
  | .ackControlFlit => Sys2Proof.Machine.execAckControlFlit s
  | .remoteAcknowledgement => Sys2Proof.Machine.execRemoteAcknowledgement s
  | .stationReturn => Sys2Proof.Machine.execStationReturn s
  | .undervoltStep => Sys2Proof.Machine.execUndervoltStep s
  | .memoryUncorrectableError => Sys2Proof.Machine.execMemoryUncorrectableError s

end Sys2Proof.Machine
end

