-- ==== Sys2Proof/Machine/Outside.lean ====
section
/-! DEFINITION. Time, and what comes from outside the machine: which step, with what in it. -/

namespace Sys2Proof.Machine

/-! ### Time -/

/-- A step that a PREF of a line by a bogie is still to take: the request, its READ, or the DATA on its way back (R189, R207). -/
def prefStep (g ctx va : Nat) (ev : Instr) (a : Args) : Bool :=
  (ev == .loadFill || ev == .tailQuery) && a.g == g && a.c == ctx && a.va / 64 == va / 64 &&
    (a.n == 1 || a.n == 2 || ((a.n == 4 || a.n == 5) && a.m % 4 != 0))

/-- A bogie waits as PF_WAIT counts (R189): a BWAIT on a barrier that a copy feeds, or a load on a line whose PREF is in flight. -/
def State.waitsForCopy (s : State) (g : Nat) (b : Bogie) : Bool :=
  match b.phase, b.stack with
  | .waiting, f :: _ =>
    (match f.await with
      | some a => (match a.op with
        | .bwait k _ => a.reply.isNone && s.copies.any fun c => c.uid == f.uid && c.bar == k
        | _ => false)
      | none => false)
  | .stalled va, f :: _ => s.agenda.any (fun h => prefStep g f.ctx va h.ev h.arg) || s.messages.any fun m => prefStep g f.ctx va m.ev m.arg
  | _, _ => false

/-- t clocks pass (R23). -/
def State.pass (s : State) (t : Nat) : State :=
  if t = 0 then s
  else
    { s with
      clock := s.clock + t
      bogies := s.bogies.map fun (e : Nat × Bogie) => if s.waitsForCopy e.1 e.2 then (e.1, { e.2 with pfWait := e.2.pfWait + BitVec.ofNat 64 t }) else e }

/-! ### Steps that come from outside -/

/-- What happens to the machine whether or not it answers: errors, lanes, stations, other modules, the bring-up. -/
def natureSteps : List Instr :=
  [.moduleReset, .bootStage, .uncorrectableError, .memoryUncorrectableError, .correctedError, .memberFail, .laneRetire, .stationFail,
   .stationReturn, .peerIngress, .remoteAcknowledgement, .spdmRequest, .complexFailover, .powerWindow, .undervoltStep, .unitRetire,
   .engineQuantum, .homeStore]

/-- What the host and its drivers do, once the registers answer (R422). -/
def driverSteps : List Instr :=
  [.registerWrite, .contextFieldWrite, .create, .arm, .activate, .quiesce, .freeze, .thaw, .destroy, .contextCommandInvalid,
   .functionLevelReset, .queueNotify, .queueEnable, .queueTeardown, .pasidInvalidate, .unmap, .protect, .migrate, .consistCreate,
   .consistDestroy, .lctlRate, .lctlRetrain, .lctlClr, .lctlPin, .linjLaneArm, .linjCrcArm, .featCommit, .scaleReq, .pwrLimit, .fwStage,
   .fwCommit, .fwAbort, .engineKick, .microcodeLoad]

/-- A step of the PF driver is a request to firmware, which goes through a mailbox (R24, R427): a command or a field of a context's block, a
page or consist request, a feature, scale or power request, or one about queues. -/
def mailed (ev : Instr) (a : Args) : Bool :=
  match ev with
  | .contextFieldWrite | .create | .arm | .activate | .quiesce | .freeze | .thaw | .destroy | .contextCommandInvalid | .functionLevelReset
  | .queueEnable | .queueTeardown | .pasidInvalidate | .unmap | .protect | .migrate | .consistCreate | .consistDestroy | .featCommit
  | .scaleReq | .pwrLimit | .microcodeLoad => true
  | .registerWrite =>
    a.c == 0 && ((decide (0x140 ≤ a.n) && decide (a.n < 0x158)) || (decide (0x10000 ≤ a.n) && decide (a.n < 0x14000)) ||
      (decide (0x18000 ≤ a.n) && decide (a.n < 0x18000 + 24704)) || (decide (0x20000 ≤ a.n) && decide (a.n < 0x20060)))
  | _ => false

/-- Operands drawn freely. -/
def State.drawArgs (s : State) : Args × State :=
  let (g, s) := s.choose 1536
  let (d, s) := s.choose 8
  let (h, s) := s.choose 24
  let (c, s) := s.choose 193
  let (n, s) := s.draw
  let (m, s) := s.draw
  let (va, s) := s.draw
  let (v, s) := s.draw
  let (p, s) := s.draw
  let (f, s) := s.choose 2
  ({ g := g, d := d, h := h, c := c, n := n, m := m, va := va, flag := f == 1, val := BitVec.ofNat 64 v, pkt := BitVec.ofNat 512 p }, s)

/-- A packet with the kind of a request in its low four bits (R354, R359). -/
def withKind (p : Vec) (k : Nat) : Vec := BitVec.ofNat 512 (p.toNat / 16 * 16 + k)

/-- An access size of the register spaces (R423). -/
def sizeOf' (m : Nat) : Nat := 2 ^ (m % 4)

/-- The store that operands describe: up to eight bytes within a doubleword, of the host or of another module. -/
def storeArgs (a : Args) : Op := .store (placed (a.va / 8 * 8) (bytesOfNat (a.m % 8 + 1) a.val.toNat)) false false none

/-- The request of another module that operands describe: an access of a task or hart, or the read or write of a copy within a line
(R405, R407). -/
def peerOp (a : Args) : Op :=
  let va := a.va % 2 ^ 46
  let n := sizeOf' a.m
  let bytes := placed (va / n * n) (bytesOfNat n a.val.toNat)
  let k := 1 + a.m / 64 % (64 - a.m % 64)
  match a.g % 8 with
  | 0 => .load (va / n * n) n true
  | 1 => .store bytes false false none
  | 2 => .store bytes false false (some (.flag (bits a.pkt 45 3 * 8) 0))
  | 3 => .store bytes false false (some (.task (bits a.pkt 45 6 * 64) (a.h % 16) (a.val.setWidth 32)))
  | 4 => .release none true { prio := a.h % 16, record := va / 64 * 64, arg := a.val.setWidth 32 }
  | 5 => .load (va / 64 * 64 + a.m % 64) k false
  | 6 => .store (placed (va / 64 * 64 + a.m % 64) (bytesOfNat k a.pkt.toNat)) false false none
  | _ =>
    let w := if a.flag then 4 else 8
    match a.h % 3 with
    | 0 => .atomic (va / w * w) w (.int (BitVec.ofNat 4 (a.m % 9))) a.val (dword a.pkt 0) 0 .reg
    | 1 => .atomic (va / w * w) w .cas a.val (dword a.pkt 0) 0 .reg
    | _ =>
      let fmt := a.m % 3
      let k := if fmt = 2 then 4 else 2
      .atomic (va / k * k) k (.fadd (BitVec.ofNat 3 fmt)) a.val 0 0 .reg
where
  /-- Doubleword i of a packet. -/
  dword (p : Vec) (i : Nat) : Word := p.extractLsb' (64 * i) 64

/-- The operands of an outside step within their ranges. -/
def outsideArgs (ev : Instr) (a : Args) : Args :=
  match ev with
  | .bootStage => { a with h := a.h % 2, m := a.m % 5 }
  | .correctedError => { a with m := a.m % 2 }
  | .memoryUncorrectableError =>
    { a with m := a.m % 5
             d := if a.m % 5 = 1 ∨ a.m % 5 = 2 ∨ (a.m % 5 = 3 ∧ a.n % 3 = 1) then a.g % 192 else if a.m % 5 = 3 ∧ a.n % 3 = 2 then a.g else a.d }
  | .memberFail => { a with n := a.n % 64 }
  | .laneRetire | .linjLaneArm => { a with n := a.n % 56, m := a.m % 68 }
  | .lctlRate | .lctlRetrain | .lctlClr | .lctlPin | .linjCrcArm => { a with n := a.n % 56 }
  | .stationFail | .stationReturn => { a with n := a.n % 16 }
  | .peerIngress => { a with m := a.m % 1024, h := a.h % 10, req := { src := .peer (a.m % 1024), ctx := a.g % 193, op := peerOp a } }
  | .remoteAcknowledgement => { a with c := ([0, 0x02, 0x07, 0x09, 0x10][a.m % 5]?).getD 0 }
  | .unitRetire => { a with m := a.m % 2, n := 0, va := 0 }
  | .engineQuantum => { a with h := 16 + a.h % 6, flag := true }
  | .homeStore =>
    if a.h = 0 then { a with d := 8, req := { ctx := a.c, op := storeArgs a } }
    else if a.h = 1 then { a with req := { ctx := 255, op := storeArgs a } }
    else { a with req := { ctx := a.c, op := storeArgs a } }
  | .registerWrite => { a with m := sizeOf' a.m, n := a.n % 2 ^ 21 / sizeOf' a.m * sizeOf' a.m }
  | .contextFieldWrite => { a with m := sizeOf' a.m, n := a.n % 128 / sizeOf' a.m * sizeOf' a.m }
  | .queueNotify => { a with m := sizeOf' a.m, va := a.va % 8192 }
  | .queueEnable | .queueTeardown => { a with n := a.n % 1024 }
  | .pasidInvalidate => { a with n := a.n % 2 ^ 20 }
  | .unmap => { a with pkt := withKind a.pkt 1 }
  | .protect => { a with pkt := withKind a.pkt 2 }
  | .migrate => { a with pkt := withKind a.pkt 3 }
  | .consistCreate => { a with pkt := withKind a.pkt 1 }
  | .consistDestroy => { a with pkt := withKind a.pkt 2 }
  | .engineKick => { a with n := 0, m := 8 }
  | _ => a

/-- The host may write there: its own memory, a die's, or a page of a context that it maps writable. -/
def State.hostMay (s : State) (q : Req) (d : Nat) : Bool :=
  decide (8 ≤ d) || decide (192 < q.ctx) || (s.leaf q.ctx (opVa q.op)).any fun l => l.w && l.rd && l.cls != 4 && l.cls != 5

/-- What an event under way leaves to the world (log 2): whether the digests differ by an upset, whether noise damages a flit, whether a
retrain succeeds, whether F3 can repair. -/
def State.chance (s : State) (ev : Instr) (a : Args) : Args × State :=
  match ev with
  | .witnessVerdict | .parkRepair => ({ a with flag := (s.choose 2).1 == 1 }, (s.choose 2).2)
  | .flitReceive => ({ a with m := (s.choose 3).1 }, (s.choose 3).2)
  | .retrainDone => ({ a with m := (s.choose 2).1 }, (s.choose 2).2)
  | _ => (a, s)

end Sys2Proof.Machine
end

