-- ==== Sys2Proof/Machine/Step.lean ====
section
/-! DEFINITION. One step of the machine: an agent runs its next word, something under way happens, or something comes from
outside. The state's list of free choices says which (log 2). -/

namespace Sys2Proof.Machine

/-- A bogie whose word ended stalled has not fetched it: it is fetched again (R134). -/
def State.settleFetch (s : State) (g n : Nat) : State :=
  match (s.bogie g).phase with
  | .stalled _ => s.setBogie g { s.bogie g with fetched := n }
  | _ => s

/-- An outcome with what the fetch counts settled. -/
def settle (g n : Nat) (o : Host.Outcome State Fault Refusal) : Host.Outcome State Fault Refusal :=
  match o with
  | .next s => .next (s.settleFetch g n)
  | .fault r => .fault r
  | .refused r => .refused r

/-- The fetched word of a bogie that has fetched n words before it: decoded and run, or ILLEGAL_INSTRUCTION (R74). -/
def runWord (g n : Nat) (w : BitVec 32) (s : State) : Host.Outcome State Fault Refusal :=
  match decode w with
  | some i => settle g n (exec i (s.setBogie g { s.bogie g with fetched := n + 1 }))
  | none => exec .illegalInstruction { s with arg := { n := w.toNat } }

/-- The next word of bogie g: of its repetition, or fetched (R60, R114, R134, R263). -/
def runBogie (g : Nat) (s : State) : Host.Outcome State Fault Refusal :=
  let b := s.bogie g
  match b.phase, b.stack with
  | .running, f :: _ =>
    match b.rep with
    | some r =>
      match r.now with
      | some i => exec i s
      | none => exec .illegalInstruction { s with arg := { n := ((r.body[r.idx]?).getD 0).toNat } }
    | none =>
      match fetchTask s g b f b.fetched f.cpu.pc.toNat with
      | .ok w => runWord g b.fetched w (s.fillCode g f.ctx f.cpu.pc.toNat)
      | .error (.fault 0x0F _ _) => exec .watchdog s
      | .error (.fault 0x03 _ _) => exec .fetchBound s
      | .error st => .next (s.afterWord g (b.stop g f st))
  | _, _ => .next s

/-- The next word of an engine hart's routine (R234, R235). -/
def runHart (d h : Nat) (s : State) : Host.Outcome State Fault Refusal :=
  let x := s.hart d h
  if h < 16 ∨ x.state ≠ 1 ∨ x.await.isSome ∨ x.stopped.isSome then .next s
  else
    let w : BitVec 32 := BitVec.ofNat 32 (natOfBytes (Tab.range x.image 0 x.cpu.pc.toNat 4))
    match decode w with
    | some i => exec i s
    | none => exec .illegalInstruction { s with arg := { n := w.toNat } }

/-- An agent's next word. -/
def runAgent (a : Agent) (s : State) : Host.Outcome State Fault Refusal :=
  match a with
  | .bogie g => runBogie g { s with cur := a }
  | .hart d h => runHart d h { s with cur := a }

/-- Happening number n of the agenda, at its time or later. A request that left its mailbox and has not been taken when another update
commits waits in it again (R427). -/
def runEvent (n : Nat) (s : State) : Host.Outcome State Fault Refusal :=
  match s.agenda[n]? with
  | none => .next s
  | some h =>
    let s := { s with agenda := dropAt s.agenda n, clock := max s.clock h.due }
    let (a, s) := s.chance h.ev h.arg
    if s.sys.update = 2 ∧ mailed h.ev a ∧ h.lane = some (9000 + mailboxOf h.ev, mailSender h.ev a) then .next (s.mail h.ev a)
    else exec h.ev { s with arg := a }

/-- Something from outside, of those that can come now, F2's hand on a bogie (R125) among them. While an update commits, a request to firmware
waits in its mailbox (R427). -/
def runOutside (s : State) : Host.Outcome State Fault Refusal :=
  let l := if s.ready then natureSteps ++ driverSteps else natureSteps
  let (i, s) := s.choose (l.length + 1)
  let (a, s) := s.drawArgs
  match l[i]? with
  | none => .next (if s.ready then s.manageBogie a else s)
  | some ev =>
    let a := outsideArgs ev a
    if ev == .homeStore && !s.hostMay a.req a.d then .next s
    else if s.sys.update = 2 ∧ mailed ev a then .next (s.mail ev a)
    else exec ev { s with arg := a }

/-- The bogies and harts that can run a word. -/
def State.runnable (s : State) : List Agent :=
  (s.bogies.filterMap fun e => if e.2.phase == .running && !e.2.stack.isEmpty then some (.bogie e.1) else none) ++
    s.harts.filterMap fun e => if decide (16 ≤ e.1 % 22) && e.2.state == 1 && e.2.await.isNone && e.2.stopped.isNone then some (.hart (e.1 / 22) (e.1 % 22)) else none

/-- The happenings that can come now: those whose clock has come and that are the first of their lane. -/
def State.comeable (s : State) : List Nat :=
  (List.range s.agenda.length).filter fun i =>
    match s.agenda[i]? with
    | some h => decide (h.due ≤ s.clock) && (h.lane.isNone || !(s.agenda.take i).any fun e => e.lane == h.lane)
    | none => false

/-- A free turn: some clocks pass, then one of what can happen does. -/
def runFree (s : State) : Host.Outcome State Fault Refusal :=
  let (t, s) := s.draw
  let s := s.pass t
  let agents := s.runnable
  let events := s.comeable
  let (k, s) := s.choose (agents.length + events.length + 1)
  match agents[k]?, events[k - agents.length]? with
  | some a, _ => runAgent a s
  | none, some n => runEvent n s
  | none, none => runOutside s

/-- One step. -/
def step (s : State) : Host.Outcome State Fault Refusal :=
  match s.turn with
  | .free => runFree s
  | .agent a => runAgent a { s with turn := .free }
  | .event n => runEvent n { s with turn := .free }

/-! ### Placing a word where the next step fetches it -/

/-- Where withFetchWord puts the word: an address of context 0 and of die 0. -/
def probePc : Nat := 0x100000

/-- The leaf that maps the first GiB of context 0 onto die 0, executable and readable. -/
def probeLeaf : Leaf := { key := memKey 0 0x20000, size := 2, x := true, rd := true }

/-- The header of the probe's kernel: one word, and every register, tile and barrier that a kernel may declare. -/
def probeHeader : Header :=
  { addr := probePc - 64, sregs := 32, vregs := 16, kregs := 8, acc := 8, scratch := 191, barriers := 16, res := BitVec.allOnes 64 }

/-- The frame that is to run the word. -/
def probeFrame (uid : Nat) : Frame :=
  { uid := uid, hdr := probeHeader, cpu := { pc := BitVec.ofNat 64 probePc }, tiles := [0, 1, 2, 3, 4, 5, 6, 7], acquire := false }

/-- The state with a word where the next step fetches it: a page table of two entries for context 0, the word's four bytes, a frame on
bogie 0 that runs, its translation, no older line of it in the instruction caches, and the turn. It stands for the load of a program from outside (log 33). -/
def State.withFetchWord (s : State) (_nbits w : Nat) : State :=
  let s := s.setCtx 0 { s.ctx 0 with ptRoot := 0x10001 }
  let s := s.writeBytes (memKey 0 0x10000) (bytesOfNat 8 0x20001)
  let s := s.writeLeaf probeLeaf.key (probeLeaf.word true)
  let s := (s.writeBytes (memKey 0 probePc) (bytesOfNat 4 w)).dropCode 0 probePc 4
  let f := probeFrame s.uid
  { s.setBogie 0 { s.bogie 0 with stack := [f], phase := .running, rep := none, fetched := 0, tlb := [probeLeaf.entry 0 probePc], ckpt := some f }
    with turn := .agent (.bogie 0), uid := s.uid + 1 }

end Sys2Proof.Machine
end

