-- ==== Sys2Proof/Safety.lean ====
section
/-! DEFINITION. The terms that claims use: when an agent runs a word, and how a word that completes leaves its agent. -/

namespace Sys2Proof.Safety

open Sys2Proof.Machine

/-- A step goes on: it ends in a next state, not in a fault or a refusal. -/
def GoesOn (o : Host.Outcome State Fault Refusal) : Prop := ∃ t, o = .next t

/-- Bogie g is to run word i on its top frame f, and the prefix and the register fields of the word pass the checks that rank
before its own faults (R60). -/
structure Runs (s : State) (g : Nat) (f : Frame) (i : Instr) : Prop where
  cur : s.cur = .bogie g
  top : (s.bogie g).stack.head? = some f
  gate : gate i f.cpu.pfx f.hdr ((s.bogie g).wordNow i) = none

/-- Hart h of die d is to run word i: engine mode accepts its major and its prefix is legal (R68, R234). -/
structure HartRuns (s : State) (d h : Nat) (i : Instr) : Prop where
  cur : s.cur = .hart d h
  mode : engineMode i = true
  pfx : badPrefix i (s.hart d h).cpu.pfx = false

/-- What word i does to the registers and the PC of the agent that runs it, on a task and on an engine hart: the prefix ends, and
the task counts the word. Nothing else of the machine changes. -/
def ScalarEffect (i : Instr) (r : Cpu → Cpu) : Prop :=
  (∀ s g f, Runs s g f i →
    exec i s = .next (s.afterWord g
      { b := (s.bogie g).setTop { f with cpu := { r f.cpu with pfx := {} }, instret := f.instret + 1 } })) ∧
  (∀ s d h, HartRuns s d h i →
    exec i s = .next (s.setHart d h { s.hart d h with cpu := { r (s.hart d h).cpu with pfx := {} } }))

/-- A word that writes register d with a value that it forms from the registers, and goes on with the next word. -/
def WritesX (i : Instr) (d : BitVec 5) (v : Cpu → Word) : Prop := ScalarEffect i fun c => { c.setX d (v c) with pc := c.pc + 4 }

/-- The task goes on with frame f' after word i of bogie g: nothing but the bogie's frame and its place in the code changes. -/
def TaskGoes (i : Instr) (s : State) (g : Nat) (f' : Frame) : Prop :=
  exec i s = .next (s.afterWord g { b := (s.bogie g).advance f' })

/-- The activation ends at word i of bogie g, whose bogie is then b, at boundary k, and the witness is to judge it (R132, R139). -/
def Ends (i : Instr) (s : State) (g : Nat) (b : Bogie) (k : Boundary) : Prop := exec i s = .next (s.afterWord g (b.boundary g k))

/-- Word i of bogie g raises a synchronous fault: the activation ends at the word, which is not completed (R290). -/
def Faults (i : Instr) (s : State) (g code addr val : Nat) : Prop :=
  exec i s = .next (s.afterWord g ((s.bogie g).syncFault g code addr val))

/-- Word i of bogie g raises a synchronous fault. Where the outbox or the journal lacks the entries that the word needs, the activation is
committed before the word's prefix first, and the word is to run again in the next (R135, R142); inside a REP, which found room for all its
passes, there is no such boundary (R262). -/
def Raises (i : Instr) (s : State) (g code addr val : Nat) : Prop :=
  ∀ f, (s.bogie g).stack.head? = some f →
    (((s.bogie g).rep ≠ none ∨ (s.bogie g).lacksRoom i f = false) → Faults i s g code addr val) ∧
    ((s.bogie g).rep = none → (s.bogie g).lacksRoom i f = true → exec i s = .next (s.afterWord g ((s.bogie g).stop g f .commit)))

/-- Word i of bogie g appends l to the outbox and the task goes on; nothing leaves the bogie before the witness's verdict (R137). -/
def Sends (i : Instr) (s : State) (g : Nat) (f : Frame) (l : List Op) : Prop :=
  exec i s = .next (s.afterWord g { b := Bogie.advance { s.bogie g with outbox := (s.bogie g).outbox ++ l } f })

/-- Word i of bogie g completes and ends the activation, and the frame waits for the answer to a request that the witness makes once
(R133, R136, R192). -/
def Awaits (i : Instr) (s : State) (g : Nat) (f : Frame) (a : Await) : Prop :=
  Ends i s g ((s.bogie g).advance { f with await := some { a with pc := f.cpu.pc } }) .await

/-- The outbox of bogie g has room for n more entries (R135, R137). -/
def Room (s : State) (g n : Nat) : Prop := (s.bogie g).outbox.length + n ≤ 256

/-- The rows that a matrix command reads lie within the frame's declared scratchpad, or on readable pages of memory (R191, R279). -/
def RowsReadable (s : State) (g : Nat) (f : Frame) (va n pitch count : Nat) : Prop :=
  (∃ o, region va = .own 0 o ∧ ∀ i < count, o + i * pitch + n ≤ f.hdr.scratch * 256) ∨
  (region va = .glob ∧ ∀ a ∈ rowUnits va n pitch count, region a = .glob ∧
    ∃ e, (s.bogie g).translate f.ctx a = .ok (some e) ∧ e.rd = true ∧ e.cls ≠ 4)

/-- The rows that an MXST stores lie within the frame's declared scratchpad, or on pages of memory that may be written (R191, R282). -/
def RowsWritable (s : State) (g : Nat) (f : Frame) (va n pitch count : Nat) : Prop :=
  (∃ o, region va = .own 0 o ∧ ∀ i < count, o + i * pitch + n ≤ f.hdr.scratch * 256) ∨
  (region va = .glob ∧ ∀ a ∈ rowUnits va n pitch count, region a = .glob ∧
    ∃ e, (s.bogie g).translate f.ctx a = .ok (some e) ∧ e.rd = true ∧ e.cls ≠ 4 ∧ e.w = true ∧ e.cls ≠ 5)

/-- A step of another agent goes on, in a state that has property p. -/
def Does (i : Instr) (s : State) (p : State → Prop) : Prop := ∃ t, exec i s = .next t ∧ p t

/-- A step that is under way: it will happen, with operands of property p. -/
def UnderWay (t : State) (ev : Instr) (p : Args → Prop) : Prop := ∃ h ∈ t.agenda, h.ev = ev ∧ p h.arg

/-- A step that will happen, with operands of property p: it is under way, or the message that brings it about waits at a link or a die
(R377, R379). -/
def Reaches (t : State) (ev : Instr) (p : Args → Prop) : Prop :=
  UnderWay t ev p ∨ (∃ l r, ∃ m ∈ ((t.link l).dir r).waiting, m.ev = ev ∧ p m.arg) ∨ ∃ d, ∃ m ∈ (t.ing d).stuck, m.ev = ev ∧ p m.arg

/-- Word i of bogie g waits where it is: the bogie is stalled, and nothing else of the machine changes. -/
def Waits (i : Instr) (s : State) (g : Nat) : Prop := ∃ va, exec i s = .next (s.afterWord g { b := { s.bogie g with phase := .stalled va } })

/-- The maker of request q, where it is on die d and waits for it, is told that it is performed, with a value and a code (R184). -/
def Answers (s t : State) (d : Nat) (q : Req) (val : Word) (code : Nat) : Prop :=
  q.id ≠ 0 → s.srcDie q.src = d → UnderWay t .storePerformed fun a => a.req = q ∧ a.val = val ∧ a.n = code

/-- Nothing that bogie g sent or holds is outstanding, and no release waits on its die. -/
structure Quiet (s : State) (g : Nat) : Prop where
  held : (s.bogie g).held = []
  transit : (s.bogie g).transit = []
  owed : (s.bogie g).owed = []
  copies : s.copies = []
  store : (s.die (dieOf g)).store = []

/-- Request q stands at its home d, on a page that is plainly mapped to memory there: present, not migrating, with no parked request, no
snapshot that has not drained what it writes, no other mapping, neither chained, a device's nor shared, and no word there that a bogie is still
to drop. -/
structure AtHome (s : State) (d : Nat) (q : Req) (l : Leaf) : Prop where
  leaf : s.leaf q.ctx (opVa q.op) = some l
  home : l.home (opVa q.op) = d
  cls : l.cls ≠ 3 ∧ l.cls ≠ 4 ∧ l.cls ≠ 6
  present : l.present = true
  still : l.migr = false
  free : (s.die d).holdsUnit q.ctx (opVa q.op) = false
  drained : ∀ a ∈ opUnits q.op, s.snapUnit q.ctx a = none
  alone : l.syn = false
  settled : (s.die d).dropping = []

/-- A step changes of the other bogies than g at most what counts the use of bytes that a PREF brought into their scratchpads (R189), and no byte of
memory. -/
def OnlyCounts (s t : State) (g : Nat) : Prop :=
  (∀ g', g' ≠ g → ∃ n l, t.bogie g' = { s.bogie g' with pfUsed := n, fresh := l }) ∧ t.mem = s.mem

/-- A step changes no bogie but g, and no byte of memory. -/
def OnlyBogie (s t : State) (g : Nat) : Prop := (∀ g', g' ≠ g → t.bogie g' = s.bogie g') ∧ t.mem = s.mem

/-- A TASK release of record w in a running context passes every check of its dispatcher: its kernel is registered and declares no resource,
its affinity names bogie g, of a coach of the context that its die presents, and its record can be read at once (R124, R323, R350). -/
structure Admitted (s : State) (r : Release) (w : Vec) (g : Nat) : Prop where
  live : (s.ctx r.ctx).state = 3 ∧ (s.ctx r.ctx).busy = false
  kind : r.type = 1 ∧ r.named = none
  record : s.recordAt r.ctx r.record = some w
  zero : bits (dword w 0) 63 34 = 0
  kernel : ((s.ctx r.ctx).kernel (bits (dword w 0) 15 0)).state = 1
  plain : ((s.ctx r.ctx).kernel (bits (dword w 0) 15 0)).hdr.res = 0
  affinity : bit (dword w 0) 20 = true ∧ bits (dword w 0) 31 21 = g
  coach : (s.ctx r.ctx).hasCoach (g / 8) = true ∧ g / 8 % 24 < (s.die (dieOf g)).coaches
  opened : (s.bogie g).closed = false
  ready : s.recordWaits r = none

/-- The priority of a release in its context's band (R98). -/
def inBand (s : State) (r : Release) : Nat := min (min (max r.prio (s.ctx r.ctx).bandLow) (s.ctx r.ctx).bandHigh) 15

/-- The packet that a step carries out stands at the head of the ring of an Enabled queue in host memory, whose descriptor is x (R332, R334). -/
structure InRing (s : State) (x : CmdDesc) : Prop where
  ring : s.arg.flag = false ∧ s.arg.n < 1024
  enabled : (s.queue s.arg.n).state = 1 ∧ (s.queue s.arg.n).held = false
  host : (s.queue s.arg.n).host = true
  point : (s.queue s.arg.n).point.list = none
  desc : s.cmdDesc (s.queue s.arg.n) = some x
  alone : s.notified = []

/-- The ring packet retires with a status and a cause (R336, R338): d7 holds them and d0 to d6 are zero; a status other than OK and SKIPPED is
noted in the descriptor and counted there; then rd rises; and the queue counts the packet and goes on once all that is performed. -/
def Retires (s : State) (x : CmdDesc) (status cause : Nat) (t : State) : Prop :=
  let n := s.arg.n
  let q := s.queue n
  let put := fun (m : List Host.Cell) (va : Nat) (l : List Byte) => Tab.setList m unlisted (hostKey q.pasid va) l
  let slot := put (put s.hostMem (x.slotAt x.rd + 56) (bytesOfNat 8 (status + 256 * cause))) (x.slotAt x.rd) (bytesOfNat 56 0)
  let noted := put (put slot (q.desc.toNat + 17) [BitVec.ofNat 8 status, BitVec.ofNat 8 cause]) (q.desc.toNat + 20)
    (bytesOfNat 4 ((q.fails.getD x.fails + 1) % 2 ^ 32))
  (t.queue n).begun = some 0 ∧ (t.queue n).retired = q.retired ∧
  UnderWay t .mapperBind (fun b => b.n = n ∧ b.flag = true ∧ b.m = 2) ∧
  t.hostMem = put (if status = 1 ∨ status = 5 then slot else noted) (q.desc.toNat + 12) (bytesOfNat 4 (x.rd + 1))

/-- A ring packet has begun, and its request, of the next free number, leaves the hub as the step ev at die d (R337). -/
def Begins (s : State) (ctx va d slots : Nat) (ev : Instr) (arg : Args) (t : State) : Prop :=
  (t.queue s.arg.n).begun = some s.uid ∧ (t.queue s.arg.n).fetching = false ∧
  ∃ s' : State, t = s'.post s.hub epUnit d ctx va slots ev arg ∧ s'.agenda = s.agenda ∧ s'.mem = s.mem

/-! ### What the scalar words compute, in the words of the manual (R152-R156) -/

/-- The value of a register-register word of R152 by the signed values s and t and the unsigned values of xa and xb, results modulo
2^64; the division words and the counts have tables of their own. -/
def registerValue (i : Instr) (c : Cpu) : Option (BitVec 5 × Word) :=
  let s := fun r => (c.getX r).toInt
  let u := fun r => (c.getX r).toNat
  match i with
  | .add d x y => some (d, BitVec.ofInt 64 (s x + s y))
  | .sub d x y => some (d, BitVec.ofInt 64 (s x - s y))
  | .and d x y => some (d, c.getX x &&& c.getX y)
  | .or d x y => some (d, c.getX x ||| c.getX y)
  | .xor d x y => some (d, c.getX x ^^^ c.getX y)
  | .andn d x y => some (d, c.getX x &&& ~~~c.getX y)
  | .orn d x y => some (d, c.getX x ||| ~~~c.getX y)
  | .shl d x y => some (d, BitVec.ofNat 64 (u x * 2 ^ (u y % 64)))
  | .shr d x y => some (d, BitVec.ofNat 64 (u x / 2 ^ (u y % 64)))
  | .sra d x y => some (d, BitVec.ofInt 64 (s x / 2 ^ (u y % 64)))
  | .min d x y => some (d, BitVec.ofInt 64 (min (s x) (s y)))
  | .max d x y => some (d, BitVec.ofInt 64 (max (s x) (s y)))
  | .minn d x y => some (d, BitVec.ofNat 64 (min (u x) (u y)))
  | .maxn d x y => some (d, BitVec.ofNat 64 (max (u x) (u y)))
  | .slt d x y => some (d, if s x < s y then 1 else 0)
  | .sltn d x y => some (d, if u x < u y then 1 else 0)
  | .mul d x y => some (d, BitVec.ofInt 64 (s x * s y))
  | .mulh d x y => some (d, BitVec.ofInt 64 (s x * s y / 2 ^ 64))
  | .mulhn d x y => some (d, BitVec.ofNat 64 (u x * u y / 2 ^ 64))
  | .adds d x y n => some (d, BitVec.ofNat 64 (u x + u y * 2 ^ n.toNat))
  | .shli d x n => some (d, BitVec.ofNat 64 (u x * 2 ^ n.toNat))
  | .shri d x n => some (d, BitVec.ofNat 64 (u x / 2 ^ n.toNat))
  | .srai d x n => some (d, BitVec.ofInt 64 (s x / 2 ^ n.toNat))
  | _ => none

/-- The immediate that R69 assembles, as an integer, by the payloads of the prefix. -/
def immediateOf (p : Prefix) (imm : BitVec 16) : Int :=
  match p.exts with
  | [] => imm.toInt
  | [e1] => (BitVec.ofNat 38 (e1.toNat * 2 ^ 16 + imm.toNat)).toInt
  | e1 :: e2 :: _ => (BitVec.ofNat 60 (e2.toNat * 2 ^ 38 + e1.toNat * 2 ^ 16 + imm.toNat)).toInt

/-- The value of a register-immediate word, MOVHI or ADDPC (R154-R156). -/
def immediateValue (i : Instr) (c : Cpu) : Option (BitVec 5 × Word) :=
  let w := fun e => BitVec.ofInt 64 (immediateOf c.pfx e)
  match i with
  | .addi d x e => some (d, BitVec.ofInt 64 ((c.getX x).toInt + immediateOf c.pfx e))
  | .andi d x e => some (d, c.getX x &&& w e)
  | .ori d x e => some (d, c.getX x ||| w e)
  | .xori d x e => some (d, c.getX x ^^^ w e)
  | .slti d x e => some (d, if (c.getX x).toInt < immediateOf c.pfx e then 1 else 0)
  | .sltni d x e => some (d, if (c.getX x).toNat < (w e).toNat then 1 else 0)
  | .movhi d e => some (d, BitVec.ofInt 64 (immediateOf c.pfx e * 2 ^ 48))
  | .addpc d e => some (d, BitVec.ofInt 64 (c.pc.toInt + immediateOf c.pfx e))
  | _ => none

/-- The condition and the displacement of a compare-and-branch word (R157). -/
def branchCondition (i : Instr) (c : Cpu) : Option (Bool × BitVec 16) :=
  match i with
  | .beq x y e => some (decide (c.getX x = c.getX y), e)
  | .bne x y e => some (decide (c.getX x ≠ c.getX y), e)
  | .blt x y e => some (decide ((c.getX x).toInt < (c.getX y).toInt), e)
  | .bge x y e => some (decide ((c.getX y).toInt ≤ (c.getX x).toInt), e)
  | .bltn x y e => some (decide ((c.getX x).toNat < (c.getX y).toNat), e)
  | .bgen x y e => some (decide ((c.getX y).toNat ≤ (c.getX x).toNat), e)
  | _ => none

/-! ### Vector words -/

/-- Word i writes vd element by element of w bits: an active element gets its lane's value, an inactive one keeps its own (R240). -/
def WritesLanes (i : Instr) (d : BitVec 5) (k : BitVec 3) (w : Nat) (lane : Frame → Nat → Nat) : Prop :=
  ∀ s g f, Runs s g f i → ∃ v : Vec, TaskGoes i s g (f.setV d v) ∧
    ∀ j < 512 / w, elem w v j = if (f.getK k.toNat).getLsbD j = true then lane f j % 2 ^ w else elem w (f.getV d) j

/-- Word i writes the mask kd: bit j is the governing bit and the condition of element j, and the bits from E upwards are 0 (R240). -/
def WritesConditions (i : Instr) (d : BitVec 5) (k : BitVec 3) (w : Nat) (c : Frame → Nat → Bool) : Prop :=
  ∀ s g f, Runs s g f i → ∃ m : Mask, TaskGoes i s g (f.setK d m) ∧
    ∀ j < 64, m.getLsbD j = (decide (j < 512 / w) && (f.getK k.toNat).getLsbD j && c f j)

/-- Word i writes xd with a value that it forms from the frame. -/
def WritesScalar (i : Instr) (d : BitVec 5) (v : Frame → Word) : Prop := ∀ s g f, Runs s g f i → TaskGoes i s g (f.setX d (v f))

/-- The rational value of a finite value. -/
def valueOf (v : FV) : Option ℚ :=
  match v with
  | .fin s m e => some ((if s then -1 else 1) * m * (2 : ℚ) ^ e)
  | _ => none

/-- The exact result of a float operation on elements x, y and z (the old vd) of one format (R249-R251), before its one rounding. -/
def exactOf (i : Instr) (dir : Dir) (x y z : FV) : Option FV :=
  match i with
  | .vadd _ _ _ _ _ => some (.add dir x y)
  | .vsub _ _ _ _ _ => some (.add dir x y.neg)
  | .vmul _ _ _ _ _ => some (x.mul y)
  | .vdiv _ _ _ _ _ => some (x.div y)
  | .vfma _ _ _ _ _ => some (.add dir (x.mul y) z)
  | .vfms _ _ _ _ _ => some (.add dir (x.mul y) z.neg)
  | .vnfma _ _ _ _ _ => some (.add dir (x.mul y).neg z)
  | .vsqrt _ _ _ _ => some x.sqrt
  | _ => none

/-- The destination, the sources, the governing mask and ty of a float word of R249-R251. -/
def floatFields (i : Instr) : Option (BitVec 5 × BitVec 5 × BitVec 5 × BitVec 3 × BitVec 2) :=
  match i with
  | .vadd d a b k t | .vsub d a b k t | .vmul d a b k t | .vdiv d a b k t | .vfma d a b k t | .vfms d a b k t | .vnfma d a b k t =>
    some (d, a, b, k, t)
  | .vsqrt d a k t => some (d, a, 0, k, t)
  | _ => none

/-- The result of an integer word of R255 and R256 on elements of w bits, by their signed or unsigned values x and y and, for the shifts, the
count c that the second element is; `sat` clamps to the type's range. -/
def integerLane (i : Instr) (sat : Bool) (w : Nat) (u : Bool) (a b : Nat) : Option Int :=
  let val := fun (n : Nat) => if u = true then (n : Int) else (BitVec.ofNat w n).toInt
  let x := val a
  let y := val b
  let lo : Int := if u = true then 0 else -(2 ^ (w - 1))
  let hi : Int := if u = true then 2 ^ w - 1 else 2 ^ (w - 1) - 1
  let fit := fun (n : Int) => if sat = true then max lo (min n hi) else n
  match i with
  | .viadd _ _ _ _ _ _ => some (fit (x + y))
  | .visub _ _ _ _ _ _ => some (fit (x - y))
  | .vimul _ _ _ _ _ _ => some (fit (x * y))
  | .vimulh _ _ _ _ _ _ => some (x * y / 2 ^ w)
  | .vimin _ _ _ _ _ _ => some (min x y)
  | .vimax _ _ _ _ _ _ => some (max x y)
  | .vand _ _ _ _ _ => some (a &&& b : Nat)
  | .vor _ _ _ _ _ => some (a ||| b : Nat)
  | .vxor _ _ _ _ _ => some (a ^^^ b : Nat)
  | .vshl _ _ _ _ _ => some (a * 2 ^ b : Nat)
  | .vshr _ _ _ _ _ => some (a / 2 ^ b : Nat)
  | .vsra _ _ _ _ _ => some ((BitVec.ofNat w a).toInt / 2 ^ b)
  | _ => none

/-- The destination, the sources, the governing mask, the signedness and ty of an integer word of R255 and R256. -/
def integerFields (i : Instr) : Option (BitVec 5 × BitVec 5 × BitVec 5 × BitVec 3 × BitVec 1 × BitVec 2) :=
  match i with
  | .viadd d a b k u t | .visub d a b k u t | .vimul d a b k u t | .vimulh d a b k u t | .vimin d a b k u t | .vimax d a b k u t =>
    some (d, a, b, k, u, t)
  | .vand d a b k t | .vor d a b k t | .vxor d a b k t | .vshl d a b k t | .vshr d a b k t | .vsra d a b k t => some (d, a, b, k, 0, t)
  | _ => none

end Sys2Proof.Safety
end

