-- ==== Sys2Proof/Certificates/Slice0/Obligations.lean ====
section
/-! DEFINITION. The statements for the provers. -/

section

open Sys2Proof Sys2Proof.Machine Sys2Proof.Safety


/-! ### Encodings -/

/-- R56, R57: the word of a well-formed instruction, with every operand at every value its encoding admits, decodes to that
instruction. -/
def Obligations.EncodedWordsDecode : Prop :=
  ∀ (i : Instr) (w : BitVec 32), wellFormed i = true → encode i = some w → decode w = some i

/-- R56, R59, R74: a word that decodes is the word of the one instruction it decodes as, which keeps every constraint of its entry: no
encoding acts as a different instruction, and no reserved bit is ignored. -/
def Obligations.DecodedWordsEncode : Prop :=
  ∀ (w : BitVec 32) (i : Instr), decode w = some i → encode i = some w ∧ wellFormed i = true

/-- R57, R61-R64: words written out from the encodings of the entries, fields from bit 31 downwards, decode to the instructions they stand
for; reserved words decode to nothing. -/
def Obligations.WordsDecode : Prop :=
  -- add x3, x1, x2: 0x01, d 3, a 1, b 2, fn 0
  decode (0b000001#6 ++ 3#5 ++ 1#5 ++ 2#5 ++ 0#11) = some (.add 3 1 2) ∧
  -- sub x3, x0, x4, the worked word of R153
  decode 0x04602040 = some (.sub 3 0 4) ∧
  -- addi x15, x15, 1, of R154
  decode 0x09EF0001 = some (.addi 15 15 1) ∧
  -- bne x10, x0, -2, of R160
  decode 0x2940FFFE = some (.bne 10 0 0xFFFE) ∧
  -- jalr x0, x31, 0, of R159
  decode 0x401F0000 = some (.jalr 0 31 0) ∧
  -- yield 64, of R143; end.succ x9, of R144; release x13, x12, of R145; claim 3, of R146
  decode 0x44000040 = some (.yield 64) ∧ decode 0x48090002 = some (.endTask 9 1 0) ∧
  decode 0x4DAC0000 = some (.release 13 12 0 0) ∧ decode 0x4C001003 = some (.claim 3) ∧
  -- csrr x8, self, of R161
  decode 0xCD000001 = some (.csrr 8 1) ∧
  -- ld.i64 x5, [x6 + 8]: 0x14, t 5, base 6, disp 1, sq 3
  decode (0x14#6 ++ 5#5 ++ 6#5 ++ 1#13 ++ 3#3) = some (.ld 5 6 1 3) ∧
  -- kpopc x12, k1, and bknone k1, 2, of R259 and R260
  decode 0xA1810010 = some (.kpopc 12 1) ∧ decode 0xA4210002 = some (.bknone 1 2) ∧
  -- a register-register word with fn[10:6] reserved, END with cont and nd, a hint of reserved kind, major 0x3E
  decode (0b000001#6 ++ 3#5 ++ 1#5 ++ 2#5 ++ 0x780#11) = none ∧ decode 0x48000005 = none ∧ decode 0xFFFFFFFF = none ∧
  decode (0x3E#6 ++ 0#26) = none

/-! ### Scalar words, prefixes and checks -/

/-- R152: what each register-register operation writes to xd, on a task and on an engine hart; the PC moves on by one word and
nothing else of the machine changes.

R152: CLZ, CTZ and POPC count the zero bits above the highest one bit, the zero bits below the lowest, and the one bits.

R153: DIV and REM on the signed values, DIVN and REMN on the unsigned ones. By a zero divisor the quotient is all ones and the
remainder the dividend; else the quotient rounds toward zero and wraps, and the remainder has the dividend's sign.

R69, R154, R155, R156: what each register-immediate operation, MOVHI and ADDPC write, with the immediate that the EXT words of the
prefix widen; and how these words are encoded: major 0x08 with a above 1 decodes to nothing. -/
def Obligations.ScalarWords : Prop :=
  (∀ (i : Instr) (d : BitVec 5) (v : Cpu → Word), (∀ c, registerValue i c = some (d, v c)) → WritesX i d v) ∧
  (∀ (d a : BitVec 5),
     WritesX (.clz d a) d (fun c => BitVec.ofNat 64 ((List.range 64).takeWhile fun k => !(c.getX a).getLsbD (63 - k)).length) ∧
     WritesX (.ctz d a) d (fun c => BitVec.ofNat 64 ((List.range 64).takeWhile fun k => !(c.getX a).getLsbD k).length) ∧
     WritesX (.popc d a) d (fun c => BitVec.ofNat 64 ((List.range 64).countP fun k => (c.getX a).getLsbD k))) ∧
  (∀ (d a b : BitVec 5),
     WritesX (.div d a b) d (fun c => if c.getX b = 0 then BitVec.allOnes 64
       else BitVec.ofInt 64 ((c.getX a).toInt.tdiv (c.getX b).toInt)) ∧
     WritesX (.rem d a b) d (fun c => if c.getX b = 0 then c.getX a
       else BitVec.ofInt 64 ((c.getX a).toInt - (c.getX b).toInt * (c.getX a).toInt.tdiv (c.getX b).toInt)) ∧
     WritesX (.divn d a b) d (fun c => if c.getX b = 0 then BitVec.allOnes 64
       else BitVec.ofNat 64 ((c.getX a).toNat / (c.getX b).toNat)) ∧
     WritesX (.remn d a b) d (fun c => if c.getX b = 0 then c.getX a
       else BitVec.ofNat 64 ((c.getX a).toNat - (c.getX b).toNat * ((c.getX a).toNat / (c.getX b).toNat)))) ∧
  (∀ (i : Instr) (d : BitVec 5) (v : Cpu → Word), (∀ c, immediateValue i c = some (d, v c)) → WritesX i d v) ∧
  (∀ (d a : BitVec 5) (e : BitVec 16),
     encode (.addi d a e) = some (0x02#6 ++ d ++ a ++ e) ∧ encode (.andi d a e) = some (0x03#6 ++ d ++ a ++ e) ∧
     encode (.ori d a e) = some (0x04#6 ++ d ++ a ++ e) ∧ encode (.xori d a e) = some (0x05#6 ++ d ++ a ++ e) ∧
     encode (.slti d a e) = some (0x06#6 ++ d ++ a ++ e) ∧ encode (.sltni d a e) = some (0x07#6 ++ d ++ a ++ e) ∧
     encode (.movhi d e) = some (0x08#6 ++ d ++ 0#5 ++ e) ∧ encode (.addpc d e) = some (0x08#6 ++ d ++ 1#5 ++ e) ∧
     (2 ≤ a.toNat → decode (0x08#6 ++ d ++ a ++ e) = none))

/-- R157: a compare-and-branch word goes to PC + imm × 4 where its condition holds, and to the next word where it does not.

R260: BKANY branches when a bit of the mask is one, BKNONE when none is; k0 is all ones.

R158, R159: JAL and JALR leave PC + 4 in xd and go to their target. JALR forms its target before it writes xd, so that xd may be
xa; a target that is no multiple of 4 is MISALIGNED, and an engine hart stops at it. The encodings of these words follow. -/
def Obligations.BranchesAndJumps : Prop :=
  (∀ (i : Instr) (p : Cpu → Bool) (e : BitVec 16), (∀ c, branchCondition i c = some (p c, e)) →
     ScalarEffect i fun c =>
       if p c then { c with pc := c.pc + BitVec.ofInt 64 (immediateOf c.pfx e * 4) } else { c with pc := c.pc + 4 }) ∧
  (∀ (s : State) (g : Nat) (f : Frame) (a : BitVec 5) (e : BitVec 16),
     let after := fun (taken : Bool) => { b := (s.bogie g).setTop { f with
       cpu := { f.cpu with pc := if taken then f.cpu.pc + BitVec.ofInt 64 (immediateOf f.cpu.pfx e * 4) else f.cpu.pc + 4, pfx := {} }
       instret := f.instret + 1 } }
     (Runs s g f (.bkany a e) → exec (.bkany a e) s = .next (s.afterWord g (after (decide (f.getK a.toNat ≠ 0))))) ∧
     (Runs s g f (.bknone a e) → exec (.bknone a e) s = .next (s.afterWord g (after (decide (f.getK a.toNat = 0)))))) ∧
  ((∀ (d : BitVec 5) (e : BitVec 21), ScalarEffect (.jal d e) fun c =>
     { c.setX d (c.pc + 4) with pc := c.pc + BitVec.ofInt 64 (e.toInt * 4) }) ∧
   ∀ (s : State) (g : Nat) (f : Frame) (d a : BitVec 5) (e : BitVec 16), Runs s g f (.jalr d a e) →
     let tgt := f.getX a + BitVec.ofInt 64 (immediateOf f.cpu.pfx e)
     (tgt.toNat % 4 = 0 → exec (.jalr d a e) s = .next (s.afterWord g { b := (s.bogie g).setTop { f with
       cpu := { f.cpu.setX d (f.cpu.pc + 4) with pc := tgt, pfx := {} }, instret := f.instret + 1 } })) ∧
     (tgt.toNat % 4 ≠ 0 → Raises (.jalr d a e) s g 0x04 tgt.toNat 0)) ∧
  (∀ (s : State) (die h : Nat) (d a : BitVec 5) (e : BitVec 16), HartRuns s die h (.jalr d a e) →
     let c := (s.hart die h).cpu
     let tgt := c.getX a + BitVec.ofInt 64 (immediateOf c.pfx e)
     (tgt.toNat % 4 = 0 → exec (.jalr d a e) s = .next (s.setHart die h { s.hart die h with
       cpu := { c.setX d (c.pc + 4) with pc := tgt, pfx := {} } })) ∧
     (tgt.toNat % 4 ≠ 0 → exec (.jalr d a e) s = .next (s.hartFault die h 0x04 tgt.toNat))) ∧
  (∀ (d a b : BitVec 5) (e : BitVec 16) (j : BitVec 21),
     encode (.beq a b e) = some (0x09#6 ++ a ++ b ++ e) ∧ encode (.bne a b e) = some (0x0A#6 ++ a ++ b ++ e) ∧
     encode (.blt a b e) = some (0x0B#6 ++ a ++ b ++ e) ∧ encode (.bge a b e) = some (0x0C#6 ++ a ++ b ++ e) ∧
     encode (.bltn a b e) = some (0x0D#6 ++ a ++ b ++ e) ∧ encode (.bgen a b e) = some (0x0E#6 ++ a ++ b ++ e) ∧
     encode (.bkany a e) = some (0x29#6 ++ a ++ 0#5 ++ e) ∧ encode (.bknone a e) = some (0x29#6 ++ a ++ 1#5 ++ e) ∧
     encode (.jal d j) = some (0x0F#6 ++ d ++ j) ∧ encode (.jalr d a e) = some (0x10#6 ++ d ++ a ++ e) ∧
     (2 ≤ b.toNat → decode (0x29#6 ++ a ++ b ++ e) = none))

/-- R66, R234: ILL raises ILLEGAL_INSTRUCTION, whatever its other bits hold: a task's activation ends at it, and an engine hart stops.

R68, R69, R70, R71, R72: outside a repetition EXT, MOD and SCHED join the prefix of the word after them and change nothing else but
the PC; HNOP, like every word that is no hint, ends the prefix.

R58, R60, R68, R115: a word whose prefix is illegal raises ILLEGAL_INSTRUCTION; with a legal prefix, a register field beyond the
range of its kind or the kernel's declaration raises ILLEGAL_OPERAND; then a barrier or tile beyond the declaration raises
BARRIER_BOUND or MX_BOUND with its index. In each case the word changes no register, and the activation ends at it. (That a word with both a
tile and a barrier beyond the declaration faults for the tile, as an MXST may, is the model's choice, log 21.)

R65, R234: on an engine hart a word whose major engine mode does not accept, or whose prefix is illegal, is ILLEGAL_INSTRUCTION: the
hart stops with the code and F4 is told. -/
def Obligations.PrefixesAndChecks : Prop :=
  (∀ (e : BitVec 26) (s : State),
     (∀ g f, Runs s g f (.ill e) → Faults (.ill e) s g 0x01 0 e.toNat) ∧
     (∀ d h, HartRuns s d h (.ill e) → exec (.ill e) s = .next (s.hartFault d h 0x01 0))) ∧
  (∀ (s : State) (g : Nat) (f : Frame), (s.bogie g).rep = none →
     let after := fun (p : Prefix) => s.afterWord g
       { b := (s.bogie g).setTop { f with cpu := { f.cpu with pc := f.cpu.pc + 4, pfx := p }, instret := f.instret + 1 } }
     (∀ e, Runs s g f (.ext e) → exec (.ext e) s = .next (after { f.cpu.pfx with exts := f.cpu.pfx.exts ++ [e] })) ∧
     (∀ b t r, Runs s g f (.mod b t r) → exec (.mod b t r) s = .next (after { f.cpu.pfx with mod := some (b ++ t ++ r) })) ∧
     (∀ t e, Runs s g f (.sched t e) → exec (.sched t e) s = .next (after { f.cpu.pfx with sched := some (t ++ e) })) ∧
     (Runs s g f .hnop → exec .hnop s = .next (after {}))) ∧
  (∀ (i : Instr) (w : BitVec 32) (s : State) (g : Nat) (f : Frame), encode i = some w → s.cur = .bogie g →
     (s.bogie g).stack.head? = some f →
     (badPrefix i f.cpu.pfx = true → Faults i s g 0x01 0 ((s.bogie g).wordNow i).toNat) ∧
     (badPrefix i f.cpu.pfx = false → (∃ p ∈ operands i, badField f.hdr p = true) →
       Raises i s g 0x02 0 ((s.bogie g).wordNow i).toNat) ∧
     (badPrefix i f.cpu.pfx = false → (∀ p ∈ operands i, badField f.hdr p = false) →
       ∀ code n, ((operands i).filterMap (boundField f.hdr)).head? = some (code, n) → Raises i s g code 0 n)) ∧
  (∀ (i : Instr) (w : BitVec 32) (s : State) (d h : Nat), encode i = some w → s.cur = .hart d h →
     (engineMode i = false ∨ badPrefix i (s.hart d h).cpu.pfx = true) → exec i s = .next (s.hartFault d h 0x01))

/-- R22, R121, R137: a word changes its own bogie and adds to what is under way; no other bogie, no coach, die, link, context or queue, and
no byte of memory changes before the witness has judged the activation. Every word on a task goes on. -/
def Obligations.WordsActOnTheirBogie : Prop :=
  ∀ (i : Instr) (w : BitVec 32) (s : State) (g : Nat), encode i = some w → s.cur = .bogie g → (s.bogie g).stack ≠ [] →
    ∃ b evs, exec i s = .next { s with bogies := Tab.put s.bogies g b, agenda := s.agenda ++ evs }

/-! ### Steps -/

/-- R55, R56, R60, R114, R134: on the turn of a bogie that runs, within its window and its code extent and on an executable page, the step
decodes the four bytes at the PC, little-endian, and runs that instruction, with the word counted as fetched (unless the word ends stalled:
it is then fetched again); four bytes that decode to nothing are ILLEGAL_INSTRUCTION, with the word in the record.

R22, R55: the four bytes are those that the instruction caches hold, and where they hold no line of the PC, those of memory, on a page that
is present; of a chained page, those of the replica at the tail of its consist. That a fetch takes them whatever the poison of their line is
the model's reading (log 38), and which lines the caches hold on is its choice (log 120). The fetch brings their line into the caches and
changes nothing else of the machine but the free choices (R353: what a home notes of an alias where it read the line by one). -/
def Obligations.StepRunsDecodedWord : Prop :=
  ∀ (s : State) (g : Nat) (f : Frame) (e : TlbEntry) (l : Leaf),
    let b := s.bogie g
    let pc := f.cpu.pc.toNat
    let s0 := { s with turn := .free, cur := .bogie g }
    let t := s0.fillCode g f.ctx pc
    let k := s.consist f.ctx l.place
    let byte := fun n => if l.cls = 3 then Tab.get (Tab.get k.replicas [] k.tail) 0 (l.chainOff pc + n) else s.readByte (l.phys pc + n)
    let held := fun (c : CodeLine) k => c.data.extractLsb' (8 * (f.cpu.pc.toNat % 64 + k)) 8
    let runs := fun (w : BitVec 32) =>
      (∀ i, decode w = some i → step s = settle g b.fetched (exec i (t.setBogie g { t.bogie g with fetched := b.fetched + 1 }))) ∧
      (decode w = none → step s = exec .illegalInstruction { t with arg := { n := w.toNat } } ∧
        step s = .next ({ t with arg := { n := w.toNat } }.afterWord g ((t.bogie g).syncFault g 0x01 0 w.toNat)))
    s.turn = .agent (.bogie g) → b.phase = .running → b.stack.head? = some f → b.rep = none →
    b.fetched < f.window → inExtent f.hdr f.cpu.pc.toNat = true → b.translate f.ctx f.cpu.pc.toNat = .ok (some e) → e.x = true →
    (s.codeHit g f.ctx f.cpu.pc.toNat = none → s.leaf f.ctx f.cpu.pc.toNat = some l → l.present = true → l.migr = false →
      (l.cls = 3 → k.notYet k.tail (l.chainOff pc) = false) → runs (wordOfBytes (byte 0) (byte 1) (byte 2) (byte 3))) ∧
    (∀ c, s.codeHit g f.ctx f.cpu.pc.toNat = some c → runs (wordOfBytes (held c 0) (held c 1) (held c 2) (held c 3))) ∧
    (let u := if (s.codeHit g f.ctx pc).isSome = true then s0 else s0.noteRead f.ctx pc
     (t = s0 ∨ ∃ o n k j, t = { u with
        oracle := o, freeCtr := n
        coaches := Tab.put u.coaches (coachOf g) { u.coach (coachOf g) with icache := k }
        bogies := Tab.put u.bogies g { u.bogie g with icache := j } }) ∧
     (∀ l, s.leaf f.ctx pc = some l → l.syn = false → u = s0))

/-- R55, R234: on the turn of an engine hart that runs and waits for nothing, the step decodes the four bytes of its image at the PC and
runs that instruction, or stops the hart with ILLEGAL_INSTRUCTION. -/
def Obligations.StepRunsHartWord : Prop :=
  ∀ (s : State) (d h : Nat),
    let x := s.hart d h
    let byte := fun k => Tab.get x.image 0 (x.cpu.pc.toNat + k)
    let w := wordOfBytes (byte 0) (byte 1) (byte 2) (byte 3)
    let t := { s with turn := .free, cur := .hart d h }
    s.turn = .agent (.hart d h) → 16 ≤ h → x.state = 1 → x.await = none → x.stopped = none →
    (∀ i, decode w = some i → step s = exec i t) ∧
    (decode w = none → step s = .next ({ t with arg := { n := w.toNat } }.hartFault d h 0x01))

/-- R60, R114, R134: the fetch of a word past the activation's window is WATCHDOG, whatever the PC; within the window a PC outside the
code extent or no multiple of 4 is FETCH_BOUND with the PC as its address. Each ends the activation. (That a PC that is no multiple of 4 is
outside every extent is the model's choice, log 125.)

R60, R114, R348: within the window and the extent, a PC that no page maps is PAGE_INVALID, and one whose page is not executable is
EXEC_PROT; the address is the PC.

R60, R114, R134: the three steps by which a fetch faults, on the agent whose turn it is: WATCHDOG with the window's size as its value,
FETCH_BOUND at the PC, ILLEGAL_INSTRUCTION with the word. A task's activation ends; an engine hart stops. -/
def Obligations.FetchOfWords : Prop :=
  (∀ (s : State) (g : Nat) (f : Frame),
     let b := s.bogie g
     let t := { s with turn := .free, cur := .bogie g }
     s.turn = .agent (.bogie g) → b.phase = .running → b.stack.head? = some f → b.rep = none →
     (f.window ≤ b.fetched → step s = .next (t.afterWord g (b.syncFault g 0x0F 0 f.window))) ∧
     (b.fetched < f.window →
       (f.cpu.pc.toNat % 4 ≠ 0 ∨ f.cpu.pc.toNat < f.hdr.codeStart ∨ f.hdr.codeStart + 4 * f.hdr.words < f.cpu.pc.toNat + 4) →
       step s = .next (t.afterWord g (b.syncFault g 0x03 f.cpu.pc.toNat 0)))) ∧
  (∀ (s : State) (g : Nat) (f : Frame),
     let b := s.bogie g
     let t := { s with turn := .free, cur := .bogie g }
     s.turn = .agent (.bogie g) → b.phase = .running → b.stack.head? = some f → b.rep = none →
     b.fetched < f.window → inExtent f.hdr f.cpu.pc.toNat = true →
     (b.translate f.ctx f.cpu.pc.toNat = .ok none → step s = .next (t.afterWord g (b.syncFault g 0x09 f.cpu.pc.toNat 0))) ∧
     (∀ e, b.translate f.ctx f.cpu.pc.toNat = .ok (some e) → e.x = false →
       step s = .next (t.afterWord g (b.syncFault g 0x08 f.cpu.pc.toNat 0)))) ∧
  (∀ (s : State),
     (∀ g f, s.cur = .bogie g → (s.bogie g).stack.head? = some f →
       Faults .watchdog s g 0x0F 0 f.window ∧ Faults .fetchBound s g 0x03 f.cpu.pc.toNat 0 ∧
       Faults .illegalInstruction s g 0x01 0 s.arg.n) ∧
     (∀ d h, s.cur = .hart d h →
       exec .watchdog s = .next (s.hartFault d h 0x0F) ∧ exec .fetchBound s = .next (s.hartFault d h 0x03) ∧
       exec .illegalInstruction s = .next (s.hartFault d h 0x01)))

/-- R55, R68, R164: outside a repetition a word that completes is followed by the word at PC + 4, the prefix ends, and INSTRET rises by
one; nothing else of the bogie's architectural state changes.

R261, R263, R264: in a repetition the step runs the body word that is due, its fields stepped, without a fetch; a word that completes
is followed by the next word of the body, the first word of the next pass, or, after the last pass, the word after the body. -/
def Obligations.RepetitionSteps : Prop :=
  (∀ (b : Bogie) (f : Frame), b.rep = none →
     b.advance f = b.setTop { f with cpu := { f.cpu with pc := f.cpu.pc + 4, pfx := {} }, instret := f.instret + 1 } ∧
     (b.setTop f).stack = f :: b.stack.tail ∧ (b.setTop f).scratch = b.scratch ∧ (b.setTop f).outbox = b.outbox ∧
     (b.setTop f).journal = b.journal ∧ (b.setTop f).scale = b.scale ∧ (b.setTop f).l1 = b.l1 ∧ (b.setTop f).phase = b.phase) ∧
  (∀ (s : State) (g : Nat) (f : Frame) (r : Rep) (i : Instr),
     let b := s.bogie g
     let f' := fun (pc : Word) => { f with cpu := { f.cpu with pc := pc, pfx := {} }, instret := f.instret + 1 }
     let at_ := fun (n : Nat) => r.addr + BitVec.ofNat 64 (4 * (n + 1))
     b.rep = some r →
     (s.turn = .agent (.bogie g) → b.phase = .running → b.stack.head? = some f → r.now = some i →
       step s = exec i { s with turn := .free, cur := .bogie g }) ∧
     (r.idx + 1 < r.body.length → b.advance f = { b.setTop (f' (at_ (r.idx + 1))) with rep := some { r with idx := r.idx + 1 } }) ∧
     (r.body.length = r.idx + 1 → r.pass + 1 < r.count →
       b.advance f = { b.setTop (f' (at_ 0)) with rep := some { r with pass := r.pass + 1, idx := 0 } }) ∧
     (r.body.length = r.idx + 1 → r.count ≤ r.pass + 1 → b.advance f = { b.setTop (f' (at_ r.body.length)) with rep := none }))

/-- R261, R262: a REP whose body words are fetched, legal and within the declaration in every pass, and whose passes fit the outbox and the
journal, begins its passes: nothing but the repetition, the PC and the counts change. A body that is not legal is ILLEGAL_INSTRUCTION at
the REP.

R51, R348: a body word beyond the code extent is FETCH_BOUND at the REP; another fault of its fetch falls at the body word (log 134). -/
def Obligations.RepetitionBegins : Prop :=
  ∀ (s : State) (g : Nat) (f : Frame) (d a b : BitVec 5) (c : BitVec 8) (l : BitVec 3) (body : List (BitVec 32)),
    let bo := s.bogie g
    let i := Instr.rep d a b c l
    let n := l.toNat + 1
    let count := c.toNat + 1
    let words := body.filterMap decode
    let cost := fun (p : Nat × Nat → Nat) => count * (words.map fun w => p (bodyCost w)).sum
    Runs s g f i →
    (∀ pc code addr val, repBody s g bo f n = .error (pc, .fault code addr val) →
      (code = 0x03 → Faults i s g code addr val) ∧
      (code ≠ 0x03 → exec i s = .next (s.afterWord g
        ((bo.setTop { f with cpu := { f.cpu with pc := BitVec.ofNat 64 pc } }).syncFault g code addr val)))) ∧
    (repBody s g bo f n = .ok body → bodyLegal body {} = false → Faults i s g 0x01 0 (bo.wordNow i).toNat) ∧
    (repBody s g bo f n = .ok body → bodyLegal body {} = true →
      repNames f.hdr ((List.range count).flatMap fun p => body.filterMap fun w => stepInstr w p [d.toInt, a.toInt, b.toInt])
        (bo.wordNow i) = none →
      bo.outbox.length + cost (·.1) ≤ 256 → bo.journal.length + cost (·.2) ≤ 256 →
      exec i s = .next (s.setBogie g { bo.setTop { f with cpu := { f.cpu with pc := f.cpu.pc + 4, pfx := {} }, instret := f.instret + 1 } with
        rep := some { addr := f.cpu.pc, body := body, count := count, sd := d.toInt, sa := a.toInt, sb := b.toInt }
        fetched := bo.fetched + n }))

/-- R19, R22, R121, R137: a step on a bogie's turn leaves every other bogie, all memory, and every die, hart, context, queue, link and device as
it was: it changes its bogie, the turn, what is under way and the free choices, and of a coach no more than its instruction cache.

R353: where the word is fetched from memory by one of several addresses of its page, the home may note that address and drop cached lines,
of L1s and RDCs, that lie under another; no step does more to another bogie or a die. -/
def Obligations.AgentStepIsolation : Prop :=
  ∀ (s t : State) (g : Nat), s.turn = .agent (.bogie g) → step s = .next t →
    (∃ b k x a l o n, t = { s with
        turn := .free, cur := .bogie g, arg := a, bogies := b, coaches := k, dies := x, agenda := s.agenda ++ l, oracle := o, freeCtr := n } ∧
      (∀ c, ∃ e, Tab.get k {} c = { s.coach c with icache := e }) ∧
      (∀ g', g' ≠ g → ∃ c, c.Sublist (s.bogie g').l1 ∧ Tab.get b {} g' = { s.bogie g' with l1 := c }) ∧
      (∀ d, ∃ r m, r.Sublist (s.die d).rdc ∧ Tab.get x {} d = { s.die d with rdc := r, remap := m }) ∧
      ((∀ f l, (s.bogie g).stack.head? = some f → s.leaf f.ctx f.cpu.pc.toNat = some l → l.syn = false) →
        x = s.dies ∧ ∀ g', g' ≠ g → Tab.get b {} g' = s.bogie g')) ∧
    (∀ a, t.readByte a = s.readByte a) ∧ (memWf s.mem = true → memWf t.mem = true)

/-- Memory (R17) and the hosts' memory (R95) are lists of addresses and bytes in one canonical form, and every step that goes on keeps it,
whichever word or event it runs: equal memories are equal data in every state a run reaches. The form is the model's own choice (log 4), and
no rule of the manual. -/
def Obligations.StepsKeepMemory : Prop :=
  ∀ (s t : State), memWf s.mem = true → memWf s.hostMem = true → step s = .next t → memWf t.mem = true ∧ memWf t.hostMem = true

/-- R96, R425: right after module reset every context is Free, no queue is enabled, no kernel is registered, and every engine hart is in state 0.

That no frame is on a bogie and every bogie is idle, with an empty scratchpad and outbox and nothing that it sent outstanding, that nothing is
under way, and that memory and the hosts' memory list nothing but in their canonical form, is the model's choice (logs 1, 4, 15 and 16). -/
def Obligations.ResetState : Prop :=
  let s := State.reset
  (∀ c, (s.ctx c).state = 0) ∧ (∀ q, (s.queue q).state = 0) ∧ (∀ c k, ((s.ctx c).kernel k).state = 0) ∧
  (∀ g, (s.bogie g).stack = [] ∧ (s.bogie g).phase = .idle) ∧ (∀ d h, (s.hart d h).state = 0) ∧ s.agenda = [] ∧ memWf s.mem = true ∧
  memWf s.hostMem = true ∧
  ∀ g, (s.bogie g).scratch = [] ∧ (s.bogie g).outbox = [] ∧ (s.bogie g).transit = []

/-- R43, R58: x0 reads zero, a write of x0 changes no register, and a write of another register changes that one alone; k0 reads all
ones.

R161-R166, R189: CSRR reads the control and status registers of the task: CYCLE as the witness latched it, INSTRET, SCALE_A_BASE, the
fault registers, the prefetch counters; CSRW of SCALE_A_BASE keeps the low ten bits. On an engine hart CSRR writes a value that the model
leaves free (log 22). -/
def Obligations.RegistersReadAndWrite : Prop :=
  (∀ (f : Frame) (r q : BitVec 5) (v : Word),
     f.getX 0 = 0 ∧ f.setX 0 v = f ∧ f.getK 0 = BitVec.allOnes 64 ∧ (r ≠ 0 → (f.setX r v).getX r = v) ∧
     (q ≠ r → (f.setX r v).getX q = f.getX q) ∧
     ∀ (x : Vec) (m : Mask), (f.setV r x).getV r = x ∧ (q ≠ r → (f.setV r x).getV q = f.getV q) ∧
       (r ≠ 0 → (f.setK r m).getK r.toNat = m)) ∧
  (∀ (s : State) (g : Nat) (f : Frame) (d a : BitVec 5) (c : BitVec 12),
     let b := s.bogie g
     (Runs s g f (.csrr d c) → ∀ v : Word,
       (c = 0x010 ∧ v = BitVec.ofNat 64 b.cycle ∨ c = 0x011 ∧ v = f.instret ∨ c = 0x020 ∧ v = f.scaleA.setWidth 64 ∨
         c = 0x030 ∧ v = f.faultPc ∨ c = 0x031 ∧ v = f.faultCode ∨ c = 0x032 ∧ v = f.faultAddr ∨ c = 0x033 ∧ v = f.faultExtra ∨
         (∃ k < 4, c = BitVec.ofNat 12 (0x100 + k) ∧ v = (b.pfLatch[k]?).getD 0)) →
       TaskGoes (.csrr d c) s g (f.setX d v)) ∧
     (Runs s g f (.csrr d 0x001) → ∀ t, exec (.self d) s = .next t → Runs s g f (.self d) → exec (.csrr d 0x001) s = .next t) ∧
     (Runs s g f (.csrr d 0x002) → ∀ t, exec (.selfFrame d) s = .next t → Runs s g f (.selfFrame d) → exec (.csrr d 0x002) s = .next t) ∧
     (Runs s g f (.csrr d 0x003) → ∀ t, exec (.prio d) s = .next t → Runs s g f (.prio d) → exec (.csrr d 0x003) s = .next t) ∧
     (Runs s g f (.csrw a c) → TaskGoes (.csrw a c) s g { f with scaleA := (f.getX a).setWidth 10 }) ∧
     ∀ die h, (HartRuns s die h (.csrr d c) → ∃ v : Word, exec (.csrr d c) s = .next (State.setHart { s with freeCtr := s.freeCtr + 1 } die h
       { s.hart die h with cpu := { (s.hart die h).cpu.setX d v with pc := (s.hart die h).cpu.pc + 4, pfx := {} } })))

/-! ### Task words -/

/-- R143, R144, R310: YIELD sets the window of later activations and ends this one. END drops every claim, sends the release of the
successor and the node-done report, in this order, and ends the task; with `.succ` and no successor it is RELEASE_INVALID.

R144, R309: END with `.cont` writes the record for its resumption and releases it: resume_valid set and the priority as it stands in the
first doubleword, the resume PC, and x1 to x4, in one entry; then the task ends. A resume PC that is no multiple of 4 is MISALIGNED, and a
frame of a NODE release has no record to write: RELEASE_INVALID.

R301: BRK commits the activation and ends the task at the word, with every claim dropped; BREAKPOINT is raised at the commit, with the word's
PC and its code in the record.

(The address of RELEASE_INVALID for END with `.succ` and no successor, the frame's record, is the model's reading, log 71.) -/
def Obligations.TasksYieldAndEnd : Prop :=
  (∀ (s : State) (g : Nat) (f : Frame),
     let b := s.bogie g
     (∀ n, Runs s g f (.yield n) →
       Ends (.yield n) s g (b.advance { f with window := if n = 0 then 4095 else n.toNat }) .commit) ∧
     ∀ a sc nd, Runs s g f (.endTask a sc nd) →
       let rel := if sc = 1 then [Op.release none false
         { type := 1, prio := f.prio, ctx := f.ctx, record := f.succ, arg := (f.getX a).setWidth 32 }] else []
       let done := if nd = 1 ∧ f.d0.getLsbD 33 = true then [Op.notice f.node f.inst true (f.type == 3)] else []
       (sc = 1 → f.succ = 0 → Raises (.endTask a sc nd) s g 0x12 f.record 0) ∧
       ((sc = 0 ∨ f.succ ≠ 0) → Room s g (rel.length + done.length) →
         Ends (.endTask a sc nd) s g (Bogie.advance { b with outbox := b.outbox ++ (rel ++ done) } { f with claims := [] }) .ended)) ∧
  (∀ (s : State) (g : Nat) (f : Frame) (d a : BitVec 5), Runs s g f (.endCont d a) →
     let b := s.bogie g
     let pc := f.getX d
     ((pc.toNat % 4 ≠ 0) → Raises (.endCont d a) s g 0x04 pc.toNat 0) ∧
     (pc.toNat % 4 = 0 → f.type = 3 → Raises (.endCont d a) s g 0x12 f.record 0) ∧
     (pc.toNat % 4 = 0 → f.type ≠ 3 → f.prio < 16 →
       ∃ d0 : Word, (d0.toNat / 2 ^ 33 = f.d0.toNat / 2 ^ 33 ∧ d0.toNat / 2 ^ 32 % 2 = 1 ∧
           d0.toNat / 2 ^ 20 % 2 ^ 12 = f.d0.toNat / 2 ^ 20 % 2 ^ 12 ∧ d0.toNat / 2 ^ 16 % 16 = f.prio ∧
           d0.toNat % 2 ^ 16 = f.d0.toNat % 2 ^ 16) ∧
         ∀ r b1, checkAccess s g b f .store f.record 8 = .ok r →
           writeRoute b f false r f.record
             ([d0, pc, f.getX 1, f.getX 2, f.getX 3, f.getX 4].flatMap fun w => bytesOfNat 8 w.toNat) = .ok b1 →
           b1.outbox.length + 1 ≤ 256 →
           Ends (.endCont d a) s g (Bogie.advance
             { b1 with outbox := b1.outbox ++ [.release none false
               { type := 1, prio := f.prio, ctx := f.ctx, record := f.record, arg := (f.getX a).setWidth 32 }] }
             { f with claims := [] }) .ended)) ∧
  (∀ (s : State) (g : Nat) (f : Frame) (n : BitVec 12), Runs s g f (.brk n) →
     Ends (.brk n) s g ((s.bogie g).advance { f with claims := [] })
       (.brk { code := 0x15, extra := BitVec.ofNat 64 (n.toNat * 2 ^ 32), pc := f.cpu.pc }))

/-- R145: the three forms of RELEASE append one TASK release to the outbox, with the explicit priority or the frame's, for the own die's
dispatcher, a named die's, or the module that the peer window maps; a record address that is no multiple of 64 is MISALIGNED, one in the
wrong kind of range RELEASE_INVALID, and one that is not mapped readable PAGE_INVALID.

R404: a record in another module whose table entry is not valid is PAGE_INVALID, and one whose entry does not let releases through
RELEASE_INVALID.

R131, R146: CLAIM pushes a declared resource with its ceiling, UNCLAIM pops the one claimed last; an undeclared resource is
CLAIM_UNDECLARED, and one claimed twice, a ninth claim or a release out of order CLAIM_ORDER. -/
def Obligations.ReleasesAndClaims : Prop :=
  (∀ (s : State) (g : Nat) (f : Frame) (d a : BitVec 5) (e : BitVec 4) (x : BitVec 1) (p : BitVec 4),
     let r := (f.getX d).toNat
     let rel : Release := { type := 1, prio := if x = 1 then p.toNat else f.prio, ctx := f.ctx, record := r, arg := (f.getX a).setWidth 32 }
     (∀ i ∈ [Instr.release d a x p, .releaseDie d a e x p, .releasePeer d a x p], Runs s g f i →
       r % 64 ≠ 0 → Raises i s g 0x04 r 0) ∧
     (∀ i ∈ [Instr.release d a x p, .releaseDie d a e x p], Runs s g f i → r % 64 = 0 →
       (region r = .peerWindow → Raises i s g 0x12 r 0) ∧
       (region r ≠ .peerWindow → region r ≠ .glob → Raises i s g 0x09 r 0) ∧
       (region r = .glob → (s.bogie g).translate f.ctx r = .ok none → Raises i s g 0x09 r 0)) ∧
     (r % 64 = 0 → region r = .glob → ∀ t, (s.bogie g).translate f.ctx r = .ok (some t) → t.rd = true → Room s g 1 →
       (Runs s g f (.release d a x p) → Sends (.release d a x p) s g f [.release none false rel]) ∧
       (Runs s g f (.releaseDie d a e x p) → Sends (.releaseDie d a e x p) s g f [.release (some e.toNat) false rel])) ∧
     (Runs s g f (.releasePeer d a x p) → r % 64 = 0 →
       (region r ≠ .peerWindow → Raises (.releasePeer d a x p) s g 0x12 r 0) ∧
       (region r = .peerWindow → bit (peerEntry s f.ctx r) 0 = false → Raises (.releasePeer d a x p) s g 0x09 r 0) ∧
       (region r = .peerWindow → bit (peerEntry s f.ctx r) 0 = true → bit (peerEntry s f.ctx r) 3 = false →
         Raises (.releasePeer d a x p) s g 0x12 r 0) ∧
       (region r = .peerWindow → bit (peerEntry s f.ctx r) 0 = true → bit (peerEntry s f.ctx r) 3 = true → Room s g 1 →
         Sends (.releasePeer d a x p) s g f [.release none true rel]))) ∧
  (∀ (s : State) (g : Nat) (f : Frame) (e : BitVec 6),
     let n := e.toNat
     (Runs s g f (.claim e) →
       ((f.hdr.res.getLsbD n = false ∨ (s.ctx f.ctx).ceiling n = none) → Raises (.claim e) s g 0x0D 0 n) ∧
       (f.hdr.res.getLsbD n = true → ∀ c, (s.ctx f.ctx).ceiling n = some c →
         ((n ∈ f.claims.map (·.1) ∨ f.claims.length = 8) → Raises (.claim e) s g 0x0E 0 n) ∧
         (n ∉ f.claims.map (·.1) → f.claims.length ≠ 8 → TaskGoes (.claim e) s g { f with claims := (n, c.1) :: f.claims }))) ∧
     (Runs s g f (.unclaim e) →
       (f.hdr.res.getLsbD n = false → Raises (.unclaim e) s g 0x0D 0 n) ∧
       (f.hdr.res.getLsbD n = true → (f.claims.head?.map (·.1) ≠ some n) → Raises (.unclaim e) s g 0x0E 0 n) ∧
       (f.hdr.res.getLsbD n = true → ∀ c r, f.claims = (n, c) :: r → TaskGoes (.unclaim e) s g { f with claims := r })))

/-- R147: PRIO reads the floor, the threshold and the priority. PRIO.set reads the same and clamps the new priority between band_low, the
frame beneath, band_high and the ceilings, or leaves it where nothing lies between them or the frame is of
level 15. (That the frame beneath counts with the floor, and that SELF.frame gives the depth modulo 16, is the model's reading, log 47.)

R148, R318: SELF and SELF.frame read the words of the task's place and frame; GNODE reads the instance and node of a member frame, or all
ones, and GNODE.n the count of its node.

R317: GDEC appends an update of a node reference by its count; a reference with a bit above 31 set, or a die above 7, is
RELEASE_INVALID. -/
def Obligations.PriorityIdentityAndGroups : Prop :=
  (∀ (s : State) (g : Nat) (f : Frame) (d a : BitVec 5),
     let b := s.bogie g
     let w := BitVec.ofNat 64 (b.floor * 2 ^ 8 + f.threshold b.floor * 2 ^ 4 + f.prio)
     let c := s.ctx f.ctx
     let lo := b.stack.tail.head?.elim c.bandLow fun under => max c.bandLow (under.threshold b.floor + 1)
     let hi := min c.bandHigh (lowestCeiling c f.hdr)
     (Runs s g f (.prio d) → TaskGoes (.prio d) s g (f.setX d w)) ∧
     (Runs s g f (.prioSet d a) →
       ((f.prio = 15 ∨ hi < lo) → TaskGoes (.prioSet d a) s g (f.setX d w)) ∧
       (f.prio ≠ 15 → lo ≤ hi →
         TaskGoes (.prioSet d a) s g { f.setX d w with prio := min (max ((f.getX a).toNat % 16) lo) hi }))) ∧
  (∀ (s : State) (g : Nat) (f : Frame) (d : BitVec 5),
     let b := s.bogie g
     let member := f.d0.getLsbD 33
     (Runs s g f (.self d) → TaskGoes (.self d) s g (f.setX d (BitVec.ofNat 64
       (s.module.toNat * 2 ^ 35 + f.ctx * 2 ^ 27 + g * 2 ^ 16 + g / 192 * 2 ^ 12 + g / 8 % 24 * 2 ^ 7 + g % 8 * 2 ^ 4 + g % 8)))) ∧
     (Runs s g f (.selfFrame d) → TaskGoes (.selfFrame d) s g (f.setX d (BitVec.ofNat 64
       ((f.window - b.fetched) * 2 ^ 24 + f.claims.length * 2 ^ 20 + b.stack.length % 16 * 2 ^ 16 + f.kernel)))) ∧
     (Runs s g f (.gnode d) → TaskGoes (.gnode d) s g
       (f.setX d (if member = true then f.inst ++ f.node else BitVec.allOnes 64))) ∧
     (Runs s g f (.gnodeN d) → TaskGoes (.gnodeN d) s g
       (f.setX d (if member = true then BitVec.ofNat 64 f.ninst else BitVec.allOnes 64)))) ∧
  (∀ (s : State) (g : Nat) (f : Frame) (a : BitVec 5) (c : BitVec 12), Runs s g f (.gdec a c) →
     let x := f.getX a
     ((x.toNat / 2 ^ 32 ≠ 0 ∨ 7 < x.toNat / 2 ^ 28 % 16) → Raises (.gdec a c) s g 0x12 x.toNat 0) ∧
     (x.toNat / 2 ^ 32 = 0 → x.toNat / 2 ^ 28 % 16 ≤ 7 → Room s g 1 → Sends (.gdec a c) s g f [.gdec x c.toNat]))

/-! ### Memory words -/

/-- R167, R175, R191, R194, R195, R348: the faults of a load or a store of n bytes of global memory in their order: an address that is no
multiple of n is MISALIGNED; then one that no readable page maps PAGE_INVALID; then, for a store, one whose page is not writable or is of the
read-only class WRITE_PROT. Nothing is loaded or stored.

R115, R168, R169, R191, R195: stores to windows 1 to 15 of the own scratchpad are WINDOW_WRITE; a load or store of window 0 beyond the
kernel's declared bytes is SCRATCH_BOUND, with the first byte beyond them as its value; an address in a range that holds nothing is
PAGE_INVALID. -/
def Obligations.AccessesFault : Prop :=
  (∀ (s : State) (g : Nat) (f : Frame) (t b : BitVec 5) (d : BitVec 13) (q : BitVec 2), Runs s g f (.st t b d q) →
     let n := 2 ^ q.toNat
     let va := dispAddr f.cpu b d n
     region va = .glob →
     (va % n ≠ 0 → Raises (.st t b d q) s g 0x04 va 0) ∧
     (va % n = 0 → (s.bogie g).translate f.ctx va = .ok none → Raises (.st t b d q) s g 0x09 va 0) ∧
     ∀ e, va % n = 0 → (s.bogie g).translate f.ctx va = .ok (some e) →
       (e.rd = false → Raises (.st t b d q) s g 0x09 va 0) ∧
       (e.rd = true → (e.w = false ∨ e.cls = 5) → Raises (.st t b d q) s g 0x07 va 0)) ∧
  (∀ (s : State) (g : Nat) (f : Frame) (t b : BitVec 5) (d : BitVec 13) (q : BitVec 3), Runs s g f (.ld t b d q) →
     let n := 2 ^ (q.toNat % 4)
     let va := dispAddr f.cpu b d n
     (region va = .glob → va % n ≠ 0 → Raises (.ld t b d q) s g 0x04 va 0) ∧
     (region va = .glob → va % n = 0 → (s.bogie g).translate f.ctx va = .ok none → Raises (.ld t b d q) s g 0x09 va 0) ∧
     (∀ e, region va = .glob → va % n = 0 → (s.bogie g).translate f.ctx va = .ok (some e) → e.rd = false → Raises (.ld t b d q) s g 0x09 va 0) ∧
     (∀ o, region va = .own 0 o → va % n ≠ 0 → Raises (.ld t b d q) s g 0x04 va 0) ∧
     (∀ o, region va = .own 0 o → va % n = 0 → o + n ≤ 0x10000 → f.hdr.scratch * 256 < o + n →
       Raises (.ld t b d q) s g 0x05 va (max (f.hdr.scratch * 256) o)) ∧
     (region va = .nothing → Raises (.ld t b d q) s g 0x09 va 0)) ∧
  (∀ (s : State) (g : Nat) (f : Frame) (t b : BitVec 5) (d : BitVec 13) (q : BitVec 2), Runs s g f (.st t b d q) →
     let n := 2 ^ q.toNat
     let va := dispAddr f.cpu b d n
     (∀ w o, region va = .own w o → w ≠ 0 → Raises (.st t b d q) s g 0x06 va 0) ∧
     (∀ o, region va = .own 0 o → va % n = 0 → o + n ≤ 0x10000 → f.hdr.scratch * 256 < o + n →
       Raises (.st t b d q) s g 0x05 va (max (f.hdr.scratch * 256) o)) ∧
     (region va = .nothing → Raises (.st t b d q) s g 0x09 va 0))

/-- R194: LD from the scratchpads and from cacheable and memory-side pages writes the loaded bytes, little-endian and extended as sq says, and
goes on; from a device page or the engine region and from the peer-module window (R405) it ends the activation, and the witness makes the load
once, as an acquire load (of the window: log 126).

R137, R172, R176: a load of the task reads, for each byte that an entry of its outbox stores, that byte of the newest such entry, and
else the byte of its L1 where that is valid; with neither the word waits for the line. -/
def Obligations.Loads : Prop :=
  (∀ (s : State) (g : Nat) (f : Frame) (t b : BitVec 5) (d : BitVec 13) (q : BitVec 3), Runs s g f (.ld t b d q) →
     let n := 2 ^ (q.toNat % 4)
     let va := (f.getX b + d.signExtend 64 * BitVec.ofNat 64 n).toNat
     let value := fun (l : List Byte) =>
       if q.toNat < 4 then (BitVec.ofNat (8 * n) (natOfBytes l)).signExtend 64 else BitVec.ofNat 64 (natOfBytes l)
     (∀ r b' l, checkAccess s g (s.bogie g) f .load va n = .ok r → r ≠ .device → r ≠ .peerWindow →
       readRoute s g (s.bogie g) f (modBypass f.cpu.pfx.mod) r va n = .ok (b', l) →
       exec (.ld t b d q) s = .next (s.afterWord g { b := b'.advance (f.setX t (value l)) })) ∧
     (∀ r, (r = .device ∨ r = .peerWindow) → checkAccess s g (s.bogie g) f .load va n = .ok r → Room s g 1 →
       Awaits (.ld t b d q) s g f
         { op := .load va n true, dest := t, size := n, sext := decide (q.toNat < 4), acquire := true })) ∧
  (∀ (b : Bogie) (f : Frame) (va : Nat),
     (∀ l1 bytes rel by_ note l2 v, b.outbox = l1 ++ Op.store bytes rel by_ note :: l2 → Tab.find bytes va = some v →
       (∀ o ∈ l2, Tab.find (stored o) va = none) → loadByte b f true va = .ok v) ∧
     ((∀ o ∈ b.outbox, Tab.find (stored o) va = none) → ∀ e, findSector b.l1 f.ctx va = some e → e.poison = false →
       (bit e.valid (va % 32) = true → loadByte b f true va = .ok (Tab.get e.data 0 (va % 32))) ∧
       (bit e.valid (va % 32) = false → b.transit = [] → loadByte b f true va = .error (.line va))) ∧
     ((∀ o ∈ b.outbox, Tab.find (stored o) va = none) → findSector b.l1 f.ctx va = none → b.transit = [] →
       loadByte b f true va = .error (.line va)))

/-- R137, R195, R196: ST and STL to mapped global memory append one outbox entry with the bytes at their address, the lowest byte first: an
ordinary store, or a release store (STL, and any store to a device page); memory is unchanged until the verdict.

R138, R195: a store to window 0 of the own scratchpad is made at once, with the old contents of each sector in the journal the first time
the activation writes it, and nothing is sent; where the journal lacks room for it, the activation ends before the word and its prefix (R135).

R138, R140: what the journal holds undoes the writes: after one store of at most 32 bytes within a sector the rollback gives back the
sector's old bytes. -/
def Obligations.Stores : Prop :=
  (∀ (s : State) (g : Nat) (f : Frame) (t b : BitVec 5) (d : BitVec 13) (q : BitVec 2) (e : TlbEntry),
     let n := 2 ^ q.toNat
     let va := (f.getX b + d.signExtend 64 * BitVec.ofNat 64 n).toNat
     let bytes := placed va (bytesOfNat n (f.getX t).toNat)
     region va = .glob → va % n = 0 → (s.bogie g).translate f.ctx va = .ok (some e) → e.rd = true → e.w = true → e.cls ≠ 5 →
     Room s g 1 →
     (Runs s g f (.st t b d q) →
       Sends (.st t b d q) s g f [.store bytes (e.cls == 4) (modBypass f.cpu.pfx.mod) none]) ∧
     (Runs s g f (.stl t b d q) → Sends (.stl t b d q) s g f [.store bytes true false none])) ∧
  (∀ (s : State) (g : Nat) (f : Frame) (t b : BitVec 5) (d : BitVec 13) (q : BitVec 2), Runs s g f (.st t b d q) →
     let n := 2 ^ q.toNat
     let va := dispAddr f.cpu b d n
     let bg := s.bogie g
     ∀ o, region va = .own 0 o → va % n = 0 → o + n ≤ 0x10000 → o + n ≤ f.hdr.scratch * 256 →
       scratchBusy s g bg f true o (o + n) = false →
       let after := (bg.journalise (f.sbase + o) n).scratchWrite (f.sbase + o) (bytesOfNat n (f.getX t).toNat)
       (bg.journal.length + (bg.journalNeed (f.sbase + o) n).length ≤ 256 →
         exec (.st t b d q) s = .next (s.afterWord g { b := after.advance f })) ∧
       (256 < bg.journal.length + (bg.journalNeed (f.sbase + o) n).length →
         Ends (.st t b d q) s g (bg.setTop { f with
           cpu := { f.cpu with pc := f.cpu.prefixStart, pfx := {} }, instret := f.instret - f.cpu.prefixWords }) .commit)) ∧
  (∀ (b : Bogie) (a : Nat) (l : List Byte), b.journal = [] → 0 < l.length → a / 32 = (a + l.length - 1) / 32 →
     (∀ x, Tab.get ((b.journalise a l.length).scratchWrite a l).undo.scratch 0 x = Tab.get b.scratch 0 x) ∧
     ((b.journalise a l.length).scratchWrite a l).undo.journal = [])

/-- R196, R199, R201, R202, R192: LDA, AMO, CAS and FADD with a destination end the activation and are made once by the witness, at the
address of their base register: the frame awaits the old or loaded value for its destination, and begins its next activation with the
acquire actions where the word is an acquire. -/
def Obligations.ReturningAccesses : Prop :=
  ∀ (s : State) (g : Nat) (f : Frame) (t b x y : BitVec 5) (d : BitVec 13) (o : BitVec 4) (ord q : BitVec 2) (sq : BitVec 3) (r : Route),
    let bg := s.bogie g
    let base := (f.getX b).toNat
    let place := fun (va : Nat) => match r with
      | .peer c o => peerAddr c o
      | _ => va
    let w := if sq.toNat % 4 = 2 then 4 else 8
    let wf := if sq = 2 then 4 else 2
    Room s g 1 →
    (let n := 2 ^ q.toNat
     let va := dispAddr f.cpu b d n
     Runs s g f (.lda t b d q) → checkAccess s g bg f .lda va n = .ok r →
      Awaits (.lda t b d q) s g f { op := .load (place va) n true, dest := t, size := n, acquire := true }) ∧
    (Runs s g f (.amo t b x o ord sq) → checkAccess s g bg f .atomic base w = .ok r →
      Awaits (.amo t b x o ord sq) s g f { op := .atomic (place base) w (.int o) (f.getX x) 0 ord .reg, dest := t, size := w
                                           sext := !sq.getLsbD 2, acquire := ord.getLsbD 0, word := bg.wordNow (.amo t b x o ord sq) }) ∧
    (Runs s g f (.cas t b x y ord sq) → checkAccess s g bg f .atomic base w = .ok r →
      Awaits (.cas t b x y ord sq) s g f { op := .atomic (place base) w .cas (f.getX x) (f.getX y) ord .reg, dest := t, size := w
                                           sext := !sq.getLsbD 2, acquire := ord.getLsbD 0, word := bg.wordNow (.cas t b x y ord sq) }) ∧
    (Runs s g f (.fadd t b x ord sq) → checkAccess s g bg f .atomic base wf = .ok r →
      Awaits (.fadd t b x ord sq) s g f { op := .atomic (place base) wf (.fadd sq) (f.getX x) 0 ord .reg, dest := t, size := wf
                                          sext := false, acquire := ord.getLsbD 0, word := bg.wordNow (.fadd t b x ord sq) })

/-- R200, R202, R192: AMOP, FADD without a destination and AMOA append one atomic to the outbox and go on. AMOA's old value is for an aligned
raw offset within the kernel's scratchpad, else MISALIGNED or SCRATCH_BOUND.

R206: STF appends one store with its notification: an increment of the doubleword at xf, or a release of the record at xf with xt's low
half as its argument and the frame's priority. Both addresses lie on mapped pages of global memory, the destination's not a device's.

R207: PREF and PREF.far never fault and change no register: on a readable page of a cacheable class the line is asked for, into the L1 or into
the die's level; elsewhere in memory that is unmapped, misaligned or core-local they have no effect. (That a memory-side page and a device's are elsewhere is
the model's reading, log 48.) -/
def Obligations.PostedWords : Prop :=
  (∀ (s : State) (g : Nat) (f : Frame) (t b x : BitVec 5) (o k : BitVec 4) (ord : BitVec 2) (q1 r1 : BitVec 1) (sq : BitVec 3) (r : Route),
     let bg := s.bogie g
     let base := (f.getX b).toNat
     let place := match r with
       | .peer c o => peerAddr c o
       | _ => base
     let w := if q1 = 0 then 4 else 8
     let wf := if sq = 2 then 4 else 2
     Room s g 1 →
     (Runs s g f (.amop b x o ord q1) → checkAccess s g bg f .atomic base w = .ok r →
       Sends (.amop b x o ord q1) s g f [.atomic place w (.int o) (f.getX x) 0 ord (.posted (bg.wordNow (.amop b x o ord q1)))]) ∧
     (Runs s g f (.faddPosted b x r1 sq) → checkAccess s g bg f .atomic base wf = .ok r →
       Sends (.faddPosted b x r1 sq) s g f
         [.atomic place wf (.fadd sq) (f.getX x) 0 (r1 ++ 0#1) (.posted (bg.wordNow (.faddPosted b x r1 sq)))]) ∧
     (Runs s g f (.amoa t b x o k q1) → checkAccess s g bg f .atomic base w = .ok r →
       let off := (f.getX t).toNat
       (off % w ≠ 0 → Raises (.amoa t b x o k q1) s g 0x04 off 0) ∧
       (off % w = 0 → f.hdr.scratch * 256 < off + w → Raises (.amoa t b x o k q1) s g 0x05 off (max off (f.hdr.scratch * 256))) ∧
       (off % w = 0 → off + w ≤ f.hdr.scratch * 256 → Sends (.amoa t b x o k q1) s g f
         [.atomic place w (.int o) (f.getX x) 0 0 (.amoa f.uid off k.toNat (bg.wordNow (.amoa t b x o k q1)))]))) ∧
  (∀ (s : State) (g : Nat) (f : Frame) (t b x : BitVec 5) (q : BitVec 3) (e ef : TlbEntry),
     let bg := s.bogie g
     let n := 2 ^ q.toNat
     let va := (f.getX b).toNat
     let fa := (f.getX x).toNat
     let bytes := placed va (bytesOfNat n (f.getX t).toNat)
     Room s g 1 → region va = .glob → region fa = .glob → va % n = 0 →
     bg.translate f.ctx va = .ok (some e) → e.rd = true → e.w = true → e.cls ≠ 4 → e.cls ≠ 5 →
     bg.translate f.ctx fa = .ok (some ef) → ef.rd = true →
     (Runs s g f (.stfFlag t b x q) → fa % 8 = 0 → ef.w = true → ef.cls ≠ 5 →
       Sends (.stfFlag t b x q) s g f [.store bytes false false (some (.flag fa (bg.wordNow (.stfFlag t b x q))))]) ∧
     (Runs s g f (.stfTask t b x q) → fa % 64 = 0 →
       Sends (.stfTask t b x q) s g f [.store bytes false false (some (.task fa f.prio ((f.getX t).setWidth 32)))])) ∧
  (∀ (s : State) (g : Nat) (f : Frame) (b : BitVec 5) (d : BitVec 13),
     let bg := s.bogie g
     let va := dispAddr f.cpu b d 64
     ∀ i far, (i = Instr.pref b d ∧ far = 1 ∨ i = Instr.prefFar b d ∧ far = 2) → Runs s g f i →
       ((region va ≠ .glob ∨ va % 64 ≠ 0 ∨ bg.translate f.ctx va = .ok none) → TaskGoes i s g f) ∧
       (region va = .glob → va % 64 = 0 → ∀ e, bg.translate f.ctx va = .ok (some e) →
         ((e.rd = false ∨ e.cls = 2 ∨ e.cls = 4) → TaskGoes i s g f) ∧
         (e.rd = true → e.cls ≠ 2 → e.cls ≠ 4 → exec i s = .next (s.afterWord g
           { b := bg.advance f
             evs := [{ ev := .loadFill, arg := { g := g, va := va, c := f.ctx, n := far, m := if f.cpu.streams then 1 else 0 } }] }))))

/-- R208, R300, R358, R372, R374, R375: FENCE, TRAP, PAGEQ.h, COUPLE, UNCOUPLE, CQUERY and CSYNC end the activation, and the frame waits for
what the witness asks once: the performance of its accesses, the service's, the home's or the head's word for xd, or nothing.

R358: PAGEQ reads the first-level entry of an address: its epoch, home, size, class and permissions with bit 0 set; 2 for a core-local
address, 1 for the engine region or the peer-module window, 0 for one that nothing maps. -/
def Obligations.WordsThatAsk : Prop :=
  (∀ (s : State) (g : Nat) (f : Frame) (d a : BitVec 5) (c : BitVec 6) (v : BitVec 1) (n : BitVec 12),
     let x := f.getX a
     (Runs s g f .fence → Awaits .fence s g f { op := .fence }) ∧
     (Runs s g f (.trap d a n) → Awaits (.trap d a n) s g f { op := .trap n.toNat x, dest := d }) ∧
     (Runs s g f (.pageqH d a) → Awaits (.pageqH d a) s g f { op := .pageqHome x.toNat, dest := d }) ∧
     (Runs s g f (.couple d a c) → Awaits (.couple d a c) s g f { op := .couple c.toNat x.toNat, dest := d }) ∧
     (Runs s g f (.uncouple d a c) → Awaits (.uncouple d a c) s g f { op := .uncouple c.toNat x.toNat, dest := d }) ∧
     (Runs s g f (.cquery d v c) → Awaits (.cquery d v c) s g f { op := .cquery c.toNat (v == 1), dest := d }) ∧
     (Runs s g f .csync → Awaits .csync s g f { op := .csync })) ∧
  (∀ (s : State) (g : Nat) (f : Frame) (d a : BitVec 5), Runs s g f (.pageq d a) →
     let va := (f.getX a).toNat
     (∀ w o, (region va = .own w o ∨ region va = .peer w o) → TaskGoes (.pageq d a) s g (f.setX d 2)) ∧
     ((region va = .peerWindow ∨ ∃ i j k, region va = .engine i j k) → TaskGoes (.pageq d a) s g (f.setX d 1)) ∧
     ((region va = .nothing ∨ region va = .glob ∧ (s.bogie g).translate f.ctx va = .ok none) → TaskGoes (.pageq d a) s g (f.setX d 0)) ∧
     (∀ e, region va = .glob → (s.bogie g).translate f.ctx va = .ok (some e) → TaskGoes (.pageq d a) s g (f.setX d (BitVec.ofNat 64
       (e.epoch.toNat * 2 ^ 56 + e.place * 2 ^ 18 + e.size * 2 ^ 16 + e.cls * 2 ^ 13 + e.x.toNat * 16 + e.w.toNat * 8 + e.rd.toNat * 4 + 1)))))

/-- R176, R182, R234: on an engine hart LD, LDA, AMO, CAS and FENCE make their request at once and the hart waits for the answer, an LD of a
device's page or of another module as an acquire, and one with the bypass of its prefix past the caches; STL and AMOP send theirs and go on; a load that fails its checks stops the hart with the code. -/
def Obligations.HartMemoryWords : Prop :=
  ∀ (s : State) (d h : Nat) (t b x y : BitVec 5) (e : BitVec 13) (o : BitVec 4) (ord q : BitVec 2) (sq : BitVec 3) (q1 : BitVec 1),
    let c := (s.hart d h).cpu
    let ctx := (s.hart d h).ctx
    let base := (c.getX b).toNat
    let w := if sq.toNat % 4 = 2 then 4 else 8
    (let n := 2 ^ (sq.toNat % 4)
     let va := dispAddr c b e n
     HartRuns s d h (.ld t b e sq) →
      (hartCheck s ctx .load va n = .ok () → let dev := s.deviceAt ctx va || region va == .peerWindow
        exec (.ld t b e sq) s = .next (s.hartIssue d h [.load va n dev]
          (some { op := .load va n dev, dest := t, size := n, sext := decide (sq.toNat < 4), acquire := dev, bypass := modBypass c.pfx.mod }))) ∧
      (∀ code v z, hartCheck s ctx .load va n = .error (.fault code v z) → exec (.ld t b e sq) s = .next (s.hartFault d h code v))) ∧
    (let n := 2 ^ q.toNat
     let va := dispAddr c b e n
     (HartRuns s d h (.lda t b e q) → hartCheck s ctx .lda va n = .ok () → exec (.lda t b e q) s =
        .next (s.hartIssue d h [.load va n true] (some { op := .load va n true, dest := t, size := n, sext := false, acquire := true }))) ∧
     (HartRuns s d h (.stl t b e q) → hartCheck s ctx .stl va n = .ok () → exec (.stl t b e q) s = .next (s.hartIssue d h
        ((blocks (placed va (bytesOfNat n (c.getX t).toNat))).map fun k => .store k true false none) none))) ∧
    (HartRuns s d h (.amo t b x o ord sq) → hartCheck s ctx .atomic base w = .ok () → exec (.amo t b x o ord sq) s =
      .next (s.hartIssue d h [.atomic base w (.int o) (c.getX x) 0 ord .reg]
        (some { op := .atomic base w (.int o) (c.getX x) 0 ord .reg, dest := t, size := w, sext := !sq.getLsbD 2, acquire := ord.getLsbD 0 }))) ∧
    (HartRuns s d h (.cas t b x y ord sq) → hartCheck s ctx .atomic base w = .ok () → exec (.cas t b x y ord sq) s =
      .next (s.hartIssue d h [.atomic base w .cas (c.getX x) (c.getX y) ord .reg]
        (some { op := .atomic base w .cas (c.getX x) (c.getX y) ord .reg, dest := t, size := w, sext := !sq.getLsbD 2, acquire := ord.getLsbD 0 }))) ∧
    (HartRuns s d h (.amop b x o ord q1) → hartCheck s ctx .atomic base (if q1 = 0 then 4 else 8) = .ok () →
      exec (.amop b x o ord q1) s = .next (s.hartIssue d h [.atomic base (if q1 = 0 then 4 else 8) (.int o) (c.getX x) 0 ord
        (.posted ((encode (.amop b x o ord q1)).getD 0))] none)) ∧
    (HartRuns s d h .fence → exec .fence s = .next (s.hartIssue d h [.fence] (some { op := .fence })))

/-- R209, R212, R217: an update of a barrier. A poisoned one does not change; a code, or a count beyond the expected one, poisons it; where
both counts are then met, and something was expected, the phase flips, the counts and the expected bytes return to zero and the expected
arrivals stand; else the counts are added.

R209: the 128 bits of a barrier hold its fields at their places: what is written into the scratchpad is read back.

R210, R218, R219: the words on a barrier of the own frame. BINIT begins it with the expected counts of xa and gives its handle; BEXPECT
raises the expected bytes, or is BARRIER_OVERFLOW past 2^24 − 1; BARRIVE is an arrival; BPOISON gives it the code unless it is poisoned. Each
writes the barrier's 16 bytes at once, with their old contents in the journal, and nothing else. BTEST reads one half of it.

R215, R219: BARRIVE through a handle appends an arrival for the frame that the handle names, or is BARRIER_BOUND where the handle is no
handle of the context; BWAIT ends the activation, and its status is the next triggering message of a frame that then acquires. -/
def Obligations.Barriers : Prop :=
  (∀ (b : Bar) (u : Update),
     (b.poison = true → b.update u = b) ∧
     (b.poison = false → u.code ≠ 0 → b.update u = { b with poison := true, code := u.code.toNat }) ∧
     (b.poison = false → u.code = 0 → (b.expBytes < b.bytes + u.bytes ∨ b.expArr < b.arrivals + u.arr) →
       b.update u = { b with poison := true, code := 0x0B }) ∧
     (b.poison = false → u.code = 0 → b.bytes + u.bytes = b.expBytes → b.arrivals + u.arr = b.expArr →
       (b.expBytes ≠ 0 ∨ b.expArr ≠ 0) →
       b.update u = { b with flips := (b.flips + 1) % 2 ^ 32, bytes := 0, arrivals := 0, expBytes := 0 }) ∧
     (b.poison = false → u.code = 0 → b.bytes + u.bytes ≤ b.expBytes → b.arrivals + u.arr ≤ b.expArr →
       (b.bytes + u.bytes < b.expBytes ∨ b.arrivals + u.arr < b.expArr ∨ (b.expBytes = 0 ∧ b.expArr = 0)) →
       b.update u = { b with bytes := b.bytes + u.bytes, arrivals := b.arrivals + u.arr })) ∧
  (∀ (x : Bar) (b : Bogie) (f : Frame) (k : Nat), x.code < 2 ^ 8 → x.expArr < 2 ^ 16 → x.arrivals < 2 ^ 16 → x.expBytes < 2 ^ 24 →
     x.bytes < 2 ^ 24 → x.flips < 2 ^ 32 →
     (b.putBar f k x).bar f k = x ∧ x.word.getLsbD 112 = decide (x.flips % 2 = 1) ∧ x.word.getLsbD 113 = x.poison) ∧
  (∀ (s : State) (g : Nat) (f : Frame) (d a : BitVec 5) (k : BitVec 4) (h : BitVec 1) (c : BitVec 8),
     let b := s.bogie g
     let at_ := f.barAt k.toNat
     let x := b.bar f k.toNat
     let xa := f.getX a
     let put := fun (y : Bar) => (b.journalise at_ 16).scratchWrite at_ (bytesOfNat 16 y.word.toNat)
     let goes := fun (i : Instr) (b' : Bogie) (f' : Frame) => exec i s = .next (s.afterWord g { b := b'.advance f' })
     b.journal.length + (b.journalNeed at_ 16).length ≤ 256 →
     (Runs s g f (.binit d a k) → goes (.binit d a k) (put { expArr := xa.toNat % 2 ^ 16, expBytes := xa.toNat / 2 ^ 16 % 2 ^ 24 })
       (f.setX d (BitVec.ofNat 64 (f.ctx * 2 ^ 32 + f.tag.toNat * 2 ^ 24 + f.level * 2 ^ 20 + k.toNat * 2 ^ 16 + g)))) ∧
     (Runs s g f (.bexpect a k) →
       (x.poison = true → TaskGoes (.bexpect a k) s g f) ∧
       (x.poison = false → 2 ^ 24 - 1 < x.expBytes + xa.toNat → Raises (.bexpect a k) s g 0x0B 0 (xa.toNat % 2 ^ 32)) ∧
       (x.poison = false → x.expBytes + xa.toNat ≤ 2 ^ 24 - 1 →
         goes (.bexpect a k) (put { x with expBytes := x.expBytes + xa.toNat }) f)) ∧
     (Runs s g f (.barrive k) → goes (.barrive k) (put (x.update { arr := 1 })) f) ∧
     (Runs s g f (.bpoison c k) →
       (x.poison = true → TaskGoes (.bpoison c k) s g f) ∧
       (x.poison = false → goes (.bpoison c k) (put { x with poison := true, code := c.toNat }) f)) ∧
     (Runs s g f (.btest d h k) → TaskGoes (.btest d h k) s g
       (f.setX d (if h = 0 then x.word.extractLsb' 0 64 else x.word.extractLsb' 64 64)))) ∧
  (∀ (s : State) (g : Nat) (f : Frame) (d a : BitVec 5) (k : BitVec 4),
     let h := f.getX a
     let bad := h.toNat / 2 ^ 40 ≠ 0 ∨ h.toNat / 2 ^ 11 % 2 ^ 5 ≠ 0 ∨ 1535 < h.toNat % 2 ^ 11 ∨ h.toNat / 2 ^ 32 % 2 ^ 8 ≠ f.ctx
     (Runs s g f (.barriveH a) →
       (bad → Raises (.barriveH a) s g 0x0A h.toNat (h.toNat / 2 ^ 16 % 16)) ∧
       (¬bad → Room s g 1 → Sends (.barriveH a) s g f [.arrive h { arr := 1 }])) ∧
     (Runs s g f (.bwait d a k) →
       Awaits (.bwait d a k) s g f { op := .bwait k.toNat (h.getLsbD 0), dest := d, acquire := true }))

/-- R236: COPY, COPYC and COPYM send the 64 bytes of a packet in the own scratchpad, with its kind in the low byte, to a copy queue's
descriptor: one outbox entry, and the task goes on. A packet that is misaligned or beyond the kernel's scratchpad, and a queue address that is
no writable memory, fault in the order of R191.

R237, R238: CWP reads a copy write pointer of the coach as the witness latched it with the activation's triggering message; CRING asks the
home once for the next record of a completion ring at its header's address. -/
def Obligations.CopyWords : Prop :=
  (∀ (s : State) (g : Nat) (f : Frame) (d a : BitVec 5) (i : Instr) (kind : Nat),
     (i = .copy d a ∧ kind = 1 ∨ i = .copyc d a ∧ kind = 2 ∨ i = .copym d a ∧ kind = 3) → Runs s g f i →
     let b := s.bogie g
     let q := (f.getX a).toNat
     let xp := (f.getX d).toNat
     (region q ≠ .glob → Raises i s g 0x09 q 0) ∧
     (region q = .glob → q % 64 ≠ 0 → Raises i s g 0x04 q 0) ∧
     (region q = .glob → q % 64 = 0 → xp % 64 ≠ 0 → Raises i s g 0x04 xp 0) ∧
     (region q = .glob → q % 64 = 0 → xp % 64 = 0 → f.hdr.scratch * 256 < xp + 64 → Raises i s g 0x05 xp (max xp (f.hdr.scratch * 256))) ∧
     (region q = .glob → q % 64 = 0 → xp % 64 = 0 → xp + 64 ≤ f.hdr.scratch * 256 →
       (b.translate f.ctx q = .ok none → Raises i s g 0x09 q 0) ∧
       ∀ e, b.translate f.ctx q = .ok (some e) → e.rd = true → e.cls ≠ 4 →
         ((e.w = false ∨ e.cls = 5) → Raises i s g 0x07 q 0) ∧
         (e.w = true → e.cls ≠ 5 → scratchBusy s g b f false xp (xp + 64) = false → scratchPoison b f (ownAddr xp) xp 64 = .ok () →
           Room s g 1 → Sends i s g f
             [.copy q (BitVec.ofNat 512 (natOfBytes (Tab.range b.scratch 0 (f.sbase + xp) 64) / 256 * 256 + kind))]))) ∧
  (∀ (s : State) (g : Nat) (f : Frame) (d a : BitVec 5) (n : BitVec 2),
     (Runs s g f (.cwp d n) → TaskGoes (.cwp d n) s g (f.setX d (((s.bogie g).cwp[n.toNat]?).getD 0))) ∧
     (Runs s g f (.cring d a) → Room s g 1 → ∀ r, checkAccess s g (s.bogie g) f .lda (f.getX a).toNat 64 = .ok r →
       Awaits (.cring d a) s g f { op := .cring (f.getX a).toNat 0, dest := d, acquire := true }))

/-! ### Vector and mask words -/

/-- R84-R88, R249, R250, R251: VADD, VSUB, VMUL, VDIV, the fused words and VSQRT write each active element with the exact result rounded once to the
element format, in the direction and with the saturation of MOD; inactive elements keep their value. The exact sum and product are those of
the rational values.

R77, R84, R86: a finite encoding of a format is the rounding of its own value, in every direction: rounding changes no representable value,
subnormals among them. -/
def Obligations.FloatLanes : Prop :=
  ((∀ (i : Instr) (d a b : BitVec 5) (k : BitVec 3) (t : BitVec 2), floatFields i = some (d, a, b, k, t) → (t : BitVec 2) ≠ 3 →
     let m := fmtOf t.toNat
     WritesLanes i d k m.width fun f j =>
       m.round (modDir f) (modSatOf f) ((exactOf i (modDir f) (fpElem m (f.getV a) j) (fpElem m (f.getV b) j) (fpElem m (f.getV d) j)).getD .nan)) ∧
   (∀ (dir : Dir) (x y : FV) (p q : ℚ), valueOf x = some p → valueOf y = some q →
     valueOf (FV.add dir x y) = some (p + q) ∧ valueOf (x.mul y) = some (p * q) ∧ valueOf x.neg = some (-p))) ∧
  (∀ m ∈ [fp32, bf16, fp16], ∀ (dir : Dir) (sat : Bool) (n : Nat), n < 2 ^ m.width → n % 2 ^ (m.width - 1) < m.inf →
     m.round dir sat (m.unpack n) = n)

/-- R77, R88, R251: VABS clears and VNEG inverts the sign bit and leaves the others, of NaNs too; VMIN and VMAX give the canonical NaN where an
operand is a NaN, and else one of their operands that is not above, or below, the other.

R89, R251: VRCP, VRSQ, VEXP2 and VLOG2 write each active element with their approximation of its value, which depends on the operand and the
modifiers alone; a NaN gives the canonical NaN. The FP32 approximation of a finite operand lies within 1 unit in the last place of the exactly
rounded result for VRCP and VRSQ and within 2 for VEXP2 and VLOG2; a power of two is exact for VRCP and VLOG2. (The distance within the bound
is free, log 20.) -/
def Obligations.SignExtremeAndApproximation : Prop :=
  (∀ (d a b : BitVec 5) (k : BitVec 3) (t : BitVec 2),
     let m := fmtOf t.toNat
     WritesLanes (.vabs d a k t) d k m.width (fun f j => elem m.width (f.getV a) j % 2 ^ (m.width - 1)) ∧
     WritesLanes (.vneg d a k t) d k m.width (fun f j => elem m.width (f.getV a) j ^^^ 2 ^ (m.width - 1)) ∧
     WritesLanes (.vmin d a b k t) d k m.width (fun f j => m.minmax false (elem m.width (f.getV a) j) (elem m.width (f.getV b) j)) ∧
     WritesLanes (.vmax d a b k t) d k m.width (fun f j => m.minmax true (elem m.width (f.getV a) j) (elem m.width (f.getV b) j)) ∧
     ∀ (x y : Nat) (p q : ℚ) (mx : Bool),
       ((m.unpack x = .nan ∨ m.unpack y = .nan) → m.minmax mx x y = m.nan) ∧
       (valueOf (m.unpack x) = some p → valueOf (m.unpack y) = some q →
         (p < q → m.minmax false x y = x ∧ m.minmax true x y = y) ∧ (q < p → m.minmax false x y = y ∧ m.minmax true x y = x))) ∧
  (∀ (d a : BitVec 5) (k : BitVec 3) (t : BitVec 2),
     let m := fmtOf t.toNat
     let lane := fun (op : Nat → Nat × Bool) (f : Frame) (j : Nat) => approx op m (modDir f) (modSatOf f) (elem m.width (f.getV a) j)
     WritesLanes (.vrcp d a k t) d k m.width (lane rcp32) ∧ WritesLanes (.vrsq d a k t) d k m.width (lane rsq32) ∧
     WritesLanes (.vexp2 d a k t) d k m.width (lane exp32) ∧ WritesLanes (.vlog2 d a k t) d k m.width (lane log32) ∧
     ∀ op ∈ [rcp32, rsq32, exp32, log32], ∀ dir sat (n : Nat), n < 2 ^ m.width → m.unpack n = .nan → approx op m dir sat n = m.nan) ∧
  (∀ (n : Nat) (sg : Bool) (mt : Nat) (ex : Int), n < 2 ^ 32 → fp32.unpack n = .fin sg mt ex → mt ≠ 0 →
     let one := FV.fin false 1 0
     let within := fun (k : ℚ) (r x : Nat) => ∀ p q, valueOf (fp32.unpack r) = some p → valueOf (fp32.unpack x) = some q →
       |p - q| ≤ k * (2 : ℚ) ^ ((max (x / 2 ^ 23 % 2 ^ 8) 1 : Nat) - 150 : Int)
     let near := fun (k : ℚ) (r : Nat) (v : FV) => within k r (fp32.round .rne false v)
     near 1 (rcp32 n).1 (FV.div one (.fin sg mt ex)) ∧ (sg = false → near 1 (rsq32 n).1 (FV.div one (FV.sqrt (.fin sg mt ex)))) ∧
     near 2 (exp32 n).1 (exp2Exact sg mt ex) ∧
     (sg = false → mt ≠ 2 ^ Nat.log2 mt → near 2 (log32 n).1 (log2Exact mt ex)) ∧
     (mt = 2 ^ Nat.log2 mt → (rcp32 n).1 = fp32.round .rne false (FV.div one (.fin sg mt ex)) ∧
       (sg = false → (log32 n).1 = fp32.round .rne false (FV.ofInt (ex + Nat.log2 mt)))))

/-- R79, R255, R256: what the integer, bitwise and shift words write to each active element, modulo 2^w: sums, differences and products of the
signed or unsigned values, clamped to the type's range with `sat`; the upper half of the product; the smaller and the larger; bits; and
shifts, which give 0, or the sign, for a count of w or more. -/
def Obligations.IntegerLanes : Prop :=
  ∀ (i : Instr) (d a b : BitVec 5) (k : BitVec 3) (u : BitVec 1) (t : BitVec 2), integerFields i = some (d, a, b, k, u, t) →
    let w := 8 * 2 ^ t.toNat
    WritesLanes i d k w fun f j =>
      (((integerLane i (modSatOf f) w (u == 1) (elem w (f.getV a) j) (elem w (f.getV b) j)).getD 0) % 2 ^ w).toNat

/-- R252, R256: VCMP and VICMP write a mask with the condition of each active element: VCMP orders the values, −0 as +0, and a NaN makes the pair
unordered; VICMP orders the signed or unsigned integers.

R43, R240, R259: the mask words act on all 64 bits of their masks, of which k0 is all ones; their fields k and ty are 0, and fn6 values
above 8 are reserved. -/
def Obligations.ComparesAndMasks : Prop :=
  (∀ (d a b : BitVec 5) (k c : BitVec 3) (u : BitVec 1) (t : BitVec 2),
     let m := fmtOf t.toNat
     let w := 8 * 2 ^ t.toNat
     WritesConditions (.vcmp d a b k c t) d k m.width (fun f j => floatCond c (fpElem m (f.getV a) j) (fpElem m (f.getV b) j)) ∧
     WritesConditions (.vicmp d a b k u c t) d k w (fun f j => intCond c
       (if u = 1 then (elem w (f.getV a) j : Int) else (BitVec.ofNat w (elem w (f.getV a) j)).toInt)
       (if u = 1 then (elem w (f.getV b) j : Int) else (BitVec.ofNat w (elem w (f.getV b) j)).toInt)) ∧
     (∀ (x y : FV) (p q : ℚ), valueOf x = some p → valueOf y = some q →
       floatCond 0 x y = decide (p = q) ∧ floatCond 1 x y = decide (p ≠ q) ∧ floatCond 2 x y = decide (p < q) ∧
       floatCond 3 x y = decide (p ≤ q) ∧ floatCond 4 x y = decide (q < p) ∧ floatCond 5 x y = decide (q ≤ p) ∧
       floatCond 6 x y = true ∧ floatCond 7 x y = false) ∧
     (∀ x : FV, floatCond 1 x .nan = true ∧ floatCond 7 x .nan = true ∧ floatCond 0 x .nan = false ∧ floatCond 2 x .nan = false ∧
       floatCond 6 .nan x = false) ∧
     (∀ p q : Int, intCond 0 p q = decide (p = q) ∧ intCond 1 p q = decide (p ≠ q) ∧ intCond 2 p q = decide (p < q) ∧
       intCond 3 p q = decide (p ≤ q) ∧ intCond 4 p q = decide (q < p) ∧ intCond 5 p q = decide (q ≤ p))) ∧
  (∀ (s : State) (g : Nat) (f : Frame) (d a b : BitVec 5),
     let x := f.getK a.toNat
     let y := f.getK b.toNat
     (Runs s g f (.kand d a b) → TaskGoes (.kand d a b) s g (f.setK d (x &&& y))) ∧
     (Runs s g f (.kor d a b) → TaskGoes (.kor d a b) s g (f.setK d (x ||| y))) ∧
     (Runs s g f (.kxor d a b) → TaskGoes (.kxor d a b) s g (f.setK d (x ^^^ y))) ∧
     (Runs s g f (.knot d a) → TaskGoes (.knot d a) s g (f.setK d (~~~x))) ∧
     (Runs s g f (.kmov d a) → TaskGoes (.kmov d a) s g (f.setK d x)) ∧
     (Runs s g f (.kset d a) → TaskGoes (.kset d a) s g (f.setK d (f.getX a))) ∧
     (Runs s g f (.kmovX d a) → TaskGoes (.kmovX d a) s g (f.setX d x)) ∧
     (Runs s g f (.kpopc d a) → TaskGoes (.kpopc d a) s g
       (f.setX d (BitVec.ofNat 64 ((List.range 64).countP fun n => x.getLsbD n)))) ∧
     (Runs s g f (.kfirst d a) → TaskGoes (.kfirst d a) s g
       (f.setX d (BitVec.ofNat 64 ((List.range 64).takeWhile fun n => !x.getLsbD n).length)))) ∧
  (∀ (d a b : BitVec 5),
     let word := fun (b : BitVec 5) (fn : BitVec 6) => some (0x28#6 ++ d ++ a ++ b ++ 0#3 ++ fn ++ 0#2)
     encode (.kand d a b) = word b 0 ∧ encode (.kor d a b) = word b 1 ∧ encode (.kxor d a b) = word b 2 ∧ encode (.knot d a) = word 0 3 ∧
     encode (.kpopc d a) = word 0 4 ∧ encode (.kfirst d a) = word 0 5 ∧ encode (.kset d a) = word 0 6 ∧ encode (.kmov d a) = word 0 7 ∧
     encode (.kmovX d a) = word 0 8 ∧
     ∀ (k : BitVec 3) (fn : BitVec 6) (t : BitVec 2), (8 < fn.toNat ∨ k ≠ 0 ∨ t ≠ 0) → decode (0x28#6 ++ d ++ a ++ b ++ k ++ fn ++ t) = none)

/-- R248, R253, R258: the words that move elements. VBCAST gives xa to each active element; VINS and VEXT write and read the element that xb
names, modulo their number; VSEL takes each element of va or vb by its mask bit; VPERM, VSLIDE, VZIP and VCOMPR rearrange. -/
def Obligations.MovingWords : Prop :=
  ∀ (d a b : BitVec 5) (k : BitVec 3) (u : BitVec 1) (t : BitVec 2),
    let w := 8 * 2 ^ t.toNat
    let e := 512 / w
    let all := fun (i : Instr) (lane : Frame → Nat → Nat) => ∀ s g f, Runs s g f i → ∃ v : Vec, TaskGoes i s g (f.setV d v) ∧
      ∀ j < e, elem w v j = lane f j % 2 ^ w
    WritesLanes (.vbcast d a k t) d k w (fun f _ => (f.getX a).toNat) ∧
    all (.vins d a b t) (fun f j => if j = (f.getX b).toNat % e then (f.getX a).toNat else elem w (f.getV d) j) ∧
    WritesScalar (.vext d a b u t) d (fun f =>
      let x := BitVec.ofNat w (elem w (f.getV a) ((f.getX b).toNat % e))
      if u = 0 then x.signExtend 64 else x.setWidth 64) ∧
    all (.vsel d a b k t) (fun f j => if (f.getK k.toNat).getLsbD j = true then elem w (f.getV a) j else elem w (f.getV b) j) ∧
    WritesLanes (.vperm d a b k t) d k w (fun f j => if elem w (f.getV b) j < e then elem w (f.getV a) (elem w (f.getV b) j) else 0) ∧
    WritesLanes (.vslideUp d a b k t) d k w (fun f j => if (f.getX b).toNat ≤ j then elem w (f.getV a) (j - (f.getX b).toNat) else 0) ∧
    WritesLanes (.vslideDn d a b k t) d k w (fun f j =>
      if j + (f.getX b).toNat < e then elem w (f.getV a) (j + (f.getX b).toNat) else 0) ∧
    WritesLanes (.vzipLo d a b k t) d k w (fun f j => elem w (if j % 2 = 0 then f.getV a else f.getV b) (j / 2)) ∧
    WritesLanes (.vzipHi d a b k t) d k w (fun f j => elem w (if j % 2 = 0 then f.getV a else f.getV b) (e / 2 + j / 2)) ∧
    all (.vcompr d a k t) (fun f j =>
      ((((List.range e).filter fun n => (f.getK k.toNat).getLsbD n).map fun n => elem w (f.getV a) n)[j]?).getD 0)

/-- R257: the reductions over the active elements in ascending order: the integer sum modulo 2^64, the least and the greatest, and for VREDMINI
the least with the lowest index that holds it; with no active element 0, the far end of the type's range, and all ones. The float sum rounds
in FP32 at each addition, the float extremes are those of R88. -/
def Obligations.Reductions : Prop :=
  ∀ (d a : BitVec 5) (k : BitVec 3) (u : BitVec 1) (t : BitVec 2),
    let w := 8 * 2 ^ t.toNat
    let m := fmtOf t.toNat
    let on := fun (f : Frame) (w : Nat) => ((List.range (512 / w)).filter fun n => (f.getK k.toNat).getLsbD n).map fun n => elem w (f.getV a) n
    let val := fun (n : Nat) => if u = 1 then (n : Int) else (BitVec.ofNat w n).toInt
    WritesScalar (.vredadd d a k u 0 t) d (fun f => BitVec.ofInt 64 ((on f w).map val).sum) ∧
    WritesScalar (.vredadd d a k 0 1 t) d (fun f => BitVec.ofNat 64 (floatSum m (modDir f) (on f m.width))) ∧
    WritesScalar (.vredmin d a k 0 1 t) d (fun f => BitVec.ofNat 64 (floatExtreme m false (on f m.width))) ∧
    WritesScalar (.vredmax d a k 0 1 t) d (fun f => BitVec.ofNat 64 (floatExtreme m true (on f m.width))) ∧
    (∀ s g f, ∃ n x : Int,
      (Runs s g f (.vredmin d a k u 0 t) → TaskGoes (.vredmin d a k u 0 t) s g (f.setX d (BitVec.ofInt 64 n))) ∧
      (Runs s g f (.vredmax d a k u 0 t) → TaskGoes (.vredmax d a k u 0 t) s g (f.setX d (BitVec.ofInt 64 x))) ∧
      (on f w = [] → n = (if u = 1 then 2 ^ w - 1 else 2 ^ (w - 1) - 1) ∧ x = (if u = 1 then 0 else -(2 ^ (w - 1)))) ∧
      (on f w ≠ [] → n ∈ (on f w).map val ∧ x ∈ (on f w).map val ∧ ∀ y ∈ (on f w).map val, n ≤ y ∧ y ≤ x)) ∧
    (∀ s g f, Runs s g f (.vredmini d a k u t) → t ≠ 3 →
      (on f w = [] → TaskGoes (.vredmini d a k u t) s g (f.setX d (BitVec.allOnes 64))) ∧
      (on f w ≠ [] → ∃ j < 512 / w, (f.getK k.toNat).getLsbD j = true ∧
        TaskGoes (.vredmini d a k u t) s g (f.setX d (BitVec.ofNat 64 (j * 2 ^ 32 + elem w (f.getV a) j))) ∧
        ∀ n < 512 / w, (f.getK k.toNat).getLsbD n = true →
          val (elem w (f.getV a) j) ≤ val (elem w (f.getV a) n) ∧ (n < j → val (elem w (f.getV a) j) < val (elem w (f.getV a) n))))

/-- R90, R254: VCVT converts each active element by its code: a widening code reads the half of va that h names, a narrowing code writes that
half of vd and leaves the other, and a code of one width converts element by element. The conversion of a BF16 or FP16 value to FP32 and
of an integer to a wider one is exact. -/
def Obligations.ConversionLanes : Prop :=
  ∀ (d a : BitVec 5) (k : BitVec 3) (h : BitVec 1) (c : BitVec 4) (r u : BitVec 1),
    let ws := (cvtWidths c).1
    let wd := (cvtWidths c).2
    let conv := fun (f : Frame) (n : Nat) => cvtElem c (r == 1) (u == 1) (modDir f) (modSatOf f) (elem ws (f.getV a) n)
    (ws < wd → WritesLanes (.vcvt d a k h c r u) d k wd fun f j => conv f (h.toNat * (512 / wd) + j)) ∧
    (ws = wd → WritesLanes (.vcvt d a k h c r u) d k wd conv) ∧
    (wd < ws → WritesLanes (.vcvt d a k h c r u) d k wd fun f j =>
      if j / (512 / ws) = h.toNat then conv f (j % (512 / ws)) else elem wd (f.getV d) j) ∧
    (∀ tr un dir sat (x : Nat), x < 2 ^ 16 →
      (valueOf (bf16.unpack x) ≠ none → valueOf (fp32.unpack (cvtElem 0 tr un dir sat x)) = valueOf (bf16.unpack x)) ∧
      (valueOf (fp16.unpack x) ≠ none → valueOf (fp32.unpack (cvtElem 1 tr un dir sat x)) = valueOf (fp16.unpack x)) ∧
      cvtElem 0xD tr false dir sat x = ((BitVec.ofNat 16 x).signExtend 32).toNat ∧ cvtElem 0xD tr true dir sat x = x)

/-- R243, R244, R245, R247: the vector loads check and read their elements in ascending order and write the loaded bytes as elements, VGATH the active
ones alone; the vector stores check theirs in that order and store them, VSCAT the active ones alone. -/
def Obligations.VectorMemory : Prop :=
  ∀ (s : State) (g : Nat) (f : Frame) (t b x : BitVec 5) (e : BitVec 13) (k : BitVec 3) (q : BitVec 2),
    let bg := s.bogie g
    let w := 8 * 2 ^ q.toNat
    let c := 512 / w
    let m := f.getK k.toNat
    let line := fun (n : Nat) => (f.getX b + e.signExtend 64 * BitVec.ofNat 64 n).toNat
    let at_ := fun (j : Nat) => (f.getX b + BitVec.ofNat 64 j * f.getX x).toNat
    let idx := fun (j : Nat) =>
      (f.getX b + (BitVec.ofNat w (elem w (f.getV x) j)).signExtend 64 * BitVec.ofNat 64 (w / 8)).toNat
    let on := (List.range c).filter fun j => m.getLsbD j
    let loads := fun (i : Instr) (l : List Nat) (n : Nat) (v : List (List Byte) → Vec) => Runs s g f i →
      ∀ b' r, vecRead s g bg f n l = .ok (b', r) → exec i s = .next (s.afterWord g { b := b'.advance (f.setV t (v r)) })
    let stores := fun (i : Instr) (l : List (Nat × List Byte)) => Runs s g f i →
      ∀ b', vecWrite s g bg f l = .ok b' → exec i s = .next (s.afterWord g { b := b'.advance f })
    let whole := fun (r : List (List Byte)) => (BitVec.ofNat 512 (natOfBytes r.flatten) : Vec)
    loads (.vld t b e) [line 64] 64 whole ∧ loads (.vldH t b e) [line 32] 32 whole ∧
    loads (.vlds t b x q) ((List.range c).map at_) (w / 8) whole ∧
    loads (.vgath t b x k q) (on.map idx) (w / 8)
      (fun r => merge w m (f.getV t) fun j => Tab.get (on.zip (r.map natOfBytes)) 0 j) ∧
    stores (.vst t b e) [(line 64, bytesOfNat 64 (f.getV t).toNat)] ∧ stores (.vstH t b e) [(line 32, bytesOfNat 32 (f.getV t).toNat)] ∧
    stores (.vsts t b x q) ((List.range c).map fun j => (at_ j, bytesOfNat (w / 8) (elem w (f.getV t) j))) ∧
    stores (.vscat t b x k q) (on.map fun j => (idx j, bytesOfNat (w / 8) (elem w (f.getV t) j)))

/-! ### The matrix array -/

/-- R279, R280, R191: MXLDB and MXLDA send a load command once their control word and source pass the checks: a reserved control field is
ILLEGAL_OPERAND, a source that is neither global nor window 0 of the frame PAGE_INVALID, an address or stride that is no multiple of 16
MISALIGNED; a source within the declared scratchpad, or on readable memory pages, is accepted. MXZ sends its command. Each takes one outbox
entry, with the frame's level as it stands (R266, R267).

R281: MMA checks its A operand at issue: a range other than the frame's own scratchpad is PAGE_INVALID, a window that does not deliver A's
type ILLEGAL_OPERAND, an offset that is no multiple of 64 or rows beyond the window MISALIGNED, a raw byte beyond the declared scratchpad
SCRATCH_BOUND; else it sends its command, with SCALE_A_BASE as it stands (R269).

R282, R191: MXST checks its control word and its destination: a reserved bit, or a width that no group of a grouped type divides, is
ILLEGAL_OPERAND; a window other than 0 WINDOW_WRITE, a range that is neither global nor the own scratchpad PAGE_INVALID; and it sends its
command where the destination, and the epilogue in the scratchpad, lie within the declared scratchpad or on writable memory pages.

R269: each of these commands is sent once no command that its frame committed before, and that the array has not executed, writes a byte or a
tile that it reads or writes, or reads one that it writes. Until then the word waits, and nothing else of the machine changes. (That the bytes of a command's rows are all
those from the first to the last is the model's reading, log 40.) -/
def Obligations.MatrixCommands : Prop :=
  (∀ (s : State) (g : Nat) (f : Frame) (t w a c : BitVec 5) (k ty : BitVec 4) (z : BitVec 1),
     let va := (f.getX a).toNat
     let ctl := f.getX c
     let n := 32 * (k.toNat + 1)
     let cmd := fun o => [Op.matrix { ctx := f.ctx, g := g, level := f.prio, uid := f.uid, record := f.record, op := o }]
     let loads := fun (i : Instr) (reserved : Prop) (len pitch count : Nat) (o : MxOp) => Runs s g f i →
       (reserved → Raises i s g 0x02 0 ((s.bogie g).wordNow i).toNat) ∧
       (¬reserved →
         (region va ≠ .glob → (∀ o, region va ≠ .own 0 o) → Raises i s g 0x09 va 0) ∧
         ((region va = .glob ∨ ∃ o, region va = .own 0 o) → (va % 16 ≠ 0 ∨ pitch % 16 ≠ 0) → Raises i s g 0x04 va 0) ∧
         (va % 16 = 0 → pitch % 16 = 0 → RowsReadable s g f va len pitch count →
           (matrixBusy s g (s.bogie g) f o = false → Room s g 1 → Sends i s g f (cmd o)) ∧
           (matrixBusy s g (s.bogie g) f o = true → Waits i s g)))
     loads (.mxldb w a c k ty) (ctl.toNat / 2 ^ 23 % 2 ^ 9 ≠ 0 ∨ ctl.toNat / 2 ^ 10 % 2 ^ 6 ≠ 0) (columnBytes ty.toNat n)
       (if ctl.toNat / 2 ^ 32 = 0 then columnBytes ty.toNat n else ctl.toNat / 2 ^ 32) (ctl.toNat / 2 ^ 16 % 2 ^ 7 + 1)
       (.ldb w.toNat ty.toNat n (f.getX a) ctl) ∧
     loads (.mxlda t a c z) (ctl.toNat % 2 ^ 41 ≠ 0) 512 (if ctl.toNat / 2 ^ 48 = 0 then 512 else ctl.toNat / 2 ^ 48 * 16)
       (ctl.toNat / 2 ^ 41 % 2 ^ 7 + 1) (.lda (f.tile t) (f.getX a) ctl (z == 1)) ∧
     (Runs s g f (.mxz t z) → matrixBusy s g (s.bogie g) f (.z (f.tile t) (z == 1)) = false → Room s g 1 →
       Sends (.mxz t z) s g f (cmd (.z (f.tile t) (z == 1))))) ∧
  (∀ (s : State) (g : Nat) (f : Frame) (t a w : BitVec 5) (p : BitVec 6) (z : BitVec 1) (k : BitVec 4), Runs s g f (.mma t a w p z k) →
     let i := Instr.mma t a w p z k
     let va := (f.getX a).toNat
     let n := 32 * (k.toNat + 1)
     let row := if z = 1 then n else 2 * n
     let delivers := fun (win : Nat) => win = 0 ∨ (z = 1 ∧ 7 ≤ win ∧ win ≤ 9) ∨ (z = 0 ∧ (1 ≤ win ∧ win ≤ 6 ∨ win = 10))
     ((∀ win o, region va ≠ .own win o) → Raises i s g 0x09 va 0) ∧
     ∀ win o, region va = .own win o →
       (¬delivers win → Raises i s g 0x02 0 ((s.bogie g).wordNow i).toNat) ∧
       (delivers win → (o % 64 ≠ 0 ∨ 0x10000 < o + 127 * (64 * p.toNat) + row) → Raises i s g 0x04 va 0) ∧
       (delivers win → o % 64 = 0 → o + 127 * (64 * p.toNat) + row ≤ 0x10000 →
         ((∃ j < 128, rawBeyond win (o + j * (64 * p.toNat)) row (f.hdr.scratch * 256) ≠ none) → ∃ r, f.hdr.scratch * 256 ≤ r ∧ Raises i s g 0x05 va r) ∧
         ((∀ j < 128, rawBeyond win (o + j * (64 * p.toNat)) row (f.hdr.scratch * 256) = none) →
           let o := MxOp.mma (f.tile t) (f.getX a) w.toNat (64 * p.toNat) n (z == 1) f.scaleA
           (matrixBusy s g (s.bogie g) f o = false → Room s g 1 →
             Sends i s g f [.matrix { ctx := f.ctx, g := g, level := f.prio, uid := f.uid, record := f.record, op := o }]) ∧
           (matrixBusy s g (s.bogie g) f o = true → Waits i s g)))) ∧
  (∀ (s : State) (g : Nat) (f : Frame) (t a c : BitVec 5) (k : BitVec 4) (e : BitVec 1) (o : BitVec 3) (gs : BitVec 2),
     let i := Instr.mxst t a c k e o gs
     Runs s g f i →
     let va := (f.getX a).toNat
     let ctl := f.getX c
     let w := 16 * (ctl.toNat / 2 ^ 38 % 8 + 1)
     let len := outBytes o.toNat w
     let pitch := if ctl.toNat / 2 ^ 48 = 0 then len else ctl.toNat / 2 ^ 48 * 16
     let count := ctl.toNat / 2 ^ 41 % 2 ^ 7 + 1
     let bad := ctl.toNat % 2 ^ 16 ≠ 0 ∨ (5 ≤ o.toNat ∧ w % (32 * 2 ^ gs.toNat) ≠ 0)
     (bad → Raises i s g 0x02 0 ((s.bogie g).wordNow i).toNat) ∧
     (¬bad →
       ((∃ win off, region va = .own win off ∧ win ≠ 0) → Raises i s g 0x06 va 0) ∧
       ((∀ win off, region va ≠ .own win off) → region va ≠ .glob → Raises i s g 0x09 va 0) ∧
       ((region va = .glob ∨ ∃ off, region va = .own 0 off) → (va % 16 ≠ 0 ∨ pitch % 16 ≠ 0) → Raises i s g 0x04 va 0) ∧
       (va % 16 = 0 → pitch % 16 = 0 → RowsWritable s g f va len pitch count →
         (ctl.getLsbD 37 = true → ctl.toNat / 2 ^ 26 % 2 ^ 11 * 64 + 516 ≤ f.hdr.scratch * 256) →
         let op := MxOp.st (f.tile t) (f.getX a) ctl (if e = 1 then some k.toNat else none) o.toNat gs.toNat (modRound f.cpu.pfx.mod) (modSat f.cpu.pfx.mod)
         (matrixBusy s g (s.bogie g) f op = false → Room s g 1 →
           Sends i s g f [.matrix { ctx := f.ctx, g := g, level := f.prio, uid := f.uid, record := f.record, op := op }]) ∧
         (matrixBusy s g (s.bogie g) f op = true → Waits i s g)))) ∧
  (∀ (s : State) (g : Nat) (f : Frame) (t : BitVec 5) (z : BitVec 1), Runs s g f (.mxz t z) →
     (∃ c ∈ mxPending s g (s.bogie g) f.uid, f.tile t ∈ mxTilesWritten c.op ++ mxTilesRead c.op) → Waits (.mxz t z) s g)

/-- R283: SCMC, of bogie 7 of a coach whose scale server is enabled and with a bogie in its mask, sends the parameter records of its frame at
the address, read at issue, with the entry that they begin at; elsewhere it is ILLEGAL_OPERAND.

R285: MXPASS reads its descriptor from the own scratchpad, checks it in the order of the manual, and sends the pass with the frame's lowest
tiles, and with `.nd` a member's node-done report after it; the task ends. (The value of MX_BOUND is the model's reading, log 34.)

R287: both forms of MXQ are suspension points whose answer is the frame's next triggering message, with no acquire actions; the tile form
asks of the tile that the frame names, the state form of a pair of the coach, or is ILLEGAL_OPERAND where another bit of xa is set. -/
def Obligations.ScalePassAndQuery : Prop :=
  (∀ (s : State) (g : Nat) (f : Frame) (e a m : BitVec 5) (n : BitVec 4), Runs s g f (.scmc e a m n) →
     let i := Instr.scmc e a m n
     let b := s.bogie g
     let mask := (f.getX m).toNat % 256
     let va := (f.getX a).toNat
     let len := 4 * (n.toNat + 1)
     let ready := g % 8 = 7 ∧ (s.ctx f.ctx).serves (g / 8) = true ∧ mask ≠ 0
     (¬ready → Raises i s g 0x02 0 (b.wordNow i).toNat) ∧
     (ready → (∀ o, region va ≠ .own 0 o) → Raises i s g 0x09 va 0) ∧
     (ready → ∀ o, region va = .own 0 o →
       (va % 4 ≠ 0 → Raises i s g 0x04 va 0) ∧
       (va % 4 = 0 → f.hdr.scratch * 256 < o + len → Raises i s g 0x05 va (max o (f.hdr.scratch * 256))) ∧
       (va % 4 = 0 → o + len ≤ f.hdr.scratch * 256 → scratchBusy s g b f false o (o + len) = false → scratchPoison b f va o len = .ok () →
         Room s g 1 → Sends i s g f [.scale ((f.getX e).toNat % 1024)
           ((List.range (n.toNat + 1)).map fun j => BitVec.ofNat 32 (natOfBytes (Tab.range b.scratch 0 (f.sbase + (o + 4 * j)) 4)))
           (BitVec.ofNat 8 mask)]))) ∧
  (∀ (s : State) (g : Nat) (f : Frame) (p : BitVec 5) (n : BitVec 1), Runs s g f (.mxpass p n) →
     let i := Instr.mxpass p n
     let b := s.bogie g
     let xp := (f.getX p).toNat
     let d : Vec := BitVec.ofNat 512 (natOfBytes (Tab.range b.scratch 0 (f.sbase + xp) 64))
     let ready := scratchBusy s g b f false xp (xp + 64) = false ∧ scratchPoison b f (ownAddr xp) xp 64 = .ok ()
     let done := if n = 1 ∧ f.d0.getLsbD 33 = true then [Op.notice f.node f.inst true (f.type == 3)] else []
     (xp % 64 ≠ 0 → Raises i s g 0x04 xp 0) ∧
     (xp % 64 = 0 → f.hdr.scratch * 256 < xp + 64 → Raises i s g 0x05 xp (max xp (f.hdr.scratch * 256))) ∧
     (xp % 64 = 0 → xp + 64 ≤ f.hdr.scratch * 256 → ready →
       (badPass d = true → Raises i s g 0x02 0 (b.wordNow i).toNat) ∧
       (badPass d = false → f.hdr.acc < passTiles d → Raises i s g 0x0C 0 f.hdr.acc) ∧
       (badPass d = false → passTiles d ≤ f.hdr.acc → ∀ v, passMisaligned d = some v → Raises i s g 0x04 v 0) ∧
       (badPass d = false → passTiles d ≤ f.hdr.acc → passMisaligned d = none →
         matrixBusy s g b f (.pass d (f.tiles.take (passTiles d))) = false → Room s g (1 + done.length) →
         Ends i s g (Bogie.advance { b with outbox := b.outbox ++ (.matrix { ctx := f.ctx, g := g, level := f.prio, uid := f.uid, record := f.record, op := .pass d (f.tiles.take (passTiles d)) } :: done) } { f with claims := [] }) .ended))) ∧
  (∀ (s : State) (g : Nat) (f : Frame) (d a t : BitVec 5),
     let x := (f.getX a).toNat
     (Runs s g f (.mxqT d t) → Awaits (.mxqT d t) s g f { op := .mxqTile (f.tile t), dest := d }) ∧
     (Runs s g f (.mxqS d a) →
       ((x / 8 % 2 = 1 ∨ 256 ≤ x) → Raises (.mxqS d a) s g 0x02 0 ((s.bogie g).wordNow (.mxqS d a)).toNat) ∧
       (x / 8 % 2 = 0 → x < 256 → Awaits (.mxqS d a) s g f { op := .mxqSlot (x % 8 + 16 * (x / 16)), dest := d })))

/-- R93, R266-R277, R283, R286: the array takes the command that its arbitration chooses: MXZ clears its tile, loads fill a slot or a tile with the
rows that they read, an MMA that may run is held and stepped, one that may not poisons its tile and raises ILLEGAL_OPERAND, a pass is held. A step
adds its products to every element, an INT8 sum clamped to 32 bits; the last one ends the command. A lease that has run out ends. An SCMC's records
reach every bogie of its mask. A pass clears its tiles, works step by step, stops where it may not read, and at its end releases its successor or
raises an event. (When a pass reads its operands is the model's choice, log 42, and so is the form in which slots and tiles keep their bytes,
log 43.)

R277, R282: MXST stores, of each of its rows, the tile's elements times the scale plus the bias, each converted once to the out type, with the
record of the scale file for a grouped one (a code that takes a z beyond four bits is free, log 29). A global destination gets each line once, poison where the tile is; the
own scratchpad gets deliveries in ascending order, each an update of the named barrier, the last with the arrival, or where the tile is poisoned
no bytes and the code alone. -/
def Obligations.TheArrayExecutes : Prop :=
  (∀ (s : State) (c : MxCmd) (rest : List MxCmd) (b lvl : Nat),
    let k := s.arg.h
    let x := s.coach k
    let key := b * 16 + lvl
    s.stepping k = false → s.readyLevel k = some lvl → s.holder k lvl = some (b, false) → Tab.find x.shadow key = none →
    Tab.get x.fifos [] key = c :: rest → mxKey c = key →
    let runs := fun (p : State → Prop) => Does .arrayCommandExecute s p
    let again := fun (t : State) => UnderWay t .arrayCommandExecute fun a => a.h = k
    (∀ tl z, c.op = .z tl z → runs fun t => Tab.get (t.coach k).tiles {} tl = { i32 := z } ∧ again t) ∧
    (∀ slot ty kk src ctl rows, c.op = .ldb slot ty kk src ctl → s.sourceRows c = .ok rows → runs fun t => again t ∧
      let w := Tab.get (t.coach k).slots {} slot
      w.loaded = true ∧ w.type = ty ∧ w.k = kk ∧ w.base = bits ctl 9 0 ∧
      ∀ j r, rows[j]? = some r → r.length = columnBytes ty kk → ∀ i e, r[i]? = some e → Tab.get w.data 0 (j * columnBytes ty kk + i) = e.1) ∧
    (∀ tl src ctl z rows, c.op = .lda tl src ctl z → s.sourceRows c = .ok rows → runs fun t => again t ∧
      let w := Tab.get (t.coach k).tiles {} tl
      w.i32 = z ∧ w.poison = rows.any (fun r => r.any (·.2)) ∧
      ∀ i r, rows[i]? = some r → ∀ j < 128, Tab.get w.data 0 (i * 128 + j) = BitVec.ofNat 32 (natOfBytes (((r.drop (4 * j)).take 4).map (·.1)))) ∧
    (∀ tl src slot stride kk aint base, c.op = .mma tl src slot stride kk aint base →
      let fault := mmaError (Tab.get x.slots {} slot) (Tab.get x.tiles {} tl) kk aint
      (fault = none → runs fun t => Tab.find (t.coach k).shadow key = some { cmd := c } ∧ UnderWay t .mmaStep fun a => a.h = k ∧ a.n = key) ∧
      (∀ e, fault = some e → runs fun t => (Tab.get (t.coach k).tiles {} tl).poison = true ∧ UnderWay t .raiseEvent fun a =>
        a.c = c.ctx ∧ a.info.code = 0x02 ∧ a.info.extra = BitVec.ofNat 64 e ∧ a.info.record = c.record)) ∧
    (∀ tl dst ctl bar out gs round sat, c.op = .st tl dst ctl bar out gs round sat →
      let r := s.stRows c (Tab.get x.tiles {} tl) ctl out gs round sat
      let pitch := if ctl.toNat / 2 ^ 48 = 0 then outBytes out (16 * (ctl.toNat / 2 ^ 38 % 8 + 1)) else ctl.toNat / 2 ^ 48 * 16
      let rows := (List.range r.1.length).zip r.1
      let bytesOf := fun (h : Held) => match h with
        | .deliver _ _ _ off data _ => placed off data
        | _ => []
      (∀ o, region dst.toNat = .own 0 o →
        (r.2 = false → runs fun t => again t ∧ UnderWay t .heldWriteArrival fun a => a.g = c.g ∧
          a.held.flatMap bytesOf = rows.flatMap (fun e => placed (o + e.1 * pitch) e.2) ∧
          ∀ n h, a.held[n]? = some h → ∃ id off data, h = Held.deliver id (.array (k / 24) k) (.frame c.uid) off data
            (bar.map fun i => (i, { bytes := data.length, arr := if n + 1 = a.held.length then 1 else 0 }))) ∧
        (r.2 = true → ∀ i, bar = some i → runs fun t => again t ∧ UnderWay t .heldWriteArrival fun a => a.g = c.g ∧
          ∃ id, a.held = [Held.deliver id (.array (k / 24) k) (.frame c.uid) 0 [] (some (i, { code := 0x10 }))])) ∧
      (region dst.toNat = .glob → runs fun t => again t ∧
        (∃ j ∈ (t.coach k).jobs, j.cmd = c ∧ j.owed.length = (rowLines (rows.map fun e => placed (dst.toNat + e.1 * pitch) e.2)).length) ∧
        ∀ u ∈ rowLines (rows.map fun e => placed (dst.toNat + e.1 * pitch) e.2), ∀ l, s.leaf c.ctx ((u.head?.map (·.1)).getD 0) = some l →
          Reaches t (if l.cls = 3 then .chainApply else .homeStore) fun a => a.req.ctx = c.ctx ∧
            a.req.op = .store u false false (if r.2 = true then some .poison else none))) ∧
    (∀ d tiles, c.op = .pass d tiles → runs fun t => Tab.find (t.coach k).shadow key = some { cmd := c } ∧
      UnderWay t .passExecute fun a => a.h = k ∧ a.n = key)) ∧
  (∀ (s : State) (c : MxCmd) (tile : Tile) (ctl : Word) (out gs : Nat) (round : BitVec 3) (sat : Bool),
    let w := 16 * (ctl.toNat / 2 ^ 38 % 8 + 1)
    let n := 32 * 2 ^ gs
    let epi := if ctl.getLsbD 37 = true then s.frameRead c.g c.uid (ctl.toNat / 2 ^ 26 % 2 ^ 11 * 64) 516 else []
    let param := fun (i : Nat) => fp32.unpack (natOfBytes (((epi.drop (4 * i)).take 4).map (·.1)))
    let value := fun (i j : Nat) =>
      if ctl.getLsbD 37 = true then FV.add (dirOf round) ((tile.value i j).mul (param 128)) (param j)
      else FV.add (dirOf round) ((tile.value i j).mul (.fin false 1 0)) (.fin false 0 0)
    let r := s.stRows c tile ctl out gs round sat
    r.1.length = ctl.toNat / 2 ^ 41 % 2 ^ 7 + 1 ∧ (r.2 = true ↔ tile.poison = true ∨ ∃ e ∈ epi, e.2 = true) ∧
    ∀ i row, r.1[i]? = some row → ∃ codes : Nat → Nat, row = packCodes out ((List.range w).map codes) ∧ ∀ j < w,
      ∃ z, codes j = mxCode out (dirOf round) sat (Tab.get (s.bogie c.g).scale 0 ((ctl.toNat / 2 ^ 16 % 2 ^ 10 + i * (w / n) + j / n) % 1024)) z (value i j)) ∧
  (∀ (dir : Dir) (sat : Bool) (rec' : BitVec 32) (own : Nat) (v : FV),
    let code := fun out => mxCode out dir sat rec' own v
    code 0 = fp32.round dir sat v ∧ code 1 = bf16.round dir sat v ∧ code 2 = fp16.round dir sat v ∧
    code 3 = elemOf 8 (v.toIntSat dir false 8) ∧ code 4 = elemOf 32 (v.toIntSat dir false 32) ∧
    ∀ out top, (out = 5 ∧ top = 15 ∨ out = 6 ∧ top = 255) → recZero rec' ≤ top →
      ((v = .nan ∨ ∀ sg m e, fp16.unpack (recScale rec') = .fin sg m e → m = 0) → code out = recZero rec') ∧
      (∀ sg m e q, v ≠ .nan → fp16.unpack (recScale rec') = .fin sg m e → m ≠ 0 → (FV.div v (.fin sg m e)).toInt dir = some (.ok q) →
        (code out : Int) = max 0 (min (q + recZero rec') top))) ∧
  (∀ (s : State) (r : MxRun),
    let k := s.arg.h
    let x := s.coach k
    let key := s.arg.n
    Tab.find x.shadow key = some r →
    (∀ tl src slot stride kk aint base, r.cmd.op = .mma tl src slot stride kk aint base →
      let worked := (s.mmaWork k r.cmd tl src slot stride kk aint base r.steps).coach k
      let more := decide (r.steps + 1 < s.mxTotal k r.cmd)
      Does .mmaStep s fun t => Tab.get (t.coach k).tiles {} tl = Tab.get worked.tiles {} tl ∧
        Tab.find (t.coach k).shadow key = (if more = true then some { r with steps := r.steps + 1 } else none) ∧
        UnderWay t .arrayCommandExecute fun a => a.h = k) ∧
    (∀ d tiles, r.cmd.op = .pass d tiles → tiles ≠ [] →
      (r.steps = 0 → r.status ≠ 0x20 → Does .passExecute s fun t => (∀ tl ∈ tiles, Tab.get (t.coach k).tiles {} tl = { i32 := passType d == 1 }) ∧
        Tab.find (t.coach k).shadow key = some { r with steps := 1 }) ∧
      (r.steps ≠ 0 → r.steps ≤ stepCount (passType d) (passK d) * tiles.length → mxKey r.cmd = key →
        let at_ := (r.steps - 1) % tiles.length
        let k0 := (r.steps - 1) / tiles.length * stepSpan (passType d)
        let n := min (stepSpan (passType d)) (passK d - k0)
        (∀ s' r', s.passWork k r d at_ (pick tiles at_) k0 n = .ok (s', r') → r'.status ≠ 0x20 → Does .passExecute s fun t =>
          Tab.find (t.coach k).shadow key = some { r' with steps := r'.steps + 1 } ∧ (t.coach k).tiles = (s'.coach k).tiles) ∧
        (∀ cause va, s.passBlock r.cmd d at_ k0 n = .error (.inr (cause, va)) → x.jobs = [] → Does .passExecute s fun t =>
          Tab.find (t.coach k).shadow key = none ∧ UnderWay t .passComplete fun a => a.h = k ∧ a.n = r.cmd.id)))) ∧
  (∀ (acc : BitVec 32) (l : List (Int × Int)),
    (chunkInt8 acc l).1.toInt = max (-2 ^ 31) (min (acc.toInt + (l.map fun p => p.1 * p.2).sum) (2 ^ 31 - 1))) ∧
  (∀ (s : State) (l : Lease), (s.coach s.arg.h).lease = some l → 16 ≤ l.done ∨ l.start + 2048 ≤ s.clock → Does .leaseEnd s fun t =>
    t.coach s.arg.h = { s.coach s.arg.h with lease := some { l with done := max l.done 16 } } ∧
    UnderWay t .arrayCommandExecute fun a => a.h = s.arg.h) ∧
  (∀ (s : State) (entry : Nat) (recs : List (BitVec 32)) (mask : BitVec 8) (g u : Nat),
    let q := s.arg.req
    q.op = .scale entry recs mask → q.src = .task g u → (∀ b < 8, (s.bogie (g / 8 * 8 + b)).quarantined = none) → Does .scaleDelivery s fun t =>
      (∀ b < 8, (t.bogie (g / 8 * 8 + b)).held = (s.bogie (g / 8 * 8 + b)).held ++
        if mask.getLsbD b = true then [(s.clock, .scale 0 q.src entry recs)] else []) ∧ Answers s t s.arg.d q 0 0) ∧
  (∀ (s : State) (j : MxJob) (d : Vec) (tiles : List Nat),
    let k := s.arg.h
    (s.coach k).jobs = [j] → j.cmd.id = s.arg.n → j.owed = [] → j.cmd.op = .pass d tiles →
    (bits d 511 448 ≠ 0 → Does .passComplete s fun t => UnderWay t .releaseAccept fun a => a.rel.rel.type = 1 ∧ a.rel.rel.prio = j.cmd.level ∧
      a.rel.rel.ctx = j.cmd.ctx ∧ a.rel.rel.record = bits d 511 448 ∧ a.rel.rel.arg = BitVec.ofNat 32 (j.status + 256 * j.cause)) ∧
    (bits d 511 448 = 0 → j.status ≠ 0 → Does .passComplete s fun t => UnderWay t .raiseEvent fun a =>
      a.c = j.cmd.ctx ∧ a.info.code = j.status ∧ a.info.addr = BitVec.ofNat 64 j.addr ∧ a.info.cause = j.cause))

/-! ### Commit and verdict -/

/-- R133, R163, R186: the triggering message of the frame on top is delivered to a bogie that waits for it: the activation begins with an empty
outbox and journal, the frame as it stands is its checkpoint, CYCLE is the clock, and an awaited value is in its register; an awaited request that
failed is the fault of its word. -/
def Obligations.TriggersBeginActivations : Prop :=
  ∀ (s : State) (f : Frame) (r : List Frame),
    let g := s.arg.g
    let b := s.bogie g
    b.stack = f :: r → b.phase = .waiting → (s.ctx f.ctx).freezing = false → (s.ctx f.ctx).state ≠ 5 → b.streak < 3 → b.held = [] →
    b.ckpt = none → b.cycle < s.clock →
    let begins := fun (f' : Frame) (ph : Phase) => Does .triggerDelivery s fun t =>
      (t.bogie g).stack = { f' with acquire := false, await := none } :: r ∧ (t.bogie g).phase = ph ∧ (t.bogie g).ckpt = some f ∧
      (t.bogie g).cycle = s.clock ∧ (t.bogie g).outbox = [] ∧ (t.bogie g).journal = [] ∧ (t.bogie g).rep = none ∧ OnlyBogie s t g
    (f.await = none → begins f .running) ∧
    (∀ a, f.await = some a →
      (∀ v, a.reply = some (.ok v) → begins (f.setX a.dest (a.value v)) .running) ∧
      (∀ e, a.reply = some (.error e) →
        begins { f with cpu := { f.cpu with pc := a.pc } } (.boundary (.fault
          (if e.1 = 0x02 then { code := 0x02, addr := e.2, extra := BitVec.ofNat 64 (a.word.toNat * 2 ^ 32) } else { code := e.1, addr := e.2 })))))

/-- R139, R140, R141: the verdict on an activation at its boundary. A match forwards the outbox, entry by entry in its order, an STF within the
module as its store and, after it, its notification (R206), and forgets the journal and the checkpoint, and of the other bogies it changes at most
what R189 counts where a copied byte of a peer scratchpad is used; a mismatch drops the outbox, takes the frame back to the checkpoint and counts towards the streak, and the message is delivered again. -/
def Obligations.Verdicts : Prop :=
  (∀ (s : State) (f : Frame) (r : List Frame) (k : Boundary),
    let g := s.arg.g
    let b := s.bogie g
    b.phase = .boundary k → b.stack = f :: r → b.held = [] →
    (s.arg.flag = false → k = .commit → Quiet s g → b.outbox = [] → f.await = none → Does .witnessVerdict s fun t =>
      (t.bogie g).stack = f :: r ∧ (t.bogie g).phase = .waiting ∧ (t.bogie g).journal = [] ∧ (t.bogie g).ckpt = none ∧
      (t.bogie g).streak = 0 ∧ (t.bogie g).scratch = b.scratch ∧ UnderWay t .triggerDelivery (fun a => a.g = g) ∧ OnlyCounts s t g ∧
      (b.peerReads = [] → OnlyBogie s t g)) ∧
    (s.arg.flag = false → k = .ended → Quiet s g → b.outbox = [] → f.type = 1 → ((s.ctx f.ctx).kernel f.kernel).state ≠ 2 →
      (∀ q, r.head? = some q → q.await = none) →
      Does .witnessVerdict s fun t => (t.bogie g).stack = r ∧ (t.bogie g).draining = b.draining ∧ OnlyCounts s t g ∧
        (b.peerReads = [] → OnlyBogie s t g)) ∧
    (s.arg.flag = true → ∀ f0, b.ckpt = some f0 → Does .witnessVerdict s fun t =>
      (t.bogie g).stack = f0 :: r ∧ (t.bogie g).phase = .waiting ∧ (t.bogie g).outbox = [] ∧ (t.bogie g).journal = [] ∧
      (t.bogie g).scratch = b.undo.scratch ∧ (t.bogie g).streak = b.streak + 1 ∧ UnderWay t .triggerDelivery (fun a => a.g = g) ∧
      (3 ≤ b.streak + 1 → UnderWay t .streakLimit (fun a => a.g = g)) ∧ OnlyBogie s t g)) ∧
  (∀ (s : State) (g : Nat) (f : Frame) (more : List Op), ∃ l : List Transit,
    let t := s.forwardTop g f more
    let bare := fun (o : Op) => match o with
      | .matrix c => Op.matrix { c with id := 0 }
      | .notify _ va n => .notify 0 va n
      | o => o
    let entries := fun (o : Op) => match o with
      | .store bytes rel bypass (some n) =>
        if remoteNote bytes (some n) = true then [o] else [.store bytes rel bypass none, .notify 0 ((bytes.head?.map (·.1)).getD 0) n]
      | o => [bare o]
    (t.bogie g).transit = (s.bogie g).transit ++ l ∧ (t.bogie g).outbox = [] ∧
    (l.map fun x => bare x.op) = ((s.bogie g).outbox ++ more).flatMap entries ∧
    ∀ n < l.length, ∃ x, l[n]? = some x ∧ x.id = s.uid + n ∧ x.uid = f.uid ∧ x.ctx = f.ctx ∧ x.sent = false)

/-- R290, R291: a synchronous fault in a matching verdict ends the task: the activation is undone, the frame pops, nothing of its outbox leaves,
and an event with the code, address and extra of the fault and the place of the frame goes to its context's handler.

R140, R141, R295, R296: the third rollback in a row closes a bogie, whose stack is then to be moved, and on a replacement the task takes
PAIR_FAULT. The stack of a closed bogie goes, with a RESUME at the frame's priority, to an empty bogie of the context; F4 runs its diagnostics.
An uncorrectable error in an L1 line invalidates it, and one in both copies of a scratchpad sector poisons the sector. -/
def Obligations.FaultsEndTheTask : Prop :=
  (∀ (s : State) (f : Frame) (r : List Frame) (i : FaultInfo),
     let g := s.arg.g
     let b := s.bogie g
     b.phase = .boundary (.fault i) → s.arg.flag = false → b.stack = f :: r → Quiet s g → f.type = 1 →
     ((s.ctx f.ctx).kernel f.kernel).state ≠ 2 → (∀ q, r.head? = some q → q.await = none) →
     Does .witnessVerdict s fun t =>
       (t.bogie g).stack = r ∧ (t.bogie g).outbox = [] ∧ (t.bogie g).scratch = b.undo.scratch ∧ OnlyBogie s t g ∧
       UnderWay t .raiseEvent fun a => a.c = f.ctx ∧ a.info.code = i.code ∧ a.info.addr = i.addr ∧ a.info.extra = i.extra ∧
         a.info.pc = f.cpu.pc ∧ a.info.record = f.record ∧ a.info.frame = some (g, f.prio) ∧ a.info.clock = b.cycle) ∧
  (∀ (s : State),
     let g := s.arg.g
     let b := s.bogie g
     (3 ≤ b.streak → b.closed = false →
       (b.replaces = none → Does .streakLimit s fun t =>
         (t.bogie g).closed = true ∧ (t.bogie g).stack = b.stack ∧ UnderWay t .quarantineMove (fun a => a.g = g) ∧ OnlyBogie s t g) ∧
       (∀ old f r, b.replaces = some old → b.stack = f :: r → Quiet s g → f.type = 1 → ((s.ctx f.ctx).kernel f.kernel).state ≠ 2 →
         (∀ q, r.head? = some q → q.await = none) → Does .streakLimit s fun t => (t.bogie g).stack = r ∧ UnderWay t .raiseEvent fun a => a.c = f.ctx ∧ a.info.code = 0x14 ∧
           a.info.extra = BitVec.ofNat 64 ((old * 2 ^ 16 + g) * 2 ^ 32))) ∧
     (b.stack = [] → Does .quarantineMove s fun t => UnderWay t .diagnosticsDone fun a => a.g = g) ∧
     (∀ f r q, b.stack = f :: r → Quiet s g → b.draining = [] → (s.ctx f.ctx).state ≠ 5 → (s.ctx f.ctx).freezing = false →
       s.replacement g f.ctx = some q → q ≠ g → Does .quarantineMove s fun t =>
         (t.bogie g).stack = [] ∧ (t.bogie g).quarantined = some q ∧
         (∃ v, Tab.find (t.ctx f.ctx).saved g = some v ∧ v.moved = true ∧ v.frames.map (·.frame) = f :: r) ∧
         UnderWay t .releaseAccept (fun a => a.d = dieOf q ∧ a.rel.rel.type = 4 ∧ a.rel.rel.named = some q ∧ a.rel.rel.prio = f.prio) ∧
         UnderWay t .diagnosticsDone (fun a => a.g = g)) ∧
     (b.active = false →
       (s.arg.m = 1 → Does .uncorrectableError s fun t =>
         (∀ e ∈ (t.bogie g).l1, e.va / 64 ≠ s.arg.va / 64) ∧ (t.bogie g).stack = b.stack ∧ OnlyBogie s t g) ∧
       (s.arg.m = 2 → Does .uncorrectableError s fun t =>
         s.arg.n % 1536 ∈ (t.bogie g).spoison ∧ (t.bogie g).scratch = b.scratch ∧ OnlyBogie s t g)))

/-- R123, R171, R210, R211, R214, R272: what reaches a bogie from outside is held, and applied where no activation runs: delivered bytes, in
their places and no other; an arrival, as an update of its barrier; a record of the scale file, once the matrix commands before it have read. An
arrival through a handle is performed when it reaches its bogie. A draining frame for which nothing is outstanding gives up its holdings. Each
of these steps goes on in every state: an arrival changes what its bogie holds and no more; a bogie that runs an activation, or a frame for which
something is outstanding, is left as it is.

R101, R292, R293, R294: an event of a context reaches the class that its code belongs to, as a fault record in the class's ring and then a
release of priority 15 for its handler; an event that finds sixteen outstanding, or its record's slot in use by one that is, waits in order, and
one that finds no handler escalates and is
logged. The end of a handler lets the event that has waited longest go. -/
def Obligations.WritesAndEventsArrive : Prop :=
  (∀ (s : State),
     let g := s.arg.g
     let n := s.arg.n
     (∃ t, exec .heldWriteArrival s = .next t ∧ t.mem = s.mem ∧ ∀ k, t.bogie k = { s.bogie k with held := (t.bogie k).held }) ∧
     (∃ t, exec .handleArrival s = .next t ∧ t.mem = s.mem ∧ ∀ k, t.bogie k = { s.bogie k with held := (t.bogie k).held }) ∧
     (∃ t, exec .barrierUpdate s = .next t ∧ ((s.bogie g).active = true → t = s)) ∧
     (∃ t, exec .frameDrainEnd s = .next t ∧
       (((∀ x ∈ (s.bogie g).draining, x.frame.uid ≠ n) ∨ ∃ x, (s.bogie g).draining = [x] ∧ s.holdsFrame g x.frame = true) → t = s)) ∧
     (∃ t, exec .scaleFileApply s = .next t ∧ ((s.bogie g).active = true → t = s)) ∧
     (∃ t, exec .raiseEvent s = .next t) ∧ (∃ t, exec .eventUnqueue s = .next t)) ∧
  ((∀ (s : State) (h : Held),
     (∀ g, g = s.target (Held.who h) s.arg.g → s.arg.held = [h] → Does .heldWriteArrival s fun t =>
       (t.bogie g).held = (s.bogie g).held ++ [(s.clock, h)] ∧ (t.bogie g).scratch = (s.bogie g).scratch ∧
       ((s.bogie g).active = false → UnderWay t .barrierUpdate fun a => a.g = g) ∧ t.mem = s.mem) ∧
     (∀ g w u, g = s.target (some (.handle w)) s.arg.g → s.arg.req.op = .arrive w u → Does .handleArrival s fun t =>
       (t.bogie g).held = (s.bogie g).held ++ [(s.clock, .arrive (.handle w) (handleIndex w) u)] ∧
       Answers s t (dieOf s.arg.g) s.arg.req 0 0) ∧
     (∀ g w, ((s.bogie g).frameFor w true).isSome = true → s.target (some w) g = g) ∧
     (∀ g w, ((s.bogie g).frameFor w true) = none → (∃ e ∈ s.bogies, (e.2.frameFor w true).isSome = true) →
       ∃ e ∈ s.bogies, e.1 = s.target (some w) g ∧ (e.2.frameFor w true).isSome = true)) ∧
   (∀ (s : State) (f : Frame) (r : List Frame) (c : Nat),
     let g := s.arg.g
     let b := s.bogie g
     b.stack = f :: r → b.active = false → f.await = none → c < s.clock → s.scaleBusy g = false →
     (∀ k u, b.held = [(c, .arrive (.frame f.uid) k u)] → Does .barrierUpdate s fun t =>
       (t.bogie g).held = [] ∧ (t.bogie g).scratch = (b.putBar f k ((b.bar f k).update u)).scratch ∧ OnlyBogie s t g) ∧
     (∀ id src off data, b.held = [(c, .deliver id src (.frame f.uid) off data none)] → id = 0 → src ≠ .firmware →
       Does .barrierUpdate s fun t => (t.bogie g).held = [] ∧ OnlyBogie s t g ∧
         (∀ n < data.length, Tab.get (t.bogie g).scratch 0 (f.sbase + off + n) = (data[n]?).getD 0) ∧
         ∀ a, (a < f.sbase + off ∨ f.sbase + off + data.length ≤ a) → Tab.get (t.bogie g).scratch 0 a = Tab.get b.scratch 0 a) ∧
     (∀ src entry rec', b.held = [(c, .scale 0 src entry [rec'])] → entry < 1024 → Does .scaleFileApply s fun t =>
       (t.bogie g).held = [] ∧ Tab.get (t.bogie g).scale 0 entry = rec' ∧
       ∀ e, e ≠ entry → Tab.get (t.bogie g).scale 0 e = Tab.get b.scale 0 e)) ∧
   (∀ (s : State) (x : Drain),
     let g := s.arg.g
     (s.bogie g).draining = [x] → x.frame.uid = s.arg.n → s.holdsFrame g x.frame = false → (s.die (dieOf g)).store = [] →
     Does .frameDrainEnd s fun t => (t.bogie g).draining = [] ∧ (t.bogie g).stack = (s.bogie g).stack ∧ OnlyBogie s t g)) ∧
  (∀ (s : State),
     let a := s.arg
     let x := s.ctx a.c
     let i := { a.info with clock := if a.flag then a.info.clock else s.clock, die := a.d }
     (a.m ≠ 1 → (x.state = 0 ∨ x.state = 1 ∨ x.state = 6) → Does .raiseEvent s fun t =>
       t.errlog = s.errlog ++ [{ code := i.code, ctx := a.c, addr := i.addr.toNat }] ∧ t.ctx a.c = x) ∧
     (a.m ≠ 1 → x.state = 3 → x.receives i.code = none → classOf i.code ≠ 5 → x.freezing = false → Does .raiseEvent s fun t =>
       t.errlog = s.errlog ++ [{ code := i.code, ctx := a.c, addr := i.addr.toNat }] ∧ (t.ctx a.c).freezing = true ∧
       UnderWay t .freezeComplete fun b => b.c = a.c) ∧
     (∀ k, a.m ≠ 1 → x.state = 3 → x.receives i.code = some k →
       let seq := Tab.get x.seqs 0 k
       let out := Tab.get x.outstanding [] k
       ((16 ≤ out.length ∨ ∃ n ∈ out, n.toNat % 16 = seq.toNat % 16) → (Tab.get x.eventq [] k).length < 1024 → Does .raiseEvent s fun t =>
         Tab.get (t.ctx a.c).eventq [] k = Tab.get x.eventq [] k ++ [i]) ∧
       (out.length < 16 → (∀ n ∈ out, n.toNat % 16 ≠ seq.toNat % 16) → Tab.get x.eventq [] k = [] →
         let slot := (Tab.get x.handlers 0 k).toNat + 64 * (1 + seq.toNat % 16)
         ∀ l, s.leaf a.c slot = some l → l.w = true → l.cls = 0 → s.poisoned l slot = false → Does .raiseEvent s fun t =>
           Tab.get (t.ctx a.c).seqs 0 k = seq + 1 ∧ Tab.get (t.ctx a.c).outstanding [] k = out ++ [seq] ∧
           Reaches t .homeStore (fun b => b.d = l.home slot ∧ b.req.ctx = a.c ∧
             b.req.op = .store (placed slot (bytesOfNat 64 (faultRecord a.c k seq i).toNat)) true false none) ∧
           UnderWay t .raiseEvent (fun b => b.m = 1 ∧ b.rel.rel.type = 2 ∧ b.rel.rel.prio = 15 ∧ b.rel.rel.arg = seq ∧
             b.rel.rel.cls = k ∧ b.rel.rel.record = (Tab.get x.handlers 0 k).toNat))) ∧
     (a.m = 1 → (∃ v, Tab.find s.answers a.n = some v) → Does .raiseEvent s fun t =>
       UnderWay t .releaseAccept fun b => b.d = a.d ∧ b.rel = a.rel) ∧
     (a.flag = false → Tab.get x.eventq [] a.n = [] → Does .eventUnqueue s fun t =>
       Tab.get (t.ctx a.c).outstanding [] a.n = (Tab.get x.outstanding [] a.n).erase (a.val.setWidth 32) ∧ t.errlog = s.errlog))

/-! ### Homes, translation and links -/

/-- R94, R183, R193, R197, R199-R203, R298, R350: a store at its home gives its bytes to memory and no other byte; an atomic gives the old
value to its maker and leaves the new one, or where its line is poisoned answers POISON and leaves memory alone; the maker is told once, after
the bogie that owned the word has dropped it (that an atomic waits for that too is the model's choice, log 140). A request
sent again to a full fault queue's home is served in the same way; a store to host memory is the hub's.

R229: the row of a COPYC and the increment of its version come to memory together, or, where the version is another or poisoned, neither.

R94, R199, R201: what an integer atomic leaves in memory: the sum, the bits, the smaller or larger by signed or unsigned value, or the
operand; CAS leaves its new value where the old one is the expected one. -/
def Obligations.HomesServeWrites : Prop :=
  (∀ (s : State) (l : Leaf),
     let d := s.arg.d
     let q := s.arg.req
     (∀ bytes rel bp note, q.op = .store bytes rel bp note → (∀ v e b, note ≠ some (.version v e b)) → AtHome s d q l → d < 8 →
       (∀ i ∈ [Instr.homeStore, .faultQueueResend], (i = .homeStore → q.ctx ≤ 192 ∨ q.src ≠ .host) → Does i s fun t =>
         t.mem = bytes.foldl (fun m e => Tab.set m unlisted (l.phys e.1) e.2) s.mem ∧ t.bogies = s.bogies ∧
         (l.cls = 2 → t.owner = s.owner ∧ Answers s t d q 0 0) ∧
         ((∀ e ∈ bytes, ∀ g u, Tab.get s.owner none (l.phys e.1 / 4) = some (.task g u) → ownerOf q.src = some (.task g u)) → Answers s t d q 0 0))) ∧
     (∀ bytes rel bp v e, q.op = .store bytes rel bp (some (.version v e [])) → AtHome s d q l → d < 8 → q.src ≠ .host →
       let old := natOfBytes (s.readBytes (l.phys v) 8)
       (s.poisoned l v = true → Does .homeStore s fun t => t.mem = s.mem ∧ Answers s t d q 0 0x10) ∧
       (s.poisoned l v = false → old ≠ e.toNat → Does .homeStore s fun t => t.mem = s.mem ∧ Answers s t d q 0 0x22) ∧
       (s.poisoned l v = false → old = e.toNat → Does .homeStore s fun t =>
         t.mem = Tab.setList (bytes.foldl (fun m e => Tab.set m unlisted (l.phys e.1) e.2) s.mem) unlisted (l.phys v) (bytesOfNat 8 (old + 1)))) ∧
     (∀ bytes rel bp note, q.op = .store bytes rel bp note → 8 ≤ d → Does .homeStore s fun t =>
       t.hostMem = bytes.foldl (fun m e => Tab.set m unlisted e.1 e.2) s.hostMem ∧ t.mem = s.mem ∧ Answers s t d q 0 0) ∧
     (∀ va n fn x y ord, q.op = .atomic va n fn x y ord .reg → AtHome s d q l →
       let old := natOfBytes (s.readBytes (l.phys va) n)
       (s.poisoned l va = false → Does .atomicExecute s fun t =>
         t.mem = (s.writeBytes (l.phys va) (bytesOfNat n (atomNew fn n old x y))).mem ∧ t.bogies = s.bogies ∧
         ((l.cls = 2 ∨ ∀ i < n, ∀ g u, Tab.get s.owner none ((l.phys va + i) / 4) ≠ some (.task g u)) → Answers s t d q (BitVec.ofNat 64 old) 0) ∧
         (∀ g u, l.cls ≠ 2 → 0 < n → (∀ i < n, Tab.get s.owner none ((l.phys va + i) / 4) = some (.task g u)) →
           (∃ p, (t.die d).dropping = [p] ∧ p.req = q ∧ p.owed = [g] ∧ p.old = old) ∧ (∀ i < n, Tab.get t.owner none ((l.phys va + i) / 4) = none) ∧
           Reaches t .dropReceived fun b => b.g = g ∧ b.d = d ∧ b.req = q ∧ b.flag = false)) ∧
       (s.poisoned l va = true → Does .atomicExecute s fun t => t.mem = s.mem ∧ Answers s t d q 0 0x10))) ∧
  (∀ (n old : Nat) (x y : Word), (n = 4 ∨ n = 8) → old < 2 ^ (8 * n) →
     let b := x.toNat % 2 ^ (8 * n)
     let z := fun v => (BitVec.ofNat (8 * n) v).toInt
     let new := fun (o : BitVec 4) => atomNew (.int o) n old x y
     new 0 = (old + b) % 2 ^ (8 * n) ∧ new 1 = (old &&& b) ∧ new 2 = (old ||| b) ∧ new 3 = (old ^^^ b) ∧ z (new 4) = min (z old) (z b) ∧
     z (new 5) = max (z old) (z b) ∧ new 6 = min old b ∧ new 7 = max old b ∧ new 8 = b ∧
     atomNew .cas n old x y = (if old = b then y.toNat % 2 ^ (8 * n) else old))

/-- R172, R183, R184, R186, R298: a load that the witness makes once gets the bytes that its home holds, or POISON; a bogie that drops words
acknowledges, and with the last acknowledgement the store or atomic is performed; a stalled load's line reaches the core, which goes on.

R123, R133, R184: the answer to a request of a task: its entry is performed and leaves the list; an awaited value is the next triggering
message of its frame, and one that failed is the fault of its word. -/
def Obligations.HomesServeReads : Prop :=
  (∀ (s : State) (l : Leaf),
     let a := s.arg
     let q := a.req
     (∀ va n, q.op = .load va n true → a.n = 3 → region va = .glob → AtHome s a.d q l →
       (s.poisoned l va = false → Does .loadFill s fun t =>
         t.mem = s.mem ∧ Answers s t a.d q (BitVec.ofNat 64 (natOfBytes (s.readBytes (l.phys va) n))) 0) ∧
       (s.poisoned l va = true → Does .loadFill s fun t => t.mem = s.mem ∧ Answers s t a.d q 0 0x10)) ∧
     (∀ f r e, a.n = 0 → (s.bogie a.g).stack = f :: r → (s.bogie a.g).phase = .stalled a.va → f.cpu.pfx.mod = none →
       (s.bogie a.g).tlb.find? (fun e => e.covers f.ctx a.va) = some e → e.cls = 0 → s.leaf f.ctx a.va = some l → l.cls = 0 →
       l.home a.va = dieOf a.g → s.blocked (dieOf a.g) f.ctx a.va l = false → l.syn = false → (s.bogie a.g).l1 = [] → (s.bogie a.g).transit = [] →
       Does .loadFill s fun t => (t.bogie a.g).phase = .running ∧
         ∃ x ∈ (t.bogie a.g).l1, x.ctx = f.ctx ∧ x.va = a.va / 32 * 32 ∧ x.valid = BitVec.allOnes 32 ∧ x.poison = s.poisoned l a.va ∧
           ∀ k < 32, Tab.get x.data 0 k = s.readByte (l.phys (a.va / 64 * 64) + (a.va / 32 * 32 % 64 + k))) ∧
     (a.flag = false → Does .dropReceived s fun t => (t.bogie a.g).l1 = ((s.bogie a.g).dropTouched q.ctx q.op).l1 ∧ t.mem = s.mem ∧
       (dieOf a.g = a.d → UnderWay t .dropReceived fun b => b = { a with flag := true })) ∧
     (∀ p, (s.die a.d).dropping = [p] → p.req = q → a.flag = true →
       (p.owed.erase a.g = [] → Does .dropReceived s fun t => (t.die a.d).dropping = [] ∧ t.bogies = s.bogies ∧
         (∀ bytes rel bp note, q.op = .store bytes rel bp note → Answers s t a.d q 0 0) ∧
         (∀ va n f x y ord, q.op = .atomic va n f x y ord .reg → Answers s t a.d q (BitVec.ofNat 64 p.old) 0)) ∧
       (p.owed.erase a.g ≠ [] → Does .dropReceived s fun t =>
         (t.die a.d).dropping = [{ p with owed := p.owed.erase a.g }] ∧ t.bogies = s.bogies))) ∧
  (∀ (s : State) (f : Frame) (r : List Frame) (x : Transit) (g uid : Nat),
     let a := s.arg
     let b := s.bogie g
     a.req.src = .task g uid → a.m ≠ 1 → b.transit = [x] → x.id = a.req.id → b.stack = f :: r → b.phase = .waiting → f.uid = x.uid →
     (∀ y ∈ r, y.uid ≠ f.uid) →
     (∀ w va n sync, f.await = some w → x.op = .load va n sync → region va = .glob →
       let answered := fun (v : Except (Nat × Word) Word) => Does .storePerformed s fun t => (t.bogie g).transit = [] ∧
         (t.bogie g).stack = { f with await := some { w with started := true, reply := some v } } :: r ∧
         UnderWay t .triggerDelivery (fun c => c.g = g) ∧ OnlyBogie s t g
       (a.n = 0 → answered (.ok a.val)) ∧
       (a.n = 0x10 → answered (.error (0x10, BitVec.ofNat 64 (va / 64 * 64))))) ∧
     (∀ bytes rel bp, x.op = .store bytes rel bp none → Does .storePerformed s fun t =>
       (t.bogie g).transit = [] ∧ (t.bogie g).stack = b.stack ∧ OnlyBogie s t g))

/-- R345-R348, R355: a miss of the first-level TLB is answered from the cached translations of the die's unit, or starts a walk, or waits while
sixty-four are under way; a walk goes by way of the dies that hold its tables, finds a leaf and fills an entry from it, or finds none and makes
the access fault; a page under a restriction makes the walk wait. (Whose translations are cached is the model's choice, log 119.)

R277, R295, R350-R352, R366: a page that F3 can bring in becomes present, in the frame that its leaf names (the model's choice, log 25), and
its parked requests are replayed; one that it cannot has every line poisoned. A copied page is Private in its new frame. An uncorrectable error poisons the line, tile, fragment or replica's line that it is
in. -/
def Obligations.WalksAndRepairs : Prop :=
  (∀ (s : State),
     let g := s.arg.g
     let va := s.arg.va
     let b := s.bogie g
     let d := s.die (dieOf g)
     let way := s.walkWay (dieOf g) b.topCtx va
     (d.cached b.topCtx va = none → d.walks.length < 64 → Does .tlbMiss s fun t => (t.die (dieOf g)).walks = d.walks ++ [(g, va)] ∧
       Reaches t .walkComplete (fun a => a.g = g ∧ a.va = va ∧ a.flag = false ∧ a.n = way / 16 ∧ (way ≠ 0 → a.d + 1 = way % 16))) ∧
     (s.arg.n ≠ 0 → s.arg.n % 16 ≠ 0 → Does .walkComplete s fun t => t.bogies = s.bogies ∧
       Reaches t .walkComplete (fun a => a.g = g ∧ a.va = va ∧ a.n = s.arg.n / 16 ∧ a.d + 1 = s.arg.n % 16)) ∧
     (d.cached b.topCtx va = none → 64 ≤ d.walks.length → Does .tlbMiss s fun t =>
       (t.die (dieOf g)).walkq = d.walkq ++ [(g, va)] ∧ t.agenda = s.agenda) ∧
     (∀ l, d.cached b.topCtx va = some l → Does .tlbMiss s fun t => t.dies = s.dies ∧
       UnderWay t .walkComplete (fun a => a.g = g ∧ a.va = va ∧ a.flag = true)) ∧
     ∀ f r, b.stack = f :: r → b.phase = .stalled va → s.arg.n = 0 →
       (s.restricting f.ctx va = true → Does .walkComplete s fun t => t.bogie g = b ∧ UnderWay t .walkComplete fun a => a.g = g ∧ a.va = va) ∧
       (∀ l, s.restricting f.ctx va = false → s.arg.flag = true → d.cached f.ctx va = some l → b.tlb.length < 192 → Does .walkComplete s fun t =>
         t.bogie g = { b with phase := .running, tlb := b.tlb ++ [l.entry f.ctx va] } ∧ t.dies = s.dies) ∧
       (s.restricting f.ctx va = false → s.arg.flag = false → d.walkq = [] → va < 2 ^ 56 →
         (∀ l, s.walk f.ctx va = .leaf l → b.tlb.length < 192 → Does .walkComplete s fun t =>
           t.bogie g = { b with phase := .running, tlb := b.tlb ++ [l.entry f.ctx va] } ∧ (t.die (dieOf g)).walks = d.walks.erase (g, va)) ∧
         (s.walk f.ctx va = .unmapped → Does .walkComplete s fun t =>
           t.bogie g = { b with phase := .running, unmapped := some (va / 65536) } ∧ t.errlog = s.errlog) ∧
         (∀ k, s.walk f.ctx va = .malformed k → Does .walkComplete s fun t =>
           t.bogie g = { b with phase := .running, unmapped := some (va / 65536) } ∧
           t.errlog = s.errlog ++ [{ code := 0x09, ctx := f.ctx, addr := k }]))) ∧
  (∀ (s : State) (l : Leaf),
     let a := s.arg
     (s.leaf a.c a.va = some l → l.present = false → l.migr = false → s.breaking a.c a.va = false → (s.die a.d).holdsUnit a.c a.va = true →
       (a.flag = false → Does .parkRepair s fun t => UnderWay t .unitPoison fun b => b.d = a.d ∧ b.c = a.c ∧ b.va = a.va) ∧
       (a.flag = true → Does .parkRepair s fun t =>
         t = State.replay (s.writeLeaf l.key (Leaf.word { l with present := true } true)) a.d a.c a.va 65536)) ∧
     (s.leaf a.c a.va = some l → (s.die a.d).parked = [] → Does .unitPoison s fun t =>
       t.mem = (s.writeLeaf l.key (Leaf.word { l with present := true } true)).mem ∧
       (l.cls ≠ 3 → ∀ k < 1024, l.phys (a.va + 64 * k) / 64 ∈ t.poison) ∧
       (l.cls = 3 → t.poison = s.poison ∧ ∀ m ∈ (s.consist a.c l.place).dies, ∀ k < 1024,
         l.chainOff a.va / 64 + k ∈ Tab.get (t.consist a.c l.place).poison [] m)) ∧
     (∀ o, s.pageOps = [o] → o.kind = 4 → o.ctx = a.c → o.page = a.va → o.size = 0 → s.leaf a.c a.va = some l → (s.die a.d).parked = [] →
       s.snapUnit a.c a.va = none → Does .cowCopyDone s fun t => t.pageOps = [] ∧
         t.mem = ((s.moveMem (memKey l.place (l.frame * 65536)) (memKey a.d (o.frame * 65536)) 65536).writeLeaf l.key
           (Leaf.word { l with cls := 0, frame := o.frame, w := true } true)).mem) ∧
     (s.leaf a.c a.va = some l → l.cls = 3 → (s.consist a.c l.place).tail ≠ (s.consist a.c l.place).joining → a.m % 4 = 0 → a.d = dieOf a.g →
       ((s.consist a.c l.place).server a.d (l.chainOff a.va)).getD a.d = a.d → s.blocked a.d a.c a.va l = false →
       (s.bogie a.g).phase = .stalled a.va → Does .tailQuery s fun t => (t.bogie a.g).phase = .running ∧ t.mem = s.mem) ∧
     (a.m % 5 = 0 → Does .memoryUncorrectableError s fun t => memKey (a.d % 8) (a.va * 64 % 2 ^ 48) / 64 ∈ t.poison ∧ t.mem = s.mem) ∧
     (a.m % 5 = 1 → Does .memoryUncorrectableError s fun t =>
       (Tab.get (t.coach (a.d % 192)).tiles {} (a.va % 64)).poison = true ∧ t.poison = s.poison) ∧
     (a.m % 5 = 2 → Does .memoryUncorrectableError s fun t =>
       a.n % 1024 ∈ (Tab.get (t.coach (a.d % 192)).slots {} (a.va % 16)).poison ∧ t.poison = s.poison) ∧
     (let c := Tab.get s.consists {} (a.n % 12352)
      a.m % 5 = 4 → c.units ≠ 0 → a.d % 8 ∈ c.dies → Does .memoryUncorrectableError s fun t => t.mem = s.mem ∧ t.poison = s.poison ∧
        a.va % (c.units * 1024) ∈ Tab.get (Tab.get t.consists {} (a.n % 12352)).poison [] (a.d % 8)))

/-- R380-R383, R401: a link that is Up sends a new DATA flit with the next number and keeps it until it is acknowledged, or first sends again what
a go-back has to resend; a flit that comes in order is taken, frees what it acknowledges and is to be acknowledged; a damaged one is counted and a
NAK is owed; a CONTROL flit carries what is owed. A timeout of the oldest flit goes back to it, and a pending NAK expires.

R386-R389: a message whose stamp is the next of its endpoint is delivered and the next stamp is expected; it keeps its entries, its context's own
or shared ones, until it is handed to its endpoint, and then brings about its step, or, of an unknown kind, is discarded and logged. Where there is
no entry for it, it is bounced; a copy of one that has come is discarded; a bounced one waits 1 µs and is sent again on the link that it takes.

R377, R378: a message in transit whose egress at the next die is busy waits at this one; a flit of an illegal type or reserved field is discarded
and logged. -/
def Obligations.LinksCarryMessages : Prop :=
  (∀ (s : State),
     let l := s.arg.n
     let r := s.arg.flag
     let k := s.link l
     let d := k.dir r
     (k.state = 0 →
       (d.resent = d.retry.length → (fillFlit k.single 15 d.waiting).1 ≠ [] → (∀ m ∈ d.waiting, s.busyBeyond (linkEnd l (!r)) m = false) →
         d.retry.length < 512 → k.crcArm = false → Does .flitSend s fun t =>
         ((t.link l).dir r).n = d.n + 1 ∧ ((t.link l).dir r).sent = d.sent + 1 ∧
         (∃ w, ((t.link l).dir r).wire = d.wire ++ [w] ∧ w.seq = d.n ∧ w.data = some (fillFlit k.single 15 d.waiting).1 ∧ w.bad = false ∧
           w.ack = (k.dir (!r)).e - 1 ∧ w.nak = (k.dir (!r)).nakOwed) ∧
         ((t.link l).dir r).waiting = (fillFlit k.single 15 d.waiting).2 ∧
         ∃ f, ((t.link l).dir r).retry = d.retry ++ [f] ∧ f.seq = d.n ∧ f.msgs = (fillFlit k.single 15 d.waiting).1) ∧
       (∀ m rest, d.resent = d.retry.length → d.waiting = m :: rest → s.busyBeyond (linkEnd l (!r)) m = true → Does .flitSend s fun t => t = s) ∧
       (∀ f, d.retry[d.resent]? = some f → Does .flitSend s fun t =>
         ((t.link l).dir r).n = d.n ∧ ((t.link l).dir r).resent = d.resent + 1 ∧
         ∃ w, ((t.link l).dir r).wire = d.wire ++ [w] ∧ w.seq = f.seq ∧ w.data = some f.msgs)) ∧
     (∀ w rest, d.wire = w :: rest → k.state = 0 →
       ((w.bad = true ∨ s.arg.m = 1) → d.nakPending = none → Does .flitReceive s fun t =>
         ((t.link l).dir r).wire = rest ∧ ((t.link l).dir r).crc = d.crc + 1 ∧ ((t.link l).dir r).nakOwed = true ∧ ((t.link l).dir r).e = d.e) ∧
       (w.bad = false → s.arg.m = 2 → Does .flitReceive s fun t => ((t.link l).dir r).wire = rest ∧ ((t.link l).dir r).e = d.e ∧
         t.errlog = s.errlog ++ [{ code := 0, addr := l }]) ∧
       (w.bad = false → s.arg.m ≠ 1 → s.arg.m ≠ 2 → w.nak = false → w.data = some [] →
         (w.seq = d.e → Does .flitReceive s fun t => ((t.link l).dir r).e = d.e + 1 ∧ ((t.link l).dir r).ackOwed = true ∧
           ((t.link l).dir (!r)).retry = ((k.dir (!r)).free w.ack).retry) ∧
         (2048 ≤ (w.seq - d.e).toNat → Does .flitReceive s fun t => ((t.link l).dir r).e = d.e ∧ ((t.link l).dir r).wire = rest)) ∧
       (w.bad = false → s.arg.m ≠ 1 → s.arg.m ≠ 2 → w.nak = false → w.seq = d.e → ∀ m, w.data = some [m] → m.dst = linkEnd l (!r) → Does .flitReceive s fun t =>
         (t.ing m.dst).arrived = (s.ing m.dst).arrived ++ [m] ∧ UnderWay t .messageIngress fun a => a.d = m.dst)) ∧
     (k.state = 0 → (k.dir (!r)).ackOwed = true → Does .ackControlFlit s fun t =>
       ((t.link l).dir (!r)).ackOwed = false ∧
       ∃ w, ((t.link l).dir r).wire = d.wire ++ [w] ∧ w.data = none ∧ w.ack = (k.dir (!r)).e - 1) ∧
     (∀ f rest, d.retry = f :: rest → f.seq.toNat = s.arg.m → k.state = 0 → f.clock + k.flitTimes 4096 ≤ s.clock → Does .replayTimeout s fun t =>
       ((t.link l).dir r).resent = 0 ∧ ((t.link l).dir r).retry = d.retry ∧ ((t.link l).dir r).replays = d.replays + 1 ∧
       UnderWay t .flitSend fun a => a.n = l ∧ a.flag = r) ∧
     (∀ c, d.nakPending = some c → c + k.flitTimes 4096 ≤ s.clock → Does .nakPendingExpiry s fun t =>
       ((t.link l).dir r).nakPending = none ∧ t.agenda = s.agenda)) ∧
  (∀ (s : State) (m : Msg) (rest : List Msg),
     let d := s.arg.d
     let x := s.ing d
     let key := m.src * 4096 + m.ep
     let own := decide (x.usedOwn m.ctx + m.slots ≤ 16 ∧ m.ctx ≤ 192)
     (x.arrived = m :: rest → s.arg.flag = false →
       (m.bounced = false → m.stamp = Tab.get x.expected 0 key → x.held = [] →
         ((own = true ∨ x.usedShared + m.slots ≤ 5104) → Does .messageIngress s fun t =>
           (t.ing d).arrived = rest ∧ Tab.get (t.ing d).expected 0 key = m.stamp + 1 ∧ (t.ing d).ready = x.ready ++ [(m, own)] ∧
           UnderWay t .messageIngress (fun a => a.flag = true ∧ a.d = d ∧ a.n = key ∧ a.m = m.stamp.toNat)) ∧
         (own = false → 5104 < x.usedShared + m.slots → Does .messageIngress s fun t =>
           t = (s.setIng d { x with arrived := rest }).forward d { m with bounced := true, src := m.dst, dst := m.src })) ∧
       (m.bounced = false → 2 ^ 15 ≤ (m.stamp - Tab.get x.expected 0 key).toNat → Does .messageIngress s fun t =>
         t = s.setIng d { x with arrived := rest }) ∧
       (m.bounced = false → 0 < (m.stamp - Tab.get x.expected 0 key).toNat → (m.stamp - Tab.get x.expected 0 key).toNat < 2 ^ 15 → x.held = [] →
         m.slots ≤ 64 → x.usedShared + m.slots ≤ 5104 → Does .messageIngress s fun t => t = s.setIng d { x with arrived := rest, held := [m] }) ∧
       (m.bounced = true → x.bounce.length < 1024 → Does .messageIngress s fun t =>
         (t.ing d).bounce = x.bounce ++ [({ m with bounced := false, dst := m.src, src := d }, s.clock + 1700)] ∧
         UnderWay t .bounceResend fun a => a.d = d)) ∧
     (∀ o, x.ready = [(m, o)] → s.arg.flag = true → s.arg.n = key → s.arg.m = m.stamp.toNat →
       (m.kind ≠ 0 → m.kind ≤ 8 → Does .messageIngress s fun t => (t.ing d).ready = [] ∧ UnderWay t m.ev (fun a => a = m.arg)) ∧
       (8 < m.kind → Does .messageIngress s fun t => (t.ing d).ready = [] ∧ t.agenda = s.agenda ∧
         t.errlog = s.errlog ++ [{ code := 0, ctx := m.ctx, addr := m.kind }])) ∧
     (∀ c, x.bounce = [(m, c)] → c ≤ s.clock → x.stuck = [] → s.routeUp d m.dst 8 = true → ∀ p r l, pairOf d (nextHop d m.dst) = some (p, r) → s.pickLink p m.spread = some l → Does .bounceResend s fun t =>
       (t.ing d).bounce = [] ∧ ((t.link l).dir r).waiting = ((s.link l).dir r).waiting ++ [m] ∧ UnderWay t .flitSend fun a => a.n = l ∧ a.flag = r))

/-- R391-R394, R398, R401: the control commands of a link, the retirement of lanes, and its retrains: a new rate retrains an Up link, a Down one
retrains on command; a failed lane takes a free repair lane, or the width halves to a range without a bare one; a link that cannot come up tries lower rates, and goes Down at the lowest; too many
replays step the rate down, or retrain the link. -/
def Obligations.LinksRetrain : Prop :=
  ∀ (s : State),
    let l := s.arg.n
    let k := s.link l
    let r := s.arg.flag
    let trains := fun (i : Instr) (k' : Link) => Does i s fun t => t.link l = k' ∧ UnderWay t .retrainDone fun a => a.n = l
    let rate : BitVec 3 := s.arg.val.setWidth 3
    ((4 < rate.toNat ∨ 2 < rate.toNat ∧ s.sys.accept.getLsbD 0 = false) → Does .lctlRate s fun t => t = s) ∧
    (rate.toNat ≤ 2 → k.state = 0 → rate.toNat ≠ k.rate →
      trains .lctlRate { k with req := rate, rate := rate.toNat, state := 1, retrains := k.retrains + 1, begun := some (s.clock, k.rate) }) ∧
    (rate.toNat ≤ 2 → k.state = 1 → k.begun = some (s.clock, 1 + k.rate) → k.why = some (0xFF, 2) → Does .lctlRate s fun t =>
      t.link l = { k with req := rate, rate := min k.rate rate.toNat }) ∧
    (rate.toNat ≤ 2 → k.state = 1 → k.begun = none → Does .lctlRate s fun t => t.link l = { k with req := rate, further := true }) ∧
    (k.state = 2 → k.lanes = 0 → trains .lctlRetrain { k with
      rate := if s.sys.locked = true ∧ s.sys.accept.getLsbD 0 = false then min 2 k.req.toNat else k.req.toNat, state := 1, retrains := k.retrains + 1 }) ∧
    (Does .lctlClr s fun t => (t.link l).retrains = 0 ∧ (∀ n < 4, ∀ e, ((t.link l).dir e).counter n = 0) ∧ (t.link l).state = k.state) ∧
    (r = true → Does .lctlPin s fun t => (t.link l).pin = true ∧ ∀ j < 4, l / 4 * 4 + j ≠ l → (t.link (l / 4 * 4 + j)).pin = false) ∧
    (r = false → Does .lctlPin s fun t => t.link l = { k with pin := false }) ∧
    (∀ i ∈ [Instr.linjLaneArm, .laneRetire], ∀ lane p, s.arg.m = lane → lane < 64 → k.lanes.getLsbD lane = false → k.active lane = true →
      k.freeRepair = some p → k.state = 0 → trains i { k with
        lanes := k.lanes ||| (1 <<< lane), repairs := k.repairs ++ [(p, lane)], state := 1, retrains := k.retrains + 1, why := some (lane, 0) }) ∧
    (∀ lane, s.arg.m = lane → lane < 64 → k.lanes.getLsbD lane = false → k.active lane = true → k.freeRepair = none → k.state = 0 →
      let k' := Link.halve { k with lanes := k.lanes ||| (1 <<< lane) }
      k'.width ≠ 3 → trains .laneRetire { k' with state := 1, retrains := k.retrains + 1, why := some (lane, 1) } ∧
        k.width < k'.width ∧ ∀ j < 64, k'.active j = true → k.active j = true ∧ k'.bare j = false) ∧
    (Does .linjCrcArm s fun t => t.link l = { k with crcArm := true, crcLeft := k.crcAfter.toNat }) ∧
    (k.state = 1 →
      (s.arg.m ≠ 1 → k.width ≠ 3 → k.why = none → k.further = false → (∀ d < 10, (s.ing d).stuck = []) →
        Does .retrainDone s fun t => (t.link l).state = 0 ∧ (t.link l).ab = k.ab.resume ∧ (t.link l).ba = k.ba.resume ∧ (t.link l).rate = k.rate) ∧
      (s.arg.m = 1 → 0 < k.rate → trains .retrainDone { k with rate := k.rate - 1, why := some (0xFF, 2) }) ∧
      (s.arg.m = 1 → k.rate = 0 → (∀ e, (k.dir e).retry = [] ∧ (k.dir e).waiting = []) → Does .retrainDone s fun t => (t.link l).state = 2)) ∧
    (k.state = 0 → k.rlimit ≠ 0 → k.rlimit.toNat < (k.dir r).winReplays → 0 < k.rate → Does .replayWindow s fun t =>
      (t.link l).state = 1 ∧ (t.link l).rate = k.rate - 1 ∧ (t.link l).ab.winReplays = 0 ∧ (t.link l).ba.winReplays = 0 ∧
      UnderWay t .retrainDone fun a => a.n = l) ∧
    (k.state = 0 → (∃ f ∈ (k.dir r).retry, 8 ≤ f.replays) → Does .flitReplayLimit s fun t =>
      (t.link l).state = 1 ∧ (t.link l).rate = k.rate ∧ (∀ f ∈ ((t.link l).dir r).retry, f.replays = 0) ∧ UnderWay t .retrainDone fun a => a.n = l)

/-- R403-R410: a peer's request is carried out in the order of its stamps, once each, and one that the target's entry does not let in is answered
with PAGE_INVALID; a load is served at the home, of a chained page at the tail, or for a copy at the member nearest to the hub; a proxy bogie carries an atomic out in host memory or sends it to the other module; an acknowledgement, or none within 10 ms,
ends a remote request; the failure of a station is told to the contexts that have a link handler. -/
def Obligations.ThePod : Prop :=
  ∀ (s : State),
    let a := s.arg
    let q := a.req
    let p : PeerReq := { module := a.m % 1024, die := a.h % 16, seq := BitVec.ofNat 32 a.n, ctx := a.c, req := q }
    (s.cutOff = false → s.peerHeld = [] →
      (p.seq = Tab.get s.nextSeq 0 p.series → ∀ va n sync, q.op = .load va n sync →
        (s.peerAdmits p = false → Does .peerIngress s fun t => t.peerHeld = [] ∧ Tab.get t.nextSeq 0 p.series = p.seq + 1 ∧
          t.peerOut = s.peerOut ++ [(p.module, peerId p, 0x09, 0)]) ∧
        (s.peerRefusal p = 0 → ∀ l, s.leaf q.ctx va = some l →
          let c := s.consist q.ctx l.place
          let d := if l.cls = 3 then (if sync = true then c.tail else (c.nearest s.hub).getD s.hub) else l.home va
          (l.cls = 3 → c.dies ≠ []) → Does .peerIngress s fun t =>
          t = State.post { s with peerHeld := [], nextSeq := Tab.put s.nextSeq p.series (p.seq + 1) } s.hub epUnit d q.ctx va 2 .loadFill
            { d := d, req := { id := peerId p, src := .peer p.module, ctx := q.ctx, op := .load va n sync }, n := 3 })) ∧
      (2 ^ 31 ≤ (p.seq - Tab.get s.nextSeq 0 p.series).toNat → Does .peerIngress s fun t => t = s)) ∧
    (∀ va n f x y ord, q.op = .atomic va n f x y ord .reg → Tab.get (s.die a.d).lanes [] (laneOf va) = [] →
      (region va = .peerWindow → Does .proxyAtomic s fun t =>
        Tab.get (t.die a.d).lanes [] (laneOf va) = [q] ∧ ∃ e, t.remote = s.remote ++ [e] ∧ e.req = q ∧ e.module = va / 2 ^ 46 % 1024) ∧
      (∀ l base, region va = .glob → s.leaf q.ctx va = some l → l.cls = 4 → Tab.find s.devices l.frame = some (.host base) →
        hostAtomic f n = true → Does .proxyAtomic s fun t =>
          let at_ := base + va % pageBytes l.size
          let old := natOfBytes (Tab.range s.hostMem unlisted at_ n)
          t.hostMem = Tab.setList s.hostMem unlisted at_ (bytesOfNat n (atomNew f n old x y)) ∧
          Tab.get (t.die a.d).lanes [] (laneOf va) = [] ∧ Answers s t a.d q (BitVec.ofNat 64 old) 0)) ∧
    (∀ e va n sync, s.remote = [e] → e.req.op = .load va n sync →
      (a.n = 0 → s.cutOff = false → Does .remoteAcknowledgement s fun t => t.remote = [] ∧ Answers s t e.die e.req a.val a.c) ∧
      (e.die = a.d → e.module = a.m → e.seq.toNat = a.n → Does .remoteTimeout s fun t => t.remote = [] ∧ Answers s t e.die e.req 0 0x10)) ∧
    (a.n < 16 → a.n ∉ s.stationsDown → Does .stationFail s fun t => t.stationsDown = s.stationsDown ++ [a.n] ∧
      ∀ c ≤ 192, Tab.get (s.ctx c).handlers 0 5 ≠ 0 → UnderWay t .raiseEvent fun b => b.c = c ∧ b.info.addr = BitVec.ofNat 64 (64 + a.n) ∧
        b.info.code = (if (List.range 16).all (fun j => j == a.n || s.stationsDown.contains j) = true then 0x31 else 0x30)) ∧
    (Does .stationReturn s fun t => a.n ∉ t.stationsDown ∧ (∀ j, j ≠ a.n → (j ∈ t.stationsDown ↔ j ∈ s.stationsDown)) ∧ t.agenda = s.agenda)

/-! ### Dispatchers, engines, contexts and queues -/

/-- R98, R107, R127, R129, R130, R184, R321-R327: a die that has no room for a release refuses it, and it is sent again no sooner than 1 µs later, in
its sender's order: one behind it that reaches the dispatcher first is refused too. One that it accepts is performed; one for a context that runs nothing is dropped and logged; one that passes every check enters the FIFO of its bogie at its
priority in the context's band. A forwarded release passes from one die's store to the other's, waits there while its context is Frozen, and is
dropped in Draining; held ones are checked again. The release that a bogie chooses is pushed: a frame with the registers of its record, on cleared
holdings; its entry stays until the matching verdict (the model's reading of R330, log 61).

R309, R311-R314: an update of a group waits for those of its clock, and the clock's are applied together: a decrement lowers its node's
counter, a node that reaches zero is announced, and one below zero is a group fault; a report completes its node. The event of a fault and the
done release follow the stores to the block, each of which follows the one before.
A ready node waits on the dies that have a share of it, at the home from the same clock on, and each issues its instances in turn as releases of
type 3, from the next clock on. -/
def Obligations.ReleasesAndGroups : Prop :=
  (∀ (s : State) (w : Vec) (g : Nat),
     let a := s.arg
     let d := a.d
     let r := a.rel.rel
     let x := s.die d
     let placed := fun (p : Pending) => { p with rel := { p.rel with prio := inBand s p.rel, named := some g }, d0 := dword w 0, place := .fifo g (inBand s p.rel), clock := s.clock }
     let lane := (7100 + d, senderKey a.rel.src)
     let again : Happening := { ev := .releaseResend, arg := { d := d, rel := a.rel }, due := s.clock + 1700, lane := some lane }
     ((x.hasRoom r.ctx = false ∨ s.refusedBefore lane = true) → Does .releaseAccept s fun t => t = s.add [again]) ∧
     (x.hasRoom r.ctx = false → Does .releaseResend s fun t => t = { s with agenda := again :: s.agenda }) ∧
     (∀ i ∈ [Instr.releaseAccept, .releaseResend],
       ((∀ p ∈ x.store, p.id ≠ s.uid) → x.hasRoom r.ctx = true → (i = .releaseAccept → s.refusedBefore lane = false) →
         let told := fun (t : State) => Answers s t d { id := a.rel.id, src := a.rel.src, ctx := r.ctx, op := .fence } 0 0
         ((s.ctx r.ctx).state = 0 → Does i s fun t =>
           (t.die d).store = x.store ∧ t.errlog = s.errlog ++ [{ code := 0x12, ctx := r.ctx }] ∧ told t) ∧
         (Admitted s r w g → dieOf g = d → Does i s fun t =>
           (t.die d).store = x.store ++ [placed { id := s.uid, rel := r
                                                  sender := if a.rel.agent then 1536 + r.record else senderRank a.rel.src r.record }] ∧
           UnderWay t .releaseEnqueuePush (fun b => b.g = g) ∧ told t))) ∧
     ((s.die a.h).store.any (fun p => p.id == a.n) = true → x.hasRoom r.ctx = true → (a.va = 1 ∨ s.refusedBefore (7000 + a.h, a.d) = false) →
       a.flag = true → a.h ≠ d → (∀ p ∈ x.store, p.id ≠ a.n) →
         let c := s.ctx r.ctx
         let prio := clampPrio c (c.kernel (bits a.val 15 0)).hdr r.type r.prio
         let here := fun (pl : Place) (o : Option Nat) => x.store ++ [{ id := a.n, rel := { r with prio := prio }, d0 := a.val, sender := a.m
                                                                        place := pl, clock := s.clock, order := o }]
         let gone := fun (t : State) => (t.die a.h).store = (s.die a.h).store.filter (fun p => p.id != a.n)
         (c.placing = true → (s.bogie a.g).closed = false → Does .releaseForward s fun t =>
           (t.die d).store = here (.fifo a.g prio) (if a.c = 0 then none else some (a.c - 1)) ∧ gone t ∧ UnderWay t .releaseEnqueuePush fun b => b.g = a.g) ∧
         (c.state = 5 → Does .releaseForward s fun t => (t.die d).store = here (.closed a.g) none ∧ gone t) ∧
         (c.state = 6 → Does .releaseForward s fun t => (t.die d).store = x.store ∧ gone t ∧ t.errlog = s.errlog ++ [{ code := 0x12, ctx := r.ctx }])) ∧
     ((s.die a.h).store.any (fun p => p.id == a.n) = true → x.hasRoom r.ctx = false → a.va = 0 → Does .releaseForward s fun t =>
       t = s.add [{ ev := .releaseForward, arg := { a with va := 1 }, due := s.clock + 1700, lane := some (7000 + a.h, a.d) }]) ∧
     (∀ p, x.store = [p] → p.place = .held → p.rel.ctx = a.c → Admitted s p.rel w g → dieOf g = d → Does .holdEnd s fun t =>
       (t.die d).store = [placed { p with order := some 0 }] ∧ UnderWay t .releaseEnqueuePush fun b => b.g = g) ∧
     (∀ p, let b := s.bogie a.g
       let k := (s.ctx p.rel.ctx).kernel (bits p.d0 15 0)
       b.awaitsTop = true → s.decision a.g = some p → p.rel.type = 1 → k.state = 1 → s.pushWaits p.rel = none → s.recordAt p.rel.ctx p.rel.record = some w →
       Does .releaseEnqueuePush s fun t => UnderWay t .triggerDelivery (fun c => c.g = a.g) ∧
         (t.die (dieOf a.g)).store = (s.die (dieOf a.g)).store.map (fun q => if q.id = p.id then { p with place := .pushed s.uid } else q) ∧
         (t.bogie a.g).phase = .waiting ∧
         ∃ f, (t.bogie a.g).stack = f :: b.stack ∧ f.uid = s.uid ∧ f.ctx = p.rel.ctx ∧ f.record = p.rel.record ∧ f.prio = p.rel.prio ∧ f.hdr = k.hdr ∧
           f.await = none ∧ f.claims = [] ∧ f.instret = 0 ∧
           f.cpu.pc = (if bit p.d0 32 = true then dword w 1 else BitVec.ofInt 64 ((k.hdr.addr : Int) + k.hdr.codeOff)) ∧
           f.getX 1 = dword w 2 ∧ f.getX 2 = dword w 3 ∧ f.getX 3 = dword w 4 ∧ f.getX 4 = dword w 5 ∧ f.getX 5 = p.rel.arg.setWidth 64 ∧
           f.getX 6 = BitVec.ofNat 64 p.rel.record ∧ (∀ n : BitVec 5, 7 < n.toNat → f.getX n = 0) ∧
           ∀ n < k.hdr.scratchUse, Tab.get (t.bogie a.g).scratch 0 (f.sbase + n) = 0)) ∧
  (∀ (s : State) (grp : Group) (m : GroupMsg) (slot i : Nat),
     let a := s.arg
     let d := a.d
     let x := s.die d
     let n := (grp.nodes[i]?).getD {}
     (∀ g u, a.m ≠ 2 → a.flag = false → a.req.src = .task g u → Does .groupUpdate s fun t =>
       (t.die d).groupIn = x.groupIn ++ [{ clock := s.clock, g := g, ctx := a.req.ctx, op := a.req.op }] ∧
       UnderWay t .groupUpdate (fun b => b.d = d ∧ b.flag = true) ∧ Answers s t d a.req 0 0) ∧
     (a.m ≠ 2 → a.flag = true → x.groupIn = [m] → m.clock < s.clock → grp.state = 1 → grp.done + 1 < grp.nodes.length →
       s.groupOf m.ctx (updateRef m.op) = some (d, slot, grp) → bits (updateRef m.op) 11 0 = i →
       (∀ h c, m.op = .gdec h c →
         (c ≤ n.pred → (c = n.pred → n.kernel ≠ 0xFFFF) → Does .groupUpdate s fun t =>
           Tab.find (t.die d).groups slot = some { grp with nodes := grp.nodes.set i { n with pred := n.pred - c } } ∧ t.errlog = s.errlog ∧
           (c = n.pred → (grp.portion i d).1 < (grp.portion i d).2 → UnderWay t .issueInstance (fun b => b.d = d ∧ b.flag = false) ∧
             ∃ e ∈ (t.die d).ready, e.home = d ∧ e.slot = slot ∧ e.node = i ∧ e.level = n.prio ∧ e.since = s.clock ∧ (e.next, e.last) = grp.portion i d)) ∧
         (n.pred < c → Does .groupUpdate s fun t => (∀ e, Tab.find (t.die d).groups slot = some e → e.state = 3) ∧
           ∃ w ∈ t.fwork, w.ctx = grp.ctx ∧ w.stores.map (·.1) = [grp.block + 16, grp.block + 13] ∧
             ∃ b ∈ w.after, b.ev = .raiseEvent ∧ b.arg.c = grp.ctx ∧ b.arg.info.code = 0x11 ∧ b.arg.info.record = grp.block ∧
               b.arg.info.extra = BitVec.ofNat 64 (i * 2 ^ 32 + 0xFFFFFFFF))) ∧
       (∀ inst, m.op = .notice (updateRef m.op) inst true false → n.pred = 0 → n.complete = false → n.left = 1 → n.succs = [] →
         Does .groupUpdate s fun t => t.errlog = s.errlog ∧ Tab.find (t.die d).groups slot =
           some { grp with nodes := grp.nodes.set i { n with left := 0, complete := true }, done := grp.done + 1 })) ∧
     (∀ v w, a.req.src = .firmware → a.req.id = w.id → w.id ≠ 0 → s.fwork = [w] →
       (w.stores = [] → Does .storePerformed s fun t => t.fwork = [] ∧ t = State.add { s with fwork := [] } w.after) ∧
       (∀ rest, w.stores = v :: rest → Does .storePerformed s fun t => t.fwork = [{ w with id := s.uid, stores := rest }])) ∧
     (a.m = 2 → s.readWaits a.c a.va = none → Does .groupUpdate s fun t =>
       UnderWay t .releaseAccept fun b => b.d = d ∧ b.rel.rel.type = 1 ∧ b.rel.rel.ctx = a.c ∧ b.rel.rel.record = a.va ∧
         b.rel.rel.prio = s.ownPrio a.c a.va) ∧
     (a.flag = true → Tab.find (s.die a.h).groups a.n = some grp → grp.state = 1 → a.m = i → Does .issueInstance s fun t =>
       UnderWay t .issueInstance (fun b => b.d = d ∧ b.flag = false) ∧ ∃ e : Ready, (t.die d).ready = x.ready ++ [e] ∧ e.home = a.h ∧ e.slot = a.n ∧
         e.node = i ∧ e.level = n.prio ∧ e.since = s.clock ∧ (e.next, e.last) = grp.portion i d) ∧
     (∀ e, a.flag = false → s.issuePending d = false → x.ready = [e] → e.since = s.clock → Does .issueInstance s fun t =>
       t = s.add [{ ev := .issueInstance, arg := { d := d }, due := s.clock + 1 }]) ∧
     (∀ e, a.flag = false → s.issuePending d = false → x.ready = [e] → e.since < s.clock → s.issuable d e = some grp → e.node = i → Does .issueInstance s fun t =>
       (t.die d).ready = (if e.next + 1 < e.last then [{ e with next := e.next + 1 }] else []) ∧
       Tab.find (t.die e.home).groups e.slot = some { grp with flight := Tab.put grp.flight d (Tab.get grp.flight 0 d + 1) } ∧
       UnderWay t .releaseAccept fun b => b.d = d ∧ b.rel.rel.type = 3 ∧ b.rel.rel.prio = n.prio ∧ b.rel.rel.ctx = grp.ctx ∧
         b.rel.rel.arg = BitVec.ofNat 32 e.next ∧ b.rel.rel.node = s.nodeRef e.home e.slot i))

/-- R221-R228, R231, R232, R236, R237: a copy command claims the next slot of its ring, at the home of the descriptor, writes the packet there and
kicks the hart; a full ring makes it wait. A hart that a kick reaches takes the next packet of its queue, reads source bytes, sends a delivery as
soon as its bytes are there, from its die's RDC or from the home, and completes the packet once they are applied: the successor is released, and
once that is performed the counts rise and the slot is emptied before rd rises. A completion record goes into the ring in the hart's turn, prod
rises by a release store behind it, and its wake is released behind that, with the count after the increment (the model's reading, log 69).

R234, R235: firmware restarts a stopped hart at its entry point, and its packet or command ends with COPY_FAULT and the code as its cause. A
collective or snapshot hart begins its next command at the entry point, once it holds the routine of the command's context, and drops the one that
has ended, once what it issued is performed (when a command ends, and that it begins with registers of zero, are the model's choices, logs 66 and
129); a new image and entry point are loaded between commands, and a load longer than a quantum goes on in the context's next. -/
def Obligations.CopyPacketsAndHarts : Prop :=
  (∀ (s : State) (w p : Vec) (r : CopyRun),
     let a := s.arg
     let d := a.d
     let h := a.h
     let x := s.hart d h
     (∀ desc l, a.req.op = .copy desc p → s.leaf a.req.ctx desc = some l → l.cls ≠ 3 → l.home desc = d → s.readWaits a.req.ctx desc = none →
       s.recordAt a.req.ctx desc = some w →
       let q := descOf w
       ((q.wr + 2 ^ 32 - q.rd) % 2 ^ 32 < 2 ^ q.log2n → s.restricting a.req.ctx (q.slotAt q.wr) = false → Does .copyAppend s fun t =>
         t.mem = ((s.storeNow a.req.src a.req.ctx (q.slotAt q.wr) (bytesOfNat 64 p.toNat)).storeNow a.req.src a.req.ctx (desc + 12)
           (bytesOfNat 4 (q.wr + 1))).mem ∧
         Reaches t .engineKick fun b => b.d = q.die ∧ b.h = q.hart ∧ b.c = a.req.ctx ∧ b.n = 0 ∧ b.m = 8 ∧
           b.val = BitVec.ofNat 64 desc ∧ b.req = a.req) ∧
       ((2 ^ q.log2n ≤ (q.wr + 2 ^ 32 - q.rd) % 2 ^ 32 ∨ s.restricting a.req.ctx (q.slotAt q.wr) = true) → Does .copyAppend s fun t =>
         t = s.add [{ ev := .copyAppend, arg := { d := d, req := a.req }, due := s.clock + 1 }])) ∧
     (a.n = 0 → a.m = 8 → d < 8 →
       (h < 16 → s.readWaits a.c a.val.toNat = none → s.recordAt a.c a.val.toNat = some w →
         (s.kickOk d h a.c (descOf w) = true → Does .engineKick s fun t => t.hart d h = x.give (a.c, a.val.toNat) ∧
           UnderWay t .copyPacketExecute (fun b => b.d = d ∧ b.h = h) ∧ Answers s t d a.req 0 0) ∧
         (s.kickOk d h a.c (descOf w) = false → Does .engineKick s fun t => t.hart d h = x ∧
           t.errlog = s.errlog ++ [{ code := 0, ctx := a.c, addr := a.val.toNat }])) ∧
       (∀ desc, 22 ≤ h → a.req.op = .copy desc p → Does .engineKick s fun t => t.hart d h = x ∧
         t.errlog = s.errlog ++ [{ code := 0, ctx := a.c, addr := a.val.toNat }]) ∧
       (16 ≤ h → h < 22 → Does .engineKick s fun t => t.hart d h = x.give (a.c, a.val.toNat) ∧
         UnderWay t .engineQuantum fun b => b.d = d ∧ b.h = h)) ∧
     (x.stopped = none → h < 16 →
       let again := fun (t : State) => UnderWay t .copyPacketExecute fun b => b.d = d ∧ b.h = h
       (∀ c desc q, x.run = none → x.work = [(c, desc)] → s.nextPacket c desc = some (q, p) →
         let new : CopyRun := { ctx := c, desc := desc, slot := q.rd % 2 ^ q.log2n, pkt := p, coach := q.die * 24 + q.coach, ch := q.ch }
         s.checkWaits new = none →
         (s.packetCheck new = none → Does .copyPacketExecute s fun t =>
           (t.hart d h).run = some new ∧ (t.hart d h).ctx = c ∧ (t.hart d h).state = 1 ∧ again t) ∧
         (∀ st cause, s.packetCheck new = some (st, cause) → Does .copyPacketExecute s fun t =>
           (t.hart d h).run = some (new.fail st cause 0) ∧ UnderWay t .copyCompletion fun b => b.d = d ∧ b.h = h)) ∧
       (x.run = some r → r.stage = 0 → r.asked = none → pKind r.pkt = 1 → pSpad r.pkt = false →
         let goal := min (pRow r.pkt - r.sent % pRow r.pkt) (64 - pDstAt r.pkt r.sent % 64)
         let va := pSrcAt r.pkt (r.sent + r.buf.length)
         let cached := (s.die d).rdcHit x.stamp x.written r.ctx va
         let takes := fun (t : State) (l : List Byte) (b : Bool) => (t.hart d h).run = some { r with
           buf := r.buf ++ l
           tainted := if b = true then some (r.tainted.getD (va / 64 * 64)) else r.tainted
           bad := r.bad ++ (if b = true then (List.range l.length).map (r.buf.length + ·) else []) }
         (∀ l b, r.buf.length < goal → s.copyRead d r.ctx va (goal - r.buf.length) = .bytes l b →
           (cached = none → Does .copyPacketExecute s fun t => takes t l b ∧ again t ∧ t.mem = s.mem) ∧
           (∀ e, cached = some e → Does .copyPacketExecute s fun t => again t ∧ t.mem = s.mem ∧
             (takes t l b ∨ takes t (((bytesOfNat 64 e.data.toNat).drop (va % 64)).take (min (goal - r.buf.length) (64 - va % 64))) e.poison))) ∧
         (∀ l, goal ≤ r.buf.length → r.tainted = none → s.copyTarget r.ctx (pDstAt r.pkt r.sent) = none →
           s.restricting r.ctx (pDstAt r.pkt r.sent) = false → region (pDstAt r.pkt r.sent) = .glob → s.leaf r.ctx (pDstAt r.pkt r.sent) = some l → l.cls ≠ 3 → l.cls ≠ 4 → l.home (pDstAt r.pkt r.sent) = d →
           Does .copyPacketExecute s fun t => again t ∧
             (t.hart d h).run = some { r with
               sent := r.sent + r.buf.length, buf := [], bad := [], stage := if r.sent + r.buf.length = pTotal r.pkt then 1 else 0,
               owed := r.owed ++ [{ id := s.uid, len := r.buf.length, addr := pDstAt r.pkt r.sent }] } ∧
             UnderWay t .homeStore fun b => b.d = d ∧ b.req.id = s.uid ∧ b.req.src = .hart d h ∧ b.req.ctx = r.ctx ∧
               b.req.op = .store (placed (pDstAt r.pkt r.sent) r.buf) false false none)) ∧
       (x.run = some r → r.stage = 0 → r.asked = none → pKind r.pkt = 1 → pSpad r.pkt = true → r.sent = 0 → r.tainted = none →
         min (pRow r.pkt) (64 - pDstAt r.pkt 0 % 64) ≤ r.buf.length → s.packetBound r = true → Does .copyPacketExecute s fun t =>
           (t.hart d h).run = some (r.fail 0x21 0 0)) ∧
       (x.run = some r → (r.stage = 3 ∨ r.stage = 5) → x.transit = [] → s.readWaits r.ctx r.desc = none → Does .copyPacketExecute s fun t =>
         (t.hart d h).run = some { r with stage := 4 } ∧ (t.hart d h).done = x.done + 1 ∧ again t ∧
         (s.recordAt r.ctx r.desc = some w → (t.hart d h).transit.map (·.op) =
           [.store (placed ((descOf w).base + 64 * r.slot) [0]) false false none,
            .store (placed (r.desc + 8) (bytesOfNat 4 ((descOf w).rd + 1))) true false none]) ∧
         Tab.get (t.coach r.coach).chPackets 0 r.ch = Tab.get (s.coach r.coach).chPackets 0 r.ch + 1 ∧
         (r.stage = 3 → ∀ e ∈ t.ringq, e ∈ s.ringq ∧ e.2.2 ≠ d * 22 + h)) ∧
       (x.run = some r → (r.stage = 3 ∨ r.stage = 5) → x.transit ≠ [] → Does .copyPacketExecute s fun t => t = s) ∧
       (x.run = some r → r.stage = 4 → x.transit = [] → Does .copyPacketExecute s fun t =>
         t.hart d h = { x with run := none } ∧ again t ∧ t.mem = s.mem)) ∧
     (x.run = some r → r.stage = 1 → r.owed = [] → pBar r.pkt = false → pRing r.pkt = false → r.status = 0 → x.transit = [] →
       Does .copyCompletion s fun t =>
       (t.hart d h).run = some { r with stage := 5 } ∧ (t.hart d h).done = x.done ∧ UnderWay t .copyPacketExecute (fun b => b.d = d ∧ b.h = h) ∧
       (pSucc r.pkt = false → (t.hart d h).transit = []) ∧
       (pSucc r.pkt = true → ∃ rel, (t.hart d h).transit.map (·.op) = [.release (some d) false rel] ∧ rel.type = 1 ∧ rel.ctx = r.ctx ∧
         rel.record = (dword r.pkt 5).toNat ∧ rel.arg = BitVec.ofNat 32 (256 * r.cause))) ∧
     (x.run = some r → r.stage = 2 → s.recordAt r.ctx (dword r.pkt 6).toNat = some w → s.readWaits r.ctx (dword r.pkt 6).toNat = none →
       let ring := (dword r.pkt 6).toNat
       let n := 2 ^ bits w 131 128
       let prod := bits w 95 64
       let turn := (s.ringq.find? fun q => q.1 == r.ctx && q.2.1 == ring).map (·.2.2)
       let full := n = (prod + 2 ^ 32 - bits w 127 96) % 2 ^ 32
       (turn ≠ some (d * 22 + h) → Does .completionRecordWrite s fun t => t = s) ∧
       (turn = some (d * 22 + h) → full → Does .completionRecordWrite s fun t =>
         t = s.add [{ ev := .completionRecordWrite, arg := { d := d, h := h }, due := s.clock + 1 }]) ∧
       (turn = some (d * 22 + h) → ¬ full → bits w 63 0 % 32 = 0 → x.transit = [] → Does .completionRecordWrite s fun t =>
         (t.hart d h).run = some { r with stage := 3 } ∧ ∃ wakes, (t.hart d h).transit.map (·.op) =
           [.store (placed (bits w 63 0 + 32 * (prod % n)) (bytesOfNat 32
              (r.status + r.cause * 2 ^ 8 + prod * 2 ^ 32 + r.slot * 2 ^ 64 + r.bytes * 2 ^ 128 + r.addr * 2 ^ 192))) false false none,
            .store (placed (ring + 8) (bytesOfNat 4 (prod + 1))) true false none] ++ wakes ∧
           (bits w 255 192 = 0 → wakes = []) ∧
           (bits w 255 192 ≠ 0 → ∃ rel, wakes = [.release none false rel] ∧ rel.type = 1 ∧ rel.ctx = r.ctx ∧ rel.record = bits w 255 192 ∧
             rel.arg = BitVec.ofNat 32 (prod + 1))))) ∧
  (∀ (s : State),
     let a := s.arg
     let d := a.d
     let h := a.h
     let x := s.hart d h
     (∀ c, x.stopped = some c → h < 16 → ∀ r, x.run = some r → r.stage ≤ 1 → r.status = 0 → r.owed = [] → Does .engineHartFault s fun t =>
       (t.hart d h).stopped = none ∧ (t.hart d h).cpu = { pc := x.entry } ∧ (t.hart d h).work = x.work ∧
       UnderWay t .copyCompletion (fun b => b.d = d ∧ b.h = h) ∧
       ∃ r', (t.hart d h).run = some r' ∧ r'.stage = 1 ∧ r'.status = 0x20 ∧ r'.cause = a.n) ∧
     (∀ c w rest, x.stopped = some c → 16 ≤ h → x.work = w :: rest → Does .engineHartFault s fun t =>
       (t.hart d h).stopped = none ∧ (t.hart d h).cpu = { pc := x.entry } ∧ (t.hart d h).work = rest ∧ (t.hart d h).done = x.done + 1 ∧
       (t.hart d h).state = 0 ∧ (t.hart d h).last = 0x20 + 256 * a.n ∧ t.errlog.getLast? = some { code := 0x20, ctx := w.1, addr := w.2 } ∧
       UnderWay t .engineQuantum fun b => b.d = d ∧ b.h = h) ∧
     (16 ≤ h → x.stopped = none → x.loading = none →
       (∀ c rec', x.work = [(c, rec')] → x.state = 0 →
         (x.loaded = some c → Does .engineQuantum s fun t =>
           (t.hart d h).ctx = c ∧ (t.hart d h).state = 1 ∧ (t.hart d h).cpu = { pc := x.entry } ∧ (t.hart d h).work = [(c, rec')]) ∧
         (x.loaded ≠ some c → x.transit = [] → x.await = none → Does .engineQuantum s fun t =>
           (t.hart d h).ctx = c ∧ (t.hart d h).state = 3 ∧ (t.hart d h).loading = some c ∧ (t.hart d h).work = [(c, rec')])) ∧
       (x.state = 1 → a.flag = true → (x.transit ≠ [] ∨ x.await ≠ none) → Does .engineQuantum s fun t =>
         t = s.add [{ ev := .engineQuantum, arg := { d := d, h := h, flag := true }, due := s.clock + 1 }]) ∧
       (∀ w, x.work = [w] → x.state = 1 → a.flag = true → x.transit = [] → x.await = none → Does .engineQuantum s fun t =>
         (t.hart d h).work = [] ∧ (t.hart d h).state = 0 ∧ (t.hart d h).done = x.done + 1 ∧ (t.hart d h).last = 0)) ∧
     (∀ c c' r r', 16 ≤ h → x.stopped = none → x.state = 3 → x.ctx = c → x.loading = some c → x.loaded = none → c' ≠ c →
       x.work = [(c, r), (c', r')] → x.turn + 85000 ≤ s.clock → x.transit = [] → x.await = none → Does .engineQuantum s fun t =>
         (t.hart d h).loading = some c' ∧ (t.hart d h).ctx = c' ∧ Tab.get (t.hart d h).parts [] c = x.image ∧
         (t.hart d h).image = Tab.get x.parts [] c') ∧
     (16 ≤ h → h < 22 →
       (a.m = 0 → x.state ≠ 1 → x.stopped = none → x.transit = [] → x.await = none → Does .microcodeLoad s fun t =>
         (t.hart d h).state = 3 ∧ (t.hart d h).loading = some a.c ∧ (t.hart d h).image = Tab.get x.parts [] a.c ∧
         UnderWay t .engineQuantum fun b => b.d = d ∧ b.h = h) ∧
       (a.m = 1 → x.state = 3 → Does .microcodeLoad s fun t =>
         ∀ k < 64, Tab.get (t.hart d h).image 0 (64 * a.n + k) = a.pkt.extractLsb' (8 * k) 8) ∧
       (∀ c, a.m = 2 → x.loading = some c → Does .microcodeLoad s fun t =>
         (t.hart d h).state = 0 ∧ (t.hart d h).loading = none ∧ (t.hart d h).loaded = some c ∧ (t.hart d h).ctx = c ∧ (t.hart d h).entry = a.val ∧ (t.hart d h).cpu = { pc := a.val } ∧
         UnderWay t .engineQuantum fun b => b.d = d ∧ b.h = h)))

/-- R96-R103, R106: the block's fields take a write in Created, and answer WRONG_STATE in another state; a nonzero command code starts its command.
Each command acts only in the states that its row names, and else leaves the state and answers BUSY or WRONG_STATE; ARM makes its checks in order
and loads the tables, and is in progress while it waits for a page that holds them; a code that the table does not hold answers BUSY too while
another command is in progress (the model's reading, log 123); ACTIVATE lets what waited go on; QUIESCE waits until nothing of the context is outstanding. -/
def Obligations.ContextCommands : Prop :=
  ∀ (s : State),
    let c := s.arg.c
    let x := s.ctx c
    let wrong := fun (i : Instr) => Does i s fun t => t = s.setCtx c { x with status := if x.busy = true then 1 else 2 }
    let ends := fun (n : Nat) => Does .arm s fun t => t = s.setCtx c { x with status := n, busy := false }
    let written := s.arg.n ≠ 2
    let goesOn := x.busy = true ∧ x.command = 2 ∧ s.arg.n = 2
    ((x.busy = true ∨ x.state ≠ 0 ∨ s.sys.locked = false) → wrong .create) ∧
    (written → (x.busy = true ∨ x.state ≠ 1) → wrong .arm) ∧ ((x.busy = true ∨ x.state ≠ 2) → wrong .activate) ∧
    ((x.busy = true ∨ x.state ≠ 3) → wrong .quiesce) ∧ (s.arg.n ≠ 6 → (x.busy = true ∨ x.state ≠ 5) → wrong .thaw) ∧
    ((x.busy = true ∨ (x.state ≠ 1 ∧ x.state ≠ 2 ∧ x.state ≠ 5)) → wrong .destroy) ∧ wrong .contextCommandInvalid ∧
    (x.busy = false → x.state = 0 → s.sys.locked = true → Does .create s fun t => t = s.setCtx c { state := 1 }) ∧
    (¬ written → ¬ (goesOn ∧ x.state = 1) → Does .arm s fun t => t = s) ∧
    ((x.busy = false ∧ written ∨ goesOn) → x.state = 1 →
      ((x.coaches = 0 ∨ s.presented x = false) → ends 3) ∧
      (x.coaches ≠ 0 → s.presented x = true →
        (s.coachConflict c = true → ends 4) ∧
        (s.coachConflict c = false → x.saveSize.toNat < 5242880 * x.coachList.length → ends 5) ∧
        (s.coachConflict c = false → 5242880 * x.coachList.length ≤ x.saveSize.toNat →
          (x.bandHigh < x.bandLow → ends 3) ∧
          (∀ d va, x.bandLow ≤ x.bandHigh → s.readRange c x.handlerBase.toNat 64 = .wait d va → Does .arm s fun t =>
            t.ctx c = { x with busy := true, command := 2 } ∧ UnderWay t .arm fun b => b.c = c ∧ b.n = 2) ∧
          (∀ hb cb h tb, x.bandLow ≤ x.bandHigh → s.readRange c x.handlerBase.toNat 64 = .ok hb → handlerTable hb = some h →
            s.readRange c x.ceilBase.toNat 512 = .ok cb → x.ceilTable cb = .ok tb → Does .arm s fun t => t = s.setCtx c
              { x with state := 2, status := 0, busy := false, handlers := h, ceilings := tb, seqs := [], outstanding := [], eventq := [], triggers := [],
                       sums := [], handlerNew := false })))) ∧
    (x.busy = false → x.state = 2 → Does .activate s fun t => (t.ctx c).state = 3 ∧ (t.ctx c).status = 0 ∧
      (∀ d < 8, UnderWay t .holdEnd fun b => b.d = d ∧ b.c = c) ∧ UnderWay t .mapperBind fun _ => True) ∧
    (x.busy = false → x.state = 3 → Does .quiesce s fun t => t.ctx c = { x with state := 4, busy := true, command := 4 } ∧
      UnderWay t .quiesceDrainDone fun b => b.c = c) ∧
    (x.state = 4 → x.freezing = false →
      (s.outstandingOf c = false → Does .quiesceDrainDone s fun t => t.ctx c = { x with state := 2, status := 0, busy := false }) ∧
      (s.outstandingOf c = true → Does .quiesceDrainDone s fun t => t.ctx c = x ∧ UnderWay t .quiesceDrainDone fun b => b.c = c)) ∧
    (c ≤ 192 → s.arg.m = 8 → ∀ i, 6 ≤ i → i ≤ 15 → s.arg.n = 8 * i →
      (x.state = 1 → Does .contextFieldWrite s fun t => (∀ j, j ≠ i → (t.ctx c).blockWord j = x.blockWord j) ∧ (t.ctx c).blockWord i = s.arg.val) ∧
      (x.state ≠ 1 → i ≠ 7 → x.blockWord i ≠ s.arg.val → Does .contextFieldWrite s fun t => t.ctx c = { x with status := 2 })) ∧
    (c ≤ 192 → x.state < 8 → x.bandLow < 16 → x.bandHigh < 16 → s.arg.n = 4 → s.arg.m = 1 → s.arg.val.toNat % 256 ≠ 0 →
      Does .contextFieldWrite s fun t => t = runCommand (s.arg.val.toNat % 256) c (s.setCtx c x))

/-- R104-R106, R271, R330: FREEZE of an Armed context is Frozen at once; of a running one it waits until every bogie stands at a boundary and nothing
issued is outstanding, of the copy queues no packet that is written, and saves every stack. THAW restores each stack onto its bogie, as it was
saved where no one has written to its save slot (what a slot holds is the model's choice, log 63), and lets what waited go on; it fails where a
coach has been retired with no spare left (R432). DESTROY and a function-level reset
begin a scrub and drop the context's releases, the reset ending every frame; the scrub leaves nothing of the context, and its number free. -/
def Obligations.ContextsFreezeAndThaw : Prop :=
  ∀ (s : State),
    let c := s.arg.c
    let x := s.ctx c
    let gone := fun (t : State) => (t.ctx c).state = 6 ∧ (t.ctx c).busy = true ∧ (∀ d, ∀ p ∈ (t.die d).store, p.rel.ctx ≠ c) ∧
      UnderWay t .scrubDone fun b => b.c = c
    (x.busy = false → x.state = 2 → Does .freeze s fun t => t = s.setCtx c { x with state := 5, status := 0 }) ∧
    (x.busy = false → (x.state = 3 ∨ x.state = 4) → Does .freeze s fun t => t.ctx c = { x with busy := true, command := 5 } ∧
      UnderWay t .freezeComplete fun b => b.c = c) ∧
    (x.freezing = true →
      ((s.issued c = true ∨ s.queued c s.packetsLeft = true ∨ ∃ g ∈ s.ctxBogies c, (s.bogie g).still = false) → Does .freezeComplete s fun t => t.ctx c = x ∧
        UnderWay t .freezeComplete fun b => b.c = c) ∧
      (s.issued c = false → s.queued c s.packetsLeft = false → (∀ g ∈ s.ctxBogies c, (s.bogie g).still = true) → Does .freezeComplete s fun t =>
        (t.ctx c).state = 5 ∧ (t.ctx c).busy = false ∧ (t.ctx c).status = 0 ∧
        ∀ g ∈ s.ctxBogies c, (t.bogie g).stack = [] ∧ ((s.bogie g).stack ≠ [] →
          ∃ v, Tab.find (t.ctx c).saved g = some v ∧ v.frames.map (·.frame) = (s.bogie g).stack ∧ v.scale = (s.bogie g).scale))) ∧
    (s.arg.n ≠ 6 → x.busy = false → x.state = 5 → s.presented x = true → x.lost = false → x.handlerNew = false → Does .thaw s fun t =>
      (t.ctx c).state = 3 ∧ (t.ctx c).thawing = true ∧ (t.ctx c).saved = x.saved ∧ UnderWay t .thawRestoreDone fun b => b.c = c) ∧
    (s.arg.n ≠ 6 → x.busy = false → x.state = 5 → (s.presented x = false ∨ x.lost = true) → Does .thaw s fun t => t = s.setCtx c { x with status := 3, busy := false }) ∧
    (∀ g v, x.thawing = true → x.saved = [(g, v)] → v.moved = false → v.streak < 3 → v.frames ≠ [] → s.slotAltered v = false → (s.bogie g).stack = [] → Does .thawRestoreDone s fun t =>
      (t.ctx c).state = 3 ∧ (t.ctx c).busy = false ∧ (t.ctx c).saved = [] ∧
      (t.bogie g).stack.map (fun f => (f.uid, f.cpu, f.v, f.k, f.prio)) = v.frames.map (fun y => (y.frame.uid, y.frame.cpu, y.frame.v, y.frame.k, y.frame.prio)) ∧
      UnderWay t .triggerDelivery (fun b => b.g = g) ∧ ∀ d < 8, UnderWay t .holdEnd fun b => b.d = d ∧ b.c = c) ∧
    (x.busy = false → (x.state = 1 ∨ x.state = 2 ∨ x.state = 5) → Does .destroy s gone) ∧
    (x.state ≠ 0 → x.state ≠ 6 → c ≤ 192 → Does .functionLevelReset s fun t => gone t ∧ (t.ctx c).saved = [] ∧
      ∀ g, ∀ f ∈ (t.bogie g).stack, f.ctx ≠ c) ∧
    (x.state = 6 → s.issued c = false → s.queued c (fun c desc => (s.nextPacket c desc).isSome) = false → Does .scrubDone s fun t =>
      (t.ctx c).state = 0 ∧ (t.ctx c).busy = false ∧ (t.ctx c).kernels = [] ∧ (t.ctx c).saved = [] ∧ (t.ctx c).handlers = [] ∧
      ∀ g, (∀ e ∈ (t.bogie g).l1, e.ctx ≠ c) ∧ ∀ e ∈ (t.bogie g).tlb, e.ctx ≠ c)

/-- R331-R335, R338, R341: enabling a queue, notifying it, binding the head of the FIFO to a free slot and reading its next packet, counting a packet
once the stores with which it retires are performed, and unbinding the queue, as after 16 packets, or at a WAIT, where others wait. One whose
descriptor is not well formed, or whose memory the host does not let F1 read (whether it does is free, log 87), is torn down and logged. A
queue torn down is Disabled at once, or Draining until its last fetch returns, be it one that waits for its page; so is every host queue of an invalidated PASID. The end of the last
live frame of a Draining kernel index installs the new header or empties the index, and the releases held for it are dispatched. -/
def Obligations.QueuesAreMapped : Prop :=
  ∀ (s : State),
    let a := s.arg
    let n := a.n
    let q := s.queue n
    let free := fun (s : State) => (List.range 32).find? fun i => (Tab.find s.slots i).isNone
    let torn := fun (t : State) (n : Nat) (q : Queue) => (t.queue n).point = {} ∧ (t.queue n).begun = none ∧ (t.queue n).queued = false ∧
      (q.fetching = false → s.fetchParked n = false → (t.queue n).state = 0 ∧ (t.queue n).slot = none) ∧
      ((q.fetching = true ∨ s.fetchParked n = true) → (t.queue n).state = 2 ∧ UnderWay t .lastFetchReturn fun b => b.n = n)
    (q.state = 0 → n < 1024 → Does .queueEnable s fun t => (t.queue n).state = 1 ∧ (t.queue n).retired = 0 ∧ (t.queue n).slot = none ∧
      (t.queue n).desc = q.desc ∧ (t.queue n).ctx = q.ctx) ∧
    (q.state ≠ 0 → Does .queueEnable s fun t => t = s) ∧
    (q.state = 1 → Does .queueTeardown s fun t => torn t n q) ∧
    (q.state ≠ 1 → Does .queueTeardown s fun t => t = s) ∧
    (∀ k p, s.queues = [(k, p)] → p.host = true → p.pasid = n → p.state = 1 → Does .pasidInvalidate s fun t => torn t k p) ∧
    (q.state = 2 → Does .lastFetchReturn s fun t => (t.queue n).state = 0 ∧ (t.queue n).fetching = false ∧ (t.queue n).slot = none) ∧
    (∀ k, k < 1024 → a.va = 8 * k → a.m ≠ 0 →
      let p := s.queue k
      (p.state ≠ 1 ∨ (a.c ≠ 0 ∧ p.ctx ≠ a.c) → Does .queueNotify s fun t =>
        t = State.answer { s with errlog := s.errlog ++ [{ code := 0, ctx := a.c, addr := k }] } s.hub a.req 0 0) ∧
      (p.state = 1 → (a.c = 0 ∨ p.ctx = a.c) →
        ((p.queued = true ∨ p.slot ≠ none ∨ p.notified = true) → Does .queueNotify s fun t => t = s.answer s.hub a.req 0 0) ∧
        (p.queued = false → p.slot = none → p.notified = false →
          ((s.ctx p.ctx).state = 3 → Does .queueNotify s fun t => ∃ u : State, t = u.answer s.hub a.req 0 0 ∧ u.notified = s.notified ++ [k] ∧
            (u.queue k).queued = true ∧ UnderWay u .mapperBind fun b => b.flag = false) ∧
          ((s.ctx p.ctx).state ≠ 3 → Does .queueNotify s fun t => ∃ u : State, t = u.answer s.hub a.req 0 0 ∧ u.waiting = s.waiting ++ [k] ∧
            (u.queue k).notified = true ∧ u.notified = s.notified)))) ∧
    (∀ k dl l ev rest i,
      let p := s.queue k
      let x := cmdDescOf (vecOf dl)
      let pkt := vecOf l
      (a.flag = true ∧ a.m ≠ 2 ∧ n = k ∧ p.slot = some i ∧ (p.retired < 16 ∨ s.notified = []) ∨ a.flag = false ∧ s.notified = k :: rest ∧ free s = some i) →
      p.state = 1 → p.fetching = false → p.begun = none → p.held = false → p.skips = 0 → p.point.list = none → s.inHand k = false →
      s.fetchParked k = false → (s.ctx p.ctx).state = 3 → (s.ctx p.ctx).freezing = false → s.queueRead p p.desc.toNat 64 = .ok dl →
      (x.bad = true ∨ (p.host = true ∧ s.draw.1 % 2 ≠ 0) → Does .mapperBind s fun t => torn t k p ∧
        t.errlog = s.errlog ++ [{ code := 0, ctx := p.ctx, addr := k }]) ∧
      (x.bad = false → (p.host = true → s.draw.1 % 2 = 0) → x.wr ≠ x.rd → s.queueRead p (x.slotAt x.rd) 64 = .ok l → bits pkt 7 0 ≠ 0 →
        packetStep pkt = some ev → Does .mapperBind s fun t => (t.queue k).slot = some i ∧ (t.queue k).fetching = true ∧
        (a.flag = false → Tab.find t.slots i = some k ∧ t.notified = rest) ∧
        UnderWay t ev fun b => b.n = k ∧ b.c = p.ctx ∧ b.pkt = pkt ∧ b.flag = false)) ∧
    (a.flag = true → a.m = 2 →
      (q.begun ≠ some 0 → Does .mapperBind s fun t => t = s) ∧
      (q.begun = some 0 → Does .mapperBind s fun t => (t.queue n).retired = q.retired + 1 ∧ (t.queue n).begun = none ∧ (t.queue n).held = false ∧
        (t.queue n).waitFrom = none ∧ (16 ≤ q.retired + 1 ∧ s.notified ≠ [] → t.agenda = s.agenda ++ [{ ev := .mapperUnbind, arg := { n := n } }]) ∧
        (¬(16 ≤ q.retired + 1 ∧ s.notified ≠ []) → t.agenda = s.agenda ++ [{ ev := .mapperBind, arg := { n := n, flag := true } }]))) ∧
    (∀ i, a.flag = true → a.m ≠ 2 → q.slot = some i → q.state = 1 → q.fetching = false → q.begun = none → q.held = false → s.inHand n = false →
      16 ≤ q.retired → s.notified ≠ [] → Does .mapperBind s fun t => t = s.add [{ ev := .mapperUnbind, arg := { n := n } }]) ∧
    (∀ i, q.slot = some i → q.state = 1 →
      (a.flag = false → s.notified ≠ [] → (16 ≤ q.retired ∨ q.waitFrom ≠ none) → q.begun = none → (q.held = true ∨ s.inHand n = false) →
        Does .mapperUnbind s fun t => t.notified = s.notified ++ [n] ∧ (t.queue n).queued = true ∧ (t.queue n).slot = none ∧
        (t.queue n).point = q.point ∧ Tab.find t.slots i = none ∧ UnderWay t .mapperBind fun b => b.flag = false) ∧
      (a.flag = false → q.held = true → (s.notified = [] ∨ q.retired < 16 ∧ q.waitFrom = none) → Does .mapperUnbind s fun t => t = s) ∧
      (∀ x, a.flag = true → s.cmdDesc q = some x → x.wr = x.rd → Does .mapperUnbind s fun t =>
        t.notified = s.notified ∧ (t.queue n).slot = none ∧ Tab.find t.slots i = none)) ∧
    (let k := (s.ctx a.c).kernel n;
      k.state = 2 → s.liveFrames a.c n = false → k.queue = 1024 → Does .kernelDrainEnd s fun t =>
        (∀ h, k.next = some h → (t.ctx a.c).kernel n = { state := 1, hdr := h, queue := 1024 }) ∧
        (k.next = none → ((t.ctx a.c).kernel n).state = 0) ∧ ∀ d < 8, UnderWay t .holdEnd fun b => b.d = d ∧ b.c = a.c)

/-- R99, R223, R319, R336-R340: the packets that F1 carries out. A packet with a reserved bit set retires MALFORMED. NOP retires; LAUNCH_TASK, COPY and
SIGNAL send one request and retire with its answer; a trigger's packet adds to its counter, where the additions of a clock count as one, and at the threshold carries the saved packet out, in ascending tag order
where several fire, and it retires once that has been evaluated; that an arming is evaluated before the sum of its own clock is the model's choice
(log 59). WAIT, which may load from a device page or another module (log 90) and is tried again a clock later (log 94), retires once its condition
holds, and TIMEOUT when it has waited too long since it was first executed; SKIP_IF skips the packets after it; JUMP, CALL and RETURN move the
execution point, and a list that cannot be read is a FAULT (log 88); SET_CEILINGS takes a table whole or not at all. -/
def Obligations.PacketsRetire : Prop :=
  (∀ (s : State),
    let a := s.arg
    let c := a.c
    let trig := fun (s : State) (tag : Nat) => Tab.get (s.ctx c).triggers {} tag
    let fired := fun (g : Trigger) (ev : Instr) => ({ ev := ev, arg := { c := c, n := g.queue, pkt := g.pkt, flag := true }, lane := some (7000, c) } : Happening)
    (∀ tag k l, a.m = 1 → tag < 256 → k < s.clock → l ≠ [] → (s.ctx c).sums = l.map (fun v => (tag, k, some v)) →
      let g := trig s tag
      let sum := g.counter + l.foldl (· + ·) 0
      let fires := g.armed = true ∧ g.threshold.toNat ≤ sum.toNat
      Does .signalTrigger s fun t => (t.ctx c).sums = [] ∧ (∀ u, u ≠ tag → trig t u = trig s u) ∧
        (fires → trig t tag = { g with counter := sum - g.threshold, armed := false } ∧
          ∀ ev, packetStep g.pkt = some ev → t.agenda = s.agenda ++ [fired g ev]) ∧
        (¬fires → trig t tag = { g with counter := sum } ∧ t.agenda = s.agenda)) ∧
    (∀ tag k, a.m = 1 → tag < 256 → k < s.clock → (s.ctx c).sums = [(tag, k, none)] →
      let g := trig s tag
      let fires := g.armed = true ∧ g.threshold.toNat ≤ g.counter.toNat
      Does .signalTrigger s fun t => (t.ctx c).sums = [] ∧ (∀ u, u ≠ tag → trig t u = trig s u) ∧
        (fires → trig t tag = { g with counter := g.counter - g.threshold, armed := false } ∧
          ∀ ev, packetStep g.pkt = some ev → t.agenda = s.agenda ++ [fired g ev]) ∧
        (¬fires → trig t tag = g ∧ t.agenda = s.agenda)) ∧
    (∀ i j k v w ei ej, a.m = 1 → i < j → j < 256 → k < s.clock → (s.ctx c).sums = [(j, k, some v), (i, k, some w)] →
      (trig s i).armed = true → (trig s i).threshold.toNat ≤ ((trig s i).counter + w).toNat → packetStep (trig s i).pkt = some ei →
      (trig s j).armed = true → (trig s j).threshold.toNat ≤ ((trig s j).counter + v).toNat → packetStep (trig s j).pkt = some ej →
      Does .signalTrigger s fun t => t.agenda = s.agenda ++ [fired (trig s i) ei, fired (trig s j) ej])) ∧
  ∀ (s : State) (x : CmdDesc), InRing s x →
    let a := s.arg
    let c := a.c
    let p := a.pkt
    let q := s.queue a.n
    let d := dword p
    let at_ := (d 1).toNat
    let retires := fun (i : Instr) (status cause : Nat) => Does i s (Retires s x status cause)
    let goes := fun (t : State) => t.hostMem = s.hostMem ∧ (t.queue a.n).retired = q.retired ∧
      (∃ h ∈ t.agenda, h.ev = .signalTrigger ∧ h.arg.c = c ∧ h.arg.m = 1 ∧ h.due = s.clock + 1) ∧
      ∃ h ∈ t.agenda, h.ev = .signalTrigger ∧ h.arg = { a with m := 2 } ∧ h.due = s.clock + 1
    (∀ i ∈ [Instr.nop, .launchTask, .queueCopy, .signalStore, .signalAdd, .signalTrigger, .wait, .skipIf, .jump, .call, .returnList, .armTrigger,
      .snapshotCut, .setCeilings], bits p 63 8 ≠ 0 → (i = .nop → a.m ≠ 2) → (i = .signalTrigger → a.m ≠ 1 ∧ a.m ≠ 2) → retires i 2 0) ∧
    (a.m ≠ 2 → fieldsOk p [] = true → retires .nop 1 0) ∧ (a.m = 2 → retires .nop a.h a.d) ∧
    (fieldsOk p [m64, 0xF1FFFFFFFFF] = true → at_ % 64 = 0 → bits (d 2) 43 40 ≤ 7 →
      (∀ prio, ((bit (d 2) 36 = true ∧ prio = bits (d 2) 35 32) ∨ (bit (d 2) 36 = false ∧
          ((∃ l, s.readRange c at_ 64 = .ok l ∧ prio = bits (dword (vecOf l) 0) 19 16) ∨
            (∃ code va, s.readRange c at_ 64 = .bad code va ∧ code ≠ 0x10 ∧ prio = 0)))) →
        Does .launchTask s (Begins s c at_ (bits (d 2) 43 40) 2 .releaseAccept
          { d := bits (d 2) 43 40, rel := { id := s.uid, src := .firmware, rel := { type := 1, prio := prio, ctx := c, arg := (d 2).setWidth 32, record := at_ } } })) ∧
      (∀ va, bit (d 2) 36 = false → s.readRange c at_ 64 = .bad 0x10 va → retires .launchTask 4 0x10)) ∧
    (∀ l, fieldsOk p [m64, m64] = true → at_ % 64 = 0 → (d 2).toNat % 64 = 0 → region at_ = .glob → s.restricting c at_ = false → s.copyTarget c at_ = none →
      s.readRange c (d 2).toNat 64 = .ok l → Does .queueCopy s (Begins s c at_ (s.homeOr c at_ 0) 5 .copyAppend
        { d := s.homeOr c at_ 0, req := { id := s.uid, src := .firmware, ctx := c, op := .copy at_ (vecOf l) } })) ∧
    (∀ l, fieldsOk p [m64, m64, 3] = true → at_ % 8 = 0 → region at_ = .glob → s.restricting c at_ = false → s.copyTarget c at_ = none → s.leaf c at_ = some l → l.cls ≠ 3 → l.cls ≠ 4 →
      let bytes := placed at_ (bytesOfNat 8 (d 2).toNat)
      (bits (d 3) 1 0 = 0 → Does .signalStore s (Begins s c at_ (l.home at_) (writeSlots bytes) .homeStore
        { d := l.home at_, req := { id := s.uid, src := .firmware, ctx := c, op := .store bytes true false none } })) ∧
      (bits (d 3) 1 0 ≠ 0 → retires .signalStore 2 0) ∧
      Does .signalAdd s (Begins s c at_ (l.home at_) 2 .atomicExecute
        { d := l.home at_, req := { id := s.uid, src := .firmware, ctx := c, op := .atomic at_ 8 (.int 0) (d 2) 0 2 .reg } })) ∧
    (fieldsOk p [0xFF, m64, 3] = true → a.m ≠ 1 → a.m ≠ 2 → Does .signalTrigger s fun t => goes t ∧
        (t.ctx c).sums = (s.ctx c).sums ++ [(at_, s.clock, some (d 2))] ∧ (t.ctx c).triggers = (s.ctx c).triggers) ∧
    (a.m = 2 → Does .signalTrigger s (Retires (s.sumTriggers c) x 1 0)) ∧
    (∀ l, fieldsOk p [m64, 0xFF, m64] = true → d 3 ≠ 0 → s.readRange c at_ 64 = .ok l → 2 ≤ bits (vecOf l) 7 0 → bits (vecOf l) 7 0 ≤ 5 →
      let tag := bits (d 2) 7 0
      let g := Tab.get (s.ctx c).triggers {} tag
      let armed := (s.ctx c).sums.any fun e => e.1 == tag && e.2.2.isNone
      let fires := g.armed = true ∧ g.threshold.toNat ≤ g.counter.toNat
      (∀ e ∈ (s.ctx c).sums, s.clock ≤ e.2.1) → Does .armTrigger s fun t => goes t ∧
        (t.ctx c).sums = (s.ctx c).sums ++ [(tag, s.clock, none)] ∧
        (armed = false ∨ ¬fires → Tab.get (t.ctx c).triggers {} tag = { g with armed := true, threshold := d 3, pkt := vecOf l, queue := a.n }) ∧
        (armed = true → fires →
          Tab.get (t.ctx c).triggers {} tag = { counter := g.counter - g.threshold, armed := true, threshold := d 3, pkt := vecOf l, queue := a.n } ∧
          ∀ ev, packetStep g.pkt = some ev → UnderWay t ev fun b => b = { c := c, n := g.queue, pkt := g.pkt, flag := true })) ∧
    (bits (d 3) 2 0 ≤ 5 → at_ % 8 = 0 → fieldsOk p [m64, m64, 7, m64] = true →
      (a.m = 0 → q.waitFrom = none → region at_ = .peerWindow → bit (peerEntry s c at_) 0 = true → bit (peerEntry s c at_) 1 = true → Does .wait s fun t =>
        UnderWay t .wait (fun b => b = { a with m := s.uid }) ∧ (t.queue a.n).waitFrom = some s.clock ∧
        (d 4 ≠ 0 → UnderWay t .waitTimeout fun b => b.n = a.n ∧ b.m = s.clock) ∧ ∃ e ∈ t.remote, e.req.id = s.uid ∧ e.req.op = .load at_ 8 true) ∧
      (∀ k, a.m ≠ 0 → Tab.find s.answers a.m = none → q.waitFrom = some k → d 4 ≠ 0 → k + (d 4).toNat * 1700 ≤ s.clock → retires .wait 6 0) ∧
      (∀ v, a.m ≠ 0 → Tab.find s.answers a.m = some (v, 0) → condHolds (bits (d 3) 2 0) v (d 2) = true → retires .wait 1 0) ∧
      (∀ v code, a.m ≠ 0 → code ≠ 0 → s.inHand a.n = false → Tab.find s.answers a.m = some (v, code) → retires .wait 4 code)) ∧
    (∀ l, bits (d 3) 2 0 ≤ 5 → at_ % 8 = 0 → a.m = 0 → s.hubLoad c at_ = .ok l →
      let holds := condHolds (bits (d 3) 2 0) (BitVec.ofNat 64 (natOfBytes l)) (d 2)
      (fieldsOk p [m64, m64, 7, m64] = true → (holds = true → retires .wait 1 0) ∧
        (holds = false → q.waitFrom = none → d 4 ≠ 0 → Does .wait s fun t => (t.queue a.n).waitFrom = some s.clock ∧
          UnderWay t .waitTimeout (fun b => b.n = a.n ∧ b.m = s.clock) ∧ UnderWay t .wait fun b => b = a) ∧
        (∀ k, holds = false → q.waitFrom = some k → d 4 ≠ 0 → k + (d 4).toNat * 1700 ≤ s.clock → retires .wait 6 0)) ∧
      (fieldsOk p [m64, m64, 0xFFFF0007, m64] = true →
        (holds = true → Does .skipIf s fun t => Retires s x 1 0 t ∧ (t.queue a.n).skips = bits (d 3) 31 16) ∧
        (holds = false → Does .skipIf s fun t => Retires s x 1 0 t ∧ (t.queue a.n).skips = q.skips))) ∧
    (q.waitFrom = some a.m → q.slot ≠ none → (∃ h ∈ s.agenda, h.ev = .wait ∧ packetOf a.n h = true) → Does .waitTimeout s fun t =>
      Retires s x 6 0 t ∧ ∀ h ∈ t.agenda, ¬(h.ev = .wait ∧ packetOf a.n h = true)) ∧
    (∀ i ∈ [Instr.jump, .call], ∀ code, fieldsOk p [m64] = true → at_ % 64 = 0 → s.restricting c at_ = false → s.listFault c at_ = some code →
      retires i 4 code) ∧
    (∀ i ∈ [Instr.jump, .call], fieldsOk p [m64] = true → at_ % 64 = 0 → s.restricting c at_ = false → s.listFault c at_ = none → Does i s fun t =>
      (t.queue a.n).point = { list := some at_, stack := [], ret := (x.rd + 1) % 2 ^ 32 } ∧ (t.queue a.n).retired = q.retired ∧ t.hostMem = s.hostMem ∧
      UnderWay t .mapperBind fun b => b.n = a.n ∧ b.flag = true) ∧
    (fieldsOk p [] = true → retires .returnList 2 0) ∧
    (∀ l, fieldsOk p [m64] = true → at_ % 512 = 0 → s.readRange c at_ 512 = .ok l →
      (∀ tb, (s.ctx c).ceilTable l = .ok tb → Does .setCeilings s fun t => Retires s x 1 0 t ∧ t.ctx c = { s.ctx c with ceilings := tb }) ∧
      (∀ e, (s.ctx c).ceilTable l = .error e → Does .setCeilings s fun t => Retires s x 3 (e + 1) t ∧ t.ctx c = s.ctx c))

/-- R108-R112, R306-R308, R313, R339, R412, R413: registering a kernel takes its header once the checks pass, or holds the packet while live frames of
the index remain; a group whose block and table pass the checks is launched in the lowest free slot of its home, and one that fails a check after
the first is marked Rejected; a packet that stores retires once its stores are performed. A list's RETURN goes back to its
caller, and from the outermost list retires the ring packet that entered it; a snapshot is Armed, or refused where the feature is not accepted or a
hart of the context has already called the step; a field outside its range is MALFORMED (log 82).

R414-R420: the cut waits for its conditions, raises the epoch, fixes the units of the image and is taken by every die; then the held steps are
answered and the units drained by both snapshot harts of each die, 64 bytes at a time, each a write to the storage window; when all are drained and
acknowledged the header is written (that the dies take the cut one by one and that the header's zero bytes precede the rest is log 83),
then the completion record, and the context hears SNAPSHOT_DONE. -/
def Obligations.PacketsRegisterLaunchAndCut : Prop :=
  (∀ (s : State) (x : CmdDesc),
     let a := s.arg
     let c := a.c
     let p := a.pkt
     let q := s.queue a.n
     let d := dword p
     let ends := fun (t : State) (status cause : Nat) => (t.queue a.n).begun = some 0 ∧ (t.queue a.n).retired = q.retired ∧
       ∃ y ∈ t.fwork, y.ctx = c ∧ y.id = s.uid ∧ y.stores = [] ∧ y.after = [{ ev := .nop, arg := { a with m := 2, h := status, d := cause } }]
     (InRing s x → a.m ≠ 1 →
       let k := (d 1).toNat
       let addr := (d 2).toNat
       let old := (s.ctx c).kernel k
       (fieldsOk p [0xFFF, m64] = true →
         ((s.ctx c).kernelCount ≤ k → Does .registerKernel s (Retires s x 3 1)) ∧
         (k < (s.ctx c).kernelCount →
           (old.state = 0 → addr = 0 → Does .registerKernel s (Retires s x 1 0)) ∧
           (old.state = 1 → addr = 0 → s.liveFrames c k = true → Does .registerKernel s fun t =>
             (t.ctx c).kernel k = { old with state := 2, next := none, queue := a.n } ∧ (t.queue a.n).held = true ∧
             UnderWay t .registerKernel fun b => b.n = a.n ∧ b.m = 1) ∧
           (∀ l, addr ≠ 0 → addr % 64 = 0 → s.mapped c addr 64 (fun l => l.rd && l.cls != 4) = true → s.readRange c addr 64 = .ok l →
             let h := headerOf addr (vecOf l)
             0 ≤ (addr : Int) + h.codeOff → s.mapped c h.codeStart (4 * h.words) (fun l => l.rd && l.x && l.cls != 4) = true →
             (∀ n, old.state ≠ 2 → (s.ctx c).headerCheck (vecOf l) h = some n → Does .registerKernel s (Retires s x 3 n)) ∧
             (old.state = 0 → (s.ctx c).headerCheck (vecOf l) h = none → Does .registerKernel s fun t =>
               ends t 1 0 ∧ (t.ctx c).kernel k = { state := 1, hdr := h, queue := 1024 } ∧
               ∃ u : State, t = u.fwSend s.uid c ((s.ctx c).kernelBase.toNat + 8 * k) (bytesOfNat 8 (addr % 2 ^ 56 + 1))))))) ∧
     (InRing s x → fieldsOk p [m64, m64] = true → ∀ l tb,
       let block := (d 1).toNat
       let w := vecOf l
       let table := bits w 63 0
       let n := bits w 76 64
       let rows := (List.range n).map fun i => vecOf ((tb.drop (64 * i)).take 64)
       let weights := weightsOf (d 2)
       let grp : Group := { ctx := c, block := block, table := table, nodes := rows.map nodeOf, limit := bits w 127 112, weights := weights, args := [dword w 3, dword w 4, dword w 5, dword w 6], last := (dword w 7).toNat }
       let rejected := fun (check : Nat) => Does .launchGroup s fun t => ends t 3 check ∧
         ∃ u : State, t = u.fwSend s.uid c (block + 13) [BitVec.ofNat 8 (bits w 107 104 + 64)]
       block % 64 = 0 → s.mapped c block 64 (fun l => l.rd && l.w && l.cls != 4 && l.cls != 5) = true → s.readRange c block 64 = .ok l →
       (bits w 111 108 = 1 → Does .launchGroup s (Retires s x 3 1)) ∧
       (bits w 111 108 ≠ 1 → table % 64 ≠ 0 → rejected 2) ∧
       (bits w 111 108 ≠ 1 → table % 64 = 0 → s.mapped c table (64 * n) (fun l => l.rd && l.cls != 4) = true →
         (bits w 107 77 ≠ 0 ∨ n = 0 ∨ 4096 < n) → rejected 3) ∧
       (bits w 111 108 ≠ 1 → table % 64 = 0 → s.mapped c table (64 * n) (fun l => l.rd && l.cls != 4) = true → bits w 107 77 = 0 → 0 < n → n ≤ 4096 →
         s.readRange c table (64 * n) = .ok tb → (∀ v ∈ rows, nodeOk v n = true) → (∃ v ∈ rows, bits v 55 44 = 0) →
         (weights.sum = 0 → rejected 6) ∧
         (∀ slot, weights.sum ≠ 0 → (∀ e < 8, (weights[e]?).getD 0 ≠ 0 → s.dieOfCtx (s.ctx c) e = true) →
           (∀ e ∈ s.dies, ∀ g ∈ e.2.groups, ¬(g.2.ctx = c ∧ g.2.table = table)) → (∀ v ∈ rows, bits v 15 0 ≠ 0xFFFF) →
           (((s.die grp.homeDie).groups.map fun e => e.2.nodes.length).sum + n ≤ 16384) →
           ((List.range 256).find? fun i => (Tab.find (s.die grp.homeDie).groups i).isNone) = some slot →
           Does .launchGroup s fun t => ends t 1 0 ∧ Tab.find (t.die grp.homeDie).groups slot = some grp))) ∧
     (∀ e, a.flag = false → q.state = 1 → q.host = true → q.point.list = some e → s.cmdDesc q = some x → s.notified = [] → fieldsOk p [] = true →
       (∀ r rest, q.point.stack = r :: rest → Does .returnList s fun t =>
         (t.queue a.n).point = { q.point with list := some r, stack := rest } ∧ (t.queue a.n).retired = q.retired + 1) ∧
       (q.point.stack = [] → Does .returnList s fun t => (t.queue a.n).point = {} ∧
         Retires (s.setQueue a.n { q with point := {}, retired := q.retired + 1 }) x 1 0 t)) ∧
     (InRing s x → fieldsOk p [0xFFFFFFFF, m64, 0xFFFFFFFF, m64, m64, 0x7F] = true →
       let base := (d 2).toNat
       let n := (d 6).toNat
       let good := 1 ≤ n ∧ n ≤ 64 ∧ base % 4096 = 0 ∧ (d 4).toNat % 64 = 0 ∧ (d 5).toNat % 16 = 0
       (¬ good → Does .snapshotCut s (Retires s x 2 0)) ∧
       (good → s.tableWaits c (d 5).toNat n = none → bit s.sys.accept 2 = false → Does .snapshotCut s (Retires s x 3 2)) ∧
       (∀ e ∈ collectiveHarts, ∀ y, good → s.tableWaits c (d 5).toNat n = none → bit s.sys.accept 2 = true →
         Tab.find (s.hart e.1 e.2).entered c = some y → atOrAfter y ((d 1).setWidth 32) = true → Does .snapshotCut s (Retires s x 3 1)) ∧
       (∀ l, good → s.tableWaits c (d 5).toNat n = none → bit s.sys.accept 2 = true →
         (∀ e ∈ collectiveHarts, (s.hart e.1 e.2).asking = none ∧
           ∀ y, Tab.find (s.hart e.1 e.2).entered c = some y → atOrAfter y ((d 1).setWidth 32) = false) → (s.ctx c).snap.state = 0 → s.regionTable c (d 5).toNat (d 6).toNat = some l →
         region base = .peerWindow → bit (peerEntry s c base) 0 = true → bit (peerEntry s c base) 2 = true → s.mappedWritable c (d 4).toNat = true →
         Does .snapshotCut s fun t => Retires s x 1 0 t ∧ UnderWay t .snapshotCutTaken (fun b => b.c = c ∧ b.m = 0) ∧
           (t.ctx c).snap = { state := 1, step := (d 1).setWidth 32, base := base, cap := (d 3).toNat, record := (d 4).toNat, regions := l }))) ∧
  (∀ (s : State),
     let a := s.arg
     let c := a.c
     let x := s.ctx c
     let sn := x.snap
     (a.m = 0 → sn.state = 1 →
       (s.cutNow c = true → Does .snapshotCutTaken s fun t => (t.ctx c).epoch = x.epoch + 1 ∧ (t.ctx c).snap.state = 2 ∧
         (t.ctx c).snap.cutCycle = s.clock ∧ (t.ctx c).snap.units = s.unitsOf c sn.regions ∧
         ∀ d < 8, UnderWay t .snapshotCutTaken fun b => b.c = c ∧ b.d = d ∧ b.m = 1) ∧
       (s.cutNow c = false → Does .snapshotCutTaken s fun t => t = s.add [{ ev := .snapshotCutTaken, arg := { c := c }, due := s.clock + 1 }])) ∧
     (a.m = 1 → sn.state = 2 → a.d ∉ sn.advanced →
       (sn.advanced.length < 7 → Does .snapshotCutTaken s fun t => t = s.setSnap c { sn with advanced := sn.advanced ++ [a.d] }) ∧
       (7 ≤ sn.advanced.length → Does .snapshotCutTaken s fun t => (t.ctx c).snap = { sn with advanced := sn.advanced ++ [a.d] } ∧
         (∀ i < 16, UnderWay t .drainUnit fun b => b.c = c ∧ b.d = i / 2 ∧ b.h = 20 + i % 2) ∧ UnderWay t .snapshotDone fun b => b.c = c)) ∧
     (∀ u, sn.state = 2 → 8 ≤ sn.advanced.length → sn.cap = 0 → s.nextUnit c a.d a.h = some u → u.next < 1024 →
       let k := u.number.getD (sn.units.filter fun y => y.number.isSome).length
       let va := sn.base + (4096 + k * 65792 + (256 + 64 * u.next))
       let line := s.unitLine c u u.next
       va / 2 ^ 46 = sn.base / 2 ^ 46 → va < 2 ^ 64 → Does .drainUnit s fun t =>
         (∃ e, t.remote = s.remote ++ [e] ∧ e.va = va ∧ e.req.id = s.uid ∧ e.req.src = .hart a.d a.h ∧
           e.req.op = .store (placed va (if line.2 = true then List.replicate 64 0 else line.1)) false false none) ∧
         (∃ u' ∈ (t.ctx c).snap.units, u'.va = u.va ∧ u'.next = u.next + 1 ∧ u'.number = some k ∧ u'.hart = a.h ∧ u'.bad = (if line.2 = true then u.bad ++ [u.next] else u.bad)) ∧
         (s.uid, k) ∈ (t.ctx c).snap.owed ∧ UnderWay t .drainUnit fun b => b.c = c ∧ b.d = a.d ∧ b.h = a.h) ∧
     (sn.state = 2 → 8 ≤ sn.advanced.length → (∀ u ∈ sn.units, u.state = 2) →
       (sn.stage = 65 → (∃ v, Tab.find s.answers a.n = some v) → Does .snapshotDone s fun t => (t.ctx c).snap = {} ∧
         UnderWay t .raiseEvent fun b => b.c = c ∧ b.info.code = 0x40 ∧ b.info.addr = BitVec.ofNat 64 sn.record ∧ b.info.extra = sn.step.setWidth 64) ∧
       (sn.stage = 64 → sn.owed = [] → Does .snapshotDone s fun t => (t.ctx c).snap = { sn with stage := 65 } ∧
         UnderWay t .snapshotDone fun b => b.c = c ∧ b.n = s.uid) ∧
       (sn.stage < 64 → sn.owed = [] → sn.cap = 0 →
         let va := sn.base + if sn.stage = 63 then 0 else 64 * (sn.stage + 1)
         va / 2 ^ 46 = sn.base / 2 ^ 46 → va < 2 ^ 64 → Does .snapshotDone s fun t => (t.ctx c).snap.stage = sn.stage + 1 ∧
           (t.ctx c).snap.doneCycle = (if sn.doneCycle = 0 then s.clock else sn.doneCycle) ∧
           ∃ e, t.remote = s.remote ++ [e] ∧ e.va = va ∧ ∃ bytes, e.req.op = .store (placed va bytes) false false none ∧
             (sn.stage < 63 → bytes = List.replicate 64 0))))

/-- R354-R357: a request that breaks a rule of its fields, or that its pages forbid, is rejected in its done doubleword, an address of the request's
context (log 26). UNMAP and PROTECT drop the
page's translations at once and wait for every agent that may still hold one; the last acknowledgement rewrites the leaf and reports the outcome.
MIGRATE marks the leaf, copies the frame to a free one of the target and names it in the leaf. -/
def Obligations.PagesChange : Prop :=
  ∀ (s : State) (kind : Nat) (i : Instr), (kind, i) ∈ [(1, Instr.unmap), (2, .protect), (3, .migrate)] →
    let a := s.arg
    let r : BitVec 256 := a.pkt.setWidth 256
    let c := bits r 23 16
    let rejected := Does i s fun t => t = s.writeDone r 2
    (requestFields r kind = false → rejected) ∧
    (∀ l, requestFields r kind = true → s.pagesOf c (bits r 191 128) (bits r 127 96) (bits r 127 96 + 1) = l →
      (l = none → rejected) ∧
      (∀ e, l = some [e] →
        ((pageForbids kind (r.extractLsb' 9 3) e.2 = true ∨ s.underChange c [e] = true) → rejected) ∧
        (∀ s', pageForbids kind (r.extractLsb' 9 3) e.2 = false → s.underChange c [e] = false → s.breaking c e.1 = false →
          ((s.ctx c).snap.state ≠ 2 ∨ 8 ≤ (s.ctx c).snap.advanced.length) → s.saveUnits c e = some s' →
          Does i s fun t =>
            (∃ o ∈ t.pageOps, o.kind = kind ∧ o.ctx = c ∧ o.page = e.1 ∧ o.size = e.2.size ∧ o.done = bits r 255 192) ∧
            (kind ≠ 3 → (∀ g, ∀ y ∈ (t.bogie g).tlb, ¬(y.ctx = c ∧ y.page = e.1)) ∧
              (∀ d, ∀ y ∈ (t.die d).trans, ¬(y.ctx = c ∧ y.page = e.1)) ∧
              UnderWay t .invalidateAck fun b => b.c = c ∧ b.va = e.1 ∧ b.n = kind) ∧
            (kind = 3 → t.mem = (s'.writeLeaf e.2.key ({ e.2 with migr := true }.word true)).mem ∧
              UnderWay t .migrateCopyDone fun b => b.c = c ∧ b.va = e.1)))) ∧
    (∀ o, s.pageOps = [o] → o.kind = kind → o.ctx = a.c → o.page = a.va → a.n = kind → a.flag = true →
      s.busyBefore a.g o.ctx o.page (pageBytes o.size) a.val.toNat = false →
      (o.owed.filter (fun g => g != a.g) ≠ [] → Does .invalidateAck s fun t =>
        t = { s with pageOps := [{ o with owed := o.owed.filter fun g => g != a.g }] }) ∧
      (∀ l, o.owed.filter (fun g => g != a.g) = [] → s.leaf o.ctx o.page = some l → (s.ctx o.ctx).snap.state = 2 →
        (s.ctx o.ctx).snap.advanced.length < 8 → Does .invalidateAck s fun t =>
          t.pageOps = [{ o with owed := [] }] ∧ t.mem = s.mem ∧ UnderWay t .invalidateAck fun b => b.c = a.c ∧ b.va = a.va ∧ b.n = a.n) ∧
      (∀ l, kind ≠ 3 → o.owed.filter (fun g => g != a.g) = [] → s.leaf o.ctx o.page = some l → (s.ctx o.ctx).snap.state ≠ 2 →
        let new := if kind = 1 then l.word false else { l with x := bit o.perms 2, w := bit o.perms 1, rd := bit o.perms 0 }.word true
        Does .invalidateAck s fun t => t = State.fwStore (State.writeLeaf { s with pageOps := [] } l.key new) o.ctx o.done (bytesOfNat 8 1))) ∧
    (∀ o l f n rest, s.pageOps = [o] → o.kind = 3 → o.ctx = a.c → o.page = a.va → o.copied = false → s.leaf a.c a.va = some l →
      (s.ctx a.c).snap.state ≠ 2 → (s.die o.home).parked = [] → s.oracle = n :: rest → s.freeFrame o.target o.size n ((s.die o.target).memory / pageBytes o.size) = some f →
      Does .migrateCopyDone s fun t =>
        t.mem = ((s.moveMem (l.phys a.va) (memKey o.target (f * 65536)) (pageBytes o.size)).writeLeaf l.key
          ({ l with migr := false, place := o.target, frame := f }.word true)).mem ∧
        (∃ o' ∈ t.pageOps, o'.copied = true ∧ o'.frame = f) ∧ UnderWay t .invalidateAck fun b => b.c = a.c ∧ b.va = a.va ∧ b.n = 3)

/-- R359-R371: a consist is created where every rule of the request holds, with its members' memory taken, and destroyed where no leaf names it.

R363-R370: a store is numbered and applied at the head, and goes on to the next member; a member applies the versions in their order and none
twice; the tail performs the store and acknowledges it towards the head, and an acknowledgement makes the line clean. A joined die takes the tail's
replica and becomes the tail (in one step: log 54); a leaving or failed member is taken out, and the generation rises; a consist that has lost its
last member is poison until it is destroyed (also when a die joins it: log 136). Versions count modulo 2^64, and are compared so (log 122). -/
def Obligations.Consists : Prop :=
  (∀ (s : State),
     let r : BitVec 256 := s.arg.pkt.setWidth 256
     let c := bits r 23 16
     let k := bits r 11 6
     let len := bits r 15 12
     let entry := fun (i : Nat) => bits r (99 + 4 * i) (96 + 4 * i)
     let dies := (List.range len).map entry
     let units := bits r 159 128
     (consistFields s r = false → (Does .consistCreate s fun t => t = s.writeDone r 2) ∧ Does .consistDestroy s fun t => t = s.writeDone r 2) ∧
     (consistFields s r = true → bits r 3 0 = 1 → 2 ≤ len → len ≤ 8 → 1 ≤ units → units ≤ 65536 → (s.consist c k).state = 0 → (∀ d ∈ dies, d ≤ 7) →
       dies.Nodup → (∀ i, len ≤ i → i < 8 → entry i = 15) →
       ((∀ d ∈ dies, units ≤ s.freeUnits d) → Does .consistCreate s fun t => t.consist c k = { state := 1, dies := dies, units := units } ∧
         (∀ d ∈ dies, (t.die d).alloc = (s.die d).alloc + units) ∧ ∃ s' : State, t = s'.writeDone r 1) ∧
       ((∃ d ∈ dies, s.freeUnits d < units) → Does .consistCreate s fun t => t = s.writeDone r 2)) ∧
     (consistFields s r = true → bits r 3 0 = 2 → (s.consist c k).state ≠ 0 → (s.consist c k).state ≠ 2 →
       (s.namesConsist c k = false → Does .consistDestroy s fun t => t.consist c k = {} ∧ ∃ s' : State, t = s'.writeDone r 1) ∧
       (s.namesConsist c k = true → Does .consistDestroy s fun t => t = s.writeDone r 2))) ∧
  (∀ (s : State) (l : Leaf),
     let a := s.arg
     let q := a.req
     let c := s.consist a.c a.n
     let now := fun (t : State) => t.consist a.c a.n
     let holds := fun (t : State) (d : Nat) (bytes : Tab Byte) => Tab.get (now t).replicas [] d =
       (chainBytes l bytes).foldl (fun (m : Tab Byte) (e : Nat × Byte) => Tab.set m 0 e.1 e.2) (Tab.get c.replicas [] d)
     (∀ bytes rel bp note, q.op = .store bytes rel bp note → s.leaf a.c (opVa q.op) = some l → c.dies ≠ [] →
       c.dead = false →
       (∀ n, a.flag = false → c.dies.head? = some a.d → c.leaving ≠ a.d → c.next a.d = some n → s.blocked a.d a.c (opVa q.op) l = false → Does .chainApply s fun t =>
         (now t).version = nextVersion c.version ∧ holds t a.d bytes ∧ (now t).unacked = c.unacked ++ [(nextVersion c.version, q, 0)] ∧
         ∃ s' : State, t = s'.post a.d epHome n a.c (opVa q.op) (opSlots q.op) .chainApply
           { d := n, h := a.d, c := a.c, n := a.n, req := q, flag := true, va := nextVersion c.version, m := 0 }) ∧
       (a.flag = true → a.d ∈ c.dies →
         (verLe a.va (Tab.get c.applied 0 a.d) = true → Does .chainApply s fun t => t = s) ∧
         (∀ p, a.va = nextVersion (Tab.get c.applied 0 a.d) → c.next a.d = none → c.prev a.d = some p → a.h = p →
           s.chainGuard a.d a.c (opVa q.op) l = none → (s.die a.d).parked.length < 256 → chainMark a.c (opVa q.op) ∉ (s.die a.d).parked →
           Does .chainApply s fun t => now t = c ∧ (t.die a.d).parked = (s.die a.d).parked ++ [chainMark a.c (opVa q.op)] ∧
             UnderWay t .chainApply fun b => b = a) ∧
         (∀ p, a.va = nextVersion (Tab.get c.applied 0 a.d) → c.next a.d = none → c.prev a.d = some p → a.h = p → a.m = 0 →
           s.chainGuard a.d a.c (opVa q.op) l = some s → Does .chainApply s fun t =>
           holds t a.d bytes ∧ Tab.get (now t).applied 0 a.d = a.va ∧ Answers s t a.d q 0 0 ∧
           ∃ s' : State, t = s'.post a.d epHome p a.c 0 1 .chainAck { d := p, h := a.d, c := a.c, n := a.n, va := a.va, m := c.gen.toNat }))) ∧
     (a.d ∈ c.dies → c.next a.d = some a.h → (Tab.get c.linkGen 0 a.d).toNat ≤ a.m → a.h ≠ a.d →
       (∀ p, c.prev a.d = some p → Does .chainAck s fun t => (∀ e ∈ Tab.get (now t).dirty [] a.d, e.2 ≠ a.va) ∧
         ∃ s' : State, t = s'.post a.d epHome p a.c 0 1 .chainAck { a with d := p, h := a.d, m := c.gen.toNat }) ∧
       (c.prev a.d = none → Does .chainAck s fun t => (∀ e ∈ Tab.get (now t).dirty [] a.d, e.2 ≠ a.va) ∧
         ∀ e ∈ (now t).unacked, verLe e.1 a.va = false)) ∧
     (c.state = 2 → c.joining ≤ 7 → c.joining ∉ c.dies → Does .coupleCopyDone s fun t => (now t).dies = c.dies ++ [c.joining] ∧
       (now t).gen = c.gen + 1 ∧ (c.dies ≠ [] → Tab.get (now t).replicas [] c.joining = Tab.get c.replicas [] c.tail) ∧
       (now t).dead = c.dead ∧
       UnderWay t .coupleStreamDone fun b => b.c = a.c ∧ b.n = a.n) ∧
     (∀ w, c.state = 2 → c.joining ∈ c.dies → c.asker = some w → Does .coupleStreamDone s fun t =>
       (now t).state = (if c.failed = true then 3 else 1) ∧ (now t).joining = 15 ∧
       (now t).dies = c.dies ∧ Answers s t (s.srcDie w.src) w 0 0) ∧
     (∀ w v, c.state = 2 → c.leaving ∈ c.dies → c.asker = some w → c.unacked = [] → (∀ d ∈ c.dies, Tab.get c.applied 0 d = v) →
       (c.next c.leaving = none → s.saveTail a.c a.n = some s) → Does .uncoupleDone s fun t => (c.dies = [c.leaving] → (now t).dead = true) ∧
       (now t).dies = c.dies.filter (· != c.leaving) ∧ (now t).gen = c.gen + 1 ∧ (now t).state = c.back ∧ (now t).leaving = 15 ∧
       Answers s t (s.srcDie w.src) w 0 0) ∧
     (c.state = 1 → a.d ∈ c.dies → Does .memberFail s fun t => (now t).dies = c.dies.filter (· != a.d) ∧ (now t).gen = c.gen + 1 ∧ (now t).state = 3 ∧
       ((∀ e ∈ c.dies, e = a.d) → (now t).dead = true) ∧
       UnderWay t .raiseEvent fun b => b.d = s.sys.active + 8 ∧ b.c = a.c ∧ b.info.code = 0x32 ∧ b.info.addr = BitVec.ofNat 64 a.n ∧ b.info.extra = BitVec.ofNat 64 a.d) ∧
     (∀ w, c.state = 2 → c.joining = a.d → a.d ∉ c.dies → c.asker = some w → Does .memberFail s fun t => (now t).state = c.back ∧ (now t).joining = 15 ∧
       (now t).dies = c.dies ∧ Answers s t (s.srcDie w.src) w 6 0))

/-! ### The module -/

/-- R300, R396, R411: each service of TRAP answers its request once: VERSION, LINK_STATE, TEMPERATURE with sensor 0 the hottest, POWER,
ERRLOG_COUNT for context 0; an argument beyond the service's range is answered with its error. What a sensor and the power read is what the last
window brought (log 107). An engine hart's step begins and ends; before a cut that it must wait for, its STEP_ENTER is held.

R422-R430: a reset returns everything but what memory lists to its reset value (that memory stands is log 30); the hubs boot stage by stage, and
the failure of hub 0 makes hub 1 active. A response to an attestation request is appended to a list (log 7), one for each request that the device
supports and the error for another. Features are accepted where they are offered, and with the overdrive declined a link above code 2 retrains to it
and a request above it is taken back; a scale request is held for its context; the power limit is kept within its range; a
window above it withholds issue. An image is staged, committed or aborted, and the standby takes over once the mailboxes are empty, or at once when
the active complex fails. -/
def Obligations.TheModuleBoots : Prop :=
  (∀ (s : State) (n : Nat) (v : Word),
     let q := s.arg.req
     q.op = .trap n v → s.sys.update ≠ 2 →
     let bad : Word := 0xFFFFFFFFFFFFFFFD
     let tells := fun (i : Instr) (w : Word) => Does i s fun t => Answers s t s.arg.d q w 0 ∧ t.bogies = s.bogies ∧ t.mem = s.mem
     (tells .version (if v = 0 then s.complex.version ++ s.complex.build else bad)) ∧
     (v.toNat < 56 → tells .linkState (s.link v.toNat).lstat) ∧
     (256 ≤ v.toNat → v.toNat < 312 → tells .linkState (s.link (v.toNat - 256)).lanes) ∧
     (312 ≤ v.toNat ∨ 56 ≤ v.toNat ∧ v.toNat < 256 → tells .linkState bad) ∧
     (1 ≤ v.toNat → v.toNat ≤ 26 → tells .temperature (Tab.get s.sys.temps 0 v.toNat)) ∧
     (v = 0 → ∃ i < 26, tells .temperature (Tab.get s.sys.temps 0 (i + 1)) ∧
       ∀ j < 26, (Tab.get s.sys.temps 0 (j + 1)).toInt ≤ (Tab.get s.sys.temps 0 (i + 1)).toInt) ∧
     (26 < v.toNat → tells .temperature bad) ∧
     (tells .power (if v = 0 then s.sys.power else bad)) ∧
     (tells .errlogCount (if q.ctx ≠ 0 then 0xFFFFFFFFFFFFFFFE else if v = 0 then BitVec.ofNat 64 s.errlog.length else bad)) ∧
     (∀ d h, q.src = .hart d h →
       let x := s.hart d h
       let step : BitVec 32 := v.setWidth 32
       ((s.ctx q.ctx).snap.holds step = false → Does .stepEnter s fun t =>
         t = (s.setHart d h { x with entered := Tab.put x.entered q.ctx step }).answer s.hub q 0 0) ∧
       ((s.ctx q.ctx).snap.holds step = true → Does .stepEnter s fun t => t = s.setHart d h { x with asking := some step }) ∧
       (Does .stepDone s fun t => t = (s.setHart d h { x with finished := Tab.put x.finished q.ctx step }).answer s.hub q 0 0))) ∧
  (∀ (s : State),
     let a := s.arg
     let y := s.sys
     let h := a.h % 2
     let k := y.hub h
     let sets := fun (i : Instr) (z : Sys) => Does i s fun t => t = { s with sys := z }
     (Does .moduleReset s fun t => t.mem = s.mem ∧ t.hostMem = s.hostMem ∧ t.sys = State.reset.sys ∧ t.bogies = [] ∧ t.ctxs = [] ∧ t.queues = [] ∧
       t.harts = [] ∧ t.dies = [] ∧ t.agenda = [] ∧ t.errlog = [] ∧ t.clock = 0) ∧
     (k.stage < 4 →
       ((a.m = 0 ∨ k.stage = 0) → k.stage < 2 → sets .bootStage (y.setHub h { k with stage := k.stage + 1 })) ∧
       (a.m = 0 → 2 ≤ k.stage → Does .bootStage s fun t => (t.sys.hub h).stage = k.stage + 1 ∧ t.sys.active = y.active) ∧
       (a.m ≠ 0 → k.stage ≠ 0 → Does .bootStage s fun t => (t.sys.hub h).stage = 5 ∧ (k.stage = 2 → (t.sys.hub h).error = (a.m - 1) % 4 + 1) ∧
         (k.stage = 1 → (t.sys.hub h).error = (a.m - 1) % 3 + 1) ∧ (h = 0 → t.sys.active = 1) ∧ (h = 1 → y.h0.stage ≠ 5 → t.sys.active = 0))) ∧
     (4 ≤ k.stage → Does .bootStage s fun t => t = s) ∧
     (y.update ≠ 2 →
       (∀ e ∈ [(0, SpdmResponse.measurements s.measurements), (1, .version), (2, .capabilities), (3, .algorithms), (4, .digests), (5, .certificate),
         (6, .challengeAuth)], a.n = e.1 → sets .spdmRequest { y with responses := y.responses ++ [e.2] }) ∧
       (6 < a.n → sets .spdmRequest { y with responses := y.responses ++ [.error] })) ∧
     (y.accept &&& ~~~y.offer = 0 → bit y.accept 0 = true → sets .featCommit { y with featStatus := 1, locked := true }) ∧
     (y.accept &&& ~~~y.offer = 0 → bit y.accept 0 = false → Does .featCommit s fun t => t.sys = { y with featStatus := 1, locked := true } ∧
       ∀ l, ((s.link l).state = 0 → 2 < (s.link l).rate → (t.link l).rate = 2 ∧ (t.link l).state = 1) ∧
         ((s.link l).rate ≤ 2 → (s.link l).further = false → (t.link l).req.toNat ≤ 2 ∧ (t.link l).state = (s.link l).state)) ∧
     (y.accept &&& ~~~y.offer ≠ 0 → sets .featCommit { y with featStatus := 2 }) ∧
     (let c := bits a.val 23 16
      let j := bits a.val 15 12 * 24 + bits a.val 11 7
      (bit y.accept 3 = false → sets .scaleReq { y with scaleResult := 3, scaleLast := none }) ∧
      (bit y.accept 3 = true → bits a.val 6 1 = 0 → bits a.val 63 32 = 0 → c ≤ 192 → bits a.val 15 12 ≤ 7 → bits a.val 11 7 ≤ 23 → (s.ctx c).state ≠ 0 →
        (s.ctx c).state ≠ 6 → (s.ctx c).hasCoach j = true → Does .scaleReq s fun t => Tab.find (t.ctx c).servers j = some (bit a.val 0) ∧
          t.sys = { y with scaleResult := 2, scaleLast := some (c, j, bit a.val 0) })) ∧
     (Does .pwrLimit s fun t => 1000 ≤ t.sys.powerLimit ∧ t.sys.powerLimit ≤ 3400 ∧
       (1000 ≤ bits a.val 15 0 → bits a.val 15 0 ≤ 3400 → t.sys.powerLimit = bits a.val 15 0)) ∧
     (1 ≤ a.n → a.n ≤ 26 → Does .powerWindow s fun t => t.sys.power = a.val ∧ Tab.get t.sys.temps 0 a.n = BitVec.ofNat 64 a.va ∧
       (a.val.toNat ≤ y.powerLimit * 1000 → t.sys.withhold = 0) ∧ (y.powerLimit * 1000 < a.val.toNat → t.sys.withhold = min 2 (y.withhold + 1))) ∧
     (y.update = 0 → s.standby.failed = false → s.standby.stage = 4 →
       (a.m = 0 → Does .fwStage s fun t => t.sys.update = 1 ∧ t.sys.active = y.active ∧ t.sys.h0 = y.h0 ∧ t.sys.h1 = y.h1) ∧
       (a.m ≠ 0 → Does .fwStage s fun t => t.sys = y ∧ t.errlog = s.errlog ++ [{ code := 0 }])) ∧
     (y.update = 1 → (Does .fwCommit s fun t => t.sys = { y with update := 2 } ∧ UnderWay t .mailboxesEmpty fun _ => True) ∧
       sets .fwAbort { y with update := 0, staged := {} }) ∧
     (y.update = 2 → y.active ≤ 1 → Does .mailboxesEmpty s fun t => t.sys.active = 1 - y.active ∧ t.sys.update = 0 ∧
       t.sys.hub (1 - y.active) = y.staged ∧ t.sys.waiting = [] ∧ t.agenda = s.agenda ++ y.waiting) ∧
     (s.standby.failed = false → s.standby.stage = 4 → y.active ≤ 1 → Does .complexFailover s fun t => t.sys.active = 1 - y.active ∧
       (t.sys.hub y.active).failed = true ∧ t.agenda = s.agenda ++ y.waiting ∧ ∀ n, (t.queue n).waitFrom = none ∧ (t.queue n).begun = (s.queue n).begun))

/-- R141, R297, R431, R432: a corrected error is counted for its array and its domain, which its event names (log 109); a rate above the threshold revokes the domain's undervolt, and one that
stays there for ten seconds retires the unit. Diagnostics, whose outcome is free (log 112), reopen a closed bogie or retire its coach. A retired
coach or channel is replaced by a spare, once no context runs on the coach: those that do are frozen first. With no spare coach the die presents one
fewer, the highest number (log 31), and a Frozen context that held one of the two is lost to THAW; with no spare channel its capacity shrinks
once what lies beyond has moved.

R422-R424: a write of another size, unaligned, or before Ready changes nothing; a write in the context table is one of the context's block, one in
a notify region notifies the queue of its offset, and one in the identity block sets the accepted features until they are locked, the power limit, or
commits; so do the writes of the queue table and the peer tables. -/
def Obligations.ErrorsAndRegisters : Prop :=
  (∀ (s : State),
     let a := s.arg
     let x := s.domain a.n
     (s.clock < x.since + second →
       (Does .correctedError s fun t => (t.domain a.n).errors = x.errors + 1 ∧ (t.domain a.n).since = x.since ∧
         Tab.get t.sys.arrayErrors 0 a.va = Tab.get s.sys.arrayErrors 0 a.va + 1) ∧
       (s.sys.threshold < x.errors + 1 → x.above = none → Does .correctedError s fun t =>
         UnderWay t .errorRateThreshold fun b => b.n = a.n ∧ b.flag = false ∧ b.d = a.d ∧ b.h = a.h ∧ b.m = a.m)) ∧
     (a.flag = false → Does .errorRateThreshold s fun t => t.domain a.n = { x with under := false, revoked := true, above := some s.clock } ∧
       t.agenda = s.agenda ++ [{ ev := .errorRateThreshold, arg := { a with flag := true, va := s.clock }, due := s.clock + 10 * second }]) ∧
     (a.flag = true → x.above = some a.va → (s.clock < x.since + second ∨ s.clock < x.since + 2 * second ∧ s.sys.threshold < x.errors) →
       Does .errorRateThreshold s fun t => (t.domain a.n).above = none ∧ UnderWay t .unitRetire fun b => b.d = a.d ∧ b.h = a.h ∧ b.m = a.m) ∧
     (a.flag = true → (x.above ≠ some a.va ∨ x.since + 2 * second ≤ s.clock ∨ x.since + second ≤ s.clock ∧ x.errors ≤ s.sys.threshold) →
       Does .errorRateThreshold s fun t => t = s) ∧
     (bit s.sys.accept 4 = true → x.revoked = false → Does .undervoltStep s fun t => t.domain a.n = { x with under := true }) ∧
     ((bit s.sys.accept 4 = false ∨ x.revoked = true) → Does .undervoltStep s fun t => t = s) ∧
     (∀ n rest, (s.bogie a.g).closed = true → s.ctxs = [] → s.oracle = n :: rest →
       (n % 2 = 0 → Does .diagnosticsDone s fun t => (t.bogie a.g).closed = false ∧ (t.bogie a.g).streak = 0) ∧
       (n % 2 = 1 → Does .diagnosticsDone s fun t => t.bogie a.g = s.bogie a.g ∧
         UnderWay t .unitRetire fun b => b.m = 0 ∧ b.d = dieOf a.g ∧ b.h = coachOf a.g % 24)) ∧
     (a.d < 8 → a.m ≠ 0 → (s.die a.d).spareCh ≠ 0 → Does .unitRetire s fun t => (t.die a.d).spareCh = (s.die a.d).spareCh - 1 ∧
       (t.die a.d).channels = (s.die a.d).channels ∧ t.mem = s.mem) ∧
     (∀ top, a.d < 8 → a.m ≠ 0 → (s.die a.d).spareCh = 0 → (s.die a.d).channels ≠ 0 → { s.die a.d with channels := (s.die a.d).channels - 1 }.memory = top →
       ∀ o : Option State, (s.setDie a.d { s.die a.d with reserve := (s.die a.d).reserve.filter fun f => decide ((f + 1) * 65536 ≤ top) }).pullIn a.d top = o →
       (o = none → Does .unitRetire s fun t => t.dies = s.dies ∧ t.mem = s.mem ∧ UnderWay t .unitRetire fun b => b = a) ∧
       (∀ s', o = some s' → Does .unitRetire s fun t => (t.die a.d).channels = (s.die a.d).channels - 1 ∧ t.mem = s'.mem)) ∧
     (a.d < 8 → a.m = 0 → a.h < (s.die a.d).coaches → ∀ c ≤ 192, (s.ctx c).hasCoach (a.d * 24 + a.h) = true → (s.ctx c).state = 3 →
       Does .unitRetire s fun t => (t.ctx c).freezing = true ∧ t.dies = s.dies ∧ UnderWay t .unitRetire fun b => b.d = a.d ∧ b.h = a.h ∧ b.m = 0) ∧
     (a.d < 8 → a.m = 0 → a.h < (s.die a.d).coaches → s.holders (a.d * 24 + a.h) (a.d * 24 + (s.die a.d).coaches - 1) = [] → a.va = 0 →
       (s.die a.d).spareCo = 0 → Does .unitRetire s fun t => (t.die a.d).coaches = (s.die a.d).coaches - 1 ∧ (t.die a.d).spareCo = 0 ∧
         (∀ c, (s.ctx c).state = 5 → ((s.ctx c).hasCoach (a.d * 24 + a.h) = true ∨ (s.ctx c).hasCoach (a.d * 24 + (s.die a.d).coaches - 1) = true) →
           (t.ctx c).lost = true) ∧
         ∀ b < 8, (t.bogie (8 * (a.d * 24 + a.h) + b)).stack = []) ∧
     (a.d < 8 → a.m = 0 → a.h < (s.die a.d).coaches → s.holders (a.d * 24 + a.h) (a.d * 24 + a.h) = [] → a.va = 0 → (s.die a.d).spareCo ≠ 0 →
       Does .unitRetire s fun t =>
       (t.die a.d).spareCo = (s.die a.d).spareCo - 1 ∧ (t.die a.d).coaches = (s.die a.d).coaches ∧
       (t.coach (a.d * 24 + a.h)).slots = [] ∧ (t.coach (a.d * 24 + a.h)).tiles = [] ∧
       ∀ b < 8, (t.bogie (8 * (a.d * 24 + a.h) + b)).stack = [] ∧ (t.bogie (8 * (a.d * 24 + a.h) + b)).closed = false)) ∧
  (∀ (s : State),
     let a := s.arg
     let off := a.n
     let keeps := Does .registerWrite s fun t => t = s
     (¬(a.m = 1 ∨ a.m = 2 ∨ a.m = 4 ∨ a.m = 8) → keeps) ∧ (off % a.m ≠ 0 → keeps) ∧ (s.ready = false → keeps) ∧
     (s.ready = true → a.c = 0 → (a.m = 1 ∧ off = 0x14B ∨ a.m = 4 ∧ off = 0x14C) → keeps) ∧
     (s.ready = true → a.m = 8 → off % 8 = 0 →
       (a.c ≠ 0 → a.c ≤ 192 → off < 0x2000 → keeps) ∧
       (a.c ≠ 0 → a.c ≤ 192 → 0x2000 ≤ off → off < 0x4000 → Does .registerWrite s fun t => t = queueNotify a.c (off - 0x2000) 8 s) ∧
       (a.c = 0 →
         (∀ c i, c ≤ 192 → i < 16 → off = 0x18000 + 128 * c + 8 * i → Does .registerWrite s fun t => t = contextFieldWrite c (8 * i) 8 a.val s) ∧
         (∀ i, off = 0x120 + 8 * i → i < 4 →
           (s.sys.locked = true → keeps) ∧
           (s.sys.locked = false → Does .registerWrite s fun t => t.sys.accept.extractLsb' (64 * i) 64 = a.val ∧
             (bit t.sys.accept 4 = false → ∀ n, (t.domain n).under = false) ∧ ∀ j < 4, j ≠ i → t.sys.accept.extractLsb' (64 * j) 64 = s.sys.accept.extractLsb' (64 * j) 64)) ∧
         (off = 0x140 → Does .registerWrite s fun t => t = if bit a.val 0 = true then featCommit s else s) ∧
         (off = 0x148 → Does .registerWrite s fun t => t = scaleReq a.val s) ∧
         (off = 0x150 → Does .registerWrite s fun t => t = pwrLimit a.val s) ∧
         (∀ k, k < 1024 → off = 0x10000 + 16 * k → (s.queue k).state = 0 → bits a.val 1 0 = 1 → Does .registerWrite s fun t =>
           (t.queue k).state = 1 ∧ (t.queue k).ctx = bits a.val 22 15 ∧ (t.queue k).host = bit a.val 23 ∧ (t.queue k).pasid = bits a.val 43 24) ∧
         (∀ i, i + 1 < 193 * 1024 → i % 2 = 0 → i % 1024 ≠ s.module.toNat → (i + 1) % 1024 ≠ s.module.toNat → off = 0x40000 + 4 * i →
           Does .registerWrite s fun t => Tab.get t.peers 0 i = a.val.setWidth 32 &&& 0xFFF ∧ Tab.get t.peers 0 (i + 1) = a.val.extractLsb' 32 32 &&& 0xFFF))))

end
end

