-- ==== Sys2Proof/Laws/Tab.lean ====
section
/-! SUPPORT. Tables: a read after a write, and that every operation keeps the canonical form. -/

namespace Sys2Proof

section
variable {α : Type}

/-- The value just put is read back. -/
theorem Tab.get_put_same (t : Tab α) (d : α) (k : Nat) (v : α) : Tab.get (Tab.put t k v) d k = v := by
  induction t with
  | nil => simp [Tab.put, Tab.get]
  | cons e r ih =>
    obtain ⟨j, w⟩ := e
    unfold Tab.put
    split
    · simp [Tab.get]
    · split
      · simp [Tab.get]
      · rename_i h; simp [Tab.get, Ne.symm h, ih]

/-- Other numbers keep their value when one is put. -/
theorem Tab.get_put_other (t : Tab α) (d : α) (k q : Nat) (v : α) (h : k ≠ q) : Tab.get (Tab.put t k v) d q = Tab.get t d q := by
  induction t with
  | nil => simp [Tab.put, Tab.get, h]
  | cons e r ih =>
    obtain ⟨j, w⟩ := e
    unfold Tab.put
    split
    · simp [Tab.get, h]
    · split
      · rename_i e; subst e; simp [Tab.get, h]
      · simp only [Tab.get, ih]

/-- A number whose entry is taken away reads the default. -/
theorem Tab.get_del_same (t : Tab α) (d : α) (k : Nat) : Tab.get (Tab.del t k) d k = d := by
  induction t with
  | nil => rfl
  | cons e r ih =>
    obtain ⟨j, w⟩ := e
    unfold Tab.del
    split
    · exact ih
    · rename_i h; simp [Tab.get, h, ih]

/-- Other numbers keep their value when one is taken away. -/
theorem Tab.get_del_other (t : Tab α) (d : α) (k q : Nat) (h : k ≠ q) : Tab.get (Tab.del t k) d q = Tab.get t d q := by
  induction t with
  | nil => rfl
  | cons e r ih =>
    obtain ⟨j, w⟩ := e
    unfold Tab.del
    split
    · rename_i e; subst e; simp [Tab.get, h, ih]
    · simp only [Tab.get, ih]

end

section
variable {α : Type} [DecidableEq α]

/-- A read after a write to the same number. -/
theorem Tab.get_set_same (t : Tab α) (d : α) (k : Nat) (v : α) : Tab.get (Tab.set t d k v) d k = v := by
  unfold Tab.set
  split
  · rename_i h; rw [h, Tab.get_del_same]
  · exact Tab.get_put_same ..

/-- A write leaves every other number alone. -/
theorem Tab.get_set_other (t : Tab α) (d : α) (k q : Nat) (v : α) (h : k ≠ q) : Tab.get (Tab.set t d k v) d q = Tab.get t d q := by
  unfold Tab.set
  split
  · exact Tab.get_del_other _ _ _ _ h
  · exact Tab.get_put_other _ _ _ _ _ h

/-- Writing a list from a number upwards changes the numbers of the list alone. -/
theorem Tab.get_setList_other (l : List α) (t : Tab α) (d : α) (lo q : Nat) (h : q < lo ∨ lo + l.length ≤ q) :
    Tab.get (Tab.setList t d lo l) d q = Tab.get t d q := by
  induction l generalizing t lo with
  | nil => rfl
  | cons v r ih =>
    simp only [List.length_cons] at h
    rw [Tab.setList, ih _ _ (by omega), Tab.get_set_other _ _ _ _ _ (by omega)]

/-- Number i of a written list is read back. -/
theorem Tab.get_setList (l : List α) (t : Tab α) (d : α) (lo i : Nat) (h : i < l.length) :
    Tab.get (Tab.setList t d lo l) d (lo + i) = l[i] := by
  induction l generalizing t lo i with
  | nil => simp at h
  | cons v r ih =>
    cases i with
    | zero => rw [Tab.setList, Tab.get_setList_other _ _ _ _ _ (by omega)]; exact Tab.get_set_same ..
    | succ n =>
      have := ih (Tab.set t d lo v) (lo + 1) n (by simpa using h)
      rw [Tab.setList, show lo + (n + 1) = lo + 1 + n by omega, this]; rfl

/-- The form of a list whose head is known. -/
theorem Tab.wf_cons {d : α} {j : Nat} {v : α} {r : Tab α} :
    Tab.wf d ((j, v) :: r) = true ↔ v ≠ d ∧ (∀ e ∈ r, j < e.1) ∧ Tab.wf d r = true := by
  simp [Tab.wf, and_assoc]

omit [DecidableEq α] in
/-- The numbers of a table after a put are its own and the one put. -/
theorem Tab.mem_put {t : Tab α} {k : Nat} {v : α} {e : Nat × α} (h : e ∈ Tab.put t k v) : e = (k, v) ∨ e ∈ t := by
  induction t with
  | nil => simpa [Tab.put] using h
  | cons x r ih =>
    obtain ⟨j, w⟩ := x
    unfold Tab.put at h
    split at h
    · simpa using h
    · split at h
      · simp only [List.mem_cons] at h ⊢; tauto
      · simp only [List.mem_cons] at h ⊢
        rcases h with h | h
        · tauto
        · rcases ih h with h | h <;> tauto

omit [DecidableEq α] in
/-- Taking an entry away leaves entries of the table. -/
theorem Tab.mem_del {t : Tab α} {k : Nat} {e : Nat × α} (h : e ∈ Tab.del t k) : e ∈ t := by
  induction t with
  | nil => exact absurd h (List.not_mem_nil)
  | cons x r ih =>
    obtain ⟨j, w⟩ := x
    unfold Tab.del at h
    split at h
    · exact List.mem_cons_of_mem _ (ih h)
    · simp only [List.mem_cons] at h ⊢
      rcases h with h | h
      · exact .inl h
      · exact .inr (ih h)

/-- Putting a value that is not the default keeps the form. -/
theorem Tab.wf_put {t : Tab α} {d v : α} (k : Nat) (hv : v ≠ d) (h : Tab.wf d t = true) : Tab.wf d (Tab.put t k v) = true := by
  induction t with
  | nil => simp [Tab.put, Tab.wf, hv]
  | cons x r ih =>
    obtain ⟨j, w⟩ := x
    obtain ⟨hw, hr, hwf⟩ := Tab.wf_cons.1 h
    unfold Tab.put
    split
    · rename_i hk
      refine Tab.wf_cons.2 ⟨hv, fun e he => ?_, h⟩
      rcases List.mem_cons.1 he with rfl | he
      · exact hk
      · exact Nat.lt_trans hk (hr e he)
    · split
      · rename_i _ e; subst e; exact Tab.wf_cons.2 ⟨hv, hr, hwf⟩
      · rename_i h1 h2
        refine Tab.wf_cons.2 ⟨hw, fun e he => ?_, ih hwf⟩
        rcases Tab.mem_put he with rfl | he
        · show j < k; omega
        · exact hr e he

/-- Taking an entry away keeps the form. -/
theorem Tab.wf_del {t : Tab α} {d : α} (k : Nat) (h : Tab.wf d t = true) : Tab.wf d (Tab.del t k) = true := by
  induction t with
  | nil => rfl
  | cons x r ih =>
    obtain ⟨j, w⟩ := x
    obtain ⟨hw, hr, hwf⟩ := Tab.wf_cons.1 h
    unfold Tab.del
    split
    · exact ih hwf
    · exact Tab.wf_cons.2 ⟨hw, fun e he => hr e (Tab.mem_del he), ih hwf⟩

/-- A write keeps the form. -/
theorem Tab.wf_set {t : Tab α} {d : α} (k : Nat) (v : α) (h : Tab.wf d t = true) : Tab.wf d (Tab.set t d k v) = true := by
  unfold Tab.set
  split
  · exact Tab.wf_del k h
  · rename_i hv; exact Tab.wf_put k hv h

/-- Writing a list keeps the form. -/
theorem Tab.wf_setList (l : List α) {t : Tab α} {d : α} (lo : Nat) (h : Tab.wf d t = true) :
    Tab.wf d (Tab.setList t d lo l) = true := by
  induction l generalizing t lo with
  | nil => exact h
  | cons v r ih => exact ih _ (Tab.wf_set lo v h)

/-- Leaving out entries keeps the form. -/
theorem Tab.wf_filter {t : Tab α} {d : α} (p : Nat × α → Bool) (h : Tab.wf d t = true) : Tab.wf d (t.filter p) = true := by
  induction t with
  | nil => rfl
  | cons x r ih =>
    obtain ⟨j, w⟩ := x
    obtain ⟨hw, hr, hwf⟩ := Tab.wf_cons.1 h
    rw [List.filter_cons]
    split
    · exact Tab.wf_cons.2 ⟨hw, fun e he => hr e (List.mem_of_mem_filter he), ih hwf⟩
    · exact ih hwf

end

end Sys2Proof
end

