-- ==== Sys2Proof/Laws/State.lean ====
section
/-! SUPPORT. What each update of the state does to each field and to each part: one lemma per field and update. -/

namespace Sys2Proof.Machine

/-! ### State.setBogie -/

@[simp] theorem State.setBogie_turn (s : State) (g : Nat) (b : Bogie) : (s.setBogie g b).turn = s.turn := rfl
@[simp] theorem State.setBogie_agenda (s : State) (g : Nat) (b : Bogie) : (s.setBogie g b).agenda = s.agenda := rfl
@[simp] theorem State.setBogie_oracle (s : State) (g : Nat) (b : Bogie) : (s.setBogie g b).oracle = s.oracle := rfl
@[simp] theorem State.setBogie_freeCtr (s : State) (g : Nat) (b : Bogie) : (s.setBogie g b).freeCtr = s.freeCtr := rfl
@[simp] theorem State.setBogie_uid (s : State) (g : Nat) (b : Bogie) : (s.setBogie g b).uid = s.uid := rfl
@[simp] theorem State.setBogie_cur (s : State) (g : Nat) (b : Bogie) : (s.setBogie g b).cur = s.cur := rfl
@[simp] theorem State.setBogie_arg (s : State) (g : Nat) (b : Bogie) : (s.setBogie g b).arg = s.arg := rfl
@[simp] theorem State.setBogie_clock (s : State) (g : Nat) (b : Bogie) : (s.setBogie g b).clock = s.clock := rfl
@[simp] theorem State.setBogie_module (s : State) (g : Nat) (b : Bogie) : (s.setBogie g b).module = s.module := rfl
@[simp] theorem State.setBogie_mem (s : State) (g : Nat) (b : Bogie) : (s.setBogie g b).mem = s.mem := rfl
@[simp] theorem State.setBogie_poison (s : State) (g : Nat) (b : Bogie) : (s.setBogie g b).poison = s.poison := rfl
@[simp] theorem State.setBogie_wiping (s : State) (g : Nat) (b : Bogie) : (s.setBogie g b).wiping = s.wiping := rfl
@[simp] theorem State.setBogie_owner (s : State) (g : Nat) (b : Bogie) : (s.setBogie g b).owner = s.owner := rfl
@[simp] theorem State.setBogie_hostMem (s : State) (g : Nat) (b : Bogie) : (s.setBogie g b).hostMem = s.hostMem := rfl
@[simp] theorem State.setBogie_errlog (s : State) (g : Nat) (b : Bogie) : (s.setBogie g b).errlog = s.errlog := rfl
@[simp] theorem State.setBogie_pageOps (s : State) (g : Nat) (b : Bogie) : (s.setBogie g b).pageOps = s.pageOps := rfl
@[simp] theorem State.setBogie_links (s : State) (g : Nat) (b : Bogie) : (s.setBogie g b).links = s.links := rfl
@[simp] theorem State.setBogie_ingress (s : State) (g : Nat) (b : Bogie) : (s.setBogie g b).ingress = s.ingress := rfl
@[simp] theorem State.setBogie_coaches (s : State) (g : Nat) (b : Bogie) : (s.setBogie g b).coaches = s.coaches := rfl
@[simp] theorem State.setBogie_dies (s : State) (g : Nat) (b : Bogie) : (s.setBogie g b).dies = s.dies := rfl
@[simp] theorem State.setBogie_harts (s : State) (g : Nat) (b : Bogie) : (s.setBogie g b).harts = s.harts := rfl
@[simp] theorem State.setBogie_ctxs (s : State) (g : Nat) (b : Bogie) : (s.setBogie g b).ctxs = s.ctxs := rfl
@[simp] theorem State.setBogie_queues (s : State) (g : Nat) (b : Bogie) : (s.setBogie g b).queues = s.queues := rfl
@[simp] theorem State.setBogie_slots (s : State) (g : Nat) (b : Bogie) : (s.setBogie g b).slots = s.slots := rfl
@[simp] theorem State.setBogie_notified (s : State) (g : Nat) (b : Bogie) : (s.setBogie g b).notified = s.notified := rfl
@[simp] theorem State.setBogie_waiting (s : State) (g : Nat) (b : Bogie) : (s.setBogie g b).waiting = s.waiting := rfl
@[simp] theorem State.setBogie_consists (s : State) (g : Nat) (b : Bogie) : (s.setBogie g b).consists = s.consists := rfl
@[simp] theorem State.setBogie_peers (s : State) (g : Nat) (b : Bogie) : (s.setBogie g b).peers = s.peers := rfl
@[simp] theorem State.setBogie_devices (s : State) (g : Nat) (b : Bogie) : (s.setBogie g b).devices = s.devices := rfl
@[simp] theorem State.setBogie_copies (s : State) (g : Nat) (b : Bogie) : (s.setBogie g b).copies = s.copies := rfl
@[simp] theorem State.setBogie_fwork (s : State) (g : Nat) (b : Bogie) : (s.setBogie g b).fwork = s.fwork := rfl
@[simp] theorem State.setBogie_ringq (s : State) (g : Nat) (b : Bogie) : (s.setBogie g b).ringq = s.ringq := rfl
@[simp] theorem State.setBogie_stationsDown (s : State) (g : Nat) (b : Bogie) : (s.setBogie g b).stationsDown = s.stationsDown := rfl
@[simp] theorem State.setBogie_planes (s : State) (g : Nat) (b : Bogie) : (s.setBogie g b).planes = s.planes := rfl
@[simp] theorem State.setBogie_remote (s : State) (g : Nat) (b : Bogie) : (s.setBogie g b).remote = s.remote := rfl
@[simp] theorem State.setBogie_sentSeq (s : State) (g : Nat) (b : Bogie) : (s.setBogie g b).sentSeq = s.sentSeq := rfl
@[simp] theorem State.setBogie_nextSeq (s : State) (g : Nat) (b : Bogie) : (s.setBogie g b).nextSeq = s.nextSeq := rfl
@[simp] theorem State.setBogie_peerHeld (s : State) (g : Nat) (b : Bogie) : (s.setBogie g b).peerHeld = s.peerHeld := rfl
@[simp] theorem State.setBogie_peerOut (s : State) (g : Nat) (b : Bogie) : (s.setBogie g b).peerOut = s.peerOut := rfl
@[simp] theorem State.setBogie_answers (s : State) (g : Nat) (b : Bogie) : (s.setBogie g b).answers = s.answers := rfl
@[simp] theorem State.setBogie_sys (s : State) (g : Nat) (b : Bogie) : (s.setBogie g b).sys = s.sys := rfl
@[simp] theorem State.setBogie_bogies (s : State) (g : Nat) (b : Bogie) : (s.setBogie g b).bogies = Tab.put s.bogies g b := rfl
@[simp] theorem State.setBogie_coach (s : State) (g : Nat) (b : Bogie) (c' : Nat) : (s.setBogie g b).coach c' = s.coach c' := rfl
@[simp] theorem State.setBogie_die (s : State) (g : Nat) (b : Bogie) (d' : Nat) : (s.setBogie g b).die d' = s.die d' := rfl
@[simp] theorem State.setBogie_hart (s : State) (g : Nat) (b : Bogie) (d' h' : Nat) : (s.setBogie g b).hart d' h' = s.hart d' h' := rfl
@[simp] theorem State.setBogie_ctx (s : State) (g : Nat) (b : Bogie) (c' : Nat) : (s.setBogie g b).ctx c' = s.ctx c' := rfl
@[simp] theorem State.setBogie_link (s : State) (g : Nat) (b : Bogie) (l' : Nat) : (s.setBogie g b).link l' = s.link l' := rfl
@[simp] theorem State.setBogie_ing (s : State) (g : Nat) (b : Bogie) (d' : Nat) : (s.setBogie g b).ing d' = s.ing d' := rfl
@[simp] theorem State.setBogie_queue (s : State) (g : Nat) (b : Bogie) (n' : Nat) : (s.setBogie g b).queue n' = s.queue n' := rfl

/-! ### State.setCoach -/

@[simp] theorem State.setCoach_turn (s : State) (c : Nat) (x : Coach) : (s.setCoach c x).turn = s.turn := rfl
@[simp] theorem State.setCoach_agenda (s : State) (c : Nat) (x : Coach) : (s.setCoach c x).agenda = s.agenda := rfl
@[simp] theorem State.setCoach_oracle (s : State) (c : Nat) (x : Coach) : (s.setCoach c x).oracle = s.oracle := rfl
@[simp] theorem State.setCoach_freeCtr (s : State) (c : Nat) (x : Coach) : (s.setCoach c x).freeCtr = s.freeCtr := rfl
@[simp] theorem State.setCoach_uid (s : State) (c : Nat) (x : Coach) : (s.setCoach c x).uid = s.uid := rfl
@[simp] theorem State.setCoach_cur (s : State) (c : Nat) (x : Coach) : (s.setCoach c x).cur = s.cur := rfl
@[simp] theorem State.setCoach_arg (s : State) (c : Nat) (x : Coach) : (s.setCoach c x).arg = s.arg := rfl
@[simp] theorem State.setCoach_clock (s : State) (c : Nat) (x : Coach) : (s.setCoach c x).clock = s.clock := rfl
@[simp] theorem State.setCoach_module (s : State) (c : Nat) (x : Coach) : (s.setCoach c x).module = s.module := rfl
@[simp] theorem State.setCoach_mem (s : State) (c : Nat) (x : Coach) : (s.setCoach c x).mem = s.mem := rfl
@[simp] theorem State.setCoach_poison (s : State) (c : Nat) (x : Coach) : (s.setCoach c x).poison = s.poison := rfl
@[simp] theorem State.setCoach_wiping (s : State) (c : Nat) (x : Coach) : (s.setCoach c x).wiping = s.wiping := rfl
@[simp] theorem State.setCoach_owner (s : State) (c : Nat) (x : Coach) : (s.setCoach c x).owner = s.owner := rfl
@[simp] theorem State.setCoach_hostMem (s : State) (c : Nat) (x : Coach) : (s.setCoach c x).hostMem = s.hostMem := rfl
@[simp] theorem State.setCoach_errlog (s : State) (c : Nat) (x : Coach) : (s.setCoach c x).errlog = s.errlog := rfl
@[simp] theorem State.setCoach_pageOps (s : State) (c : Nat) (x : Coach) : (s.setCoach c x).pageOps = s.pageOps := rfl
@[simp] theorem State.setCoach_links (s : State) (c : Nat) (x : Coach) : (s.setCoach c x).links = s.links := rfl
@[simp] theorem State.setCoach_ingress (s : State) (c : Nat) (x : Coach) : (s.setCoach c x).ingress = s.ingress := rfl
@[simp] theorem State.setCoach_bogies (s : State) (c : Nat) (x : Coach) : (s.setCoach c x).bogies = s.bogies := rfl
@[simp] theorem State.setCoach_dies (s : State) (c : Nat) (x : Coach) : (s.setCoach c x).dies = s.dies := rfl
@[simp] theorem State.setCoach_harts (s : State) (c : Nat) (x : Coach) : (s.setCoach c x).harts = s.harts := rfl
@[simp] theorem State.setCoach_ctxs (s : State) (c : Nat) (x : Coach) : (s.setCoach c x).ctxs = s.ctxs := rfl
@[simp] theorem State.setCoach_queues (s : State) (c : Nat) (x : Coach) : (s.setCoach c x).queues = s.queues := rfl
@[simp] theorem State.setCoach_slots (s : State) (c : Nat) (x : Coach) : (s.setCoach c x).slots = s.slots := rfl
@[simp] theorem State.setCoach_notified (s : State) (c : Nat) (x : Coach) : (s.setCoach c x).notified = s.notified := rfl
@[simp] theorem State.setCoach_waiting (s : State) (c : Nat) (x : Coach) : (s.setCoach c x).waiting = s.waiting := rfl
@[simp] theorem State.setCoach_consists (s : State) (c : Nat) (x : Coach) : (s.setCoach c x).consists = s.consists := rfl
@[simp] theorem State.setCoach_peers (s : State) (c : Nat) (x : Coach) : (s.setCoach c x).peers = s.peers := rfl
@[simp] theorem State.setCoach_devices (s : State) (c : Nat) (x : Coach) : (s.setCoach c x).devices = s.devices := rfl
@[simp] theorem State.setCoach_copies (s : State) (c : Nat) (x : Coach) : (s.setCoach c x).copies = s.copies := rfl
@[simp] theorem State.setCoach_fwork (s : State) (c : Nat) (x : Coach) : (s.setCoach c x).fwork = s.fwork := rfl
@[simp] theorem State.setCoach_ringq (s : State) (c : Nat) (x : Coach) : (s.setCoach c x).ringq = s.ringq := rfl
@[simp] theorem State.setCoach_stationsDown (s : State) (c : Nat) (x : Coach) : (s.setCoach c x).stationsDown = s.stationsDown := rfl
@[simp] theorem State.setCoach_planes (s : State) (c : Nat) (x : Coach) : (s.setCoach c x).planes = s.planes := rfl
@[simp] theorem State.setCoach_remote (s : State) (c : Nat) (x : Coach) : (s.setCoach c x).remote = s.remote := rfl
@[simp] theorem State.setCoach_sentSeq (s : State) (c : Nat) (x : Coach) : (s.setCoach c x).sentSeq = s.sentSeq := rfl
@[simp] theorem State.setCoach_nextSeq (s : State) (c : Nat) (x : Coach) : (s.setCoach c x).nextSeq = s.nextSeq := rfl
@[simp] theorem State.setCoach_peerHeld (s : State) (c : Nat) (x : Coach) : (s.setCoach c x).peerHeld = s.peerHeld := rfl
@[simp] theorem State.setCoach_peerOut (s : State) (c : Nat) (x : Coach) : (s.setCoach c x).peerOut = s.peerOut := rfl
@[simp] theorem State.setCoach_answers (s : State) (c : Nat) (x : Coach) : (s.setCoach c x).answers = s.answers := rfl
@[simp] theorem State.setCoach_sys (s : State) (c : Nat) (x : Coach) : (s.setCoach c x).sys = s.sys := rfl
@[simp] theorem State.setCoach_coaches (s : State) (c : Nat) (x : Coach) : (s.setCoach c x).coaches = Tab.put s.coaches c x := rfl
@[simp] theorem State.setCoach_bogie (s : State) (c : Nat) (x : Coach) (g' : Nat) : (s.setCoach c x).bogie g' = s.bogie g' := rfl
@[simp] theorem State.setCoach_die (s : State) (c : Nat) (x : Coach) (d' : Nat) : (s.setCoach c x).die d' = s.die d' := rfl
@[simp] theorem State.setCoach_hart (s : State) (c : Nat) (x : Coach) (d' h' : Nat) : (s.setCoach c x).hart d' h' = s.hart d' h' := rfl
@[simp] theorem State.setCoach_ctx (s : State) (c : Nat) (x : Coach) (c' : Nat) : (s.setCoach c x).ctx c' = s.ctx c' := rfl
@[simp] theorem State.setCoach_link (s : State) (c : Nat) (x : Coach) (l' : Nat) : (s.setCoach c x).link l' = s.link l' := rfl
@[simp] theorem State.setCoach_ing (s : State) (c : Nat) (x : Coach) (d' : Nat) : (s.setCoach c x).ing d' = s.ing d' := rfl
@[simp] theorem State.setCoach_queue (s : State) (c : Nat) (x : Coach) (n' : Nat) : (s.setCoach c x).queue n' = s.queue n' := rfl

/-! ### State.setDie -/

@[simp] theorem State.setDie_turn (s : State) (d : Nat) (x : Die) : (s.setDie d x).turn = s.turn := rfl
@[simp] theorem State.setDie_agenda (s : State) (d : Nat) (x : Die) : (s.setDie d x).agenda = s.agenda := rfl
@[simp] theorem State.setDie_oracle (s : State) (d : Nat) (x : Die) : (s.setDie d x).oracle = s.oracle := rfl
@[simp] theorem State.setDie_freeCtr (s : State) (d : Nat) (x : Die) : (s.setDie d x).freeCtr = s.freeCtr := rfl
@[simp] theorem State.setDie_uid (s : State) (d : Nat) (x : Die) : (s.setDie d x).uid = s.uid := rfl
@[simp] theorem State.setDie_cur (s : State) (d : Nat) (x : Die) : (s.setDie d x).cur = s.cur := rfl
@[simp] theorem State.setDie_arg (s : State) (d : Nat) (x : Die) : (s.setDie d x).arg = s.arg := rfl
@[simp] theorem State.setDie_clock (s : State) (d : Nat) (x : Die) : (s.setDie d x).clock = s.clock := rfl
@[simp] theorem State.setDie_module (s : State) (d : Nat) (x : Die) : (s.setDie d x).module = s.module := rfl
@[simp] theorem State.setDie_mem (s : State) (d : Nat) (x : Die) : (s.setDie d x).mem = s.mem := rfl
@[simp] theorem State.setDie_poison (s : State) (d : Nat) (x : Die) : (s.setDie d x).poison = s.poison := rfl
@[simp] theorem State.setDie_wiping (s : State) (d : Nat) (x : Die) : (s.setDie d x).wiping = s.wiping := rfl
@[simp] theorem State.setDie_owner (s : State) (d : Nat) (x : Die) : (s.setDie d x).owner = s.owner := rfl
@[simp] theorem State.setDie_hostMem (s : State) (d : Nat) (x : Die) : (s.setDie d x).hostMem = s.hostMem := rfl
@[simp] theorem State.setDie_errlog (s : State) (d : Nat) (x : Die) : (s.setDie d x).errlog = s.errlog := rfl
@[simp] theorem State.setDie_pageOps (s : State) (d : Nat) (x : Die) : (s.setDie d x).pageOps = s.pageOps := rfl
@[simp] theorem State.setDie_links (s : State) (d : Nat) (x : Die) : (s.setDie d x).links = s.links := rfl
@[simp] theorem State.setDie_ingress (s : State) (d : Nat) (x : Die) : (s.setDie d x).ingress = s.ingress := rfl
@[simp] theorem State.setDie_bogies (s : State) (d : Nat) (x : Die) : (s.setDie d x).bogies = s.bogies := rfl
@[simp] theorem State.setDie_coaches (s : State) (d : Nat) (x : Die) : (s.setDie d x).coaches = s.coaches := rfl
@[simp] theorem State.setDie_harts (s : State) (d : Nat) (x : Die) : (s.setDie d x).harts = s.harts := rfl
@[simp] theorem State.setDie_ctxs (s : State) (d : Nat) (x : Die) : (s.setDie d x).ctxs = s.ctxs := rfl
@[simp] theorem State.setDie_queues (s : State) (d : Nat) (x : Die) : (s.setDie d x).queues = s.queues := rfl
@[simp] theorem State.setDie_slots (s : State) (d : Nat) (x : Die) : (s.setDie d x).slots = s.slots := rfl
@[simp] theorem State.setDie_notified (s : State) (d : Nat) (x : Die) : (s.setDie d x).notified = s.notified := rfl
@[simp] theorem State.setDie_waiting (s : State) (d : Nat) (x : Die) : (s.setDie d x).waiting = s.waiting := rfl
@[simp] theorem State.setDie_consists (s : State) (d : Nat) (x : Die) : (s.setDie d x).consists = s.consists := rfl
@[simp] theorem State.setDie_peers (s : State) (d : Nat) (x : Die) : (s.setDie d x).peers = s.peers := rfl
@[simp] theorem State.setDie_devices (s : State) (d : Nat) (x : Die) : (s.setDie d x).devices = s.devices := rfl
@[simp] theorem State.setDie_copies (s : State) (d : Nat) (x : Die) : (s.setDie d x).copies = s.copies := rfl
@[simp] theorem State.setDie_fwork (s : State) (d : Nat) (x : Die) : (s.setDie d x).fwork = s.fwork := rfl
@[simp] theorem State.setDie_ringq (s : State) (d : Nat) (x : Die) : (s.setDie d x).ringq = s.ringq := rfl
@[simp] theorem State.setDie_stationsDown (s : State) (d : Nat) (x : Die) : (s.setDie d x).stationsDown = s.stationsDown := rfl
@[simp] theorem State.setDie_planes (s : State) (d : Nat) (x : Die) : (s.setDie d x).planes = s.planes := rfl
@[simp] theorem State.setDie_remote (s : State) (d : Nat) (x : Die) : (s.setDie d x).remote = s.remote := rfl
@[simp] theorem State.setDie_sentSeq (s : State) (d : Nat) (x : Die) : (s.setDie d x).sentSeq = s.sentSeq := rfl
@[simp] theorem State.setDie_nextSeq (s : State) (d : Nat) (x : Die) : (s.setDie d x).nextSeq = s.nextSeq := rfl
@[simp] theorem State.setDie_peerHeld (s : State) (d : Nat) (x : Die) : (s.setDie d x).peerHeld = s.peerHeld := rfl
@[simp] theorem State.setDie_peerOut (s : State) (d : Nat) (x : Die) : (s.setDie d x).peerOut = s.peerOut := rfl
@[simp] theorem State.setDie_answers (s : State) (d : Nat) (x : Die) : (s.setDie d x).answers = s.answers := rfl
@[simp] theorem State.setDie_sys (s : State) (d : Nat) (x : Die) : (s.setDie d x).sys = s.sys := rfl
@[simp] theorem State.setDie_dies (s : State) (d : Nat) (x : Die) : (s.setDie d x).dies = Tab.put s.dies d x := rfl
@[simp] theorem State.setDie_bogie (s : State) (d : Nat) (x : Die) (g' : Nat) : (s.setDie d x).bogie g' = s.bogie g' := rfl
@[simp] theorem State.setDie_coach (s : State) (d : Nat) (x : Die) (c' : Nat) : (s.setDie d x).coach c' = s.coach c' := rfl
@[simp] theorem State.setDie_hart (s : State) (d : Nat) (x : Die) (d' h' : Nat) : (s.setDie d x).hart d' h' = s.hart d' h' := rfl
@[simp] theorem State.setDie_ctx (s : State) (d : Nat) (x : Die) (c' : Nat) : (s.setDie d x).ctx c' = s.ctx c' := rfl
@[simp] theorem State.setDie_link (s : State) (d : Nat) (x : Die) (l' : Nat) : (s.setDie d x).link l' = s.link l' := rfl
@[simp] theorem State.setDie_ing (s : State) (d : Nat) (x : Die) (d' : Nat) : (s.setDie d x).ing d' = s.ing d' := rfl
@[simp] theorem State.setDie_queue (s : State) (d : Nat) (x : Die) (n' : Nat) : (s.setDie d x).queue n' = s.queue n' := rfl

/-! ### State.setHart -/

@[simp] theorem State.setHart_turn (s : State) (d h : Nat) (x : Hart) : (s.setHart d h x).turn = s.turn := rfl
@[simp] theorem State.setHart_agenda (s : State) (d h : Nat) (x : Hart) : (s.setHart d h x).agenda = s.agenda := rfl
@[simp] theorem State.setHart_oracle (s : State) (d h : Nat) (x : Hart) : (s.setHart d h x).oracle = s.oracle := rfl
@[simp] theorem State.setHart_freeCtr (s : State) (d h : Nat) (x : Hart) : (s.setHart d h x).freeCtr = s.freeCtr := rfl
@[simp] theorem State.setHart_uid (s : State) (d h : Nat) (x : Hart) : (s.setHart d h x).uid = s.uid := rfl
@[simp] theorem State.setHart_cur (s : State) (d h : Nat) (x : Hart) : (s.setHart d h x).cur = s.cur := rfl
@[simp] theorem State.setHart_arg (s : State) (d h : Nat) (x : Hart) : (s.setHart d h x).arg = s.arg := rfl
@[simp] theorem State.setHart_clock (s : State) (d h : Nat) (x : Hart) : (s.setHart d h x).clock = s.clock := rfl
@[simp] theorem State.setHart_module (s : State) (d h : Nat) (x : Hart) : (s.setHart d h x).module = s.module := rfl
@[simp] theorem State.setHart_mem (s : State) (d h : Nat) (x : Hart) : (s.setHart d h x).mem = s.mem := rfl
@[simp] theorem State.setHart_poison (s : State) (d h : Nat) (x : Hart) : (s.setHart d h x).poison = s.poison := rfl
@[simp] theorem State.setHart_wiping (s : State) (d h : Nat) (x : Hart) : (s.setHart d h x).wiping = s.wiping := rfl
@[simp] theorem State.setHart_owner (s : State) (d h : Nat) (x : Hart) : (s.setHart d h x).owner = s.owner := rfl
@[simp] theorem State.setHart_hostMem (s : State) (d h : Nat) (x : Hart) : (s.setHart d h x).hostMem = s.hostMem := rfl
@[simp] theorem State.setHart_errlog (s : State) (d h : Nat) (x : Hart) : (s.setHart d h x).errlog = s.errlog := rfl
@[simp] theorem State.setHart_pageOps (s : State) (d h : Nat) (x : Hart) : (s.setHart d h x).pageOps = s.pageOps := rfl
@[simp] theorem State.setHart_links (s : State) (d h : Nat) (x : Hart) : (s.setHart d h x).links = s.links := rfl
@[simp] theorem State.setHart_ingress (s : State) (d h : Nat) (x : Hart) : (s.setHart d h x).ingress = s.ingress := rfl
@[simp] theorem State.setHart_bogies (s : State) (d h : Nat) (x : Hart) : (s.setHart d h x).bogies = s.bogies := rfl
@[simp] theorem State.setHart_coaches (s : State) (d h : Nat) (x : Hart) : (s.setHart d h x).coaches = s.coaches := rfl
@[simp] theorem State.setHart_dies (s : State) (d h : Nat) (x : Hart) : (s.setHart d h x).dies = s.dies := rfl
@[simp] theorem State.setHart_ctxs (s : State) (d h : Nat) (x : Hart) : (s.setHart d h x).ctxs = s.ctxs := rfl
@[simp] theorem State.setHart_queues (s : State) (d h : Nat) (x : Hart) : (s.setHart d h x).queues = s.queues := rfl
@[simp] theorem State.setHart_slots (s : State) (d h : Nat) (x : Hart) : (s.setHart d h x).slots = s.slots := rfl
@[simp] theorem State.setHart_notified (s : State) (d h : Nat) (x : Hart) : (s.setHart d h x).notified = s.notified := rfl
@[simp] theorem State.setHart_waiting (s : State) (d h : Nat) (x : Hart) : (s.setHart d h x).waiting = s.waiting := rfl
@[simp] theorem State.setHart_consists (s : State) (d h : Nat) (x : Hart) : (s.setHart d h x).consists = s.consists := rfl
@[simp] theorem State.setHart_peers (s : State) (d h : Nat) (x : Hart) : (s.setHart d h x).peers = s.peers := rfl
@[simp] theorem State.setHart_devices (s : State) (d h : Nat) (x : Hart) : (s.setHart d h x).devices = s.devices := rfl
@[simp] theorem State.setHart_copies (s : State) (d h : Nat) (x : Hart) : (s.setHart d h x).copies = s.copies := rfl
@[simp] theorem State.setHart_fwork (s : State) (d h : Nat) (x : Hart) : (s.setHart d h x).fwork = s.fwork := rfl
@[simp] theorem State.setHart_ringq (s : State) (d h : Nat) (x : Hart) : (s.setHart d h x).ringq = s.ringq := rfl
@[simp] theorem State.setHart_stationsDown (s : State) (d h : Nat) (x : Hart) : (s.setHart d h x).stationsDown = s.stationsDown := rfl
@[simp] theorem State.setHart_planes (s : State) (d h : Nat) (x : Hart) : (s.setHart d h x).planes = s.planes := rfl
@[simp] theorem State.setHart_remote (s : State) (d h : Nat) (x : Hart) : (s.setHart d h x).remote = s.remote := rfl
@[simp] theorem State.setHart_sentSeq (s : State) (d h : Nat) (x : Hart) : (s.setHart d h x).sentSeq = s.sentSeq := rfl
@[simp] theorem State.setHart_nextSeq (s : State) (d h : Nat) (x : Hart) : (s.setHart d h x).nextSeq = s.nextSeq := rfl
@[simp] theorem State.setHart_peerHeld (s : State) (d h : Nat) (x : Hart) : (s.setHart d h x).peerHeld = s.peerHeld := rfl
@[simp] theorem State.setHart_peerOut (s : State) (d h : Nat) (x : Hart) : (s.setHart d h x).peerOut = s.peerOut := rfl
@[simp] theorem State.setHart_answers (s : State) (d h : Nat) (x : Hart) : (s.setHart d h x).answers = s.answers := rfl
@[simp] theorem State.setHart_sys (s : State) (d h : Nat) (x : Hart) : (s.setHart d h x).sys = s.sys := rfl
@[simp] theorem State.setHart_harts (s : State) (d h : Nat) (x : Hart) : (s.setHart d h x).harts = Tab.put s.harts (d * 22 + h) x := rfl
@[simp] theorem State.setHart_bogie (s : State) (d h : Nat) (x : Hart) (g' : Nat) : (s.setHart d h x).bogie g' = s.bogie g' := rfl
@[simp] theorem State.setHart_coach (s : State) (d h : Nat) (x : Hart) (c' : Nat) : (s.setHart d h x).coach c' = s.coach c' := rfl
@[simp] theorem State.setHart_die (s : State) (d h : Nat) (x : Hart) (d' : Nat) : (s.setHart d h x).die d' = s.die d' := rfl
@[simp] theorem State.setHart_ctx (s : State) (d h : Nat) (x : Hart) (c' : Nat) : (s.setHart d h x).ctx c' = s.ctx c' := rfl
@[simp] theorem State.setHart_link (s : State) (d h : Nat) (x : Hart) (l' : Nat) : (s.setHart d h x).link l' = s.link l' := rfl
@[simp] theorem State.setHart_ing (s : State) (d h : Nat) (x : Hart) (d' : Nat) : (s.setHart d h x).ing d' = s.ing d' := rfl
@[simp] theorem State.setHart_queue (s : State) (d h : Nat) (x : Hart) (n' : Nat) : (s.setHart d h x).queue n' = s.queue n' := rfl

/-! ### State.setCtx -/

@[simp] theorem State.setCtx_turn (s : State) (c : Nat) (x : Ctx) : (s.setCtx c x).turn = s.turn := rfl
@[simp] theorem State.setCtx_agenda (s : State) (c : Nat) (x : Ctx) : (s.setCtx c x).agenda = s.agenda := rfl
@[simp] theorem State.setCtx_oracle (s : State) (c : Nat) (x : Ctx) : (s.setCtx c x).oracle = s.oracle := rfl
@[simp] theorem State.setCtx_freeCtr (s : State) (c : Nat) (x : Ctx) : (s.setCtx c x).freeCtr = s.freeCtr := rfl
@[simp] theorem State.setCtx_uid (s : State) (c : Nat) (x : Ctx) : (s.setCtx c x).uid = s.uid := rfl
@[simp] theorem State.setCtx_cur (s : State) (c : Nat) (x : Ctx) : (s.setCtx c x).cur = s.cur := rfl
@[simp] theorem State.setCtx_arg (s : State) (c : Nat) (x : Ctx) : (s.setCtx c x).arg = s.arg := rfl
@[simp] theorem State.setCtx_clock (s : State) (c : Nat) (x : Ctx) : (s.setCtx c x).clock = s.clock := rfl
@[simp] theorem State.setCtx_module (s : State) (c : Nat) (x : Ctx) : (s.setCtx c x).module = s.module := rfl
@[simp] theorem State.setCtx_mem (s : State) (c : Nat) (x : Ctx) : (s.setCtx c x).mem = s.mem := rfl
@[simp] theorem State.setCtx_poison (s : State) (c : Nat) (x : Ctx) : (s.setCtx c x).poison = s.poison := rfl
@[simp] theorem State.setCtx_wiping (s : State) (c : Nat) (x : Ctx) : (s.setCtx c x).wiping = s.wiping := rfl
@[simp] theorem State.setCtx_owner (s : State) (c : Nat) (x : Ctx) : (s.setCtx c x).owner = s.owner := rfl
@[simp] theorem State.setCtx_hostMem (s : State) (c : Nat) (x : Ctx) : (s.setCtx c x).hostMem = s.hostMem := rfl
@[simp] theorem State.setCtx_errlog (s : State) (c : Nat) (x : Ctx) : (s.setCtx c x).errlog = s.errlog := rfl
@[simp] theorem State.setCtx_pageOps (s : State) (c : Nat) (x : Ctx) : (s.setCtx c x).pageOps = s.pageOps := rfl
@[simp] theorem State.setCtx_links (s : State) (c : Nat) (x : Ctx) : (s.setCtx c x).links = s.links := rfl
@[simp] theorem State.setCtx_ingress (s : State) (c : Nat) (x : Ctx) : (s.setCtx c x).ingress = s.ingress := rfl
@[simp] theorem State.setCtx_bogies (s : State) (c : Nat) (x : Ctx) : (s.setCtx c x).bogies = s.bogies := rfl
@[simp] theorem State.setCtx_coaches (s : State) (c : Nat) (x : Ctx) : (s.setCtx c x).coaches = s.coaches := rfl
@[simp] theorem State.setCtx_dies (s : State) (c : Nat) (x : Ctx) : (s.setCtx c x).dies = s.dies := rfl
@[simp] theorem State.setCtx_harts (s : State) (c : Nat) (x : Ctx) : (s.setCtx c x).harts = s.harts := rfl
@[simp] theorem State.setCtx_queues (s : State) (c : Nat) (x : Ctx) : (s.setCtx c x).queues = s.queues := rfl
@[simp] theorem State.setCtx_slots (s : State) (c : Nat) (x : Ctx) : (s.setCtx c x).slots = s.slots := rfl
@[simp] theorem State.setCtx_notified (s : State) (c : Nat) (x : Ctx) : (s.setCtx c x).notified = s.notified := rfl
@[simp] theorem State.setCtx_waiting (s : State) (c : Nat) (x : Ctx) : (s.setCtx c x).waiting = s.waiting := rfl
@[simp] theorem State.setCtx_consists (s : State) (c : Nat) (x : Ctx) : (s.setCtx c x).consists = s.consists := rfl
@[simp] theorem State.setCtx_peers (s : State) (c : Nat) (x : Ctx) : (s.setCtx c x).peers = s.peers := rfl
@[simp] theorem State.setCtx_devices (s : State) (c : Nat) (x : Ctx) : (s.setCtx c x).devices = s.devices := rfl
@[simp] theorem State.setCtx_copies (s : State) (c : Nat) (x : Ctx) : (s.setCtx c x).copies = s.copies := rfl
@[simp] theorem State.setCtx_fwork (s : State) (c : Nat) (x : Ctx) : (s.setCtx c x).fwork = s.fwork := rfl
@[simp] theorem State.setCtx_ringq (s : State) (c : Nat) (x : Ctx) : (s.setCtx c x).ringq = s.ringq := rfl
@[simp] theorem State.setCtx_stationsDown (s : State) (c : Nat) (x : Ctx) : (s.setCtx c x).stationsDown = s.stationsDown := rfl
@[simp] theorem State.setCtx_planes (s : State) (c : Nat) (x : Ctx) : (s.setCtx c x).planes = s.planes := rfl
@[simp] theorem State.setCtx_remote (s : State) (c : Nat) (x : Ctx) : (s.setCtx c x).remote = s.remote := rfl
@[simp] theorem State.setCtx_sentSeq (s : State) (c : Nat) (x : Ctx) : (s.setCtx c x).sentSeq = s.sentSeq := rfl
@[simp] theorem State.setCtx_nextSeq (s : State) (c : Nat) (x : Ctx) : (s.setCtx c x).nextSeq = s.nextSeq := rfl
@[simp] theorem State.setCtx_peerHeld (s : State) (c : Nat) (x : Ctx) : (s.setCtx c x).peerHeld = s.peerHeld := rfl
@[simp] theorem State.setCtx_peerOut (s : State) (c : Nat) (x : Ctx) : (s.setCtx c x).peerOut = s.peerOut := rfl
@[simp] theorem State.setCtx_answers (s : State) (c : Nat) (x : Ctx) : (s.setCtx c x).answers = s.answers := rfl
@[simp] theorem State.setCtx_sys (s : State) (c : Nat) (x : Ctx) : (s.setCtx c x).sys = s.sys := rfl
@[simp] theorem State.setCtx_ctxs (s : State) (c : Nat) (x : Ctx) : (s.setCtx c x).ctxs = Tab.put s.ctxs c x := rfl
@[simp] theorem State.setCtx_bogie (s : State) (c : Nat) (x : Ctx) (g' : Nat) : (s.setCtx c x).bogie g' = s.bogie g' := rfl
@[simp] theorem State.setCtx_coach (s : State) (c : Nat) (x : Ctx) (c' : Nat) : (s.setCtx c x).coach c' = s.coach c' := rfl
@[simp] theorem State.setCtx_die (s : State) (c : Nat) (x : Ctx) (d' : Nat) : (s.setCtx c x).die d' = s.die d' := rfl
@[simp] theorem State.setCtx_hart (s : State) (c : Nat) (x : Ctx) (d' h' : Nat) : (s.setCtx c x).hart d' h' = s.hart d' h' := rfl
@[simp] theorem State.setCtx_link (s : State) (c : Nat) (x : Ctx) (l' : Nat) : (s.setCtx c x).link l' = s.link l' := rfl
@[simp] theorem State.setCtx_ing (s : State) (c : Nat) (x : Ctx) (d' : Nat) : (s.setCtx c x).ing d' = s.ing d' := rfl
@[simp] theorem State.setCtx_queue (s : State) (c : Nat) (x : Ctx) (n' : Nat) : (s.setCtx c x).queue n' = s.queue n' := rfl

/-! ### State.setLink -/

@[simp] theorem State.setLink_turn (s : State) (l : Nat) (k : Link) : (s.setLink l k).turn = s.turn := rfl
@[simp] theorem State.setLink_agenda (s : State) (l : Nat) (k : Link) : (s.setLink l k).agenda = s.agenda := rfl
@[simp] theorem State.setLink_oracle (s : State) (l : Nat) (k : Link) : (s.setLink l k).oracle = s.oracle := rfl
@[simp] theorem State.setLink_freeCtr (s : State) (l : Nat) (k : Link) : (s.setLink l k).freeCtr = s.freeCtr := rfl
@[simp] theorem State.setLink_uid (s : State) (l : Nat) (k : Link) : (s.setLink l k).uid = s.uid := rfl
@[simp] theorem State.setLink_cur (s : State) (l : Nat) (k : Link) : (s.setLink l k).cur = s.cur := rfl
@[simp] theorem State.setLink_arg (s : State) (l : Nat) (k : Link) : (s.setLink l k).arg = s.arg := rfl
@[simp] theorem State.setLink_clock (s : State) (l : Nat) (k : Link) : (s.setLink l k).clock = s.clock := rfl
@[simp] theorem State.setLink_module (s : State) (l : Nat) (k : Link) : (s.setLink l k).module = s.module := rfl
@[simp] theorem State.setLink_mem (s : State) (l : Nat) (k : Link) : (s.setLink l k).mem = s.mem := rfl
@[simp] theorem State.setLink_poison (s : State) (l : Nat) (k : Link) : (s.setLink l k).poison = s.poison := rfl
@[simp] theorem State.setLink_wiping (s : State) (l : Nat) (k : Link) : (s.setLink l k).wiping = s.wiping := rfl
@[simp] theorem State.setLink_owner (s : State) (l : Nat) (k : Link) : (s.setLink l k).owner = s.owner := rfl
@[simp] theorem State.setLink_hostMem (s : State) (l : Nat) (k : Link) : (s.setLink l k).hostMem = s.hostMem := rfl
@[simp] theorem State.setLink_errlog (s : State) (l : Nat) (k : Link) : (s.setLink l k).errlog = s.errlog := rfl
@[simp] theorem State.setLink_pageOps (s : State) (l : Nat) (k : Link) : (s.setLink l k).pageOps = s.pageOps := rfl
@[simp] theorem State.setLink_ingress (s : State) (l : Nat) (k : Link) : (s.setLink l k).ingress = s.ingress := rfl
@[simp] theorem State.setLink_bogies (s : State) (l : Nat) (k : Link) : (s.setLink l k).bogies = s.bogies := rfl
@[simp] theorem State.setLink_coaches (s : State) (l : Nat) (k : Link) : (s.setLink l k).coaches = s.coaches := rfl
@[simp] theorem State.setLink_dies (s : State) (l : Nat) (k : Link) : (s.setLink l k).dies = s.dies := rfl
@[simp] theorem State.setLink_harts (s : State) (l : Nat) (k : Link) : (s.setLink l k).harts = s.harts := rfl
@[simp] theorem State.setLink_ctxs (s : State) (l : Nat) (k : Link) : (s.setLink l k).ctxs = s.ctxs := rfl
@[simp] theorem State.setLink_queues (s : State) (l : Nat) (k : Link) : (s.setLink l k).queues = s.queues := rfl
@[simp] theorem State.setLink_slots (s : State) (l : Nat) (k : Link) : (s.setLink l k).slots = s.slots := rfl
@[simp] theorem State.setLink_notified (s : State) (l : Nat) (k : Link) : (s.setLink l k).notified = s.notified := rfl
@[simp] theorem State.setLink_waiting (s : State) (l : Nat) (k : Link) : (s.setLink l k).waiting = s.waiting := rfl
@[simp] theorem State.setLink_consists (s : State) (l : Nat) (k : Link) : (s.setLink l k).consists = s.consists := rfl
@[simp] theorem State.setLink_peers (s : State) (l : Nat) (k : Link) : (s.setLink l k).peers = s.peers := rfl
@[simp] theorem State.setLink_devices (s : State) (l : Nat) (k : Link) : (s.setLink l k).devices = s.devices := rfl
@[simp] theorem State.setLink_copies (s : State) (l : Nat) (k : Link) : (s.setLink l k).copies = s.copies := rfl
@[simp] theorem State.setLink_fwork (s : State) (l : Nat) (k : Link) : (s.setLink l k).fwork = s.fwork := rfl
@[simp] theorem State.setLink_ringq (s : State) (l : Nat) (k : Link) : (s.setLink l k).ringq = s.ringq := rfl
@[simp] theorem State.setLink_stationsDown (s : State) (l : Nat) (k : Link) : (s.setLink l k).stationsDown = s.stationsDown := rfl
@[simp] theorem State.setLink_planes (s : State) (l : Nat) (k : Link) : (s.setLink l k).planes = s.planes := rfl
@[simp] theorem State.setLink_remote (s : State) (l : Nat) (k : Link) : (s.setLink l k).remote = s.remote := rfl
@[simp] theorem State.setLink_sentSeq (s : State) (l : Nat) (k : Link) : (s.setLink l k).sentSeq = s.sentSeq := rfl
@[simp] theorem State.setLink_nextSeq (s : State) (l : Nat) (k : Link) : (s.setLink l k).nextSeq = s.nextSeq := rfl
@[simp] theorem State.setLink_peerHeld (s : State) (l : Nat) (k : Link) : (s.setLink l k).peerHeld = s.peerHeld := rfl
@[simp] theorem State.setLink_peerOut (s : State) (l : Nat) (k : Link) : (s.setLink l k).peerOut = s.peerOut := rfl
@[simp] theorem State.setLink_answers (s : State) (l : Nat) (k : Link) : (s.setLink l k).answers = s.answers := rfl
@[simp] theorem State.setLink_sys (s : State) (l : Nat) (k : Link) : (s.setLink l k).sys = s.sys := rfl
@[simp] theorem State.setLink_links (s : State) (l : Nat) (k : Link) : (s.setLink l k).links = Tab.put s.links l k := rfl
@[simp] theorem State.setLink_bogie (s : State) (l : Nat) (k : Link) (g' : Nat) : (s.setLink l k).bogie g' = s.bogie g' := rfl
@[simp] theorem State.setLink_coach (s : State) (l : Nat) (k : Link) (c' : Nat) : (s.setLink l k).coach c' = s.coach c' := rfl
@[simp] theorem State.setLink_die (s : State) (l : Nat) (k : Link) (d' : Nat) : (s.setLink l k).die d' = s.die d' := rfl
@[simp] theorem State.setLink_hart (s : State) (l : Nat) (k : Link) (d' h' : Nat) : (s.setLink l k).hart d' h' = s.hart d' h' := rfl
@[simp] theorem State.setLink_ctx (s : State) (l : Nat) (k : Link) (c' : Nat) : (s.setLink l k).ctx c' = s.ctx c' := rfl
@[simp] theorem State.setLink_ing (s : State) (l : Nat) (k : Link) (d' : Nat) : (s.setLink l k).ing d' = s.ing d' := rfl
@[simp] theorem State.setLink_queue (s : State) (l : Nat) (k : Link) (n' : Nat) : (s.setLink l k).queue n' = s.queue n' := rfl

/-! ### State.setIng -/

@[simp] theorem State.setIng_turn (s : State) (d : Nat) (x : Ingress) : (s.setIng d x).turn = s.turn := rfl
@[simp] theorem State.setIng_agenda (s : State) (d : Nat) (x : Ingress) : (s.setIng d x).agenda = s.agenda := rfl
@[simp] theorem State.setIng_oracle (s : State) (d : Nat) (x : Ingress) : (s.setIng d x).oracle = s.oracle := rfl
@[simp] theorem State.setIng_freeCtr (s : State) (d : Nat) (x : Ingress) : (s.setIng d x).freeCtr = s.freeCtr := rfl
@[simp] theorem State.setIng_uid (s : State) (d : Nat) (x : Ingress) : (s.setIng d x).uid = s.uid := rfl
@[simp] theorem State.setIng_cur (s : State) (d : Nat) (x : Ingress) : (s.setIng d x).cur = s.cur := rfl
@[simp] theorem State.setIng_arg (s : State) (d : Nat) (x : Ingress) : (s.setIng d x).arg = s.arg := rfl
@[simp] theorem State.setIng_clock (s : State) (d : Nat) (x : Ingress) : (s.setIng d x).clock = s.clock := rfl
@[simp] theorem State.setIng_module (s : State) (d : Nat) (x : Ingress) : (s.setIng d x).module = s.module := rfl
@[simp] theorem State.setIng_mem (s : State) (d : Nat) (x : Ingress) : (s.setIng d x).mem = s.mem := rfl
@[simp] theorem State.setIng_poison (s : State) (d : Nat) (x : Ingress) : (s.setIng d x).poison = s.poison := rfl
@[simp] theorem State.setIng_wiping (s : State) (d : Nat) (x : Ingress) : (s.setIng d x).wiping = s.wiping := rfl
@[simp] theorem State.setIng_owner (s : State) (d : Nat) (x : Ingress) : (s.setIng d x).owner = s.owner := rfl
@[simp] theorem State.setIng_hostMem (s : State) (d : Nat) (x : Ingress) : (s.setIng d x).hostMem = s.hostMem := rfl
@[simp] theorem State.setIng_errlog (s : State) (d : Nat) (x : Ingress) : (s.setIng d x).errlog = s.errlog := rfl
@[simp] theorem State.setIng_pageOps (s : State) (d : Nat) (x : Ingress) : (s.setIng d x).pageOps = s.pageOps := rfl
@[simp] theorem State.setIng_links (s : State) (d : Nat) (x : Ingress) : (s.setIng d x).links = s.links := rfl
@[simp] theorem State.setIng_bogies (s : State) (d : Nat) (x : Ingress) : (s.setIng d x).bogies = s.bogies := rfl
@[simp] theorem State.setIng_coaches (s : State) (d : Nat) (x : Ingress) : (s.setIng d x).coaches = s.coaches := rfl
@[simp] theorem State.setIng_dies (s : State) (d : Nat) (x : Ingress) : (s.setIng d x).dies = s.dies := rfl
@[simp] theorem State.setIng_harts (s : State) (d : Nat) (x : Ingress) : (s.setIng d x).harts = s.harts := rfl
@[simp] theorem State.setIng_ctxs (s : State) (d : Nat) (x : Ingress) : (s.setIng d x).ctxs = s.ctxs := rfl
@[simp] theorem State.setIng_queues (s : State) (d : Nat) (x : Ingress) : (s.setIng d x).queues = s.queues := rfl
@[simp] theorem State.setIng_slots (s : State) (d : Nat) (x : Ingress) : (s.setIng d x).slots = s.slots := rfl
@[simp] theorem State.setIng_notified (s : State) (d : Nat) (x : Ingress) : (s.setIng d x).notified = s.notified := rfl
@[simp] theorem State.setIng_waiting (s : State) (d : Nat) (x : Ingress) : (s.setIng d x).waiting = s.waiting := rfl
@[simp] theorem State.setIng_consists (s : State) (d : Nat) (x : Ingress) : (s.setIng d x).consists = s.consists := rfl
@[simp] theorem State.setIng_peers (s : State) (d : Nat) (x : Ingress) : (s.setIng d x).peers = s.peers := rfl
@[simp] theorem State.setIng_devices (s : State) (d : Nat) (x : Ingress) : (s.setIng d x).devices = s.devices := rfl
@[simp] theorem State.setIng_copies (s : State) (d : Nat) (x : Ingress) : (s.setIng d x).copies = s.copies := rfl
@[simp] theorem State.setIng_fwork (s : State) (d : Nat) (x : Ingress) : (s.setIng d x).fwork = s.fwork := rfl
@[simp] theorem State.setIng_ringq (s : State) (d : Nat) (x : Ingress) : (s.setIng d x).ringq = s.ringq := rfl
@[simp] theorem State.setIng_stationsDown (s : State) (d : Nat) (x : Ingress) : (s.setIng d x).stationsDown = s.stationsDown := rfl
@[simp] theorem State.setIng_planes (s : State) (d : Nat) (x : Ingress) : (s.setIng d x).planes = s.planes := rfl
@[simp] theorem State.setIng_remote (s : State) (d : Nat) (x : Ingress) : (s.setIng d x).remote = s.remote := rfl
@[simp] theorem State.setIng_sentSeq (s : State) (d : Nat) (x : Ingress) : (s.setIng d x).sentSeq = s.sentSeq := rfl
@[simp] theorem State.setIng_nextSeq (s : State) (d : Nat) (x : Ingress) : (s.setIng d x).nextSeq = s.nextSeq := rfl
@[simp] theorem State.setIng_peerHeld (s : State) (d : Nat) (x : Ingress) : (s.setIng d x).peerHeld = s.peerHeld := rfl
@[simp] theorem State.setIng_peerOut (s : State) (d : Nat) (x : Ingress) : (s.setIng d x).peerOut = s.peerOut := rfl
@[simp] theorem State.setIng_answers (s : State) (d : Nat) (x : Ingress) : (s.setIng d x).answers = s.answers := rfl
@[simp] theorem State.setIng_sys (s : State) (d : Nat) (x : Ingress) : (s.setIng d x).sys = s.sys := rfl
@[simp] theorem State.setIng_ingress (s : State) (d : Nat) (x : Ingress) : (s.setIng d x).ingress = Tab.put s.ingress d x := rfl
@[simp] theorem State.setIng_bogie (s : State) (d : Nat) (x : Ingress) (g' : Nat) : (s.setIng d x).bogie g' = s.bogie g' := rfl
@[simp] theorem State.setIng_coach (s : State) (d : Nat) (x : Ingress) (c' : Nat) : (s.setIng d x).coach c' = s.coach c' := rfl
@[simp] theorem State.setIng_die (s : State) (d : Nat) (x : Ingress) (d' : Nat) : (s.setIng d x).die d' = s.die d' := rfl
@[simp] theorem State.setIng_hart (s : State) (d : Nat) (x : Ingress) (d' h' : Nat) : (s.setIng d x).hart d' h' = s.hart d' h' := rfl
@[simp] theorem State.setIng_ctx (s : State) (d : Nat) (x : Ingress) (c' : Nat) : (s.setIng d x).ctx c' = s.ctx c' := rfl
@[simp] theorem State.setIng_link (s : State) (d : Nat) (x : Ingress) (l' : Nat) : (s.setIng d x).link l' = s.link l' := rfl
@[simp] theorem State.setIng_queue (s : State) (d : Nat) (x : Ingress) (n' : Nat) : (s.setIng d x).queue n' = s.queue n' := rfl

/-! ### State.setQueue -/

@[simp] theorem State.setQueue_turn (s : State) (n : Nat) (q : Queue) : (s.setQueue n q).turn = s.turn := rfl
@[simp] theorem State.setQueue_agenda (s : State) (n : Nat) (q : Queue) : (s.setQueue n q).agenda = s.agenda := rfl
@[simp] theorem State.setQueue_oracle (s : State) (n : Nat) (q : Queue) : (s.setQueue n q).oracle = s.oracle := rfl
@[simp] theorem State.setQueue_freeCtr (s : State) (n : Nat) (q : Queue) : (s.setQueue n q).freeCtr = s.freeCtr := rfl
@[simp] theorem State.setQueue_uid (s : State) (n : Nat) (q : Queue) : (s.setQueue n q).uid = s.uid := rfl
@[simp] theorem State.setQueue_cur (s : State) (n : Nat) (q : Queue) : (s.setQueue n q).cur = s.cur := rfl
@[simp] theorem State.setQueue_arg (s : State) (n : Nat) (q : Queue) : (s.setQueue n q).arg = s.arg := rfl
@[simp] theorem State.setQueue_clock (s : State) (n : Nat) (q : Queue) : (s.setQueue n q).clock = s.clock := rfl
@[simp] theorem State.setQueue_module (s : State) (n : Nat) (q : Queue) : (s.setQueue n q).module = s.module := rfl
@[simp] theorem State.setQueue_mem (s : State) (n : Nat) (q : Queue) : (s.setQueue n q).mem = s.mem := rfl
@[simp] theorem State.setQueue_poison (s : State) (n : Nat) (q : Queue) : (s.setQueue n q).poison = s.poison := rfl
@[simp] theorem State.setQueue_wiping (s : State) (n : Nat) (q : Queue) : (s.setQueue n q).wiping = s.wiping := rfl
@[simp] theorem State.setQueue_owner (s : State) (n : Nat) (q : Queue) : (s.setQueue n q).owner = s.owner := rfl
@[simp] theorem State.setQueue_hostMem (s : State) (n : Nat) (q : Queue) : (s.setQueue n q).hostMem = s.hostMem := rfl
@[simp] theorem State.setQueue_errlog (s : State) (n : Nat) (q : Queue) : (s.setQueue n q).errlog = s.errlog := rfl
@[simp] theorem State.setQueue_pageOps (s : State) (n : Nat) (q : Queue) : (s.setQueue n q).pageOps = s.pageOps := rfl
@[simp] theorem State.setQueue_links (s : State) (n : Nat) (q : Queue) : (s.setQueue n q).links = s.links := rfl
@[simp] theorem State.setQueue_ingress (s : State) (n : Nat) (q : Queue) : (s.setQueue n q).ingress = s.ingress := rfl
@[simp] theorem State.setQueue_bogies (s : State) (n : Nat) (q : Queue) : (s.setQueue n q).bogies = s.bogies := rfl
@[simp] theorem State.setQueue_coaches (s : State) (n : Nat) (q : Queue) : (s.setQueue n q).coaches = s.coaches := rfl
@[simp] theorem State.setQueue_dies (s : State) (n : Nat) (q : Queue) : (s.setQueue n q).dies = s.dies := rfl
@[simp] theorem State.setQueue_harts (s : State) (n : Nat) (q : Queue) : (s.setQueue n q).harts = s.harts := rfl
@[simp] theorem State.setQueue_ctxs (s : State) (n : Nat) (q : Queue) : (s.setQueue n q).ctxs = s.ctxs := rfl
@[simp] theorem State.setQueue_slots (s : State) (n : Nat) (q : Queue) : (s.setQueue n q).slots = s.slots := rfl
@[simp] theorem State.setQueue_notified (s : State) (n : Nat) (q : Queue) : (s.setQueue n q).notified = s.notified := rfl
@[simp] theorem State.setQueue_waiting (s : State) (n : Nat) (q : Queue) : (s.setQueue n q).waiting = s.waiting := rfl
@[simp] theorem State.setQueue_consists (s : State) (n : Nat) (q : Queue) : (s.setQueue n q).consists = s.consists := rfl
@[simp] theorem State.setQueue_peers (s : State) (n : Nat) (q : Queue) : (s.setQueue n q).peers = s.peers := rfl
@[simp] theorem State.setQueue_devices (s : State) (n : Nat) (q : Queue) : (s.setQueue n q).devices = s.devices := rfl
@[simp] theorem State.setQueue_copies (s : State) (n : Nat) (q : Queue) : (s.setQueue n q).copies = s.copies := rfl
@[simp] theorem State.setQueue_fwork (s : State) (n : Nat) (q : Queue) : (s.setQueue n q).fwork = s.fwork := rfl
@[simp] theorem State.setQueue_ringq (s : State) (n : Nat) (q : Queue) : (s.setQueue n q).ringq = s.ringq := rfl
@[simp] theorem State.setQueue_stationsDown (s : State) (n : Nat) (q : Queue) : (s.setQueue n q).stationsDown = s.stationsDown := rfl
@[simp] theorem State.setQueue_planes (s : State) (n : Nat) (q : Queue) : (s.setQueue n q).planes = s.planes := rfl
@[simp] theorem State.setQueue_remote (s : State) (n : Nat) (q : Queue) : (s.setQueue n q).remote = s.remote := rfl
@[simp] theorem State.setQueue_sentSeq (s : State) (n : Nat) (q : Queue) : (s.setQueue n q).sentSeq = s.sentSeq := rfl
@[simp] theorem State.setQueue_nextSeq (s : State) (n : Nat) (q : Queue) : (s.setQueue n q).nextSeq = s.nextSeq := rfl
@[simp] theorem State.setQueue_peerHeld (s : State) (n : Nat) (q : Queue) : (s.setQueue n q).peerHeld = s.peerHeld := rfl
@[simp] theorem State.setQueue_peerOut (s : State) (n : Nat) (q : Queue) : (s.setQueue n q).peerOut = s.peerOut := rfl
@[simp] theorem State.setQueue_answers (s : State) (n : Nat) (q : Queue) : (s.setQueue n q).answers = s.answers := rfl
@[simp] theorem State.setQueue_sys (s : State) (n : Nat) (q : Queue) : (s.setQueue n q).sys = s.sys := rfl
@[simp] theorem State.setQueue_queues (s : State) (n : Nat) (q : Queue) : (s.setQueue n q).queues = Tab.put s.queues n q := rfl
@[simp] theorem State.setQueue_bogie (s : State) (n : Nat) (q : Queue) (g' : Nat) : (s.setQueue n q).bogie g' = s.bogie g' := rfl
@[simp] theorem State.setQueue_coach (s : State) (n : Nat) (q : Queue) (c' : Nat) : (s.setQueue n q).coach c' = s.coach c' := rfl
@[simp] theorem State.setQueue_die (s : State) (n : Nat) (q : Queue) (d' : Nat) : (s.setQueue n q).die d' = s.die d' := rfl
@[simp] theorem State.setQueue_hart (s : State) (n : Nat) (q : Queue) (d' h' : Nat) : (s.setQueue n q).hart d' h' = s.hart d' h' := rfl
@[simp] theorem State.setQueue_ctx (s : State) (n : Nat) (q : Queue) (c' : Nat) : (s.setQueue n q).ctx c' = s.ctx c' := rfl
@[simp] theorem State.setQueue_link (s : State) (n : Nat) (q : Queue) (l' : Nat) : (s.setQueue n q).link l' = s.link l' := rfl
@[simp] theorem State.setQueue_ing (s : State) (n : Nat) (q : Queue) (d' : Nat) : (s.setQueue n q).ing d' = s.ing d' := rfl

/-! ### State.add -/

@[simp] theorem State.add_turn (s : State) (l : List Happening) : (s.add l).turn = s.turn := rfl
@[simp] theorem State.add_oracle (s : State) (l : List Happening) : (s.add l).oracle = s.oracle := rfl
@[simp] theorem State.add_freeCtr (s : State) (l : List Happening) : (s.add l).freeCtr = s.freeCtr := rfl
@[simp] theorem State.add_uid (s : State) (l : List Happening) : (s.add l).uid = s.uid := rfl
@[simp] theorem State.add_cur (s : State) (l : List Happening) : (s.add l).cur = s.cur := rfl
@[simp] theorem State.add_arg (s : State) (l : List Happening) : (s.add l).arg = s.arg := rfl
@[simp] theorem State.add_clock (s : State) (l : List Happening) : (s.add l).clock = s.clock := rfl
@[simp] theorem State.add_module (s : State) (l : List Happening) : (s.add l).module = s.module := rfl
@[simp] theorem State.add_mem (s : State) (l : List Happening) : (s.add l).mem = s.mem := rfl
@[simp] theorem State.add_poison (s : State) (l : List Happening) : (s.add l).poison = s.poison := rfl
@[simp] theorem State.add_wiping (s : State) (l : List Happening) : (s.add l).wiping = s.wiping := rfl
@[simp] theorem State.add_owner (s : State) (l : List Happening) : (s.add l).owner = s.owner := rfl
@[simp] theorem State.add_hostMem (s : State) (l : List Happening) : (s.add l).hostMem = s.hostMem := rfl
@[simp] theorem State.add_errlog (s : State) (l : List Happening) : (s.add l).errlog = s.errlog := rfl
@[simp] theorem State.add_pageOps (s : State) (l : List Happening) : (s.add l).pageOps = s.pageOps := rfl
@[simp] theorem State.add_links (s : State) (l : List Happening) : (s.add l).links = s.links := rfl
@[simp] theorem State.add_ingress (s : State) (l : List Happening) : (s.add l).ingress = s.ingress := rfl
@[simp] theorem State.add_bogies (s : State) (l : List Happening) : (s.add l).bogies = s.bogies := rfl
@[simp] theorem State.add_coaches (s : State) (l : List Happening) : (s.add l).coaches = s.coaches := rfl
@[simp] theorem State.add_dies (s : State) (l : List Happening) : (s.add l).dies = s.dies := rfl
@[simp] theorem State.add_harts (s : State) (l : List Happening) : (s.add l).harts = s.harts := rfl
@[simp] theorem State.add_ctxs (s : State) (l : List Happening) : (s.add l).ctxs = s.ctxs := rfl
@[simp] theorem State.add_queues (s : State) (l : List Happening) : (s.add l).queues = s.queues := rfl
@[simp] theorem State.add_slots (s : State) (l : List Happening) : (s.add l).slots = s.slots := rfl
@[simp] theorem State.add_notified (s : State) (l : List Happening) : (s.add l).notified = s.notified := rfl
@[simp] theorem State.add_waiting (s : State) (l : List Happening) : (s.add l).waiting = s.waiting := rfl
@[simp] theorem State.add_consists (s : State) (l : List Happening) : (s.add l).consists = s.consists := rfl
@[simp] theorem State.add_peers (s : State) (l : List Happening) : (s.add l).peers = s.peers := rfl
@[simp] theorem State.add_devices (s : State) (l : List Happening) : (s.add l).devices = s.devices := rfl
@[simp] theorem State.add_copies (s : State) (l : List Happening) : (s.add l).copies = s.copies := rfl
@[simp] theorem State.add_fwork (s : State) (l : List Happening) : (s.add l).fwork = s.fwork := rfl
@[simp] theorem State.add_ringq (s : State) (l : List Happening) : (s.add l).ringq = s.ringq := rfl
@[simp] theorem State.add_stationsDown (s : State) (l : List Happening) : (s.add l).stationsDown = s.stationsDown := rfl
@[simp] theorem State.add_planes (s : State) (l : List Happening) : (s.add l).planes = s.planes := rfl
@[simp] theorem State.add_remote (s : State) (l : List Happening) : (s.add l).remote = s.remote := rfl
@[simp] theorem State.add_sentSeq (s : State) (l : List Happening) : (s.add l).sentSeq = s.sentSeq := rfl
@[simp] theorem State.add_nextSeq (s : State) (l : List Happening) : (s.add l).nextSeq = s.nextSeq := rfl
@[simp] theorem State.add_peerHeld (s : State) (l : List Happening) : (s.add l).peerHeld = s.peerHeld := rfl
@[simp] theorem State.add_peerOut (s : State) (l : List Happening) : (s.add l).peerOut = s.peerOut := rfl
@[simp] theorem State.add_answers (s : State) (l : List Happening) : (s.add l).answers = s.answers := rfl
@[simp] theorem State.add_sys (s : State) (l : List Happening) : (s.add l).sys = s.sys := rfl
@[simp] theorem State.add_agenda (s : State) (l : List Happening) : (s.add l).agenda = s.agenda ++ l := rfl
@[simp] theorem State.add_bogie (s : State) (l : List Happening) (g' : Nat) : (s.add l).bogie g' = s.bogie g' := rfl
@[simp] theorem State.add_coach (s : State) (l : List Happening) (c' : Nat) : (s.add l).coach c' = s.coach c' := rfl
@[simp] theorem State.add_die (s : State) (l : List Happening) (d' : Nat) : (s.add l).die d' = s.die d' := rfl
@[simp] theorem State.add_hart (s : State) (l : List Happening) (d' h' : Nat) : (s.add l).hart d' h' = s.hart d' h' := rfl
@[simp] theorem State.add_ctx (s : State) (l : List Happening) (c' : Nat) : (s.add l).ctx c' = s.ctx c' := rfl
@[simp] theorem State.add_link (s : State) (l : List Happening) (l' : Nat) : (s.add l).link l' = s.link l' := rfl
@[simp] theorem State.add_ing (s : State) (l : List Happening) (d' : Nat) : (s.add l).ing d' = s.ing d' := rfl
@[simp] theorem State.add_queue (s : State) (l : List Happening) (n' : Nat) : (s.add l).queue n' = s.queue n' := rfl

/-! ### State.writeByte -/

@[simp] theorem State.writeByte_turn (s : State) (a : Nat) (v : Byte) : (s.writeByte a v).turn = s.turn := rfl
@[simp] theorem State.writeByte_agenda (s : State) (a : Nat) (v : Byte) : (s.writeByte a v).agenda = s.agenda := rfl
@[simp] theorem State.writeByte_oracle (s : State) (a : Nat) (v : Byte) : (s.writeByte a v).oracle = s.oracle := rfl
@[simp] theorem State.writeByte_freeCtr (s : State) (a : Nat) (v : Byte) : (s.writeByte a v).freeCtr = s.freeCtr := rfl
@[simp] theorem State.writeByte_uid (s : State) (a : Nat) (v : Byte) : (s.writeByte a v).uid = s.uid := rfl
@[simp] theorem State.writeByte_cur (s : State) (a : Nat) (v : Byte) : (s.writeByte a v).cur = s.cur := rfl
@[simp] theorem State.writeByte_arg (s : State) (a : Nat) (v : Byte) : (s.writeByte a v).arg = s.arg := rfl
@[simp] theorem State.writeByte_clock (s : State) (a : Nat) (v : Byte) : (s.writeByte a v).clock = s.clock := rfl
@[simp] theorem State.writeByte_module (s : State) (a : Nat) (v : Byte) : (s.writeByte a v).module = s.module := rfl
@[simp] theorem State.writeByte_poison (s : State) (a : Nat) (v : Byte) : (s.writeByte a v).poison = s.poison := rfl
@[simp] theorem State.writeByte_wiping (s : State) (a : Nat) (v : Byte) : (s.writeByte a v).wiping = s.wiping := rfl
@[simp] theorem State.writeByte_owner (s : State) (a : Nat) (v : Byte) : (s.writeByte a v).owner = s.owner := rfl
@[simp] theorem State.writeByte_hostMem (s : State) (a : Nat) (v : Byte) : (s.writeByte a v).hostMem = s.hostMem := rfl
@[simp] theorem State.writeByte_errlog (s : State) (a : Nat) (v : Byte) : (s.writeByte a v).errlog = s.errlog := rfl
@[simp] theorem State.writeByte_pageOps (s : State) (a : Nat) (v : Byte) : (s.writeByte a v).pageOps = s.pageOps := rfl
@[simp] theorem State.writeByte_links (s : State) (a : Nat) (v : Byte) : (s.writeByte a v).links = s.links := rfl
@[simp] theorem State.writeByte_ingress (s : State) (a : Nat) (v : Byte) : (s.writeByte a v).ingress = s.ingress := rfl
@[simp] theorem State.writeByte_bogies (s : State) (a : Nat) (v : Byte) : (s.writeByte a v).bogies = s.bogies := rfl
@[simp] theorem State.writeByte_coaches (s : State) (a : Nat) (v : Byte) : (s.writeByte a v).coaches = s.coaches := rfl
@[simp] theorem State.writeByte_dies (s : State) (a : Nat) (v : Byte) : (s.writeByte a v).dies = s.dies := rfl
@[simp] theorem State.writeByte_harts (s : State) (a : Nat) (v : Byte) : (s.writeByte a v).harts = s.harts := rfl
@[simp] theorem State.writeByte_ctxs (s : State) (a : Nat) (v : Byte) : (s.writeByte a v).ctxs = s.ctxs := rfl
@[simp] theorem State.writeByte_queues (s : State) (a : Nat) (v : Byte) : (s.writeByte a v).queues = s.queues := rfl
@[simp] theorem State.writeByte_slots (s : State) (a : Nat) (v : Byte) : (s.writeByte a v).slots = s.slots := rfl
@[simp] theorem State.writeByte_notified (s : State) (a : Nat) (v : Byte) : (s.writeByte a v).notified = s.notified := rfl
@[simp] theorem State.writeByte_waiting (s : State) (a : Nat) (v : Byte) : (s.writeByte a v).waiting = s.waiting := rfl
@[simp] theorem State.writeByte_consists (s : State) (a : Nat) (v : Byte) : (s.writeByte a v).consists = s.consists := rfl
@[simp] theorem State.writeByte_peers (s : State) (a : Nat) (v : Byte) : (s.writeByte a v).peers = s.peers := rfl
@[simp] theorem State.writeByte_devices (s : State) (a : Nat) (v : Byte) : (s.writeByte a v).devices = s.devices := rfl
@[simp] theorem State.writeByte_copies (s : State) (a : Nat) (v : Byte) : (s.writeByte a v).copies = s.copies := rfl
@[simp] theorem State.writeByte_fwork (s : State) (a : Nat) (v : Byte) : (s.writeByte a v).fwork = s.fwork := rfl
@[simp] theorem State.writeByte_ringq (s : State) (a : Nat) (v : Byte) : (s.writeByte a v).ringq = s.ringq := rfl
@[simp] theorem State.writeByte_stationsDown (s : State) (a : Nat) (v : Byte) : (s.writeByte a v).stationsDown = s.stationsDown := rfl
@[simp] theorem State.writeByte_planes (s : State) (a : Nat) (v : Byte) : (s.writeByte a v).planes = s.planes := rfl
@[simp] theorem State.writeByte_remote (s : State) (a : Nat) (v : Byte) : (s.writeByte a v).remote = s.remote := rfl
@[simp] theorem State.writeByte_sentSeq (s : State) (a : Nat) (v : Byte) : (s.writeByte a v).sentSeq = s.sentSeq := rfl
@[simp] theorem State.writeByte_nextSeq (s : State) (a : Nat) (v : Byte) : (s.writeByte a v).nextSeq = s.nextSeq := rfl
@[simp] theorem State.writeByte_peerHeld (s : State) (a : Nat) (v : Byte) : (s.writeByte a v).peerHeld = s.peerHeld := rfl
@[simp] theorem State.writeByte_peerOut (s : State) (a : Nat) (v : Byte) : (s.writeByte a v).peerOut = s.peerOut := rfl
@[simp] theorem State.writeByte_answers (s : State) (a : Nat) (v : Byte) : (s.writeByte a v).answers = s.answers := rfl
@[simp] theorem State.writeByte_sys (s : State) (a : Nat) (v : Byte) : (s.writeByte a v).sys = s.sys := rfl
@[simp] theorem State.writeByte_mem (s : State) (a : Nat) (v : Byte) : (s.writeByte a v).mem = Tab.set s.mem unlisted a v := rfl
@[simp] theorem State.writeByte_bogie (s : State) (a : Nat) (v : Byte) (g' : Nat) : (s.writeByte a v).bogie g' = s.bogie g' := rfl
@[simp] theorem State.writeByte_coach (s : State) (a : Nat) (v : Byte) (c' : Nat) : (s.writeByte a v).coach c' = s.coach c' := rfl
@[simp] theorem State.writeByte_die (s : State) (a : Nat) (v : Byte) (d' : Nat) : (s.writeByte a v).die d' = s.die d' := rfl
@[simp] theorem State.writeByte_hart (s : State) (a : Nat) (v : Byte) (d' h' : Nat) : (s.writeByte a v).hart d' h' = s.hart d' h' := rfl
@[simp] theorem State.writeByte_ctx (s : State) (a : Nat) (v : Byte) (c' : Nat) : (s.writeByte a v).ctx c' = s.ctx c' := rfl
@[simp] theorem State.writeByte_link (s : State) (a : Nat) (v : Byte) (l' : Nat) : (s.writeByte a v).link l' = s.link l' := rfl
@[simp] theorem State.writeByte_ing (s : State) (a : Nat) (v : Byte) (d' : Nat) : (s.writeByte a v).ing d' = s.ing d' := rfl
@[simp] theorem State.writeByte_queue (s : State) (a : Nat) (v : Byte) (n' : Nat) : (s.writeByte a v).queue n' = s.queue n' := rfl

/-! ### State.writeBytes -/

@[simp] theorem State.writeBytes_turn (s : State) (a : Nat) (l : List Byte) : (s.writeBytes a l).turn = s.turn := rfl
@[simp] theorem State.writeBytes_agenda (s : State) (a : Nat) (l : List Byte) : (s.writeBytes a l).agenda = s.agenda := rfl
@[simp] theorem State.writeBytes_oracle (s : State) (a : Nat) (l : List Byte) : (s.writeBytes a l).oracle = s.oracle := rfl
@[simp] theorem State.writeBytes_freeCtr (s : State) (a : Nat) (l : List Byte) : (s.writeBytes a l).freeCtr = s.freeCtr := rfl
@[simp] theorem State.writeBytes_uid (s : State) (a : Nat) (l : List Byte) : (s.writeBytes a l).uid = s.uid := rfl
@[simp] theorem State.writeBytes_cur (s : State) (a : Nat) (l : List Byte) : (s.writeBytes a l).cur = s.cur := rfl
@[simp] theorem State.writeBytes_arg (s : State) (a : Nat) (l : List Byte) : (s.writeBytes a l).arg = s.arg := rfl
@[simp] theorem State.writeBytes_clock (s : State) (a : Nat) (l : List Byte) : (s.writeBytes a l).clock = s.clock := rfl
@[simp] theorem State.writeBytes_module (s : State) (a : Nat) (l : List Byte) : (s.writeBytes a l).module = s.module := rfl
@[simp] theorem State.writeBytes_poison (s : State) (a : Nat) (l : List Byte) : (s.writeBytes a l).poison = s.poison := rfl
@[simp] theorem State.writeBytes_wiping (s : State) (a : Nat) (l : List Byte) : (s.writeBytes a l).wiping = s.wiping := rfl
@[simp] theorem State.writeBytes_owner (s : State) (a : Nat) (l : List Byte) : (s.writeBytes a l).owner = s.owner := rfl
@[simp] theorem State.writeBytes_hostMem (s : State) (a : Nat) (l : List Byte) : (s.writeBytes a l).hostMem = s.hostMem := rfl
@[simp] theorem State.writeBytes_errlog (s : State) (a : Nat) (l : List Byte) : (s.writeBytes a l).errlog = s.errlog := rfl
@[simp] theorem State.writeBytes_pageOps (s : State) (a : Nat) (l : List Byte) : (s.writeBytes a l).pageOps = s.pageOps := rfl
@[simp] theorem State.writeBytes_links (s : State) (a : Nat) (l : List Byte) : (s.writeBytes a l).links = s.links := rfl
@[simp] theorem State.writeBytes_ingress (s : State) (a : Nat) (l : List Byte) : (s.writeBytes a l).ingress = s.ingress := rfl
@[simp] theorem State.writeBytes_bogies (s : State) (a : Nat) (l : List Byte) : (s.writeBytes a l).bogies = s.bogies := rfl
@[simp] theorem State.writeBytes_coaches (s : State) (a : Nat) (l : List Byte) : (s.writeBytes a l).coaches = s.coaches := rfl
@[simp] theorem State.writeBytes_dies (s : State) (a : Nat) (l : List Byte) : (s.writeBytes a l).dies = s.dies := rfl
@[simp] theorem State.writeBytes_harts (s : State) (a : Nat) (l : List Byte) : (s.writeBytes a l).harts = s.harts := rfl
@[simp] theorem State.writeBytes_ctxs (s : State) (a : Nat) (l : List Byte) : (s.writeBytes a l).ctxs = s.ctxs := rfl
@[simp] theorem State.writeBytes_queues (s : State) (a : Nat) (l : List Byte) : (s.writeBytes a l).queues = s.queues := rfl
@[simp] theorem State.writeBytes_slots (s : State) (a : Nat) (l : List Byte) : (s.writeBytes a l).slots = s.slots := rfl
@[simp] theorem State.writeBytes_notified (s : State) (a : Nat) (l : List Byte) : (s.writeBytes a l).notified = s.notified := rfl
@[simp] theorem State.writeBytes_waiting (s : State) (a : Nat) (l : List Byte) : (s.writeBytes a l).waiting = s.waiting := rfl
@[simp] theorem State.writeBytes_consists (s : State) (a : Nat) (l : List Byte) : (s.writeBytes a l).consists = s.consists := rfl
@[simp] theorem State.writeBytes_peers (s : State) (a : Nat) (l : List Byte) : (s.writeBytes a l).peers = s.peers := rfl
@[simp] theorem State.writeBytes_devices (s : State) (a : Nat) (l : List Byte) : (s.writeBytes a l).devices = s.devices := rfl
@[simp] theorem State.writeBytes_copies (s : State) (a : Nat) (l : List Byte) : (s.writeBytes a l).copies = s.copies := rfl
@[simp] theorem State.writeBytes_fwork (s : State) (a : Nat) (l : List Byte) : (s.writeBytes a l).fwork = s.fwork := rfl
@[simp] theorem State.writeBytes_ringq (s : State) (a : Nat) (l : List Byte) : (s.writeBytes a l).ringq = s.ringq := rfl
@[simp] theorem State.writeBytes_stationsDown (s : State) (a : Nat) (l : List Byte) : (s.writeBytes a l).stationsDown = s.stationsDown := rfl
@[simp] theorem State.writeBytes_planes (s : State) (a : Nat) (l : List Byte) : (s.writeBytes a l).planes = s.planes := rfl
@[simp] theorem State.writeBytes_remote (s : State) (a : Nat) (l : List Byte) : (s.writeBytes a l).remote = s.remote := rfl
@[simp] theorem State.writeBytes_sentSeq (s : State) (a : Nat) (l : List Byte) : (s.writeBytes a l).sentSeq = s.sentSeq := rfl
@[simp] theorem State.writeBytes_nextSeq (s : State) (a : Nat) (l : List Byte) : (s.writeBytes a l).nextSeq = s.nextSeq := rfl
@[simp] theorem State.writeBytes_peerHeld (s : State) (a : Nat) (l : List Byte) : (s.writeBytes a l).peerHeld = s.peerHeld := rfl
@[simp] theorem State.writeBytes_peerOut (s : State) (a : Nat) (l : List Byte) : (s.writeBytes a l).peerOut = s.peerOut := rfl
@[simp] theorem State.writeBytes_answers (s : State) (a : Nat) (l : List Byte) : (s.writeBytes a l).answers = s.answers := rfl
@[simp] theorem State.writeBytes_sys (s : State) (a : Nat) (l : List Byte) : (s.writeBytes a l).sys = s.sys := rfl
@[simp] theorem State.writeBytes_mem (s : State) (a : Nat) (l : List Byte) : (s.writeBytes a l).mem = Tab.setList s.mem unlisted a l := rfl
@[simp] theorem State.writeBytes_bogie (s : State) (a : Nat) (l : List Byte) (g' : Nat) : (s.writeBytes a l).bogie g' = s.bogie g' := rfl
@[simp] theorem State.writeBytes_coach (s : State) (a : Nat) (l : List Byte) (c' : Nat) : (s.writeBytes a l).coach c' = s.coach c' := rfl
@[simp] theorem State.writeBytes_die (s : State) (a : Nat) (l : List Byte) (d' : Nat) : (s.writeBytes a l).die d' = s.die d' := rfl
@[simp] theorem State.writeBytes_hart (s : State) (a : Nat) (l : List Byte) (d' h' : Nat) : (s.writeBytes a l).hart d' h' = s.hart d' h' := rfl
@[simp] theorem State.writeBytes_ctx (s : State) (a : Nat) (l : List Byte) (c' : Nat) : (s.writeBytes a l).ctx c' = s.ctx c' := rfl
@[simp] theorem State.writeBytes_link (s : State) (a : Nat) (l : List Byte) (l' : Nat) : (s.writeBytes a l).link l' = s.link l' := rfl
@[simp] theorem State.writeBytes_ing (s : State) (a : Nat) (l : List Byte) (d' : Nat) : (s.writeBytes a l).ing d' = s.ing d' := rfl
@[simp] theorem State.writeBytes_queue (s : State) (a : Nat) (l : List Byte) (n' : Nat) : (s.writeBytes a l).queue n' = s.queue n' := rfl

/-! ### State.log -/

@[simp] theorem State.log_turn (s : State) (code ctx addr : Nat) : (s.log code ctx addr).turn = s.turn := rfl
@[simp] theorem State.log_agenda (s : State) (code ctx addr : Nat) : (s.log code ctx addr).agenda = s.agenda := rfl
@[simp] theorem State.log_oracle (s : State) (code ctx addr : Nat) : (s.log code ctx addr).oracle = s.oracle := rfl
@[simp] theorem State.log_freeCtr (s : State) (code ctx addr : Nat) : (s.log code ctx addr).freeCtr = s.freeCtr := rfl
@[simp] theorem State.log_uid (s : State) (code ctx addr : Nat) : (s.log code ctx addr).uid = s.uid := rfl
@[simp] theorem State.log_cur (s : State) (code ctx addr : Nat) : (s.log code ctx addr).cur = s.cur := rfl
@[simp] theorem State.log_arg (s : State) (code ctx addr : Nat) : (s.log code ctx addr).arg = s.arg := rfl
@[simp] theorem State.log_clock (s : State) (code ctx addr : Nat) : (s.log code ctx addr).clock = s.clock := rfl
@[simp] theorem State.log_module (s : State) (code ctx addr : Nat) : (s.log code ctx addr).module = s.module := rfl
@[simp] theorem State.log_mem (s : State) (code ctx addr : Nat) : (s.log code ctx addr).mem = s.mem := rfl
@[simp] theorem State.log_poison (s : State) (code ctx addr : Nat) : (s.log code ctx addr).poison = s.poison := rfl
@[simp] theorem State.log_wiping (s : State) (code ctx addr : Nat) : (s.log code ctx addr).wiping = s.wiping := rfl
@[simp] theorem State.log_owner (s : State) (code ctx addr : Nat) : (s.log code ctx addr).owner = s.owner := rfl
@[simp] theorem State.log_hostMem (s : State) (code ctx addr : Nat) : (s.log code ctx addr).hostMem = s.hostMem := rfl
@[simp] theorem State.log_pageOps (s : State) (code ctx addr : Nat) : (s.log code ctx addr).pageOps = s.pageOps := rfl
@[simp] theorem State.log_links (s : State) (code ctx addr : Nat) : (s.log code ctx addr).links = s.links := rfl
@[simp] theorem State.log_ingress (s : State) (code ctx addr : Nat) : (s.log code ctx addr).ingress = s.ingress := rfl
@[simp] theorem State.log_bogies (s : State) (code ctx addr : Nat) : (s.log code ctx addr).bogies = s.bogies := rfl
@[simp] theorem State.log_coaches (s : State) (code ctx addr : Nat) : (s.log code ctx addr).coaches = s.coaches := rfl
@[simp] theorem State.log_dies (s : State) (code ctx addr : Nat) : (s.log code ctx addr).dies = s.dies := rfl
@[simp] theorem State.log_harts (s : State) (code ctx addr : Nat) : (s.log code ctx addr).harts = s.harts := rfl
@[simp] theorem State.log_ctxs (s : State) (code ctx addr : Nat) : (s.log code ctx addr).ctxs = s.ctxs := rfl
@[simp] theorem State.log_queues (s : State) (code ctx addr : Nat) : (s.log code ctx addr).queues = s.queues := rfl
@[simp] theorem State.log_slots (s : State) (code ctx addr : Nat) : (s.log code ctx addr).slots = s.slots := rfl
@[simp] theorem State.log_notified (s : State) (code ctx addr : Nat) : (s.log code ctx addr).notified = s.notified := rfl
@[simp] theorem State.log_waiting (s : State) (code ctx addr : Nat) : (s.log code ctx addr).waiting = s.waiting := rfl
@[simp] theorem State.log_consists (s : State) (code ctx addr : Nat) : (s.log code ctx addr).consists = s.consists := rfl
@[simp] theorem State.log_peers (s : State) (code ctx addr : Nat) : (s.log code ctx addr).peers = s.peers := rfl
@[simp] theorem State.log_devices (s : State) (code ctx addr : Nat) : (s.log code ctx addr).devices = s.devices := rfl
@[simp] theorem State.log_copies (s : State) (code ctx addr : Nat) : (s.log code ctx addr).copies = s.copies := rfl
@[simp] theorem State.log_fwork (s : State) (code ctx addr : Nat) : (s.log code ctx addr).fwork = s.fwork := rfl
@[simp] theorem State.log_ringq (s : State) (code ctx addr : Nat) : (s.log code ctx addr).ringq = s.ringq := rfl
@[simp] theorem State.log_stationsDown (s : State) (code ctx addr : Nat) : (s.log code ctx addr).stationsDown = s.stationsDown := rfl
@[simp] theorem State.log_planes (s : State) (code ctx addr : Nat) : (s.log code ctx addr).planes = s.planes := rfl
@[simp] theorem State.log_remote (s : State) (code ctx addr : Nat) : (s.log code ctx addr).remote = s.remote := rfl
@[simp] theorem State.log_sentSeq (s : State) (code ctx addr : Nat) : (s.log code ctx addr).sentSeq = s.sentSeq := rfl
@[simp] theorem State.log_nextSeq (s : State) (code ctx addr : Nat) : (s.log code ctx addr).nextSeq = s.nextSeq := rfl
@[simp] theorem State.log_peerHeld (s : State) (code ctx addr : Nat) : (s.log code ctx addr).peerHeld = s.peerHeld := rfl
@[simp] theorem State.log_peerOut (s : State) (code ctx addr : Nat) : (s.log code ctx addr).peerOut = s.peerOut := rfl
@[simp] theorem State.log_answers (s : State) (code ctx addr : Nat) : (s.log code ctx addr).answers = s.answers := rfl
@[simp] theorem State.log_sys (s : State) (code ctx addr : Nat) : (s.log code ctx addr).sys = s.sys := rfl
@[simp] theorem State.log_errlog (s : State) (code ctx addr : Nat) : (s.log code ctx addr).errlog = s.errlog ++ [{ code := code, ctx := ctx, addr := addr }] := rfl
@[simp] theorem State.log_bogie (s : State) (code ctx addr : Nat) (g' : Nat) : (s.log code ctx addr).bogie g' = s.bogie g' := rfl
@[simp] theorem State.log_coach (s : State) (code ctx addr : Nat) (c' : Nat) : (s.log code ctx addr).coach c' = s.coach c' := rfl
@[simp] theorem State.log_die (s : State) (code ctx addr : Nat) (d' : Nat) : (s.log code ctx addr).die d' = s.die d' := rfl
@[simp] theorem State.log_hart (s : State) (code ctx addr : Nat) (d' h' : Nat) : (s.log code ctx addr).hart d' h' = s.hart d' h' := rfl
@[simp] theorem State.log_ctx (s : State) (code ctx addr : Nat) (c' : Nat) : (s.log code ctx addr).ctx c' = s.ctx c' := rfl
@[simp] theorem State.log_link (s : State) (code ctx addr : Nat) (l' : Nat) : (s.log code ctx addr).link l' = s.link l' := rfl
@[simp] theorem State.log_ing (s : State) (code ctx addr : Nat) (d' : Nat) : (s.log code ctx addr).ing d' = s.ing d' := rfl
@[simp] theorem State.log_queue (s : State) (code ctx addr : Nat) (n' : Nat) : (s.log code ctx addr).queue n' = s.queue n' := rfl

/-! ### Reading back a part that was replaced -/

@[simp] theorem State.setBogie_same (s : State) (g : Nat) (b : Bogie) : (s.setBogie g b).bogie g = b := Tab.get_put_same ..
theorem State.setBogie_other (s : State) (g g' : Nat) (b : Bogie) (h : g ≠ g') : (s.setBogie g b).bogie g' = s.bogie g' :=
  Tab.get_put_other _ _ _ _ _ h
@[simp] theorem State.setCoach_same (s : State) (c : Nat) (x : Coach) : (s.setCoach c x).coach c = x := Tab.get_put_same ..
theorem State.setCoach_other (s : State) (c c' : Nat) (x : Coach) (h : c ≠ c') : (s.setCoach c x).coach c' = s.coach c' :=
  Tab.get_put_other _ _ _ _ _ h
@[simp] theorem State.setHart_same (s : State) (d h : Nat) (x : Hart) : (s.setHart d h x).hart d h = x := Tab.get_put_same ..
@[simp] theorem State.setCtx_same (s : State) (c : Nat) (x : Ctx) : (s.setCtx c x).ctx c = x := Tab.get_put_same ..
theorem State.setCtx_other (s : State) (c c' : Nat) (x : Ctx) (h : c ≠ c') : (s.setCtx c x).ctx c' = s.ctx c' :=
  Tab.get_put_other _ _ _ _ _ h
@[simp] theorem State.setLink_same (s : State) (l : Nat) (k : Link) : (s.setLink l k).link l = k := Tab.get_put_same ..
@[simp] theorem State.setIng_same (s : State) (d : Nat) (x : Ingress) : (s.setIng d x).ing d = x := Tab.get_put_same ..
@[simp] theorem State.setQueue_same (s : State) (n : Nat) (q : Queue) : (s.setQueue n q).queue n = q := Tab.get_put_same ..
/-- Die d's own entry; an unlisted die starts its pointer at its own first bogie. -/
@[simp] theorem State.setDie_same (s : State) (d : Nat) (x : Die) : (s.setDie d x).die d = x := Tab.get_put_same ..
theorem State.setDie_other (s : State) (d d' : Nat) (x : Die) (h : d ≠ d') : (s.setDie d x).die d' = s.die d' :=
  Tab.get_put_other _ _ _ _ _ h

/-! ### Registers -/

@[simp] theorem Cpu.getX_zero (c : Cpu) : c.getX 0 = 0 := rfl
@[simp] theorem Cpu.setX_zero (c : Cpu) (v : Word) : c.setX 0 v = c := rfl
@[simp] theorem Cpu.setX_pc (c : Cpu) (r : BitVec 5) (v : Word) : (c.setX r v).pc = c.pc := by
  unfold Cpu.setX; split <;> rfl
@[simp] theorem Cpu.setX_pfx (c : Cpu) (r : BitVec 5) (v : Word) : (c.setX r v).pfx = c.pfx := by
  unfold Cpu.setX; split <;> rfl
/-- Reading a register after a write of one: x0 stays zero, the written one has its value, the others theirs (R43). -/
theorem Cpu.getX_setX (c : Cpu) (r q : BitVec 5) (v : Word) :
    (c.setX r v).getX q = if q = 0 then 0 else if q = r then v else c.getX q := by
  unfold Cpu.setX Cpu.getX
  by_cases hq : q = 0
  · rw [if_pos hq, if_pos hq]
  · rw [if_neg hq, if_neg hq]
    by_cases hr : r = 0
    · rw [if_pos hr, if_neg hq, if_neg (fun e => hq (e.trans hr))]
    · rw [if_neg hr]
      by_cases e : q = r
      · rw [if_pos e, e]; exact Tab.get_set_same ..
      · rw [if_neg e, if_neg hq]
        exact Tab.get_set_other _ _ _ _ _ fun h => e (BitVec.eq_of_toNat_eq h.symm)
@[simp] theorem Frame.setX_cpu (f : Frame) (r : BitVec 5) (v : Word) : (f.setX r v).cpu = f.cpu.setX r v := rfl
@[simp] theorem Frame.setX_hdr (f : Frame) (r : BitVec 5) (v : Word) : (f.setX r v).hdr = f.hdr := rfl
/-- Reading a vector register after a write of one. -/
theorem Frame.getV_setV (f : Frame) (r q : BitVec 5) (v : Vec) : (f.setV r v).getV q = if q = r then v else f.getV q := by
  unfold Frame.setV Frame.getV
  by_cases e : q = r
  · rw [if_pos e, e]; exact Tab.get_set_same ..
  · rw [if_neg e]
    exact Tab.get_set_other _ _ _ _ _ fun h => e (BitVec.eq_of_toNat_eq h.symm)

/-! ### A word's end -/

@[simp] theorem Bogie.setTop_stack (b : Bogie) (f : Frame) : (b.setTop f).stack = f :: b.stack.tail := rfl
@[simp] theorem Bogie.setTop_phase (b : Bogie) (f : Frame) : (b.setTop f).phase = b.phase := rfl
@[simp] theorem Bogie.setTop_rep (b : Bogie) (f : Frame) : (b.setTop f).rep = b.rep := rfl
@[simp] theorem Bogie.setTop_outbox (b : Bogie) (f : Frame) : (b.setTop f).outbox = b.outbox := rfl
@[simp] theorem Bogie.setTop_scratch (b : Bogie) (f : Frame) : (b.setTop f).scratch = b.scratch := rfl
@[simp] theorem Bogie.boundary_phase (b : Bogie) (g : Nat) (k : Boundary) : (b.boundary g k).b.phase = .boundary k := rfl
@[simp] theorem Bogie.boundary_stack (b : Bogie) (g : Nat) (k : Boundary) : (b.boundary g k).b.stack = b.stack := rfl
@[simp] theorem Bogie.boundary_outbox (b : Bogie) (g : Nat) (k : Boundary) : (b.boundary g k).b.outbox = b.outbox := rfl

/-- Outside a repetition a word that completes goes on with the next word and ends the prefix (R68). -/
theorem Bogie.advance_plain (b : Bogie) (f : Frame) (keep : Bool) (h : b.rep = none) :
    b.advance f keep = b.setTop { f with
      cpu := { f.cpu with pc := f.cpu.pc + 4, pfx := if keep then f.cpu.pfx else {} }, instret := f.instret + 1 } := by
  simp [Bogie.advance, h]

/-- A word that completes changes no field of its bogie but the stack, the repetition, the kept walk and the line buffer. -/
theorem Bogie.advance_frame (b : Bogie) (f : Frame) (keep : Bool) :
    (b.advance f keep).outbox = b.outbox ∧ (b.advance f keep).scratch = b.scratch ∧ (b.advance f keep).phase = b.phase ∧
      (b.advance f keep).journal = b.journal ∧ (b.advance f keep).scale = b.scale ∧ (b.advance f keep).l1 = b.l1 := by
  cases h : b.rep <;> simp only [Bogie.advance, h] <;> exact ⟨rfl, rfl, rfl, rfl, rfl, rfl⟩

/-- The state after a word differs in its bogie and in the happenings under way alone (R137). -/
theorem State.afterWord_frame (s : State) (g : Nat) (r : BRes) :
    s.afterWord g r = { s with bogies := Tab.put s.bogies g r.b, agenda := s.agenda ++ r.evs } := rfl

end Sys2Proof.Machine
end

