-- ==== Sys2Proof/Laws/Exec.lean ====
section
/-! SUPPORT. What the shared shapes of words answer, said once. -/

namespace Sys2Proof.Machine

open Sys2Proof.Safety

/-- The stack of a bogie whose top frame is known. -/
theorem Bogie.stack_of_head {b : Bogie} {f : Frame} (h : b.stack.head? = some f) : ∃ r, b.stack = f :: r := by
  cases e : b.stack with
  | nil => simp [e] at h
  | cons a r => simp [e] at h; exact ⟨r, by rw [h]⟩

/-- A word whose gate is open does its own effect or stops, a fault that lacks room as a forced commit. -/
theorem Bogie.run_open {b : Bogie} {i : Instr} {g : Nat} {f : Frame} {body : Except Stop BRes}
    (h : gate i f.cpu.pfx f.hdr (b.wordNow i) = none) :
    b.run i g f body = match body with | .ok r => r | .error st => b.stop g f (b.orCommit i f st) := by
  simp only [Bogie.run, h] <;> cases body <;> rfl

/-- A word whose gate is shut stops there, whatever its body. -/
theorem Bogie.run_shut {b : Bogie} {i : Instr} {g : Nat} {f : Frame} {body : Except Stop BRes} {st : Stop}
    (h : gate i f.cpu.pfx f.hdr (b.wordNow i) = some st) : b.run i g f body = b.stop g f (b.orCommit i f st) := by
  simp only [Bogie.run, h]

/-- A task word on a bogie. -/
theorem taskWord_bogie {s : State} {g : Nat} {f : Frame} {i : Instr} (body : State → Nat → Bogie → Frame → Except Stop BRes)
    (hc : s.cur = .bogie g) (ht : (s.bogie g).stack.head? = some f) :
    taskWord i body s = .next (s.afterWord g ((s.bogie g).run i g f (body s g (s.bogie g) f))) := by
  obtain ⟨r, hr⟩ := Bogie.stack_of_head ht
  simp only [taskWord, hc, hr]

/-- An agent's word on a bogie. -/
theorem agentWord_bogie {s : State} {g : Nat} {f : Frame} {i : Instr} (body : State → Nat → Bogie → Frame → Except Stop BRes)
    (hb : State → Nat → Nat → Except Stop State) (hc : s.cur = .bogie g) (ht : (s.bogie g).stack.head? = some f) :
    agentWord i body hb s = .next (s.afterWord g ((s.bogie g).run i g f (body s g (s.bogie g) f))) := by
  obtain ⟨r, hr⟩ := Bogie.stack_of_head ht
  simp only [agentWord, hc, hr]

/-- A task word that runs does its own effect or stops. -/
theorem taskWord_runs {s : State} {g : Nat} {f : Frame} {i : Instr} {body : State → Nat → Bogie → Frame → Except Stop BRes}
    (h : Runs s g f i) : taskWord i body s =
      .next (s.afterWord g (match body s g (s.bogie g) f with | .ok r => r | .error st => (s.bogie g).stop g f ((s.bogie g).orCommit i f st))) := by
  rw [taskWord_bogie body h.cur h.top, Bogie.run_open h.gate]

/-- An agent's word that runs on a bogie does its own effect or stops. -/
theorem agentWord_runs {s : State} {g : Nat} {f : Frame} {i : Instr} {body : State → Nat → Bogie → Frame → Except Stop BRes}
    {hb : State → Nat → Nat → Except Stop State} (h : Runs s g f i) : agentWord i body hb s =
      .next (s.afterWord g (match body s g (s.bogie g) f with | .ok r => r | .error st => (s.bogie g).stop g f ((s.bogie g).orCommit i f st))) := by
  rw [agentWord_bogie body hb h.cur h.top, Bogie.run_open h.gate]

/-- An agent's word that runs on a hart. -/
theorem agentWord_hart {s : State} {d h : Nat} {i : Instr} {body : State → Nat → Bogie → Frame → Except Stop BRes}
    {hb : State → Nat → Nat → Except Stop State} (r : HartRuns s d h i) : agentWord i body hb s =
      .next (match hb s d h with | .ok t => t | .error (.fault code va _) => s.hartFault d h code va | .error _ => s) := by
  simp only [agentWord, r.cur, State.hartWord, r.mode, r.pfx, Bool.not_true, Bool.or_self, Bool.false_eq_true, if_false] <;> rfl

/-- A scalar word that completes leaves the registers and the PC that its function gives, on a task and on a hart. -/
theorem scalarWord_effect {i : Instr} {f r : Cpu → Cpu} {e : Cpu → Except Stop Cpu} (he : exec i = scalarWord i e)
    (hf : ∀ c, e c = .ok (f c)) (hr : ∀ c, f c = r c) : ScalarEffect i r := by
  constructor
  · intro s g fr h
    rw [he, scalarWord, agentWord_runs h, hf, hr]; rfl
  · intro s d h hh
    rw [he, scalarWord, agentWord_hart hh, hf, hr]; rfl

/-- A scalar word of the shape writeX writes its register. -/
theorem writeX_effect {i : Instr} {d : BitVec 5} {v v' : Cpu → Word} (he : exec i = scalarWord i (writeX d v))
    (hv : ∀ c, v c = v' c) : WritesX i d v' :=
  scalarWord_effect (f := fun c => (c.setX d (v c)).next) he (fun _ => rfl) (fun c => by
    simp only [hv, Cpu.next, Cpu.setX_pc])

end Sys2Proof.Machine
end

