-- ==== Sys2Proof/Laws/Memory.lean ====
section
/-! SUPPORT. Memory: a read after a write, what a write leaves alone, and that every operation on memory keeps its canonical
form. Memory changes in State.writeByte, State.writeBytes and State.moveMem alone; a module reset keeps it (log 30). -/

namespace Sys2Proof.Machine

/-- A byte just written is read back. -/
@[simp] theorem State.readByte_writeByte_same (s : State) (a : Nat) (v : Byte) : (s.writeByte a v).readByte a = v :=
  Tab.get_set_same ..

/-- Writing a byte leaves every other byte alone. -/
theorem State.readByte_writeByte_other (s : State) (a b : Nat) (v : Byte) (h : a ≠ b) :
    (s.writeByte a v).readByte b = s.readByte b := Tab.get_set_other _ _ _ _ _ h

/-- Byte i of a list just written is read back. -/
theorem State.readByte_writeBytes (s : State) (a i : Nat) (l : List Byte) (h : i < l.length) :
    (s.writeBytes a l).readByte (a + i) = l[i] := Tab.get_setList _ _ _ _ _ h

/-- Writing bytes leaves every byte outside them alone. -/
theorem State.readByte_writeBytes_other (s : State) (a b : Nat) (l : List Byte) (h : b < a ∨ a + l.length ≤ b) :
    (s.writeBytes a l).readByte b = s.readByte b := Tab.get_setList_other _ _ _ _ _ h

/-- Writing a byte keeps the canonical form. -/
theorem memWf_writeByte (s : State) (a : Nat) (v : Byte) (h : memWf s.mem = true) : memWf (s.writeByte a v).mem = true :=
  Tab.wf_set a v h

/-- Writing bytes keeps the canonical form. -/
theorem memWf_writeBytes (s : State) (a : Nat) (l : List Byte) (h : memWf s.mem = true) : memWf (s.writeBytes a l).mem = true :=
  Tab.wf_setList l a h

/-- Writing entries one after the other keeps the canonical form. -/
theorem memWf_foldl (l : List (Nat × Byte)) (m : List Host.Cell) (h : memWf m = true) :
    memWf (l.foldl (fun m e => Tab.set m unlisted e.1 e.2) m) = true := by
  induction l generalizing m with
  | nil => exact h
  | cons e r ih => exact ih _ (Tab.wf_set e.1 e.2 h)

/-- Moving memory from one place to another keeps the canonical form. -/
theorem memWf_moveMem (s : State) (src dst n : Nat) (h : memWf s.mem = true) : memWf (s.moveMem src dst n).mem = true :=
  memWf_foldl _ _ (Tab.wf_filter _ h)

/-- A module reset keeps the canonical form. -/
theorem memWf_moduleReset (s : State) (h : memWf s.mem = true) : memWf (moduleReset s).mem = true := h

/-- The reset memory has the canonical form. -/
theorem memWf_reset : memWf State.reset.mem = true := rfl

/-- The n bytes of a number are n. -/
@[simp] theorem bytesOfNat_length (n v : Nat) : (bytesOfNat n v).length = n := by
  induction n generalizing v with
  | zero => rfl
  | succ k ih => simp [bytesOfNat, ih]

/-- A number is read back from its bytes, as far as they hold it. -/
theorem natOfBytes_bytesOfNat (n v : Nat) : natOfBytes (bytesOfNat n v) = v % 256 ^ n := by
  induction n generalizing v with
  | zero => simp [bytesOfNat, natOfBytes, Nat.mod_one]
  | succ k ih =>
    rw [bytesOfNat, natOfBytes, ih, Nat.pow_succ, Nat.mul_comm (256 ^ k), Nat.mod_mul]
    simp [BitVec.toNat_ofNat]

end Sys2Proof.Machine
end

