-- ==== Sys2Proof/Laws/PerInstr.lean ====
section
/-! SUPPORT. Facts about every instruction as syntax, one lemma per constructor: that its word decodes to it. -/

set_option Elab.async false

namespace Sys2Proof.Laws

/-- The bits of a word that is written as a number. -/
theorem field_ofNat {N lo n : Nat} {x : BitVec n} {w : BitVec 32} (h : BitVec.ofNat 32 N = w) (hn : lo + n ≤ 32)
    (hx : N / 2 ^ lo % 2 ^ n = x.toNat) : field w lo n = x := by
  subst h
  apply BitVec.eq_of_toNat_eq
  obtain ⟨k, hk⟩ : ∃ k, (32 : Nat) = lo + n + k := ⟨32 - (lo + n), by omega⟩
  have e : (2 : Nat) ^ 32 = 2 ^ lo * (2 ^ n * 2 ^ k) := by rw [hk, Nat.pow_add, Nat.pow_add, Nat.mul_assoc]
  rw [field, BitVec.extractLsb'_toNat, BitVec.toNat_ofNat, Nat.shiftRight_eq_div_pow, ← hx, e, Nat.mod_mul_right_div_self,
    Nat.mod_mul_right_mod]

/-- Bits that a word written as a number does not have. -/
theorem field_ne {N lo n : Nat} {x : BitVec n} {w : BitVec 32} (h : BitVec.ofNat 32 N = w) (hn : lo + n ≤ 32)
    (hx : N / 2 ^ lo % 2 ^ n ≠ x.toNat) : field w lo n ≠ x := by
  intro e
  have h' := field_ofNat (x := BitVec.ofNat n (N / 2 ^ lo % 2 ^ n)) h hn (by simp)
  exact hx (by rw [← e, h', BitVec.toNat_ofNat, Nat.mod_mod])

/-- A word whose fields are those of a well-formed instruction decodes to it. -/
theorem decode_of {w : BitVec 32} {i : Instr} (h : decodeFields w = some i) (hwf : wellFormed i = true) : decode w = some i := by
  rw [decode, h]; exact if_pos hwf

/-- The word of an instruction decodes to that instruction, with every operand. -/
def Encoding.Statement (i : Instr) : Prop := ∀ w, wellFormed i = true → encode i = some w → decode w = some i

theorem decodeFields_00 {w : BitVec 32} (h : field w 26 6 = 0x0#6) : decodeFields w = decodeMajor00 w := by
  rw [decodeFields, h]; rfl

theorem decodeFields_01 {w : BitVec 32} (h : field w 26 6 = 0x1#6) : decodeFields w = decodeMajor01 w := by
  rw [decodeFields, h]; rfl

theorem decodeFields_02 {w : BitVec 32} (h : field w 26 6 = 0x2#6) : decodeFields w = decodeMajor02 w := by
  rw [decodeFields, h]; rfl

theorem decodeFields_03 {w : BitVec 32} (h : field w 26 6 = 0x3#6) : decodeFields w = decodeMajor03 w := by
  rw [decodeFields, h]; rfl

theorem decodeFields_04 {w : BitVec 32} (h : field w 26 6 = 0x4#6) : decodeFields w = decodeMajor04 w := by
  rw [decodeFields, h]; rfl

theorem decodeFields_05 {w : BitVec 32} (h : field w 26 6 = 0x5#6) : decodeFields w = decodeMajor05 w := by
  rw [decodeFields, h]; rfl

theorem decodeFields_06 {w : BitVec 32} (h : field w 26 6 = 0x6#6) : decodeFields w = decodeMajor06 w := by
  rw [decodeFields, h]; rfl

theorem decodeFields_07 {w : BitVec 32} (h : field w 26 6 = 0x7#6) : decodeFields w = decodeMajor07 w := by
  rw [decodeFields, h]; rfl

theorem decodeFields_08 {w : BitVec 32} (h : field w 26 6 = 0x8#6) : decodeFields w = decodeMajor08 w := by
  rw [decodeFields, h]; rfl

theorem decodeFields_09 {w : BitVec 32} (h : field w 26 6 = 0x9#6) : decodeFields w = decodeMajor09 w := by
  rw [decodeFields, h]; rfl

theorem decodeFields_0A {w : BitVec 32} (h : field w 26 6 = 0xA#6) : decodeFields w = decodeMajor0A w := by
  rw [decodeFields, h]; rfl

theorem decodeFields_0B {w : BitVec 32} (h : field w 26 6 = 0xB#6) : decodeFields w = decodeMajor0B w := by
  rw [decodeFields, h]; rfl

theorem decodeFields_0C {w : BitVec 32} (h : field w 26 6 = 0xC#6) : decodeFields w = decodeMajor0C w := by
  rw [decodeFields, h]; rfl

theorem decodeFields_0D {w : BitVec 32} (h : field w 26 6 = 0xD#6) : decodeFields w = decodeMajor0D w := by
  rw [decodeFields, h]; rfl

theorem decodeFields_0E {w : BitVec 32} (h : field w 26 6 = 0xE#6) : decodeFields w = decodeMajor0E w := by
  rw [decodeFields, h]; rfl

theorem decodeFields_0F {w : BitVec 32} (h : field w 26 6 = 0xF#6) : decodeFields w = decodeMajor0F w := by
  rw [decodeFields, h]; rfl

theorem decodeFields_10 {w : BitVec 32} (h : field w 26 6 = 0x10#6) : decodeFields w = decodeMajor10 w := by
  rw [decodeFields, h]; rfl

theorem decodeFields_11 {w : BitVec 32} (h : field w 26 6 = 0x11#6) : decodeFields w = decodeMajor11 w := by
  rw [decodeFields, h]; rfl

theorem decodeFields_12 {w : BitVec 32} (h : field w 26 6 = 0x12#6) : decodeFields w = decodeMajor12 w := by
  rw [decodeFields, h]; rfl

theorem decodeFields_13 {w : BitVec 32} (h : field w 26 6 = 0x13#6) : decodeFields w = decodeMajor13 w := by
  rw [decodeFields, h]; rfl

theorem decodeFields_14 {w : BitVec 32} (h : field w 26 6 = 0x14#6) : decodeFields w = decodeMajor14 w := by
  rw [decodeFields, h]; rfl

theorem decodeFields_15 {w : BitVec 32} (h : field w 26 6 = 0x15#6) : decodeFields w = decodeMajor15 w := by
  rw [decodeFields, h]; rfl

theorem decodeFields_16 {w : BitVec 32} (h : field w 26 6 = 0x16#6) : decodeFields w = decodeMajor16 w := by
  rw [decodeFields, h]; rfl

theorem decodeFields_17 {w : BitVec 32} (h : field w 26 6 = 0x17#6) : decodeFields w = decodeMajor17 w := by
  rw [decodeFields, h]; rfl

theorem decodeFields_18 {w : BitVec 32} (h : field w 26 6 = 0x18#6) : decodeFields w = decodeMajor18 w := by
  rw [decodeFields, h]; rfl

theorem decodeFields_19 {w : BitVec 32} (h : field w 26 6 = 0x19#6) : decodeFields w = decodeMajor19 w := by
  rw [decodeFields, h]; rfl

theorem decodeFields_1A {w : BitVec 32} (h : field w 26 6 = 0x1A#6) : decodeFields w = decodeMajor1A w := by
  rw [decodeFields, h]; rfl

theorem decodeFields_1B {w : BitVec 32} (h : field w 26 6 = 0x1B#6) : decodeFields w = decodeMajor1B w := by
  rw [decodeFields, h]; rfl

theorem decodeFields_1C {w : BitVec 32} (h : field w 26 6 = 0x1C#6) : decodeFields w = decodeMajor1C w := by
  rw [decodeFields, h]; rfl

theorem decodeFields_1D {w : BitVec 32} (h : field w 26 6 = 0x1D#6) : decodeFields w = decodeMajor1D w := by
  rw [decodeFields, h]; rfl

theorem decodeFields_1E {w : BitVec 32} (h : field w 26 6 = 0x1E#6) : decodeFields w = decodeMajor1E w := by
  rw [decodeFields, h]; rfl

theorem decodeFields_1F {w : BitVec 32} (h : field w 26 6 = 0x1F#6) : decodeFields w = decodeMajor1F w := by
  rw [decodeFields, h]; rfl

theorem decodeFields_20 {w : BitVec 32} (h : field w 26 6 = 0x20#6) : decodeFields w = decodeMajor20 w := by
  rw [decodeFields, h]; rfl

theorem decodeFields_21 {w : BitVec 32} (h : field w 26 6 = 0x21#6) : decodeFields w = decodeMajor21 w := by
  rw [decodeFields, h]; rfl

theorem decodeFields_22 {w : BitVec 32} (h : field w 26 6 = 0x22#6) : decodeFields w = decodeMajor22 w := by
  rw [decodeFields, h]; rfl

theorem decodeFields_23 {w : BitVec 32} (h : field w 26 6 = 0x23#6) : decodeFields w = decodeMajor23 w := by
  rw [decodeFields, h]; rfl

theorem decodeFields_24 {w : BitVec 32} (h : field w 26 6 = 0x24#6) : decodeFields w = decodeMajor24 w := by
  rw [decodeFields, h]; rfl

theorem decodeFields_25 {w : BitVec 32} (h : field w 26 6 = 0x25#6) : decodeFields w = decodeMajor25 w := by
  rw [decodeFields, h]; rfl

theorem decodeFields_26 {w : BitVec 32} (h : field w 26 6 = 0x26#6) : decodeFields w = decodeMajor26 w := by
  rw [decodeFields, h]; rfl

theorem decodeFields_27 {w : BitVec 32} (h : field w 26 6 = 0x27#6) : decodeFields w = decodeMajor27 w := by
  rw [decodeFields, h]; rfl

theorem decodeFields_28 {w : BitVec 32} (h : field w 26 6 = 0x28#6) : decodeFields w = decodeMajor28 w := by
  rw [decodeFields, h]; rfl

theorem decodeFields_29 {w : BitVec 32} (h : field w 26 6 = 0x29#6) : decodeFields w = decodeMajor29 w := by
  rw [decodeFields, h]; rfl

theorem decodeFields_2A {w : BitVec 32} (h : field w 26 6 = 0x2A#6) : decodeFields w = decodeMajor2A w := by
  rw [decodeFields, h]; rfl

theorem decodeFields_2B {w : BitVec 32} (h : field w 26 6 = 0x2B#6) : decodeFields w = decodeMajor2B w := by
  rw [decodeFields, h]; rfl

theorem decodeFields_2C {w : BitVec 32} (h : field w 26 6 = 0x2C#6) : decodeFields w = decodeMajor2C w := by
  rw [decodeFields, h]; rfl

theorem decodeFields_2D {w : BitVec 32} (h : field w 26 6 = 0x2D#6) : decodeFields w = decodeMajor2D w := by
  rw [decodeFields, h]; rfl

theorem decodeFields_2E {w : BitVec 32} (h : field w 26 6 = 0x2E#6) : decodeFields w = decodeMajor2E w := by
  rw [decodeFields, h]; rfl

theorem decodeFields_2F {w : BitVec 32} (h : field w 26 6 = 0x2F#6) : decodeFields w = decodeMajor2F w := by
  rw [decodeFields, h]; rfl

theorem decodeFields_30 {w : BitVec 32} (h : field w 26 6 = 0x30#6) : decodeFields w = decodeMajor30 w := by
  rw [decodeFields, h]; rfl

theorem decodeFields_31 {w : BitVec 32} (h : field w 26 6 = 0x31#6) : decodeFields w = decodeMajor31 w := by
  rw [decodeFields, h]; rfl

theorem decodeFields_32 {w : BitVec 32} (h : field w 26 6 = 0x32#6) : decodeFields w = decodeMajor32 w := by
  rw [decodeFields, h]; rfl

theorem decodeFields_33 {w : BitVec 32} (h : field w 26 6 = 0x33#6) : decodeFields w = decodeMajor33 w := by
  rw [decodeFields, h]; rfl

theorem decodeFields_34 {w : BitVec 32} (h : field w 26 6 = 0x34#6) : decodeFields w = decodeMajor34 w := by
  rw [decodeFields, h]; rfl

theorem decodeFields_3F {w : BitVec 32} (h : field w 26 6 = 0x3F#6) : decodeFields w = decodeMajor3F w := by
  rw [decodeFields, h]; rfl

theorem Encoding.ill (i : BitVec 26) : Encoding.Statement (.ill i) := by
  intro word _ heq
  replace heq : BitVec.ofNat 32 (0x00000000 + i.toNat) = word := Option.some.inj heq
  have lt_i := i.isLt
  have eqm : field word 26 6 = 0x0#6 := field_ofNat heq (by decide) (by simp only [BitVec.toNat_ofNat]; omega)
  have eq0 : field word 0 26 = i := field_ofNat heq (by decide) (by omega)
  exact decode_of (by rw [decodeFields_00 eqm]; simp [decodeMajor00, eq0]) rfl

theorem Encoding.add (d : BitVec 5) (a : BitVec 5) (b : BitVec 5) : Encoding.Statement (.add d a b) := by
  intro word _ heq
  replace heq : BitVec.ofNat 32 (0x04000000 + d.toNat * 0x200000 + a.toNat * 0x10000 + b.toNat * 0x800) = word := Option.some.inj heq
  have lt_d := d.isLt
  have lt_a := a.isLt
  have lt_b := b.isLt
  have eqm : field word 26 6 = 0x1#6 := field_ofNat heq (by decide) (by simp only [BitVec.toNat_ofNat]; omega)
  have eq0 : field word 0 11 = 0x0#11 := field_ofNat heq (by decide) (by simp only [BitVec.toNat_ofNat]; omega)
  have eq1 : field word 11 5 = b := field_ofNat heq (by decide) (by omega)
  have eq2 : field word 16 5 = a := field_ofNat heq (by decide) (by omega)
  have eq3 : field word 21 5 = d := field_ofNat heq (by decide) (by omega)
  exact decode_of (by rw [decodeFields_01 eqm]; simp [decodeMajor01, eq0, eq1, eq2, eq3]) rfl

theorem Encoding.sub (d : BitVec 5) (a : BitVec 5) (b : BitVec 5) : Encoding.Statement (.sub d a b) := by
  intro word _ heq
  replace heq : BitVec.ofNat 32 (0x04000040 + d.toNat * 0x200000 + a.toNat * 0x10000 + b.toNat * 0x800) = word := Option.some.inj heq
  have lt_d := d.isLt
  have lt_a := a.isLt
  have lt_b := b.isLt
  have eqm : field word 26 6 = 0x1#6 := field_ofNat heq (by decide) (by simp only [BitVec.toNat_ofNat]; omega)
  have eq0 : field word 0 11 = 0x40#11 := field_ofNat heq (by decide) (by simp only [BitVec.toNat_ofNat]; omega)
  have eq1 : field word 11 5 = b := field_ofNat heq (by decide) (by omega)
  have eq2 : field word 16 5 = a := field_ofNat heq (by decide) (by omega)
  have eq3 : field word 21 5 = d := field_ofNat heq (by decide) (by omega)
  exact decode_of (by rw [decodeFields_01 eqm]; simp [decodeMajor01, eq0, eq1, eq2, eq3]) rfl

theorem Encoding.and (d : BitVec 5) (a : BitVec 5) (b : BitVec 5) : Encoding.Statement (.and d a b) := by
  intro word _ heq
  replace heq : BitVec.ofNat 32 (0x04000080 + d.toNat * 0x200000 + a.toNat * 0x10000 + b.toNat * 0x800) = word := Option.some.inj heq
  have lt_d := d.isLt
  have lt_a := a.isLt
  have lt_b := b.isLt
  have eqm : field word 26 6 = 0x1#6 := field_ofNat heq (by decide) (by simp only [BitVec.toNat_ofNat]; omega)
  have eq0 : field word 0 11 = 0x80#11 := field_ofNat heq (by decide) (by simp only [BitVec.toNat_ofNat]; omega)
  have eq1 : field word 11 5 = b := field_ofNat heq (by decide) (by omega)
  have eq2 : field word 16 5 = a := field_ofNat heq (by decide) (by omega)
  have eq3 : field word 21 5 = d := field_ofNat heq (by decide) (by omega)
  exact decode_of (by rw [decodeFields_01 eqm]; simp [decodeMajor01, eq0, eq1, eq2, eq3]) rfl

theorem Encoding.or (d : BitVec 5) (a : BitVec 5) (b : BitVec 5) : Encoding.Statement (.or d a b) := by
  intro word _ heq
  replace heq : BitVec.ofNat 32 (0x040000C0 + d.toNat * 0x200000 + a.toNat * 0x10000 + b.toNat * 0x800) = word := Option.some.inj heq
  have lt_d := d.isLt
  have lt_a := a.isLt
  have lt_b := b.isLt
  have eqm : field word 26 6 = 0x1#6 := field_ofNat heq (by decide) (by simp only [BitVec.toNat_ofNat]; omega)
  have eq0 : field word 0 11 = 0xC0#11 := field_ofNat heq (by decide) (by simp only [BitVec.toNat_ofNat]; omega)
  have eq1 : field word 11 5 = b := field_ofNat heq (by decide) (by omega)
  have eq2 : field word 16 5 = a := field_ofNat heq (by decide) (by omega)
  have eq3 : field word 21 5 = d := field_ofNat heq (by decide) (by omega)
  exact decode_of (by rw [decodeFields_01 eqm]; simp [decodeMajor01, eq0, eq1, eq2, eq3]) rfl

theorem Encoding.xor (d : BitVec 5) (a : BitVec 5) (b : BitVec 5) : Encoding.Statement (.xor d a b) := by
  intro word _ heq
  replace heq : BitVec.ofNat 32 (0x04000100 + d.toNat * 0x200000 + a.toNat * 0x10000 + b.toNat * 0x800) = word := Option.some.inj heq
  have lt_d := d.isLt
  have lt_a := a.isLt
  have lt_b := b.isLt
  have eqm : field word 26 6 = 0x1#6 := field_ofNat heq (by decide) (by simp only [BitVec.toNat_ofNat]; omega)
  have eq0 : field word 0 11 = 0x100#11 := field_ofNat heq (by decide) (by simp only [BitVec.toNat_ofNat]; omega)
  have eq1 : field word 11 5 = b := field_ofNat heq (by decide) (by omega)
  have eq2 : field word 16 5 = a := field_ofNat heq (by decide) (by omega)
  have eq3 : field word 21 5 = d := field_ofNat heq (by decide) (by omega)
  exact decode_of (by rw [decodeFields_01 eqm]; simp [decodeMajor01, eq0, eq1, eq2, eq3]) rfl

theorem Encoding.andn (d : BitVec 5) (a : BitVec 5) (b : BitVec 5) : Encoding.Statement (.andn d a b) := by
  intro word _ heq
  replace heq : BitVec.ofNat 32 (0x04000140 + d.toNat * 0x200000 + a.toNat * 0x10000 + b.toNat * 0x800) = word := Option.some.inj heq
  have lt_d := d.isLt
  have lt_a := a.isLt
  have lt_b := b.isLt
  have eqm : field word 26 6 = 0x1#6 := field_ofNat heq (by decide) (by simp only [BitVec.toNat_ofNat]; omega)
  have eq0 : field word 0 11 = 0x140#11 := field_ofNat heq (by decide) (by simp only [BitVec.toNat_ofNat]; omega)
  have eq1 : field word 11 5 = b := field_ofNat heq (by decide) (by omega)
  have eq2 : field word 16 5 = a := field_ofNat heq (by decide) (by omega)
  have eq3 : field word 21 5 = d := field_ofNat heq (by decide) (by omega)
  exact decode_of (by rw [decodeFields_01 eqm]; simp [decodeMajor01, eq0, eq1, eq2, eq3]) rfl

theorem Encoding.orn (d : BitVec 5) (a : BitVec 5) (b : BitVec 5) : Encoding.Statement (.orn d a b) := by
  intro word _ heq
  replace heq : BitVec.ofNat 32 (0x04000180 + d.toNat * 0x200000 + a.toNat * 0x10000 + b.toNat * 0x800) = word := Option.some.inj heq
  have lt_d := d.isLt
  have lt_a := a.isLt
  have lt_b := b.isLt
  have eqm : field word 26 6 = 0x1#6 := field_ofNat heq (by decide) (by simp only [BitVec.toNat_ofNat]; omega)
  have eq0 : field word 0 11 = 0x180#11 := field_ofNat heq (by decide) (by simp only [BitVec.toNat_ofNat]; omega)
  have eq1 : field word 11 5 = b := field_ofNat heq (by decide) (by omega)
  have eq2 : field word 16 5 = a := field_ofNat heq (by decide) (by omega)
  have eq3 : field word 21 5 = d := field_ofNat heq (by decide) (by omega)
  exact decode_of (by rw [decodeFields_01 eqm]; simp [decodeMajor01, eq0, eq1, eq2, eq3]) rfl

theorem Encoding.shl (d : BitVec 5) (a : BitVec 5) (b : BitVec 5) : Encoding.Statement (.shl d a b) := by
  intro word _ heq
  replace heq : BitVec.ofNat 32 (0x040001C0 + d.toNat * 0x200000 + a.toNat * 0x10000 + b.toNat * 0x800) = word := Option.some.inj heq
  have lt_d := d.isLt
  have lt_a := a.isLt
  have lt_b := b.isLt
  have eqm : field word 26 6 = 0x1#6 := field_ofNat heq (by decide) (by simp only [BitVec.toNat_ofNat]; omega)
  have eq0 : field word 0 11 = 0x1C0#11 := field_ofNat heq (by decide) (by simp only [BitVec.toNat_ofNat]; omega)
  have eq1 : field word 11 5 = b := field_ofNat heq (by decide) (by omega)
  have eq2 : field word 16 5 = a := field_ofNat heq (by decide) (by omega)
  have eq3 : field word 21 5 = d := field_ofNat heq (by decide) (by omega)
  exact decode_of (by rw [decodeFields_01 eqm]; simp [decodeMajor01, eq0, eq1, eq2, eq3]) rfl

theorem Encoding.shr (d : BitVec 5) (a : BitVec 5) (b : BitVec 5) : Encoding.Statement (.shr d a b) := by
  intro word _ heq
  replace heq : BitVec.ofNat 32 (0x04000200 + d.toNat * 0x200000 + a.toNat * 0x10000 + b.toNat * 0x800) = word := Option.some.inj heq
  have lt_d := d.isLt
  have lt_a := a.isLt
  have lt_b := b.isLt
  have eqm : field word 26 6 = 0x1#6 := field_ofNat heq (by decide) (by simp only [BitVec.toNat_ofNat]; omega)
  have eq0 : field word 0 11 = 0x200#11 := field_ofNat heq (by decide) (by simp only [BitVec.toNat_ofNat]; omega)
  have eq1 : field word 11 5 = b := field_ofNat heq (by decide) (by omega)
  have eq2 : field word 16 5 = a := field_ofNat heq (by decide) (by omega)
  have eq3 : field word 21 5 = d := field_ofNat heq (by decide) (by omega)
  exact decode_of (by rw [decodeFields_01 eqm]; simp [decodeMajor01, eq0, eq1, eq2, eq3]) rfl

theorem Encoding.sra (d : BitVec 5) (a : BitVec 5) (b : BitVec 5) : Encoding.Statement (.sra d a b) := by
  intro word _ heq
  replace heq : BitVec.ofNat 32 (0x04000240 + d.toNat * 0x200000 + a.toNat * 0x10000 + b.toNat * 0x800) = word := Option.some.inj heq
  have lt_d := d.isLt
  have lt_a := a.isLt
  have lt_b := b.isLt
  have eqm : field word 26 6 = 0x1#6 := field_ofNat heq (by decide) (by simp only [BitVec.toNat_ofNat]; omega)
  have eq0 : field word 0 11 = 0x240#11 := field_ofNat heq (by decide) (by simp only [BitVec.toNat_ofNat]; omega)
  have eq1 : field word 11 5 = b := field_ofNat heq (by decide) (by omega)
  have eq2 : field word 16 5 = a := field_ofNat heq (by decide) (by omega)
  have eq3 : field word 21 5 = d := field_ofNat heq (by decide) (by omega)
  exact decode_of (by rw [decodeFields_01 eqm]; simp [decodeMajor01, eq0, eq1, eq2, eq3]) rfl

theorem Encoding.min (d : BitVec 5) (a : BitVec 5) (b : BitVec 5) : Encoding.Statement (.min d a b) := by
  intro word _ heq
  replace heq : BitVec.ofNat 32 (0x04000280 + d.toNat * 0x200000 + a.toNat * 0x10000 + b.toNat * 0x800) = word := Option.some.inj heq
  have lt_d := d.isLt
  have lt_a := a.isLt
  have lt_b := b.isLt
  have eqm : field word 26 6 = 0x1#6 := field_ofNat heq (by decide) (by simp only [BitVec.toNat_ofNat]; omega)
  have eq0 : field word 0 11 = 0x280#11 := field_ofNat heq (by decide) (by simp only [BitVec.toNat_ofNat]; omega)
  have eq1 : field word 11 5 = b := field_ofNat heq (by decide) (by omega)
  have eq2 : field word 16 5 = a := field_ofNat heq (by decide) (by omega)
  have eq3 : field word 21 5 = d := field_ofNat heq (by decide) (by omega)
  exact decode_of (by rw [decodeFields_01 eqm]; simp [decodeMajor01, eq0, eq1, eq2, eq3]) rfl

theorem Encoding.max (d : BitVec 5) (a : BitVec 5) (b : BitVec 5) : Encoding.Statement (.max d a b) := by
  intro word _ heq
  replace heq : BitVec.ofNat 32 (0x040002C0 + d.toNat * 0x200000 + a.toNat * 0x10000 + b.toNat * 0x800) = word := Option.some.inj heq
  have lt_d := d.isLt
  have lt_a := a.isLt
  have lt_b := b.isLt
  have eqm : field word 26 6 = 0x1#6 := field_ofNat heq (by decide) (by simp only [BitVec.toNat_ofNat]; omega)
  have eq0 : field word 0 11 = 0x2C0#11 := field_ofNat heq (by decide) (by simp only [BitVec.toNat_ofNat]; omega)
  have eq1 : field word 11 5 = b := field_ofNat heq (by decide) (by omega)
  have eq2 : field word 16 5 = a := field_ofNat heq (by decide) (by omega)
  have eq3 : field word 21 5 = d := field_ofNat heq (by decide) (by omega)
  exact decode_of (by rw [decodeFields_01 eqm]; simp [decodeMajor01, eq0, eq1, eq2, eq3]) rfl

theorem Encoding.minn (d : BitVec 5) (a : BitVec 5) (b : BitVec 5) : Encoding.Statement (.minn d a b) := by
  intro word _ heq
  replace heq : BitVec.ofNat 32 (0x04000300 + d.toNat * 0x200000 + a.toNat * 0x10000 + b.toNat * 0x800) = word := Option.some.inj heq
  have lt_d := d.isLt
  have lt_a := a.isLt
  have lt_b := b.isLt
  have eqm : field word 26 6 = 0x1#6 := field_ofNat heq (by decide) (by simp only [BitVec.toNat_ofNat]; omega)
  have eq0 : field word 0 11 = 0x300#11 := field_ofNat heq (by decide) (by simp only [BitVec.toNat_ofNat]; omega)
  have eq1 : field word 11 5 = b := field_ofNat heq (by decide) (by omega)
  have eq2 : field word 16 5 = a := field_ofNat heq (by decide) (by omega)
  have eq3 : field word 21 5 = d := field_ofNat heq (by decide) (by omega)
  exact decode_of (by rw [decodeFields_01 eqm]; simp [decodeMajor01, eq0, eq1, eq2, eq3]) rfl

theorem Encoding.maxn (d : BitVec 5) (a : BitVec 5) (b : BitVec 5) : Encoding.Statement (.maxn d a b) := by
  intro word _ heq
  replace heq : BitVec.ofNat 32 (0x04000340 + d.toNat * 0x200000 + a.toNat * 0x10000 + b.toNat * 0x800) = word := Option.some.inj heq
  have lt_d := d.isLt
  have lt_a := a.isLt
  have lt_b := b.isLt
  have eqm : field word 26 6 = 0x1#6 := field_ofNat heq (by decide) (by simp only [BitVec.toNat_ofNat]; omega)
  have eq0 : field word 0 11 = 0x340#11 := field_ofNat heq (by decide) (by simp only [BitVec.toNat_ofNat]; omega)
  have eq1 : field word 11 5 = b := field_ofNat heq (by decide) (by omega)
  have eq2 : field word 16 5 = a := field_ofNat heq (by decide) (by omega)
  have eq3 : field word 21 5 = d := field_ofNat heq (by decide) (by omega)
  exact decode_of (by rw [decodeFields_01 eqm]; simp [decodeMajor01, eq0, eq1, eq2, eq3]) rfl

theorem Encoding.slt (d : BitVec 5) (a : BitVec 5) (b : BitVec 5) : Encoding.Statement (.slt d a b) := by
  intro word _ heq
  replace heq : BitVec.ofNat 32 (0x04000380 + d.toNat * 0x200000 + a.toNat * 0x10000 + b.toNat * 0x800) = word := Option.some.inj heq
  have lt_d := d.isLt
  have lt_a := a.isLt
  have lt_b := b.isLt
  have eqm : field word 26 6 = 0x1#6 := field_ofNat heq (by decide) (by simp only [BitVec.toNat_ofNat]; omega)
  have eq0 : field word 0 11 = 0x380#11 := field_ofNat heq (by decide) (by simp only [BitVec.toNat_ofNat]; omega)
  have eq1 : field word 11 5 = b := field_ofNat heq (by decide) (by omega)
  have eq2 : field word 16 5 = a := field_ofNat heq (by decide) (by omega)
  have eq3 : field word 21 5 = d := field_ofNat heq (by decide) (by omega)
  exact decode_of (by rw [decodeFields_01 eqm]; simp [decodeMajor01, eq0, eq1, eq2, eq3]) rfl

theorem Encoding.sltn (d : BitVec 5) (a : BitVec 5) (b : BitVec 5) : Encoding.Statement (.sltn d a b) := by
  intro word _ heq
  replace heq : BitVec.ofNat 32 (0x040003C0 + d.toNat * 0x200000 + a.toNat * 0x10000 + b.toNat * 0x800) = word := Option.some.inj heq
  have lt_d := d.isLt
  have lt_a := a.isLt
  have lt_b := b.isLt
  have eqm : field word 26 6 = 0x1#6 := field_ofNat heq (by decide) (by simp only [BitVec.toNat_ofNat]; omega)
  have eq0 : field word 0 11 = 0x3C0#11 := field_ofNat heq (by decide) (by simp only [BitVec.toNat_ofNat]; omega)
  have eq1 : field word 11 5 = b := field_ofNat heq (by decide) (by omega)
  have eq2 : field word 16 5 = a := field_ofNat heq (by decide) (by omega)
  have eq3 : field word 21 5 = d := field_ofNat heq (by decide) (by omega)
  exact decode_of (by rw [decodeFields_01 eqm]; simp [decodeMajor01, eq0, eq1, eq2, eq3]) rfl

theorem Encoding.mul (d : BitVec 5) (a : BitVec 5) (b : BitVec 5) : Encoding.Statement (.mul d a b) := by
  intro word _ heq
  replace heq : BitVec.ofNat 32 (0x04000400 + d.toNat * 0x200000 + a.toNat * 0x10000 + b.toNat * 0x800) = word := Option.some.inj heq
  have lt_d := d.isLt
  have lt_a := a.isLt
  have lt_b := b.isLt
  have eqm : field word 26 6 = 0x1#6 := field_ofNat heq (by decide) (by simp only [BitVec.toNat_ofNat]; omega)
  have eq0 : field word 0 11 = 0x400#11 := field_ofNat heq (by decide) (by simp only [BitVec.toNat_ofNat]; omega)
  have eq1 : field word 11 5 = b := field_ofNat heq (by decide) (by omega)
  have eq2 : field word 16 5 = a := field_ofNat heq (by decide) (by omega)
  have eq3 : field word 21 5 = d := field_ofNat heq (by decide) (by omega)
  exact decode_of (by rw [decodeFields_01 eqm]; simp [decodeMajor01, eq0, eq1, eq2, eq3]) rfl

theorem Encoding.mulh (d : BitVec 5) (a : BitVec 5) (b : BitVec 5) : Encoding.Statement (.mulh d a b) := by
  intro word _ heq
  replace heq : BitVec.ofNat 32 (0x04000440 + d.toNat * 0x200000 + a.toNat * 0x10000 + b.toNat * 0x800) = word := Option.some.inj heq
  have lt_d := d.isLt
  have lt_a := a.isLt
  have lt_b := b.isLt
  have eqm : field word 26 6 = 0x1#6 := field_ofNat heq (by decide) (by simp only [BitVec.toNat_ofNat]; omega)
  have eq0 : field word 0 11 = 0x440#11 := field_ofNat heq (by decide) (by simp only [BitVec.toNat_ofNat]; omega)
  have eq1 : field word 11 5 = b := field_ofNat heq (by decide) (by omega)
  have eq2 : field word 16 5 = a := field_ofNat heq (by decide) (by omega)
  have eq3 : field word 21 5 = d := field_ofNat heq (by decide) (by omega)
  exact decode_of (by rw [decodeFields_01 eqm]; simp [decodeMajor01, eq0, eq1, eq2, eq3]) rfl

theorem Encoding.mulhn (d : BitVec 5) (a : BitVec 5) (b : BitVec 5) : Encoding.Statement (.mulhn d a b) := by
  intro word _ heq
  replace heq : BitVec.ofNat 32 (0x04000480 + d.toNat * 0x200000 + a.toNat * 0x10000 + b.toNat * 0x800) = word := Option.some.inj heq
  have lt_d := d.isLt
  have lt_a := a.isLt
  have lt_b := b.isLt
  have eqm : field word 26 6 = 0x1#6 := field_ofNat heq (by decide) (by simp only [BitVec.toNat_ofNat]; omega)
  have eq0 : field word 0 11 = 0x480#11 := field_ofNat heq (by decide) (by simp only [BitVec.toNat_ofNat]; omega)
  have eq1 : field word 11 5 = b := field_ofNat heq (by decide) (by omega)
  have eq2 : field word 16 5 = a := field_ofNat heq (by decide) (by omega)
  have eq3 : field word 21 5 = d := field_ofNat heq (by decide) (by omega)
  exact decode_of (by rw [decodeFields_01 eqm]; simp [decodeMajor01, eq0, eq1, eq2, eq3]) rfl

theorem Encoding.div (d : BitVec 5) (a : BitVec 5) (b : BitVec 5) : Encoding.Statement (.div d a b) := by
  intro word _ heq
  replace heq : BitVec.ofNat 32 (0x040004C0 + d.toNat * 0x200000 + a.toNat * 0x10000 + b.toNat * 0x800) = word := Option.some.inj heq
  have lt_d := d.isLt
  have lt_a := a.isLt
  have lt_b := b.isLt
  have eqm : field word 26 6 = 0x1#6 := field_ofNat heq (by decide) (by simp only [BitVec.toNat_ofNat]; omega)
  have eq0 : field word 0 11 = 0x4C0#11 := field_ofNat heq (by decide) (by simp only [BitVec.toNat_ofNat]; omega)
  have eq1 : field word 11 5 = b := field_ofNat heq (by decide) (by omega)
  have eq2 : field word 16 5 = a := field_ofNat heq (by decide) (by omega)
  have eq3 : field word 21 5 = d := field_ofNat heq (by decide) (by omega)
  exact decode_of (by rw [decodeFields_01 eqm]; simp [decodeMajor01, eq0, eq1, eq2, eq3]) rfl

theorem Encoding.divn (d : BitVec 5) (a : BitVec 5) (b : BitVec 5) : Encoding.Statement (.divn d a b) := by
  intro word _ heq
  replace heq : BitVec.ofNat 32 (0x04000500 + d.toNat * 0x200000 + a.toNat * 0x10000 + b.toNat * 0x800) = word := Option.some.inj heq
  have lt_d := d.isLt
  have lt_a := a.isLt
  have lt_b := b.isLt
  have eqm : field word 26 6 = 0x1#6 := field_ofNat heq (by decide) (by simp only [BitVec.toNat_ofNat]; omega)
  have eq0 : field word 0 11 = 0x500#11 := field_ofNat heq (by decide) (by simp only [BitVec.toNat_ofNat]; omega)
  have eq1 : field word 11 5 = b := field_ofNat heq (by decide) (by omega)
  have eq2 : field word 16 5 = a := field_ofNat heq (by decide) (by omega)
  have eq3 : field word 21 5 = d := field_ofNat heq (by decide) (by omega)
  exact decode_of (by rw [decodeFields_01 eqm]; simp [decodeMajor01, eq0, eq1, eq2, eq3]) rfl

theorem Encoding.rem (d : BitVec 5) (a : BitVec 5) (b : BitVec 5) : Encoding.Statement (.rem d a b) := by
  intro word _ heq
  replace heq : BitVec.ofNat 32 (0x04000540 + d.toNat * 0x200000 + a.toNat * 0x10000 + b.toNat * 0x800) = word := Option.some.inj heq
  have lt_d := d.isLt
  have lt_a := a.isLt
  have lt_b := b.isLt
  have eqm : field word 26 6 = 0x1#6 := field_ofNat heq (by decide) (by simp only [BitVec.toNat_ofNat]; omega)
  have eq0 : field word 0 11 = 0x540#11 := field_ofNat heq (by decide) (by simp only [BitVec.toNat_ofNat]; omega)
  have eq1 : field word 11 5 = b := field_ofNat heq (by decide) (by omega)
  have eq2 : field word 16 5 = a := field_ofNat heq (by decide) (by omega)
  have eq3 : field word 21 5 = d := field_ofNat heq (by decide) (by omega)
  exact decode_of (by rw [decodeFields_01 eqm]; simp [decodeMajor01, eq0, eq1, eq2, eq3]) rfl

theorem Encoding.remn (d : BitVec 5) (a : BitVec 5) (b : BitVec 5) : Encoding.Statement (.remn d a b) := by
  intro word _ heq
  replace heq : BitVec.ofNat 32 (0x04000580 + d.toNat * 0x200000 + a.toNat * 0x10000 + b.toNat * 0x800) = word := Option.some.inj heq
  have lt_d := d.isLt
  have lt_a := a.isLt
  have lt_b := b.isLt
  have eqm : field word 26 6 = 0x1#6 := field_ofNat heq (by decide) (by simp only [BitVec.toNat_ofNat]; omega)
  have eq0 : field word 0 11 = 0x580#11 := field_ofNat heq (by decide) (by simp only [BitVec.toNat_ofNat]; omega)
  have eq1 : field word 11 5 = b := field_ofNat heq (by decide) (by omega)
  have eq2 : field word 16 5 = a := field_ofNat heq (by decide) (by omega)
  have eq3 : field word 21 5 = d := field_ofNat heq (by decide) (by omega)
  exact decode_of (by rw [decodeFields_01 eqm]; simp [decodeMajor01, eq0, eq1, eq2, eq3]) rfl

theorem Encoding.clz (d : BitVec 5) (a : BitVec 5) : Encoding.Statement (.clz d a) := by
  intro word _ heq
  replace heq : BitVec.ofNat 32 (0x040005C0 + d.toNat * 0x200000 + a.toNat * 0x10000) = word := Option.some.inj heq
  have lt_d := d.isLt
  have lt_a := a.isLt
  have eqm : field word 26 6 = 0x1#6 := field_ofNat heq (by decide) (by simp only [BitVec.toNat_ofNat]; omega)
  have eq0 : field word 0 11 = 0x5C0#11 := field_ofNat heq (by decide) (by simp only [BitVec.toNat_ofNat]; omega)
  have eq1 : field word 0 16 = 0x5C0#16 := field_ofNat heq (by decide) (by simp only [BitVec.toNat_ofNat]; omega)
  have eq2 : field word 16 5 = a := field_ofNat heq (by decide) (by omega)
  have eq3 : field word 21 5 = d := field_ofNat heq (by decide) (by omega)
  exact decode_of (by rw [decodeFields_01 eqm]; simp [decodeMajor01, eq0, eq1, eq2, eq3]) rfl

theorem Encoding.ctz (d : BitVec 5) (a : BitVec 5) : Encoding.Statement (.ctz d a) := by
  intro word _ heq
  replace heq : BitVec.ofNat 32 (0x04000600 + d.toNat * 0x200000 + a.toNat * 0x10000) = word := Option.some.inj heq
  have lt_d := d.isLt
  have lt_a := a.isLt
  have eqm : field word 26 6 = 0x1#6 := field_ofNat heq (by decide) (by simp only [BitVec.toNat_ofNat]; omega)
  have eq0 : field word 0 11 = 0x600#11 := field_ofNat heq (by decide) (by simp only [BitVec.toNat_ofNat]; omega)
  have eq1 : field word 0 16 = 0x600#16 := field_ofNat heq (by decide) (by simp only [BitVec.toNat_ofNat]; omega)
  have eq2 : field word 16 5 = a := field_ofNat heq (by decide) (by omega)
  have eq3 : field word 21 5 = d := field_ofNat heq (by decide) (by omega)
  exact decode_of (by rw [decodeFields_01 eqm]; simp [decodeMajor01, eq0, eq1, eq2, eq3]) rfl

theorem Encoding.popc (d : BitVec 5) (a : BitVec 5) : Encoding.Statement (.popc d a) := by
  intro word _ heq
  replace heq : BitVec.ofNat 32 (0x04000640 + d.toNat * 0x200000 + a.toNat * 0x10000) = word := Option.some.inj heq
  have lt_d := d.isLt
  have lt_a := a.isLt
  have eqm : field word 26 6 = 0x1#6 := field_ofNat heq (by decide) (by simp only [BitVec.toNat_ofNat]; omega)
  have eq0 : field word 0 11 = 0x640#11 := field_ofNat heq (by decide) (by simp only [BitVec.toNat_ofNat]; omega)
  have eq1 : field word 0 16 = 0x640#16 := field_ofNat heq (by decide) (by simp only [BitVec.toNat_ofNat]; omega)
  have eq2 : field word 16 5 = a := field_ofNat heq (by decide) (by omega)
  have eq3 : field word 21 5 = d := field_ofNat heq (by decide) (by omega)
  exact decode_of (by rw [decodeFields_01 eqm]; simp [decodeMajor01, eq0, eq1, eq2, eq3]) rfl

theorem Encoding.adds (d : BitVec 5) (a : BitVec 5) (b : BitVec 5) (n : BitVec 6) : Encoding.Statement (.adds d a b n) := by
  intro word _ heq
  replace heq : BitVec.ofNat 32 (0x04000680 + d.toNat * 0x200000 + a.toNat * 0x10000 + b.toNat * 0x800 + n.toNat) = word := Option.some.inj heq
  have lt_d := d.isLt
  have lt_a := a.isLt
  have lt_b := b.isLt
  have lt_n := n.isLt
  have eqm : field word 26 6 = 0x1#6 := field_ofNat heq (by decide) (by simp only [BitVec.toNat_ofNat]; omega)
  have eq0 : field word 0 6 = n := field_ofNat heq (by decide) (by omega)
  have eq1 : field word 6 5 = 0x1A#5 := field_ofNat heq (by decide) (by simp only [BitVec.toNat_ofNat]; omega)
  have eq2 : field word 11 5 = b := field_ofNat heq (by decide) (by omega)
  have eq3 : field word 16 5 = a := field_ofNat heq (by decide) (by omega)
  have eq4 : field word 21 5 = d := field_ofNat heq (by decide) (by omega)
  have ne0 : field word 0 11 ≠ 0x0#11 := field_ne heq (by decide) (by simp only [BitVec.toNat_ofNat]; omega)
  have ne1 : field word 0 11 ≠ 0x40#11 := field_ne heq (by decide) (by simp only [BitVec.toNat_ofNat]; omega)
  have ne2 : field word 0 11 ≠ 0x80#11 := field_ne heq (by decide) (by simp only [BitVec.toNat_ofNat]; omega)
  have ne3 : field word 0 11 ≠ 0xC0#11 := field_ne heq (by decide) (by simp only [BitVec.toNat_ofNat]; omega)
  have ne4 : field word 0 11 ≠ 0x100#11 := field_ne heq (by decide) (by simp only [BitVec.toNat_ofNat]; omega)
  have ne5 : field word 0 11 ≠ 0x140#11 := field_ne heq (by decide) (by simp only [BitVec.toNat_ofNat]; omega)
  have ne6 : field word 0 11 ≠ 0x180#11 := field_ne heq (by decide) (by simp only [BitVec.toNat_ofNat]; omega)
  have ne7 : field word 0 11 ≠ 0x1C0#11 := field_ne heq (by decide) (by simp only [BitVec.toNat_ofNat]; omega)
  have ne8 : field word 0 11 ≠ 0x200#11 := field_ne heq (by decide) (by simp only [BitVec.toNat_ofNat]; omega)
  have ne9 : field word 0 11 ≠ 0x240#11 := field_ne heq (by decide) (by simp only [BitVec.toNat_ofNat]; omega)
  have ne10 : field word 0 11 ≠ 0x280#11 := field_ne heq (by decide) (by simp only [BitVec.toNat_ofNat]; omega)
  have ne11 : field word 0 11 ≠ 0x2C0#11 := field_ne heq (by decide) (by simp only [BitVec.toNat_ofNat]; omega)
  have ne12 : field word 0 11 ≠ 0x300#11 := field_ne heq (by decide) (by simp only [BitVec.toNat_ofNat]; omega)
  have ne13 : field word 0 11 ≠ 0x340#11 := field_ne heq (by decide) (by simp only [BitVec.toNat_ofNat]; omega)
  have ne14 : field word 0 11 ≠ 0x380#11 := field_ne heq (by decide) (by simp only [BitVec.toNat_ofNat]; omega)
  have ne15 : field word 0 11 ≠ 0x3C0#11 := field_ne heq (by decide) (by simp only [BitVec.toNat_ofNat]; omega)
  have ne16 : field word 0 11 ≠ 0x400#11 := field_ne heq (by decide) (by simp only [BitVec.toNat_ofNat]; omega)
  have ne17 : field word 0 11 ≠ 0x440#11 := field_ne heq (by decide) (by simp only [BitVec.toNat_ofNat]; omega)
  have ne18 : field word 0 11 ≠ 0x480#11 := field_ne heq (by decide) (by simp only [BitVec.toNat_ofNat]; omega)
  have ne19 : field word 0 11 ≠ 0x4C0#11 := field_ne heq (by decide) (by simp only [BitVec.toNat_ofNat]; omega)
  have ne20 : field word 0 11 ≠ 0x500#11 := field_ne heq (by decide) (by simp only [BitVec.toNat_ofNat]; omega)
  have ne21 : field word 0 11 ≠ 0x540#11 := field_ne heq (by decide) (by simp only [BitVec.toNat_ofNat]; omega)
  have ne22 : field word 0 11 ≠ 0x580#11 := field_ne heq (by decide) (by simp only [BitVec.toNat_ofNat]; omega)
  have ne23 : field word 0 16 ≠ 0x5C0#16 := field_ne heq (by decide) (by simp only [BitVec.toNat_ofNat]; omega)
  have ne24 : field word 0 16 ≠ 0x600#16 := field_ne heq (by decide) (by simp only [BitVec.toNat_ofNat]; omega)
  have ne25 : field word 0 16 ≠ 0x640#16 := field_ne heq (by decide) (by simp only [BitVec.toNat_ofNat]; omega)
  exact decode_of (by rw [decodeFields_01 eqm]; simp [decodeMajor01, eq0, eq1, eq2, eq3, eq4, ne0, ne1, ne2, ne3, ne4, ne5, ne6, ne7, ne8, ne9, ne10, ne11, ne12, ne13, ne14, ne15, ne16, ne17, ne18, ne19, ne20, ne21, ne22, ne23, ne24, ne25]) rfl

theorem Encoding.shli (d : BitVec 5) (a : BitVec 5) (n : BitVec 6) : Encoding.Statement (.shli d a n) := by
  intro word _ heq
  replace heq : BitVec.ofNat 32 (0x040006C0 + d.toNat * 0x200000 + a.toNat * 0x10000 + n.toNat) = word := Option.some.inj heq
  have lt_d := d.isLt
  have lt_a := a.isLt
  have lt_n := n.isLt
  have eqm : field word 26 6 = 0x1#6 := field_ofNat heq (by decide) (by simp only [BitVec.toNat_ofNat]; omega)
  have eq0 : field word 0 6 = n := field_ofNat heq (by decide) (by omega)
  have eq1 : field word 6 5 = 0x1B#5 := field_ofNat heq (by decide) (by simp only [BitVec.toNat_ofNat]; omega)
  have eq2 : field word 6 10 = 0x1B#10 := field_ofNat heq (by decide) (by simp only [BitVec.toNat_ofNat]; omega)
  have eq3 : field word 16 5 = a := field_ofNat heq (by decide) (by omega)
  have eq4 : field word 21 5 = d := field_ofNat heq (by decide) (by omega)
  have ne0 : field word 0 11 ≠ 0x0#11 := field_ne heq (by decide) (by simp only [BitVec.toNat_ofNat]; omega)
  have ne1 : field word 0 11 ≠ 0x40#11 := field_ne heq (by decide) (by simp only [BitVec.toNat_ofNat]; omega)
  have ne2 : field word 0 11 ≠ 0x80#11 := field_ne heq (by decide) (by simp only [BitVec.toNat_ofNat]; omega)
  have ne3 : field word 0 11 ≠ 0xC0#11 := field_ne heq (by decide) (by simp only [BitVec.toNat_ofNat]; omega)
  have ne4 : field word 0 11 ≠ 0x100#11 := field_ne heq (by decide) (by simp only [BitVec.toNat_ofNat]; omega)
  have ne5 : field word 0 11 ≠ 0x140#11 := field_ne heq (by decide) (by simp only [BitVec.toNat_ofNat]; omega)
  have ne6 : field word 0 11 ≠ 0x180#11 := field_ne heq (by decide) (by simp only [BitVec.toNat_ofNat]; omega)
  have ne7 : field word 0 11 ≠ 0x1C0#11 := field_ne heq (by decide) (by simp only [BitVec.toNat_ofNat]; omega)
  have ne8 : field word 0 11 ≠ 0x200#11 := field_ne heq (by decide) (by simp only [BitVec.toNat_ofNat]; omega)
  have ne9 : field word 0 11 ≠ 0x240#11 := field_ne heq (by decide) (by simp only [BitVec.toNat_ofNat]; omega)
  have ne10 : field word 0 11 ≠ 0x280#11 := field_ne heq (by decide) (by simp only [BitVec.toNat_ofNat]; omega)
  have ne11 : field word 0 11 ≠ 0x2C0#11 := field_ne heq (by decide) (by simp only [BitVec.toNat_ofNat]; omega)
  have ne12 : field word 0 11 ≠ 0x300#11 := field_ne heq (by decide) (by simp only [BitVec.toNat_ofNat]; omega)
  have ne13 : field word 0 11 ≠ 0x340#11 := field_ne heq (by decide) (by simp only [BitVec.toNat_ofNat]; omega)
  have ne14 : field word 0 11 ≠ 0x380#11 := field_ne heq (by decide) (by simp only [BitVec.toNat_ofNat]; omega)
  have ne15 : field word 0 11 ≠ 0x3C0#11 := field_ne heq (by decide) (by simp only [BitVec.toNat_ofNat]; omega)
  have ne16 : field word 0 11 ≠ 0x400#11 := field_ne heq (by decide) (by simp only [BitVec.toNat_ofNat]; omega)
  have ne17 : field word 0 11 ≠ 0x440#11 := field_ne heq (by decide) (by simp only [BitVec.toNat_ofNat]; omega)
  have ne18 : field word 0 11 ≠ 0x480#11 := field_ne heq (by decide) (by simp only [BitVec.toNat_ofNat]; omega)
  have ne19 : field word 0 11 ≠ 0x4C0#11 := field_ne heq (by decide) (by simp only [BitVec.toNat_ofNat]; omega)
  have ne20 : field word 0 11 ≠ 0x500#11 := field_ne heq (by decide) (by simp only [BitVec.toNat_ofNat]; omega)
  have ne21 : field word 0 11 ≠ 0x540#11 := field_ne heq (by decide) (by simp only [BitVec.toNat_ofNat]; omega)
  have ne22 : field word 0 11 ≠ 0x580#11 := field_ne heq (by decide) (by simp only [BitVec.toNat_ofNat]; omega)
  have ne23 : field word 0 16 ≠ 0x5C0#16 := field_ne heq (by decide) (by simp only [BitVec.toNat_ofNat]; omega)
  have ne24 : field word 0 16 ≠ 0x600#16 := field_ne heq (by decide) (by simp only [BitVec.toNat_ofNat]; omega)
  have ne25 : field word 0 16 ≠ 0x640#16 := field_ne heq (by decide) (by simp only [BitVec.toNat_ofNat]; omega)
  exact decode_of (by rw [decodeFields_01 eqm]; simp [decodeMajor01, eq0, eq1, eq2, eq3, eq4, ne0, ne1, ne2, ne3, ne4, ne5, ne6, ne7, ne8, ne9, ne10, ne11, ne12, ne13, ne14, ne15, ne16, ne17, ne18, ne19, ne20, ne21, ne22, ne23, ne24, ne25]) rfl

theorem Encoding.shri (d : BitVec 5) (a : BitVec 5) (n : BitVec 6) : Encoding.Statement (.shri d a n) := by
  intro word _ heq
  replace heq : BitVec.ofNat 32 (0x04000700 + d.toNat * 0x200000 + a.toNat * 0x10000 + n.toNat) = word := Option.some.inj heq
  have lt_d := d.isLt
  have lt_a := a.isLt
  have lt_n := n.isLt
  have eqm : field word 26 6 = 0x1#6 := field_ofNat heq (by decide) (by simp only [BitVec.toNat_ofNat]; omega)
  have eq0 : field word 0 6 = n := field_ofNat heq (by decide) (by omega)
  have eq1 : field word 6 5 = 0x1C#5 := field_ofNat heq (by decide) (by simp only [BitVec.toNat_ofNat]; omega)
  have eq2 : field word 6 10 = 0x1C#10 := field_ofNat heq (by decide) (by simp only [BitVec.toNat_ofNat]; omega)
  have eq3 : field word 16 5 = a := field_ofNat heq (by decide) (by omega)
  have eq4 : field word 21 5 = d := field_ofNat heq (by decide) (by omega)
  have ne0 : field word 0 11 ≠ 0x0#11 := field_ne heq (by decide) (by simp only [BitVec.toNat_ofNat]; omega)
  have ne1 : field word 0 11 ≠ 0x40#11 := field_ne heq (by decide) (by simp only [BitVec.toNat_ofNat]; omega)
  have ne2 : field word 0 11 ≠ 0x80#11 := field_ne heq (by decide) (by simp only [BitVec.toNat_ofNat]; omega)
  have ne3 : field word 0 11 ≠ 0xC0#11 := field_ne heq (by decide) (by simp only [BitVec.toNat_ofNat]; omega)
  have ne4 : field word 0 11 ≠ 0x100#11 := field_ne heq (by decide) (by simp only [BitVec.toNat_ofNat]; omega)
  have ne5 : field word 0 11 ≠ 0x140#11 := field_ne heq (by decide) (by simp only [BitVec.toNat_ofNat]; omega)
  have ne6 : field word 0 11 ≠ 0x180#11 := field_ne heq (by decide) (by simp only [BitVec.toNat_ofNat]; omega)
  have ne7 : field word 0 11 ≠ 0x1C0#11 := field_ne heq (by decide) (by simp only [BitVec.toNat_ofNat]; omega)
  have ne8 : field word 0 11 ≠ 0x200#11 := field_ne heq (by decide) (by simp only [BitVec.toNat_ofNat]; omega)
  have ne9 : field word 0 11 ≠ 0x240#11 := field_ne heq (by decide) (by simp only [BitVec.toNat_ofNat]; omega)
  have ne10 : field word 0 11 ≠ 0x280#11 := field_ne heq (by decide) (by simp only [BitVec.toNat_ofNat]; omega)
  have ne11 : field word 0 11 ≠ 0x2C0#11 := field_ne heq (by decide) (by simp only [BitVec.toNat_ofNat]; omega)
  have ne12 : field word 0 11 ≠ 0x300#11 := field_ne heq (by decide) (by simp only [BitVec.toNat_ofNat]; omega)
  have ne13 : field word 0 11 ≠ 0x340#11 := field_ne heq (by decide) (by simp only [BitVec.toNat_ofNat]; omega)
  have ne14 : field word 0 11 ≠ 0x380#11 := field_ne heq (by decide) (by simp only [BitVec.toNat_ofNat]; omega)
  have ne15 : field word 0 11 ≠ 0x3C0#11 := field_ne heq (by decide) (by simp only [BitVec.toNat_ofNat]; omega)
  have ne16 : field word 0 11 ≠ 0x400#11 := field_ne heq (by decide) (by simp only [BitVec.toNat_ofNat]; omega)
  have ne17 : field word 0 11 ≠ 0x440#11 := field_ne heq (by decide) (by simp only [BitVec.toNat_ofNat]; omega)
  have ne18 : field word 0 11 ≠ 0x480#11 := field_ne heq (by decide) (by simp only [BitVec.toNat_ofNat]; omega)
  have ne19 : field word 0 11 ≠ 0x4C0#11 := field_ne heq (by decide) (by simp only [BitVec.toNat_ofNat]; omega)
  have ne20 : field word 0 11 ≠ 0x500#11 := field_ne heq (by decide) (by simp only [BitVec.toNat_ofNat]; omega)
  have ne21 : field word 0 11 ≠ 0x540#11 := field_ne heq (by decide) (by simp only [BitVec.toNat_ofNat]; omega)
  have ne22 : field word 0 11 ≠ 0x580#11 := field_ne heq (by decide) (by simp only [BitVec.toNat_ofNat]; omega)
  have ne23 : field word 0 16 ≠ 0x5C0#16 := field_ne heq (by decide) (by simp only [BitVec.toNat_ofNat]; omega)
  have ne24 : field word 0 16 ≠ 0x600#16 := field_ne heq (by decide) (by simp only [BitVec.toNat_ofNat]; omega)
  have ne25 : field word 0 16 ≠ 0x640#16 := field_ne heq (by decide) (by simp only [BitVec.toNat_ofNat]; omega)
  exact decode_of (by rw [decodeFields_01 eqm]; simp [decodeMajor01, eq0, eq1, eq2, eq3, eq4, ne0, ne1, ne2, ne3, ne4, ne5, ne6, ne7, ne8, ne9, ne10, ne11, ne12, ne13, ne14, ne15, ne16, ne17, ne18, ne19, ne20, ne21, ne22, ne23, ne24, ne25]) rfl

theorem Encoding.srai (d : BitVec 5) (a : BitVec 5) (n : BitVec 6) : Encoding.Statement (.srai d a n) := by
  intro word _ heq
  replace heq : BitVec.ofNat 32 (0x04000740 + d.toNat * 0x200000 + a.toNat * 0x10000 + n.toNat) = word := Option.some.inj heq
  have lt_d := d.isLt
  have lt_a := a.isLt
  have lt_n := n.isLt
  have eqm : field word 26 6 = 0x1#6 := field_ofNat heq (by decide) (by simp only [BitVec.toNat_ofNat]; omega)
  have eq0 : field word 0 6 = n := field_ofNat heq (by decide) (by omega)
  have eq1 : field word 6 5 = 0x1D#5 := field_ofNat heq (by decide) (by simp only [BitVec.toNat_ofNat]; omega)
  have eq2 : field word 6 10 = 0x1D#10 := field_ofNat heq (by decide) (by simp only [BitVec.toNat_ofNat]; omega)
  have eq3 : field word 16 5 = a := field_ofNat heq (by decide) (by omega)
  have eq4 : field word 21 5 = d := field_ofNat heq (by decide) (by omega)
  have ne0 : field word 0 11 ≠ 0x0#11 := field_ne heq (by decide) (by simp only [BitVec.toNat_ofNat]; omega)
  have ne1 : field word 0 11 ≠ 0x40#11 := field_ne heq (by decide) (by simp only [BitVec.toNat_ofNat]; omega)
  have ne2 : field word 0 11 ≠ 0x80#11 := field_ne heq (by decide) (by simp only [BitVec.toNat_ofNat]; omega)
  have ne3 : field word 0 11 ≠ 0xC0#11 := field_ne heq (by decide) (by simp only [BitVec.toNat_ofNat]; omega)
  have ne4 : field word 0 11 ≠ 0x100#11 := field_ne heq (by decide) (by simp only [BitVec.toNat_ofNat]; omega)
  have ne5 : field word 0 11 ≠ 0x140#11 := field_ne heq (by decide) (by simp only [BitVec.toNat_ofNat]; omega)
  have ne6 : field word 0 11 ≠ 0x180#11 := field_ne heq (by decide) (by simp only [BitVec.toNat_ofNat]; omega)
  have ne7 : field word 0 11 ≠ 0x1C0#11 := field_ne heq (by decide) (by simp only [BitVec.toNat_ofNat]; omega)
  have ne8 : field word 0 11 ≠ 0x200#11 := field_ne heq (by decide) (by simp only [BitVec.toNat_ofNat]; omega)
  have ne9 : field word 0 11 ≠ 0x240#11 := field_ne heq (by decide) (by simp only [BitVec.toNat_ofNat]; omega)
  have ne10 : field word 0 11 ≠ 0x280#11 := field_ne heq (by decide) (by simp only [BitVec.toNat_ofNat]; omega)
  have ne11 : field word 0 11 ≠ 0x2C0#11 := field_ne heq (by decide) (by simp only [BitVec.toNat_ofNat]; omega)
  have ne12 : field word 0 11 ≠ 0x300#11 := field_ne heq (by decide) (by simp only [BitVec.toNat_ofNat]; omega)
  have ne13 : field word 0 11 ≠ 0x340#11 := field_ne heq (by decide) (by simp only [BitVec.toNat_ofNat]; omega)
  have ne14 : field word 0 11 ≠ 0x380#11 := field_ne heq (by decide) (by simp only [BitVec.toNat_ofNat]; omega)
  have ne15 : field word 0 11 ≠ 0x3C0#11 := field_ne heq (by decide) (by simp only [BitVec.toNat_ofNat]; omega)
  have ne16 : field word 0 11 ≠ 0x400#11 := field_ne heq (by decide) (by simp only [BitVec.toNat_ofNat]; omega)
  have ne17 : field word 0 11 ≠ 0x440#11 := field_ne heq (by decide) (by simp only [BitVec.toNat_ofNat]; omega)
  have ne18 : field word 0 11 ≠ 0x480#11 := field_ne heq (by decide) (by simp only [BitVec.toNat_ofNat]; omega)
  have ne19 : field word 0 11 ≠ 0x4C0#11 := field_ne heq (by decide) (by simp only [BitVec.toNat_ofNat]; omega)
  have ne20 : field word 0 11 ≠ 0x500#11 := field_ne heq (by decide) (by simp only [BitVec.toNat_ofNat]; omega)
  have ne21 : field word 0 11 ≠ 0x540#11 := field_ne heq (by decide) (by simp only [BitVec.toNat_ofNat]; omega)
  have ne22 : field word 0 11 ≠ 0x580#11 := field_ne heq (by decide) (by simp only [BitVec.toNat_ofNat]; omega)
  have ne23 : field word 0 16 ≠ 0x5C0#16 := field_ne heq (by decide) (by simp only [BitVec.toNat_ofNat]; omega)
  have ne24 : field word 0 16 ≠ 0x600#16 := field_ne heq (by decide) (by simp only [BitVec.toNat_ofNat]; omega)
  have ne25 : field word 0 16 ≠ 0x640#16 := field_ne heq (by decide) (by simp only [BitVec.toNat_ofNat]; omega)
  exact decode_of (by rw [decodeFields_01 eqm]; simp [decodeMajor01, eq0, eq1, eq2, eq3, eq4, ne0, ne1, ne2, ne3, ne4, ne5, ne6, ne7, ne8, ne9, ne10, ne11, ne12, ne13, ne14, ne15, ne16, ne17, ne18, ne19, ne20, ne21, ne22, ne23, ne24, ne25]) rfl

theorem Encoding.addi (d : BitVec 5) (a : BitVec 5) (i : BitVec 16) : Encoding.Statement (.addi d a i) := by
  intro word _ heq
  replace heq : BitVec.ofNat 32 (0x08000000 + d.toNat * 0x200000 + a.toNat * 0x10000 + i.toNat) = word := Option.some.inj heq
  have lt_d := d.isLt
  have lt_a := a.isLt
  have lt_i := i.isLt
  have eqm : field word 26 6 = 0x2#6 := field_ofNat heq (by decide) (by simp only [BitVec.toNat_ofNat]; omega)
  have eq0 : field word 0 16 = i := field_ofNat heq (by decide) (by omega)
  have eq1 : field word 16 5 = a := field_ofNat heq (by decide) (by omega)
  have eq2 : field word 21 5 = d := field_ofNat heq (by decide) (by omega)
  exact decode_of (by rw [decodeFields_02 eqm]; simp [decodeMajor02, eq0, eq1, eq2]) rfl

theorem Encoding.andi (d : BitVec 5) (a : BitVec 5) (i : BitVec 16) : Encoding.Statement (.andi d a i) := by
  intro word _ heq
  replace heq : BitVec.ofNat 32 (0x0C000000 + d.toNat * 0x200000 + a.toNat * 0x10000 + i.toNat) = word := Option.some.inj heq
  have lt_d := d.isLt
  have lt_a := a.isLt
  have lt_i := i.isLt
  have eqm : field word 26 6 = 0x3#6 := field_ofNat heq (by decide) (by simp only [BitVec.toNat_ofNat]; omega)
  have eq0 : field word 0 16 = i := field_ofNat heq (by decide) (by omega)
  have eq1 : field word 16 5 = a := field_ofNat heq (by decide) (by omega)
  have eq2 : field word 21 5 = d := field_ofNat heq (by decide) (by omega)
  exact decode_of (by rw [decodeFields_03 eqm]; simp [decodeMajor03, eq0, eq1, eq2]) rfl

theorem Encoding.ori (d : BitVec 5) (a : BitVec 5) (i : BitVec 16) : Encoding.Statement (.ori d a i) := by
  intro word _ heq
  replace heq : BitVec.ofNat 32 (0x10000000 + d.toNat * 0x200000 + a.toNat * 0x10000 + i.toNat) = word := Option.some.inj heq
  have lt_d := d.isLt
  have lt_a := a.isLt
  have lt_i := i.isLt
  have eqm : field word 26 6 = 0x4#6 := field_ofNat heq (by decide) (by simp only [BitVec.toNat_ofNat]; omega)
  have eq0 : field word 0 16 = i := field_ofNat heq (by decide) (by omega)
  have eq1 : field word 16 5 = a := field_ofNat heq (by decide) (by omega)
  have eq2 : field word 21 5 = d := field_ofNat heq (by decide) (by omega)
  exact decode_of (by rw [decodeFields_04 eqm]; simp [decodeMajor04, eq0, eq1, eq2]) rfl

theorem Encoding.xori (d : BitVec 5) (a : BitVec 5) (i : BitVec 16) : Encoding.Statement (.xori d a i) := by
  intro word _ heq
  replace heq : BitVec.ofNat 32 (0x14000000 + d.toNat * 0x200000 + a.toNat * 0x10000 + i.toNat) = word := Option.some.inj heq
  have lt_d := d.isLt
  have lt_a := a.isLt
  have lt_i := i.isLt
  have eqm : field word 26 6 = 0x5#6 := field_ofNat heq (by decide) (by simp only [BitVec.toNat_ofNat]; omega)
  have eq0 : field word 0 16 = i := field_ofNat heq (by decide) (by omega)
  have eq1 : field word 16 5 = a := field_ofNat heq (by decide) (by omega)
  have eq2 : field word 21 5 = d := field_ofNat heq (by decide) (by omega)
  exact decode_of (by rw [decodeFields_05 eqm]; simp [decodeMajor05, eq0, eq1, eq2]) rfl

theorem Encoding.slti (d : BitVec 5) (a : BitVec 5) (i : BitVec 16) : Encoding.Statement (.slti d a i) := by
  intro word _ heq
  replace heq : BitVec.ofNat 32 (0x18000000 + d.toNat * 0x200000 + a.toNat * 0x10000 + i.toNat) = word := Option.some.inj heq
  have lt_d := d.isLt
  have lt_a := a.isLt
  have lt_i := i.isLt
  have eqm : field word 26 6 = 0x6#6 := field_ofNat heq (by decide) (by simp only [BitVec.toNat_ofNat]; omega)
  have eq0 : field word 0 16 = i := field_ofNat heq (by decide) (by omega)
  have eq1 : field word 16 5 = a := field_ofNat heq (by decide) (by omega)
  have eq2 : field word 21 5 = d := field_ofNat heq (by decide) (by omega)
  exact decode_of (by rw [decodeFields_06 eqm]; simp [decodeMajor06, eq0, eq1, eq2]) rfl

theorem Encoding.sltni (d : BitVec 5) (a : BitVec 5) (i : BitVec 16) : Encoding.Statement (.sltni d a i) := by
  intro word _ heq
  replace heq : BitVec.ofNat 32 (0x1C000000 + d.toNat * 0x200000 + a.toNat * 0x10000 + i.toNat) = word := Option.some.inj heq
  have lt_d := d.isLt
  have lt_a := a.isLt
  have lt_i := i.isLt
  have eqm : field word 26 6 = 0x7#6 := field_ofNat heq (by decide) (by simp only [BitVec.toNat_ofNat]; omega)
  have eq0 : field word 0 16 = i := field_ofNat heq (by decide) (by omega)
  have eq1 : field word 16 5 = a := field_ofNat heq (by decide) (by omega)
  have eq2 : field word 21 5 = d := field_ofNat heq (by decide) (by omega)
  exact decode_of (by rw [decodeFields_07 eqm]; simp [decodeMajor07, eq0, eq1, eq2]) rfl

theorem Encoding.movhi (d : BitVec 5) (i : BitVec 16) : Encoding.Statement (.movhi d i) := by
  intro word _ heq
  replace heq : BitVec.ofNat 32 (0x20000000 + d.toNat * 0x200000 + i.toNat) = word := Option.some.inj heq
  have lt_d := d.isLt
  have lt_i := i.isLt
  have eqm : field word 26 6 = 0x8#6 := field_ofNat heq (by decide) (by simp only [BitVec.toNat_ofNat]; omega)
  have eq0 : field word 0 16 = i := field_ofNat heq (by decide) (by omega)
  have eq1 : field word 16 5 = 0x0#5 := field_ofNat heq (by decide) (by simp only [BitVec.toNat_ofNat]; omega)
  have eq2 : field word 21 5 = d := field_ofNat heq (by decide) (by omega)
  exact decode_of (by rw [decodeFields_08 eqm]; simp [decodeMajor08, eq0, eq1, eq2]) rfl

theorem Encoding.addpc (d : BitVec 5) (i : BitVec 16) : Encoding.Statement (.addpc d i) := by
  intro word _ heq
  replace heq : BitVec.ofNat 32 (0x20010000 + d.toNat * 0x200000 + i.toNat) = word := Option.some.inj heq
  have lt_d := d.isLt
  have lt_i := i.isLt
  have eqm : field word 26 6 = 0x8#6 := field_ofNat heq (by decide) (by simp only [BitVec.toNat_ofNat]; omega)
  have eq0 : field word 0 16 = i := field_ofNat heq (by decide) (by omega)
  have eq1 : field word 16 5 = 0x1#5 := field_ofNat heq (by decide) (by simp only [BitVec.toNat_ofNat]; omega)
  have eq2 : field word 21 5 = d := field_ofNat heq (by decide) (by omega)
  exact decode_of (by rw [decodeFields_08 eqm]; simp [decodeMajor08, eq0, eq1, eq2]) rfl

theorem Encoding.beq (a : BitVec 5) (b : BitVec 5) (i : BitVec 16) : Encoding.Statement (.beq a b i) := by
  intro word _ heq
  replace heq : BitVec.ofNat 32 (0x24000000 + a.toNat * 0x200000 + b.toNat * 0x10000 + i.toNat) = word := Option.some.inj heq
  have lt_a := a.isLt
  have lt_b := b.isLt
  have lt_i := i.isLt
  have eqm : field word 26 6 = 0x9#6 := field_ofNat heq (by decide) (by simp only [BitVec.toNat_ofNat]; omega)
  have eq0 : field word 0 16 = i := field_ofNat heq (by decide) (by omega)
  have eq1 : field word 16 5 = b := field_ofNat heq (by decide) (by omega)
  have eq2 : field word 21 5 = a := field_ofNat heq (by decide) (by omega)
  exact decode_of (by rw [decodeFields_09 eqm]; simp [decodeMajor09, eq0, eq1, eq2]) rfl

theorem Encoding.bne (a : BitVec 5) (b : BitVec 5) (i : BitVec 16) : Encoding.Statement (.bne a b i) := by
  intro word _ heq
  replace heq : BitVec.ofNat 32 (0x28000000 + a.toNat * 0x200000 + b.toNat * 0x10000 + i.toNat) = word := Option.some.inj heq
  have lt_a := a.isLt
  have lt_b := b.isLt
  have lt_i := i.isLt
  have eqm : field word 26 6 = 0xA#6 := field_ofNat heq (by decide) (by simp only [BitVec.toNat_ofNat]; omega)
  have eq0 : field word 0 16 = i := field_ofNat heq (by decide) (by omega)
  have eq1 : field word 16 5 = b := field_ofNat heq (by decide) (by omega)
  have eq2 : field word 21 5 = a := field_ofNat heq (by decide) (by omega)
  exact decode_of (by rw [decodeFields_0A eqm]; simp [decodeMajor0A, eq0, eq1, eq2]) rfl

theorem Encoding.blt (a : BitVec 5) (b : BitVec 5) (i : BitVec 16) : Encoding.Statement (.blt a b i) := by
  intro word _ heq
  replace heq : BitVec.ofNat 32 (0x2C000000 + a.toNat * 0x200000 + b.toNat * 0x10000 + i.toNat) = word := Option.some.inj heq
  have lt_a := a.isLt
  have lt_b := b.isLt
  have lt_i := i.isLt
  have eqm : field word 26 6 = 0xB#6 := field_ofNat heq (by decide) (by simp only [BitVec.toNat_ofNat]; omega)
  have eq0 : field word 0 16 = i := field_ofNat heq (by decide) (by omega)
  have eq1 : field word 16 5 = b := field_ofNat heq (by decide) (by omega)
  have eq2 : field word 21 5 = a := field_ofNat heq (by decide) (by omega)
  exact decode_of (by rw [decodeFields_0B eqm]; simp [decodeMajor0B, eq0, eq1, eq2]) rfl

theorem Encoding.bge (a : BitVec 5) (b : BitVec 5) (i : BitVec 16) : Encoding.Statement (.bge a b i) := by
  intro word _ heq
  replace heq : BitVec.ofNat 32 (0x30000000 + a.toNat * 0x200000 + b.toNat * 0x10000 + i.toNat) = word := Option.some.inj heq
  have lt_a := a.isLt
  have lt_b := b.isLt
  have lt_i := i.isLt
  have eqm : field word 26 6 = 0xC#6 := field_ofNat heq (by decide) (by simp only [BitVec.toNat_ofNat]; omega)
  have eq0 : field word 0 16 = i := field_ofNat heq (by decide) (by omega)
  have eq1 : field word 16 5 = b := field_ofNat heq (by decide) (by omega)
  have eq2 : field word 21 5 = a := field_ofNat heq (by decide) (by omega)
  exact decode_of (by rw [decodeFields_0C eqm]; simp [decodeMajor0C, eq0, eq1, eq2]) rfl

theorem Encoding.bltn (a : BitVec 5) (b : BitVec 5) (i : BitVec 16) : Encoding.Statement (.bltn a b i) := by
  intro word _ heq
  replace heq : BitVec.ofNat 32 (0x34000000 + a.toNat * 0x200000 + b.toNat * 0x10000 + i.toNat) = word := Option.some.inj heq
  have lt_a := a.isLt
  have lt_b := b.isLt
  have lt_i := i.isLt
  have eqm : field word 26 6 = 0xD#6 := field_ofNat heq (by decide) (by simp only [BitVec.toNat_ofNat]; omega)
  have eq0 : field word 0 16 = i := field_ofNat heq (by decide) (by omega)
  have eq1 : field word 16 5 = b := field_ofNat heq (by decide) (by omega)
  have eq2 : field word 21 5 = a := field_ofNat heq (by decide) (by omega)
  exact decode_of (by rw [decodeFields_0D eqm]; simp [decodeMajor0D, eq0, eq1, eq2]) rfl

theorem Encoding.bgen (a : BitVec 5) (b : BitVec 5) (i : BitVec 16) : Encoding.Statement (.bgen a b i) := by
  intro word _ heq
  replace heq : BitVec.ofNat 32 (0x38000000 + a.toNat * 0x200000 + b.toNat * 0x10000 + i.toNat) = word := Option.some.inj heq
  have lt_a := a.isLt
  have lt_b := b.isLt
  have lt_i := i.isLt
  have eqm : field word 26 6 = 0xE#6 := field_ofNat heq (by decide) (by simp only [BitVec.toNat_ofNat]; omega)
  have eq0 : field word 0 16 = i := field_ofNat heq (by decide) (by omega)
  have eq1 : field word 16 5 = b := field_ofNat heq (by decide) (by omega)
  have eq2 : field word 21 5 = a := field_ofNat heq (by decide) (by omega)
  exact decode_of (by rw [decodeFields_0E eqm]; simp [decodeMajor0E, eq0, eq1, eq2]) rfl

theorem Encoding.jal (d : BitVec 5) (i : BitVec 21) : Encoding.Statement (.jal d i) := by
  intro word _ heq
  replace heq : BitVec.ofNat 32 (0x3C000000 + d.toNat * 0x200000 + i.toNat) = word := Option.some.inj heq
  have lt_d := d.isLt
  have lt_i := i.isLt
  have eqm : field word 26 6 = 0xF#6 := field_ofNat heq (by decide) (by simp only [BitVec.toNat_ofNat]; omega)
  have eq0 : field word 0 21 = i := field_ofNat heq (by decide) (by omega)
  have eq1 : field word 21 5 = d := field_ofNat heq (by decide) (by omega)
  exact decode_of (by rw [decodeFields_0F eqm]; simp [decodeMajor0F, eq0, eq1]) rfl

theorem Encoding.jalr (d : BitVec 5) (a : BitVec 5) (i : BitVec 16) : Encoding.Statement (.jalr d a i) := by
  intro word _ heq
  replace heq : BitVec.ofNat 32 (0x40000000 + d.toNat * 0x200000 + a.toNat * 0x10000 + i.toNat) = word := Option.some.inj heq
  have lt_d := d.isLt
  have lt_a := a.isLt
  have lt_i := i.isLt
  have eqm : field word 26 6 = 0x10#6 := field_ofNat heq (by decide) (by simp only [BitVec.toNat_ofNat]; omega)
  have eq0 : field word 0 16 = i := field_ofNat heq (by decide) (by omega)
  have eq1 : field word 16 5 = a := field_ofNat heq (by decide) (by omega)
  have eq2 : field word 21 5 = d := field_ofNat heq (by decide) (by omega)
  exact decode_of (by rw [decodeFields_10 eqm]; simp [decodeMajor10, eq0, eq1, eq2]) rfl

theorem Encoding.yield (n : BitVec 12) : Encoding.Statement (.yield n) := by
  intro word _ heq
  replace heq : BitVec.ofNat 32 (0x44000000 + n.toNat) = word := Option.some.inj heq
  have lt_n := n.isLt
  have eqm : field word 26 6 = 0x11#6 := field_ofNat heq (by decide) (by simp only [BitVec.toNat_ofNat]; omega)
  have eq0 : field word 0 12 = n := field_ofNat heq (by decide) (by omega)
  have eq1 : field word 12 14 = 0x0#14 := field_ofNat heq (by decide) (by simp only [BitVec.toNat_ofNat]; omega)
  exact decode_of (by rw [decodeFields_11 eqm]; simp [decodeMajor11, eq0, eq1]) rfl

theorem Encoding.endTask (a : BitVec 5) (s : BitVec 1) (n : BitVec 1) : Encoding.Statement (.endTask a s n) := by
  intro word hwf heq
  replace heq : BitVec.ofNat 32 (0x48000000 + a.toNat * 0x10000 + s.toNat * 0x2 + n.toNat) = word := Option.some.inj heq
  have lt_a := a.isLt
  have lt_s := s.isLt
  have lt_n := n.isLt
  have eqm : field word 26 6 = 0x12#6 := field_ofNat heq (by decide) (by simp only [BitVec.toNat_ofNat]; omega)
  have eq0 : field word 0 1 = n := field_ofNat heq (by decide) (by omega)
  have eq1 : field word 1 1 = s := field_ofNat heq (by decide) (by omega)
  have eq2 : field word 2 14 = 0x0#14 := field_ofNat heq (by decide) (by simp only [BitVec.toNat_ofNat]; omega)
  have eq3 : field word 16 5 = a := field_ofNat heq (by decide) (by omega)
  have eq4 : field word 21 5 = 0x0#5 := field_ofNat heq (by decide) (by simp only [BitVec.toNat_ofNat]; omega)
  exact decode_of (by rw [decodeFields_12 eqm]; simp [decodeMajor12, eq0, eq1, eq2, eq3, eq4]) hwf

theorem Encoding.endCont (d : BitVec 5) (a : BitVec 5) : Encoding.Statement (.endCont d a) := by
  intro word _ heq
  replace heq : BitVec.ofNat 32 (0x48000004 + d.toNat * 0x200000 + a.toNat * 0x10000) = word := Option.some.inj heq
  have lt_d := d.isLt
  have lt_a := a.isLt
  have eqm : field word 26 6 = 0x12#6 := field_ofNat heq (by decide) (by simp only [BitVec.toNat_ofNat]; omega)
  have eq0 : field word 0 16 = 0x4#16 := field_ofNat heq (by decide) (by simp only [BitVec.toNat_ofNat]; omega)
  have eq1 : field word 2 14 = 0x1#14 := field_ofNat heq (by decide) (by simp only [BitVec.toNat_ofNat]; omega)
  have eq2 : field word 16 5 = a := field_ofNat heq (by decide) (by omega)
  have eq3 : field word 21 5 = d := field_ofNat heq (by decide) (by omega)
  exact decode_of (by rw [decodeFields_12 eqm]; simp [decodeMajor12, eq0, eq1, eq2, eq3]) rfl

theorem Encoding.release (d : BitVec 5) (a : BitVec 5) (x : BitVec 1) (p : BitVec 4) : Encoding.Statement (.release d a x p) := by
  intro word hwf heq
  replace heq : BitVec.ofNat 32 (0x4C000000 + d.toNat * 0x200000 + a.toNat * 0x10000 + x.toNat * 0x10 + p.toNat) = word := Option.some.inj heq
  have lt_d := d.isLt
  have lt_a := a.isLt
  have lt_x := x.isLt
  have lt_p := p.isLt
  have eqm : field word 26 6 = 0x13#6 := field_ofNat heq (by decide) (by simp only [BitVec.toNat_ofNat]; omega)
  have eq0 : field word 0 4 = p := field_ofNat heq (by decide) (by omega)
  have eq1 : field word 4 1 = x := field_ofNat heq (by decide) (by omega)
  have eq2 : field word 5 11 = 0x0#11 := field_ofNat heq (by decide) (by simp only [BitVec.toNat_ofNat]; omega)
  have eq3 : field word 16 5 = a := field_ofNat heq (by decide) (by omega)
  have eq4 : field word 21 5 = d := field_ofNat heq (by decide) (by omega)
  exact decode_of (by rw [decodeFields_13 eqm]; simp [decodeMajor13, eq0, eq1, eq2, eq3, eq4]) hwf

theorem Encoding.releaseDie (d : BitVec 5) (a : BitVec 5) (e : BitVec 4) (x : BitVec 1) (p : BitVec 4) : Encoding.Statement (.releaseDie d a e x p) := by
  intro word hwf heq
  replace heq : BitVec.ofNat 32 (0x4C000200 + d.toNat * 0x200000 + a.toNat * 0x10000 + e.toNat * 0x20 + x.toNat * 0x10 + p.toNat) = word := Option.some.inj heq
  have lt_d := d.isLt
  have lt_a := a.isLt
  have lt_e := e.isLt
  have lt_x := x.isLt
  have lt_p := p.isLt
  have eqm : field word 26 6 = 0x13#6 := field_ofNat heq (by decide) (by simp only [BitVec.toNat_ofNat]; omega)
  have eq0 : field word 0 4 = p := field_ofNat heq (by decide) (by omega)
  have eq1 : field word 4 1 = x := field_ofNat heq (by decide) (by omega)
  have eq2 : field word 5 4 = e := field_ofNat heq (by decide) (by omega)
  have eq3 : field word 9 7 = 0x1#7 := field_ofNat heq (by decide) (by simp only [BitVec.toNat_ofNat]; omega)
  have eq4 : field word 16 5 = a := field_ofNat heq (by decide) (by omega)
  have eq5 : field word 21 5 = d := field_ofNat heq (by decide) (by omega)
  have ne0 : field word 5 11 ≠ 0x0#11 := field_ne heq (by decide) (by simp only [BitVec.toNat_ofNat]; omega)
  exact decode_of (by rw [decodeFields_13 eqm]; simp [decodeMajor13, eq0, eq1, eq2, eq3, eq4, eq5, ne0]) hwf

theorem Encoding.releasePeer (d : BitVec 5) (a : BitVec 5) (x : BitVec 1) (p : BitVec 4) : Encoding.Statement (.releasePeer d a x p) := by
  intro word hwf heq
  replace heq : BitVec.ofNat 32 (0x4C000400 + d.toNat * 0x200000 + a.toNat * 0x10000 + x.toNat * 0x10 + p.toNat) = word := Option.some.inj heq
  have lt_d := d.isLt
  have lt_a := a.isLt
  have lt_x := x.isLt
  have lt_p := p.isLt
  have eqm : field word 26 6 = 0x13#6 := field_ofNat heq (by decide) (by simp only [BitVec.toNat_ofNat]; omega)
  have eq0 : field word 0 4 = p := field_ofNat heq (by decide) (by omega)
  have eq1 : field word 4 1 = x := field_ofNat heq (by decide) (by omega)
  have eq2 : field word 5 11 = 0x20#11 := field_ofNat heq (by decide) (by simp only [BitVec.toNat_ofNat]; omega)
  have eq3 : field word 9 7 = 0x2#7 := field_ofNat heq (by decide) (by simp only [BitVec.toNat_ofNat]; omega)
  have eq4 : field word 16 5 = a := field_ofNat heq (by decide) (by omega)
  have eq5 : field word 21 5 = d := field_ofNat heq (by decide) (by omega)
  exact decode_of (by rw [decodeFields_13 eqm]; simp [decodeMajor13, eq0, eq1, eq2, eq3, eq4, eq5]) hwf

theorem Encoding.claim (e : BitVec 6) : Encoding.Statement (.claim e) := by
  intro word _ heq
  replace heq : BitVec.ofNat 32 (0x4C001000 + e.toNat) = word := Option.some.inj heq
  have lt_e := e.isLt
  have eqm : field word 26 6 = 0x13#6 := field_ofNat heq (by decide) (by simp only [BitVec.toNat_ofNat]; omega)
  have eq0 : field word 0 6 = e := field_ofNat heq (by decide) (by omega)
  have eq1 : field word 6 20 = 0x40#20 := field_ofNat heq (by decide) (by simp only [BitVec.toNat_ofNat]; omega)
  have eq2 : field word 9 7 = 0x8#7 := field_ofNat heq (by decide) (by simp only [BitVec.toNat_ofNat]; omega)
  have ne0 : field word 5 11 ≠ 0x0#11 := field_ne heq (by decide) (by simp only [BitVec.toNat_ofNat]; omega)
  have ne1 : field word 5 11 ≠ 0x20#11 := field_ne heq (by decide) (by simp only [BitVec.toNat_ofNat]; omega)
  exact decode_of (by rw [decodeFields_13 eqm]; simp [decodeMajor13, eq0, eq1, eq2, ne0, ne1]) rfl

theorem Encoding.unclaim (e : BitVec 6) : Encoding.Statement (.unclaim e) := by
  intro word _ heq
  replace heq : BitVec.ofNat 32 (0x4C002000 + e.toNat) = word := Option.some.inj heq
  have lt_e := e.isLt
  have eqm : field word 26 6 = 0x13#6 := field_ofNat heq (by decide) (by simp only [BitVec.toNat_ofNat]; omega)
  have eq0 : field word 0 6 = e := field_ofNat heq (by decide) (by omega)
  have eq1 : field word 6 20 = 0x80#20 := field_ofNat heq (by decide) (by simp only [BitVec.toNat_ofNat]; omega)
  have eq2 : field word 9 7 = 0x10#7 := field_ofNat heq (by decide) (by simp only [BitVec.toNat_ofNat]; omega)
  have ne0 : field word 5 11 ≠ 0x0#11 := field_ne heq (by decide) (by simp only [BitVec.toNat_ofNat]; omega)
  have ne1 : field word 5 11 ≠ 0x20#11 := field_ne heq (by decide) (by simp only [BitVec.toNat_ofNat]; omega)
  exact decode_of (by rw [decodeFields_13 eqm]; simp [decodeMajor13, eq0, eq1, eq2, ne0, ne1]) rfl

theorem Encoding.prio (d : BitVec 5) : Encoding.Statement (.prio d) := by
  intro word _ heq
  replace heq : BitVec.ofNat 32 (0x4C003000 + d.toNat * 0x200000) = word := Option.some.inj heq
  have lt_d := d.isLt
  have eqm : field word 26 6 = 0x13#6 := field_ofNat heq (by decide) (by simp only [BitVec.toNat_ofNat]; omega)
  have eq0 : field word 0 21 = 0x3000#21 := field_ofNat heq (by decide) (by simp only [BitVec.toNat_ofNat]; omega)
  have eq1 : field word 5 11 = 0x180#11 := field_ofNat heq (by decide) (by simp only [BitVec.toNat_ofNat]; omega)
  have eq2 : field word 9 7 = 0x18#7 := field_ofNat heq (by decide) (by simp only [BitVec.toNat_ofNat]; omega)
  have eq3 : field word 21 5 = d := field_ofNat heq (by decide) (by omega)
  have ne0 : field word 6 20 ≠ 0x40#20 := field_ne heq (by decide) (by simp only [BitVec.toNat_ofNat]; omega)
  have ne1 : field word 6 20 ≠ 0x80#20 := field_ne heq (by decide) (by simp only [BitVec.toNat_ofNat]; omega)
  exact decode_of (by rw [decodeFields_13 eqm]; simp [decodeMajor13, eq0, eq1, eq2, eq3, ne0, ne1]) rfl

theorem Encoding.prioSet (d : BitVec 5) (a : BitVec 5) : Encoding.Statement (.prioSet d a) := by
  intro word _ heq
  replace heq : BitVec.ofNat 32 (0x4C003001 + d.toNat * 0x200000 + a.toNat * 0x10000) = word := Option.some.inj heq
  have lt_d := d.isLt
  have lt_a := a.isLt
  have eqm : field word 26 6 = 0x13#6 := field_ofNat heq (by decide) (by simp only [BitVec.toNat_ofNat]; omega)
  have eq0 : field word 0 16 = 0x3001#16 := field_ofNat heq (by decide) (by simp only [BitVec.toNat_ofNat]; omega)
  have eq1 : field word 5 11 = 0x180#11 := field_ofNat heq (by decide) (by simp only [BitVec.toNat_ofNat]; omega)
  have eq2 : field word 9 7 = 0x18#7 := field_ofNat heq (by decide) (by simp only [BitVec.toNat_ofNat]; omega)
  have eq3 : field word 16 5 = a := field_ofNat heq (by decide) (by omega)
  have eq4 : field word 21 5 = d := field_ofNat heq (by decide) (by omega)
  have ne0 : field word 0 21 ≠ 0x3000#21 := field_ne heq (by decide) (by simp only [BitVec.toNat_ofNat]; omega)
  have ne1 : field word 6 20 ≠ 0x40#20 := field_ne heq (by decide) (by simp only [BitVec.toNat_ofNat]; omega)
  have ne2 : field word 6 20 ≠ 0x80#20 := field_ne heq (by decide) (by simp only [BitVec.toNat_ofNat]; omega)
  exact decode_of (by rw [decodeFields_13 eqm]; simp [decodeMajor13, eq0, eq1, eq2, eq3, eq4, ne0, ne1, ne2]) rfl

theorem Encoding.self (d : BitVec 5) : Encoding.Statement (.self d) := by
  intro word _ heq
  replace heq : BitVec.ofNat 32 (0x4C004000 + d.toNat * 0x200000) = word := Option.some.inj heq
  have lt_d := d.isLt
  have eqm : field word 26 6 = 0x13#6 := field_ofNat heq (by decide) (by simp only [BitVec.toNat_ofNat]; omega)
  have eq0 : field word 0 16 = 0x4000#16 := field_ofNat heq (by decide) (by simp only [BitVec.toNat_ofNat]; omega)
  have eq1 : field word 0 21 = 0x4000#21 := field_ofNat heq (by decide) (by simp only [BitVec.toNat_ofNat]; omega)
  have eq2 : field word 5 11 = 0x200#11 := field_ofNat heq (by decide) (by simp only [BitVec.toNat_ofNat]; omega)
  have eq3 : field word 9 7 = 0x20#7 := field_ofNat heq (by decide) (by simp only [BitVec.toNat_ofNat]; omega)
  have eq4 : field word 21 5 = d := field_ofNat heq (by decide) (by omega)
  have ne0 : field word 6 20 ≠ 0x40#20 := field_ne heq (by decide) (by simp only [BitVec.toNat_ofNat]; omega)
  have ne1 : field word 6 20 ≠ 0x80#20 := field_ne heq (by decide) (by simp only [BitVec.toNat_ofNat]; omega)
  exact decode_of (by rw [decodeFields_13 eqm]; simp [decodeMajor13, eq0, eq1, eq2, eq3, eq4, ne0, ne1]) rfl

theorem Encoding.selfFrame (d : BitVec 5) : Encoding.Statement (.selfFrame d) := by
  intro word _ heq
  replace heq : BitVec.ofNat 32 (0x4C004001 + d.toNat * 0x200000) = word := Option.some.inj heq
  have lt_d := d.isLt
  have eqm : field word 26 6 = 0x13#6 := field_ofNat heq (by decide) (by simp only [BitVec.toNat_ofNat]; omega)
  have eq0 : field word 0 16 = 0x4001#16 := field_ofNat heq (by decide) (by simp only [BitVec.toNat_ofNat]; omega)
  have eq1 : field word 0 21 = 0x4001#21 := field_ofNat heq (by decide) (by simp only [BitVec.toNat_ofNat]; omega)
  have eq2 : field word 5 11 = 0x200#11 := field_ofNat heq (by decide) (by simp only [BitVec.toNat_ofNat]; omega)
  have eq3 : field word 9 7 = 0x20#7 := field_ofNat heq (by decide) (by simp only [BitVec.toNat_ofNat]; omega)
  have eq4 : field word 21 5 = d := field_ofNat heq (by decide) (by omega)
  have ne0 : field word 6 20 ≠ 0x40#20 := field_ne heq (by decide) (by simp only [BitVec.toNat_ofNat]; omega)
  have ne1 : field word 6 20 ≠ 0x80#20 := field_ne heq (by decide) (by simp only [BitVec.toNat_ofNat]; omega)
  exact decode_of (by rw [decodeFields_13 eqm]; simp [decodeMajor13, eq0, eq1, eq2, eq3, eq4, ne0, ne1]) rfl

theorem Encoding.gdec (a : BitVec 5) (c : BitVec 12) : Encoding.Statement (.gdec a c) := by
  intro word hwf heq
  replace heq : BitVec.ofNat 32 (0x4C008000 + a.toNat * 0x10000 + c.toNat) = word := Option.some.inj heq
  have lt_a := a.isLt
  have lt_c := c.isLt
  have eqm : field word 26 6 = 0x13#6 := field_ofNat heq (by decide) (by simp only [BitVec.toNat_ofNat]; omega)
  have eq0 : field word 0 12 = c := field_ofNat heq (by decide) (by omega)
  have eq1 : field word 12 4 = 0x8#4 := field_ofNat heq (by decide) (by simp only [BitVec.toNat_ofNat]; omega)
  have eq2 : field word 16 5 = a := field_ofNat heq (by decide) (by omega)
  have eq3 : field word 21 5 = 0x0#5 := field_ofNat heq (by decide) (by simp only [BitVec.toNat_ofNat]; omega)
  have ne0 : field word 0 16 ≠ 0x3001#16 := field_ne heq (by decide) (by simp only [BitVec.toNat_ofNat]; omega)
  have ne1 : field word 0 21 ≠ 0x3000#21 := field_ne heq (by decide) (by simp only [BitVec.toNat_ofNat]; omega)
  have ne2 : field word 0 21 ≠ 0x4000#21 := field_ne heq (by decide) (by simp only [BitVec.toNat_ofNat]; omega)
  have ne3 : field word 0 21 ≠ 0x4001#21 := field_ne heq (by decide) (by simp only [BitVec.toNat_ofNat]; omega)
  have ne4 : field word 5 11 ≠ 0x0#11 := field_ne heq (by decide) (by simp only [BitVec.toNat_ofNat]; omega)
  have ne5 : field word 5 11 ≠ 0x20#11 := field_ne heq (by decide) (by simp only [BitVec.toNat_ofNat]; omega)
  have ne6 : field word 6 20 ≠ 0x40#20 := field_ne heq (by decide) (by simp only [BitVec.toNat_ofNat]; omega)
  have ne7 : field word 6 20 ≠ 0x80#20 := field_ne heq (by decide) (by simp only [BitVec.toNat_ofNat]; omega)
  have ne8 : field word 9 7 ≠ 0x1#7 := field_ne heq (by decide) (by simp only [BitVec.toNat_ofNat]; omega)
  exact decode_of (by rw [decodeFields_13 eqm]; simp [decodeMajor13, eq0, eq1, eq2, eq3, ne0, ne1, ne2, ne3, ne4, ne5, ne6, ne7, ne8]) hwf

theorem Encoding.gnode (d : BitVec 5) : Encoding.Statement (.gnode d) := by
  intro word _ heq
  replace heq : BitVec.ofNat 32 (0x4C009000 + d.toNat * 0x200000) = word := Option.some.inj heq
  have lt_d := d.isLt
  have eqm : field word 26 6 = 0x13#6 := field_ofNat heq (by decide) (by simp only [BitVec.toNat_ofNat]; omega)
  have eq0 : field word 0 16 = 0x9000#16 := field_ofNat heq (by decide) (by simp only [BitVec.toNat_ofNat]; omega)
  have eq1 : field word 0 21 = 0x9000#21 := field_ofNat heq (by decide) (by simp only [BitVec.toNat_ofNat]; omega)
  have eq2 : field word 5 11 = 0x480#11 := field_ofNat heq (by decide) (by simp only [BitVec.toNat_ofNat]; omega)
  have eq3 : field word 9 7 = 0x48#7 := field_ofNat heq (by decide) (by simp only [BitVec.toNat_ofNat]; omega)
  have eq4 : field word 12 4 = 0x9#4 := field_ofNat heq (by decide) (by simp only [BitVec.toNat_ofNat]; omega)
  have eq5 : field word 21 5 = d := field_ofNat heq (by decide) (by omega)
  have ne0 : field word 6 20 ≠ 0x40#20 := field_ne heq (by decide) (by simp only [BitVec.toNat_ofNat]; omega)
  have ne1 : field word 6 20 ≠ 0x80#20 := field_ne heq (by decide) (by simp only [BitVec.toNat_ofNat]; omega)
  exact decode_of (by rw [decodeFields_13 eqm]; simp [decodeMajor13, eq0, eq1, eq2, eq3, eq4, eq5, ne0, ne1]) rfl

theorem Encoding.gnodeN (d : BitVec 5) : Encoding.Statement (.gnodeN d) := by
  intro word _ heq
  replace heq : BitVec.ofNat 32 (0x4C009001 + d.toNat * 0x200000) = word := Option.some.inj heq
  have lt_d := d.isLt
  have eqm : field word 26 6 = 0x13#6 := field_ofNat heq (by decide) (by simp only [BitVec.toNat_ofNat]; omega)
  have eq0 : field word 0 16 = 0x9001#16 := field_ofNat heq (by decide) (by simp only [BitVec.toNat_ofNat]; omega)
  have eq1 : field word 0 21 = 0x9001#21 := field_ofNat heq (by decide) (by simp only [BitVec.toNat_ofNat]; omega)
  have eq2 : field word 5 11 = 0x480#11 := field_ofNat heq (by decide) (by simp only [BitVec.toNat_ofNat]; omega)
  have eq3 : field word 9 7 = 0x48#7 := field_ofNat heq (by decide) (by simp only [BitVec.toNat_ofNat]; omega)
  have eq4 : field word 12 4 = 0x9#4 := field_ofNat heq (by decide) (by simp only [BitVec.toNat_ofNat]; omega)
  have eq5 : field word 21 5 = d := field_ofNat heq (by decide) (by omega)
  have ne0 : field word 6 20 ≠ 0x40#20 := field_ne heq (by decide) (by simp only [BitVec.toNat_ofNat]; omega)
  have ne1 : field word 6 20 ≠ 0x80#20 := field_ne heq (by decide) (by simp only [BitVec.toNat_ofNat]; omega)
  exact decode_of (by rw [decodeFields_13 eqm]; simp [decodeMajor13, eq0, eq1, eq2, eq3, eq4, eq5, ne0, ne1]) rfl

theorem Encoding.ld (t : BitVec 5) (b : BitVec 5) (d : BitVec 13) (q : BitVec 3) : Encoding.Statement (.ld t b d q) := by
  intro word hwf heq
  replace heq : BitVec.ofNat 32 (0x50000000 + t.toNat * 0x200000 + b.toNat * 0x10000 + d.toNat * 0x8 + q.toNat) = word := Option.some.inj heq
  have lt_t := t.isLt
  have lt_b := b.isLt
  have lt_d := d.isLt
  have lt_q := q.isLt
  have eqm : field word 26 6 = 0x14#6 := field_ofNat heq (by decide) (by simp only [BitVec.toNat_ofNat]; omega)
  have eq0 : field word 0 3 = q := field_ofNat heq (by decide) (by omega)
  have eq1 : field word 3 13 = d := field_ofNat heq (by decide) (by omega)
  have eq2 : field word 16 5 = b := field_ofNat heq (by decide) (by omega)
  have eq3 : field word 21 5 = t := field_ofNat heq (by decide) (by omega)
  exact decode_of (by rw [decodeFields_14 eqm]; simp [decodeMajor14, eq0, eq1, eq2, eq3]) hwf

theorem Encoding.st (t : BitVec 5) (b : BitVec 5) (d : BitVec 13) (q : BitVec 2) : Encoding.Statement (.st t b d q) := by
  intro word _ heq
  replace heq : BitVec.ofNat 32 (0x54000000 + t.toNat * 0x200000 + b.toNat * 0x10000 + d.toNat * 0x8 + q.toNat) = word := Option.some.inj heq
  have lt_t := t.isLt
  have lt_b := b.isLt
  have lt_d := d.isLt
  have lt_q := q.isLt
  have eqm : field word 26 6 = 0x15#6 := field_ofNat heq (by decide) (by simp only [BitVec.toNat_ofNat]; omega)
  have eq0 : field word 0 2 = q := field_ofNat heq (by decide) (by omega)
  have eq1 : field word 2 1 = 0x0#1 := field_ofNat heq (by decide) (by simp only [BitVec.toNat_ofNat]; omega)
  have eq2 : field word 3 13 = d := field_ofNat heq (by decide) (by omega)
  have eq3 : field word 16 5 = b := field_ofNat heq (by decide) (by omega)
  have eq4 : field word 21 5 = t := field_ofNat heq (by decide) (by omega)
  exact decode_of (by rw [decodeFields_15 eqm]; simp [decodeMajor15, eq0, eq1, eq2, eq3, eq4]) rfl

theorem Encoding.lda (t : BitVec 5) (b : BitVec 5) (d : BitVec 13) (q : BitVec 2) : Encoding.Statement (.lda t b d q) := by
  intro word _ heq
  replace heq : BitVec.ofNat 32 (0x58000000 + t.toNat * 0x200000 + b.toNat * 0x10000 + d.toNat * 0x8 + q.toNat) = word := Option.some.inj heq
  have lt_t := t.isLt
  have lt_b := b.isLt
  have lt_d := d.isLt
  have lt_q := q.isLt
  have eqm : field word 26 6 = 0x16#6 := field_ofNat heq (by decide) (by simp only [BitVec.toNat_ofNat]; omega)
  have eq0 : field word 0 2 = q := field_ofNat heq (by decide) (by omega)
  have eq1 : field word 2 1 = 0x0#1 := field_ofNat heq (by decide) (by simp only [BitVec.toNat_ofNat]; omega)
  have eq2 : field word 3 13 = d := field_ofNat heq (by decide) (by omega)
  have eq3 : field word 16 5 = b := field_ofNat heq (by decide) (by omega)
  have eq4 : field word 21 5 = t := field_ofNat heq (by decide) (by omega)
  exact decode_of (by rw [decodeFields_16 eqm]; simp [decodeMajor16, eq0, eq1, eq2, eq3, eq4]) rfl

theorem Encoding.stl (t : BitVec 5) (b : BitVec 5) (d : BitVec 13) (q : BitVec 2) : Encoding.Statement (.stl t b d q) := by
  intro word _ heq
  replace heq : BitVec.ofNat 32 (0x58000004 + t.toNat * 0x200000 + b.toNat * 0x10000 + d.toNat * 0x8 + q.toNat) = word := Option.some.inj heq
  have lt_t := t.isLt
  have lt_b := b.isLt
  have lt_d := d.isLt
  have lt_q := q.isLt
  have eqm : field word 26 6 = 0x16#6 := field_ofNat heq (by decide) (by simp only [BitVec.toNat_ofNat]; omega)
  have eq0 : field word 0 2 = q := field_ofNat heq (by decide) (by omega)
  have eq1 : field word 2 1 = 0x1#1 := field_ofNat heq (by decide) (by simp only [BitVec.toNat_ofNat]; omega)
  have eq2 : field word 3 13 = d := field_ofNat heq (by decide) (by omega)
  have eq3 : field word 16 5 = b := field_ofNat heq (by decide) (by omega)
  have eq4 : field word 21 5 = t := field_ofNat heq (by decide) (by omega)
  exact decode_of (by rw [decodeFields_16 eqm]; simp [decodeMajor16, eq0, eq1, eq2, eq3, eq4]) rfl

theorem Encoding.amo (t : BitVec 5) (b : BitVec 5) (s : BitVec 5) (o : BitVec 4) (r : BitVec 2) (q : BitVec 3) : Encoding.Statement (.amo t b s o r q) := by
  intro word hwf heq
  replace heq : BitVec.ofNat 32 (0x5C000000 + t.toNat * 0x200000 + b.toNat * 0x10000 + s.toNat * 0x800 + o.toNat * 0x80 + r.toNat * 0x20 + q.toNat) = word := Option.some.inj heq
  have lt_t := t.isLt
  have lt_b := b.isLt
  have lt_s := s.isLt
  have lt_o := o.isLt
  have lt_r := r.isLt
  have lt_q := q.isLt
  have eqm : field word 26 6 = 0x17#6 := field_ofNat heq (by decide) (by simp only [BitVec.toNat_ofNat]; omega)
  have eq0 : field word 0 3 = q := field_ofNat heq (by decide) (by omega)
  have eq1 : field word 3 2 = 0x0#2 := field_ofNat heq (by decide) (by simp only [BitVec.toNat_ofNat]; omega)
  have eq2 : field word 5 2 = r := field_ofNat heq (by decide) (by omega)
  have eq3 : field word 7 4 = o := field_ofNat heq (by decide) (by omega)
  have eq4 : field word 11 5 = s := field_ofNat heq (by decide) (by omega)
  have eq5 : field word 16 5 = b := field_ofNat heq (by decide) (by omega)
  have eq6 : field word 21 5 = t := field_ofNat heq (by decide) (by omega)
  exact decode_of (by rw [decodeFields_17 eqm]; simp [decodeMajor17, eq0, eq1, eq2, eq3, eq4, eq5, eq6]) hwf

theorem Encoding.amop (b : BitVec 5) (s : BitVec 5) (o : BitVec 4) (r : BitVec 2) (q : BitVec 1) : Encoding.Statement (.amop b s o r q) := by
  intro word hwf heq
  replace heq : BitVec.ofNat 32 (0x60000002 + b.toNat * 0x10000 + s.toNat * 0x800 + o.toNat * 0x80 + r.toNat * 0x20 + q.toNat) = word := Option.some.inj heq
  have lt_b := b.isLt
  have lt_s := s.isLt
  have lt_o := o.isLt
  have lt_r := r.isLt
  have lt_q := q.isLt
  have eqm : field word 26 6 = 0x18#6 := field_ofNat heq (by decide) (by simp only [BitVec.toNat_ofNat]; omega)
  have eq0 : field word 0 1 = q := field_ofNat heq (by decide) (by omega)
  have eq1 : field word 1 4 = 0x1#4 := field_ofNat heq (by decide) (by simp only [BitVec.toNat_ofNat]; omega)
  have eq2 : field word 5 2 = r := field_ofNat heq (by decide) (by omega)
  have eq3 : field word 7 4 = o := field_ofNat heq (by decide) (by omega)
  have eq4 : field word 11 5 = s := field_ofNat heq (by decide) (by omega)
  have eq5 : field word 16 5 = b := field_ofNat heq (by decide) (by omega)
  have eq6 : field word 21 5 = 0x0#5 := field_ofNat heq (by decide) (by simp only [BitVec.toNat_ofNat]; omega)
  exact decode_of (by rw [decodeFields_18 eqm]; simp [decodeMajor18, eq0, eq1, eq2, eq3, eq4, eq5, eq6]) hwf

theorem Encoding.amoa (t : BitVec 5) (b : BitVec 5) (s : BitVec 5) (o : BitVec 4) (k : BitVec 4) (q : BitVec 1) : Encoding.Statement (.amoa t b s o k q) := by
  intro word hwf heq
  replace heq : BitVec.ofNat 32 (0x60000006 + t.toNat * 0x200000 + b.toNat * 0x10000 + s.toNat * 0x800 + o.toNat * 0x80 + k.toNat * 0x8 + q.toNat) = word := Option.some.inj heq
  have lt_t := t.isLt
  have lt_b := b.isLt
  have lt_s := s.isLt
  have lt_o := o.isLt
  have lt_k := k.isLt
  have lt_q := q.isLt
  have eqm : field word 26 6 = 0x18#6 := field_ofNat heq (by decide) (by simp only [BitVec.toNat_ofNat]; omega)
  have eq0 : field word 0 1 = q := field_ofNat heq (by decide) (by omega)
  have eq1 : field word 1 2 = 0x3#2 := field_ofNat heq (by decide) (by simp only [BitVec.toNat_ofNat]; omega)
  have eq2 : field word 3 4 = k := field_ofNat heq (by decide) (by omega)
  have eq3 : field word 7 4 = o := field_ofNat heq (by decide) (by omega)
  have eq4 : field word 11 5 = s := field_ofNat heq (by decide) (by omega)
  have eq5 : field word 16 5 = b := field_ofNat heq (by decide) (by omega)
  have eq6 : field word 21 5 = t := field_ofNat heq (by decide) (by omega)
  have ne0 : field word 1 4 ≠ 0x1#4 := field_ne heq (by decide) (by simp only [BitVec.toNat_ofNat]; omega)
  exact decode_of (by rw [decodeFields_18 eqm]; simp [decodeMajor18, eq0, eq1, eq2, eq3, eq4, eq5, eq6, ne0]) hwf

theorem Encoding.cas (t : BitVec 5) (b : BitVec 5) (c : BitVec 5) (n : BitVec 5) (r : BitVec 2) (q : BitVec 3) : Encoding.Statement (.cas t b c n r q) := by
  intro word hwf heq
  replace heq : BitVec.ofNat 32 (0x64000000 + t.toNat * 0x200000 + b.toNat * 0x10000 + c.toNat * 0x800 + n.toNat * 0x40 + r.toNat * 0x10 + q.toNat) = word := Option.some.inj heq
  have lt_t := t.isLt
  have lt_b := b.isLt
  have lt_c := c.isLt
  have lt_n := n.isLt
  have lt_r := r.isLt
  have lt_q := q.isLt
  have eqm : field word 26 6 = 0x19#6 := field_ofNat heq (by decide) (by simp only [BitVec.toNat_ofNat]; omega)
  have eq0 : field word 0 3 = q := field_ofNat heq (by decide) (by omega)
  have eq1 : field word 3 1 = 0x0#1 := field_ofNat heq (by decide) (by simp only [BitVec.toNat_ofNat]; omega)
  have eq2 : field word 4 2 = r := field_ofNat heq (by decide) (by omega)
  have eq3 : field word 6 5 = n := field_ofNat heq (by decide) (by omega)
  have eq4 : field word 11 5 = c := field_ofNat heq (by decide) (by omega)
  have eq5 : field word 16 5 = b := field_ofNat heq (by decide) (by omega)
  have eq6 : field word 21 5 = t := field_ofNat heq (by decide) (by omega)
  exact decode_of (by rw [decodeFields_19 eqm]; simp [decodeMajor19, eq0, eq1, eq2, eq3, eq4, eq5, eq6]) hwf

theorem Encoding.fadd (t : BitVec 5) (b : BitVec 5) (s : BitVec 5) (r : BitVec 2) (q : BitVec 3) : Encoding.Statement (.fadd t b s r q) := by
  intro word hwf heq
  replace heq : BitVec.ofNat 32 (0x64000048 + t.toNat * 0x200000 + b.toNat * 0x10000 + s.toNat * 0x800 + r.toNat * 0x10 + q.toNat) = word := Option.some.inj heq
  have lt_t := t.isLt
  have lt_b := b.isLt
  have lt_s := s.isLt
  have lt_r := r.isLt
  have lt_q := q.isLt
  have eqm : field word 26 6 = 0x19#6 := field_ofNat heq (by decide) (by simp only [BitVec.toNat_ofNat]; omega)
  have eq0 : field word 0 3 = q := field_ofNat heq (by decide) (by omega)
  have eq1 : field word 3 1 = 0x1#1 := field_ofNat heq (by decide) (by simp only [BitVec.toNat_ofNat]; omega)
  have eq2 : field word 4 2 = r := field_ofNat heq (by decide) (by omega)
  have eq3 : field word 6 5 = 0x1#5 := field_ofNat heq (by decide) (by simp only [BitVec.toNat_ofNat]; omega)
  have eq4 : field word 11 5 = s := field_ofNat heq (by decide) (by omega)
  have eq5 : field word 16 5 = b := field_ofNat heq (by decide) (by omega)
  have eq6 : field word 21 5 = t := field_ofNat heq (by decide) (by omega)
  exact decode_of (by rw [decodeFields_19 eqm]; simp [decodeMajor19, eq0, eq1, eq2, eq3, eq4, eq5, eq6]) hwf

theorem Encoding.faddPosted (b : BitVec 5) (s : BitVec 5) (r : BitVec 1) (q : BitVec 3) : Encoding.Statement (.faddPosted b s r q) := by
  intro word hwf heq
  replace heq : BitVec.ofNat 32 (0x64000008 + b.toNat * 0x10000 + s.toNat * 0x800 + r.toNat * 0x20 + q.toNat) = word := Option.some.inj heq
  have lt_b := b.isLt
  have lt_s := s.isLt
  have lt_r := r.isLt
  have lt_q := q.isLt
  have eqm : field word 26 6 = 0x19#6 := field_ofNat heq (by decide) (by simp only [BitVec.toNat_ofNat]; omega)
  have eq0 : field word 0 3 = q := field_ofNat heq (by decide) (by omega)
  have eq1 : field word 3 1 = 0x1#1 := field_ofNat heq (by decide) (by simp only [BitVec.toNat_ofNat]; omega)
  have eq2 : field word 3 2 = 0x1#2 := field_ofNat heq (by decide) (by simp only [BitVec.toNat_ofNat]; omega)
  have eq3 : field word 5 1 = r := field_ofNat heq (by decide) (by omega)
  have eq4 : field word 6 5 = 0x0#5 := field_ofNat heq (by decide) (by simp only [BitVec.toNat_ofNat]; omega)
  have eq5 : field word 11 5 = s := field_ofNat heq (by decide) (by omega)
  have eq6 : field word 16 5 = b := field_ofNat heq (by decide) (by omega)
  have eq7 : field word 21 5 = 0x0#5 := field_ofNat heq (by decide) (by simp only [BitVec.toNat_ofNat]; omega)
  exact decode_of (by rw [decodeFields_19 eqm]; simp [decodeMajor19, eq0, eq1, eq2, eq3, eq4, eq5, eq6, eq7]) hwf

theorem Encoding.stfFlag (t : BitVec 5) (b : BitVec 5) (f : BitVec 5) (q : BitVec 3) : Encoding.Statement (.stfFlag t b f q) := by
  intro word hwf heq
  replace heq : BitVec.ofNat 32 (0x68000000 + t.toNat * 0x200000 + b.toNat * 0x10000 + f.toNat * 0x800 + q.toNat) = word := Option.some.inj heq
  have lt_t := t.isLt
  have lt_b := b.isLt
  have lt_f := f.isLt
  have lt_q := q.isLt
  have eqm : field word 26 6 = 0x1A#6 := field_ofNat heq (by decide) (by simp only [BitVec.toNat_ofNat]; omega)
  have eq0 : field word 0 3 = q := field_ofNat heq (by decide) (by omega)
  have eq1 : field word 3 8 = 0x0#8 := field_ofNat heq (by decide) (by simp only [BitVec.toNat_ofNat]; omega)
  have eq2 : field word 11 5 = f := field_ofNat heq (by decide) (by omega)
  have eq3 : field word 16 5 = b := field_ofNat heq (by decide) (by omega)
  have eq4 : field word 21 5 = t := field_ofNat heq (by decide) (by omega)
  exact decode_of (by rw [decodeFields_1A eqm]; simp [decodeMajor1A, eq0, eq1, eq2, eq3, eq4]) hwf

theorem Encoding.stfTask (t : BitVec 5) (b : BitVec 5) (f : BitVec 5) (q : BitVec 3) : Encoding.Statement (.stfTask t b f q) := by
  intro word hwf heq
  replace heq : BitVec.ofNat 32 (0x68000008 + t.toNat * 0x200000 + b.toNat * 0x10000 + f.toNat * 0x800 + q.toNat) = word := Option.some.inj heq
  have lt_t := t.isLt
  have lt_b := b.isLt
  have lt_f := f.isLt
  have lt_q := q.isLt
  have eqm : field word 26 6 = 0x1A#6 := field_ofNat heq (by decide) (by simp only [BitVec.toNat_ofNat]; omega)
  have eq0 : field word 0 3 = q := field_ofNat heq (by decide) (by omega)
  have eq1 : field word 3 8 = 0x1#8 := field_ofNat heq (by decide) (by simp only [BitVec.toNat_ofNat]; omega)
  have eq2 : field word 11 5 = f := field_ofNat heq (by decide) (by omega)
  have eq3 : field word 16 5 = b := field_ofNat heq (by decide) (by omega)
  have eq4 : field word 21 5 = t := field_ofNat heq (by decide) (by omega)
  exact decode_of (by rw [decodeFields_1A eqm]; simp [decodeMajor1A, eq0, eq1, eq2, eq3, eq4]) hwf

theorem Encoding.pref (b : BitVec 5) (d : BitVec 13) : Encoding.Statement (.pref b d) := by
  intro word _ heq
  replace heq : BitVec.ofNat 32 (0x6C000000 + b.toNat * 0x10000 + d.toNat * 0x8) = word := Option.some.inj heq
  have lt_b := b.isLt
  have lt_d := d.isLt
  have eqm : field word 26 6 = 0x1B#6 := field_ofNat heq (by decide) (by simp only [BitVec.toNat_ofNat]; omega)
  have eq0 : field word 0 3 = 0x0#3 := field_ofNat heq (by decide) (by simp only [BitVec.toNat_ofNat]; omega)
  have eq1 : field word 3 13 = d := field_ofNat heq (by decide) (by omega)
  have eq2 : field word 16 5 = b := field_ofNat heq (by decide) (by omega)
  have eq3 : field word 21 5 = 0x0#5 := field_ofNat heq (by decide) (by simp only [BitVec.toNat_ofNat]; omega)
  exact decode_of (by rw [decodeFields_1B eqm]; simp [decodeMajor1B, eq0, eq1, eq2, eq3]) rfl

theorem Encoding.prefFar (b : BitVec 5) (d : BitVec 13) : Encoding.Statement (.prefFar b d) := by
  intro word _ heq
  replace heq : BitVec.ofNat 32 (0x6C000001 + b.toNat * 0x10000 + d.toNat * 0x8) = word := Option.some.inj heq
  have lt_b := b.isLt
  have lt_d := d.isLt
  have eqm : field word 26 6 = 0x1B#6 := field_ofNat heq (by decide) (by simp only [BitVec.toNat_ofNat]; omega)
  have eq0 : field word 0 3 = 0x1#3 := field_ofNat heq (by decide) (by simp only [BitVec.toNat_ofNat]; omega)
  have eq1 : field word 3 13 = d := field_ofNat heq (by decide) (by omega)
  have eq2 : field word 16 5 = b := field_ofNat heq (by decide) (by omega)
  have eq3 : field word 21 5 = 0x0#5 := field_ofNat heq (by decide) (by simp only [BitVec.toNat_ofNat]; omega)
  exact decode_of (by rw [decodeFields_1B eqm]; simp [decodeMajor1B, eq0, eq1, eq2, eq3]) rfl

theorem Encoding.fence : Encoding.Statement (.fence) := by
  intro word _ heq
  replace heq : BitVec.ofNat 32 (0x6C000004) = word := Option.some.inj heq
  have eqm : field word 26 6 = 0x1B#6 := field_ofNat heq (by decide) (by simp only [BitVec.toNat_ofNat]; omega)
  have eq0 : field word 0 3 = 0x4#3 := field_ofNat heq (by decide) (by simp only [BitVec.toNat_ofNat]; omega)
  have eq1 : field word 0 26 = 0x4#26 := field_ofNat heq (by decide) (by simp only [BitVec.toNat_ofNat]; omega)
  have eq2 : field word 21 5 = 0x0#5 := field_ofNat heq (by decide) (by simp only [BitVec.toNat_ofNat]; omega)
  exact decode_of (by rw [decodeFields_1B eqm]; simp [decodeMajor1B, eq0, eq1, eq2]) rfl

theorem Encoding.binit (d : BitVec 5) (a : BitVec 5) (k : BitVec 4) : Encoding.Statement (.binit d a k) := by
  intro word _ heq
  replace heq : BitVec.ofNat 32 (0x70000000 + d.toNat * 0x200000 + a.toNat * 0x10000 + k.toNat) = word := Option.some.inj heq
  have lt_d := d.isLt
  have lt_a := a.isLt
  have lt_k := k.isLt
  have eqm : field word 26 6 = 0x1C#6 := field_ofNat heq (by decide) (by simp only [BitVec.toNat_ofNat]; omega)
  have eq0 : field word 0 4 = k := field_ofNat heq (by decide) (by omega)
  have eq1 : field word 4 12 = 0x0#12 := field_ofNat heq (by decide) (by simp only [BitVec.toNat_ofNat]; omega)
  have eq2 : field word 16 5 = a := field_ofNat heq (by decide) (by omega)
  have eq3 : field word 21 5 = d := field_ofNat heq (by decide) (by omega)
  exact decode_of (by rw [decodeFields_1C eqm]; simp [decodeMajor1C, eq0, eq1, eq2, eq3]) rfl

theorem Encoding.bexpect (a : BitVec 5) (k : BitVec 4) : Encoding.Statement (.bexpect a k) := by
  intro word _ heq
  replace heq : BitVec.ofNat 32 (0x70001000 + a.toNat * 0x10000 + k.toNat) = word := Option.some.inj heq
  have lt_a := a.isLt
  have lt_k := k.isLt
  have eqm : field word 26 6 = 0x1C#6 := field_ofNat heq (by decide) (by simp only [BitVec.toNat_ofNat]; omega)
  have eq0 : field word 0 4 = k := field_ofNat heq (by decide) (by omega)
  have eq1 : field word 4 12 = 0x100#12 := field_ofNat heq (by decide) (by simp only [BitVec.toNat_ofNat]; omega)
  have eq2 : field word 16 5 = a := field_ofNat heq (by decide) (by omega)
  have eq3 : field word 21 5 = 0x0#5 := field_ofNat heq (by decide) (by simp only [BitVec.toNat_ofNat]; omega)
  exact decode_of (by rw [decodeFields_1C eqm]; simp [decodeMajor1C, eq0, eq1, eq2, eq3]) rfl

theorem Encoding.barrive (k : BitVec 4) : Encoding.Statement (.barrive k) := by
  intro word _ heq
  replace heq : BitVec.ofNat 32 (0x70002000 + k.toNat) = word := Option.some.inj heq
  have lt_k := k.isLt
  have eqm : field word 26 6 = 0x1C#6 := field_ofNat heq (by decide) (by simp only [BitVec.toNat_ofNat]; omega)
  have eq0 : field word 0 4 = k := field_ofNat heq (by decide) (by omega)
  have eq1 : field word 4 12 = 0x200#12 := field_ofNat heq (by decide) (by simp only [BitVec.toNat_ofNat]; omega)
  have eq2 : field word 4 22 = 0x200#22 := field_ofNat heq (by decide) (by simp only [BitVec.toNat_ofNat]; omega)
  have eq3 : field word 21 5 = 0x0#5 := field_ofNat heq (by decide) (by simp only [BitVec.toNat_ofNat]; omega)
  exact decode_of (by rw [decodeFields_1C eqm]; simp [decodeMajor1C, eq0, eq1, eq2, eq3]) rfl

theorem Encoding.barriveH (a : BitVec 5) : Encoding.Statement (.barriveH a) := by
  intro word _ heq
  replace heq : BitVec.ofNat 32 (0x70002010 + a.toNat * 0x10000) = word := Option.some.inj heq
  have lt_a := a.isLt
  have eqm : field word 26 6 = 0x1C#6 := field_ofNat heq (by decide) (by simp only [BitVec.toNat_ofNat]; omega)
  have eq0 : field word 0 16 = 0x2010#16 := field_ofNat heq (by decide) (by simp only [BitVec.toNat_ofNat]; omega)
  have eq1 : field word 4 12 = 0x201#12 := field_ofNat heq (by decide) (by simp only [BitVec.toNat_ofNat]; omega)
  have eq2 : field word 16 5 = a := field_ofNat heq (by decide) (by omega)
  have eq3 : field word 21 5 = 0x0#5 := field_ofNat heq (by decide) (by simp only [BitVec.toNat_ofNat]; omega)
  have ne0 : field word 4 22 ≠ 0x200#22 := field_ne heq (by decide) (by simp only [BitVec.toNat_ofNat]; omega)
  exact decode_of (by rw [decodeFields_1C eqm]; simp [decodeMajor1C, eq0, eq1, eq2, eq3, ne0]) rfl

theorem Encoding.bwait (d : BitVec 5) (a : BitVec 5) (k : BitVec 4) : Encoding.Statement (.bwait d a k) := by
  intro word _ heq
  replace heq : BitVec.ofNat 32 (0x70003000 + d.toNat * 0x200000 + a.toNat * 0x10000 + k.toNat) = word := Option.some.inj heq
  have lt_d := d.isLt
  have lt_a := a.isLt
  have lt_k := k.isLt
  have eqm : field word 26 6 = 0x1C#6 := field_ofNat heq (by decide) (by simp only [BitVec.toNat_ofNat]; omega)
  have eq0 : field word 0 4 = k := field_ofNat heq (by decide) (by omega)
  have eq1 : field word 4 12 = 0x300#12 := field_ofNat heq (by decide) (by simp only [BitVec.toNat_ofNat]; omega)
  have eq2 : field word 16 5 = a := field_ofNat heq (by decide) (by omega)
  have eq3 : field word 21 5 = d := field_ofNat heq (by decide) (by omega)
  have ne0 : field word 0 16 ≠ 0x2010#16 := field_ne heq (by decide) (by simp only [BitVec.toNat_ofNat]; omega)
  have ne1 : field word 4 22 ≠ 0x200#22 := field_ne heq (by decide) (by simp only [BitVec.toNat_ofNat]; omega)
  exact decode_of (by rw [decodeFields_1C eqm]; simp [decodeMajor1C, eq0, eq1, eq2, eq3, ne0, ne1]) rfl

theorem Encoding.btest (d : BitVec 5) (h : BitVec 1) (k : BitVec 4) : Encoding.Statement (.btest d h k) := by
  intro word _ heq
  replace heq : BitVec.ofNat 32 (0x70004000 + d.toNat * 0x200000 + h.toNat * 0x10 + k.toNat) = word := Option.some.inj heq
  have lt_d := d.isLt
  have lt_h := h.isLt
  have lt_k := k.isLt
  have eqm : field word 26 6 = 0x1C#6 := field_ofNat heq (by decide) (by simp only [BitVec.toNat_ofNat]; omega)
  have eq0 : field word 0 4 = k := field_ofNat heq (by decide) (by omega)
  have eq1 : field word 4 1 = h := field_ofNat heq (by decide) (by omega)
  have eq2 : field word 5 16 = 0x200#16 := field_ofNat heq (by decide) (by simp only [BitVec.toNat_ofNat]; omega)
  have eq3 : field word 21 5 = d := field_ofNat heq (by decide) (by omega)
  have ne0 : field word 0 16 ≠ 0x2010#16 := field_ne heq (by decide) (by simp only [BitVec.toNat_ofNat]; omega)
  have ne1 : field word 4 12 ≠ 0x0#12 := field_ne heq (by decide) (by simp only [BitVec.toNat_ofNat]; omega)
  have ne2 : field word 4 12 ≠ 0x100#12 := field_ne heq (by decide) (by simp only [BitVec.toNat_ofNat]; omega)
  have ne3 : field word 4 12 ≠ 0x300#12 := field_ne heq (by decide) (by simp only [BitVec.toNat_ofNat]; omega)
  have ne4 : field word 4 22 ≠ 0x200#22 := field_ne heq (by decide) (by simp only [BitVec.toNat_ofNat]; omega)
  exact decode_of (by rw [decodeFields_1C eqm]; simp [decodeMajor1C, eq0, eq1, eq2, eq3, ne0, ne1, ne2, ne3, ne4]) rfl

theorem Encoding.bpoison (c : BitVec 8) (k : BitVec 4) : Encoding.Statement (.bpoison c k) := by
  intro word hwf heq
  replace heq : BitVec.ofNat 32 (0x70005000 + c.toNat * 0x10 + k.toNat) = word := Option.some.inj heq
  have lt_c := c.isLt
  have lt_k := k.isLt
  have eqm : field word 26 6 = 0x1C#6 := field_ofNat heq (by decide) (by simp only [BitVec.toNat_ofNat]; omega)
  have eq0 : field word 0 4 = k := field_ofNat heq (by decide) (by omega)
  have eq1 : field word 4 8 = c := field_ofNat heq (by decide) (by omega)
  have eq2 : field word 12 14 = 0x5#14 := field_ofNat heq (by decide) (by simp only [BitVec.toNat_ofNat]; omega)
  have eq3 : field word 21 5 = 0x0#5 := field_ofNat heq (by decide) (by simp only [BitVec.toNat_ofNat]; omega)
  have ne0 : field word 0 16 ≠ 0x2010#16 := field_ne heq (by decide) (by simp only [BitVec.toNat_ofNat]; omega)
  have ne1 : field word 4 12 ≠ 0x0#12 := field_ne heq (by decide) (by simp only [BitVec.toNat_ofNat]; omega)
  have ne2 : field word 4 12 ≠ 0x100#12 := field_ne heq (by decide) (by simp only [BitVec.toNat_ofNat]; omega)
  have ne3 : field word 4 12 ≠ 0x300#12 := field_ne heq (by decide) (by simp only [BitVec.toNat_ofNat]; omega)
  have ne4 : field word 4 22 ≠ 0x200#22 := field_ne heq (by decide) (by simp only [BitVec.toNat_ofNat]; omega)
  have ne5 : field word 5 16 ≠ 0x200#16 := field_ne heq (by decide) (by simp only [BitVec.toNat_ofNat]; omega)
  exact decode_of (by rw [decodeFields_1C eqm]; simp [decodeMajor1C, eq0, eq1, eq2, eq3, ne0, ne1, ne2, ne3, ne4, ne5]) hwf

theorem Encoding.copy (d : BitVec 5) (a : BitVec 5) : Encoding.Statement (.copy d a) := by
  intro word _ heq
  replace heq : BitVec.ofNat 32 (0x74000000 + d.toNat * 0x200000 + a.toNat * 0x10000) = word := Option.some.inj heq
  have lt_d := d.isLt
  have lt_a := a.isLt
  have eqm : field word 26 6 = 0x1D#6 := field_ofNat heq (by decide) (by simp only [BitVec.toNat_ofNat]; omega)
  have eq0 : field word 0 16 = 0x0#16 := field_ofNat heq (by decide) (by simp only [BitVec.toNat_ofNat]; omega)
  have eq1 : field word 16 5 = a := field_ofNat heq (by decide) (by omega)
  have eq2 : field word 21 5 = d := field_ofNat heq (by decide) (by omega)
  exact decode_of (by rw [decodeFields_1D eqm]; simp [decodeMajor1D, eq0, eq1, eq2]) rfl

theorem Encoding.copyc (d : BitVec 5) (a : BitVec 5) : Encoding.Statement (.copyc d a) := by
  intro word _ heq
  replace heq : BitVec.ofNat 32 (0x74001000 + d.toNat * 0x200000 + a.toNat * 0x10000) = word := Option.some.inj heq
  have lt_d := d.isLt
  have lt_a := a.isLt
  have eqm : field word 26 6 = 0x1D#6 := field_ofNat heq (by decide) (by simp only [BitVec.toNat_ofNat]; omega)
  have eq0 : field word 0 16 = 0x1000#16 := field_ofNat heq (by decide) (by simp only [BitVec.toNat_ofNat]; omega)
  have eq1 : field word 16 5 = a := field_ofNat heq (by decide) (by omega)
  have eq2 : field word 21 5 = d := field_ofNat heq (by decide) (by omega)
  exact decode_of (by rw [decodeFields_1D eqm]; simp [decodeMajor1D, eq0, eq1, eq2]) rfl

theorem Encoding.copym (d : BitVec 5) (a : BitVec 5) : Encoding.Statement (.copym d a) := by
  intro word _ heq
  replace heq : BitVec.ofNat 32 (0x74002000 + d.toNat * 0x200000 + a.toNat * 0x10000) = word := Option.some.inj heq
  have lt_d := d.isLt
  have lt_a := a.isLt
  have eqm : field word 26 6 = 0x1D#6 := field_ofNat heq (by decide) (by simp only [BitVec.toNat_ofNat]; omega)
  have eq0 : field word 0 16 = 0x2000#16 := field_ofNat heq (by decide) (by simp only [BitVec.toNat_ofNat]; omega)
  have eq1 : field word 16 5 = a := field_ofNat heq (by decide) (by omega)
  have eq2 : field word 21 5 = d := field_ofNat heq (by decide) (by omega)
  exact decode_of (by rw [decodeFields_1D eqm]; simp [decodeMajor1D, eq0, eq1, eq2]) rfl

theorem Encoding.cwp (d : BitVec 5) (n : BitVec 2) : Encoding.Statement (.cwp d n) := by
  intro word _ heq
  replace heq : BitVec.ofNat 32 (0x74003000 + d.toNat * 0x200000 + n.toNat) = word := Option.some.inj heq
  have lt_d := d.isLt
  have lt_n := n.isLt
  have eqm : field word 26 6 = 0x1D#6 := field_ofNat heq (by decide) (by simp only [BitVec.toNat_ofNat]; omega)
  have eq0 : field word 0 2 = n := field_ofNat heq (by decide) (by omega)
  have eq1 : field word 2 19 = 0xC00#19 := field_ofNat heq (by decide) (by simp only [BitVec.toNat_ofNat]; omega)
  have eq2 : field word 21 5 = d := field_ofNat heq (by decide) (by omega)
  have ne0 : field word 0 16 ≠ 0x0#16 := field_ne heq (by decide) (by simp only [BitVec.toNat_ofNat]; omega)
  have ne1 : field word 0 16 ≠ 0x1000#16 := field_ne heq (by decide) (by simp only [BitVec.toNat_ofNat]; omega)
  have ne2 : field word 0 16 ≠ 0x2000#16 := field_ne heq (by decide) (by simp only [BitVec.toNat_ofNat]; omega)
  exact decode_of (by rw [decodeFields_1D eqm]; simp [decodeMajor1D, eq0, eq1, eq2, ne0, ne1, ne2]) rfl

theorem Encoding.cring (d : BitVec 5) (a : BitVec 5) : Encoding.Statement (.cring d a) := by
  intro word _ heq
  replace heq : BitVec.ofNat 32 (0x74004000 + d.toNat * 0x200000 + a.toNat * 0x10000) = word := Option.some.inj heq
  have lt_d := d.isLt
  have lt_a := a.isLt
  have eqm : field word 26 6 = 0x1D#6 := field_ofNat heq (by decide) (by simp only [BitVec.toNat_ofNat]; omega)
  have eq0 : field word 0 16 = 0x4000#16 := field_ofNat heq (by decide) (by simp only [BitVec.toNat_ofNat]; omega)
  have eq1 : field word 16 5 = a := field_ofNat heq (by decide) (by omega)
  have eq2 : field word 21 5 = d := field_ofNat heq (by decide) (by omega)
  have ne0 : field word 2 19 ≠ 0xC00#19 := field_ne heq (by decide) (by simp only [BitVec.toNat_ofNat]; omega)
  exact decode_of (by rw [decodeFields_1D eqm]; simp [decodeMajor1D, eq0, eq1, eq2, ne0]) rfl

theorem Encoding.vld (t : BitVec 5) (b : BitVec 5) (d : BitVec 13) : Encoding.Statement (.vld t b d) := by
  intro word _ heq
  replace heq : BitVec.ofNat 32 (0x78000000 + t.toNat * 0x200000 + b.toNat * 0x10000 + d.toNat * 0x8) = word := Option.some.inj heq
  have lt_t := t.isLt
  have lt_b := b.isLt
  have lt_d := d.isLt
  have eqm : field word 26 6 = 0x1E#6 := field_ofNat heq (by decide) (by simp only [BitVec.toNat_ofNat]; omega)
  have eq0 : field word 0 3 = 0x0#3 := field_ofNat heq (by decide) (by simp only [BitVec.toNat_ofNat]; omega)
  have eq1 : field word 3 13 = d := field_ofNat heq (by decide) (by omega)
  have eq2 : field word 16 5 = b := field_ofNat heq (by decide) (by omega)
  have eq3 : field word 21 5 = t := field_ofNat heq (by decide) (by omega)
  exact decode_of (by rw [decodeFields_1E eqm]; simp [decodeMajor1E, eq0, eq1, eq2, eq3]) rfl

theorem Encoding.vldH (t : BitVec 5) (b : BitVec 5) (d : BitVec 13) : Encoding.Statement (.vldH t b d) := by
  intro word _ heq
  replace heq : BitVec.ofNat 32 (0x78000001 + t.toNat * 0x200000 + b.toNat * 0x10000 + d.toNat * 0x8) = word := Option.some.inj heq
  have lt_t := t.isLt
  have lt_b := b.isLt
  have lt_d := d.isLt
  have eqm : field word 26 6 = 0x1E#6 := field_ofNat heq (by decide) (by simp only [BitVec.toNat_ofNat]; omega)
  have eq0 : field word 0 3 = 0x1#3 := field_ofNat heq (by decide) (by simp only [BitVec.toNat_ofNat]; omega)
  have eq1 : field word 3 13 = d := field_ofNat heq (by decide) (by omega)
  have eq2 : field word 16 5 = b := field_ofNat heq (by decide) (by omega)
  have eq3 : field word 21 5 = t := field_ofNat heq (by decide) (by omega)
  exact decode_of (by rw [decodeFields_1E eqm]; simp [decodeMajor1E, eq0, eq1, eq2, eq3]) rfl

theorem Encoding.vst (t : BitVec 5) (b : BitVec 5) (d : BitVec 13) : Encoding.Statement (.vst t b d) := by
  intro word _ heq
  replace heq : BitVec.ofNat 32 (0x78000002 + t.toNat * 0x200000 + b.toNat * 0x10000 + d.toNat * 0x8) = word := Option.some.inj heq
  have lt_t := t.isLt
  have lt_b := b.isLt
  have lt_d := d.isLt
  have eqm : field word 26 6 = 0x1E#6 := field_ofNat heq (by decide) (by simp only [BitVec.toNat_ofNat]; omega)
  have eq0 : field word 0 3 = 0x2#3 := field_ofNat heq (by decide) (by simp only [BitVec.toNat_ofNat]; omega)
  have eq1 : field word 3 13 = d := field_ofNat heq (by decide) (by omega)
  have eq2 : field word 16 5 = b := field_ofNat heq (by decide) (by omega)
  have eq3 : field word 21 5 = t := field_ofNat heq (by decide) (by omega)
  exact decode_of (by rw [decodeFields_1E eqm]; simp [decodeMajor1E, eq0, eq1, eq2, eq3]) rfl

theorem Encoding.vstH (t : BitVec 5) (b : BitVec 5) (d : BitVec 13) : Encoding.Statement (.vstH t b d) := by
  intro word _ heq
  replace heq : BitVec.ofNat 32 (0x78000003 + t.toNat * 0x200000 + b.toNat * 0x10000 + d.toNat * 0x8) = word := Option.some.inj heq
  have lt_t := t.isLt
  have lt_b := b.isLt
  have lt_d := d.isLt
  have eqm : field word 26 6 = 0x1E#6 := field_ofNat heq (by decide) (by simp only [BitVec.toNat_ofNat]; omega)
  have eq0 : field word 0 3 = 0x3#3 := field_ofNat heq (by decide) (by simp only [BitVec.toNat_ofNat]; omega)
  have eq1 : field word 3 13 = d := field_ofNat heq (by decide) (by omega)
  have eq2 : field word 16 5 = b := field_ofNat heq (by decide) (by omega)
  have eq3 : field word 21 5 = t := field_ofNat heq (by decide) (by omega)
  exact decode_of (by rw [decodeFields_1E eqm]; simp [decodeMajor1E, eq0, eq1, eq2, eq3]) rfl

theorem Encoding.vlds (t : BitVec 5) (b : BitVec 5) (s : BitVec 5) (w : BitVec 2) : Encoding.Statement (.vlds t b s w) := by
  intro word _ heq
  replace heq : BitVec.ofNat 32 (0x78000004 + t.toNat * 0x200000 + b.toNat * 0x10000 + s.toNat * 0x800 + w.toNat * 0x200) = word := Option.some.inj heq
  have lt_t := t.isLt
  have lt_b := b.isLt
  have lt_s := s.isLt
  have lt_w := w.isLt
  have eqm : field word 26 6 = 0x1E#6 := field_ofNat heq (by decide) (by simp only [BitVec.toNat_ofNat]; omega)
  have eq0 : field word 0 3 = 0x4#3 := field_ofNat heq (by decide) (by simp only [BitVec.toNat_ofNat]; omega)
  have eq1 : field word 0 9 = 0x4#9 := field_ofNat heq (by decide) (by simp only [BitVec.toNat_ofNat]; omega)
  have eq2 : field word 9 2 = w := field_ofNat heq (by decide) (by omega)
  have eq3 : field word 11 5 = s := field_ofNat heq (by decide) (by omega)
  have eq4 : field word 16 5 = b := field_ofNat heq (by decide) (by omega)
  have eq5 : field word 21 5 = t := field_ofNat heq (by decide) (by omega)
  exact decode_of (by rw [decodeFields_1E eqm]; simp [decodeMajor1E, eq0, eq1, eq2, eq3, eq4, eq5]) rfl

theorem Encoding.vsts (t : BitVec 5) (b : BitVec 5) (s : BitVec 5) (w : BitVec 2) : Encoding.Statement (.vsts t b s w) := by
  intro word _ heq
  replace heq : BitVec.ofNat 32 (0x78000005 + t.toNat * 0x200000 + b.toNat * 0x10000 + s.toNat * 0x800 + w.toNat * 0x200) = word := Option.some.inj heq
  have lt_t := t.isLt
  have lt_b := b.isLt
  have lt_s := s.isLt
  have lt_w := w.isLt
  have eqm : field word 26 6 = 0x1E#6 := field_ofNat heq (by decide) (by simp only [BitVec.toNat_ofNat]; omega)
  have eq0 : field word 0 3 = 0x5#3 := field_ofNat heq (by decide) (by simp only [BitVec.toNat_ofNat]; omega)
  have eq1 : field word 0 9 = 0x5#9 := field_ofNat heq (by decide) (by simp only [BitVec.toNat_ofNat]; omega)
  have eq2 : field word 9 2 = w := field_ofNat heq (by decide) (by omega)
  have eq3 : field word 11 5 = s := field_ofNat heq (by decide) (by omega)
  have eq4 : field word 16 5 = b := field_ofNat heq (by decide) (by omega)
  have eq5 : field word 21 5 = t := field_ofNat heq (by decide) (by omega)
  exact decode_of (by rw [decodeFields_1E eqm]; simp [decodeMajor1E, eq0, eq1, eq2, eq3, eq4, eq5]) rfl

theorem Encoding.vgath (d : BitVec 5) (a : BitVec 5) (b : BitVec 5) (k : BitVec 3) (t : BitVec 2) : Encoding.Statement (.vgath d a b k t) := by
  intro word _ heq
  replace heq : BitVec.ofNat 32 (0x7C000000 + d.toNat * 0x200000 + a.toNat * 0x10000 + b.toNat * 0x800 + k.toNat * 0x100 + t.toNat) = word := Option.some.inj heq
  have lt_d := d.isLt
  have lt_a := a.isLt
  have lt_b := b.isLt
  have lt_k := k.isLt
  have lt_t := t.isLt
  have eqm : field word 26 6 = 0x1F#6 := field_ofNat heq (by decide) (by simp only [BitVec.toNat_ofNat]; omega)
  have eq0 : field word 0 2 = t := field_ofNat heq (by decide) (by omega)
  have eq1 : field word 2 6 = 0x0#6 := field_ofNat heq (by decide) (by simp only [BitVec.toNat_ofNat]; omega)
  have eq2 : field word 8 3 = k := field_ofNat heq (by decide) (by omega)
  have eq3 : field word 11 5 = b := field_ofNat heq (by decide) (by omega)
  have eq4 : field word 16 5 = a := field_ofNat heq (by decide) (by omega)
  have eq5 : field word 21 5 = d := field_ofNat heq (by decide) (by omega)
  exact decode_of (by rw [decodeFields_1F eqm]; simp [decodeMajor1F, eq0, eq1, eq2, eq3, eq4, eq5]) rfl

theorem Encoding.vscat (d : BitVec 5) (a : BitVec 5) (b : BitVec 5) (k : BitVec 3) (t : BitVec 2) : Encoding.Statement (.vscat d a b k t) := by
  intro word _ heq
  replace heq : BitVec.ofNat 32 (0x7C000004 + d.toNat * 0x200000 + a.toNat * 0x10000 + b.toNat * 0x800 + k.toNat * 0x100 + t.toNat) = word := Option.some.inj heq
  have lt_d := d.isLt
  have lt_a := a.isLt
  have lt_b := b.isLt
  have lt_k := k.isLt
  have lt_t := t.isLt
  have eqm : field word 26 6 = 0x1F#6 := field_ofNat heq (by decide) (by simp only [BitVec.toNat_ofNat]; omega)
  have eq0 : field word 0 2 = t := field_ofNat heq (by decide) (by omega)
  have eq1 : field word 2 6 = 0x1#6 := field_ofNat heq (by decide) (by simp only [BitVec.toNat_ofNat]; omega)
  have eq2 : field word 8 3 = k := field_ofNat heq (by decide) (by omega)
  have eq3 : field word 11 5 = b := field_ofNat heq (by decide) (by omega)
  have eq4 : field word 16 5 = a := field_ofNat heq (by decide) (by omega)
  have eq5 : field word 21 5 = d := field_ofNat heq (by decide) (by omega)
  exact decode_of (by rw [decodeFields_1F eqm]; simp [decodeMajor1F, eq0, eq1, eq2, eq3, eq4, eq5]) rfl

theorem Encoding.vbcast (d : BitVec 5) (a : BitVec 5) (k : BitVec 3) (t : BitVec 2) : Encoding.Statement (.vbcast d a k t) := by
  intro word _ heq
  replace heq : BitVec.ofNat 32 (0x7C000008 + d.toNat * 0x200000 + a.toNat * 0x10000 + k.toNat * 0x100 + t.toNat) = word := Option.some.inj heq
  have lt_d := d.isLt
  have lt_a := a.isLt
  have lt_k := k.isLt
  have lt_t := t.isLt
  have eqm : field word 26 6 = 0x1F#6 := field_ofNat heq (by decide) (by simp only [BitVec.toNat_ofNat]; omega)
  have eq0 : field word 0 2 = t := field_ofNat heq (by decide) (by omega)
  have eq1 : field word 2 6 = 0x2#6 := field_ofNat heq (by decide) (by simp only [BitVec.toNat_ofNat]; omega)
  have eq2 : field word 8 3 = k := field_ofNat heq (by decide) (by omega)
  have eq3 : field word 11 5 = 0x0#5 := field_ofNat heq (by decide) (by simp only [BitVec.toNat_ofNat]; omega)
  have eq4 : field word 16 5 = a := field_ofNat heq (by decide) (by omega)
  have eq5 : field word 21 5 = d := field_ofNat heq (by decide) (by omega)
  exact decode_of (by rw [decodeFields_1F eqm]; simp [decodeMajor1F, eq0, eq1, eq2, eq3, eq4, eq5]) rfl

theorem Encoding.vins (d : BitVec 5) (a : BitVec 5) (b : BitVec 5) (t : BitVec 2) : Encoding.Statement (.vins d a b t) := by
  intro word _ heq
  replace heq : BitVec.ofNat 32 (0x7C00000C + d.toNat * 0x200000 + a.toNat * 0x10000 + b.toNat * 0x800 + t.toNat) = word := Option.some.inj heq
  have lt_d := d.isLt
  have lt_a := a.isLt
  have lt_b := b.isLt
  have lt_t := t.isLt
  have eqm : field word 26 6 = 0x1F#6 := field_ofNat heq (by decide) (by simp only [BitVec.toNat_ofNat]; omega)
  have eq0 : field word 0 2 = t := field_ofNat heq (by decide) (by omega)
  have eq1 : field word 2 6 = 0x3#6 := field_ofNat heq (by decide) (by simp only [BitVec.toNat_ofNat]; omega)
  have eq2 : field word 2 9 = 0x3#9 := field_ofNat heq (by decide) (by simp only [BitVec.toNat_ofNat]; omega)
  have eq3 : field word 11 5 = b := field_ofNat heq (by decide) (by omega)
  have eq4 : field word 16 5 = a := field_ofNat heq (by decide) (by omega)
  have eq5 : field word 21 5 = d := field_ofNat heq (by decide) (by omega)
  exact decode_of (by rw [decodeFields_1F eqm]; simp [decodeMajor1F, eq0, eq1, eq2, eq3, eq4, eq5]) rfl

theorem Encoding.vext (d : BitVec 5) (a : BitVec 5) (b : BitVec 5) (u : BitVec 1) (t : BitVec 2) : Encoding.Statement (.vext d a b u t) := by
  intro word _ heq
  replace heq : BitVec.ofNat 32 (0x7C000010 + d.toNat * 0x200000 + a.toNat * 0x10000 + b.toNat * 0x800 + u.toNat * 0x80 + t.toNat) = word := Option.some.inj heq
  have lt_d := d.isLt
  have lt_a := a.isLt
  have lt_b := b.isLt
  have lt_u := u.isLt
  have lt_t := t.isLt
  have eqm : field word 26 6 = 0x1F#6 := field_ofNat heq (by decide) (by simp only [BitVec.toNat_ofNat]; omega)
  have eq0 : field word 0 2 = t := field_ofNat heq (by decide) (by omega)
  have eq1 : field word 2 5 = 0x4#5 := field_ofNat heq (by decide) (by simp only [BitVec.toNat_ofNat]; omega)
  have eq2 : field word 7 1 = u := field_ofNat heq (by decide) (by omega)
  have eq3 : field word 8 3 = 0x0#3 := field_ofNat heq (by decide) (by simp only [BitVec.toNat_ofNat]; omega)
  have eq4 : field word 11 5 = b := field_ofNat heq (by decide) (by omega)
  have eq5 : field word 16 5 = a := field_ofNat heq (by decide) (by omega)
  have eq6 : field word 21 5 = d := field_ofNat heq (by decide) (by omega)
  have ne0 : field word 2 6 ≠ 0x0#6 := field_ne heq (by decide) (by simp only [BitVec.toNat_ofNat]; omega)
  have ne1 : field word 2 6 ≠ 0x1#6 := field_ne heq (by decide) (by simp only [BitVec.toNat_ofNat]; omega)
  have ne2 : field word 2 6 ≠ 0x2#6 := field_ne heq (by decide) (by simp only [BitVec.toNat_ofNat]; omega)
  have ne3 : field word 2 9 ≠ 0x3#9 := field_ne heq (by decide) (by simp only [BitVec.toNat_ofNat]; omega)
  exact decode_of (by rw [decodeFields_1F eqm]; simp [decodeMajor1F, eq0, eq1, eq2, eq3, eq4, eq5, eq6, ne0, ne1, ne2, ne3]) rfl

theorem Encoding.vadd (d : BitVec 5) (a : BitVec 5) (b : BitVec 5) (k : BitVec 3) (t : BitVec 2) : Encoding.Statement (.vadd d a b k t) := by
  intro word hwf heq
  replace heq : BitVec.ofNat 32 (0x80000000 + d.toNat * 0x200000 + a.toNat * 0x10000 + b.toNat * 0x800 + k.toNat * 0x100 + t.toNat) = word := Option.some.inj heq
  have lt_d := d.isLt
  have lt_a := a.isLt
  have lt_b := b.isLt
  have lt_k := k.isLt
  have lt_t := t.isLt
  have eqm : field word 26 6 = 0x20#6 := field_ofNat heq (by decide) (by simp only [BitVec.toNat_ofNat]; omega)
  have eq0 : field word 0 2 = t := field_ofNat heq (by decide) (by omega)
  have eq1 : field word 2 6 = 0x0#6 := field_ofNat heq (by decide) (by simp only [BitVec.toNat_ofNat]; omega)
  have eq2 : field word 8 3 = k := field_ofNat heq (by decide) (by omega)
  have eq3 : field word 11 5 = b := field_ofNat heq (by decide) (by omega)
  have eq4 : field word 16 5 = a := field_ofNat heq (by decide) (by omega)
  have eq5 : field word 21 5 = d := field_ofNat heq (by decide) (by omega)
  exact decode_of (by rw [decodeFields_20 eqm]; simp [decodeMajor20, eq0, eq1, eq2, eq3, eq4, eq5]) hwf

theorem Encoding.vsub (d : BitVec 5) (a : BitVec 5) (b : BitVec 5) (k : BitVec 3) (t : BitVec 2) : Encoding.Statement (.vsub d a b k t) := by
  intro word hwf heq
  replace heq : BitVec.ofNat 32 (0x80000004 + d.toNat * 0x200000 + a.toNat * 0x10000 + b.toNat * 0x800 + k.toNat * 0x100 + t.toNat) = word := Option.some.inj heq
  have lt_d := d.isLt
  have lt_a := a.isLt
  have lt_b := b.isLt
  have lt_k := k.isLt
  have lt_t := t.isLt
  have eqm : field word 26 6 = 0x20#6 := field_ofNat heq (by decide) (by simp only [BitVec.toNat_ofNat]; omega)
  have eq0 : field word 0 2 = t := field_ofNat heq (by decide) (by omega)
  have eq1 : field word 2 6 = 0x1#6 := field_ofNat heq (by decide) (by simp only [BitVec.toNat_ofNat]; omega)
  have eq2 : field word 8 3 = k := field_ofNat heq (by decide) (by omega)
  have eq3 : field word 11 5 = b := field_ofNat heq (by decide) (by omega)
  have eq4 : field word 16 5 = a := field_ofNat heq (by decide) (by omega)
  have eq5 : field word 21 5 = d := field_ofNat heq (by decide) (by omega)
  exact decode_of (by rw [decodeFields_20 eqm]; simp [decodeMajor20, eq0, eq1, eq2, eq3, eq4, eq5]) hwf

theorem Encoding.vmul (d : BitVec 5) (a : BitVec 5) (b : BitVec 5) (k : BitVec 3) (t : BitVec 2) : Encoding.Statement (.vmul d a b k t) := by
  intro word hwf heq
  replace heq : BitVec.ofNat 32 (0x80000008 + d.toNat * 0x200000 + a.toNat * 0x10000 + b.toNat * 0x800 + k.toNat * 0x100 + t.toNat) = word := Option.some.inj heq
  have lt_d := d.isLt
  have lt_a := a.isLt
  have lt_b := b.isLt
  have lt_k := k.isLt
  have lt_t := t.isLt
  have eqm : field word 26 6 = 0x20#6 := field_ofNat heq (by decide) (by simp only [BitVec.toNat_ofNat]; omega)
  have eq0 : field word 0 2 = t := field_ofNat heq (by decide) (by omega)
  have eq1 : field word 2 6 = 0x2#6 := field_ofNat heq (by decide) (by simp only [BitVec.toNat_ofNat]; omega)
  have eq2 : field word 8 3 = k := field_ofNat heq (by decide) (by omega)
  have eq3 : field word 11 5 = b := field_ofNat heq (by decide) (by omega)
  have eq4 : field word 16 5 = a := field_ofNat heq (by decide) (by omega)
  have eq5 : field word 21 5 = d := field_ofNat heq (by decide) (by omega)
  exact decode_of (by rw [decodeFields_20 eqm]; simp [decodeMajor20, eq0, eq1, eq2, eq3, eq4, eq5]) hwf

theorem Encoding.vmin (d : BitVec 5) (a : BitVec 5) (b : BitVec 5) (k : BitVec 3) (t : BitVec 2) : Encoding.Statement (.vmin d a b k t) := by
  intro word hwf heq
  replace heq : BitVec.ofNat 32 (0x8000000C + d.toNat * 0x200000 + a.toNat * 0x10000 + b.toNat * 0x800 + k.toNat * 0x100 + t.toNat) = word := Option.some.inj heq
  have lt_d := d.isLt
  have lt_a := a.isLt
  have lt_b := b.isLt
  have lt_k := k.isLt
  have lt_t := t.isLt
  have eqm : field word 26 6 = 0x20#6 := field_ofNat heq (by decide) (by simp only [BitVec.toNat_ofNat]; omega)
  have eq0 : field word 0 2 = t := field_ofNat heq (by decide) (by omega)
  have eq1 : field word 2 6 = 0x3#6 := field_ofNat heq (by decide) (by simp only [BitVec.toNat_ofNat]; omega)
  have eq2 : field word 8 3 = k := field_ofNat heq (by decide) (by omega)
  have eq3 : field word 11 5 = b := field_ofNat heq (by decide) (by omega)
  have eq4 : field word 16 5 = a := field_ofNat heq (by decide) (by omega)
  have eq5 : field word 21 5 = d := field_ofNat heq (by decide) (by omega)
  exact decode_of (by rw [decodeFields_20 eqm]; simp [decodeMajor20, eq0, eq1, eq2, eq3, eq4, eq5]) hwf

theorem Encoding.vmax (d : BitVec 5) (a : BitVec 5) (b : BitVec 5) (k : BitVec 3) (t : BitVec 2) : Encoding.Statement (.vmax d a b k t) := by
  intro word hwf heq
  replace heq : BitVec.ofNat 32 (0x80000010 + d.toNat * 0x200000 + a.toNat * 0x10000 + b.toNat * 0x800 + k.toNat * 0x100 + t.toNat) = word := Option.some.inj heq
  have lt_d := d.isLt
  have lt_a := a.isLt
  have lt_b := b.isLt
  have lt_k := k.isLt
  have lt_t := t.isLt
  have eqm : field word 26 6 = 0x20#6 := field_ofNat heq (by decide) (by simp only [BitVec.toNat_ofNat]; omega)
  have eq0 : field word 0 2 = t := field_ofNat heq (by decide) (by omega)
  have eq1 : field word 2 6 = 0x4#6 := field_ofNat heq (by decide) (by simp only [BitVec.toNat_ofNat]; omega)
  have eq2 : field word 8 3 = k := field_ofNat heq (by decide) (by omega)
  have eq3 : field word 11 5 = b := field_ofNat heq (by decide) (by omega)
  have eq4 : field word 16 5 = a := field_ofNat heq (by decide) (by omega)
  have eq5 : field word 21 5 = d := field_ofNat heq (by decide) (by omega)
  exact decode_of (by rw [decodeFields_20 eqm]; simp [decodeMajor20, eq0, eq1, eq2, eq3, eq4, eq5]) hwf

theorem Encoding.vdiv (d : BitVec 5) (a : BitVec 5) (b : BitVec 5) (k : BitVec 3) (t : BitVec 2) : Encoding.Statement (.vdiv d a b k t) := by
  intro word hwf heq
  replace heq : BitVec.ofNat 32 (0x80000014 + d.toNat * 0x200000 + a.toNat * 0x10000 + b.toNat * 0x800 + k.toNat * 0x100 + t.toNat) = word := Option.some.inj heq
  have lt_d := d.isLt
  have lt_a := a.isLt
  have lt_b := b.isLt
  have lt_k := k.isLt
  have lt_t := t.isLt
  have eqm : field word 26 6 = 0x20#6 := field_ofNat heq (by decide) (by simp only [BitVec.toNat_ofNat]; omega)
  have eq0 : field word 0 2 = t := field_ofNat heq (by decide) (by omega)
  have eq1 : field word 2 6 = 0x5#6 := field_ofNat heq (by decide) (by simp only [BitVec.toNat_ofNat]; omega)
  have eq2 : field word 8 3 = k := field_ofNat heq (by decide) (by omega)
  have eq3 : field word 11 5 = b := field_ofNat heq (by decide) (by omega)
  have eq4 : field word 16 5 = a := field_ofNat heq (by decide) (by omega)
  have eq5 : field word 21 5 = d := field_ofNat heq (by decide) (by omega)
  exact decode_of (by rw [decodeFields_20 eqm]; simp [decodeMajor20, eq0, eq1, eq2, eq3, eq4, eq5]) hwf

theorem Encoding.vfma (d : BitVec 5) (a : BitVec 5) (b : BitVec 5) (k : BitVec 3) (t : BitVec 2) : Encoding.Statement (.vfma d a b k t) := by
  intro word hwf heq
  replace heq : BitVec.ofNat 32 (0x84000000 + d.toNat * 0x200000 + a.toNat * 0x10000 + b.toNat * 0x800 + k.toNat * 0x100 + t.toNat) = word := Option.some.inj heq
  have lt_d := d.isLt
  have lt_a := a.isLt
  have lt_b := b.isLt
  have lt_k := k.isLt
  have lt_t := t.isLt
  have eqm : field word 26 6 = 0x21#6 := field_ofNat heq (by decide) (by simp only [BitVec.toNat_ofNat]; omega)
  have eq0 : field word 0 2 = t := field_ofNat heq (by decide) (by omega)
  have eq1 : field word 2 6 = 0x0#6 := field_ofNat heq (by decide) (by simp only [BitVec.toNat_ofNat]; omega)
  have eq2 : field word 8 3 = k := field_ofNat heq (by decide) (by omega)
  have eq3 : field word 11 5 = b := field_ofNat heq (by decide) (by omega)
  have eq4 : field word 16 5 = a := field_ofNat heq (by decide) (by omega)
  have eq5 : field word 21 5 = d := field_ofNat heq (by decide) (by omega)
  exact decode_of (by rw [decodeFields_21 eqm]; simp [decodeMajor21, eq0, eq1, eq2, eq3, eq4, eq5]) hwf

theorem Encoding.vfms (d : BitVec 5) (a : BitVec 5) (b : BitVec 5) (k : BitVec 3) (t : BitVec 2) : Encoding.Statement (.vfms d a b k t) := by
  intro word hwf heq
  replace heq : BitVec.ofNat 32 (0x84000004 + d.toNat * 0x200000 + a.toNat * 0x10000 + b.toNat * 0x800 + k.toNat * 0x100 + t.toNat) = word := Option.some.inj heq
  have lt_d := d.isLt
  have lt_a := a.isLt
  have lt_b := b.isLt
  have lt_k := k.isLt
  have lt_t := t.isLt
  have eqm : field word 26 6 = 0x21#6 := field_ofNat heq (by decide) (by simp only [BitVec.toNat_ofNat]; omega)
  have eq0 : field word 0 2 = t := field_ofNat heq (by decide) (by omega)
  have eq1 : field word 2 6 = 0x1#6 := field_ofNat heq (by decide) (by simp only [BitVec.toNat_ofNat]; omega)
  have eq2 : field word 8 3 = k := field_ofNat heq (by decide) (by omega)
  have eq3 : field word 11 5 = b := field_ofNat heq (by decide) (by omega)
  have eq4 : field word 16 5 = a := field_ofNat heq (by decide) (by omega)
  have eq5 : field word 21 5 = d := field_ofNat heq (by decide) (by omega)
  exact decode_of (by rw [decodeFields_21 eqm]; simp [decodeMajor21, eq0, eq1, eq2, eq3, eq4, eq5]) hwf

theorem Encoding.vnfma (d : BitVec 5) (a : BitVec 5) (b : BitVec 5) (k : BitVec 3) (t : BitVec 2) : Encoding.Statement (.vnfma d a b k t) := by
  intro word hwf heq
  replace heq : BitVec.ofNat 32 (0x84000008 + d.toNat * 0x200000 + a.toNat * 0x10000 + b.toNat * 0x800 + k.toNat * 0x100 + t.toNat) = word := Option.some.inj heq
  have lt_d := d.isLt
  have lt_a := a.isLt
  have lt_b := b.isLt
  have lt_k := k.isLt
  have lt_t := t.isLt
  have eqm : field word 26 6 = 0x21#6 := field_ofNat heq (by decide) (by simp only [BitVec.toNat_ofNat]; omega)
  have eq0 : field word 0 2 = t := field_ofNat heq (by decide) (by omega)
  have eq1 : field word 2 6 = 0x2#6 := field_ofNat heq (by decide) (by simp only [BitVec.toNat_ofNat]; omega)
  have eq2 : field word 8 3 = k := field_ofNat heq (by decide) (by omega)
  have eq3 : field word 11 5 = b := field_ofNat heq (by decide) (by omega)
  have eq4 : field word 16 5 = a := field_ofNat heq (by decide) (by omega)
  have eq5 : field word 21 5 = d := field_ofNat heq (by decide) (by omega)
  exact decode_of (by rw [decodeFields_21 eqm]; simp [decodeMajor21, eq0, eq1, eq2, eq3, eq4, eq5]) hwf

theorem Encoding.vabs (d : BitVec 5) (a : BitVec 5) (k : BitVec 3) (t : BitVec 2) : Encoding.Statement (.vabs d a k t) := by
  intro word hwf heq
  replace heq : BitVec.ofNat 32 (0x88000000 + d.toNat * 0x200000 + a.toNat * 0x10000 + k.toNat * 0x100 + t.toNat) = word := Option.some.inj heq
  have lt_d := d.isLt
  have lt_a := a.isLt
  have lt_k := k.isLt
  have lt_t := t.isLt
  have eqm : field word 26 6 = 0x22#6 := field_ofNat heq (by decide) (by simp only [BitVec.toNat_ofNat]; omega)
  have eq0 : field word 0 2 = t := field_ofNat heq (by decide) (by omega)
  have eq1 : field word 2 6 = 0x0#6 := field_ofNat heq (by decide) (by simp only [BitVec.toNat_ofNat]; omega)
  have eq2 : field word 8 3 = k := field_ofNat heq (by decide) (by omega)
  have eq3 : field word 11 5 = 0x0#5 := field_ofNat heq (by decide) (by simp only [BitVec.toNat_ofNat]; omega)
  have eq4 : field word 16 5 = a := field_ofNat heq (by decide) (by omega)
  have eq5 : field word 21 5 = d := field_ofNat heq (by decide) (by omega)
  exact decode_of (by rw [decodeFields_22 eqm]; simp [decodeMajor22, eq0, eq1, eq2, eq3, eq4, eq5]) hwf

theorem Encoding.vneg (d : BitVec 5) (a : BitVec 5) (k : BitVec 3) (t : BitVec 2) : Encoding.Statement (.vneg d a k t) := by
  intro word hwf heq
  replace heq : BitVec.ofNat 32 (0x88000004 + d.toNat * 0x200000 + a.toNat * 0x10000 + k.toNat * 0x100 + t.toNat) = word := Option.some.inj heq
  have lt_d := d.isLt
  have lt_a := a.isLt
  have lt_k := k.isLt
  have lt_t := t.isLt
  have eqm : field word 26 6 = 0x22#6 := field_ofNat heq (by decide) (by simp only [BitVec.toNat_ofNat]; omega)
  have eq0 : field word 0 2 = t := field_ofNat heq (by decide) (by omega)
  have eq1 : field word 2 6 = 0x1#6 := field_ofNat heq (by decide) (by simp only [BitVec.toNat_ofNat]; omega)
  have eq2 : field word 8 3 = k := field_ofNat heq (by decide) (by omega)
  have eq3 : field word 11 5 = 0x0#5 := field_ofNat heq (by decide) (by simp only [BitVec.toNat_ofNat]; omega)
  have eq4 : field word 16 5 = a := field_ofNat heq (by decide) (by omega)
  have eq5 : field word 21 5 = d := field_ofNat heq (by decide) (by omega)
  exact decode_of (by rw [decodeFields_22 eqm]; simp [decodeMajor22, eq0, eq1, eq2, eq3, eq4, eq5]) hwf

theorem Encoding.vsqrt (d : BitVec 5) (a : BitVec 5) (k : BitVec 3) (t : BitVec 2) : Encoding.Statement (.vsqrt d a k t) := by
  intro word hwf heq
  replace heq : BitVec.ofNat 32 (0x88000008 + d.toNat * 0x200000 + a.toNat * 0x10000 + k.toNat * 0x100 + t.toNat) = word := Option.some.inj heq
  have lt_d := d.isLt
  have lt_a := a.isLt
  have lt_k := k.isLt
  have lt_t := t.isLt
  have eqm : field word 26 6 = 0x22#6 := field_ofNat heq (by decide) (by simp only [BitVec.toNat_ofNat]; omega)
  have eq0 : field word 0 2 = t := field_ofNat heq (by decide) (by omega)
  have eq1 : field word 2 6 = 0x2#6 := field_ofNat heq (by decide) (by simp only [BitVec.toNat_ofNat]; omega)
  have eq2 : field word 8 3 = k := field_ofNat heq (by decide) (by omega)
  have eq3 : field word 11 5 = 0x0#5 := field_ofNat heq (by decide) (by simp only [BitVec.toNat_ofNat]; omega)
  have eq4 : field word 16 5 = a := field_ofNat heq (by decide) (by omega)
  have eq5 : field word 21 5 = d := field_ofNat heq (by decide) (by omega)
  exact decode_of (by rw [decodeFields_22 eqm]; simp [decodeMajor22, eq0, eq1, eq2, eq3, eq4, eq5]) hwf

theorem Encoding.vrcp (d : BitVec 5) (a : BitVec 5) (k : BitVec 3) (t : BitVec 2) : Encoding.Statement (.vrcp d a k t) := by
  intro word hwf heq
  replace heq : BitVec.ofNat 32 (0x8800000C + d.toNat * 0x200000 + a.toNat * 0x10000 + k.toNat * 0x100 + t.toNat) = word := Option.some.inj heq
  have lt_d := d.isLt
  have lt_a := a.isLt
  have lt_k := k.isLt
  have lt_t := t.isLt
  have eqm : field word 26 6 = 0x22#6 := field_ofNat heq (by decide) (by simp only [BitVec.toNat_ofNat]; omega)
  have eq0 : field word 0 2 = t := field_ofNat heq (by decide) (by omega)
  have eq1 : field word 2 6 = 0x3#6 := field_ofNat heq (by decide) (by simp only [BitVec.toNat_ofNat]; omega)
  have eq2 : field word 8 3 = k := field_ofNat heq (by decide) (by omega)
  have eq3 : field word 11 5 = 0x0#5 := field_ofNat heq (by decide) (by simp only [BitVec.toNat_ofNat]; omega)
  have eq4 : field word 16 5 = a := field_ofNat heq (by decide) (by omega)
  have eq5 : field word 21 5 = d := field_ofNat heq (by decide) (by omega)
  exact decode_of (by rw [decodeFields_22 eqm]; simp [decodeMajor22, eq0, eq1, eq2, eq3, eq4, eq5]) hwf

theorem Encoding.vrsq (d : BitVec 5) (a : BitVec 5) (k : BitVec 3) (t : BitVec 2) : Encoding.Statement (.vrsq d a k t) := by
  intro word hwf heq
  replace heq : BitVec.ofNat 32 (0x88000010 + d.toNat * 0x200000 + a.toNat * 0x10000 + k.toNat * 0x100 + t.toNat) = word := Option.some.inj heq
  have lt_d := d.isLt
  have lt_a := a.isLt
  have lt_k := k.isLt
  have lt_t := t.isLt
  have eqm : field word 26 6 = 0x22#6 := field_ofNat heq (by decide) (by simp only [BitVec.toNat_ofNat]; omega)
  have eq0 : field word 0 2 = t := field_ofNat heq (by decide) (by omega)
  have eq1 : field word 2 6 = 0x4#6 := field_ofNat heq (by decide) (by simp only [BitVec.toNat_ofNat]; omega)
  have eq2 : field word 8 3 = k := field_ofNat heq (by decide) (by omega)
  have eq3 : field word 11 5 = 0x0#5 := field_ofNat heq (by decide) (by simp only [BitVec.toNat_ofNat]; omega)
  have eq4 : field word 16 5 = a := field_ofNat heq (by decide) (by omega)
  have eq5 : field word 21 5 = d := field_ofNat heq (by decide) (by omega)
  exact decode_of (by rw [decodeFields_22 eqm]; simp [decodeMajor22, eq0, eq1, eq2, eq3, eq4, eq5]) hwf

theorem Encoding.vexp2 (d : BitVec 5) (a : BitVec 5) (k : BitVec 3) (t : BitVec 2) : Encoding.Statement (.vexp2 d a k t) := by
  intro word hwf heq
  replace heq : BitVec.ofNat 32 (0x88000014 + d.toNat * 0x200000 + a.toNat * 0x10000 + k.toNat * 0x100 + t.toNat) = word := Option.some.inj heq
  have lt_d := d.isLt
  have lt_a := a.isLt
  have lt_k := k.isLt
  have lt_t := t.isLt
  have eqm : field word 26 6 = 0x22#6 := field_ofNat heq (by decide) (by simp only [BitVec.toNat_ofNat]; omega)
  have eq0 : field word 0 2 = t := field_ofNat heq (by decide) (by omega)
  have eq1 : field word 2 6 = 0x5#6 := field_ofNat heq (by decide) (by simp only [BitVec.toNat_ofNat]; omega)
  have eq2 : field word 8 3 = k := field_ofNat heq (by decide) (by omega)
  have eq3 : field word 11 5 = 0x0#5 := field_ofNat heq (by decide) (by simp only [BitVec.toNat_ofNat]; omega)
  have eq4 : field word 16 5 = a := field_ofNat heq (by decide) (by omega)
  have eq5 : field word 21 5 = d := field_ofNat heq (by decide) (by omega)
  exact decode_of (by rw [decodeFields_22 eqm]; simp [decodeMajor22, eq0, eq1, eq2, eq3, eq4, eq5]) hwf

theorem Encoding.vlog2 (d : BitVec 5) (a : BitVec 5) (k : BitVec 3) (t : BitVec 2) : Encoding.Statement (.vlog2 d a k t) := by
  intro word hwf heq
  replace heq : BitVec.ofNat 32 (0x88000018 + d.toNat * 0x200000 + a.toNat * 0x10000 + k.toNat * 0x100 + t.toNat) = word := Option.some.inj heq
  have lt_d := d.isLt
  have lt_a := a.isLt
  have lt_k := k.isLt
  have lt_t := t.isLt
  have eqm : field word 26 6 = 0x22#6 := field_ofNat heq (by decide) (by simp only [BitVec.toNat_ofNat]; omega)
  have eq0 : field word 0 2 = t := field_ofNat heq (by decide) (by omega)
  have eq1 : field word 2 6 = 0x6#6 := field_ofNat heq (by decide) (by simp only [BitVec.toNat_ofNat]; omega)
  have eq2 : field word 8 3 = k := field_ofNat heq (by decide) (by omega)
  have eq3 : field word 11 5 = 0x0#5 := field_ofNat heq (by decide) (by simp only [BitVec.toNat_ofNat]; omega)
  have eq4 : field word 16 5 = a := field_ofNat heq (by decide) (by omega)
  have eq5 : field word 21 5 = d := field_ofNat heq (by decide) (by omega)
  exact decode_of (by rw [decodeFields_22 eqm]; simp [decodeMajor22, eq0, eq1, eq2, eq3, eq4, eq5]) hwf

theorem Encoding.vcmp (d : BitVec 5) (a : BitVec 5) (b : BitVec 5) (k : BitVec 3) (c : BitVec 3) (t : BitVec 2) : Encoding.Statement (.vcmp d a b k c t) := by
  intro word hwf heq
  replace heq : BitVec.ofNat 32 (0x8C000000 + d.toNat * 0x200000 + a.toNat * 0x10000 + b.toNat * 0x800 + k.toNat * 0x100 + c.toNat * 0x4 + t.toNat) = word := Option.some.inj heq
  have lt_d := d.isLt
  have lt_a := a.isLt
  have lt_b := b.isLt
  have lt_k := k.isLt
  have lt_c := c.isLt
  have lt_t := t.isLt
  have eqm : field word 26 6 = 0x23#6 := field_ofNat heq (by decide) (by simp only [BitVec.toNat_ofNat]; omega)
  have eq0 : field word 0 2 = t := field_ofNat heq (by decide) (by omega)
  have eq1 : field word 2 3 = c := field_ofNat heq (by decide) (by omega)
  have eq2 : field word 5 3 = 0x0#3 := field_ofNat heq (by decide) (by simp only [BitVec.toNat_ofNat]; omega)
  have eq3 : field word 8 3 = k := field_ofNat heq (by decide) (by omega)
  have eq4 : field word 11 5 = b := field_ofNat heq (by decide) (by omega)
  have eq5 : field word 16 5 = a := field_ofNat heq (by decide) (by omega)
  have eq6 : field word 21 5 = d := field_ofNat heq (by decide) (by omega)
  exact decode_of (by rw [decodeFields_23 eqm]; simp [decodeMajor23, eq0, eq1, eq2, eq3, eq4, eq5, eq6]) hwf

theorem Encoding.vsel (d : BitVec 5) (a : BitVec 5) (b : BitVec 5) (k : BitVec 3) (t : BitVec 2) : Encoding.Statement (.vsel d a b k t) := by
  intro word _ heq
  replace heq : BitVec.ofNat 32 (0x8C000020 + d.toNat * 0x200000 + a.toNat * 0x10000 + b.toNat * 0x800 + k.toNat * 0x100 + t.toNat) = word := Option.some.inj heq
  have lt_d := d.isLt
  have lt_a := a.isLt
  have lt_b := b.isLt
  have lt_k := k.isLt
  have lt_t := t.isLt
  have eqm : field word 26 6 = 0x23#6 := field_ofNat heq (by decide) (by simp only [BitVec.toNat_ofNat]; omega)
  have eq0 : field word 0 2 = t := field_ofNat heq (by decide) (by omega)
  have eq1 : field word 2 6 = 0x8#6 := field_ofNat heq (by decide) (by simp only [BitVec.toNat_ofNat]; omega)
  have eq2 : field word 5 3 = 0x1#3 := field_ofNat heq (by decide) (by simp only [BitVec.toNat_ofNat]; omega)
  have eq3 : field word 8 3 = k := field_ofNat heq (by decide) (by omega)
  have eq4 : field word 11 5 = b := field_ofNat heq (by decide) (by omega)
  have eq5 : field word 16 5 = a := field_ofNat heq (by decide) (by omega)
  have eq6 : field word 21 5 = d := field_ofNat heq (by decide) (by omega)
  exact decode_of (by rw [decodeFields_23 eqm]; simp [decodeMajor23, eq0, eq1, eq2, eq3, eq4, eq5, eq6]) rfl

theorem Encoding.vcvt (d : BitVec 5) (a : BitVec 5) (k : BitVec 3) (h : BitVec 1) (c : BitVec 4) (r : BitVec 1) (u : BitVec 1) : Encoding.Statement (.vcvt d a k h c r u) := by
  intro word hwf heq
  replace heq : BitVec.ofNat 32 (0x8C000080 + d.toNat * 0x200000 + a.toNat * 0x10000 + k.toNat * 0x100 + h.toNat * 0x40 + c.toNat * 0x4 + r.toNat * 0x2 + u.toNat) = word := Option.some.inj heq
  have lt_d := d.isLt
  have lt_a := a.isLt
  have lt_k := k.isLt
  have lt_h := h.isLt
  have lt_c := c.isLt
  have lt_r := r.isLt
  have lt_u := u.isLt
  have eqm : field word 26 6 = 0x23#6 := field_ofNat heq (by decide) (by simp only [BitVec.toNat_ofNat]; omega)
  have eq0 : field word 0 1 = u := field_ofNat heq (by decide) (by omega)
  have eq1 : field word 1 1 = r := field_ofNat heq (by decide) (by omega)
  have eq2 : field word 2 4 = c := field_ofNat heq (by decide) (by omega)
  have eq3 : field word 6 1 = h := field_ofNat heq (by decide) (by omega)
  have eq4 : field word 7 1 = 0x1#1 := field_ofNat heq (by decide) (by simp only [BitVec.toNat_ofNat]; omega)
  have eq5 : field word 8 3 = k := field_ofNat heq (by decide) (by omega)
  have eq6 : field word 11 5 = 0x0#5 := field_ofNat heq (by decide) (by simp only [BitVec.toNat_ofNat]; omega)
  have eq7 : field word 16 5 = a := field_ofNat heq (by decide) (by omega)
  have eq8 : field word 21 5 = d := field_ofNat heq (by decide) (by omega)
  have ne0 : field word 2 6 ≠ 0x8#6 := field_ne heq (by decide) (by simp only [BitVec.toNat_ofNat]; omega)
  have ne1 : field word 5 3 ≠ 0x0#3 := field_ne heq (by decide) (by simp only [BitVec.toNat_ofNat]; omega)
  exact decode_of (by rw [decodeFields_23 eqm]; simp [decodeMajor23, eq0, eq1, eq2, eq3, eq4, eq5, eq6, eq7, eq8, ne0, ne1]) hwf

theorem Encoding.viadd (d : BitVec 5) (a : BitVec 5) (b : BitVec 5) (k : BitVec 3) (u : BitVec 1) (t : BitVec 2) : Encoding.Statement (.viadd d a b k u t) := by
  intro word _ heq
  replace heq : BitVec.ofNat 32 (0x90000000 + d.toNat * 0x200000 + a.toNat * 0x10000 + b.toNat * 0x800 + k.toNat * 0x100 + u.toNat * 0x80 + t.toNat) = word := Option.some.inj heq
  have lt_d := d.isLt
  have lt_a := a.isLt
  have lt_b := b.isLt
  have lt_k := k.isLt
  have lt_u := u.isLt
  have lt_t := t.isLt
  have eqm : field word 26 6 = 0x24#6 := field_ofNat heq (by decide) (by simp only [BitVec.toNat_ofNat]; omega)
  have eq0 : field word 0 2 = t := field_ofNat heq (by decide) (by omega)
  have eq1 : field word 2 5 = 0x0#5 := field_ofNat heq (by decide) (by simp only [BitVec.toNat_ofNat]; omega)
  have eq2 : field word 7 1 = u := field_ofNat heq (by decide) (by omega)
  have eq3 : field word 8 3 = k := field_ofNat heq (by decide) (by omega)
  have eq4 : field word 11 5 = b := field_ofNat heq (by decide) (by omega)
  have eq5 : field word 16 5 = a := field_ofNat heq (by decide) (by omega)
  have eq6 : field word 21 5 = d := field_ofNat heq (by decide) (by omega)
  exact decode_of (by rw [decodeFields_24 eqm]; simp [decodeMajor24, eq0, eq1, eq2, eq3, eq4, eq5, eq6]) rfl

theorem Encoding.visub (d : BitVec 5) (a : BitVec 5) (b : BitVec 5) (k : BitVec 3) (u : BitVec 1) (t : BitVec 2) : Encoding.Statement (.visub d a b k u t) := by
  intro word _ heq
  replace heq : BitVec.ofNat 32 (0x90000004 + d.toNat * 0x200000 + a.toNat * 0x10000 + b.toNat * 0x800 + k.toNat * 0x100 + u.toNat * 0x80 + t.toNat) = word := Option.some.inj heq
  have lt_d := d.isLt
  have lt_a := a.isLt
  have lt_b := b.isLt
  have lt_k := k.isLt
  have lt_u := u.isLt
  have lt_t := t.isLt
  have eqm : field word 26 6 = 0x24#6 := field_ofNat heq (by decide) (by simp only [BitVec.toNat_ofNat]; omega)
  have eq0 : field word 0 2 = t := field_ofNat heq (by decide) (by omega)
  have eq1 : field word 2 5 = 0x1#5 := field_ofNat heq (by decide) (by simp only [BitVec.toNat_ofNat]; omega)
  have eq2 : field word 7 1 = u := field_ofNat heq (by decide) (by omega)
  have eq3 : field word 8 3 = k := field_ofNat heq (by decide) (by omega)
  have eq4 : field word 11 5 = b := field_ofNat heq (by decide) (by omega)
  have eq5 : field word 16 5 = a := field_ofNat heq (by decide) (by omega)
  have eq6 : field word 21 5 = d := field_ofNat heq (by decide) (by omega)
  exact decode_of (by rw [decodeFields_24 eqm]; simp [decodeMajor24, eq0, eq1, eq2, eq3, eq4, eq5, eq6]) rfl

theorem Encoding.vimul (d : BitVec 5) (a : BitVec 5) (b : BitVec 5) (k : BitVec 3) (u : BitVec 1) (t : BitVec 2) : Encoding.Statement (.vimul d a b k u t) := by
  intro word _ heq
  replace heq : BitVec.ofNat 32 (0x90000008 + d.toNat * 0x200000 + a.toNat * 0x10000 + b.toNat * 0x800 + k.toNat * 0x100 + u.toNat * 0x80 + t.toNat) = word := Option.some.inj heq
  have lt_d := d.isLt
  have lt_a := a.isLt
  have lt_b := b.isLt
  have lt_k := k.isLt
  have lt_u := u.isLt
  have lt_t := t.isLt
  have eqm : field word 26 6 = 0x24#6 := field_ofNat heq (by decide) (by simp only [BitVec.toNat_ofNat]; omega)
  have eq0 : field word 0 2 = t := field_ofNat heq (by decide) (by omega)
  have eq1 : field word 2 5 = 0x2#5 := field_ofNat heq (by decide) (by simp only [BitVec.toNat_ofNat]; omega)
  have eq2 : field word 7 1 = u := field_ofNat heq (by decide) (by omega)
  have eq3 : field word 8 3 = k := field_ofNat heq (by decide) (by omega)
  have eq4 : field word 11 5 = b := field_ofNat heq (by decide) (by omega)
  have eq5 : field word 16 5 = a := field_ofNat heq (by decide) (by omega)
  have eq6 : field word 21 5 = d := field_ofNat heq (by decide) (by omega)
  exact decode_of (by rw [decodeFields_24 eqm]; simp [decodeMajor24, eq0, eq1, eq2, eq3, eq4, eq5, eq6]) rfl

theorem Encoding.vimulh (d : BitVec 5) (a : BitVec 5) (b : BitVec 5) (k : BitVec 3) (u : BitVec 1) (t : BitVec 2) : Encoding.Statement (.vimulh d a b k u t) := by
  intro word _ heq
  replace heq : BitVec.ofNat 32 (0x9000000C + d.toNat * 0x200000 + a.toNat * 0x10000 + b.toNat * 0x800 + k.toNat * 0x100 + u.toNat * 0x80 + t.toNat) = word := Option.some.inj heq
  have lt_d := d.isLt
  have lt_a := a.isLt
  have lt_b := b.isLt
  have lt_k := k.isLt
  have lt_u := u.isLt
  have lt_t := t.isLt
  have eqm : field word 26 6 = 0x24#6 := field_ofNat heq (by decide) (by simp only [BitVec.toNat_ofNat]; omega)
  have eq0 : field word 0 2 = t := field_ofNat heq (by decide) (by omega)
  have eq1 : field word 2 5 = 0x3#5 := field_ofNat heq (by decide) (by simp only [BitVec.toNat_ofNat]; omega)
  have eq2 : field word 7 1 = u := field_ofNat heq (by decide) (by omega)
  have eq3 : field word 8 3 = k := field_ofNat heq (by decide) (by omega)
  have eq4 : field word 11 5 = b := field_ofNat heq (by decide) (by omega)
  have eq5 : field word 16 5 = a := field_ofNat heq (by decide) (by omega)
  have eq6 : field word 21 5 = d := field_ofNat heq (by decide) (by omega)
  exact decode_of (by rw [decodeFields_24 eqm]; simp [decodeMajor24, eq0, eq1, eq2, eq3, eq4, eq5, eq6]) rfl

theorem Encoding.vimin (d : BitVec 5) (a : BitVec 5) (b : BitVec 5) (k : BitVec 3) (u : BitVec 1) (t : BitVec 2) : Encoding.Statement (.vimin d a b k u t) := by
  intro word _ heq
  replace heq : BitVec.ofNat 32 (0x90000010 + d.toNat * 0x200000 + a.toNat * 0x10000 + b.toNat * 0x800 + k.toNat * 0x100 + u.toNat * 0x80 + t.toNat) = word := Option.some.inj heq
  have lt_d := d.isLt
  have lt_a := a.isLt
  have lt_b := b.isLt
  have lt_k := k.isLt
  have lt_u := u.isLt
  have lt_t := t.isLt
  have eqm : field word 26 6 = 0x24#6 := field_ofNat heq (by decide) (by simp only [BitVec.toNat_ofNat]; omega)
  have eq0 : field word 0 2 = t := field_ofNat heq (by decide) (by omega)
  have eq1 : field word 2 5 = 0x4#5 := field_ofNat heq (by decide) (by simp only [BitVec.toNat_ofNat]; omega)
  have eq2 : field word 7 1 = u := field_ofNat heq (by decide) (by omega)
  have eq3 : field word 8 3 = k := field_ofNat heq (by decide) (by omega)
  have eq4 : field word 11 5 = b := field_ofNat heq (by decide) (by omega)
  have eq5 : field word 16 5 = a := field_ofNat heq (by decide) (by omega)
  have eq6 : field word 21 5 = d := field_ofNat heq (by decide) (by omega)
  exact decode_of (by rw [decodeFields_24 eqm]; simp [decodeMajor24, eq0, eq1, eq2, eq3, eq4, eq5, eq6]) rfl

theorem Encoding.vimax (d : BitVec 5) (a : BitVec 5) (b : BitVec 5) (k : BitVec 3) (u : BitVec 1) (t : BitVec 2) : Encoding.Statement (.vimax d a b k u t) := by
  intro word _ heq
  replace heq : BitVec.ofNat 32 (0x90000014 + d.toNat * 0x200000 + a.toNat * 0x10000 + b.toNat * 0x800 + k.toNat * 0x100 + u.toNat * 0x80 + t.toNat) = word := Option.some.inj heq
  have lt_d := d.isLt
  have lt_a := a.isLt
  have lt_b := b.isLt
  have lt_k := k.isLt
  have lt_u := u.isLt
  have lt_t := t.isLt
  have eqm : field word 26 6 = 0x24#6 := field_ofNat heq (by decide) (by simp only [BitVec.toNat_ofNat]; omega)
  have eq0 : field word 0 2 = t := field_ofNat heq (by decide) (by omega)
  have eq1 : field word 2 5 = 0x5#5 := field_ofNat heq (by decide) (by simp only [BitVec.toNat_ofNat]; omega)
  have eq2 : field word 7 1 = u := field_ofNat heq (by decide) (by omega)
  have eq3 : field word 8 3 = k := field_ofNat heq (by decide) (by omega)
  have eq4 : field word 11 5 = b := field_ofNat heq (by decide) (by omega)
  have eq5 : field word 16 5 = a := field_ofNat heq (by decide) (by omega)
  have eq6 : field word 21 5 = d := field_ofNat heq (by decide) (by omega)
  exact decode_of (by rw [decodeFields_24 eqm]; simp [decodeMajor24, eq0, eq1, eq2, eq3, eq4, eq5, eq6]) rfl

theorem Encoding.vand (d : BitVec 5) (a : BitVec 5) (b : BitVec 5) (k : BitVec 3) (t : BitVec 2) : Encoding.Statement (.vand d a b k t) := by
  intro word _ heq
  replace heq : BitVec.ofNat 32 (0x94000000 + d.toNat * 0x200000 + a.toNat * 0x10000 + b.toNat * 0x800 + k.toNat * 0x100 + t.toNat) = word := Option.some.inj heq
  have lt_d := d.isLt
  have lt_a := a.isLt
  have lt_b := b.isLt
  have lt_k := k.isLt
  have lt_t := t.isLt
  have eqm : field word 26 6 = 0x25#6 := field_ofNat heq (by decide) (by simp only [BitVec.toNat_ofNat]; omega)
  have eq0 : field word 0 2 = t := field_ofNat heq (by decide) (by omega)
  have eq1 : field word 2 6 = 0x0#6 := field_ofNat heq (by decide) (by simp only [BitVec.toNat_ofNat]; omega)
  have eq2 : field word 8 3 = k := field_ofNat heq (by decide) (by omega)
  have eq3 : field word 11 5 = b := field_ofNat heq (by decide) (by omega)
  have eq4 : field word 16 5 = a := field_ofNat heq (by decide) (by omega)
  have eq5 : field word 21 5 = d := field_ofNat heq (by decide) (by omega)
  exact decode_of (by rw [decodeFields_25 eqm]; simp [decodeMajor25, eq0, eq1, eq2, eq3, eq4, eq5]) rfl

theorem Encoding.vor (d : BitVec 5) (a : BitVec 5) (b : BitVec 5) (k : BitVec 3) (t : BitVec 2) : Encoding.Statement (.vor d a b k t) := by
  intro word _ heq
  replace heq : BitVec.ofNat 32 (0x94000004 + d.toNat * 0x200000 + a.toNat * 0x10000 + b.toNat * 0x800 + k.toNat * 0x100 + t.toNat) = word := Option.some.inj heq
  have lt_d := d.isLt
  have lt_a := a.isLt
  have lt_b := b.isLt
  have lt_k := k.isLt
  have lt_t := t.isLt
  have eqm : field word 26 6 = 0x25#6 := field_ofNat heq (by decide) (by simp only [BitVec.toNat_ofNat]; omega)
  have eq0 : field word 0 2 = t := field_ofNat heq (by decide) (by omega)
  have eq1 : field word 2 6 = 0x1#6 := field_ofNat heq (by decide) (by simp only [BitVec.toNat_ofNat]; omega)
  have eq2 : field word 8 3 = k := field_ofNat heq (by decide) (by omega)
  have eq3 : field word 11 5 = b := field_ofNat heq (by decide) (by omega)
  have eq4 : field word 16 5 = a := field_ofNat heq (by decide) (by omega)
  have eq5 : field word 21 5 = d := field_ofNat heq (by decide) (by omega)
  exact decode_of (by rw [decodeFields_25 eqm]; simp [decodeMajor25, eq0, eq1, eq2, eq3, eq4, eq5]) rfl

theorem Encoding.vxor (d : BitVec 5) (a : BitVec 5) (b : BitVec 5) (k : BitVec 3) (t : BitVec 2) : Encoding.Statement (.vxor d a b k t) := by
  intro word _ heq
  replace heq : BitVec.ofNat 32 (0x94000008 + d.toNat * 0x200000 + a.toNat * 0x10000 + b.toNat * 0x800 + k.toNat * 0x100 + t.toNat) = word := Option.some.inj heq
  have lt_d := d.isLt
  have lt_a := a.isLt
  have lt_b := b.isLt
  have lt_k := k.isLt
  have lt_t := t.isLt
  have eqm : field word 26 6 = 0x25#6 := field_ofNat heq (by decide) (by simp only [BitVec.toNat_ofNat]; omega)
  have eq0 : field word 0 2 = t := field_ofNat heq (by decide) (by omega)
  have eq1 : field word 2 6 = 0x2#6 := field_ofNat heq (by decide) (by simp only [BitVec.toNat_ofNat]; omega)
  have eq2 : field word 8 3 = k := field_ofNat heq (by decide) (by omega)
  have eq3 : field word 11 5 = b := field_ofNat heq (by decide) (by omega)
  have eq4 : field word 16 5 = a := field_ofNat heq (by decide) (by omega)
  have eq5 : field word 21 5 = d := field_ofNat heq (by decide) (by omega)
  exact decode_of (by rw [decodeFields_25 eqm]; simp [decodeMajor25, eq0, eq1, eq2, eq3, eq4, eq5]) rfl

theorem Encoding.vshl (d : BitVec 5) (a : BitVec 5) (b : BitVec 5) (k : BitVec 3) (t : BitVec 2) : Encoding.Statement (.vshl d a b k t) := by
  intro word _ heq
  replace heq : BitVec.ofNat 32 (0x9400000C + d.toNat * 0x200000 + a.toNat * 0x10000 + b.toNat * 0x800 + k.toNat * 0x100 + t.toNat) = word := Option.some.inj heq
  have lt_d := d.isLt
  have lt_a := a.isLt
  have lt_b := b.isLt
  have lt_k := k.isLt
  have lt_t := t.isLt
  have eqm : field word 26 6 = 0x25#6 := field_ofNat heq (by decide) (by simp only [BitVec.toNat_ofNat]; omega)
  have eq0 : field word 0 2 = t := field_ofNat heq (by decide) (by omega)
  have eq1 : field word 2 6 = 0x3#6 := field_ofNat heq (by decide) (by simp only [BitVec.toNat_ofNat]; omega)
  have eq2 : field word 8 3 = k := field_ofNat heq (by decide) (by omega)
  have eq3 : field word 11 5 = b := field_ofNat heq (by decide) (by omega)
  have eq4 : field word 16 5 = a := field_ofNat heq (by decide) (by omega)
  have eq5 : field word 21 5 = d := field_ofNat heq (by decide) (by omega)
  exact decode_of (by rw [decodeFields_25 eqm]; simp [decodeMajor25, eq0, eq1, eq2, eq3, eq4, eq5]) rfl

theorem Encoding.vshr (d : BitVec 5) (a : BitVec 5) (b : BitVec 5) (k : BitVec 3) (t : BitVec 2) : Encoding.Statement (.vshr d a b k t) := by
  intro word _ heq
  replace heq : BitVec.ofNat 32 (0x94000010 + d.toNat * 0x200000 + a.toNat * 0x10000 + b.toNat * 0x800 + k.toNat * 0x100 + t.toNat) = word := Option.some.inj heq
  have lt_d := d.isLt
  have lt_a := a.isLt
  have lt_b := b.isLt
  have lt_k := k.isLt
  have lt_t := t.isLt
  have eqm : field word 26 6 = 0x25#6 := field_ofNat heq (by decide) (by simp only [BitVec.toNat_ofNat]; omega)
  have eq0 : field word 0 2 = t := field_ofNat heq (by decide) (by omega)
  have eq1 : field word 2 6 = 0x4#6 := field_ofNat heq (by decide) (by simp only [BitVec.toNat_ofNat]; omega)
  have eq2 : field word 8 3 = k := field_ofNat heq (by decide) (by omega)
  have eq3 : field word 11 5 = b := field_ofNat heq (by decide) (by omega)
  have eq4 : field word 16 5 = a := field_ofNat heq (by decide) (by omega)
  have eq5 : field word 21 5 = d := field_ofNat heq (by decide) (by omega)
  exact decode_of (by rw [decodeFields_25 eqm]; simp [decodeMajor25, eq0, eq1, eq2, eq3, eq4, eq5]) rfl

theorem Encoding.vsra (d : BitVec 5) (a : BitVec 5) (b : BitVec 5) (k : BitVec 3) (t : BitVec 2) : Encoding.Statement (.vsra d a b k t) := by
  intro word _ heq
  replace heq : BitVec.ofNat 32 (0x94000014 + d.toNat * 0x200000 + a.toNat * 0x10000 + b.toNat * 0x800 + k.toNat * 0x100 + t.toNat) = word := Option.some.inj heq
  have lt_d := d.isLt
  have lt_a := a.isLt
  have lt_b := b.isLt
  have lt_k := k.isLt
  have lt_t := t.isLt
  have eqm : field word 26 6 = 0x25#6 := field_ofNat heq (by decide) (by simp only [BitVec.toNat_ofNat]; omega)
  have eq0 : field word 0 2 = t := field_ofNat heq (by decide) (by omega)
  have eq1 : field word 2 6 = 0x5#6 := field_ofNat heq (by decide) (by simp only [BitVec.toNat_ofNat]; omega)
  have eq2 : field word 8 3 = k := field_ofNat heq (by decide) (by omega)
  have eq3 : field word 11 5 = b := field_ofNat heq (by decide) (by omega)
  have eq4 : field word 16 5 = a := field_ofNat heq (by decide) (by omega)
  have eq5 : field word 21 5 = d := field_ofNat heq (by decide) (by omega)
  exact decode_of (by rw [decodeFields_25 eqm]; simp [decodeMajor25, eq0, eq1, eq2, eq3, eq4, eq5]) rfl

theorem Encoding.vicmp (d : BitVec 5) (a : BitVec 5) (b : BitVec 5) (k : BitVec 3) (u : BitVec 1) (c : BitVec 3) (t : BitVec 2) : Encoding.Statement (.vicmp d a b k u c t) := by
  intro word hwf heq
  replace heq : BitVec.ofNat 32 (0x94000020 + d.toNat * 0x200000 + a.toNat * 0x10000 + b.toNat * 0x800 + k.toNat * 0x100 + u.toNat * 0x80 + c.toNat * 0x4 + t.toNat) = word := Option.some.inj heq
  have lt_d := d.isLt
  have lt_a := a.isLt
  have lt_b := b.isLt
  have lt_k := k.isLt
  have lt_u := u.isLt
  have lt_c := c.isLt
  have lt_t := t.isLt
  have eqm : field word 26 6 = 0x25#6 := field_ofNat heq (by decide) (by simp only [BitVec.toNat_ofNat]; omega)
  have eq0 : field word 0 2 = t := field_ofNat heq (by decide) (by omega)
  have eq1 : field word 2 3 = c := field_ofNat heq (by decide) (by omega)
  have eq2 : field word 5 2 = 0x1#2 := field_ofNat heq (by decide) (by simp only [BitVec.toNat_ofNat]; omega)
  have eq3 : field word 7 1 = u := field_ofNat heq (by decide) (by omega)
  have eq4 : field word 8 3 = k := field_ofNat heq (by decide) (by omega)
  have eq5 : field word 11 5 = b := field_ofNat heq (by decide) (by omega)
  have eq6 : field word 16 5 = a := field_ofNat heq (by decide) (by omega)
  have eq7 : field word 21 5 = d := field_ofNat heq (by decide) (by omega)
  have ne0 : field word 2 6 ≠ 0x0#6 := field_ne heq (by decide) (by simp only [BitVec.toNat_ofNat]; omega)
  have ne1 : field word 2 6 ≠ 0x1#6 := field_ne heq (by decide) (by simp only [BitVec.toNat_ofNat]; omega)
  have ne2 : field word 2 6 ≠ 0x2#6 := field_ne heq (by decide) (by simp only [BitVec.toNat_ofNat]; omega)
  have ne3 : field word 2 6 ≠ 0x3#6 := field_ne heq (by decide) (by simp only [BitVec.toNat_ofNat]; omega)
  have ne4 : field word 2 6 ≠ 0x4#6 := field_ne heq (by decide) (by simp only [BitVec.toNat_ofNat]; omega)
  have ne5 : field word 2 6 ≠ 0x5#6 := field_ne heq (by decide) (by simp only [BitVec.toNat_ofNat]; omega)
  exact decode_of (by rw [decodeFields_25 eqm]; simp [decodeMajor25, eq0, eq1, eq2, eq3, eq4, eq5, eq6, eq7, ne0, ne1, ne2, ne3, ne4, ne5]) hwf

theorem Encoding.vredadd (d : BitVec 5) (a : BitVec 5) (k : BitVec 3) (u : BitVec 1) (f : BitVec 1) (t : BitVec 2) : Encoding.Statement (.vredadd d a k u f t) := by
  intro word hwf heq
  replace heq : BitVec.ofNat 32 (0x98000000 + d.toNat * 0x200000 + a.toNat * 0x10000 + k.toNat * 0x100 + u.toNat * 0x80 + f.toNat * 0x40 + t.toNat) = word := Option.some.inj heq
  have lt_d := d.isLt
  have lt_a := a.isLt
  have lt_k := k.isLt
  have lt_u := u.isLt
  have lt_f := f.isLt
  have lt_t := t.isLt
  have eqm : field word 26 6 = 0x26#6 := field_ofNat heq (by decide) (by simp only [BitVec.toNat_ofNat]; omega)
  have eq0 : field word 0 2 = t := field_ofNat heq (by decide) (by omega)
  have eq1 : field word 2 4 = 0x0#4 := field_ofNat heq (by decide) (by simp only [BitVec.toNat_ofNat]; omega)
  have eq2 : field word 6 1 = f := field_ofNat heq (by decide) (by omega)
  have eq3 : field word 7 1 = u := field_ofNat heq (by decide) (by omega)
  have eq4 : field word 8 3 = k := field_ofNat heq (by decide) (by omega)
  have eq5 : field word 11 5 = 0x0#5 := field_ofNat heq (by decide) (by simp only [BitVec.toNat_ofNat]; omega)
  have eq6 : field word 16 5 = a := field_ofNat heq (by decide) (by omega)
  have eq7 : field word 21 5 = d := field_ofNat heq (by decide) (by omega)
  exact decode_of (by rw [decodeFields_26 eqm]; simp [decodeMajor26, eq0, eq1, eq2, eq3, eq4, eq5, eq6, eq7]) hwf

theorem Encoding.vredmin (d : BitVec 5) (a : BitVec 5) (k : BitVec 3) (u : BitVec 1) (f : BitVec 1) (t : BitVec 2) : Encoding.Statement (.vredmin d a k u f t) := by
  intro word hwf heq
  replace heq : BitVec.ofNat 32 (0x98000004 + d.toNat * 0x200000 + a.toNat * 0x10000 + k.toNat * 0x100 + u.toNat * 0x80 + f.toNat * 0x40 + t.toNat) = word := Option.some.inj heq
  have lt_d := d.isLt
  have lt_a := a.isLt
  have lt_k := k.isLt
  have lt_u := u.isLt
  have lt_f := f.isLt
  have lt_t := t.isLt
  have eqm : field word 26 6 = 0x26#6 := field_ofNat heq (by decide) (by simp only [BitVec.toNat_ofNat]; omega)
  have eq0 : field word 0 2 = t := field_ofNat heq (by decide) (by omega)
  have eq1 : field word 2 4 = 0x1#4 := field_ofNat heq (by decide) (by simp only [BitVec.toNat_ofNat]; omega)
  have eq2 : field word 6 1 = f := field_ofNat heq (by decide) (by omega)
  have eq3 : field word 7 1 = u := field_ofNat heq (by decide) (by omega)
  have eq4 : field word 8 3 = k := field_ofNat heq (by decide) (by omega)
  have eq5 : field word 11 5 = 0x0#5 := field_ofNat heq (by decide) (by simp only [BitVec.toNat_ofNat]; omega)
  have eq6 : field word 16 5 = a := field_ofNat heq (by decide) (by omega)
  have eq7 : field word 21 5 = d := field_ofNat heq (by decide) (by omega)
  exact decode_of (by rw [decodeFields_26 eqm]; simp [decodeMajor26, eq0, eq1, eq2, eq3, eq4, eq5, eq6, eq7]) hwf

theorem Encoding.vredmax (d : BitVec 5) (a : BitVec 5) (k : BitVec 3) (u : BitVec 1) (f : BitVec 1) (t : BitVec 2) : Encoding.Statement (.vredmax d a k u f t) := by
  intro word hwf heq
  replace heq : BitVec.ofNat 32 (0x98000008 + d.toNat * 0x200000 + a.toNat * 0x10000 + k.toNat * 0x100 + u.toNat * 0x80 + f.toNat * 0x40 + t.toNat) = word := Option.some.inj heq
  have lt_d := d.isLt
  have lt_a := a.isLt
  have lt_k := k.isLt
  have lt_u := u.isLt
  have lt_f := f.isLt
  have lt_t := t.isLt
  have eqm : field word 26 6 = 0x26#6 := field_ofNat heq (by decide) (by simp only [BitVec.toNat_ofNat]; omega)
  have eq0 : field word 0 2 = t := field_ofNat heq (by decide) (by omega)
  have eq1 : field word 2 4 = 0x2#4 := field_ofNat heq (by decide) (by simp only [BitVec.toNat_ofNat]; omega)
  have eq2 : field word 6 1 = f := field_ofNat heq (by decide) (by omega)
  have eq3 : field word 7 1 = u := field_ofNat heq (by decide) (by omega)
  have eq4 : field word 8 3 = k := field_ofNat heq (by decide) (by omega)
  have eq5 : field word 11 5 = 0x0#5 := field_ofNat heq (by decide) (by simp only [BitVec.toNat_ofNat]; omega)
  have eq6 : field word 16 5 = a := field_ofNat heq (by decide) (by omega)
  have eq7 : field word 21 5 = d := field_ofNat heq (by decide) (by omega)
  exact decode_of (by rw [decodeFields_26 eqm]; simp [decodeMajor26, eq0, eq1, eq2, eq3, eq4, eq5, eq6, eq7]) hwf

theorem Encoding.vredmini (d : BitVec 5) (a : BitVec 5) (k : BitVec 3) (u : BitVec 1) (t : BitVec 2) : Encoding.Statement (.vredmini d a k u t) := by
  intro word hwf heq
  replace heq : BitVec.ofNat 32 (0x9800000C + d.toNat * 0x200000 + a.toNat * 0x10000 + k.toNat * 0x100 + u.toNat * 0x80 + t.toNat) = word := Option.some.inj heq
  have lt_d := d.isLt
  have lt_a := a.isLt
  have lt_k := k.isLt
  have lt_u := u.isLt
  have lt_t := t.isLt
  have eqm : field word 26 6 = 0x26#6 := field_ofNat heq (by decide) (by simp only [BitVec.toNat_ofNat]; omega)
  have eq0 : field word 0 2 = t := field_ofNat heq (by decide) (by omega)
  have eq1 : field word 2 4 = 0x3#4 := field_ofNat heq (by decide) (by simp only [BitVec.toNat_ofNat]; omega)
  have eq2 : field word 2 5 = 0x3#5 := field_ofNat heq (by decide) (by simp only [BitVec.toNat_ofNat]; omega)
  have eq3 : field word 7 1 = u := field_ofNat heq (by decide) (by omega)
  have eq4 : field word 8 3 = k := field_ofNat heq (by decide) (by omega)
  have eq5 : field word 11 5 = 0x0#5 := field_ofNat heq (by decide) (by simp only [BitVec.toNat_ofNat]; omega)
  have eq6 : field word 16 5 = a := field_ofNat heq (by decide) (by omega)
  have eq7 : field word 21 5 = d := field_ofNat heq (by decide) (by omega)
  exact decode_of (by rw [decodeFields_26 eqm]; simp [decodeMajor26, eq0, eq1, eq2, eq3, eq4, eq5, eq6, eq7]) hwf

theorem Encoding.vperm (d : BitVec 5) (a : BitVec 5) (b : BitVec 5) (k : BitVec 3) (t : BitVec 2) : Encoding.Statement (.vperm d a b k t) := by
  intro word _ heq
  replace heq : BitVec.ofNat 32 (0x9C000000 + d.toNat * 0x200000 + a.toNat * 0x10000 + b.toNat * 0x800 + k.toNat * 0x100 + t.toNat) = word := Option.some.inj heq
  have lt_d := d.isLt
  have lt_a := a.isLt
  have lt_b := b.isLt
  have lt_k := k.isLt
  have lt_t := t.isLt
  have eqm : field word 26 6 = 0x27#6 := field_ofNat heq (by decide) (by simp only [BitVec.toNat_ofNat]; omega)
  have eq0 : field word 0 2 = t := field_ofNat heq (by decide) (by omega)
  have eq1 : field word 2 6 = 0x0#6 := field_ofNat heq (by decide) (by simp only [BitVec.toNat_ofNat]; omega)
  have eq2 : field word 8 3 = k := field_ofNat heq (by decide) (by omega)
  have eq3 : field word 11 5 = b := field_ofNat heq (by decide) (by omega)
  have eq4 : field word 16 5 = a := field_ofNat heq (by decide) (by omega)
  have eq5 : field word 21 5 = d := field_ofNat heq (by decide) (by omega)
  exact decode_of (by rw [decodeFields_27 eqm]; simp [decodeMajor27, eq0, eq1, eq2, eq3, eq4, eq5]) rfl

theorem Encoding.vslideUp (d : BitVec 5) (a : BitVec 5) (b : BitVec 5) (k : BitVec 3) (t : BitVec 2) : Encoding.Statement (.vslideUp d a b k t) := by
  intro word _ heq
  replace heq : BitVec.ofNat 32 (0x9C000004 + d.toNat * 0x200000 + a.toNat * 0x10000 + b.toNat * 0x800 + k.toNat * 0x100 + t.toNat) = word := Option.some.inj heq
  have lt_d := d.isLt
  have lt_a := a.isLt
  have lt_b := b.isLt
  have lt_k := k.isLt
  have lt_t := t.isLt
  have eqm : field word 26 6 = 0x27#6 := field_ofNat heq (by decide) (by simp only [BitVec.toNat_ofNat]; omega)
  have eq0 : field word 0 2 = t := field_ofNat heq (by decide) (by omega)
  have eq1 : field word 2 6 = 0x1#6 := field_ofNat heq (by decide) (by simp only [BitVec.toNat_ofNat]; omega)
  have eq2 : field word 8 3 = k := field_ofNat heq (by decide) (by omega)
  have eq3 : field word 11 5 = b := field_ofNat heq (by decide) (by omega)
  have eq4 : field word 16 5 = a := field_ofNat heq (by decide) (by omega)
  have eq5 : field word 21 5 = d := field_ofNat heq (by decide) (by omega)
  exact decode_of (by rw [decodeFields_27 eqm]; simp [decodeMajor27, eq0, eq1, eq2, eq3, eq4, eq5]) rfl

theorem Encoding.vslideDn (d : BitVec 5) (a : BitVec 5) (b : BitVec 5) (k : BitVec 3) (t : BitVec 2) : Encoding.Statement (.vslideDn d a b k t) := by
  intro word _ heq
  replace heq : BitVec.ofNat 32 (0x9C000008 + d.toNat * 0x200000 + a.toNat * 0x10000 + b.toNat * 0x800 + k.toNat * 0x100 + t.toNat) = word := Option.some.inj heq
  have lt_d := d.isLt
  have lt_a := a.isLt
  have lt_b := b.isLt
  have lt_k := k.isLt
  have lt_t := t.isLt
  have eqm : field word 26 6 = 0x27#6 := field_ofNat heq (by decide) (by simp only [BitVec.toNat_ofNat]; omega)
  have eq0 : field word 0 2 = t := field_ofNat heq (by decide) (by omega)
  have eq1 : field word 2 6 = 0x2#6 := field_ofNat heq (by decide) (by simp only [BitVec.toNat_ofNat]; omega)
  have eq2 : field word 8 3 = k := field_ofNat heq (by decide) (by omega)
  have eq3 : field word 11 5 = b := field_ofNat heq (by decide) (by omega)
  have eq4 : field word 16 5 = a := field_ofNat heq (by decide) (by omega)
  have eq5 : field word 21 5 = d := field_ofNat heq (by decide) (by omega)
  exact decode_of (by rw [decodeFields_27 eqm]; simp [decodeMajor27, eq0, eq1, eq2, eq3, eq4, eq5]) rfl

theorem Encoding.vzipLo (d : BitVec 5) (a : BitVec 5) (b : BitVec 5) (k : BitVec 3) (t : BitVec 2) : Encoding.Statement (.vzipLo d a b k t) := by
  intro word _ heq
  replace heq : BitVec.ofNat 32 (0x9C00000C + d.toNat * 0x200000 + a.toNat * 0x10000 + b.toNat * 0x800 + k.toNat * 0x100 + t.toNat) = word := Option.some.inj heq
  have lt_d := d.isLt
  have lt_a := a.isLt
  have lt_b := b.isLt
  have lt_k := k.isLt
  have lt_t := t.isLt
  have eqm : field word 26 6 = 0x27#6 := field_ofNat heq (by decide) (by simp only [BitVec.toNat_ofNat]; omega)
  have eq0 : field word 0 2 = t := field_ofNat heq (by decide) (by omega)
  have eq1 : field word 2 6 = 0x3#6 := field_ofNat heq (by decide) (by simp only [BitVec.toNat_ofNat]; omega)
  have eq2 : field word 8 3 = k := field_ofNat heq (by decide) (by omega)
  have eq3 : field word 11 5 = b := field_ofNat heq (by decide) (by omega)
  have eq4 : field word 16 5 = a := field_ofNat heq (by decide) (by omega)
  have eq5 : field word 21 5 = d := field_ofNat heq (by decide) (by omega)
  exact decode_of (by rw [decodeFields_27 eqm]; simp [decodeMajor27, eq0, eq1, eq2, eq3, eq4, eq5]) rfl

theorem Encoding.vzipHi (d : BitVec 5) (a : BitVec 5) (b : BitVec 5) (k : BitVec 3) (t : BitVec 2) : Encoding.Statement (.vzipHi d a b k t) := by
  intro word _ heq
  replace heq : BitVec.ofNat 32 (0x9C000010 + d.toNat * 0x200000 + a.toNat * 0x10000 + b.toNat * 0x800 + k.toNat * 0x100 + t.toNat) = word := Option.some.inj heq
  have lt_d := d.isLt
  have lt_a := a.isLt
  have lt_b := b.isLt
  have lt_k := k.isLt
  have lt_t := t.isLt
  have eqm : field word 26 6 = 0x27#6 := field_ofNat heq (by decide) (by simp only [BitVec.toNat_ofNat]; omega)
  have eq0 : field word 0 2 = t := field_ofNat heq (by decide) (by omega)
  have eq1 : field word 2 6 = 0x4#6 := field_ofNat heq (by decide) (by simp only [BitVec.toNat_ofNat]; omega)
  have eq2 : field word 8 3 = k := field_ofNat heq (by decide) (by omega)
  have eq3 : field word 11 5 = b := field_ofNat heq (by decide) (by omega)
  have eq4 : field word 16 5 = a := field_ofNat heq (by decide) (by omega)
  have eq5 : field word 21 5 = d := field_ofNat heq (by decide) (by omega)
  exact decode_of (by rw [decodeFields_27 eqm]; simp [decodeMajor27, eq0, eq1, eq2, eq3, eq4, eq5]) rfl

theorem Encoding.vcompr (d : BitVec 5) (a : BitVec 5) (k : BitVec 3) (t : BitVec 2) : Encoding.Statement (.vcompr d a k t) := by
  intro word _ heq
  replace heq : BitVec.ofNat 32 (0x9C000014 + d.toNat * 0x200000 + a.toNat * 0x10000 + k.toNat * 0x100 + t.toNat) = word := Option.some.inj heq
  have lt_d := d.isLt
  have lt_a := a.isLt
  have lt_k := k.isLt
  have lt_t := t.isLt
  have eqm : field word 26 6 = 0x27#6 := field_ofNat heq (by decide) (by simp only [BitVec.toNat_ofNat]; omega)
  have eq0 : field word 0 2 = t := field_ofNat heq (by decide) (by omega)
  have eq1 : field word 2 6 = 0x5#6 := field_ofNat heq (by decide) (by simp only [BitVec.toNat_ofNat]; omega)
  have eq2 : field word 8 3 = k := field_ofNat heq (by decide) (by omega)
  have eq3 : field word 11 5 = 0x0#5 := field_ofNat heq (by decide) (by simp only [BitVec.toNat_ofNat]; omega)
  have eq4 : field word 16 5 = a := field_ofNat heq (by decide) (by omega)
  have eq5 : field word 21 5 = d := field_ofNat heq (by decide) (by omega)
  exact decode_of (by rw [decodeFields_27 eqm]; simp [decodeMajor27, eq0, eq1, eq2, eq3, eq4, eq5]) rfl

theorem Encoding.kand (d : BitVec 5) (a : BitVec 5) (b : BitVec 5) : Encoding.Statement (.kand d a b) := by
  intro word _ heq
  replace heq : BitVec.ofNat 32 (0xA0000000 + d.toNat * 0x200000 + a.toNat * 0x10000 + b.toNat * 0x800) = word := Option.some.inj heq
  have lt_d := d.isLt
  have lt_a := a.isLt
  have lt_b := b.isLt
  have eqm : field word 26 6 = 0x28#6 := field_ofNat heq (by decide) (by simp only [BitVec.toNat_ofNat]; omega)
  have eq0 : field word 0 11 = 0x0#11 := field_ofNat heq (by decide) (by simp only [BitVec.toNat_ofNat]; omega)
  have eq1 : field word 11 5 = b := field_ofNat heq (by decide) (by omega)
  have eq2 : field word 16 5 = a := field_ofNat heq (by decide) (by omega)
  have eq3 : field word 21 5 = d := field_ofNat heq (by decide) (by omega)
  exact decode_of (by rw [decodeFields_28 eqm]; simp [decodeMajor28, eq0, eq1, eq2, eq3]) rfl

theorem Encoding.kor (d : BitVec 5) (a : BitVec 5) (b : BitVec 5) : Encoding.Statement (.kor d a b) := by
  intro word _ heq
  replace heq : BitVec.ofNat 32 (0xA0000004 + d.toNat * 0x200000 + a.toNat * 0x10000 + b.toNat * 0x800) = word := Option.some.inj heq
  have lt_d := d.isLt
  have lt_a := a.isLt
  have lt_b := b.isLt
  have eqm : field word 26 6 = 0x28#6 := field_ofNat heq (by decide) (by simp only [BitVec.toNat_ofNat]; omega)
  have eq0 : field word 0 11 = 0x4#11 := field_ofNat heq (by decide) (by simp only [BitVec.toNat_ofNat]; omega)
  have eq1 : field word 11 5 = b := field_ofNat heq (by decide) (by omega)
  have eq2 : field word 16 5 = a := field_ofNat heq (by decide) (by omega)
  have eq3 : field word 21 5 = d := field_ofNat heq (by decide) (by omega)
  exact decode_of (by rw [decodeFields_28 eqm]; simp [decodeMajor28, eq0, eq1, eq2, eq3]) rfl

theorem Encoding.kxor (d : BitVec 5) (a : BitVec 5) (b : BitVec 5) : Encoding.Statement (.kxor d a b) := by
  intro word _ heq
  replace heq : BitVec.ofNat 32 (0xA0000008 + d.toNat * 0x200000 + a.toNat * 0x10000 + b.toNat * 0x800) = word := Option.some.inj heq
  have lt_d := d.isLt
  have lt_a := a.isLt
  have lt_b := b.isLt
  have eqm : field word 26 6 = 0x28#6 := field_ofNat heq (by decide) (by simp only [BitVec.toNat_ofNat]; omega)
  have eq0 : field word 0 11 = 0x8#11 := field_ofNat heq (by decide) (by simp only [BitVec.toNat_ofNat]; omega)
  have eq1 : field word 11 5 = b := field_ofNat heq (by decide) (by omega)
  have eq2 : field word 16 5 = a := field_ofNat heq (by decide) (by omega)
  have eq3 : field word 21 5 = d := field_ofNat heq (by decide) (by omega)
  exact decode_of (by rw [decodeFields_28 eqm]; simp [decodeMajor28, eq0, eq1, eq2, eq3]) rfl

theorem Encoding.knot (d : BitVec 5) (a : BitVec 5) : Encoding.Statement (.knot d a) := by
  intro word _ heq
  replace heq : BitVec.ofNat 32 (0xA000000C + d.toNat * 0x200000 + a.toNat * 0x10000) = word := Option.some.inj heq
  have lt_d := d.isLt
  have lt_a := a.isLt
  have eqm : field word 26 6 = 0x28#6 := field_ofNat heq (by decide) (by simp only [BitVec.toNat_ofNat]; omega)
  have eq0 : field word 0 11 = 0xC#11 := field_ofNat heq (by decide) (by simp only [BitVec.toNat_ofNat]; omega)
  have eq1 : field word 0 16 = 0xC#16 := field_ofNat heq (by decide) (by simp only [BitVec.toNat_ofNat]; omega)
  have eq2 : field word 16 5 = a := field_ofNat heq (by decide) (by omega)
  have eq3 : field word 21 5 = d := field_ofNat heq (by decide) (by omega)
  exact decode_of (by rw [decodeFields_28 eqm]; simp [decodeMajor28, eq0, eq1, eq2, eq3]) rfl

theorem Encoding.kpopc (d : BitVec 5) (a : BitVec 5) : Encoding.Statement (.kpopc d a) := by
  intro word _ heq
  replace heq : BitVec.ofNat 32 (0xA0000010 + d.toNat * 0x200000 + a.toNat * 0x10000) = word := Option.some.inj heq
  have lt_d := d.isLt
  have lt_a := a.isLt
  have eqm : field word 26 6 = 0x28#6 := field_ofNat heq (by decide) (by simp only [BitVec.toNat_ofNat]; omega)
  have eq0 : field word 0 11 = 0x10#11 := field_ofNat heq (by decide) (by simp only [BitVec.toNat_ofNat]; omega)
  have eq1 : field word 0 16 = 0x10#16 := field_ofNat heq (by decide) (by simp only [BitVec.toNat_ofNat]; omega)
  have eq2 : field word 16 5 = a := field_ofNat heq (by decide) (by omega)
  have eq3 : field word 21 5 = d := field_ofNat heq (by decide) (by omega)
  exact decode_of (by rw [decodeFields_28 eqm]; simp [decodeMajor28, eq0, eq1, eq2, eq3]) rfl

theorem Encoding.kfirst (d : BitVec 5) (a : BitVec 5) : Encoding.Statement (.kfirst d a) := by
  intro word _ heq
  replace heq : BitVec.ofNat 32 (0xA0000014 + d.toNat * 0x200000 + a.toNat * 0x10000) = word := Option.some.inj heq
  have lt_d := d.isLt
  have lt_a := a.isLt
  have eqm : field word 26 6 = 0x28#6 := field_ofNat heq (by decide) (by simp only [BitVec.toNat_ofNat]; omega)
  have eq0 : field word 0 11 = 0x14#11 := field_ofNat heq (by decide) (by simp only [BitVec.toNat_ofNat]; omega)
  have eq1 : field word 0 16 = 0x14#16 := field_ofNat heq (by decide) (by simp only [BitVec.toNat_ofNat]; omega)
  have eq2 : field word 16 5 = a := field_ofNat heq (by decide) (by omega)
  have eq3 : field word 21 5 = d := field_ofNat heq (by decide) (by omega)
  exact decode_of (by rw [decodeFields_28 eqm]; simp [decodeMajor28, eq0, eq1, eq2, eq3]) rfl

theorem Encoding.kset (d : BitVec 5) (a : BitVec 5) : Encoding.Statement (.kset d a) := by
  intro word _ heq
  replace heq : BitVec.ofNat 32 (0xA0000018 + d.toNat * 0x200000 + a.toNat * 0x10000) = word := Option.some.inj heq
  have lt_d := d.isLt
  have lt_a := a.isLt
  have eqm : field word 26 6 = 0x28#6 := field_ofNat heq (by decide) (by simp only [BitVec.toNat_ofNat]; omega)
  have eq0 : field word 0 11 = 0x18#11 := field_ofNat heq (by decide) (by simp only [BitVec.toNat_ofNat]; omega)
  have eq1 : field word 0 16 = 0x18#16 := field_ofNat heq (by decide) (by simp only [BitVec.toNat_ofNat]; omega)
  have eq2 : field word 16 5 = a := field_ofNat heq (by decide) (by omega)
  have eq3 : field word 21 5 = d := field_ofNat heq (by decide) (by omega)
  exact decode_of (by rw [decodeFields_28 eqm]; simp [decodeMajor28, eq0, eq1, eq2, eq3]) rfl

theorem Encoding.kmov (d : BitVec 5) (a : BitVec 5) : Encoding.Statement (.kmov d a) := by
  intro word _ heq
  replace heq : BitVec.ofNat 32 (0xA000001C + d.toNat * 0x200000 + a.toNat * 0x10000) = word := Option.some.inj heq
  have lt_d := d.isLt
  have lt_a := a.isLt
  have eqm : field word 26 6 = 0x28#6 := field_ofNat heq (by decide) (by simp only [BitVec.toNat_ofNat]; omega)
  have eq0 : field word 0 11 = 0x1C#11 := field_ofNat heq (by decide) (by simp only [BitVec.toNat_ofNat]; omega)
  have eq1 : field word 0 16 = 0x1C#16 := field_ofNat heq (by decide) (by simp only [BitVec.toNat_ofNat]; omega)
  have eq2 : field word 16 5 = a := field_ofNat heq (by decide) (by omega)
  have eq3 : field word 21 5 = d := field_ofNat heq (by decide) (by omega)
  exact decode_of (by rw [decodeFields_28 eqm]; simp [decodeMajor28, eq0, eq1, eq2, eq3]) rfl

theorem Encoding.kmovX (d : BitVec 5) (a : BitVec 5) : Encoding.Statement (.kmovX d a) := by
  intro word _ heq
  replace heq : BitVec.ofNat 32 (0xA0000020 + d.toNat * 0x200000 + a.toNat * 0x10000) = word := Option.some.inj heq
  have lt_d := d.isLt
  have lt_a := a.isLt
  have eqm : field word 26 6 = 0x28#6 := field_ofNat heq (by decide) (by simp only [BitVec.toNat_ofNat]; omega)
  have eq0 : field word 0 11 = 0x20#11 := field_ofNat heq (by decide) (by simp only [BitVec.toNat_ofNat]; omega)
  have eq1 : field word 0 16 = 0x20#16 := field_ofNat heq (by decide) (by simp only [BitVec.toNat_ofNat]; omega)
  have eq2 : field word 16 5 = a := field_ofNat heq (by decide) (by omega)
  have eq3 : field word 21 5 = d := field_ofNat heq (by decide) (by omega)
  exact decode_of (by rw [decodeFields_28 eqm]; simp [decodeMajor28, eq0, eq1, eq2, eq3]) rfl

theorem Encoding.bkany (a : BitVec 5) (i : BitVec 16) : Encoding.Statement (.bkany a i) := by
  intro word _ heq
  replace heq : BitVec.ofNat 32 (0xA4000000 + a.toNat * 0x200000 + i.toNat) = word := Option.some.inj heq
  have lt_a := a.isLt
  have lt_i := i.isLt
  have eqm : field word 26 6 = 0x29#6 := field_ofNat heq (by decide) (by simp only [BitVec.toNat_ofNat]; omega)
  have eq0 : field word 0 16 = i := field_ofNat heq (by decide) (by omega)
  have eq1 : field word 16 5 = 0x0#5 := field_ofNat heq (by decide) (by simp only [BitVec.toNat_ofNat]; omega)
  have eq2 : field word 21 5 = a := field_ofNat heq (by decide) (by omega)
  exact decode_of (by rw [decodeFields_29 eqm]; simp [decodeMajor29, eq0, eq1, eq2]) rfl

theorem Encoding.bknone (a : BitVec 5) (i : BitVec 16) : Encoding.Statement (.bknone a i) := by
  intro word _ heq
  replace heq : BitVec.ofNat 32 (0xA4010000 + a.toNat * 0x200000 + i.toNat) = word := Option.some.inj heq
  have lt_a := a.isLt
  have lt_i := i.isLt
  have eqm : field word 26 6 = 0x29#6 := field_ofNat heq (by decide) (by simp only [BitVec.toNat_ofNat]; omega)
  have eq0 : field word 0 16 = i := field_ofNat heq (by decide) (by omega)
  have eq1 : field word 16 5 = 0x1#5 := field_ofNat heq (by decide) (by simp only [BitVec.toNat_ofNat]; omega)
  have eq2 : field word 21 5 = a := field_ofNat heq (by decide) (by omega)
  exact decode_of (by rw [decodeFields_29 eqm]; simp [decodeMajor29, eq0, eq1, eq2]) rfl

theorem Encoding.rep (d : BitVec 5) (a : BitVec 5) (b : BitVec 5) (c : BitVec 8) (l : BitVec 3) : Encoding.Statement (.rep d a b c l) := by
  intro word _ heq
  replace heq : BitVec.ofNat 32 (0xA8000000 + d.toNat * 0x200000 + a.toNat * 0x10000 + b.toNat * 0x800 + c.toNat * 0x8 + l.toNat) = word := Option.some.inj heq
  have lt_d := d.isLt
  have lt_a := a.isLt
  have lt_b := b.isLt
  have lt_c := c.isLt
  have lt_l := l.isLt
  have eqm : field word 26 6 = 0x2A#6 := field_ofNat heq (by decide) (by simp only [BitVec.toNat_ofNat]; omega)
  have eq0 : field word 0 3 = l := field_ofNat heq (by decide) (by omega)
  have eq1 : field word 3 8 = c := field_ofNat heq (by decide) (by omega)
  have eq2 : field word 11 5 = b := field_ofNat heq (by decide) (by omega)
  have eq3 : field word 16 5 = a := field_ofNat heq (by decide) (by omega)
  have eq4 : field word 21 5 = d := field_ofNat heq (by decide) (by omega)
  exact decode_of (by rw [decodeFields_2A eqm]; simp [decodeMajor2A, eq0, eq1, eq2, eq3, eq4]) rfl

theorem Encoding.mxldb (s : BitVec 5) (a : BitVec 5) (c : BitVec 5) (k : BitVec 4) (y : BitVec 4) : Encoding.Statement (.mxldb s a c k y) := by
  intro word hwf heq
  replace heq : BitVec.ofNat 32 (0xAC000000 + s.toNat * 0x200000 + a.toNat * 0x10000 + c.toNat * 0x800 + k.toNat * 0x10 + y.toNat) = word := Option.some.inj heq
  have lt_s := s.isLt
  have lt_a := a.isLt
  have lt_c := c.isLt
  have lt_k := k.isLt
  have lt_y := y.isLt
  have eqm : field word 26 6 = 0x2B#6 := field_ofNat heq (by decide) (by simp only [BitVec.toNat_ofNat]; omega)
  have eq0 : field word 0 4 = y := field_ofNat heq (by decide) (by omega)
  have eq1 : field word 4 4 = k := field_ofNat heq (by decide) (by omega)
  have eq2 : field word 8 3 = 0x0#3 := field_ofNat heq (by decide) (by simp only [BitVec.toNat_ofNat]; omega)
  have eq3 : field word 11 5 = c := field_ofNat heq (by decide) (by omega)
  have eq4 : field word 16 5 = a := field_ofNat heq (by decide) (by omega)
  have eq5 : field word 21 5 = s := field_ofNat heq (by decide) (by omega)
  exact decode_of (by rw [decodeFields_2B eqm]; simp [decodeMajor2B, eq0, eq1, eq2, eq3, eq4, eq5]) hwf

theorem Encoding.mxz (t : BitVec 5) (y : BitVec 1) : Encoding.Statement (.mxz t y) := by
  intro word _ heq
  replace heq : BitVec.ofNat 32 (0xB0000000 + t.toNat * 0x200000 + y.toNat) = word := Option.some.inj heq
  have lt_t := t.isLt
  have lt_y := y.isLt
  have eqm : field word 26 6 = 0x2C#6 := field_ofNat heq (by decide) (by simp only [BitVec.toNat_ofNat]; omega)
  have eq0 : field word 0 1 = y := field_ofNat heq (by decide) (by omega)
  have eq1 : field word 1 20 = 0x0#20 := field_ofNat heq (by decide) (by simp only [BitVec.toNat_ofNat]; omega)
  have eq2 : field word 21 5 = t := field_ofNat heq (by decide) (by omega)
  exact decode_of (by rw [decodeFields_2C eqm]; simp [decodeMajor2C, eq0, eq1, eq2]) rfl

theorem Encoding.mxlda (t : BitVec 5) (a : BitVec 5) (c : BitVec 5) (y : BitVec 1) : Encoding.Statement (.mxlda t a c y) := by
  intro word _ heq
  replace heq : BitVec.ofNat 32 (0xB0000400 + t.toNat * 0x200000 + a.toNat * 0x10000 + c.toNat * 0x800 + y.toNat) = word := Option.some.inj heq
  have lt_t := t.isLt
  have lt_a := a.isLt
  have lt_c := c.isLt
  have lt_y := y.isLt
  have eqm : field word 26 6 = 0x2C#6 := field_ofNat heq (by decide) (by simp only [BitVec.toNat_ofNat]; omega)
  have eq0 : field word 0 1 = y := field_ofNat heq (by decide) (by omega)
  have eq1 : field word 1 10 = 0x200#10 := field_ofNat heq (by decide) (by simp only [BitVec.toNat_ofNat]; omega)
  have eq2 : field word 11 5 = c := field_ofNat heq (by decide) (by omega)
  have eq3 : field word 16 5 = a := field_ofNat heq (by decide) (by omega)
  have eq4 : field word 21 5 = t := field_ofNat heq (by decide) (by omega)
  have ne0 : field word 1 20 ≠ 0x0#20 := field_ne heq (by decide) (by simp only [BitVec.toNat_ofNat]; omega)
  exact decode_of (by rw [decodeFields_2C eqm]; simp [decodeMajor2C, eq0, eq1, eq2, eq3, eq4, ne0]) rfl

theorem Encoding.mma (t : BitVec 5) (a : BitVec 5) (s : BitVec 5) (p : BitVec 6) (i : BitVec 1) (k : BitVec 4) : Encoding.Statement (.mma t a s p i k) := by
  intro word hwf heq
  replace heq : BitVec.ofNat 32 (0xB4000000 + t.toNat * 0x200000 + a.toNat * 0x10000 + s.toNat * 0x800 + p.toNat * 0x20 + i.toNat * 0x10 + k.toNat) = word := Option.some.inj heq
  have lt_t := t.isLt
  have lt_a := a.isLt
  have lt_s := s.isLt
  have lt_p := p.isLt
  have lt_i := i.isLt
  have lt_k := k.isLt
  have eqm : field word 26 6 = 0x2D#6 := field_ofNat heq (by decide) (by simp only [BitVec.toNat_ofNat]; omega)
  have eq0 : field word 0 4 = k := field_ofNat heq (by decide) (by omega)
  have eq1 : field word 4 1 = i := field_ofNat heq (by decide) (by omega)
  have eq2 : field word 5 6 = p := field_ofNat heq (by decide) (by omega)
  have eq3 : field word 11 5 = s := field_ofNat heq (by decide) (by omega)
  have eq4 : field word 16 5 = a := field_ofNat heq (by decide) (by omega)
  have eq5 : field word 21 5 = t := field_ofNat heq (by decide) (by omega)
  exact decode_of (by rw [decodeFields_2D eqm]; simp [decodeMajor2D, eq0, eq1, eq2, eq3, eq4, eq5]) hwf

theorem Encoding.mxst (t : BitVec 5) (a : BitVec 5) (c : BitVec 5) (b : BitVec 4) (e : BitVec 1) (o : BitVec 3) (g : BitVec 2) : Encoding.Statement (.mxst t a c b e o g) := by
  intro word hwf heq
  replace heq : BitVec.ofNat 32 (0xB8000000 + t.toNat * 0x200000 + a.toNat * 0x10000 + c.toNat * 0x800 + b.toNat * 0x80 + e.toNat * 0x40 + o.toNat * 0x8 + g.toNat * 0x2) = word := Option.some.inj heq
  have lt_t := t.isLt
  have lt_a := a.isLt
  have lt_c := c.isLt
  have lt_b := b.isLt
  have lt_e := e.isLt
  have lt_o := o.isLt
  have lt_g := g.isLt
  have eqm : field word 26 6 = 0x2E#6 := field_ofNat heq (by decide) (by simp only [BitVec.toNat_ofNat]; omega)
  have eq0 : field word 0 1 = 0x0#1 := field_ofNat heq (by decide) (by simp only [BitVec.toNat_ofNat]; omega)
  have eq1 : field word 1 2 = g := field_ofNat heq (by decide) (by omega)
  have eq2 : field word 3 3 = o := field_ofNat heq (by decide) (by omega)
  have eq3 : field word 6 1 = e := field_ofNat heq (by decide) (by omega)
  have eq4 : field word 7 4 = b := field_ofNat heq (by decide) (by omega)
  have eq5 : field word 11 5 = c := field_ofNat heq (by decide) (by omega)
  have eq6 : field word 16 5 = a := field_ofNat heq (by decide) (by omega)
  have eq7 : field word 21 5 = t := field_ofNat heq (by decide) (by omega)
  exact decode_of (by rw [decodeFields_2E eqm]; simp [decodeMajor2E, eq0, eq1, eq2, eq3, eq4, eq5, eq6, eq7]) hwf

theorem Encoding.scmc (e : BitVec 5) (s : BitVec 5) (m : BitVec 5) (n : BitVec 4) : Encoding.Statement (.scmc e s m n) := by
  intro word _ heq
  replace heq : BitVec.ofNat 32 (0xBC000000 + e.toNat * 0x200000 + s.toNat * 0x10000 + m.toNat * 0x800 + n.toNat) = word := Option.some.inj heq
  have lt_e := e.isLt
  have lt_s := s.isLt
  have lt_m := m.isLt
  have lt_n := n.isLt
  have eqm : field word 26 6 = 0x2F#6 := field_ofNat heq (by decide) (by simp only [BitVec.toNat_ofNat]; omega)
  have eq0 : field word 0 4 = n := field_ofNat heq (by decide) (by omega)
  have eq1 : field word 4 7 = 0x0#7 := field_ofNat heq (by decide) (by simp only [BitVec.toNat_ofNat]; omega)
  have eq2 : field word 11 5 = m := field_ofNat heq (by decide) (by omega)
  have eq3 : field word 16 5 = s := field_ofNat heq (by decide) (by omega)
  have eq4 : field word 21 5 = e := field_ofNat heq (by decide) (by omega)
  exact decode_of (by rw [decodeFields_2F eqm]; simp [decodeMajor2F, eq0, eq1, eq2, eq3, eq4]) rfl

theorem Encoding.mxpass (p : BitVec 5) (n : BitVec 1) : Encoding.Statement (.mxpass p n) := by
  intro word _ heq
  replace heq : BitVec.ofNat 32 (0xC0000000 + p.toNat * 0x200000 + n.toNat) = word := Option.some.inj heq
  have lt_p := p.isLt
  have lt_n := n.isLt
  have eqm : field word 26 6 = 0x30#6 := field_ofNat heq (by decide) (by simp only [BitVec.toNat_ofNat]; omega)
  have eq0 : field word 0 1 = n := field_ofNat heq (by decide) (by omega)
  have eq1 : field word 1 20 = 0x0#20 := field_ofNat heq (by decide) (by simp only [BitVec.toNat_ofNat]; omega)
  have eq2 : field word 21 5 = p := field_ofNat heq (by decide) (by omega)
  exact decode_of (by rw [decodeFields_30 eqm]; simp [decodeMajor30, eq0, eq1, eq2]) rfl

theorem Encoding.mxqT (d : BitVec 5) (t : BitVec 5) : Encoding.Statement (.mxqT d t) := by
  intro word _ heq
  replace heq : BitVec.ofNat 32 (0xC0000200 + d.toNat * 0x200000 + t.toNat * 0x10000) = word := Option.some.inj heq
  have lt_d := d.isLt
  have lt_t := t.isLt
  have eqm : field word 26 6 = 0x30#6 := field_ofNat heq (by decide) (by simp only [BitVec.toNat_ofNat]; omega)
  have eq0 : field word 0 16 = 0x200#16 := field_ofNat heq (by decide) (by simp only [BitVec.toNat_ofNat]; omega)
  have eq1 : field word 16 5 = t := field_ofNat heq (by decide) (by omega)
  have eq2 : field word 21 5 = d := field_ofNat heq (by decide) (by omega)
  have ne0 : field word 1 20 ≠ 0x0#20 := field_ne heq (by decide) (by simp only [BitVec.toNat_ofNat]; omega)
  exact decode_of (by rw [decodeFields_30 eqm]; simp [decodeMajor30, eq0, eq1, eq2, ne0]) rfl

theorem Encoding.mxqS (d : BitVec 5) (a : BitVec 5) : Encoding.Statement (.mxqS d a) := by
  intro word _ heq
  replace heq : BitVec.ofNat 32 (0xC0000400 + d.toNat * 0x200000 + a.toNat * 0x10000) = word := Option.some.inj heq
  have lt_d := d.isLt
  have lt_a := a.isLt
  have eqm : field word 26 6 = 0x30#6 := field_ofNat heq (by decide) (by simp only [BitVec.toNat_ofNat]; omega)
  have eq0 : field word 0 16 = 0x400#16 := field_ofNat heq (by decide) (by simp only [BitVec.toNat_ofNat]; omega)
  have eq1 : field word 16 5 = a := field_ofNat heq (by decide) (by omega)
  have eq2 : field word 21 5 = d := field_ofNat heq (by decide) (by omega)
  have ne0 : field word 1 20 ≠ 0x0#20 := field_ne heq (by decide) (by simp only [BitVec.toNat_ofNat]; omega)
  exact decode_of (by rw [decodeFields_30 eqm]; simp [decodeMajor30, eq0, eq1, eq2, ne0]) rfl

theorem Encoding.couple (d : BitVec 5) (a : BitVec 5) (c : BitVec 6) : Encoding.Statement (.couple d a c) := by
  intro word _ heq
  replace heq : BitVec.ofNat 32 (0xC4000000 + d.toNat * 0x200000 + a.toNat * 0x10000 + c.toNat) = word := Option.some.inj heq
  have lt_d := d.isLt
  have lt_a := a.isLt
  have lt_c := c.isLt
  have eqm : field word 26 6 = 0x31#6 := field_ofNat heq (by decide) (by simp only [BitVec.toNat_ofNat]; omega)
  have eq0 : field word 0 6 = c := field_ofNat heq (by decide) (by omega)
  have eq1 : field word 6 10 = 0x0#10 := field_ofNat heq (by decide) (by simp only [BitVec.toNat_ofNat]; omega)
  have eq2 : field word 16 5 = a := field_ofNat heq (by decide) (by omega)
  have eq3 : field word 21 5 = d := field_ofNat heq (by decide) (by omega)
  exact decode_of (by rw [decodeFields_31 eqm]; simp [decodeMajor31, eq0, eq1, eq2, eq3]) rfl

theorem Encoding.uncouple (d : BitVec 5) (a : BitVec 5) (c : BitVec 6) : Encoding.Statement (.uncouple d a c) := by
  intro word _ heq
  replace heq : BitVec.ofNat 32 (0xC4001000 + d.toNat * 0x200000 + a.toNat * 0x10000 + c.toNat) = word := Option.some.inj heq
  have lt_d := d.isLt
  have lt_a := a.isLt
  have lt_c := c.isLt
  have eqm : field word 26 6 = 0x31#6 := field_ofNat heq (by decide) (by simp only [BitVec.toNat_ofNat]; omega)
  have eq0 : field word 0 6 = c := field_ofNat heq (by decide) (by omega)
  have eq1 : field word 6 10 = 0x40#10 := field_ofNat heq (by decide) (by simp only [BitVec.toNat_ofNat]; omega)
  have eq2 : field word 16 5 = a := field_ofNat heq (by decide) (by omega)
  have eq3 : field word 21 5 = d := field_ofNat heq (by decide) (by omega)
  exact decode_of (by rw [decodeFields_31 eqm]; simp [decodeMajor31, eq0, eq1, eq2, eq3]) rfl

theorem Encoding.cquery (d : BitVec 5) (g : BitVec 1) (c : BitVec 6) : Encoding.Statement (.cquery d g c) := by
  intro word _ heq
  replace heq : BitVec.ofNat 32 (0xC4002000 + d.toNat * 0x200000 + g.toNat * 0x40 + c.toNat) = word := Option.some.inj heq
  have lt_d := d.isLt
  have lt_g := g.isLt
  have lt_c := c.isLt
  have eqm : field word 26 6 = 0x31#6 := field_ofNat heq (by decide) (by simp only [BitVec.toNat_ofNat]; omega)
  have eq0 : field word 0 6 = c := field_ofNat heq (by decide) (by omega)
  have eq1 : field word 6 1 = g := field_ofNat heq (by decide) (by omega)
  have eq2 : field word 7 14 = 0x40#14 := field_ofNat heq (by decide) (by simp only [BitVec.toNat_ofNat]; omega)
  have eq3 : field word 21 5 = d := field_ofNat heq (by decide) (by omega)
  have ne0 : field word 6 10 ≠ 0x0#10 := field_ne heq (by decide) (by simp only [BitVec.toNat_ofNat]; omega)
  have ne1 : field word 6 10 ≠ 0x40#10 := field_ne heq (by decide) (by simp only [BitVec.toNat_ofNat]; omega)
  exact decode_of (by rw [decodeFields_31 eqm]; simp [decodeMajor31, eq0, eq1, eq2, eq3, ne0, ne1]) rfl

theorem Encoding.csync : Encoding.Statement (.csync) := by
  intro word _ heq
  replace heq : BitVec.ofNat 32 (0xC4003000) = word := Option.some.inj heq
  have eqm : field word 26 6 = 0x31#6 := field_ofNat heq (by decide) (by simp only [BitVec.toNat_ofNat]; omega)
  have eq0 : field word 0 26 = 0x3000#26 := field_ofNat heq (by decide) (by simp only [BitVec.toNat_ofNat]; omega)
  have eq1 : field word 6 10 = 0xC0#10 := field_ofNat heq (by decide) (by simp only [BitVec.toNat_ofNat]; omega)
  have eq2 : field word 7 14 = 0x60#14 := field_ofNat heq (by decide) (by simp only [BitVec.toNat_ofNat]; omega)
  exact decode_of (by rw [decodeFields_31 eqm]; simp [decodeMajor31, eq0, eq1, eq2]) rfl

theorem Encoding.pageq (d : BitVec 5) (a : BitVec 5) : Encoding.Statement (.pageq d a) := by
  intro word _ heq
  replace heq : BitVec.ofNat 32 (0xC8000000 + d.toNat * 0x200000 + a.toNat * 0x10000) = word := Option.some.inj heq
  have lt_d := d.isLt
  have lt_a := a.isLt
  have eqm : field word 26 6 = 0x32#6 := field_ofNat heq (by decide) (by simp only [BitVec.toNat_ofNat]; omega)
  have eq0 : field word 0 16 = 0x0#16 := field_ofNat heq (by decide) (by simp only [BitVec.toNat_ofNat]; omega)
  have eq1 : field word 16 5 = a := field_ofNat heq (by decide) (by omega)
  have eq2 : field word 21 5 = d := field_ofNat heq (by decide) (by omega)
  exact decode_of (by rw [decodeFields_32 eqm]; simp [decodeMajor32, eq0, eq1, eq2]) rfl

theorem Encoding.pageqH (d : BitVec 5) (a : BitVec 5) : Encoding.Statement (.pageqH d a) := by
  intro word _ heq
  replace heq : BitVec.ofNat 32 (0xC8001000 + d.toNat * 0x200000 + a.toNat * 0x10000) = word := Option.some.inj heq
  have lt_d := d.isLt
  have lt_a := a.isLt
  have eqm : field word 26 6 = 0x32#6 := field_ofNat heq (by decide) (by simp only [BitVec.toNat_ofNat]; omega)
  have eq0 : field word 0 16 = 0x1000#16 := field_ofNat heq (by decide) (by simp only [BitVec.toNat_ofNat]; omega)
  have eq1 : field word 16 5 = a := field_ofNat heq (by decide) (by omega)
  have eq2 : field word 21 5 = d := field_ofNat heq (by decide) (by omega)
  exact decode_of (by rw [decodeFields_32 eqm]; simp [decodeMajor32, eq0, eq1, eq2]) rfl

theorem Encoding.csrr (d : BitVec 5) (c : BitVec 12) : Encoding.Statement (.csrr d c) := by
  intro word hwf heq
  replace heq : BitVec.ofNat 32 (0xCC000000 + d.toNat * 0x200000 + c.toNat) = word := Option.some.inj heq
  have lt_d := d.isLt
  have lt_c := c.isLt
  have eqm : field word 26 6 = 0x33#6 := field_ofNat heq (by decide) (by simp only [BitVec.toNat_ofNat]; omega)
  have eq0 : field word 0 12 = c := field_ofNat heq (by decide) (by omega)
  have eq1 : field word 12 9 = 0x0#9 := field_ofNat heq (by decide) (by simp only [BitVec.toNat_ofNat]; omega)
  have eq2 : field word 21 5 = d := field_ofNat heq (by decide) (by omega)
  exact decode_of (by rw [decodeFields_33 eqm]; simp [decodeMajor33, eq0, eq1, eq2]) hwf

theorem Encoding.csrw (a : BitVec 5) (c : BitVec 12) : Encoding.Statement (.csrw a c) := by
  intro word hwf heq
  replace heq : BitVec.ofNat 32 (0xCC001000 + a.toNat * 0x10000 + c.toNat) = word := Option.some.inj heq
  have lt_a := a.isLt
  have lt_c := c.isLt
  have eqm : field word 26 6 = 0x33#6 := field_ofNat heq (by decide) (by simp only [BitVec.toNat_ofNat]; omega)
  have eq0 : field word 0 12 = c := field_ofNat heq (by decide) (by omega)
  have eq1 : field word 12 4 = 0x1#4 := field_ofNat heq (by decide) (by simp only [BitVec.toNat_ofNat]; omega)
  have eq2 : field word 16 5 = a := field_ofNat heq (by decide) (by omega)
  have eq3 : field word 21 5 = 0x0#5 := field_ofNat heq (by decide) (by simp only [BitVec.toNat_ofNat]; omega)
  have ne0 : field word 12 9 ≠ 0x0#9 := field_ne heq (by decide) (by simp only [BitVec.toNat_ofNat]; omega)
  exact decode_of (by rw [decodeFields_33 eqm]; simp [decodeMajor33, eq0, eq1, eq2, eq3, ne0]) hwf

theorem Encoding.trap (d : BitVec 5) (a : BitVec 5) (n : BitVec 12) : Encoding.Statement (.trap d a n) := by
  intro word _ heq
  replace heq : BitVec.ofNat 32 (0xD0000000 + d.toNat * 0x200000 + a.toNat * 0x10000 + n.toNat) = word := Option.some.inj heq
  have lt_d := d.isLt
  have lt_a := a.isLt
  have lt_n := n.isLt
  have eqm : field word 26 6 = 0x34#6 := field_ofNat heq (by decide) (by simp only [BitVec.toNat_ofNat]; omega)
  have eq0 : field word 0 12 = n := field_ofNat heq (by decide) (by omega)
  have eq1 : field word 12 4 = 0x0#4 := field_ofNat heq (by decide) (by simp only [BitVec.toNat_ofNat]; omega)
  have eq2 : field word 16 5 = a := field_ofNat heq (by decide) (by omega)
  have eq3 : field word 21 5 = d := field_ofNat heq (by decide) (by omega)
  exact decode_of (by rw [decodeFields_34 eqm]; simp [decodeMajor34, eq0, eq1, eq2, eq3]) rfl

theorem Encoding.brk (n : BitVec 12) : Encoding.Statement (.brk n) := by
  intro word _ heq
  replace heq : BitVec.ofNat 32 (0xD0001000 + n.toNat) = word := Option.some.inj heq
  have lt_n := n.isLt
  have eqm : field word 26 6 = 0x34#6 := field_ofNat heq (by decide) (by simp only [BitVec.toNat_ofNat]; omega)
  have eq0 : field word 0 12 = n := field_ofNat heq (by decide) (by omega)
  have eq1 : field word 12 4 = 0x1#4 := field_ofNat heq (by decide) (by simp only [BitVec.toNat_ofNat]; omega)
  have eq2 : field word 12 14 = 0x1#14 := field_ofNat heq (by decide) (by simp only [BitVec.toNat_ofNat]; omega)
  exact decode_of (by rw [decodeFields_34 eqm]; simp [decodeMajor34, eq0, eq1, eq2]) rfl

theorem Encoding.hnop : Encoding.Statement (.hnop) := by
  intro word _ heq
  replace heq : BitVec.ofNat 32 (0xFC000000) = word := Option.some.inj heq
  have eqm : field word 26 6 = 0x3F#6 := field_ofNat heq (by decide) (by simp only [BitVec.toNat_ofNat]; omega)
  have eq0 : field word 0 26 = 0x0#26 := field_ofNat heq (by decide) (by simp only [BitVec.toNat_ofNat]; omega)
  exact decode_of (by rw [decodeFields_3F eqm]; simp [decodeMajor3F, eq0]) rfl

theorem Encoding.ext (p : BitVec 22) : Encoding.Statement (.ext p) := by
  intro word _ heq
  replace heq : BitVec.ofNat 32 (0xFC400000 + p.toNat) = word := Option.some.inj heq
  have lt_p := p.isLt
  have eqm : field word 26 6 = 0x3F#6 := field_ofNat heq (by decide) (by simp only [BitVec.toNat_ofNat]; omega)
  have eq0 : field word 0 22 = p := field_ofNat heq (by decide) (by omega)
  have eq1 : field word 22 4 = 0x1#4 := field_ofNat heq (by decide) (by simp only [BitVec.toNat_ofNat]; omega)
  have ne0 : field word 0 26 ≠ 0x0#26 := field_ne heq (by decide) (by simp only [BitVec.toNat_ofNat]; omega)
  exact decode_of (by rw [decodeFields_3F eqm]; simp [decodeMajor3F, eq0, eq1, ne0]) rfl

theorem Encoding.mod (b : BitVec 1) (s : BitVec 1) (r : BitVec 3) : Encoding.Statement (.mod b s r) := by
  intro word hwf heq
  replace heq : BitVec.ofNat 32 (0xFC800000 + b.toNat * 0x10 + s.toNat * 0x8 + r.toNat) = word := Option.some.inj heq
  have lt_b := b.isLt
  have lt_s := s.isLt
  have lt_r := r.isLt
  have eqm : field word 26 6 = 0x3F#6 := field_ofNat heq (by decide) (by simp only [BitVec.toNat_ofNat]; omega)
  have eq0 : field word 0 3 = r := field_ofNat heq (by decide) (by omega)
  have eq1 : field word 3 1 = s := field_ofNat heq (by decide) (by omega)
  have eq2 : field word 4 1 = b := field_ofNat heq (by decide) (by omega)
  have eq3 : field word 5 21 = 0x40000#21 := field_ofNat heq (by decide) (by simp only [BitVec.toNat_ofNat]; omega)
  have eq4 : field word 22 4 = 0x2#4 := field_ofNat heq (by decide) (by simp only [BitVec.toNat_ofNat]; omega)
  have ne0 : field word 0 26 ≠ 0x0#26 := field_ne heq (by decide) (by simp only [BitVec.toNat_ofNat]; omega)
  exact decode_of (by rw [decodeFields_3F eqm]; simp [decodeMajor3F, eq0, eq1, eq2, eq3, eq4, ne0]) hwf

theorem Encoding.sched (s : BitVec 1) (d : BitVec 6) : Encoding.Statement (.sched s d) := by
  intro word _ heq
  replace heq : BitVec.ofNat 32 (0xFCC00000 + s.toNat * 0x40 + d.toNat) = word := Option.some.inj heq
  have lt_s := s.isLt
  have lt_d := d.isLt
  have eqm : field word 26 6 = 0x3F#6 := field_ofNat heq (by decide) (by simp only [BitVec.toNat_ofNat]; omega)
  have eq0 : field word 0 6 = d := field_ofNat heq (by decide) (by omega)
  have eq1 : field word 6 1 = s := field_ofNat heq (by decide) (by omega)
  have eq2 : field word 7 19 = 0x18000#19 := field_ofNat heq (by decide) (by simp only [BitVec.toNat_ofNat]; omega)
  have eq3 : field word 22 4 = 0x3#4 := field_ofNat heq (by decide) (by simp only [BitVec.toNat_ofNat]; omega)
  have ne0 : field word 0 26 ≠ 0x0#26 := field_ne heq (by decide) (by simp only [BitVec.toNat_ofNat]; omega)
  have ne1 : field word 5 21 ≠ 0x40000#21 := field_ne heq (by decide) (by simp only [BitVec.toNat_ofNat]; omega)
  exact decode_of (by rw [decodeFields_3F eqm]; simp [decodeMajor3F, eq0, eq1, eq2, eq3, ne0, ne1]) rfl

theorem Encoding.watchdog : Encoding.Statement .watchdog := nofun
theorem Encoding.witnessVerdict : Encoding.Statement .witnessVerdict := nofun
theorem Encoding.streakLimit : Encoding.Statement .streakLimit := nofun
theorem Encoding.quarantineMove : Encoding.Statement .quarantineMove := nofun
theorem Encoding.uncorrectableError : Encoding.Statement .uncorrectableError := nofun
theorem Encoding.correctedError : Encoding.Statement .correctedError := nofun
theorem Encoding.triggerDelivery : Encoding.Statement .triggerDelivery := nofun
theorem Encoding.heldWriteArrival : Encoding.Statement .heldWriteArrival := nofun
theorem Encoding.releaseEnqueuePush : Encoding.Statement .releaseEnqueuePush := nofun
theorem Encoding.frameDrainEnd : Encoding.Statement .frameDrainEnd := nofun
theorem Encoding.homeStore : Encoding.Statement .homeStore := nofun
theorem Encoding.dropReceived : Encoding.Statement .dropReceived := nofun
theorem Encoding.storePerformed : Encoding.Statement .storePerformed := nofun
theorem Encoding.loadFill : Encoding.Statement .loadFill := nofun
theorem Encoding.atomicExecute : Encoding.Statement .atomicExecute := nofun
theorem Encoding.barrierUpdate : Encoding.Statement .barrierUpdate := nofun
theorem Encoding.handleArrival : Encoding.Statement .handleArrival := nofun
theorem Encoding.engineKick : Encoding.Statement .engineKick := nofun
theorem Encoding.copyAppend : Encoding.Statement .copyAppend := nofun
theorem Encoding.copyPacketExecute : Encoding.Statement .copyPacketExecute := nofun
theorem Encoding.copyCompletion : Encoding.Statement .copyCompletion := nofun
theorem Encoding.completionRecordWrite : Encoding.Statement .completionRecordWrite := nofun
theorem Encoding.engineHartFault : Encoding.Statement .engineHartFault := nofun
theorem Encoding.engineQuantum : Encoding.Statement .engineQuantum := nofun
theorem Encoding.microcodeLoad : Encoding.Statement .microcodeLoad := nofun
theorem Encoding.arrayCommandExecute : Encoding.Statement .arrayCommandExecute := nofun
theorem Encoding.mmaStep : Encoding.Statement .mmaStep := nofun
theorem Encoding.leaseEnd : Encoding.Statement .leaseEnd := nofun
theorem Encoding.scaleDelivery : Encoding.Statement .scaleDelivery := nofun
theorem Encoding.scaleFileApply : Encoding.Statement .scaleFileApply := nofun
theorem Encoding.passExecute : Encoding.Statement .passExecute := nofun
theorem Encoding.passComplete : Encoding.Statement .passComplete := nofun
theorem Encoding.raiseEvent : Encoding.Statement .raiseEvent := nofun
theorem Encoding.eventUnqueue : Encoding.Statement .eventUnqueue := nofun
theorem Encoding.version : Encoding.Statement .version := nofun
theorem Encoding.linkState : Encoding.Statement .linkState := nofun
theorem Encoding.temperature : Encoding.Statement .temperature := nofun
theorem Encoding.power : Encoding.Statement .power := nofun
theorem Encoding.errlogCount : Encoding.Statement .errlogCount := nofun
theorem Encoding.stepEnter : Encoding.Statement .stepEnter := nofun
theorem Encoding.stepDone : Encoding.Statement .stepDone := nofun
theorem Encoding.groupUpdate : Encoding.Statement .groupUpdate := nofun
theorem Encoding.issueInstance : Encoding.Statement .issueInstance := nofun
theorem Encoding.releaseAccept : Encoding.Statement .releaseAccept := nofun
theorem Encoding.releaseResend : Encoding.Statement .releaseResend := nofun
theorem Encoding.releaseForward : Encoding.Statement .releaseForward := nofun
theorem Encoding.holdEnd : Encoding.Statement .holdEnd := nofun
theorem Encoding.create : Encoding.Statement .create := nofun
theorem Encoding.arm : Encoding.Statement .arm := nofun
theorem Encoding.activate : Encoding.Statement .activate := nofun
theorem Encoding.quiesce : Encoding.Statement .quiesce := nofun
theorem Encoding.freeze : Encoding.Statement .freeze := nofun
theorem Encoding.thaw : Encoding.Statement .thaw := nofun
theorem Encoding.destroy : Encoding.Statement .destroy := nofun
theorem Encoding.contextCommandInvalid : Encoding.Statement .contextCommandInvalid := nofun
theorem Encoding.contextFieldWrite : Encoding.Statement .contextFieldWrite := nofun
theorem Encoding.quiesceDrainDone : Encoding.Statement .quiesceDrainDone := nofun
theorem Encoding.freezeComplete : Encoding.Statement .freezeComplete := nofun
theorem Encoding.scrubDone : Encoding.Statement .scrubDone := nofun
theorem Encoding.functionLevelReset : Encoding.Statement .functionLevelReset := nofun
theorem Encoding.kernelDrainEnd : Encoding.Statement .kernelDrainEnd := nofun
theorem Encoding.queueNotify : Encoding.Statement .queueNotify := nofun
theorem Encoding.queueEnable : Encoding.Statement .queueEnable := nofun
theorem Encoding.queueTeardown : Encoding.Statement .queueTeardown := nofun
theorem Encoding.pasidInvalidate : Encoding.Statement .pasidInvalidate := nofun
theorem Encoding.lastFetchReturn : Encoding.Statement .lastFetchReturn := nofun
theorem Encoding.mapperBind : Encoding.Statement .mapperBind := nofun
theorem Encoding.mapperUnbind : Encoding.Statement .mapperUnbind := nofun
theorem Encoding.nop : Encoding.Statement .nop := nofun
theorem Encoding.launchTask : Encoding.Statement .launchTask := nofun
theorem Encoding.launchGroup : Encoding.Statement .launchGroup := nofun
theorem Encoding.queueCopy : Encoding.Statement .queueCopy := nofun
theorem Encoding.signalStore : Encoding.Statement .signalStore := nofun
theorem Encoding.signalAdd : Encoding.Statement .signalAdd := nofun
theorem Encoding.signalTrigger : Encoding.Statement .signalTrigger := nofun
theorem Encoding.wait : Encoding.Statement .wait := nofun
theorem Encoding.waitTimeout : Encoding.Statement .waitTimeout := nofun
theorem Encoding.skipIf : Encoding.Statement .skipIf := nofun
theorem Encoding.jump : Encoding.Statement .jump := nofun
theorem Encoding.call : Encoding.Statement .call := nofun
theorem Encoding.returnList : Encoding.Statement .returnList := nofun
theorem Encoding.armTrigger : Encoding.Statement .armTrigger := nofun
theorem Encoding.snapshotCut : Encoding.Statement .snapshotCut := nofun
theorem Encoding.registerKernel : Encoding.Statement .registerKernel := nofun
theorem Encoding.setCeilings : Encoding.Statement .setCeilings := nofun
theorem Encoding.unmap : Encoding.Statement .unmap := nofun
theorem Encoding.protect : Encoding.Statement .protect := nofun
theorem Encoding.migrate : Encoding.Statement .migrate := nofun
theorem Encoding.invalidateAck : Encoding.Statement .invalidateAck := nofun
theorem Encoding.migrateCopyDone : Encoding.Statement .migrateCopyDone := nofun
theorem Encoding.tlbMiss : Encoding.Statement .tlbMiss := nofun
theorem Encoding.walkComplete : Encoding.Statement .walkComplete := nofun
theorem Encoding.parkRepair : Encoding.Statement .parkRepair := nofun
theorem Encoding.unitPoison : Encoding.Statement .unitPoison := nofun
theorem Encoding.faultQueueResend : Encoding.Statement .faultQueueResend := nofun
theorem Encoding.cowCopyDone : Encoding.Statement .cowCopyDone := nofun
theorem Encoding.consistCreate : Encoding.Statement .consistCreate := nofun
theorem Encoding.consistDestroy : Encoding.Statement .consistDestroy := nofun
theorem Encoding.chainApply : Encoding.Statement .chainApply := nofun
theorem Encoding.chainAck : Encoding.Statement .chainAck := nofun
theorem Encoding.tailQuery : Encoding.Statement .tailQuery := nofun
theorem Encoding.coupleCopyDone : Encoding.Statement .coupleCopyDone := nofun
theorem Encoding.coupleStreamDone : Encoding.Statement .coupleStreamDone := nofun
theorem Encoding.uncoupleDone : Encoding.Statement .uncoupleDone := nofun
theorem Encoding.memberFail : Encoding.Statement .memberFail := nofun
theorem Encoding.flitSend : Encoding.Statement .flitSend := nofun
theorem Encoding.flitReceive : Encoding.Statement .flitReceive := nofun
theorem Encoding.replayTimeout : Encoding.Statement .replayTimeout := nofun
theorem Encoding.nakPendingExpiry : Encoding.Statement .nakPendingExpiry := nofun
theorem Encoding.messageIngress : Encoding.Statement .messageIngress := nofun
theorem Encoding.bounceResend : Encoding.Statement .bounceResend := nofun
theorem Encoding.lctlRate : Encoding.Statement .lctlRate := nofun
theorem Encoding.lctlRetrain : Encoding.Statement .lctlRetrain := nofun
theorem Encoding.lctlClr : Encoding.Statement .lctlClr := nofun
theorem Encoding.lctlPin : Encoding.Statement .lctlPin := nofun
theorem Encoding.linjLaneArm : Encoding.Statement .linjLaneArm := nofun
theorem Encoding.linjCrcArm : Encoding.Statement .linjCrcArm := nofun
theorem Encoding.laneRetire : Encoding.Statement .laneRetire := nofun
theorem Encoding.retrainDone : Encoding.Statement .retrainDone := nofun
theorem Encoding.replayWindow : Encoding.Statement .replayWindow := nofun
theorem Encoding.flitReplayLimit : Encoding.Statement .flitReplayLimit := nofun
theorem Encoding.peerIngress : Encoding.Statement .peerIngress := nofun
theorem Encoding.proxyAtomic : Encoding.Statement .proxyAtomic := nofun
theorem Encoding.remoteTimeout : Encoding.Statement .remoteTimeout := nofun
theorem Encoding.stationFail : Encoding.Statement .stationFail := nofun
theorem Encoding.snapshotCutTaken : Encoding.Statement .snapshotCutTaken := nofun
theorem Encoding.drainUnit : Encoding.Statement .drainUnit := nofun
theorem Encoding.snapshotDone : Encoding.Statement .snapshotDone := nofun
theorem Encoding.moduleReset : Encoding.Statement .moduleReset := nofun
theorem Encoding.bootStage : Encoding.Statement .bootStage := nofun
theorem Encoding.spdmRequest : Encoding.Statement .spdmRequest := nofun
theorem Encoding.featCommit : Encoding.Statement .featCommit := nofun
theorem Encoding.scaleReq : Encoding.Statement .scaleReq := nofun
theorem Encoding.pwrLimit : Encoding.Statement .pwrLimit := nofun
theorem Encoding.powerWindow : Encoding.Statement .powerWindow := nofun
theorem Encoding.errorRateThreshold : Encoding.Statement .errorRateThreshold := nofun
theorem Encoding.fwStage : Encoding.Statement .fwStage := nofun
theorem Encoding.fwCommit : Encoding.Statement .fwCommit := nofun
theorem Encoding.fwAbort : Encoding.Statement .fwAbort := nofun
theorem Encoding.mailboxesEmpty : Encoding.Statement .mailboxesEmpty := nofun
theorem Encoding.complexFailover : Encoding.Statement .complexFailover := nofun
theorem Encoding.diagnosticsDone : Encoding.Statement .diagnosticsDone := nofun
theorem Encoding.unitRetire : Encoding.Statement .unitRetire := nofun
theorem Encoding.registerWrite : Encoding.Statement .registerWrite := nofun
theorem Encoding.illegalInstruction : Encoding.Statement .illegalInstruction := nofun
theorem Encoding.fetchBound : Encoding.Statement .fetchBound := nofun
theorem Encoding.thawRestoreDone : Encoding.Statement .thawRestoreDone := nofun
theorem Encoding.ackControlFlit : Encoding.Statement .ackControlFlit := nofun
theorem Encoding.remoteAcknowledgement : Encoding.Statement .remoteAcknowledgement := nofun
theorem Encoding.stationReturn : Encoding.Statement .stationReturn := nofun
theorem Encoding.undervoltStep : Encoding.Statement .undervoltStep := nofun
theorem Encoding.memoryUncorrectableError : Encoding.Statement .memoryUncorrectableError := nofun

end Sys2Proof.Laws
end

