-- ==== Sys2Proof/Laws/Words.lean ====
section
/-! SUPPORT. Every word is a task's or an agent's: on a bogie it runs behind the checks of its prefix and fields (R60), and on an engine
hart behind those of engine mode (R234). One lemma per constructor. -/

set_option Elab.async false

namespace Sys2Proof.Machine

/-- The word is of one of the two shapes of Machine/Exec.lean. -/
def WordShape (i : Instr) : Prop :=
  ∀ s, (∃ body, exec i s = taskWord i body s) ∨ ∃ body hbody, exec i s = agentWord i body hbody s

theorem WordShape.task {i : Instr} {s : State} {r : Host.Outcome State Fault Refusal} (body : State → Nat → Bogie → Frame → Except Stop BRes)
    (h : r = taskWord i body s) : (∃ body, r = taskWord i body s) ∨ ∃ body hbody, r = agentWord i body hbody s := .inl ⟨_, h⟩

theorem WordShape.agent {i : Instr} {s : State} {r : Host.Outcome State Fault Refusal} (body : State → Nat → Bogie → Frame → Except Stop BRes)
    (hbody : State → Nat → Nat → Except Stop State) (h : r = agentWord i body hbody s) :
    (∃ body, r = taskWord i body s) ∨ ∃ body hbody, r = agentWord i body hbody s := .inr ⟨_, _, h⟩

theorem shape_ill (x_i : BitVec 26) : WordShape (.ill x_i) := by
  intro s; apply WordShape.agent; show execIll x_i s = _; unfold execIll scalarWord; exact rfl
theorem shape_add (x_d : BitVec 5) (x_a : BitVec 5) (x_b : BitVec 5) : WordShape (.add x_d x_a x_b) := by
  intro s; apply WordShape.agent; show execAdd x_d x_a x_b s = _; unfold execAdd scalarWord; exact rfl
theorem shape_sub (x_d : BitVec 5) (x_a : BitVec 5) (x_b : BitVec 5) : WordShape (.sub x_d x_a x_b) := by
  intro s; apply WordShape.agent; show execSub x_d x_a x_b s = _; unfold execSub scalarWord; exact rfl
theorem shape_and (x_d : BitVec 5) (x_a : BitVec 5) (x_b : BitVec 5) : WordShape (.and x_d x_a x_b) := by
  intro s; apply WordShape.agent; show execAnd x_d x_a x_b s = _; unfold execAnd scalarWord; exact rfl
theorem shape_or (x_d : BitVec 5) (x_a : BitVec 5) (x_b : BitVec 5) : WordShape (.or x_d x_a x_b) := by
  intro s; apply WordShape.agent; show execOr x_d x_a x_b s = _; unfold execOr scalarWord; exact rfl
theorem shape_xor (x_d : BitVec 5) (x_a : BitVec 5) (x_b : BitVec 5) : WordShape (.xor x_d x_a x_b) := by
  intro s; apply WordShape.agent; show execXor x_d x_a x_b s = _; unfold execXor scalarWord; exact rfl
theorem shape_andn (x_d : BitVec 5) (x_a : BitVec 5) (x_b : BitVec 5) : WordShape (.andn x_d x_a x_b) := by
  intro s; apply WordShape.agent; show execAndn x_d x_a x_b s = _; unfold execAndn scalarWord; exact rfl
theorem shape_orn (x_d : BitVec 5) (x_a : BitVec 5) (x_b : BitVec 5) : WordShape (.orn x_d x_a x_b) := by
  intro s; apply WordShape.agent; show execOrn x_d x_a x_b s = _; unfold execOrn scalarWord; exact rfl
theorem shape_shl (x_d : BitVec 5) (x_a : BitVec 5) (x_b : BitVec 5) : WordShape (.shl x_d x_a x_b) := by
  intro s; apply WordShape.agent; show execShl x_d x_a x_b s = _; unfold execShl scalarWord; exact rfl
theorem shape_shr (x_d : BitVec 5) (x_a : BitVec 5) (x_b : BitVec 5) : WordShape (.shr x_d x_a x_b) := by
  intro s; apply WordShape.agent; show execShr x_d x_a x_b s = _; unfold execShr scalarWord; exact rfl
theorem shape_sra (x_d : BitVec 5) (x_a : BitVec 5) (x_b : BitVec 5) : WordShape (.sra x_d x_a x_b) := by
  intro s; apply WordShape.agent; show execSra x_d x_a x_b s = _; unfold execSra scalarWord; exact rfl
theorem shape_min (x_d : BitVec 5) (x_a : BitVec 5) (x_b : BitVec 5) : WordShape (.min x_d x_a x_b) := by
  intro s; apply WordShape.agent; show execMin x_d x_a x_b s = _; unfold execMin scalarWord; exact rfl
theorem shape_max (x_d : BitVec 5) (x_a : BitVec 5) (x_b : BitVec 5) : WordShape (.max x_d x_a x_b) := by
  intro s; apply WordShape.agent; show execMax x_d x_a x_b s = _; unfold execMax scalarWord; exact rfl
theorem shape_minn (x_d : BitVec 5) (x_a : BitVec 5) (x_b : BitVec 5) : WordShape (.minn x_d x_a x_b) := by
  intro s; apply WordShape.agent; show execMinn x_d x_a x_b s = _; unfold execMinn scalarWord; exact rfl
theorem shape_maxn (x_d : BitVec 5) (x_a : BitVec 5) (x_b : BitVec 5) : WordShape (.maxn x_d x_a x_b) := by
  intro s; apply WordShape.agent; show execMaxn x_d x_a x_b s = _; unfold execMaxn scalarWord; exact rfl
theorem shape_slt (x_d : BitVec 5) (x_a : BitVec 5) (x_b : BitVec 5) : WordShape (.slt x_d x_a x_b) := by
  intro s; apply WordShape.agent; show execSlt x_d x_a x_b s = _; unfold execSlt scalarWord; exact rfl
theorem shape_sltn (x_d : BitVec 5) (x_a : BitVec 5) (x_b : BitVec 5) : WordShape (.sltn x_d x_a x_b) := by
  intro s; apply WordShape.agent; show execSltn x_d x_a x_b s = _; unfold execSltn scalarWord; exact rfl
theorem shape_mul (x_d : BitVec 5) (x_a : BitVec 5) (x_b : BitVec 5) : WordShape (.mul x_d x_a x_b) := by
  intro s; apply WordShape.agent; show execMul x_d x_a x_b s = _; unfold execMul scalarWord; exact rfl
theorem shape_mulh (x_d : BitVec 5) (x_a : BitVec 5) (x_b : BitVec 5) : WordShape (.mulh x_d x_a x_b) := by
  intro s; apply WordShape.agent; show execMulh x_d x_a x_b s = _; unfold execMulh scalarWord; exact rfl
theorem shape_mulhn (x_d : BitVec 5) (x_a : BitVec 5) (x_b : BitVec 5) : WordShape (.mulhn x_d x_a x_b) := by
  intro s; apply WordShape.agent; show execMulhn x_d x_a x_b s = _; unfold execMulhn scalarWord; exact rfl
theorem shape_div (x_d : BitVec 5) (x_a : BitVec 5) (x_b : BitVec 5) : WordShape (.div x_d x_a x_b) := by
  intro s; apply WordShape.agent; show execDiv x_d x_a x_b s = _; unfold execDiv scalarWord; exact rfl
theorem shape_divn (x_d : BitVec 5) (x_a : BitVec 5) (x_b : BitVec 5) : WordShape (.divn x_d x_a x_b) := by
  intro s; apply WordShape.agent; show execDivn x_d x_a x_b s = _; unfold execDivn scalarWord; exact rfl
theorem shape_rem (x_d : BitVec 5) (x_a : BitVec 5) (x_b : BitVec 5) : WordShape (.rem x_d x_a x_b) := by
  intro s; apply WordShape.agent; show execRem x_d x_a x_b s = _; unfold execRem scalarWord; exact rfl
theorem shape_remn (x_d : BitVec 5) (x_a : BitVec 5) (x_b : BitVec 5) : WordShape (.remn x_d x_a x_b) := by
  intro s; apply WordShape.agent; show execRemn x_d x_a x_b s = _; unfold execRemn scalarWord; exact rfl
theorem shape_clz (x_d : BitVec 5) (x_a : BitVec 5) : WordShape (.clz x_d x_a) := by
  intro s; apply WordShape.agent; show execClz x_d x_a s = _; unfold execClz scalarWord; exact rfl
theorem shape_ctz (x_d : BitVec 5) (x_a : BitVec 5) : WordShape (.ctz x_d x_a) := by
  intro s; apply WordShape.agent; show execCtz x_d x_a s = _; unfold execCtz scalarWord; exact rfl
theorem shape_popc (x_d : BitVec 5) (x_a : BitVec 5) : WordShape (.popc x_d x_a) := by
  intro s; apply WordShape.agent; show execPopc x_d x_a s = _; unfold execPopc scalarWord; exact rfl
theorem shape_adds (x_d : BitVec 5) (x_a : BitVec 5) (x_b : BitVec 5) (x_n : BitVec 6) : WordShape (.adds x_d x_a x_b x_n) := by
  intro s; apply WordShape.agent; show execAdds x_d x_a x_b x_n s = _; unfold execAdds scalarWord; exact rfl
theorem shape_shli (x_d : BitVec 5) (x_a : BitVec 5) (x_n : BitVec 6) : WordShape (.shli x_d x_a x_n) := by
  intro s; apply WordShape.agent; show execShli x_d x_a x_n s = _; unfold execShli scalarWord; exact rfl
theorem shape_shri (x_d : BitVec 5) (x_a : BitVec 5) (x_n : BitVec 6) : WordShape (.shri x_d x_a x_n) := by
  intro s; apply WordShape.agent; show execShri x_d x_a x_n s = _; unfold execShri scalarWord; exact rfl
theorem shape_srai (x_d : BitVec 5) (x_a : BitVec 5) (x_n : BitVec 6) : WordShape (.srai x_d x_a x_n) := by
  intro s; apply WordShape.agent; show execSrai x_d x_a x_n s = _; unfold execSrai scalarWord; exact rfl
theorem shape_addi (x_d : BitVec 5) (x_a : BitVec 5) (x_i : BitVec 16) : WordShape (.addi x_d x_a x_i) := by
  intro s; apply WordShape.agent; show execAddi x_d x_a x_i s = _; unfold execAddi scalarWord; exact rfl
theorem shape_andi (x_d : BitVec 5) (x_a : BitVec 5) (x_i : BitVec 16) : WordShape (.andi x_d x_a x_i) := by
  intro s; apply WordShape.agent; show execAndi x_d x_a x_i s = _; unfold execAndi scalarWord; exact rfl
theorem shape_ori (x_d : BitVec 5) (x_a : BitVec 5) (x_i : BitVec 16) : WordShape (.ori x_d x_a x_i) := by
  intro s; apply WordShape.agent; show execOri x_d x_a x_i s = _; unfold execOri scalarWord; exact rfl
theorem shape_xori (x_d : BitVec 5) (x_a : BitVec 5) (x_i : BitVec 16) : WordShape (.xori x_d x_a x_i) := by
  intro s; apply WordShape.agent; show execXori x_d x_a x_i s = _; unfold execXori scalarWord; exact rfl
theorem shape_slti (x_d : BitVec 5) (x_a : BitVec 5) (x_i : BitVec 16) : WordShape (.slti x_d x_a x_i) := by
  intro s; apply WordShape.agent; show execSlti x_d x_a x_i s = _; unfold execSlti scalarWord; exact rfl
theorem shape_sltni (x_d : BitVec 5) (x_a : BitVec 5) (x_i : BitVec 16) : WordShape (.sltni x_d x_a x_i) := by
  intro s; apply WordShape.agent; show execSltni x_d x_a x_i s = _; unfold execSltni scalarWord; exact rfl
theorem shape_movhi (x_d : BitVec 5) (x_i : BitVec 16) : WordShape (.movhi x_d x_i) := by
  intro s; apply WordShape.agent; show execMovhi x_d x_i s = _; unfold execMovhi scalarWord; exact rfl
theorem shape_addpc (x_d : BitVec 5) (x_i : BitVec 16) : WordShape (.addpc x_d x_i) := by
  intro s; apply WordShape.agent; show execAddpc x_d x_i s = _; unfold execAddpc scalarWord; exact rfl
theorem shape_beq (x_a : BitVec 5) (x_b : BitVec 5) (x_i : BitVec 16) : WordShape (.beq x_a x_b x_i) := by
  intro s; apply WordShape.agent; show execBeq x_a x_b x_i s = _; unfold execBeq scalarWord; exact rfl
theorem shape_bne (x_a : BitVec 5) (x_b : BitVec 5) (x_i : BitVec 16) : WordShape (.bne x_a x_b x_i) := by
  intro s; apply WordShape.agent; show execBne x_a x_b x_i s = _; unfold execBne scalarWord; exact rfl
theorem shape_blt (x_a : BitVec 5) (x_b : BitVec 5) (x_i : BitVec 16) : WordShape (.blt x_a x_b x_i) := by
  intro s; apply WordShape.agent; show execBlt x_a x_b x_i s = _; unfold execBlt scalarWord; exact rfl
theorem shape_bge (x_a : BitVec 5) (x_b : BitVec 5) (x_i : BitVec 16) : WordShape (.bge x_a x_b x_i) := by
  intro s; apply WordShape.agent; show execBge x_a x_b x_i s = _; unfold execBge scalarWord; exact rfl
theorem shape_bltn (x_a : BitVec 5) (x_b : BitVec 5) (x_i : BitVec 16) : WordShape (.bltn x_a x_b x_i) := by
  intro s; apply WordShape.agent; show execBltn x_a x_b x_i s = _; unfold execBltn scalarWord; exact rfl
theorem shape_bgen (x_a : BitVec 5) (x_b : BitVec 5) (x_i : BitVec 16) : WordShape (.bgen x_a x_b x_i) := by
  intro s; apply WordShape.agent; show execBgen x_a x_b x_i s = _; unfold execBgen scalarWord; exact rfl
theorem shape_jal (x_d : BitVec 5) (x_i : BitVec 21) : WordShape (.jal x_d x_i) := by
  intro s; apply WordShape.agent; show execJal x_d x_i s = _; unfold execJal scalarWord; exact rfl
theorem shape_jalr (x_d : BitVec 5) (x_a : BitVec 5) (x_i : BitVec 16) : WordShape (.jalr x_d x_a x_i) := by
  intro s; apply WordShape.agent; show execJalr x_d x_a x_i s = _; unfold execJalr scalarWord; exact rfl
theorem shape_yield (x_n : BitVec 12) : WordShape (.yield x_n) := by
  intro s; apply WordShape.task; show execYield x_n s = _; unfold execYield; exact rfl
theorem shape_endTask (x_a : BitVec 5) (x_s : BitVec 1) (x_n : BitVec 1) : WordShape (.endTask x_a x_s x_n) := by
  intro s; apply WordShape.task; show execEndTask x_a x_s x_n s = _; unfold execEndTask; exact rfl
theorem shape_endCont (x_d : BitVec 5) (x_a : BitVec 5) : WordShape (.endCont x_d x_a) := by
  intro s; apply WordShape.task; show execEndCont x_d x_a s = _; unfold execEndCont; exact rfl
theorem shape_release (x_d : BitVec 5) (x_a : BitVec 5) (x_x : BitVec 1) (x_p : BitVec 4) : WordShape (.release x_d x_a x_x x_p) := by
  intro s; apply WordShape.task; show execRelease x_d x_a x_x x_p s = _; unfold execRelease; exact rfl
theorem shape_releaseDie (x_d : BitVec 5) (x_a : BitVec 5) (x_e : BitVec 4) (x_x : BitVec 1) (x_p : BitVec 4) : WordShape (.releaseDie x_d x_a x_e x_x x_p) := by
  intro s; apply WordShape.task; show execReleaseDie x_d x_a x_e x_x x_p s = _; unfold execReleaseDie; exact rfl
theorem shape_releasePeer (x_d : BitVec 5) (x_a : BitVec 5) (x_x : BitVec 1) (x_p : BitVec 4) : WordShape (.releasePeer x_d x_a x_x x_p) := by
  intro s; apply WordShape.task; show execReleasePeer x_d x_a x_x x_p s = _; unfold execReleasePeer; exact rfl
theorem shape_claim (x_e : BitVec 6) : WordShape (.claim x_e) := by
  intro s; apply WordShape.task; show execClaim x_e s = _; unfold execClaim; exact rfl
theorem shape_unclaim (x_e : BitVec 6) : WordShape (.unclaim x_e) := by
  intro s; apply WordShape.task; show execUnclaim x_e s = _; unfold execUnclaim; exact rfl
theorem shape_prio (x_d : BitVec 5) : WordShape (.prio x_d) := by
  intro s; apply WordShape.task; show execPrio x_d s = _; unfold execPrio; exact rfl
theorem shape_prioSet (x_d : BitVec 5) (x_a : BitVec 5) : WordShape (.prioSet x_d x_a) := by
  intro s; apply WordShape.task; show execPrioSet x_d x_a s = _; unfold execPrioSet; exact rfl
theorem shape_self (x_d : BitVec 5) : WordShape (.self x_d) := by
  intro s; apply WordShape.task; show execSelf x_d s = _; unfold execSelf; exact rfl
theorem shape_selfFrame (x_d : BitVec 5) : WordShape (.selfFrame x_d) := by
  intro s; apply WordShape.task; show execSelfFrame x_d s = _; unfold execSelfFrame; exact rfl
theorem shape_gdec (x_a : BitVec 5) (x_c : BitVec 12) : WordShape (.gdec x_a x_c) := by
  intro s; apply WordShape.task; show execGdec x_a x_c s = _; unfold execGdec; exact rfl
theorem shape_gnode (x_d : BitVec 5) : WordShape (.gnode x_d) := by
  intro s; apply WordShape.task; show execGnode x_d s = _; unfold execGnode; exact rfl
theorem shape_gnodeN (x_d : BitVec 5) : WordShape (.gnodeN x_d) := by
  intro s; apply WordShape.task; show execGnodeN x_d s = _; unfold execGnodeN; exact rfl
theorem shape_ld (x_t : BitVec 5) (x_b : BitVec 5) (x_d : BitVec 13) (x_q : BitVec 3) : WordShape (.ld x_t x_b x_d x_q) := by
  intro s; apply WordShape.agent; show execLd x_t x_b x_d x_q s = _; unfold execLd; exact rfl
theorem shape_st (x_t : BitVec 5) (x_b : BitVec 5) (x_d : BitVec 13) (x_q : BitVec 2) : WordShape (.st x_t x_b x_d x_q) := by
  intro s; apply WordShape.agent; show execSt x_t x_b x_d x_q s = _; unfold execSt; exact rfl
theorem shape_lda (x_t : BitVec 5) (x_b : BitVec 5) (x_d : BitVec 13) (x_q : BitVec 2) : WordShape (.lda x_t x_b x_d x_q) := by
  intro s; apply WordShape.agent; show execLda x_t x_b x_d x_q s = _; unfold execLda; exact rfl
theorem shape_stl (x_t : BitVec 5) (x_b : BitVec 5) (x_d : BitVec 13) (x_q : BitVec 2) : WordShape (.stl x_t x_b x_d x_q) := by
  intro s; apply WordShape.agent; show execStl x_t x_b x_d x_q s = _; unfold execStl; exact rfl
theorem shape_amo (x_t : BitVec 5) (x_b : BitVec 5) (x_s : BitVec 5) (x_o : BitVec 4) (x_r : BitVec 2) (x_q : BitVec 3) : WordShape (.amo x_t x_b x_s x_o x_r x_q) := by
  intro s; apply WordShape.agent; show execAmo x_t x_b x_s x_o x_r x_q s = _; unfold execAmo; exact rfl
theorem shape_amop (x_b : BitVec 5) (x_s : BitVec 5) (x_o : BitVec 4) (x_r : BitVec 2) (x_q : BitVec 1) : WordShape (.amop x_b x_s x_o x_r x_q) := by
  intro s; apply WordShape.agent; show execAmop x_b x_s x_o x_r x_q s = _; unfold execAmop; exact rfl
theorem shape_amoa (x_t : BitVec 5) (x_b : BitVec 5) (x_s : BitVec 5) (x_o : BitVec 4) (x_k : BitVec 4) (x_q : BitVec 1) : WordShape (.amoa x_t x_b x_s x_o x_k x_q) := by
  intro s; apply WordShape.agent; show execAmoa x_t x_b x_s x_o x_k x_q s = _; unfold execAmoa; exact rfl
theorem shape_cas (x_t : BitVec 5) (x_b : BitVec 5) (x_c : BitVec 5) (x_n : BitVec 5) (x_r : BitVec 2) (x_q : BitVec 3) : WordShape (.cas x_t x_b x_c x_n x_r x_q) := by
  intro s; apply WordShape.agent; show execCas x_t x_b x_c x_n x_r x_q s = _; unfold execCas; exact rfl
theorem shape_fadd (x_t : BitVec 5) (x_b : BitVec 5) (x_s : BitVec 5) (x_r : BitVec 2) (x_q : BitVec 3) : WordShape (.fadd x_t x_b x_s x_r x_q) := by
  intro s; apply WordShape.agent; show execFadd x_t x_b x_s x_r x_q s = _; unfold execFadd; exact rfl
theorem shape_faddPosted (x_b : BitVec 5) (x_s : BitVec 5) (x_r : BitVec 1) (x_q : BitVec 3) : WordShape (.faddPosted x_b x_s x_r x_q) := by
  intro s; apply WordShape.agent; show execFaddPosted x_b x_s x_r x_q s = _; unfold execFaddPosted; exact rfl
theorem shape_stfFlag (x_t : BitVec 5) (x_b : BitVec 5) (x_f : BitVec 5) (x_q : BitVec 3) : WordShape (.stfFlag x_t x_b x_f x_q) := by
  intro s; apply WordShape.agent; show execStfFlag x_t x_b x_f x_q s = _; unfold execStfFlag; exact rfl
theorem shape_stfTask (x_t : BitVec 5) (x_b : BitVec 5) (x_f : BitVec 5) (x_q : BitVec 3) : WordShape (.stfTask x_t x_b x_f x_q) := by
  intro s; apply WordShape.agent; show execStfTask x_t x_b x_f x_q s = _; unfold execStfTask; exact rfl
theorem shape_pref (x_b : BitVec 5) (x_d : BitVec 13) : WordShape (.pref x_b x_d) := by
  intro s; apply WordShape.agent; show execPref x_b x_d s = _; unfold execPref; exact rfl
theorem shape_prefFar (x_b : BitVec 5) (x_d : BitVec 13) : WordShape (.prefFar x_b x_d) := by
  intro s; apply WordShape.agent; show execPrefFar x_b x_d s = _; unfold execPrefFar; exact rfl
theorem shape_fence : WordShape (.fence) := by
  intro s; apply WordShape.agent; show execFence s = _; unfold execFence; exact rfl
theorem shape_binit (x_d : BitVec 5) (x_a : BitVec 5) (x_k : BitVec 4) : WordShape (.binit x_d x_a x_k) := by
  intro s; apply WordShape.task; show execBinit x_d x_a x_k s = _; unfold execBinit; exact rfl
theorem shape_bexpect (x_a : BitVec 5) (x_k : BitVec 4) : WordShape (.bexpect x_a x_k) := by
  intro s; apply WordShape.task; show execBexpect x_a x_k s = _; unfold execBexpect; exact rfl
theorem shape_barrive (x_k : BitVec 4) : WordShape (.barrive x_k) := by
  intro s; apply WordShape.task; show execBarrive x_k s = _; unfold execBarrive; exact rfl
theorem shape_barriveH (x_a : BitVec 5) : WordShape (.barriveH x_a) := by
  intro s; apply WordShape.task; show execBarriveH x_a s = _; unfold execBarriveH; exact rfl
theorem shape_bwait (x_d : BitVec 5) (x_a : BitVec 5) (x_k : BitVec 4) : WordShape (.bwait x_d x_a x_k) := by
  intro s; apply WordShape.task; show execBwait x_d x_a x_k s = _; unfold execBwait; exact rfl
theorem shape_btest (x_d : BitVec 5) (x_h : BitVec 1) (x_k : BitVec 4) : WordShape (.btest x_d x_h x_k) := by
  intro s; apply WordShape.task; show execBtest x_d x_h x_k s = _; unfold execBtest; exact rfl
theorem shape_bpoison (x_c : BitVec 8) (x_k : BitVec 4) : WordShape (.bpoison x_c x_k) := by
  intro s; apply WordShape.task; show execBpoison x_c x_k s = _; unfold execBpoison; exact rfl
theorem shape_copy (x_d : BitVec 5) (x_a : BitVec 5) : WordShape (.copy x_d x_a) := by
  intro s; apply WordShape.task; show execCopy x_d x_a s = _; unfold execCopy; exact rfl
theorem shape_copyc (x_d : BitVec 5) (x_a : BitVec 5) : WordShape (.copyc x_d x_a) := by
  intro s; apply WordShape.task; show execCopyc x_d x_a s = _; unfold execCopyc; exact rfl
theorem shape_copym (x_d : BitVec 5) (x_a : BitVec 5) : WordShape (.copym x_d x_a) := by
  intro s; apply WordShape.task; show execCopym x_d x_a s = _; unfold execCopym; exact rfl
theorem shape_cwp (x_d : BitVec 5) (x_n : BitVec 2) : WordShape (.cwp x_d x_n) := by
  intro s; apply WordShape.task; show execCwp x_d x_n s = _; unfold execCwp; exact rfl
theorem shape_cring (x_d : BitVec 5) (x_a : BitVec 5) : WordShape (.cring x_d x_a) := by
  intro s; apply WordShape.task; show execCring x_d x_a s = _; unfold execCring; exact rfl
theorem shape_vld (x_t : BitVec 5) (x_b : BitVec 5) (x_d : BitVec 13) : WordShape (.vld x_t x_b x_d) := by
  intro s; apply WordShape.task; show execVld x_t x_b x_d s = _; unfold execVld; exact rfl
theorem shape_vldH (x_t : BitVec 5) (x_b : BitVec 5) (x_d : BitVec 13) : WordShape (.vldH x_t x_b x_d) := by
  intro s; apply WordShape.task; show execVldH x_t x_b x_d s = _; unfold execVldH; exact rfl
theorem shape_vst (x_t : BitVec 5) (x_b : BitVec 5) (x_d : BitVec 13) : WordShape (.vst x_t x_b x_d) := by
  intro s; apply WordShape.task; show execVst x_t x_b x_d s = _; unfold execVst; exact rfl
theorem shape_vstH (x_t : BitVec 5) (x_b : BitVec 5) (x_d : BitVec 13) : WordShape (.vstH x_t x_b x_d) := by
  intro s; apply WordShape.task; show execVstH x_t x_b x_d s = _; unfold execVstH; exact rfl
theorem shape_vlds (x_t : BitVec 5) (x_b : BitVec 5) (x_s : BitVec 5) (x_w : BitVec 2) : WordShape (.vlds x_t x_b x_s x_w) := by
  intro s; apply WordShape.task; show execVlds x_t x_b x_s x_w s = _; unfold execVlds; exact rfl
theorem shape_vsts (x_t : BitVec 5) (x_b : BitVec 5) (x_s : BitVec 5) (x_w : BitVec 2) : WordShape (.vsts x_t x_b x_s x_w) := by
  intro s; apply WordShape.task; show execVsts x_t x_b x_s x_w s = _; unfold execVsts; exact rfl
theorem shape_vgath (x_d : BitVec 5) (x_a : BitVec 5) (x_b : BitVec 5) (x_k : BitVec 3) (x_t : BitVec 2) : WordShape (.vgath x_d x_a x_b x_k x_t) := by
  intro s; apply WordShape.task; show execVgath x_d x_a x_b x_k x_t s = _; unfold execVgath; exact rfl
theorem shape_vscat (x_d : BitVec 5) (x_a : BitVec 5) (x_b : BitVec 5) (x_k : BitVec 3) (x_t : BitVec 2) : WordShape (.vscat x_d x_a x_b x_k x_t) := by
  intro s; apply WordShape.task; show execVscat x_d x_a x_b x_k x_t s = _; unfold execVscat; exact rfl
theorem shape_vbcast (x_d : BitVec 5) (x_a : BitVec 5) (x_k : BitVec 3) (x_t : BitVec 2) : WordShape (.vbcast x_d x_a x_k x_t) := by
  intro s; apply WordShape.task; show execVbcast x_d x_a x_k x_t s = _; unfold execVbcast vectorTo; exact rfl
theorem shape_vins (x_d : BitVec 5) (x_a : BitVec 5) (x_b : BitVec 5) (x_t : BitVec 2) : WordShape (.vins x_d x_a x_b x_t) := by
  intro s; apply WordShape.task; show execVins x_d x_a x_b x_t s = _; unfold execVins; exact rfl
theorem shape_vext (x_d : BitVec 5) (x_a : BitVec 5) (x_b : BitVec 5) (x_u : BitVec 1) (x_t : BitVec 2) : WordShape (.vext x_d x_a x_b x_u x_t) := by
  intro s; apply WordShape.task; show execVext x_d x_a x_b x_u x_t s = _; unfold execVext scalarTo; exact rfl
theorem shape_vadd (x_d : BitVec 5) (x_a : BitVec 5) (x_b : BitVec 5) (x_k : BitVec 3) (x_t : BitVec 2) : WordShape (.vadd x_d x_a x_b x_k x_t) := by
  intro s; apply WordShape.task; show execVadd x_d x_a x_b x_k x_t s = _; unfold execVadd floatBinary vectorTo; exact rfl
theorem shape_vsub (x_d : BitVec 5) (x_a : BitVec 5) (x_b : BitVec 5) (x_k : BitVec 3) (x_t : BitVec 2) : WordShape (.vsub x_d x_a x_b x_k x_t) := by
  intro s; apply WordShape.task; show execVsub x_d x_a x_b x_k x_t s = _; unfold execVsub floatBinary vectorTo; exact rfl
theorem shape_vmul (x_d : BitVec 5) (x_a : BitVec 5) (x_b : BitVec 5) (x_k : BitVec 3) (x_t : BitVec 2) : WordShape (.vmul x_d x_a x_b x_k x_t) := by
  intro s; apply WordShape.task; show execVmul x_d x_a x_b x_k x_t s = _; unfold execVmul floatBinary vectorTo; exact rfl
theorem shape_vmin (x_d : BitVec 5) (x_a : BitVec 5) (x_b : BitVec 5) (x_k : BitVec 3) (x_t : BitVec 2) : WordShape (.vmin x_d x_a x_b x_k x_t) := by
  intro s; apply WordShape.task; show execVmin x_d x_a x_b x_k x_t s = _; unfold execVmin floatMinMax vectorTo; exact rfl
theorem shape_vmax (x_d : BitVec 5) (x_a : BitVec 5) (x_b : BitVec 5) (x_k : BitVec 3) (x_t : BitVec 2) : WordShape (.vmax x_d x_a x_b x_k x_t) := by
  intro s; apply WordShape.task; show execVmax x_d x_a x_b x_k x_t s = _; unfold execVmax floatMinMax vectorTo; exact rfl
theorem shape_vdiv (x_d : BitVec 5) (x_a : BitVec 5) (x_b : BitVec 5) (x_k : BitVec 3) (x_t : BitVec 2) : WordShape (.vdiv x_d x_a x_b x_k x_t) := by
  intro s; apply WordShape.task; show execVdiv x_d x_a x_b x_k x_t s = _; unfold execVdiv floatBinary vectorTo; exact rfl
theorem shape_vfma (x_d : BitVec 5) (x_a : BitVec 5) (x_b : BitVec 5) (x_k : BitVec 3) (x_t : BitVec 2) : WordShape (.vfma x_d x_a x_b x_k x_t) := by
  intro s; apply WordShape.task; show execVfma x_d x_a x_b x_k x_t s = _; unfold execVfma floatFused vectorTo; exact rfl
theorem shape_vfms (x_d : BitVec 5) (x_a : BitVec 5) (x_b : BitVec 5) (x_k : BitVec 3) (x_t : BitVec 2) : WordShape (.vfms x_d x_a x_b x_k x_t) := by
  intro s; apply WordShape.task; show execVfms x_d x_a x_b x_k x_t s = _; unfold execVfms floatFused vectorTo; exact rfl
theorem shape_vnfma (x_d : BitVec 5) (x_a : BitVec 5) (x_b : BitVec 5) (x_k : BitVec 3) (x_t : BitVec 2) : WordShape (.vnfma x_d x_a x_b x_k x_t) := by
  intro s; apply WordShape.task; show execVnfma x_d x_a x_b x_k x_t s = _; unfold execVnfma floatFused vectorTo; exact rfl
theorem shape_vabs (x_d : BitVec 5) (x_a : BitVec 5) (x_k : BitVec 3) (x_t : BitVec 2) : WordShape (.vabs x_d x_a x_k x_t) := by
  intro s; apply WordShape.task; show execVabs x_d x_a x_k x_t s = _; unfold execVabs floatUnary vectorTo; exact rfl
theorem shape_vneg (x_d : BitVec 5) (x_a : BitVec 5) (x_k : BitVec 3) (x_t : BitVec 2) : WordShape (.vneg x_d x_a x_k x_t) := by
  intro s; apply WordShape.task; show execVneg x_d x_a x_k x_t s = _; unfold execVneg floatUnary vectorTo; exact rfl
theorem shape_vsqrt (x_d : BitVec 5) (x_a : BitVec 5) (x_k : BitVec 3) (x_t : BitVec 2) : WordShape (.vsqrt x_d x_a x_k x_t) := by
  intro s; apply WordShape.task; show execVsqrt x_d x_a x_k x_t s = _; unfold execVsqrt floatUnary vectorTo; exact rfl
theorem shape_vrcp (x_d : BitVec 5) (x_a : BitVec 5) (x_k : BitVec 3) (x_t : BitVec 2) : WordShape (.vrcp x_d x_a x_k x_t) := by
  intro s; apply WordShape.task; show execVrcp x_d x_a x_k x_t s = _; unfold execVrcp floatUnary vectorTo; exact rfl
theorem shape_vrsq (x_d : BitVec 5) (x_a : BitVec 5) (x_k : BitVec 3) (x_t : BitVec 2) : WordShape (.vrsq x_d x_a x_k x_t) := by
  intro s; apply WordShape.task; show execVrsq x_d x_a x_k x_t s = _; unfold execVrsq floatUnary vectorTo; exact rfl
theorem shape_vexp2 (x_d : BitVec 5) (x_a : BitVec 5) (x_k : BitVec 3) (x_t : BitVec 2) : WordShape (.vexp2 x_d x_a x_k x_t) := by
  intro s; apply WordShape.task; show execVexp2 x_d x_a x_k x_t s = _; unfold execVexp2 floatUnary vectorTo; exact rfl
theorem shape_vlog2 (x_d : BitVec 5) (x_a : BitVec 5) (x_k : BitVec 3) (x_t : BitVec 2) : WordShape (.vlog2 x_d x_a x_k x_t) := by
  intro s; apply WordShape.task; show execVlog2 x_d x_a x_k x_t s = _; unfold execVlog2 floatUnary vectorTo; exact rfl
theorem shape_vcmp (x_d : BitVec 5) (x_a : BitVec 5) (x_b : BitVec 5) (x_k : BitVec 3) (x_c : BitVec 3) (x_t : BitVec 2) : WordShape (.vcmp x_d x_a x_b x_k x_c x_t) := by
  intro s; apply WordShape.task; show execVcmp x_d x_a x_b x_k x_c x_t s = _; unfold execVcmp maskTo; exact rfl
theorem shape_vsel (x_d : BitVec 5) (x_a : BitVec 5) (x_b : BitVec 5) (x_k : BitVec 3) (x_t : BitVec 2) : WordShape (.vsel x_d x_a x_b x_k x_t) := by
  intro s; apply WordShape.task; show execVsel x_d x_a x_b x_k x_t s = _; unfold execVsel; exact rfl
theorem shape_vcvt (x_d : BitVec 5) (x_a : BitVec 5) (x_k : BitVec 3) (x_h : BitVec 1) (x_c : BitVec 4) (x_r : BitVec 1) (x_u : BitVec 1) : WordShape (.vcvt x_d x_a x_k x_h x_c x_r x_u) := by
  intro s; apply WordShape.task; show execVcvt x_d x_a x_k x_h x_c x_r x_u s = _; unfold execVcvt vectorTo; exact rfl
theorem shape_viadd (x_d : BitVec 5) (x_a : BitVec 5) (x_b : BitVec 5) (x_k : BitVec 3) (x_u : BitVec 1) (x_t : BitVec 2) : WordShape (.viadd x_d x_a x_b x_k x_u x_t) := by
  intro s; apply WordShape.task; show execViadd x_d x_a x_b x_k x_u x_t s = _; unfold execViadd intBinary vectorTo; exact rfl
theorem shape_visub (x_d : BitVec 5) (x_a : BitVec 5) (x_b : BitVec 5) (x_k : BitVec 3) (x_u : BitVec 1) (x_t : BitVec 2) : WordShape (.visub x_d x_a x_b x_k x_u x_t) := by
  intro s; apply WordShape.task; show execVisub x_d x_a x_b x_k x_u x_t s = _; unfold execVisub intBinary vectorTo; exact rfl
theorem shape_vimul (x_d : BitVec 5) (x_a : BitVec 5) (x_b : BitVec 5) (x_k : BitVec 3) (x_u : BitVec 1) (x_t : BitVec 2) : WordShape (.vimul x_d x_a x_b x_k x_u x_t) := by
  intro s; apply WordShape.task; show execVimul x_d x_a x_b x_k x_u x_t s = _; unfold execVimul intBinary vectorTo; exact rfl
theorem shape_vimulh (x_d : BitVec 5) (x_a : BitVec 5) (x_b : BitVec 5) (x_k : BitVec 3) (x_u : BitVec 1) (x_t : BitVec 2) : WordShape (.vimulh x_d x_a x_b x_k x_u x_t) := by
  intro s; apply WordShape.task; show execVimulh x_d x_a x_b x_k x_u x_t s = _; unfold execVimulh intBinary vectorTo; exact rfl
theorem shape_vimin (x_d : BitVec 5) (x_a : BitVec 5) (x_b : BitVec 5) (x_k : BitVec 3) (x_u : BitVec 1) (x_t : BitVec 2) : WordShape (.vimin x_d x_a x_b x_k x_u x_t) := by
  intro s; apply WordShape.task; show execVimin x_d x_a x_b x_k x_u x_t s = _; unfold execVimin intBinary vectorTo; exact rfl
theorem shape_vimax (x_d : BitVec 5) (x_a : BitVec 5) (x_b : BitVec 5) (x_k : BitVec 3) (x_u : BitVec 1) (x_t : BitVec 2) : WordShape (.vimax x_d x_a x_b x_k x_u x_t) := by
  intro s; apply WordShape.task; show execVimax x_d x_a x_b x_k x_u x_t s = _; unfold execVimax intBinary vectorTo; exact rfl
theorem shape_vand (x_d : BitVec 5) (x_a : BitVec 5) (x_b : BitVec 5) (x_k : BitVec 3) (x_t : BitVec 2) : WordShape (.vand x_d x_a x_b x_k x_t) := by
  intro s; apply WordShape.task; show execVand x_d x_a x_b x_k x_t s = _; unfold execVand intBinary vectorTo; exact rfl
theorem shape_vor (x_d : BitVec 5) (x_a : BitVec 5) (x_b : BitVec 5) (x_k : BitVec 3) (x_t : BitVec 2) : WordShape (.vor x_d x_a x_b x_k x_t) := by
  intro s; apply WordShape.task; show execVor x_d x_a x_b x_k x_t s = _; unfold execVor intBinary vectorTo; exact rfl
theorem shape_vxor (x_d : BitVec 5) (x_a : BitVec 5) (x_b : BitVec 5) (x_k : BitVec 3) (x_t : BitVec 2) : WordShape (.vxor x_d x_a x_b x_k x_t) := by
  intro s; apply WordShape.task; show execVxor x_d x_a x_b x_k x_t s = _; unfold execVxor intBinary vectorTo; exact rfl
theorem shape_vshl (x_d : BitVec 5) (x_a : BitVec 5) (x_b : BitVec 5) (x_k : BitVec 3) (x_t : BitVec 2) : WordShape (.vshl x_d x_a x_b x_k x_t) := by
  intro s; apply WordShape.task; show execVshl x_d x_a x_b x_k x_t s = _; unfold execVshl intBinary vectorTo; exact rfl
theorem shape_vshr (x_d : BitVec 5) (x_a : BitVec 5) (x_b : BitVec 5) (x_k : BitVec 3) (x_t : BitVec 2) : WordShape (.vshr x_d x_a x_b x_k x_t) := by
  intro s; apply WordShape.task; show execVshr x_d x_a x_b x_k x_t s = _; unfold execVshr intBinary vectorTo; exact rfl
theorem shape_vsra (x_d : BitVec 5) (x_a : BitVec 5) (x_b : BitVec 5) (x_k : BitVec 3) (x_t : BitVec 2) : WordShape (.vsra x_d x_a x_b x_k x_t) := by
  intro s; apply WordShape.task; show execVsra x_d x_a x_b x_k x_t s = _; unfold execVsra intBinary vectorTo; exact rfl
theorem shape_vicmp (x_d : BitVec 5) (x_a : BitVec 5) (x_b : BitVec 5) (x_k : BitVec 3) (x_u : BitVec 1) (x_c : BitVec 3) (x_t : BitVec 2) : WordShape (.vicmp x_d x_a x_b x_k x_u x_c x_t) := by
  intro s; apply WordShape.task; show execVicmp x_d x_a x_b x_k x_u x_c x_t s = _; unfold execVicmp maskTo; exact rfl
theorem shape_vredadd (x_d : BitVec 5) (x_a : BitVec 5) (x_k : BitVec 3) (x_u : BitVec 1) (x_f : BitVec 1) (x_t : BitVec 2) : WordShape (.vredadd x_d x_a x_k x_u x_f x_t) := by
  intro s; apply WordShape.task; show execVredadd x_d x_a x_k x_u x_f x_t s = _; unfold execVredadd scalarTo; exact rfl
theorem shape_vredmin (x_d : BitVec 5) (x_a : BitVec 5) (x_k : BitVec 3) (x_u : BitVec 1) (x_f : BitVec 1) (x_t : BitVec 2) : WordShape (.vredmin x_d x_a x_k x_u x_f x_t) := by
  intro s; apply WordShape.task; show execVredmin x_d x_a x_k x_u x_f x_t s = _; unfold execVredmin scalarTo; exact rfl
theorem shape_vredmax (x_d : BitVec 5) (x_a : BitVec 5) (x_k : BitVec 3) (x_u : BitVec 1) (x_f : BitVec 1) (x_t : BitVec 2) : WordShape (.vredmax x_d x_a x_k x_u x_f x_t) := by
  intro s; apply WordShape.task; show execVredmax x_d x_a x_k x_u x_f x_t s = _; unfold execVredmax scalarTo; exact rfl
theorem shape_vredmini (x_d : BitVec 5) (x_a : BitVec 5) (x_k : BitVec 3) (x_u : BitVec 1) (x_t : BitVec 2) : WordShape (.vredmini x_d x_a x_k x_u x_t) := by
  intro s; apply WordShape.task; show execVredmini x_d x_a x_k x_u x_t s = _; unfold execVredmini scalarTo; exact rfl
theorem shape_vperm (x_d : BitVec 5) (x_a : BitVec 5) (x_b : BitVec 5) (x_k : BitVec 3) (x_t : BitVec 2) : WordShape (.vperm x_d x_a x_b x_k x_t) := by
  intro s; apply WordShape.task; show execVperm x_d x_a x_b x_k x_t s = _; unfold execVperm vectorTo; exact rfl
theorem shape_vslideUp (x_d : BitVec 5) (x_a : BitVec 5) (x_b : BitVec 5) (x_k : BitVec 3) (x_t : BitVec 2) : WordShape (.vslideUp x_d x_a x_b x_k x_t) := by
  intro s; apply WordShape.task; show execVslideUp x_d x_a x_b x_k x_t s = _; unfold execVslideUp vectorTo; exact rfl
theorem shape_vslideDn (x_d : BitVec 5) (x_a : BitVec 5) (x_b : BitVec 5) (x_k : BitVec 3) (x_t : BitVec 2) : WordShape (.vslideDn x_d x_a x_b x_k x_t) := by
  intro s; apply WordShape.task; show execVslideDn x_d x_a x_b x_k x_t s = _; unfold execVslideDn vectorTo; exact rfl
theorem shape_vzipLo (x_d : BitVec 5) (x_a : BitVec 5) (x_b : BitVec 5) (x_k : BitVec 3) (x_t : BitVec 2) : WordShape (.vzipLo x_d x_a x_b x_k x_t) := by
  intro s; apply WordShape.task; show execVzipLo x_d x_a x_b x_k x_t s = _; unfold execVzipLo vectorTo; exact rfl
theorem shape_vzipHi (x_d : BitVec 5) (x_a : BitVec 5) (x_b : BitVec 5) (x_k : BitVec 3) (x_t : BitVec 2) : WordShape (.vzipHi x_d x_a x_b x_k x_t) := by
  intro s; apply WordShape.task; show execVzipHi x_d x_a x_b x_k x_t s = _; unfold execVzipHi vectorTo; exact rfl
theorem shape_vcompr (x_d : BitVec 5) (x_a : BitVec 5) (x_k : BitVec 3) (x_t : BitVec 2) : WordShape (.vcompr x_d x_a x_k x_t) := by
  intro s; apply WordShape.task; show execVcompr x_d x_a x_k x_t s = _; unfold execVcompr; exact rfl
theorem shape_kand (x_d : BitVec 5) (x_a : BitVec 5) (x_b : BitVec 5) : WordShape (.kand x_d x_a x_b) := by
  intro s; apply WordShape.task; show execKand x_d x_a x_b s = _; unfold execKand maskWord; exact rfl
theorem shape_kor (x_d : BitVec 5) (x_a : BitVec 5) (x_b : BitVec 5) : WordShape (.kor x_d x_a x_b) := by
  intro s; apply WordShape.task; show execKor x_d x_a x_b s = _; unfold execKor maskWord; exact rfl
theorem shape_kxor (x_d : BitVec 5) (x_a : BitVec 5) (x_b : BitVec 5) : WordShape (.kxor x_d x_a x_b) := by
  intro s; apply WordShape.task; show execKxor x_d x_a x_b s = _; unfold execKxor maskWord; exact rfl
theorem shape_knot (x_d : BitVec 5) (x_a : BitVec 5) : WordShape (.knot x_d x_a) := by
  intro s; apply WordShape.task; show execKnot x_d x_a s = _; unfold execKnot maskWord; exact rfl
theorem shape_kpopc (x_d : BitVec 5) (x_a : BitVec 5) : WordShape (.kpopc x_d x_a) := by
  intro s; apply WordShape.task; show execKpopc x_d x_a s = _; unfold execKpopc scalarTo; exact rfl
theorem shape_kfirst (x_d : BitVec 5) (x_a : BitVec 5) : WordShape (.kfirst x_d x_a) := by
  intro s; apply WordShape.task; show execKfirst x_d x_a s = _; unfold execKfirst scalarTo; exact rfl
theorem shape_kset (x_d : BitVec 5) (x_a : BitVec 5) : WordShape (.kset x_d x_a) := by
  intro s; apply WordShape.task; show execKset x_d x_a s = _; unfold execKset maskWord; exact rfl
theorem shape_kmov (x_d : BitVec 5) (x_a : BitVec 5) : WordShape (.kmov x_d x_a) := by
  intro s; apply WordShape.task; show execKmov x_d x_a s = _; unfold execKmov maskWord; exact rfl
theorem shape_kmovX (x_d : BitVec 5) (x_a : BitVec 5) : WordShape (.kmovX x_d x_a) := by
  intro s; apply WordShape.task; show execKmovX x_d x_a s = _; unfold execKmovX scalarTo; exact rfl
theorem shape_bkany (x_a : BitVec 5) (x_i : BitVec 16) : WordShape (.bkany x_a x_i) := by
  intro s; apply WordShape.task; show execBkany x_a x_i s = _; unfold execBkany maskBranch; exact rfl
theorem shape_bknone (x_a : BitVec 5) (x_i : BitVec 16) : WordShape (.bknone x_a x_i) := by
  intro s; apply WordShape.task; show execBknone x_a x_i s = _; unfold execBknone maskBranch; exact rfl
theorem shape_rep (x_d : BitVec 5) (x_a : BitVec 5) (x_b : BitVec 5) (x_c : BitVec 8) (x_l : BitVec 3) : WordShape (.rep x_d x_a x_b x_c x_l) := by
  intro s; apply WordShape.task; show execRep x_d x_a x_b x_c x_l s = _; unfold execRep; exact rfl
theorem shape_mxldb (x_s : BitVec 5) (x_a : BitVec 5) (x_c : BitVec 5) (x_k : BitVec 4) (x_y : BitVec 4) : WordShape (.mxldb x_s x_a x_c x_k x_y) := by
  intro s; apply WordShape.task; show execMxldb x_s x_a x_c x_k x_y s = _; unfold execMxldb; exact rfl
theorem shape_mxz (x_t : BitVec 5) (x_y : BitVec 1) : WordShape (.mxz x_t x_y) := by
  intro s; apply WordShape.task; show execMxz x_t x_y s = _; unfold execMxz; exact rfl
theorem shape_mxlda (x_t : BitVec 5) (x_a : BitVec 5) (x_c : BitVec 5) (x_y : BitVec 1) : WordShape (.mxlda x_t x_a x_c x_y) := by
  intro s; apply WordShape.task; show execMxlda x_t x_a x_c x_y s = _; unfold execMxlda; exact rfl
theorem shape_mma (x_t : BitVec 5) (x_a : BitVec 5) (x_s : BitVec 5) (x_p : BitVec 6) (x_i : BitVec 1) (x_k : BitVec 4) : WordShape (.mma x_t x_a x_s x_p x_i x_k) := by
  intro s; apply WordShape.task; show execMma x_t x_a x_s x_p x_i x_k s = _; unfold execMma; exact rfl
theorem shape_mxst (x_t : BitVec 5) (x_a : BitVec 5) (x_c : BitVec 5) (x_b : BitVec 4) (x_e : BitVec 1) (x_o : BitVec 3) (x_g : BitVec 2) : WordShape (.mxst x_t x_a x_c x_b x_e x_o x_g) := by
  intro s; apply WordShape.task; show execMxst x_t x_a x_c x_b x_e x_o x_g s = _; unfold execMxst; exact rfl
theorem shape_scmc (x_e : BitVec 5) (x_s : BitVec 5) (x_m : BitVec 5) (x_n : BitVec 4) : WordShape (.scmc x_e x_s x_m x_n) := by
  intro s; apply WordShape.task; show execScmc x_e x_s x_m x_n s = _; unfold execScmc; exact rfl
theorem shape_mxpass (x_p : BitVec 5) (x_n : BitVec 1) : WordShape (.mxpass x_p x_n) := by
  intro s; apply WordShape.task; show execMxpass x_p x_n s = _; unfold execMxpass; exact rfl
theorem shape_mxqT (x_d : BitVec 5) (x_t : BitVec 5) : WordShape (.mxqT x_d x_t) := by
  intro s; apply WordShape.task; show execMxqT x_d x_t s = _; unfold execMxqT; exact rfl
theorem shape_mxqS (x_d : BitVec 5) (x_a : BitVec 5) : WordShape (.mxqS x_d x_a) := by
  intro s; apply WordShape.task; show execMxqS x_d x_a s = _; unfold execMxqS; exact rfl
theorem shape_couple (x_d : BitVec 5) (x_a : BitVec 5) (x_c : BitVec 6) : WordShape (.couple x_d x_a x_c) := by
  intro s; apply WordShape.task; show execCouple x_d x_a x_c s = _; unfold execCouple; exact rfl
theorem shape_uncouple (x_d : BitVec 5) (x_a : BitVec 5) (x_c : BitVec 6) : WordShape (.uncouple x_d x_a x_c) := by
  intro s; apply WordShape.task; show execUncouple x_d x_a x_c s = _; unfold execUncouple; exact rfl
theorem shape_cquery (x_d : BitVec 5) (x_g : BitVec 1) (x_c : BitVec 6) : WordShape (.cquery x_d x_g x_c) := by
  intro s; apply WordShape.task; show execCquery x_d x_g x_c s = _; unfold execCquery; exact rfl
theorem shape_csync : WordShape (.csync) := by
  intro s; apply WordShape.task; show execCsync s = _; unfold execCsync; exact rfl
theorem shape_pageq (x_d : BitVec 5) (x_a : BitVec 5) : WordShape (.pageq x_d x_a) := by
  intro s; apply WordShape.task; show execPageq x_d x_a s = _; unfold execPageq; exact rfl
theorem shape_pageqH (x_d : BitVec 5) (x_a : BitVec 5) : WordShape (.pageqH x_d x_a) := by
  intro s; apply WordShape.task; show execPageqH x_d x_a s = _; unfold execPageqH; exact rfl
theorem shape_csrr (x_d : BitVec 5) (x_c : BitVec 12) : WordShape (.csrr x_d x_c) := by
  intro s; apply WordShape.agent; show execCsrr x_d x_c s = _; unfold execCsrr; exact rfl
theorem shape_csrw (x_a : BitVec 5) (x_c : BitVec 12) : WordShape (.csrw x_a x_c) := by
  intro s; apply WordShape.agent; show execCsrw x_a x_c s = _; unfold execCsrw; exact rfl
theorem shape_trap (x_d : BitVec 5) (x_a : BitVec 5) (x_n : BitVec 12) : WordShape (.trap x_d x_a x_n) := by
  intro s; apply WordShape.agent; show execTrap x_d x_a x_n s = _; unfold execTrap; exact rfl
theorem shape_brk (x_n : BitVec 12) : WordShape (.brk x_n) := by
  intro s; apply WordShape.agent; show execBrk x_n s = _; unfold execBrk; exact rfl
theorem shape_hnop : WordShape (.hnop) := by
  intro s; apply WordShape.agent; show execHnop s = _; unfold execHnop scalarWord; exact rfl
theorem shape_ext (x_p : BitVec 22) : WordShape (.ext x_p) := by
  intro s; apply WordShape.agent; show execExt x_p s = _; unfold execExt hintWord; exact rfl
theorem shape_mod (x_b : BitVec 1) (x_s : BitVec 1) (x_r : BitVec 3) : WordShape (.mod x_b x_s x_r) := by
  intro s; apply WordShape.agent; show execMod x_b x_s x_r s = _; unfold execMod hintWord; exact rfl
theorem shape_sched (x_s : BitVec 1) (x_d : BitVec 6) : WordShape (.sched x_s x_d) := by
  intro s; apply WordShape.agent; show execSched x_s x_d s = _; unfold execSched hintWord; exact rfl

/-- Every word has one of the two shapes. -/
theorem wordShape {i : Instr} {w : BitVec 32} (h : encode i = some w) : WordShape i := by
  cases i
  case ill => exact shape_ill _
  case add => exact shape_add _ _ _
  case sub => exact shape_sub _ _ _
  case and => exact shape_and _ _ _
  case or => exact shape_or _ _ _
  case xor => exact shape_xor _ _ _
  case andn => exact shape_andn _ _ _
  case orn => exact shape_orn _ _ _
  case shl => exact shape_shl _ _ _
  case shr => exact shape_shr _ _ _
  case sra => exact shape_sra _ _ _
  case min => exact shape_min _ _ _
  case max => exact shape_max _ _ _
  case minn => exact shape_minn _ _ _
  case maxn => exact shape_maxn _ _ _
  case slt => exact shape_slt _ _ _
  case sltn => exact shape_sltn _ _ _
  case mul => exact shape_mul _ _ _
  case mulh => exact shape_mulh _ _ _
  case mulhn => exact shape_mulhn _ _ _
  case div => exact shape_div _ _ _
  case divn => exact shape_divn _ _ _
  case rem => exact shape_rem _ _ _
  case remn => exact shape_remn _ _ _
  case clz => exact shape_clz _ _
  case ctz => exact shape_ctz _ _
  case popc => exact shape_popc _ _
  case adds => exact shape_adds _ _ _ _
  case shli => exact shape_shli _ _ _
  case shri => exact shape_shri _ _ _
  case srai => exact shape_srai _ _ _
  case addi => exact shape_addi _ _ _
  case andi => exact shape_andi _ _ _
  case ori => exact shape_ori _ _ _
  case xori => exact shape_xori _ _ _
  case slti => exact shape_slti _ _ _
  case sltni => exact shape_sltni _ _ _
  case movhi => exact shape_movhi _ _
  case addpc => exact shape_addpc _ _
  case beq => exact shape_beq _ _ _
  case bne => exact shape_bne _ _ _
  case blt => exact shape_blt _ _ _
  case bge => exact shape_bge _ _ _
  case bltn => exact shape_bltn _ _ _
  case bgen => exact shape_bgen _ _ _
  case jal => exact shape_jal _ _
  case jalr => exact shape_jalr _ _ _
  case yield => exact shape_yield _
  case endTask => exact shape_endTask _ _ _
  case endCont => exact shape_endCont _ _
  case release => exact shape_release _ _ _ _
  case releaseDie => exact shape_releaseDie _ _ _ _ _
  case releasePeer => exact shape_releasePeer _ _ _ _
  case claim => exact shape_claim _
  case unclaim => exact shape_unclaim _
  case prio => exact shape_prio _
  case prioSet => exact shape_prioSet _ _
  case self => exact shape_self _
  case selfFrame => exact shape_selfFrame _
  case gdec => exact shape_gdec _ _
  case gnode => exact shape_gnode _
  case gnodeN => exact shape_gnodeN _
  case ld => exact shape_ld _ _ _ _
  case st => exact shape_st _ _ _ _
  case lda => exact shape_lda _ _ _ _
  case stl => exact shape_stl _ _ _ _
  case amo => exact shape_amo _ _ _ _ _ _
  case amop => exact shape_amop _ _ _ _ _
  case amoa => exact shape_amoa _ _ _ _ _ _
  case cas => exact shape_cas _ _ _ _ _ _
  case fadd => exact shape_fadd _ _ _ _ _
  case faddPosted => exact shape_faddPosted _ _ _ _
  case stfFlag => exact shape_stfFlag _ _ _ _
  case stfTask => exact shape_stfTask _ _ _ _
  case pref => exact shape_pref _ _
  case prefFar => exact shape_prefFar _ _
  case fence => exact shape_fence
  case binit => exact shape_binit _ _ _
  case bexpect => exact shape_bexpect _ _
  case barrive => exact shape_barrive _
  case barriveH => exact shape_barriveH _
  case bwait => exact shape_bwait _ _ _
  case btest => exact shape_btest _ _ _
  case bpoison => exact shape_bpoison _ _
  case copy => exact shape_copy _ _
  case copyc => exact shape_copyc _ _
  case copym => exact shape_copym _ _
  case cwp => exact shape_cwp _ _
  case cring => exact shape_cring _ _
  case vld => exact shape_vld _ _ _
  case vldH => exact shape_vldH _ _ _
  case vst => exact shape_vst _ _ _
  case vstH => exact shape_vstH _ _ _
  case vlds => exact shape_vlds _ _ _ _
  case vsts => exact shape_vsts _ _ _ _
  case vgath => exact shape_vgath _ _ _ _ _
  case vscat => exact shape_vscat _ _ _ _ _
  case vbcast => exact shape_vbcast _ _ _ _
  case vins => exact shape_vins _ _ _ _
  case vext => exact shape_vext _ _ _ _ _
  case vadd => exact shape_vadd _ _ _ _ _
  case vsub => exact shape_vsub _ _ _ _ _
  case vmul => exact shape_vmul _ _ _ _ _
  case vmin => exact shape_vmin _ _ _ _ _
  case vmax => exact shape_vmax _ _ _ _ _
  case vdiv => exact shape_vdiv _ _ _ _ _
  case vfma => exact shape_vfma _ _ _ _ _
  case vfms => exact shape_vfms _ _ _ _ _
  case vnfma => exact shape_vnfma _ _ _ _ _
  case vabs => exact shape_vabs _ _ _ _
  case vneg => exact shape_vneg _ _ _ _
  case vsqrt => exact shape_vsqrt _ _ _ _
  case vrcp => exact shape_vrcp _ _ _ _
  case vrsq => exact shape_vrsq _ _ _ _
  case vexp2 => exact shape_vexp2 _ _ _ _
  case vlog2 => exact shape_vlog2 _ _ _ _
  case vcmp => exact shape_vcmp _ _ _ _ _ _
  case vsel => exact shape_vsel _ _ _ _ _
  case vcvt => exact shape_vcvt _ _ _ _ _ _ _
  case viadd => exact shape_viadd _ _ _ _ _ _
  case visub => exact shape_visub _ _ _ _ _ _
  case vimul => exact shape_vimul _ _ _ _ _ _
  case vimulh => exact shape_vimulh _ _ _ _ _ _
  case vimin => exact shape_vimin _ _ _ _ _ _
  case vimax => exact shape_vimax _ _ _ _ _ _
  case vand => exact shape_vand _ _ _ _ _
  case vor => exact shape_vor _ _ _ _ _
  case vxor => exact shape_vxor _ _ _ _ _
  case vshl => exact shape_vshl _ _ _ _ _
  case vshr => exact shape_vshr _ _ _ _ _
  case vsra => exact shape_vsra _ _ _ _ _
  case vicmp => exact shape_vicmp _ _ _ _ _ _ _
  case vredadd => exact shape_vredadd _ _ _ _ _ _
  case vredmin => exact shape_vredmin _ _ _ _ _ _
  case vredmax => exact shape_vredmax _ _ _ _ _ _
  case vredmini => exact shape_vredmini _ _ _ _ _
  case vperm => exact shape_vperm _ _ _ _ _
  case vslideUp => exact shape_vslideUp _ _ _ _ _
  case vslideDn => exact shape_vslideDn _ _ _ _ _
  case vzipLo => exact shape_vzipLo _ _ _ _ _
  case vzipHi => exact shape_vzipHi _ _ _ _ _
  case vcompr => exact shape_vcompr _ _ _ _
  case kand => exact shape_kand _ _ _
  case kor => exact shape_kor _ _ _
  case kxor => exact shape_kxor _ _ _
  case knot => exact shape_knot _ _
  case kpopc => exact shape_kpopc _ _
  case kfirst => exact shape_kfirst _ _
  case kset => exact shape_kset _ _
  case kmov => exact shape_kmov _ _
  case kmovX => exact shape_kmovX _ _
  case bkany => exact shape_bkany _ _
  case bknone => exact shape_bknone _ _
  case rep => exact shape_rep _ _ _ _ _
  case mxldb => exact shape_mxldb _ _ _ _ _
  case mxz => exact shape_mxz _ _
  case mxlda => exact shape_mxlda _ _ _ _
  case mma => exact shape_mma _ _ _ _ _ _
  case mxst => exact shape_mxst _ _ _ _ _ _ _
  case scmc => exact shape_scmc _ _ _ _
  case mxpass => exact shape_mxpass _ _
  case mxqT => exact shape_mxqT _ _
  case mxqS => exact shape_mxqS _ _
  case couple => exact shape_couple _ _ _
  case uncouple => exact shape_uncouple _ _ _
  case cquery => exact shape_cquery _ _ _
  case csync => exact shape_csync
  case pageq => exact shape_pageq _ _
  case pageqH => exact shape_pageqH _ _
  case csrr => exact shape_csrr _ _
  case csrw => exact shape_csrw _ _
  case trap => exact shape_trap _ _ _
  case brk => exact shape_brk _
  case hnop => exact shape_hnop
  case ext => exact shape_ext _
  case mod => exact shape_mod _ _ _
  case sched => exact shape_sched _ _
  all_goals exact nomatch h

/-- A word on a bogie is its run on the top frame, whose body depends on the word. -/
theorem word_on_bogie {i : Instr} {w : BitVec 32} {s : State} {g : Nat} {f : Frame} (h : encode i = some w) (hc : s.cur = .bogie g)
    (ht : (s.bogie g).stack.head? = some f) :
    ∃ body, exec i s = .next (s.afterWord g ((s.bogie g).run i g f body)) := by
  rcases wordShape h s with ⟨body, e⟩ | ⟨body, hb, e⟩
  · exact ⟨_, e.trans (taskWord_bogie body hc ht)⟩
  · exact ⟨_, e.trans (agentWord_bogie body hb hc ht)⟩

/-- A word on an engine hart that engine mode refuses stops the hart. -/
theorem word_refused_on_hart {i : Instr} {w : BitVec 32} {s : State} {d h : Nat} (hw : encode i = some w) (hc : s.cur = .hart d h)
    (hr : engineMode i = false ∨ badPrefix i (s.hart d h).cpu.pfx = true) : exec i s = .next (s.hartFault d h 0x01) := by
  rcases wordShape hw s with ⟨body, e⟩ | ⟨body, hb, e⟩
  · rw [e]; simp only [taskWord, hc]
  · rw [e]; simp only [agentWord, hc, State.hartWord]; rw [if_pos]; simpa using hr


end Sys2Proof.Machine
end

