-- ==== Sys2Proof/Tests/Slice0.lean ====
section
/-! SUPPORT. The tests: encodings written out from the manual, small steps with results worked by hand from it, and for every statement
of Certificates/Slice0/Obligations.lean a state that meets its hypotheses, clause by clause. -/

set_option Elab.async false

namespace Sys2Proof.Tests

open Sys2Proof.Machine Sys2Proof.Safety

/-! ### Helpers -/

/-- Every word of the list decodes to its instruction. -/
def decodes (l : List (BitVec 32 × Instr)) : Bool := l.all fun p => decode p.1 == some p.2

/-- The step ends in a next state of property p. -/
def sees (i : Instr) (s : State) (p : State → Bool) : Bool :=
  match exec i s with
  | .next t => p t
  | _ => false

/-- The same of a whole step. -/
def stepSees (s : State) (p : State → Bool) : Bool :=
  match step s with
  | .next t => p t
  | _ => false

/-- A frame with every register, tile and barrier declared, and with scalar registers x. -/
def reg (x : List (Nat × Word)) : Frame := { probeFrame 1 with cpu := { pc := 0x100000, x := x } }

/-- The machine with bogie 0 running frame f. -/
def on (f : Frame) : State := { State.reset.setBogie 0 { stack := [f], phase := .running, ckpt := some f } with cur := .bogie 0 }

/-- Pages of 64 KiB: 0 writable; 1 read-only by its class; 2 of a device; 3 not readable; 4 readable alone; 6 memory-side. -/
def pages : List TlbEntry :=
  [{ page := 0, w := true, rd := true }, { page := 0x10000, w := true, rd := true, cls := 5 },
   { page := 0x20000, w := true, rd := true, cls := 4 }, { page := 0x30000 }, { page := 0x40000, rd := true },
   { page := 0x60000, w := true, rd := true, cls := 2 }]

/-- The same with the pages in its TLB; page 5 has no mapping. -/
def lab (f : Frame) : State := (on f).setBogie 0 { (on f).bogie 0 with tlb := pages, unmapped := some 5 }

/-- Die 0's hart 16, running with scalar registers x. -/
def hartOn (x : List (Nat × Word)) : State := { State.reset.setHart 0 16 { state := 1, cpu := { pc := 0x100, x := x } } with cur := .hart 0 16 }

/-- Runs, as a computation. -/
def runsB (s : State) (g : Nat) (f : Frame) (i : Instr) : Bool :=
  s.cur == .bogie g && (s.bogie g).stack.head? == some f && gate i f.cpu.pfx f.hdr ((s.bogie g).wordNow i) == none

/-- HartRuns, as a computation. -/
def hartRunsB (s : State) (d h : Nat) (i : Instr) : Bool :=
  s.cur == .hart d h && engineMode i && !badPrefix i (s.hart d h).cpu.pfx

theorem runs_of (s : State) (g : Nat) (f : Frame) (i : Instr) (h : runsB s g f i = true) : Runs s g f i := by
  simp only [runsB, Bool.and_eq_true, beq_iff_eq] at h
  exact ⟨h.1.1, h.1.2, h.2⟩

theorem hartRuns_of (s : State) (d h : Nat) (i : Instr) (hr : hartRunsB s d h i = true) : HartRuns s d h i := by
  simp only [hartRunsB, Bool.and_eq_true, beq_iff_eq, Bool.not_eq_true'] at hr
  exact ⟨hr.1.1, hr.1.2, hr.2⟩

/-- The word faults with a code, address and value. -/
def stops (s : State) (i : Instr) (code addr val : Nat) : Bool :=
  sees i s (· == s.afterWord 0 ((s.bogie 0).syncFault 0 code addr val))

/-- The task goes on with frame f. -/
def goes (s : State) (i : Instr) (f : Frame) : Bool := sees i s (· == s.afterWord 0 { b := (s.bogie 0).advance f })

/-- The word appends l to the outbox. -/
def sends (s : State) (i : Instr) (l : List Op) : Bool :=
  sees i s fun t => (t.bogie 0).outbox == l && (t.bogie 0).phase == .running && t.mem == s.mem

/-- The activation ends at the word, and the frame awaits o for register d. -/
def awaits (s : State) (i : Instr) (o : Op) (d : BitVec 5) : Bool :=
  sees i s fun t => (t.bogie 0).phase == .boundary .await &&
    ((t.bogie 0).stack.head?.bind (·.await)).map (fun a => (a.op, a.dest)) == some (o, d)

/-- Scalar register d after a word on a task with scalar registers x. -/
def xAfter (x : List (Nat × Word)) (i : Instr) (d : BitVec 5) : Option Word :=
  match exec i (lab (reg x)) with
  | .next t => (t.bogie 0).stack.head?.map fun f => f.getX d
  | _ => none

/-- The PC after a word. -/
def pcAfter (x : List (Nat × Word)) (i : Instr) : Option Word :=
  match exec i (lab (reg x)) with
  | .next t => (t.bogie 0).stack.head?.map fun f => f.cpu.pc
  | _ => none

/-! ### Encodings -/

-- The words below are written field by field from R57, R61, R62 and the entries.
theorem test_words_of_the_formats : decodes [
    (0x01#6 ++ 5#5 ++ 0#5 ++ 9#5 ++ 0x180#11, .orn 5 0 9),                  -- the worked word of the formats chapter
    (0x04A6070C, .shri 5 6 12), (0x04A63E83, .adds 5 6 7 3),                -- R153's worked words
    (0x02#6 ++ 14#5 ++ 0#5 ++ 0x9ABC#16, .addi 14 0 0x9ABC), (0x20A08000, .movhi 5 0x8000),
    (0x08#6 ++ 3#5 ++ 1#5 ++ 0x10#16, .addpc 3 0x10),                       -- a = 1 selects ADDPC (R63)
    (0x09#6 ++ 1#5 ++ 2#5 ++ 0x7FFF#16, .beq 1 2 0x7FFF), (0x0E#6 ++ 1#5 ++ 2#5 ++ 1#16, .bgen 1 2 1),
    (0x0F#6 ++ 31#5 ++ 0x1FFFFF#21, .jal 31 0x1FFFFF),
    (0x13#6 ++ 0#5 ++ 4#5 ++ 8#4 ++ 2#12, .gdec 4 2),
    (0x15#6 ++ 5#5 ++ 6#5 ++ 0x1FFF#13 ++ 2#3, .st 5 6 0x1FFF 2),
    (0x6C000004, .fence),                                                    -- R208
    (0x31#6 ++ 0#5 ++ 0#5 ++ 3#4 ++ 0#12, .csync), (0xC4003000, .csync),     -- R375
    (0x20#6 ++ 1#5 ++ 2#5 ++ 3#5 ++ 4#3 ++ 0#6 ++ 2#2, .vadd 1 2 3 4 2),
    (0x24#6 ++ 1#5 ++ 2#5 ++ 3#5 ++ 4#3 ++ 0x20#6 ++ 3#2, .viadd 1 2 3 4 1 3),
    (0xFC745678, .ext 0x345678), (0xFC400048, .ext 0x48), (0xFC000000, .hnop),
    (0xFC800002, .mod 0 0 2)] = true := by decide +kernel

-- R56, R59, R66, R74: reserved majors, hint kinds, function values and fields decode to nothing.
theorem test_reserved_words : ([0xD4000000, 0xF8000000, 0xFD000000, 0xFC000001, 0x04000001, 0x04E00780, 0x20020000, 0x44200000,
    0x48000005] : List (BitVec 32)).all (fun w => decode w == none) = true := by decide +kernel

theorem test_decode_rows_1 : decodes [
    (0x2ABCDEF, .ill 0x2abcdef),
    (0x4EC1800, .add 7 12 3),
    (0x4EC1840, .sub 7 12 3),
    (0x4EC1880, .and 7 12 3),
    (0x4EC18C0, .or 7 12 3),
    (0x4EC1900, .xor 7 12 3),
    (0x4EC1940, .andn 7 12 3),
    (0x4EC1980, .orn 7 12 3),
    (0x4EC19C0, .shl 7 12 3),
    (0x4EC1A00, .shr 7 12 3),
    (0x4EC1A40, .sra 7 12 3),
    (0x4EC1A80, .min 7 12 3),
    (0x4EC1AC0, .max 7 12 3),
    (0x4EC1B00, .minn 7 12 3),
    (0x4EC1B40, .maxn 7 12 3),
    (0x4EC1B80, .slt 7 12 3),
    (0x4EC1BC0, .sltn 7 12 3),
    (0x4EC1C00, .mul 7 12 3),
    (0x4EC1C40, .mulh 7 12 3),
    (0x4EC1C80, .mulhn 7 12 3),
    (0x4EC1CC0, .div 7 12 3),
    (0x4EC1D00, .divn 7 12 3),
    (0x4EC1D40, .rem 7 12 3),
    (0x4EC1D80, .remn 7 12 3),
    (0x4EC05C0, .clz 7 12),
    (0x4EC0600, .ctz 7 12),
    (0x4EC0640, .popc 7 12),
    (0x4EC1EAA, .adds 7 12 3 0x2a),
    (0x4EC06EA, .shli 7 12 0x2a),
    (0x4EC072A, .shri 7 12 0x2a)] = true := by decide +kernel

theorem test_decode_rows_2 : decodes [
    (0x4EC076A, .srai 7 12 0x2a),
    (0x8EC9ABC, .addi 7 12 0x9abc),
    (0xCEC9ABC, .andi 7 12 0x9abc),
    (0x10EC9ABC, .ori 7 12 0x9abc),
    (0x14EC9ABC, .xori 7 12 0x9abc),
    (0x18EC9ABC, .slti 7 12 0x9abc),
    (0x1CEC9ABC, .sltni 7 12 0x9abc),
    (0x20E09ABC, .movhi 7 0x9abc),
    (0x20E19ABC, .addpc 7 0x9abc),
    (0x24EC9ABC, .beq 7 12 0x9abc),
    (0x28EC9ABC, .bne 7 12 0x9abc),
    (0x2CEC9ABC, .blt 7 12 0x9abc),
    (0x30EC9ABC, .bge 7 12 0x9abc),
    (0x34EC9ABC, .bltn 7 12 0x9abc),
    (0x38EC9ABC, .bgen 7 12 0x9abc),
    (0x3CF55557, .jal 7 0x155557),
    (0x40EC9ABC, .jalr 7 12 0x9abc),
    (0x440009C3, .yield 0x9c3),
    (0x48090003, .endTask 9 1 1),
    (0x48EC0004, .endCont 7 12),
    (0x4CEC0019, .release 7 12 1 9),
    (0x4CEC02B9, .releaseDie 7 12 5 1 9),
    (0x4CEC0419, .releasePeer 7 12 1 9),
    (0x4C00102A, .claim 0x2a),
    (0x4C00202A, .unclaim 0x2a),
    (0x4CE03000, .prio 7),
    (0x4CEC3001, .prioSet 7 12),
    (0x4CE04000, .self 7),
    (0x4CE04001, .selfFrame 7),
    (0x4C0789C3, .gdec 7 0x9c3)] = true := by decide +kernel

theorem test_decode_rows_3 : decodes [
    (0x4CE09000, .gnode 7),
    (0x4CE09001, .gnodeN 7),
    (0x50ECD1AD, .ld 7 12 0x1a35 5),
    (0x54ECD1AA, .st 7 12 0x1a35 2),
    (0x58ECD1AA, .lda 7 12 0x1a35 2),
    (0x58ECD1AE, .stl 7 12 0x1a35 2),
    (0x5CEC1B46, .amo 7 12 3 6 2 6),
    (0x600763C3, .amop 7 12 7 2 1),
    (0x60EC1C1F, .amoa 7 12 3 8 3 1),
    (0x64EC1BA3, .cas 7 12 3 14 2 3),
    (0x64EC186A, .fadd 7 12 3 2 2),
    (0x64076029, .faddPosted 7 12 1 1),
    (0x68EC1803, .stfFlag 7 12 3 3),
    (0x68EC180A, .stfTask 7 12 3 2),
    (0x6C07D1A8, .pref 7 0x1a35),
    (0x6C07D1A9, .prefFar 7 0x1a35),
    (0x6C000004, .fence),
    (0x70EC0009, .binit 7 12 9),
    (0x70071009, .bexpect 7 9),
    (0x70002009, .barrive 9),
    (0x70072010, .barriveH 7),
    (0x70EC3009, .bwait 7 12 9),
    (0x70E04019, .btest 7 1 9),
    (0x70005A59, .bpoison 0xa5 9),
    (0x74EC0000, .copy 7 12),
    (0x74EC1000, .copyc 7 12),
    (0x74EC2000, .copym 7 12),
    (0x74E03002, .cwp 7 2),
    (0x74EC4000, .cring 7 12),
    (0x78ECD1A8, .vld 7 12 0x1a35)] = true := by decide +kernel

theorem test_decode_rows_4 : decodes [
    (0x78ECD1A9, .vldH 7 12 0x1a35),
    (0x78ECD1AA, .vst 7 12 0x1a35),
    (0x78ECD1AB, .vstH 7 12 0x1a35),
    (0x78EC1C04, .vlds 7 12 3 2),
    (0x78EC1C05, .vsts 7 12 3 2),
    (0x7CEC1D02, .vgath 7 12 3 5 2),
    (0x7CEC1D06, .vscat 7 12 3 5 2),
    (0x7CEC050A, .vbcast 7 12 5 2),
    (0x7CEC180E, .vins 7 12 3 2),
    (0x7CEC1892, .vext 7 12 3 1 2),
    (0x80EC1D02, .vadd 7 12 3 5 2),
    (0x80EC1D06, .vsub 7 12 3 5 2),
    (0x80EC1D0A, .vmul 7 12 3 5 2),
    (0x80EC1D0E, .vmin 7 12 3 5 2),
    (0x80EC1D12, .vmax 7 12 3 5 2),
    (0x80EC1D16, .vdiv 7 12 3 5 2),
    (0x84EC1D02, .vfma 7 12 3 5 2),
    (0x84EC1D06, .vfms 7 12 3 5 2),
    (0x84EC1D0A, .vnfma 7 12 3 5 2),
    (0x88EC0502, .vabs 7 12 5 2),
    (0x88EC0506, .vneg 7 12 5 2),
    (0x88EC050A, .vsqrt 7 12 5 2),
    (0x88EC050E, .vrcp 7 12 5 2),
    (0x88EC0512, .vrsq 7 12 5 2),
    (0x88EC0516, .vexp2 7 12 5 2),
    (0x88EC051A, .vlog2 7 12 5 2),
    (0x8CEC1D16, .vcmp 7 12 3 5 5 2),
    (0x8CEC1D22, .vsel 7 12 3 5 2),
    (0x8CEC05FB, .vcvt 7 12 5 1 14 1 1),
    (0x90EC1D82, .viadd 7 12 3 5 1 2)] = true := by decide +kernel

theorem test_decode_rows_5 : decodes [
    (0x90EC1D86, .visub 7 12 3 5 1 2),
    (0x90EC1D8A, .vimul 7 12 3 5 1 2),
    (0x90EC1D8E, .vimulh 7 12 3 5 1 2),
    (0x90EC1D92, .vimin 7 12 3 5 1 2),
    (0x90EC1D96, .vimax 7 12 3 5 1 2),
    (0x94EC1D02, .vand 7 12 3 5 2),
    (0x94EC1D06, .vor 7 12 3 5 2),
    (0x94EC1D0A, .vxor 7 12 3 5 2),
    (0x94EC1D0E, .vshl 7 12 3 5 2),
    (0x94EC1D12, .vshr 7 12 3 5 2),
    (0x94EC1D16, .vsra 7 12 3 5 2),
    (0x94EC1DB6, .vicmp 7 12 3 5 1 5 2),
    (0x98EC0541, .vredadd 7 12 5 0 1 1),
    (0x98EC0587, .vredmin 7 12 5 1 0 3),
    (0x98EC054A, .vredmax 7 12 5 0 1 2),
    (0x98EC058E, .vredmini 7 12 5 1 2),
    (0x9CEC1D02, .vperm 7 12 3 5 2),
    (0x9CEC1D06, .vslideUp 7 12 3 5 2),
    (0x9CEC1D0A, .vslideDn 7 12 3 5 2),
    (0x9CEC1D0E, .vzipLo 7 12 3 5 2),
    (0x9CEC1D12, .vzipHi 7 12 3 5 2),
    (0x9CEC0516, .vcompr 7 12 5 2),
    (0xA0EC1800, .kand 7 12 3),
    (0xA0EC1804, .kor 7 12 3),
    (0xA0EC1808, .kxor 7 12 3),
    (0xA0EC000C, .knot 7 12),
    (0xA0EC0010, .kpopc 7 12),
    (0xA0EC0014, .kfirst 7 12),
    (0xA0EC0018, .kset 7 12),
    (0xA0EC001C, .kmov 7 12)] = true := by decide +kernel

theorem test_decode_rows_6 : decodes [
    (0xA0EC0020, .kmovX 7 12),
    (0xA4E09ABC, .bkany 7 0x9abc),
    (0xA4E19ABC, .bknone 7 0x9abc),
    (0xA8EC1D2D, .rep 7 12 3 0xa5 5),
    (0xACEC1876, .mxldb 7 12 3 7 6),
    (0xB0E00001, .mxz 7 1),
    (0xB0EC1C01, .mxlda 7 12 3 1),
    (0xB4EC1D59, .mma 7 12 3 0x2a 1 9),
    (0xB8EC1CEC, .mxst 7 12 3 9 1 5 2),
    (0xBCEC1809, .scmc 7 12 3 9),
    (0xC0E00001, .mxpass 7 1),
    (0xC0EC0200, .mxqT 7 12),
    (0xC0EC0400, .mxqS 7 12),
    (0xC4EC002A, .couple 7 12 0x2a),
    (0xC4EC102A, .uncouple 7 12 0x2a),
    (0xC4E0206A, .cquery 7 1 0x2a),
    (0xC4003000, .csync),
    (0xC8EC0000, .pageq 7 12),
    (0xC8EC1000, .pageqH 7 12),
    (0xCCE00103, .csrr 7 0x103),
    (0xCC071020, .csrw 7 0x20),
    (0xD0EC09C3, .trap 7 12 0x9c3),
    (0xD00019C3, .brk 0x9c3),
    (0xFC000000, .hnop),
    (0xFC6ABCDE, .ext 0x2abcde),
    (0xFC80001C, .mod 1 1 4),
    (0xFCC0006A, .sched 1 0x2a)] = true := by decide +kernel

-- An ill-formed term for each check of WellFormed, which the check refuses.
theorem test_wellFormed_refuses : ([.endTask 9 0 0, .release 1 2 0 3, .releaseDie 1 2 8 0 0, .releaseDie 1 2 3 0 1, .releasePeer 1 2 0 1,
    .gdec 1 0, .ld 1 2 0 7, .amo 1 2 3 9 0 3, .amo 1 2 3 0 0 5, .amop 1 2 9 0 0, .amop 1 2 0 1 0, .amoa 1 2 3 9 0 0, .cas 1 2 3 4 0 7,
    .fadd 1 2 3 0 3, .faddPosted 1 2 0 3, .stfFlag 1 2 3 4, .stfTask 1 2 3 5, .bpoison 0 1, .vadd 1 2 3 0 3, .vsub 1 2 3 0 3,
    .vmul 1 2 3 0 3, .vmin 1 2 3 0 3, .vmax 1 2 3 0 3, .vdiv 1 2 3 0 3, .vfma 1 2 3 0 3, .vfms 1 2 3 0 3, .vnfma 1 2 3 0 3,
    .vabs 1 2 0 3, .vneg 1 2 0 3, .vsqrt 1 2 0 3, .vrcp 1 2 0 3, .vrsq 1 2 0 3, .vexp2 1 2 0 3, .vlog2 1 2 0 3, .vcmp 1 2 3 0 0 3,
    .vcvt 1 2 0 0 15 0 0, .vcvt 1 2 0 0 5 0 1, .vcvt 1 2 0 0 7 1 0, .vcvt 1 2 0 1 6 0 0, .vicmp 1 2 3 0 0 6 0, .vredadd 1 2 0 1 1 0,
    .vredmin 1 2 0 0 1 3, .vredmax 1 2 0 1 1 1, .vredmini 1 2 0 0 3, .mxldb 1 2 3 0 2, .mxldb 1 2 3 8 0, .mxldb 1 2 3 0 5,
    .mxldb 1 2 3 1 6, .mma 1 2 3 0 0 0, .mxst 1 2 3 0 1 7 0, .mxst 1 2 3 0 1 5 3, .mxst 1 2 3 0 1 0 1, .mxst 1 2 3 4 0 0 0,
    .csrr 1 4, .csrw 1 0x10, .mod 0 0 5] : List Instr).all (fun i => !wellFormed i) = true := by decide +kernel

/-! ### Scalar words: R152-R159 -/

-- Sums and products wrap, shifts take their count modulo 64, comparisons are signed or unsigned.
theorem test_register_words : [
    (xAfter [(1, BitVec.allOnes 64), (2, 2)] (.add 3 1 2) 3, 1), (xAfter [(4, 1)] (.sub 3 0 4) 3, BitVec.allOnes 64),
    (xAfter [(1, 12), (2, 10)] (.and 3 1 2) 3, 8), (xAfter [(1, 12), (2, 10)] (.or 3 1 2) 3, 14),
    (xAfter [(1, 12), (2, 10)] (.xor 3 1 2) 3, 6), (xAfter [(1, 12), (2, 10)] (.andn 3 1 2) 3, 4),
    (xAfter [(2, 1)] (.orn 3 0 2) 3, 0xFFFFFFFFFFFFFFFE), (xAfter [(1, 3), (2, 65)] (.shl 3 1 2) 3, 6),
    (xAfter [(1, 0x8000000000000000), (2, 63)] (.shr 3 1 2) 3, 1),
    (xAfter [(1, 0x8000000000000000), (2, 63)] (.sra 3 1 2) 3, BitVec.allOnes 64),
    (xAfter [(1, BitVec.allOnes 64), (2, 1)] (.min 3 1 2) 3, BitVec.allOnes 64),
    (xAfter [(1, BitVec.allOnes 64), (2, 1)] (.max 3 1 2) 3, 1), (xAfter [(1, BitVec.allOnes 64), (2, 1)] (.minn 3 1 2) 3, 1),
    (xAfter [(1, BitVec.allOnes 64), (2, 1)] (.maxn 3 1 2) 3, BitVec.allOnes 64),
    (xAfter [(1, BitVec.allOnes 64), (2, 1)] (.slt 3 1 2) 3, 1), (xAfter [(1, BitVec.allOnes 64), (2, 1)] (.sltn 3 1 2) 3, 0),
    -- the worked products of R153: all ones by all ones
    (xAfter [(1, BitVec.allOnes 64)] (.mul 3 1 1) 3, 1), (xAfter [(1, BitVec.allOnes 64)] (.mulh 3 1 1) 3, 0),
    (xAfter [(1, BitVec.allOnes 64)] (.mulhn 3 1 1) 3, 0xFFFFFFFFFFFFFFFE),
    (xAfter [(6, 0x1000), (7, 5)] (.adds 5 6 7 3) 5, 0x1028), (xAfter [(1, 3)] (.shli 3 1 63) 3, 0x8000000000000000),
    (xAfter [(1, 0xF000)] (.shri 3 1 12) 3, 0xF), (xAfter [(1, 0x8000000000000000)] (.srai 3 1 62) 3, 0xFFFFFFFFFFFFFFFE)
    ].all (fun p => p.1 == some p.2) = true := by decide +kernel

-- The table of R153: −7 and 2, a zero divisor, −2^63 and −1; and the counts.
theorem test_division_and_counts : [
    (xAfter [(1, -7), (2, 2)] (.div 3 1 2) 3, -3), (xAfter [(1, -7), (2, 2)] (.rem 3 1 2) 3, -1),
    (xAfter [(1, -7), (2, 2)] (.divn 3 1 2) 3, 0x7FFFFFFFFFFFFFFC), (xAfter [(1, -7), (2, 2)] (.remn 3 1 2) 3, 1),
    (xAfter [(1, 7)] (.div 3 1 2) 3, BitVec.allOnes 64), (xAfter [(1, 7)] (.rem 3 1 2) 3, 7),
    (xAfter [(1, 7)] (.divn 3 1 2) 3, BitVec.allOnes 64), (xAfter [(1, 7)] (.remn 3 1 2) 3, 7),
    (xAfter [(1, 0x8000000000000000), (2, -1)] (.div 3 1 2) 3, 0x8000000000000000),
    (xAfter [(1, 0x8000000000000000), (2, -1)] (.rem 3 1 2) 3, 0), (xAfter [(1, 0x8000000000000000), (2, -1)] (.divn 3 1 2) 3, 0),
    (xAfter [(1, 0x8000000000000000), (2, -1)] (.remn 3 1 2) 3, 0x8000000000000000),
    (xAfter [(1, 1)] (.clz 3 1) 3, 63), (xAfter [] (.clz 3 1) 3, 64), (xAfter [(1, 8)] (.ctz 3 1) 3, 3), (xAfter [] (.ctz 3 1) 3, 64),
    (xAfter [(1, 0xF00F)] (.popc 3 1) 3, 8)].all (fun p => p.1 == some p.2) = true := by decide +kernel

-- R154-R156, and R155's table: movhi 0x8000 and then addi −0x8000.
theorem test_immediate_words : [
    (xAfter [(1, 5)] (.addi 3 1 0xFFFF) 3, 4), (xAfter [(6, 0xFF)] (.andi 5 6 0xFFF0) 5, 0xF0), (xAfter [(6, 1)] (.ori 5 6 0xFFF0) 5, 0xFFFFFFFFFFFFFFF1),
    (xAfter [(6, 1)] (.xori 5 6 0xFFFF) 5, 0xFFFFFFFFFFFFFFFE), (xAfter [(6, -2)] (.slti 5 6 0xFFFF) 5, 1),
    (xAfter [(6, 7)] (.sltni 5 6 0xFFFF) 5, 1), (xAfter [(6, -1)] (.sltni 5 6 0xFFFF) 5, 0),
    (xAfter [] (.movhi 5 0x8000) 5, 0x8000000000000000), (xAfter [(5, 0x8000000000000000)] (.addi 5 5 0x8000) 5, 0x7FFFFFFFFFFF8000),
    (xAfter [] (.movhi 5 0xFF20) 5, 0xFF20000000000000), (xAfter [] (.addpc 5 0xFFF0) 5, 0xFFFF0)].all (fun p => p.1 == some p.2) = true := by
  decide +kernel

-- The worked EXT sequence of the formats chapter, and a pair of EXT words with a zero payload.
theorem test_extended_immediate :
    immediate { exts := [0x345678, 0x48] } 0x9ABC = 0x123456789ABC ∧ immediate { exts := [0] } 0x9ABC = 0x9ABC ∧
    immediateOf { exts := [0x345678, 0x48] } 0x9ABC = 0x123456789ABC := by decide +kernel

theorem test_branches : [
    (pcAfter [(1, 1)] (.beq 1 0 4), 0x100004), (pcAfter [] (.beq 1 0 4), 0x100010), (pcAfter [(10, 1)] (.bne 10 0 0xFFFE), 0xFFFF8),
    (pcAfter [(1, -1)] (.blt 1 0 2), 0x100008), (pcAfter [(1, -1)] (.bge 1 0 2), 0x100004), (pcAfter [(1, -1)] (.bltn 1 0 2), 0x100004),
    (pcAfter [(1, -1)] (.bgen 1 0 2), 0x100008), (pcAfter [] (.jal 31 0x1FFFFF), 0xFFFFC), (pcAfter [(31, 0x40)] (.jalr 31 31 4), 0x44),
    (pcAfter [] (.bkany 1 2), 0x100004), (pcAfter [] (.bkany 0 2), 0x100008), (pcAfter [] (.bknone 1 2), 0x100008)].all
    (fun p => p.1 == some p.2) = true ∧ xAfter [(31, 0x40)] (.jalr 31 31 4) 31 = some 0x100004 := by decide +kernel

/-! ### Words run: the hypotheses Runs and HartRuns -/

/-- One word of every constructor that is a word. -/
def words : List Instr :=
  [.ill 0x2abcdef, .add 7 12 3, .sub 7 12 3, .and 7 12 3, .or 7 12 3, .xor 7 12 3, .andn 7 12 3, .orn 7 12 3, .shl 7 12 3, .shr 7 12 3,
   .sra 7 12 3, .min 7 12 3, .max 7 12 3, .minn 7 12 3, .maxn 7 12 3, .slt 7 12 3, .sltn 7 12 3, .mul 7 12 3, .mulh 7 12 3,
   .mulhn 7 12 3, .div 7 12 3, .divn 7 12 3, .rem 7 12 3, .remn 7 12 3, .clz 7 12, .ctz 7 12, .popc 7 12, .adds 7 12 3 0x2a,
   .shli 7 12 0x2a, .shri 7 12 0x2a, .srai 7 12 0x2a, .addi 7 12 0x9abc, .andi 7 12 0x9abc, .ori 7 12 0x9abc, .xori 7 12 0x9abc,
   .slti 7 12 0x9abc, .sltni 7 12 0x9abc, .movhi 7 0x9abc, .addpc 7 0x9abc, .beq 7 12 0x9abc, .bne 7 12 0x9abc, .blt 7 12 0x9abc,
   .bge 7 12 0x9abc, .bltn 7 12 0x9abc, .bgen 7 12 0x9abc, .jal 7 0x155557, .jalr 7 12 0x9abc, .yield 0x9c3, .endTask 9 1 1,
   .endCont 7 12, .release 7 12 1 9, .releaseDie 7 12 5 1 9, .releasePeer 7 12 1 9, .claim 0x2a, .unclaim 0x2a, .prio 7, .prioSet 7 12,
   .self 7, .selfFrame 7, .gdec 7 0x9c3, .gnode 7, .gnodeN 7, .ld 7 12 0x1a35 5, .st 7 12 0x1a35 2, .lda 7 12 0x1a35 2,
   .stl 7 12 0x1a35 2, .amo 7 12 3 6 2 6, .amop 7 12 7 2 1, .amoa 7 12 3 8 3 1, .cas 7 12 3 14 2 3, .fadd 7 12 3 2 2,
   .faddPosted 7 12 1 1, .stfFlag 7 12 3 3, .stfTask 7 12 3 2, .pref 7 0x1a35, .prefFar 7 0x1a35, .fence, .binit 7 12 9, .bexpect 7 9,
   .barrive 9, .barriveH 7, .bwait 7 12 9, .btest 7 1 9, .bpoison 0xa5 9, .copy 7 12, .copyc 7 12, .copym 7 12, .cwp 7 2, .cring 7 12,
   .vld 7 12 0x1a35, .vldH 7 12 0x1a35, .vst 7 12 0x1a35, .vstH 7 12 0x1a35, .vlds 7 12 3 2, .vsts 7 12 3 2, .vgath 7 12 3 5 2,
   .vscat 7 12 3 5 2, .vbcast 7 12 5 2, .vins 7 12 3 2, .vext 7 12 3 1 2, .vadd 7 12 3 5 2, .vsub 7 12 3 5 2, .vmul 7 12 3 5 2,
   .vmin 7 12 3 5 2, .vmax 7 12 3 5 2, .vdiv 7 12 3 5 2, .vfma 7 12 3 5 2, .vfms 7 12 3 5 2, .vnfma 7 12 3 5 2, .vabs 7 12 5 2,
   .vneg 7 12 5 2, .vsqrt 7 12 5 2, .vrcp 7 12 5 2, .vrsq 7 12 5 2, .vexp2 7 12 5 2, .vlog2 7 12 5 2, .vcmp 7 12 3 5 5 2,
   .vsel 7 12 3 5 2, .vcvt 7 12 5 1 14 1 1, .viadd 7 12 3 5 1 2, .visub 7 12 3 5 1 2, .vimul 7 12 3 5 1 2, .vimulh 7 12 3 5 1 2,
   .vimin 7 12 3 5 1 2, .vimax 7 12 3 5 1 2, .vand 7 12 3 5 2, .vor 7 12 3 5 2, .vxor 7 12 3 5 2, .vshl 7 12 3 5 2, .vshr 7 12 3 5 2,
   .vsra 7 12 3 5 2, .vicmp 7 12 3 5 1 5 2, .vredadd 7 12 5 0 1 1, .vredmin 7 12 5 1 0 3, .vredmax 7 12 5 0 1 2, .vredmini 7 12 5 1 2,
   .vperm 7 12 3 5 2, .vslideUp 7 12 3 5 2, .vslideDn 7 12 3 5 2, .vzipLo 7 12 3 5 2, .vzipHi 7 12 3 5 2, .vcompr 7 12 5 2, .kand 1 2 3,
   .kor 1 2 3, .kxor 1 2 3, .knot 1 2, .kpopc 1 2, .kfirst 1 2, .kset 1 2, .kmov 1 2, .kmovX 1 2, .bkany 1 4, .bknone 1 4,
   .rep 7 12 3 0xa5 5, .mxldb 7 12 3 7 6, .mxz 1 1, .mxlda 1 2 3 0, .mma 1 2 3 4 0 0, .mxst 1 2 3 0 0 0 0, .scmc 7 12 3 9, .mxpass 7 1,
   .mxqT 1 2, .mxqS 7 12, .couple 7 12 0x2a, .uncouple 7 12 0x2a, .cquery 7 1 0x2a, .csync, .pageq 7 12, .pageqH 7 12, .csrr 7 0x103,
   .csrw 7 0x20, .trap 7 12 0x9c3, .brk 0x9c3, .hnop, .ext 0x2abcde, .mod 1 1 4, .sched 1 0x2a]

-- Every word is run by a task whose kernel declares everything: Runs of each is met.
theorem test_witness_words_run : words.all (runsB (lab (reg [])) 0 (reg [])) = true := by decide +kernel

theorem test_witness_runs : Runs (lab (reg [])) 0 (reg []) (.add 1 2 3) := runs_of _ _ _ _ (by decide +kernel)

-- And every word that engine mode accepts is run by a hart; the others are not accepted.
theorem test_witness_hart_words_run : words.all (fun i => engineMode i == hartRunsB (hartOn []) 0 16 i) = true := by decide +kernel

theorem test_witness_hartRuns : HartRuns (hartOn []) 0 16 (.add 1 2 3) := hartRuns_of _ _ _ _ (by decide +kernel)

-- ScalarWords, BranchesAndJumps: the values that their hypotheses take are those of the tables.
theorem test_witness_ScalarWords (c : Cpu) : registerValue (.add 1 2 3) c = some (1, BitVec.ofInt 64 ((c.getX 2).toInt + (c.getX 3).toInt)) ∧
    immediateValue (.movhi 1 7) c = some (1, BitVec.ofInt 64 (immediateOf c.pfx 7 * 2 ^ 48)) ∧
    branchCondition (.beq 1 2 8) c = some (decide (c.getX 1 = c.getX 2), 8) := ⟨rfl, rfl, rfl⟩

-- JALR to an address that is no multiple of 4.
theorem test_jalr_misaligned : stops (lab (reg [(1, 6)])) (.jalr 2 1 0) 0x04 6 0 = true := by decide +kernel

/-- A frame of a kernel that declares next to nothing. -/
def bare : Frame := { reg [] with hdr := { addr := 0xFFFC0, words := 1 } }

-- PrefixesAndChecks: each check has its word and prefix.
theorem test_witness_PrefixesAndChecks :
    stops (lab (reg [])) (.ill 5) 0x01 0 5 = true ∧ stops (on { reg [] with cpu := { pc := 0x100000, pfx := { mod := some 2 } } }) .fence 0x01 0 0x6C000004 = true ∧
    stops (on bare) (.add 9 0 0) 0x02 0 0x05200000 = true ∧ stops (on bare) (.barrive 3) 0x0A 0 3 = true ∧ stops (on bare) (.mxz 3 0) 0x0C 0 3 = true ∧
    sees (.vadd 1 2 3 0 0) (hartOn []) (fun t => (t.hart 0 16).stopped == some 1) = true ∧
    sees (.ill 0) (hartOn []) (fun t => (t.hart 0 16).stopped == some 1) = true ∧
    sees (.ext 7) (on (reg [])) (fun t => ((t.bogie 0).stack.head?.map fun f => f.cpu.pfx.exts) == some [7]) = true ∧
    sees (.mod 1 0 2) (on (reg [])) (fun t => ((t.bogie 0).stack.head?.map fun f => f.cpu.pfx.mod) == some (some 0x12)) = true ∧
    sees (.sched 1 5) (on (reg [])) (fun t => ((t.bogie 0).stack.head?.map fun f => f.cpu.pfx.sched) == some (some 0x45)) = true ∧
    goes (on { reg [] with cpu := { pc := 0x100000, pfx := { exts := [1] } } }) .hnop (reg []) = false := by decide +kernel

/-! ### Steps -/

-- StepRunsDecodedWord: the state of withFetchWord meets every hypothesis, and the step runs the word; a reserved word is illegal.
theorem test_witness_StepRunsDecodedWord :
    let s := State.reset.withFetchWord 32 0x08220005
    let f := probeFrame 1
    s.turn = .agent (.bogie 0) ∧ (s.bogie 0).phase = .running ∧ (s.bogie 0).stack.head? = some f ∧ (s.bogie 0).rep = none ∧
    (s.bogie 0).fetched < f.window ∧ inExtent f.hdr f.cpu.pc.toNat = true ∧
    (s.bogie 0).translate f.ctx f.cpu.pc.toNat = .ok (some (probeLeaf.entry 0 probePc)) ∧ (probeLeaf.entry 0 probePc).x = true ∧
    s.codeHit 0 f.ctx f.cpu.pc.toNat = none ∧
    s.leaf f.ctx f.cpu.pc.toNat = some probeLeaf ∧ probeLeaf.cls ≠ 3 ∧ probeLeaf.present = true ∧ probeLeaf.migr = false ∧
    (let held := (State.reset.withFetchWord 32 0xF8000000).setCoach 0 { icache := [{ ctx := f.ctx, va := 0x100000, data := 0x08220005 }] }
     (held.codeHit 0 f.ctx f.cpu.pc.toNat).isSome = true ∧ stepSees held (fun t => ((t.bogie 0).stack.head?.map fun f => f.getX 1) == some 5) = true) ∧
    stepSees s (fun t => ((t.bogie 0).stack.head?.map fun f => (f.getX 1, f.cpu.pc, f.instret)) == some (5, 0x100004, 1)) = true ∧
    stepSees (State.reset.withFetchWord 32 0xF8000000) (fun t => (t.bogie 0).phase == .boundary (.fault { code := 1, extra := 0xF800000000000000 })) = true := by
  decide +kernel

-- StepRunsHartWord: a hart that runs addi x1, x2, 5, and one that meets a reserved word.
theorem test_witness_StepRunsHartWord :
    let h : Hart := { state := 1, image := Tab.setList [] 0 0 [0x05, 0x00, 0x22, 0x08] }
    let s := { State.reset.setHart 0 16 h with turn := .agent (.hart 0 16) }
    stepSees s (fun t => (t.hart 0 16).cpu.getX 1 == 5 && (t.hart 0 16).cpu.pc == 4) = true ∧
    stepSees { s.setHart 0 16 { h with image := Tab.setList [] 0 3 [0xF8] } with turn := .agent (.hart 0 16) }
      (fun t => (t.hart 0 16).stopped == some 1) = true := by decide +kernel

/-- A running bogie whose turn it is. -/
def turn (f : Frame) (n : Nat) (e : List TlbEntry) (u : Option Nat) : State :=
  { State.reset.setBogie 0 { stack := [f], phase := .running, fetched := n, tlb := e, unmapped := u } with turn := .agent (.bogie 0) }

-- FetchOfWords: the window is used up; a PC before the extent, after it and no multiple of 4; no page; a page that is not executable.
theorem test_witness_FetchOfWords :
    let at_ := fun (pc : Word) => { probeFrame 1 with cpu := { pc := pc } }
    let ends := fun (s : State) (code : Nat) => stepSees s fun t => match (t.bogie 0).phase with
      | .boundary (.fault i) => i.code == code
      | _ => false
    ends (turn (probeFrame 1) 4095 [] none) 0x0F = true ∧ ends (turn (at_ 0xFFFFC) 0 [] none) 0x03 = true ∧
    ends (turn (at_ 0x100004) 0 [] none) 0x03 = true ∧ ends (turn (at_ 0x100002) 0 [] none) 0x03 = true ∧
    ends (turn (probeFrame 1) 4094 [] (some 16)) 0x09 = true ∧
    ends (turn (probeFrame 1) 0 [{ page := 0x100000, rd := true }] none) 0x08 = true ∧
    sees .watchdog (hartOn []) (fun t => (t.hart 0 16).stopped == some 0x0F) = true := by decide +kernel

/-- A repetition of two words, two passes, at its first, a middle and its last word. -/
def twice (pass idx : Nat) : Rep := { addr := 0x100000, body := [0x04220800, 0x08210001], count := 2, sd := 0, sa := 0, sb := 0, pass := pass, idx := idx }

theorem test_witness_RepetitionSteps :
    let pc := fun (r : Rep) => ({ stack := [reg []], rep := some r : Bogie }.advance (reg [])).stack.head?.map fun f => f.cpu.pc
    pc (twice 0 0) = some 0x100008 ∧ pc (twice 0 1) = some 0x100004 ∧ pc (twice 1 1) = some 0x10000C ∧
    ({ stack := [reg []], rep := some (twice 1 1) : Bogie }.advance (reg [])).rep = none ∧ (twice 0 0).now = some (.add 1 2 1) := by decide +kernel

-- RepetitionBegins: a REP of two passes over vadd, within the limits; and over a word that may not stand in a body.
theorem test_witness_RepetitionBegins :
    let f := { probeFrame 1 with hdr := { probeHeader with words := 4 } }
    let st := fun (w : Nat) =>
      let s := (State.reset.withFetchWord 32 0).writeBytes (memKey 0 probePc + 4) (bytesOfNat 4 w)
      { s.setBogie 0 { s.bogie 0 with stack := [f] } with cur := .bogie 0 }
    runsB (st 0x80221800) 0 f (.rep 0 0 0 1 0) = true ∧
    repBody (st 0x80221800) 0 ((st 0x80221800).bogie 0) f 1 = .ok [0x80221800] ∧ bodyLegal [0x80221800] {} = true ∧
    repNames f.hdr [.vadd 1 2 3 0 0, .vadd 1 2 3 0 0, .vadd 1 2 3 0 0] 0xA8000008 = none ∧
    sees (.rep 0 0 0 1 0) (st 0x80221800) (fun t => (t.bogie 0).rep.map (fun r => (r.body, r.count)) == some ([0x80221800], 2)) = true ∧
    repBody (st 0x44000000) 0 ((st 0x44000000).bogie 0) f 1 = .ok [0x44000000] ∧ bodyLegal [0x44000000] {} = false ∧
    stops (st 0x44000000) (.rep 0 0 0 1 0) 0x01 0 0xA8000008 = true := by decide +kernel

-- AgentStepIsolation, StepsKeepMemory: a turn of a bogie whose step goes on, in a canonical memory; and ResetState is concrete.
theorem test_witness_invariants :
    let s := State.reset.withFetchWord 32 0x08220005
    s.turn = .agent (.bogie 0) ∧ memWf s.mem = true ∧ memWf s.hostMem = true ∧ stepSees s (fun t => memWf t.mem && memWf t.hostMem) = true := by
  decide +kernel

/-! ### Task words -/

/-- A context that runs, with a ceiling for resource 5. -/
def running : Ctx := { state := 3, bandLow := 2, bandHigh := 12, ceilings := [(5, 0x1D)] }

-- TasksYieldAndEnd: YIELD; END with and without a successor, with a node-done report; END.cont with a resume PC that is aligned and one
-- that is not, and of a NODE frame; BRK.
theorem test_witness_TasksYieldAndEnd :
    let member := { reg [(9, 7)] with succ := 0x140, d0 := 0x200000000, type := 3 }
    let cont := { reg [(2, 0x40), (3, 5)] with record := 0x80 }
    sees (.yield 64) (lab (reg [])) (fun t => (t.bogie 0).phase == .boundary .commit && ((t.bogie 0).stack.head?.map (·.window)) == some 64) = true ∧
    sees (.yield 0) (lab (reg [])) (fun t => ((t.bogie 0).stack.head?.map (·.window)) == some 4095) = true ∧
    stops (lab { reg [] with record := 0xC0 }) (.endTask 9 1 0) 0x12 0xC0 0 = true ∧
    sees (.endTask 9 1 1) (lab member) (fun t => (t.bogie 0).phase == .boundary .ended && (t.bogie 0).outbox ==
      [.release none false { type := 1, prio := 0, ctx := 0, record := 0x140, arg := 7 }, .notice 0 0 true true]) = true ∧
    sees (.endTask 0 0 0) (lab (reg [])) (fun t => (t.bogie 0).outbox == []) = true ∧
    stops (lab (reg [(2, 6)])) (.endCont 2 3) 0x04 6 0 = true ∧
    stops (lab { cont with type := 3 }) (.endCont 2 3) 0x12 0x80 0 = true ∧
    checkAccess (lab cont) 0 ((lab cont).bogie 0) cont .store 0x80 8 = .ok (.mem { page := 0, w := true, rd := true }) ∧
    sees (.endCont 2 3) (lab cont) (fun t => (t.bogie 0).outbox.length == 2 && (t.bogie 0).phase == .boundary .ended) = true ∧
    sees (.brk 7) (lab (reg [])) (fun t => (t.bogie 0).phase == .boundary (.brk { code := 0x15, extra := 0x700000000, pc := 0x100000 })) = true := by
  decide +kernel

-- ReleasesAndClaims: a record misaligned, in the peer window, in the engine region, unmapped, and readable; the peer form elsewhere and
-- with an entry that is valid.
theorem test_witness_releases :
    let pw := 0xFE00400000000000
    let peer := { lab (reg [(1, 0xFE00400000000000)]) with peers := [(1, 9)] }
    stops (lab (reg [(1, 8)])) (.release 1 2 0 0) 0x04 8 0 = true ∧ stops (lab (reg [(1, 8)])) (.releasePeer 1 2 0 0) 0x04 8 0 = true ∧
    stops (lab (reg [(1, 0xFE00400000000000)])) (.releaseDie 1 2 3 0 0) 0x12 pw 0 = true ∧
    stops (lab (reg [(1, 0xFF20000000000000)])) (.release 1 2 0 0) 0x09 0xFF20000000000000 0 = true ∧
    stops (lab (reg [(1, 0x50000)])) (.release 1 2 0 0) 0x09 0x50000 0 = true ∧
    sends (lab (reg [(1, 0x40), (2, 7)])) (.release 1 2 1 5) [.release none false { prio := 5, record := 0x40, arg := 7 }] = true ∧
    sends (lab (reg [(1, 0x40), (2, 7)])) (.releaseDie 1 2 3 0 0) [.release (some 3) false { record := 0x40, arg := 7 }] = true ∧
    stops (lab (reg [(1, 0x40)])) (.releasePeer 1 2 0 0) 0x12 0x40 0 = true ∧
    bit (peerEntry peer 0 pw) 0 = true ∧ bit (peerEntry peer 0 pw) 3 = true ∧
    sends peer (.releasePeer 1 2 0 0) [.release none true { record := pw }] = true := by decide +kernel

-- CLAIM and UNCLAIM: undeclared, twice, the ninth, granted; out of order, in order.
theorem test_witness_claims :
    let c := fun (f : Frame) => (lab f).setCtx 0 running
    let nine := { reg [] with claims := (List.range 8).map fun n => (n + 10, 3) }
    let held := { reg [] with claims := [(5, 13)] }
    let none' := { reg [] with hdr := { probeHeader with res := 0 } }
    stops (c none') (.claim 5) 0x0D 0 5 = true ∧ (running.ceiling 5).isSome = true ∧ stops (c held) (.claim 5) 0x0E 0 5 = true ∧
    stops (c nine) (.claim 5) 0x0E 0 5 = true ∧
    sees (.claim 5) (c (reg [])) (fun t => ((t.bogie 0).stack.head?.map fun f => f.claims.map (·.1)) == some [5]) = true ∧
    stops (c none') (.unclaim 5) 0x0D 0 5 = true ∧ stops (c held) (.unclaim 6) 0x0E 0 6 = true ∧
    goes (c held) (.unclaim 5) (reg []) = true := by decide +kernel

-- PriorityIdentityAndGroups: PRIO.set within, and with nothing between, the bounds; SELF of a bogie of die 1; GNODE of a member and of none;
-- GDEC of a good reference and of two bad ones.
theorem test_witness_PriorityIdentityAndGroups :
    let c := fun (f : Frame) => (lab f).setCtx 0 running
    let plain := { reg [(1, 9)] with hdr := { probeHeader with res := 0 } }
    sees (.prioSet 2 1) (c plain) (fun t => ((t.bogie 0).stack.head?.map fun f => (f.prio, f.getX 2)) == some (9, 0)) = true ∧
    sees (.prioSet 2 1) (c { plain with prio := 15 }) (fun t => ((t.bogie 0).stack.head?.map fun f => f.prio) == some 15) = true ∧
    xAfter [] (.prio 2) 2 = some 0 ∧
    sees (.self 4) { State.reset.setBogie 300 { stack := [reg []], phase := .running } with cur := .bogie 300, module := 2 }
      (fun t => ((t.bogie 300).stack.head?.map fun f => f.getX 4) ==
        some (BitVec.ofNat 64 (2 * 2 ^ 35 + 300 * 2 ^ 16 + 1 * 2 ^ 12 + 13 * 2 ^ 7 + 4 * 2 ^ 4 + 4))) = true ∧
    xAfter [] (.selfFrame 4) 4 = some (BitVec.ofNat 64 (4095 * 2 ^ 24 + 2 ^ 16)) ∧
    xAfter [] (.gnode 4) 4 = some (BitVec.allOnes 64) ∧
    sees (.gnode 4) (lab { reg [] with d0 := 0x200000000, inst := 3, node := 5 })
      (fun t => ((t.bogie 0).stack.head?.map fun f => f.getX 4) == some 0x300000005) = true ∧
    sees (.gnodeN 4) (lab { reg [] with d0 := 0x200000000, ninst := 6 }) (fun t => ((t.bogie 0).stack.head?.map fun f => f.getX 4) == some 6) = true ∧
    stops (lab (reg [(1, 0x100000000)])) (.gdec 1 2) 0x12 0x100000000 0 = true ∧ stops (lab (reg [(1, 0x80000000)])) (.gdec 1 2) 0x12 0x80000000 0 = true ∧
    sends (lab (reg [(1, 0x70000001)])) (.gdec 1 2) [.gdec 0x70000001 2] = true := by decide +kernel

-- RegistersReadAndWrite: each register of CSRR, CSRW of SCALE_A_BASE, and CSRR on a hart.
theorem test_witness_RegistersReadAndWrite :
    let f := { reg [(1, 0xFFFF)] with scaleA := 9, faultPc := 1, faultCode := 2, faultAddr := 3, faultExtra := 4, instret := 8 }
    let s := (lab f).setBogie 0 { (lab f).bogie 0 with cycle := 77, pfLatch := [10, 11, 12, 13] }
    ([(0x010, 77), (0x011, 8), (0x020, 9), (0x030, 1), (0x031, 2), (0x032, 3), (0x033, 4), (0x100, 10), (0x103, 13)] : List (BitVec 12 × Word)).all
      (fun p => sees (.csrr 4 p.1) s fun t => ((t.bogie 0).stack.head?.map fun f => f.getX 4) == some p.2) = true ∧
    runsB s 0 f (.csrr 4 1) = true ∧ runsB s 0 f (.self 4) = true ∧
    sees (.csrw 1 0x20) s (fun t => ((t.bogie 0).stack.head?.map fun f => f.scaleA) == some 0x3FF) = true ∧
    hartRunsB (hartOn []) 0 16 (.csrr 4 1) = true := by decide +kernel

/-! ### Memory words -/

-- AccessesFault: misaligned, unmapped, unreadable, read-only and not writable; a window, beyond the declaration at its edge, nothing.
theorem test_witness_AccessesFault :
    let s := fun (a : Word) => lab { reg [(1, a)] with hdr := { probeHeader with scratch := 4 } }
    stops (s 3) (.st 2 1 0 2) 0x04 3 0 = true ∧ stops (s 0x50000) (.st 2 1 0 2) 0x09 0x50000 0 = true ∧ stops (s 0x30000) (.st 2 1 0 2) 0x09 0x30000 0 = true ∧
    stops (s 0x10000) (.st 2 1 0 2) 0x07 0x10000 0 = true ∧ stops (s 0x40000) (.st 2 1 0 2) 0x07 0x40000 0 = true ∧
    stops (s 0xFF00000000010000) (.st 2 1 0 2) 0x06 0xFF00000000010000 0 = true ∧
    stops (s 0xFF00000000000400) (.st 2 1 0 2) 0x05 0xFF00000000000400 0x400 = true ∧
    sees (.st 2 1 0 2) (s 0xFF000000000003FC) (fun t => (t.bogie 0).phase == .running) = true ∧
    stops (s 0x0100000000000000) (.st 2 1 0 2) 0x09 0x0100000000000000 0 = true := by decide +kernel

/-- An L1 sector at address 0 that holds 0x80 and then zeros. -/
def sector : Sector := { data := [(0, 0x80)], valid := 0xFFFFFFFF }

-- Loads: from a cached sector with each extension, from the outbox, from a line that is not there, and the forms that end the activation.
theorem test_witness_Loads :
    let s := fun (a : Word) (l1 : List Sector) (o : List Op) => (lab (reg [(1, a)])).setBogie 0 { (lab (reg [(1, a)])).bogie 0 with l1 := l1, outbox := o }
    let x2 := fun (st : State) (i : Instr) => sees i st fun t => ((t.bogie 0).stack.head?.map fun f => f.getX 2) == some (if i == .ld 2 1 0 0 then 0xFFFFFFFFFFFFFF80 else 0x80)
    checkAccess (s 0 [] []) 0 ((s 0 [] []).bogie 0) (reg [(1, 0)]) .load 0 1 = .ok (.mem { page := 0, w := true, rd := true }) ∧
    x2 (s 0 [sector] []) (.ld 2 1 0 0) = true ∧ x2 (s 0 [sector] []) (.ld 2 1 0 4) = true ∧
    x2 (s 0 [] [.store [(0, 0x80)] false false none]) (.ld 2 1 0 4) = true ∧
    sees (.ld 2 1 0 0) (s 0 [] []) (fun t => (t.bogie 0).phase == .stalled 0) = true ∧
    loadByte ((s 0 [{ sector with valid := 0 }] []).bogie 0) (reg []) true 0 = .error (.line 0) ∧
    awaits (s 0x20000 [] []) (.ld 2 1 0 0) (.load 0x20000 1 true) 2 = true ∧
    awaits { s 0xFE00400000000000 [] [] with peers := [(1, 3)] } (.ld 2 1 0 0) (.load 0xFE00400000000000 1 true) 2 = true := by decide +kernel

-- Stores: to a plain page, a device page, by STL; to the scratchpad with room in the journal and with none; and what a rollback gives back.
theorem test_witness_Stores :
    let s := fun (a : Word) => lab (reg [(1, a), (2, 0xABCD)])
    let full := (s 0xFF00000000000020).setBogie 0 { (s 0xFF00000000000020).bogie 0 with journal := List.replicate 256 (9, [], false) }
    sends (s 0x10) (.st 2 1 0 1) [.store [(0x10, 0xCD), (0x11, 0xAB)] false false none] = true ∧
    sends (s 0x20000) (.st 2 1 0 0) [.store [(0x20000, 0xCD)] true false none] = true ∧
    sends (s 0x10) (.stl 2 1 0 0) [.store [(0x10, 0xCD)] true false none] = true ∧
    sees (.st 2 1 0 1) (s 0xFF00000000000020) (fun t => Tab.get (t.bogie 0).scratch 0 0x21 == 0xAB && (t.bogie 0).journal.length == 1) = true ∧
    sees (.st 2 1 0 1) full (fun t => (t.bogie 0).phase == .boundary .commit && (t.bogie 0).scratch == []) = true ∧
    (let b : Bogie := { scratch := [(0x20, 7)] }
     (b.journalise 0x20 2).journal = [(1, (7 : Byte) :: List.replicate 31 0, false)] ∧ Tab.get ((b.journalise 0x20 2).scratchWrite 0x20 [1, 2]).undo.scratch 0 0x20 = 7) := by
  decide +kernel

-- ReturningAccesses: each word at a writable address, and an atomic at another core's scratchpad.
theorem test_witness_ReturningAccesses :
    let s := fun (a : Word) => lab (reg [(1, a), (2, 3), (4, 5)])
    checkAccess (s 0x40) 0 ((s 0x40).bogie 0) (reg [(1, 0x40), (2, 3), (4, 5)]) .atomic 0x40 8 = .ok (.mem { page := 0, w := true, rd := true }) ∧
    awaits (s 0x40) (.lda 3 1 1 3) (.load 0x48 8 true) 3 = true ∧
    awaits (s 0x40) (.amo 3 1 2 0 3 3) (.atomic 0x40 8 (.int 0) 3 0 3 .reg) 3 = true ∧
    awaits (s 0x40) (.cas 3 1 2 4 1 6) (.atomic 0x40 4 .cas 3 5 1 .reg) 3 = true ∧
    awaits (s 0x40) (.fadd 3 1 2 0 2) (.atomic 0x40 4 (.fadd 2) 3 0 0 .reg) 3 = true ∧
    (checkAccess (s 0) 0 ((s 0).bogie 0) (reg []) .atomic 0xFF10000000010000 4).toOption = some (.peer 1 0) := by decide +kernel

-- PostedWords: the posted atomics, AMOA's offset misaligned, beyond the scratchpad and within; STF to a flag and of a task; PREF in each case.
theorem test_witness_PostedWords :
    let f := { reg [(1, 0x40), (2, 3), (3, 0x80), (4, 0x3F8), (5, 0x400), (6, 0x3FC)] with hdr := { probeHeader with scratch := 4 } }
    sends (lab f) (.amop 1 2 0 1 1) [.atomic 0x40 8 (.int 0) 3 0 1 (.posted 0x60220005)] = false ∧
    sees (.amop 1 2 0 2 1) (lab f) (fun t => (t.bogie 0).outbox.length == 1) = true ∧ sees (.faddPosted 1 2 1 2) (lab f) (fun t => (t.bogie 0).outbox.length == 1) = true ∧
    stops (lab f) (.amoa 6 1 2 0 3 1) 0x04 0x3FC 0 = true ∧ stops (lab f) (.amoa 5 1 2 0 3 1) 0x05 0x400 0x400 = true ∧
    sees (.amoa 4 1 2 0 3 1) (lab f) (fun t => (t.bogie 0).outbox.length == 1) = true ∧
    sees (.stfFlag 2 1 3 3) (lab f) (fun t => (t.bogie 0).outbox.length == 1) = true ∧
    sends (lab f) (.stfTask 2 1 3 0) [.store [(0x40, 3)] false false (some (.task 0x80 0 3))] = true ∧
    sees (.pref 1 0) (lab f) (fun t => t.agenda.length == 1) = true ∧ sees (.prefFar 1 0) (lab f) (fun t => t.agenda.length == 1) = true ∧
    ([0x60000, 0x50000, 0x41, 0xFF00000000000000, 0x20000, 0x30000] : List Word).all
      (fun a => goes (lab (reg [(1, a)])) (.pref 1 0) (reg [(1, a)]) && goes (lab (reg [(1, a)])) (.prefFar 1 0) (reg [(1, a)])) = true := by decide +kernel

theorem test_witness_WordsThatAsk :
    let s := lab (reg [(1, 0x1234)])
    let q := fun (a : Word) => xAfter [(1, a)] (.pageq 2 1) 2
    awaits s .fence .fence 0 = true ∧ awaits s (.trap 2 1 9) (.trap 9 0x1234) 2 = true ∧ awaits s (.pageqH 2 1) (.pageqHome 0x1234) 2 = true ∧
    awaits s (.couple 2 1 3) (.couple 3 0x1234) 2 = true ∧ awaits s (.uncouple 2 1 3) (.uncouple 3 0x1234) 2 = true ∧
    awaits s (.cquery 2 1 3) (.cquery 3 true) 2 = true ∧ awaits s .csync .csync 0 = true ∧
    q 0xFF00000000000000 = some 2 ∧ q 0xFF10000000010000 = some 2 ∧ q 0xFF20000000000000 = some 1 ∧ q 0xFE00000000000000 = some 1 ∧
    q 0x50000 = some 0 ∧ q 0x0100000000000000 = some 0 ∧ q 0x60000 = some (BitVec.ofNat 64 (2 * 2 ^ 13 + 8 + 4 + 1)) := by decide +kernel

/-- Context 0 with the first GiB mapped writable, for a hart whose loads the page table serves. -/
def mapped (s : State) : State :=
  let s := s.setCtx 0 { s.ctx 0 with state := 3, ptRoot := 0x10001 }
  let s := s.writeBytes (memKey 0 0x10000) (bytesOfNat 8 0x20001)
  let l := { probeLeaf with w := true }
  s.writeLeaf l.key (l.word true)

-- HartMemoryWords: every check passes on a mapped page, and a load of an unmapped address fails it.
theorem test_witness_HartMemoryWords :
    let s := mapped (hartOn [(1, 0x40), (2, 3)])
    hartCheck s 0 .load 0x40 8 = .ok () ∧ hartCheck s 0 .lda 0x40 8 = .ok () ∧ hartCheck s 0 .stl 0x40 8 = .ok () ∧ hartCheck s 0 .atomic 0x40 8 = .ok () ∧
    hartCheck s 0 .load 0x4000000040 8 = .error (.fault 0x09 0x4000000040 0) ∧
    ([.ld 3 1 0 3, .lda 3 1 0 3, .amo 3 1 2 0 0 3, .cas 3 1 2 4 0 3] : List Instr).all
      (fun i => sees i s fun t => (t.hart 0 16).await.isSome && (t.hart 0 16).cpu.pc == 0x104) = true ∧
    sees .fence s (fun t => (t.hart 0 16).cpu.pc == 0x104) = true ∧ ([.stl 2 1 0 3, .amop 1 2 0 0 1] : List Instr).all (fun i => sees i s fun t => (t.hart 0 16).await.isNone && t.agenda.length == 1) = true := by
  decide +kernel

-- Barriers: an update in each case of the first clause; the layout; BEXPECT up to, at and beyond 2^24 − 1; handles good and bad.
theorem test_witness_Barriers :
    let x : Bar := { expArr := 1, expBytes := 8 }
    (x.update { bytes := 8 }).bytes = 8 ∧ (x.update { bytes := 9 }).code = 0x0B ∧ (x.update { code := 3 }).poison = true ∧
    (x.update { bytes := 8, arr := 1 }).flips = 1 ∧ ({ x with poison := true }.update { bytes := 8 }).bytes = 0 ∧
    (({} : Bar).update {}).flips = 0 ∧
    (let b : Bogie := { stack := [reg []] }
     (b.putBar (reg []) 3 { x with flips := 2 ^ 32 - 1, bytes := 2 ^ 24 - 1 }).bar (reg []) 3 = { x with flips := 2 ^ 32 - 1, bytes := 2 ^ 24 - 1 }) ∧
    sees (.binit 2 1 3) (lab (reg [(1, 0x80001)])) (fun t => (t.bogie 0).bar (reg []) 3 == x) = true ∧
    (let top := (lab (reg [(1, 0xFFFFF7), (2, 0xFFFFF8)])).setBogie 0 (((lab (reg [(1, 0xFFFFF7), (2, 0xFFFFF8)])).bogie 0).putBar (reg []) 3 x)
     sees (.bexpect 1 3) top (fun t => ((t.bogie 0).bar (reg []) 3).expBytes == 2 ^ 24 - 1) = true ∧ stops top (.bexpect 2 3) 0x0B 0 0xFFFFF8 = true ∧
     sees (.barrive 3) top (fun t => ((t.bogie 0).bar (reg []) 3).arrivals == 1) = true ∧
     sees (.bpoison 9 3) top (fun t => ((t.bogie 0).bar (reg []) 3).poison) = true) ∧
    (let dead := (lab (reg [(1, 1)])).setBogie 0 (((lab (reg [(1, 1)])).bogie 0).putBar (reg []) 3 { x with poison := true })
     goes dead (.bexpect 1 3) (reg [(1, 1)]) = true ∧ goes dead (.bpoison 9 3) (reg [(1, 1)]) = true ∧
     sees (.btest 2 1 3) dead (fun t => ((t.bogie 0).stack.head?.map fun f => (f.getX 2).getLsbD 49) == some true) = true) ∧
    ([0x10000000000, 0x800, 0x600, 0x100000000] : List Word).all (fun h => stops (lab (reg [(1, h)])) (.barriveH 1) 0x0A h.toNat (h.toNat / 2 ^ 16 % 16)) = true ∧
    sends (lab (reg [(1, 0x305FF)])) (.barriveH 1) [.arrive 0x305FF { arr := 1 }] = true ∧
    awaits (lab (reg [(1, 1)])) (.bwait 2 1 3) (.bwait 3 true) 2 = true := by decide +kernel

-- CopyWords: a packet at the edge of the scratchpad and beyond it; a queue unmapped, not writable, of the read-only class, and good.
theorem test_witness_CopyWords :
    let s := fun (q p : Word) => lab { reg [(1, p), (2, q)] with hdr := { probeHeader with scratch := 1 } }
    let ok := [Op.copy 0x40 (BitVec.ofNat 512 2)]
    stops (s 0x40 0x100) (.copy 1 2) 0x05 0x100 0x100 = true ∧ stops (s 0x50000 0xC0) (.copy 1 2) 0x09 0x50000 0 = true ∧
    stops (s 0x40000 0xC0) (.copym 1 2) 0x07 0x40000 0 = true ∧ stops (s 0x10000 0xC0) (.copyc 1 2) 0x07 0x10000 0 = true ∧
    sends (s 0x40 0xC0) (.copyc 1 2) ok = true ∧
    sees (.cwp 3 2) ((s 0 0).setBogie 0 { (s 0 0).bogie 0 with cwp := [4, 5, 6, 7] }) (fun t => ((t.bogie 0).stack.head?.map fun f => f.getX 3) == some 6) = true ∧
    awaits (s 0x40 0) (.cring 3 2) (.cring 0x40) 3 = true := by decide +kernel

/-! ### Vector and mask words -/

/-- Element j, of w bits, of vector register 1 after a word on a task with given vectors, masks and scalar registers. -/
def vAfter (v : List (Nat × Vec)) (k : List (Nat × Mask)) (x : List (Nat × Word)) (i : Instr) (w j : Nat) : Option Nat :=
  match exec i (on { reg x with v := v, k := k }) with
  | .next t => (t.bogie 0).stack.head?.map fun f => elem w (f.getV 1) j
  | _ => none

/-- The same with a MOD before the word. -/
def vAfterMod (m : BitVec 5) (v : List (Nat × Vec)) (i : Instr) (w j : Nat) : Option Nat :=
  let f := { reg [] with v := v, cpu := { pc := 0x100000, pfx := { mod := some m } } }
  match exec i (on f) with
  | .next t => (t.bogie 0).stack.head?.map fun f => elem w (f.getV 1) j
  | _ => none

/-- Mask register 1 after a word. -/
def kAfter (v : List (Nat × Vec)) (k : List (Nat × Mask)) (x : List (Nat × Word)) (i : Instr) : Option Mask :=
  match exec i (on { reg x with v := v, k := k }) with
  | .next t => (t.bogie 0).stack.head?.map fun f => f.getK 1
  | _ => none

/-- Scalar register 1 after a word. -/
def rAfter (v : List (Nat × Vec)) (k : List (Nat × Mask)) (x : List (Nat × Word)) (i : Instr) : Option Word :=
  match exec i (on { reg x with v := v, k := k }) with
  | .next t => (t.bogie 0).stack.head?.map fun f => f.getX 1
  | _ => none

-- FloatLanes: FP32 1 + 1, 1 − 2, 2 × 2, 1 / 2, 2 × 2 ± 1, −(2 × 2) + 1, √4 in element 0; BF16 and FP16 ones; an inactive element keeps its
-- value; sat clamps; 2^24 + 1 rounds to even, and up with rup.
theorem test_float_lanes :
    ([(vAfter [(2, 0x3F800000), (3, 0x3F800000)] [] [] (.vadd 1 2 3 0 0) 32 0, 0x40000000),
      (vAfter [(2, 0x3F800000), (3, 0x40000000)] [] [] (.vsub 1 2 3 0 0) 32 0, 0xBF800000),
      (vAfter [(2, 0x40000000), (3, 0x40000000)] [] [] (.vmul 1 2 3 0 0) 32 0, 0x40800000),
      (vAfter [(2, 0x3F800000), (3, 0x40000000)] [] [] (.vdiv 1 2 3 0 0) 32 0, 0x3F000000),
      (vAfter [(2, 0x3F800000)] [] [] (.vdiv 1 2 3 0 0) 32 0, 0x7F800000),
      (vAfter [] [] [] (.vdiv 1 2 3 0 0) 32 0, 0x7FC00000),
      (vAfter [(1, 0x3F800000), (2, 0x40000000), (3, 0x40000000)] [] [] (.vfma 1 2 3 0 0) 32 0, 0x40A00000),
      (vAfter [(1, 0x3F800000), (2, 0x40000000), (3, 0x40000000)] [] [] (.vfms 1 2 3 0 0) 32 0, 0x40400000),
      (vAfter [(1, 0x3F800000), (2, 0x40000000), (3, 0x40000000)] [] [] (.vnfma 1 2 3 0 0) 32 0, 0xC0400000),
      (vAfter [(2, 0x40800000)] [] [] (.vsqrt 1 2 0 0) 32 0, 0x40000000), (vAfter [(2, 0x3F80), (3, 0x3F80)] [] [] (.vadd 1 2 3 0 1) 16 0, 0x4000),
      (vAfter [(2, 0x3C00), (3, 0x3C00)] [] [] (.vadd 1 2 3 0 2) 16 0, 0x4000),
      (vAfter [(1, 7), (2, 0x3F800000)] [(4, 2)] [] (.vadd 1 2 2 4 0) 32 0, 7),
      (vAfter [(2, 0x4B800000), (3, 0x3F800000)] [] [] (.vadd 1 2 3 0 0) 32 0, 0x4B800000),
      (vAfterMod 4 [(2, 0x4B800000), (3, 0x3F800000)] (.vadd 1 2 3 0 0) 32 0, 0x4B800001),
      (vAfterMod 8 [(2, 0x7F7FFFFF), (3, 0x7F7FFFFF)] (.vadd 1 2 3 0 0) 32 0, 0x7F7FFFFF)] : List (Option Nat × Nat)).all (fun p => p.1 == some p.2) = true := by
  decide +kernel

-- The fields that FloatLanes and IntegerLanes range over, and the values of 1 and 2.
theorem test_witness_FloatLanes : floatFields (.vadd 1 2 3 0 0) = some (1, 2, 3, 0, 0) ∧ floatFields (.vsqrt 1 2 0 2) = some (1, 2, 0, 0, 2) ∧
    integerFields (.vshl 1 2 3 0 3) = some (1, 2, 3, 0, 0, 3) := ⟨rfl, rfl, rfl⟩

theorem test_rounding : fp32.unpack 0x3F800000 = .fin false (2 ^ 23) (-23) ∧ fp32.inf = 0x7F800000 ∧
    0x7F7FFFFF % 2 ^ (fp32.width - 1) < fp32.inf ∧ fp32.round .rtz false (fp32.unpack 1) = 1 := by decide +kernel

theorem test_witness_values : valueOf (.fin false 1 1) = some 2 ∧ valueOf (.fin true 1 0) = some (-1) ∧ valueOf .nan = none := by
  refine ⟨?_, ?_, rfl⟩ <;> norm_num [valueOf]

-- SignExtremeAndApproximation: signs of NaNs too; the extremes of 1 and 2, of −0 and of a NaN; the approximation of a NaN.
theorem test_sign_and_extreme_lanes :
    ([(vAfter [(2, 0xFFC00001)] [] [] (.vabs 1 2 0 0) 32 0, 0x7FC00001), (vAfter [(2, 0x7FC00001)] [] [] (.vneg 1 2 0 0) 32 0, 0xFFC00001),
      (vAfter [(2, 0x3F800000), (3, 0x40000000)] [] [] (.vmin 1 2 3 0 0) 32 0, 0x3F800000),
      (vAfter [(2, 0x3F800000), (3, 0x40000000)] [] [] (.vmax 1 2 3 0 0) 32 0, 0x40000000),
      (vAfter [(2, 0x3F800000), (3, 0x7F800001)] [] [] (.vmax 1 2 3 0 0) 32 0, 0x7FC00000),
      (vAfter [(2, 0x7F800001)] [] [] (.vrcp 1 2 0 0) 32 0, 0x7FC00000), (vAfter [(2, 0x7F800001)] [] [] (.vrsq 1 2 0 0) 32 0, 0x7FC00000),
      (vAfter [(2, 0x7F800001)] [] [] (.vexp2 1 2 0 0) 32 0, 0x7FC00000), (vAfter [(2, 0x7F800001)] [] [] (.vlog2 1 2 0 0) 32 0, 0x7FC00000)] :
      List (Option Nat × Nat)).all (fun p => p.1 == some p.2) = true ∧ fp32.unpack 0x7F800001 = .nan := by decide +kernel

-- IntegerLanes: wrap, saturation, the upper half, extremes, bits, and shifts by less than, and by, the width.
theorem test_integer_lanes :
    ([(vAfter [(2, 0xFF), (3, 2)] [] [] (.viadd 1 2 3 0 0 0) 8 0, 1), (vAfterMod 8 [(2, 0x7F), (3, 2)] (.viadd 1 2 3 0 0 0) 8 0, 0x7F),
      (vAfterMod 8 [(2, 0xFF), (3, 2)] (.viadd 1 2 3 0 1 0) 8 0, 0xFF), (vAfter [(2, 1), (3, 2)] [] [] (.visub 1 2 3 0 0 1) 16 0, 0xFFFF),
      (vAfterMod 8 [(2, 1), (3, 2)] (.visub 1 2 3 0 1 1) 16 0, 0), (vAfter [(2, 0x10000), (3, 0x10001)] [] [] (.vimul 1 2 3 0 0 2) 32 0, 0x10000),
      (vAfter [(2, 0xFFFFFFFF), (3, 0xFFFFFFFF)] [] [] (.vimulh 1 2 3 0 1 2) 32 0, 0xFFFFFFFE),
      (vAfter [(2, 0xFFFFFFFF), (3, 0xFFFFFFFF)] [] [] (.vimulh 1 2 3 0 0 2) 32 0, 0),
      (vAfter [(2, 0xFF), (3, 1)] [] [] (.vimin 1 2 3 0 0 0) 8 0, 0xFF), (vAfter [(2, 0xFF), (3, 1)] [] [] (.vimin 1 2 3 0 1 0) 8 0, 1),
      (vAfter [(2, 0xFF), (3, 1)] [] [] (.vimax 1 2 3 0 0 0) 8 0, 1), (vAfter [(2, 0xFF), (3, 1)] [] [] (.vimax 1 2 3 0 1 0) 8 0, 0xFF),
      (vAfter [(2, 12), (3, 10)] [] [] (.vand 1 2 3 0 3) 64 0, 8), (vAfter [(2, 12), (3, 10)] [] [] (.vor 1 2 3 0 3) 64 0, 14),
      (vAfter [(2, 12), (3, 10)] [] [] (.vxor 1 2 3 0 3) 64 0, 6), (vAfter [(2, 3), (3, 7)] [] [] (.vshl 1 2 3 0 0) 8 0, 0x80),
      (vAfter [(2, 3), (3, 8)] [] [] (.vshl 1 2 3 0 0) 8 0, 0), (vAfter [(2, 0x80), (3, 7)] [] [] (.vshr 1 2 3 0 0) 8 0, 1),
      (vAfter [(2, 0x80), (3, 8)] [] [] (.vshr 1 2 3 0 0) 8 0, 0), (vAfter [(2, 0x80), (3, 9)] [] [] (.vsra 1 2 3 0 0) 8 0, 0xFF)] :
      List (Option Nat × Nat)).all (fun p => p.1 == some p.2) = true := by decide +kernel

-- ComparesAndMasks, and the branches on masks.
theorem test_compares_and_masks :
    ([(kAfter [(2, 0x3F800000), (3, 0x40000000)] [] [] (.vcmp 1 2 3 0 2 0), 1), (kAfter [(2, 0x80000000)] [] [] (.vcmp 1 2 3 0 0 0), 0xFFFF),
      (kAfter [(2, 0x7FC00000)] [] [] (.vcmp 1 2 3 0 6 0), 0xFFFE), (kAfter [(2, 0xFF)] [(2, 5)] [] (.vicmp 1 2 3 2 0 2 0), 1),
      (kAfter [(2, 0xFF)] [(2, 5)] [] (.vicmp 1 2 3 2 1 2 0), 0), (kAfter [] [(2, 12), (3, 10)] [] (.kand 1 2 3), 8),
      (kAfter [] [(2, 12), (3, 10)] [] (.kor 1 2 3), 14), (kAfter [] [(2, 12), (3, 10)] [] (.kxor 1 2 3), 6),
      (kAfter [] [] [] (.knot 1 0), 0), (kAfter [] [(2, 12)] [] (.kmov 1 2), 12), (kAfter [] [] [(2, 9)] (.kset 1 2), 9)] : List (Option Mask × Mask)).all
      (fun p => p.1 == some p.2) = true ∧
    ([(rAfter [] [(2, 12)] [] (.kmovX 1 2), 12), (rAfter [] [(2, 12)] [] (.kpopc 1 2), 2), (rAfter [] [(2, 12)] [] (.kfirst 1 2), 2),
      (rAfter [] [] [] (.kfirst 1 2), 64), (rAfter [] [] [] (.kpopc 1 0), 64)] : List (Option Word × Word)).all (fun p => p.1 == some p.2) = true := by
  decide +kernel

-- MovingWords: elements of 32 bits; v2 holds 1, 2, 3 in elements 0 to 2, v3 holds 9.
theorem test_moving_words :
    let v := [(2, (0x000000030000000200000001 : Vec)), (3, 9)]
    ([(vAfter v [(4, 2)] [(5, 7)] (.vbcast 1 5 4 2) 32 1, 7), (vAfter v [(4, 2)] [(5, 7)] (.vbcast 1 5 4 2) 32 0, 0),
      (vAfter v [] [(5, 7), (6, 17)] (.vins 1 5 6 2) 32 1, 7), (vAfter v [(4, 2)] [] (.vsel 1 2 3 4 2) 32 0, 9), (vAfter v [(4, 2)] [] (.vsel 1 2 3 4 2) 32 1, 2),
      (vAfter [(2, 0x30000000200000001), (3, 1)] [] [] (.vperm 1 2 3 0 2) 32 0, 2), (vAfter v [] [] (.vperm 1 3 2 0 2) 32 3, 9),
      (vAfter [(2, 1), (3, 16)] [] [] (.vperm 1 2 3 0 2) 32 0, 0), (vAfter v [] [(5, 1)] (.vslideUp 1 2 5 0 2) 32 1, 1),
      (vAfter v [] [(5, 1)] (.vslideUp 1 2 5 0 2) 32 0, 0), (vAfter v [] [(5, 2)] (.vslideDn 1 2 5 0 2) 32 0, 3),
      (vAfter v [] [(5, 0xFFFFFFFFFFFFFFFF)] (.vslideDn 1 2 5 0 2) 32 0, 0), (vAfter v [] [] (.vzipLo 1 2 3 0 2) 32 1, 9),
      (vAfter v [] [] (.vzipLo 1 2 3 0 2) 32 2, 2), (vAfter v [] [] (.vzipHi 1 2 3 0 2) 32 0, 0), (vAfter v [(4, 5)] [] (.vcompr 1 2 4 2) 32 1, 3),
      (vAfter v [(4, 5)] [] (.vcompr 1 2 4 2) 32 2, 0)] : List (Option Nat × Nat)).all (fun p => p.1 == some p.2) = true ∧
    rAfter [(2, 0x80)] [] [] (.vext 1 2 3 0 0) = some 0xFFFFFFFFFFFFFF80 ∧ rAfter [(2, 0x80)] [] [(3, 64)] (.vext 1 2 3 1 0) = some 0x80 := by decide +kernel

-- Reductions: with elements and with none; the lowest index among equal least elements.
theorem test_reductions :
    let v := [(2, (0x0102FF : Vec))]
    ([(rAfter v [(4, 7)] [] (.vredadd 1 2 4 0 0 0), 2), (rAfter v [(4, 7)] [] (.vredadd 1 2 4 1 0 0), 0x102), (rAfter v [] [] (.vredadd 1 2 4 0 0 0), 0),
      (rAfter v [(4, 7)] [] (.vredmin 1 2 4 0 0 0), -1), (rAfter v [(4, 7)] [] (.vredmin 1 2 4 1 0 0), 1), (rAfter v [] [] (.vredmin 1 2 4 0 0 0), 0x7F),
      (rAfter v [(4, 7)] [] (.vredmax 1 2 4 0 0 0), 2), (rAfter v [] [] (.vredmax 1 2 4 0 0 0), -128), (rAfter v [] [] (.vredmax 1 2 4 1 0 0), 0),
      (rAfter v [(4, 6)] [] (.vredmini 1 2 4 0 0), 0x200000001), (rAfter [(2, 0)] [(4, 6)] [] (.vredmini 1 2 4 0 0), 0x100000000),
      (rAfter v [] [] (.vredmini 1 2 4 0 0), BitVec.allOnes 64), (rAfter [(2, 0x400000003F800000)] [(4, 3)] [] (.vredadd 1 2 4 0 1 0), 0x40400000),
      (rAfter [(2, 0x400000003F800000)] [(4, 3)] [] (.vredmin 1 2 4 0 1 0), 0x3F800000),
      (rAfter [(2, 0x400000003F800000)] [(4, 3)] [] (.vredmax 1 2 4 0 1 0), 0x40000000)] : List (Option Word × Word)).all (fun p => p.1 == some p.2) = true := by
  decide +kernel

-- ConversionLanes: BF16 to FP32 from each half, FP32 to BF16 into each half, FP32 and INT32, INT16 to INT32, and same-width codes.
theorem test_conversion_lanes :
    ([(vAfter [(2, 0x3F80)] [] [] (.vcvt 1 2 0 0 0 0 0) 32 0, 0x3F800000), (vAfter [(2, 0x3F80 <<< 256)] [] [] (.vcvt 1 2 0 1 0 0 0) 32 0, 0x3F800000),
      (vAfter [(2, 0x3C00)] [] [] (.vcvt 1 2 0 0 1 0 0) 32 0, 0x3F800000), (vAfter [(2, 0x3F800000)] [] [] (.vcvt 1 2 0 0 2 0 0) 16 0, 0x3F80),
      (vAfter [(1, 5), (2, 0x3F800000)] [] [] (.vcvt 1 2 0 1 2 0 0) 16 0, 5), (vAfter [(1, 5), (2, 0x3F800000)] [] [] (.vcvt 1 2 0 1 2 0 0) 16 16, 0x3F80),
      (vAfter [(2, 0x8000)] [] [] (.vcvt 1 2 0 0 13 0 0) 32 0, 0xFFFF8000), (vAfter [(2, 0x8000)] [] [] (.vcvt 1 2 0 0 13 0 1) 32 0, 0x8000)] :
      List (Option Nat × Nat)).all (fun p => p.1 == some p.2) = true ∧ (cvtWidths 0).1 < (cvtWidths 0).2 ∧ (cvtWidths 2).2 < (cvtWidths 2).1 ∧
    (cvtWidths 6).1 = (cvtWidths 6).2 := by decide +kernel

-- VectorMemory: reads from, and writes to, a scratchpad whose byte 64 is 9: whole, half, strided, gathered and scattered.
theorem test_witness_VectorMemory :
    let f := { reg [(1, 0xFF00000000000040), (3, 8)] with k := [(4, 1)] }
    let s := (on f).setBogie 0 { (on f).bogie 0 with scratch := [(0x40, 9)] }
    ([.vld 2 1 0, .vldH 2 1 0, .vlds 2 1 3 0, .vgath 2 1 3 4 0] : List Instr).all
      (fun i => sees i s fun t => ((t.bogie 0).stack.head?.map fun f => elem 8 (f.getV 2) 0) == some 9) = true ∧
    (vecRead s 0 (s.bogie 0) f 64 [0xFF00000000000040]).isOk = true ∧ (vecWrite s 0 (s.bogie 0) f [(0xFF00000000000040, [1])]).isOk = true ∧
    ([.vst 2 1 0, .vstH 2 1 0, .vsts 2 1 3 0, .vscat 2 1 3 4 0] : List Instr).all
      (fun i => sees i s fun t => Tab.get (t.bogie 0).scratch 0 0x40 == 0 && (t.bogie 0).phase == .running) = true := by decide +kernel

/-! ### Matrix words -/

-- MatrixCommands: a reserved bit in the control word, an address nowhere and misaligned, rows readable and writable, windows that deliver and
-- not, SCRATCH_BOUND, and MXZ.
theorem test_witness_MatrixCommands :
    let own := 0xFF00000000000000
    let s := fun (a c : Word) => lab { reg [(1, a), (2, c)] with hdr := { probeHeader with scratch := 40 } }
    let sent := fun (st : State) (i : Instr) => sees i st fun t => (t.bogie 0).outbox.length == 1
    stops (s 0xFF00000000000000 0x800000) (.mxldb 3 1 2 0 1) 0x02 0 0xAC611001 = true ∧ stops (s 0xFF20000000000000 0) (.mxldb 3 1 2 0 1) 0x09 0xFF20000000000000 0 = true ∧
    stops (s 0xFF00000000000008 0) (.mxldb 3 1 2 0 1) 0x04 (own + 8) 0 = true ∧ sent (s 0xFF00000000000010 0) (.mxldb 3 1 2 0 1) = true ∧
    region 0xFF00000000000010 = .own 0 0x10 ∧ sent (s 0x40 0) (.mxldb 3 1 2 0 1) = true ∧ sent (s 0xFF00000000000000 0) (.mxlda 3 1 2 0) = true ∧
    stops (s 0xFF00000000000000 1) (.mxlda 3 1 2 0) 0x02 0 0xB0611400 = true ∧ sent (s 0 0) (.mxz 3 1) = true ∧
    stops (s 0x40 0) (.mma 3 1 2 1 0 0) 0x09 0x40 0 = true ∧ stops (s 0xFF00000000070000 0) (.mma 3 1 2 1 0 0) 0x02 0 0xB4611020 = true ∧
    stops (s 0xFF00000000000020 0) (.mma 3 1 2 1 0 0) 0x04 (own + 0x20) 0 = true ∧ sent (s 0xFF00000000000000 0) (.mma 3 1 2 1 0 0) = true ∧
    sees (.mma 3 1 2 2 0 0) (s 0xFF00000000000000 0) (fun t => match (t.bogie 0).phase with | .boundary (.fault i) => i.code == 5 | _ => false) = true ∧
    stops (s 0xFF00000000000000 1) (.mxst 3 1 2 0 0 0 0) 0x02 0 0xB8611000 = true ∧ stops (s 0xFF00000000010000 0) (.mxst 3 1 2 0 0 0 0) 0x06 (own + 0x10000) 0 = true ∧
    stops (s 0xFF20000000000000 0) (.mxst 3 1 2 0 0 0 0) 0x09 0xFF20000000000000 0 = true ∧ stops (s 0xFF00000000000008 0) (.mxst 3 1 2 0 0 0 0) 0x04 (own + 8) 0 = true ∧
    sent (s 0xFF00000000000000 0) (.mxst 3 1 2 0 0 0 0) = true ∧ sent (s 0x40 0) (.mxst 3 1 2 0 0 0 0) = true ∧
    (let f := reg []
     let busy := (lab f).setCoach 0 { shadow := [(3, { cmd := { ctx := 0, g := 0, level := 3, uid := f.uid, record := 0x40, op := .z (f.tile 3) true } })] }
     matrixBusy (lab f) 0 ((lab f).bogie 0) f (.z (f.tile 3) true) = false ∧
     (mxPending busy 0 (busy.bogie 0) f.uid).length = 1 ∧
     sees (.mxz 3 1) busy (fun t => match (t.bogie 0).phase with | .stalled _ => true | _ => false) = true) := by decide +kernel

-- ScalePassAndQuery: SCMC of a bogie that may not, of an address nowhere, misaligned, at the edge of and beyond the scratchpad; the checks of a
-- pass in their order, and a pass that is sent; the states that MXQ asks for.
theorem test_witness_ScalePassAndQuery :
    let f := fun (x : List (Nat × Word)) => { reg x with hdr := { probeHeader with scratch := 1 } }
    let s7 := fun (x : List (Nat × Word)) =>
      { (State.reset.setBogie 7 { stack := [f x], phase := .running }).setCtx 0 { serving := [(0, true)] } with cur := .bogie 7 }
    let out7 := fun (x : List (Nat × Word)) (code : Nat) => sees (.scmc 1 2 3 0) (s7 x) fun t => match (t.bogie 7).phase with
      | .boundary (.fault i) => i.code == code
      | _ => code == 0 && (t.bogie 7).outbox == [.scale 5 [0] 1]
    let p := fun (c : List (Nat × Byte)) (h : Header) (x : Word) =>
      let f := { reg [(1, x)] with hdr := h }
      (on f).setBogie 0 { (on f).bogie 0 with scratch := c }
    let one := { probeHeader with scratch := 1 }
    out7 [(1, 5), (2, 0xFF00000000000000)] 2 = true ∧ out7 [(1, 5), (2, 0x40), (3, 1)] 9 = true ∧
    out7 [(1, 5), (2, 0xFF00000000000002), (3, 1)] 4 = true ∧ out7 [(1, 5), (2, 0xFF00000000000100), (3, 1)] 5 = true ∧
    out7 [(1, 5), (2, 0xFF000000000000FC), (3, 1)] 0 = true ∧
    stops (p [] one 8) (.mxpass 1 0) 0x04 8 0 = true ∧ stops (p [] one 0x100) (.mxpass 1 0) 0x05 0x100 0x100 = true ∧
    stops (p [] one 0xC0) (.mxpass 1 0) 0x02 0 0xC0200000 = true ∧ stops (p [(0, 1), (16, 1)] { one with acc := 0 } 0) (.mxpass 1 0) 0x0C 0 0 = true ∧
    stops (p [(0, 1), (16, 1), (24, 8)] one 0) (.mxpass 1 0) 0x04 8 0 = true ∧
    sees (.mxpass 1 0) (p [(0, 1), (16, 1)] one 0) (fun t => (t.bogie 0).phase == .boundary .ended && (t.bogie 0).outbox.length == 1) = true ∧
    awaits (lab (reg [(1, 0x13)])) (.mxqT 2 3) (.mxqTile 3) 2 = true ∧ awaits (lab (reg [(1, 0xF7)])) (.mxqS 2 1) (.mxqSlot 247) 2 = true ∧
    sees (.mxqS 2 1) (lab (reg [(1, 8)])) (fun t => match (t.bogie 0).phase with | .boundary (.fault i) => i.code == 2 | _ => false) = true ∧
    sees (.mxqS 2 1) (lab (reg [(1, 0x100)])) (fun t => match (t.bogie 0).phase with | .boundary (.fault i) => i.code == 2 | _ => false) = true := by
  decide +kernel

/-! ### The array -/

/-- Coach 0 with command o at the head of bogie 0's level 3, its frame on the bogie. -/
def coachWith (o : MxOp) (x : Coach) : State :=
  let s := on { reg [] with prio := 3 }
  (s.setCoach 0 { x with fifos := [(3, [{ ctx := 0, g := 0, level := 3, uid := 1, record := 0x40, op := o }])], lease := some { level := 3, bogie := 0 } })

/-- The same command held in a shadow context, as key 3. -/
def held (o : MxOp) (x : Coach) (r : Nat) : State :=
  let s := on { reg [] with prio := 3 }
  { s.setCoach 0 { x with shadow := [(3, { cmd := { ctx := 0, g := 0, level := 3, uid := 1, record := 0x40, op := o }, steps := r })] } with arg := { h := 0, n := 3 } }

/-- A pass descriptor of one BF16 tile and 32 products. -/
def passOne : Vec := BitVec.ofNat 512 (1 + 2 ^ 128)

-- TheArrayExecutes: each command chosen at its turn; an MMA that may not run; a pass, begun, blocked and at its end; a lease; an SCMC.
theorem test_witness_TheArrayExecutes :
    let zero := coachWith (.z 2 true) {}
    let mma := MxOp.mma 2 0xFF00000000000000 1 64 32 false 0
    let ready : Coach := { slots := [(1, { loaded := true, type := 0, k := 32 })] }
    zero.stepping 0 = false ∧ zero.readyLevel 0 = some 3 ∧ zero.holder 0 3 = some (0, false) ∧ Tab.find (zero.coach 0).shadow 3 = none ∧
    sees .arrayCommandExecute zero (fun t => (Tab.get (t.coach 0).tiles {} 2).i32) = true ∧
    sees .arrayCommandExecute (coachWith mma {}) (fun t => (Tab.get (t.coach 0).tiles {} 2).poison && t.agenda.any fun h => h.ev == .raiseEvent) = true ∧
    sees .arrayCommandExecute (coachWith mma ready) (fun t => t.agenda.any fun h => h.ev == .mmaStep) = true ∧
    sees .arrayCommandExecute (coachWith (.pass passOne [2]) {}) (fun t => t.agenda.any fun h => h.ev == .passExecute) = true ∧
    (Tab.find ((held mma ready 0).coach 0).shadow 3).isSome = true ∧
    sees .passExecute (held (.pass passOne [2]) {} 0) (fun t => (Tab.find (t.coach 0).shadow 3).map (·.steps) == some 1) = true ∧
    1 ≤ stepCount (passType passOne) (passK passOne) * 1 ∧
    sees .passExecute (held (.pass passOne [2]) {} 1) (fun t => t.agenda.any fun h => h.ev == .passComplete) = true ∧
    sees .leaseEnd { State.reset.setCoach 0 { lease := some { level := 3, bogie := 0, start := 0 } } with clock := 2048 } (fun t =>
      (t.coach 0).lease.map (·.done) == some 16) = true ∧
    sees .scaleDelivery { State.reset with arg := { req := { id := 1, src := .task 7 1, op := .scale 5 [9] 2 } } } (fun t =>
      (t.bogie 1).held.length == 1 && (t.bogie 0).held == []) = true ∧
    (let job := fun (d : Vec) => { State.reset.setCoach 0 { jobs := [{ cmd := { id := 4, ctx := 0, g := 0, level := 3, uid := 1, record := 0x40, op := .pass d [2] }, status := 0x20, cause := 9, addr := 0x80 }] } with arg := { h := 0, n := 4 } }
     sees .passComplete (job passOne) (fun t => t.agenda.any fun h => h.ev == .raiseEvent) = true ∧
     sees .passComplete (job (passOne ||| BitVec.ofNat 512 (2 ^ 448 * 64))) (fun t => t.agenda.any fun h => h.ev == .releaseAccept && h.arg.rel.rel.arg == 0x920) = true) := by
  decide +kernel

-- Loads: the rows of an MXLDB and an MXLDA of the own scratchpad are read; the products of a step of INT8 are clamped.
theorem test_witness_matrix_rows :
    let rows := fun (o : MxOp) => ((coachWith o {}).sourceRows { ctx := 0, g := 0, level := 3, uid := 1, record := 0x40, op := o }).toOption.map List.length
    rows (.ldb 1 1 32 0xFF00000000000000 0) = some 1 ∧ rows (.lda 2 0xFF00000000000000 0 false) = some 1 ∧
    (chunkInt8 0x7FFFFFFF [(1, 1)]).1 = 0x7FFFFFFF ∧ (chunkInt8 0x80000000 [(-1, 1)]).1 = 0x80000000 ∧ (chunkInt8 5 [(-2, 3), (1, 1)]).1 = 0 := by
  decide +kernel

/-! ### Commit and verdict -/

/-- Bogie 0 as given, with what the step is about. -/
def bog (b : Bogie) (a : Args) : State := { State.reset.setBogie 0 b with arg := a, clock := 100 }

/-- A happening of an event is under way. -/
def comes (t : State) (i : Instr) : Bool := t.agenda.any fun h => h.ev == i

/-- Reaches, as a computation. -/
def reaches (t : State) (i : Instr) : Bool :=
  comes t i || t.links.any (fun e => (e.2.ab.waiting ++ e.2.ba.waiting).any fun m => m.ev == i) || t.ingress.any fun e => e.2.stuck.any fun m => m.ev == i

-- TriggersBeginActivations: nothing awaited; an answered request; one that failed.
theorem test_witness_TriggersBeginActivations :
    let b := fun (w : Option Await) => bog { stack := [{ reg [] with await := w }], phase := .waiting } {}
    let aw : Await := { op := .load 0x40 8 true, dest := 3 }
    sees .triggerDelivery (b none) (fun t => (t.bogie 0).phase == .running && (t.bogie 0).cycle == 100) = true ∧
    sees .triggerDelivery (b (some { aw with reply := some (.ok 9) })) (fun t => ((t.bogie 0).stack.head?.map fun f => f.getX 3) == some 9) = true ∧
    sees .triggerDelivery (b (some { aw with reply := some (.error (0x10, 0x40)) })) (fun t =>
      (t.bogie 0).phase == .boundary (.fault { code := 0x10, addr := 0x40 })) = true ∧
    sees .triggerDelivery (b (some { aw with reply := some (.error (0x02, 0x40)), word := 0xA5 })) (fun t =>
      (t.bogie 0).phase == .boundary (.fault { code := 0x02, addr := 0x40, extra := 0xA500000000 })) = true ∧ ((b none).ctx 0).freezing = false ∧ ((b none).ctx 0).state ≠ 5 := by
  decide +kernel

-- Verdicts: a match at a commit and at an end, and a mismatch: the first, and the third in a row.
theorem test_witness_Verdicts :
    let b : Bogie := { stack := [reg [(1, 5)]], phase := .boundary .commit, ckpt := some (reg []), scratch := [(0, 9)], journal := [(0, List.replicate 32 0, false)] }
    sees .witnessVerdict (bog b {}) (fun t => (t.bogie 0).phase == .waiting && (t.bogie 0).journal == [] && comes t .triggerDelivery) = true ∧
    sees .witnessVerdict (bog { b with phase := .boundary .ended } {}) (fun t => (t.bogie 0).stack == []) = true ∧
    sees .witnessVerdict (bog b { flag := true }) (fun t => (t.bogie 0).stack == [reg []] && (t.bogie 0).scratch == [] && (t.bogie 0).streak == 1) = true ∧
    sees .witnessVerdict (bog { b with streak := 2 } { flag := true }) (fun t => comes t .streakLimit) = true ∧
    ((bog b {}).bogie 0).held = [] ∧ ((bog b {}).bogie 0).transit = [] ∧ ((bog b {}).bogie 0).owed = [] ∧ (bog b {}).copies = [] ∧
    ((bog b {}).die (dieOf 0)).store = [] ∧ (((bog b {}).ctx 0).kernel 0).state ≠ 2 ∧
    (let note : Note := .flag 0x80 3
     let s := bog { b with outbox := [.store [(0x40, 9)] false false (some note)] } {}
     ((s.forwardTop 0 (reg []) []).bogie 0).transit.map (·.op) = [.store [(0x40, 9)] false false none, .notify s.uid 0x40 note]) := by decide +kernel

/-- Context 0 in state 3 with the coaches of a mask, a handler table with the class 0 handler at h, and memory mapped. -/
def lively (s : State) (h : Word) : State := (mapped s).setCtx 0 { (mapped s).ctx 0 with coaches := 1, handlers := if h = 0 then [] else [(0, h)] }

-- FaultsEndTheTask: a fault at its boundary; a bogie at its streak limit, and a replacement at its own; a quarantined stack; the two errors.
theorem test_witness_FaultsEndTheTask :
    let i : FaultInfo := { code := 7, addr := 0x40 }
    let b : Bogie := { stack := [reg []], phase := .boundary (.fault i), streak := 3 }
    sees .witnessVerdict (bog b {}) (fun t => (t.bogie 0).stack == [] && comes t .raiseEvent) = true ∧
    sees .streakLimit (bog b {}) (fun t => (t.bogie 0).closed && comes t .quarantineMove) = true ∧
    sees .streakLimit (bog { b with replaces := some 5 } {}) (fun t => (t.bogie 0).stack == [] && comes t .raiseEvent) = true ∧
    sees .quarantineMove (bog {} {}) (fun t => comes t .diagnosticsDone) = true ∧
    (lively (bog { b with closed := true } {}) 0).replacement 0 0 = some 1 ∧
    sees .quarantineMove (lively (bog { b with closed := true } {}) 0) (fun t => (t.bogie 0).quarantined == some 1 && comes t .releaseAccept) = true ∧
    ({ b with phase := .waiting } : Bogie).active = false ∧
    sees .uncorrectableError (bog { b with phase := .waiting, l1 := [sector] } { m := 1 }) (fun t => (t.bogie 0).l1 == []) = true ∧
    sees .uncorrectableError (bog { b with phase := .waiting } { m := 2, n := 9 }) (fun t => (t.bogie 0).spoison == [9]) = true := by decide +kernel

-- WritesAndEventsArrive: what is held and applied, and the ways of an event: of a free context, with no handler, queued, sent, and after it.
theorem test_witness_WritesAndEventsArrive :
    let idle : Bogie := { stack := [reg []], phase := .waiting }
    let up : Held := .arrive (.frame 1) 3 { arr := 1 }
    let x : FaultInfo := { code := 7 }
    let ev := fun (st : Nat) (h : Word) (out : Nat) (a : Args) =>
      let s := lively { State.reset with arg := a, clock := 9 } h
      s.setCtx 0 { s.ctx 0 with state := st, outstanding := [(0, (List.range out).map (BitVec.ofNat 32))], seqs := [(0, BitVec.ofNat 32 out)] }
    sees .heldWriteArrival (bog idle { held := [up] }) (fun t => (t.bogie 0).held == [(100, up)] && comes t .barrierUpdate) = true ∧
    sees .handleArrival (bog idle { req := { op := .arrive 0x30000 { arr := 1 } } }) (fun t => (t.bogie 0).held.length == 1) = true ∧
    sees .barrierUpdate (bog { idle with held := [(5, up)] } {}) (fun t => (t.bogie 0).held == [] && ((t.bogie 0).bar (reg []) 3).code == 0x0B) = true ∧
    sees .barrierUpdate (bog { idle with held := [(5, .deliver 0 .host (.frame 1) 7 [9] none)] } {}) (fun t => Tab.get (t.bogie 0).scratch 0 7 == 9) = true ∧
    sees .scaleFileApply (bog { idle with held := [(5, .scale 0 .host 1023 [9])] } {}) (fun t => Tab.get (t.bogie 0).scale 0 1023 == 9) = true ∧
    (bog idle {}).scaleBusy 0 = false ∧
    sees .frameDrainEnd (bog { draining := [{ frame := reg [] }] } { n := 1 }) (fun t => (t.bogie 0).draining == []) = true ∧
    sees .raiseEvent (ev 0 0 0 { info := x }) (fun t => t.errlog == [{ code := 7 }]) = true ∧
    sees .raiseEvent (ev 3 0 0 { info := x }) (fun t => (t.ctx 0).freezing && comes t .freezeComplete) = true ∧
    sees .raiseEvent (ev 3 0x100 16 { info := x }) (fun t => (Tab.get (t.ctx 0).eventq [] 0).length == 1) = true ∧
    sees .raiseEvent (ev 3 0x100 15 { info := x }) (fun t => (Tab.get (t.ctx 0).outstanding [] 0).length == 16 && reaches t .homeStore && comes t .raiseEvent) = true ∧
    sees .raiseEvent { ev 3 0 0 { m := 1, n := 4 } with answers := [(4, (0, 0))] } (fun t => comes t .releaseAccept) = true ∧
    sees .eventUnqueue (ev 3 0x100 2 {}) (fun t => Tab.get (t.ctx 0).outstanding [] 0 == [1]) = true ∧
    (lively State.reset 0x100).leaf 0 0x140 = some { probeLeaf with w := true } := by decide +kernel

/-! ### Homes, translation and links -/

/-- The machine with memory mapped and what the step is about. -/
def home (a : Args) : State := { mapped State.reset with arg := a, clock := 100 }

-- The home of the first GiB: AtHome of a request there.
theorem test_witness_AtHome : AtHome (home {}) 0 { op := .load 0x40 8 true } { probeLeaf with w := true } := by
  constructor <;> decide +kernel

-- HomesServeWrites: a store, sent again too, to a hub; an atomic, and one at a poisoned line; the values of atomics at their bounds.
theorem test_witness_HomesServeWrites :
    let st : Req := { id := 1, src := .task 0 1, op := .store [(0x40, 9)] false false none }
    let at_ : Req := { id := 1, src := .task 0 1, op := .atomic 0x40 4 (.int 0) 5 0 0 .reg }
    ([.homeStore, .faultQueueResend] : List Instr).all (fun i => sees i (home { req := st }) fun t => t.readByte 0x40 == 9) = true ∧
    (let copy := fun (v : Byte) (poison : List Nat) (p : State → Bool) => sees .homeStore { (home {
       req := { st with op := .store [(0x40, 9)] false false (some (.version 0x80 4 [])) } }).writeBytes 0x80 [v] with poison := poison } p
     copy 4 [] (fun t => t.readByte 0x40 == 9 && t.readByte 0x80 == 5) = true ∧ copy 5 [] (fun t => t.readByte 0x40 == 0 && t.readByte 0x80 == 5) = true ∧
     copy 4 [2] (fun t => t.readByte 0x40 == 0 && t.readByte 0x80 == 4) = true) ∧
    sees .homeStore { State.reset with arg := { d := 8, req := st } } (fun t => t.hostMem == [(0x40, 9)] && t.mem == []) = true ∧
    sees .atomicExecute (home { req := at_ }) (fun t => t.readByte 0x40 == 5 && comes t .storePerformed) = true ∧
    sees .atomicExecute { home { req := at_ } with poison := [1] } (fun t => t.readByte 0x40 == 0) = true ∧
    atomNew (.int 0) 4 0xFFFFFFFF 1 0 = 0 ∧ atomNew (.int 4) 4 0xFFFFFFFF 1 0 = 0xFFFFFFFF ∧ atomNew (.int 5) 8 0xFFFFFFFFFFFFFFFF 1 0 = 1 ∧
    atomNew (.int 6) 4 0xFFFFFFFF 1 0 = 1 ∧ atomNew (.int 7) 4 0xFFFFFFFF 1 0 = 0xFFFFFFFF ∧ atomNew (.int 8) 4 7 9 0 = 9 ∧
    atomNew .cas 4 7 7 0x100000001 = 1 ∧ atomNew .cas 4 7 8 9 = 7 := by decide +kernel

-- HomesServeReads: a load made once, of clean and of poisoned bytes; a line for a stalled load; drops acknowledged; answers to a task.
theorem test_witness_HomesServeReads :
    let q : Req := { id := 1, src := .task 0 1, op := .load 0x40 8 true }
    let stalled := (home { n := 0, va := 0x40 }).setBogie 0 { stack := [reg []], phase := .stalled 0x40, tlb := pages }
    let drop := fun (l : List Nat) => (home { req := q, g := 0, flag := true }).setDie 0 { ((home {}).die 0) with dropping := [{ req := q, owed := l }] }
    let aw : Await := { op := .load 0x40 8 true, dest := 3 }
    let task := fun (o : Op) (n : Nat) => (home { req := q, n := n, val := 7 }).setBogie 0
      { stack := [{ reg [] with await := some aw }], phase := .waiting, transit := [{ id := 1, uid := 1, ctx := 0, op := o }] }
    sees .loadFill (home { req := q, n := 3 }) (fun t => comes t .storePerformed) = true ∧
    sees .loadFill { home { req := q, n := 3 } with poison := [1] } (fun t => t.agenda.any fun h => h.ev == .storePerformed && h.arg.n == 0x10) = true ∧
    sees .loadFill stalled (fun t => (t.bogie 0).phase == .running && (t.bogie 0).l1 != []) = true ∧
    sees .dropReceived (drop [0]) (fun t => (t.die 0).dropping == [] && comes t .storePerformed) = true ∧
    sees .dropReceived (home { req := q }) (fun t => t.agenda.any fun h => h.ev == .dropReceived && h.arg.flag) = true ∧
    sees .dropReceived (drop [0, 1]) (fun t => (t.die 0).dropping.map (·.owed) == [[1]]) = true ∧
    sees .storePerformed (task (.load 0x40 8 true) 0) (fun t => (t.bogie 0).transit == [] && comes t .triggerDelivery) = true ∧
    sees .storePerformed (task (.load 0x40 8 true) 0x10) (fun t => ((t.bogie 0).stack.head?.bind (·.await)).bind (·.reply) == some (.error (0x10, 0x40))) = true ∧
    sees .storePerformed (task (.store [(0x40, 9)] false false none) 0) (fun t => (t.bogie 0).transit == []) = true := by decide +kernel

-- WalksAndRepairs: walks that start, that wait, and that end in a leaf, in nothing and in a malformed entry.
theorem test_witness_walks :
    let b : Bogie := { stack := [reg []], phase := .stalled 0x40 }
    let s := fun (va : Nat) => (home { va := va }).setBogie 0 { b with phase := .stalled va }
    let busy := (home {}).setDie 0 { (home {}).die 0 with walks := List.replicate 64 (9, 9) }
    let broken := (s 0x40).writeBytes (memKey 0 0x20000) (bytesOfNat 8 0x80000000000003FF)
    let kept := (home { va := 0x40, flag := true }).setBogie 0 b
    let unit := kept.setDie 0 { kept.die 0 with trans := [{ ctx := 0, page := 0, size := 2, key := 0, word := Leaf.word probeLeaf true }] }
    ((unit.die 0).cached 0 0x40).isSome = true ∧ sees .tlbMiss unit (fun t => t.agenda.any fun h => h.ev == .walkComplete && h.arg.flag) = true ∧
    sees .walkComplete unit (fun t => (t.bogie 0).tlb.length == 1 && (t.bogie 0).phase == .running) = true ∧
    sees .tlbMiss (s 0x40) (fun t => (t.die 0).walks == [(0, 0x40)] && comes t .walkComplete) = true ∧
    sees .tlbMiss busy (fun t => (t.die 0).walkq.length == 1 && t.agenda == []) = true ∧
    (s 0x40).restricting 0 0x40 = false ∧ sees .walkComplete (s 0x40) (fun t => (t.bogie 0).tlb.length == 1) = true ∧
    (s 0x4000000000).walk 0 0x4000000000 = .unmapped ∧ sees .walkComplete (s 0x4000000000) (fun t => (t.bogie 0).unmapped == some 0x400000) = true ∧
    broken.walk 0 0x40 = .malformed 0x20000 ∧ sees .walkComplete broken (fun t => t.errlog.length == 1) = true ∧
    (let r := { s 0x40 with pageOps := [{ kind := 1, ctx := 0, page := 0, size := 2, home := 0 }] }
     r.restricting 0 0x40 = true ∧ sees .walkComplete r (fun t => comes t .walkComplete) = true) := by decide +kernel

-- A parked unit repaired and not; poisoned; a broken copy-on-write page; a chained line read at its tail; the three kinds of error.
theorem test_witness_repairs :
    let away := { home {} with mem := [] }.setCtx 0 ((home {}).ctx 0)
    let s0 := (away.writeBytes (memKey 0 0x10000) (bytesOfNat 8 0x20001)).writeLeaf (memKey 0 0x20000) (Leaf.word { probeLeaf with present := false } true)
    let parked := s0.setDie 0 { s0.die 0 with parked := [{ id := 1, src := .firmware, op := .load 0x40 8 true }] }
    let cow := { home {} with pageOps := [{ kind := 4, ctx := 0, page := 0, size := 0, home := 0, frame := 0x5000 }] }
    let chained := ((mapped State.reset).writeLeaf (memKey 0 0x20000) (Leaf.word { probeLeaf with cls := 3, place := 2 } true)).setBogie 0 { phase := .stalled 0x40 }
    parked.leaf 0 0 = some { probeLeaf with present := false } ∧
    sees .parkRepair { parked with arg := { flag := false } } (fun t => comes t .unitPoison) = true ∧
    sees .parkRepair { parked with arg := { flag := true } } (fun t => (t.die 0).parked == [] && (t.leaf 0 0).map (·.present) == some true) = true ∧
    (s0.leaf 0 0).isSome = true ∧ (s0.die 0).parked = [] ∧
    sees .cowCopyDone cow (fun t => t.pageOps == []) = true ∧
    ((chained.consist 0 2).tail ≠ (chained.consist 0 2).joining) ∧
    sees .tailQuery { chained with arg := { va := 0x40 } } (fun t => (t.bogie 0).phase == .running) = true ∧
    sees .memoryUncorrectableError (home { m := 0, va := 3 }) (fun t => t.poison == [3]) = true ∧
    sees .memoryUncorrectableError (home { m := 1, va := 3 }) (fun t => (Tab.get (t.coach 0).tiles {} 3).poison) = true ∧
    sees .memoryUncorrectableError (home { m := 2, va := 3, n := 7 }) (fun t => (Tab.get (t.coach 0).slots {} 3).poison == [7]) = true ∧
    (let r := (home { m := 4, d := 1, va := 3, n := 2 }).setConsist 0 2 { state := 1, dies := [0, 1], units := 1 }
     sees .memoryUncorrectableError r (fun t => Tab.get (t.consist 0 2).poison [] 1 == [3] && t.poison == []) = true) ∧
    (let c := { chained.setConsist 0 2 { state := 1, dies := [0, 1], units := 1 } with arg := {} }
     (c.leaf 0 0).isSome = true ∧ sees .unitPoison c (fun t => (Tab.get (t.consist 0 2).poison [] 1).length == 1024 && t.poison == []) = true) := by decide +kernel

/-- A message to die 1 from die 0. -/
def msg : Msg := { kind := 1, src := 0, ep := 3, dst := 1, stamp := 0, ev := .fence, arg := {} }

/-- Link 0 as given, and what the step is about. -/
def wired (k : Link) (a : Args) : State := { State.reset.setLink 0 k with arg := a, clock := 1000000 }

-- LinksCarryMessages: a new flit and one sent again; a damaged flit, one in order, an old one, one that carries a message; acknowledgements
-- and timeouts.
theorem test_witness_links :
    let d := fun (w : Wire) => ({ ab := { wire := [w] } } : Link)
    sees .flitSend (wired { ab := { waiting := [msg] } } {}) (fun t => (t.link 0).ab.n == 1 && (t.link 0).ab.wire.length == 1 && (t.link 0).ab.retry.length == 1) = true ∧
    sees .flitSend (wired { ab := { retry := [{ seq := 7, msgs := [msg] }] } } {}) (fun t => (t.link 0).ab.resent == 1 && (t.link 0).ab.n == 0) = true ∧
    sees .flitReceive (wired (d { seq := 0, data := some [], bad := true }) {}) (fun t => (t.link 0).ab.crc == 1 && (t.link 0).ab.nakOwed) = true ∧
    sees .flitReceive (wired (d { seq := 0, data := some [] }) { m := 1 }) (fun t => (t.link 0).ab.crc == 1) = true ∧
    sees .flitReceive (wired (d { seq := 0, data := some [] }) {}) (fun t => (t.link 0).ab.e == 1 && (t.link 0).ab.ackOwed) = true ∧
    sees .flitReceive (wired (d { seq := 0, data := some [] }) { m := 2 }) (fun t => (t.link 0).ab.e == 0 && t.errlog.length == 1) = true ∧
    (let busy := (wired { ab := { waiting := [{ msg with dst := 2 }] } } {}).setLink 4 { ab := { waiting := [msg] } }
     busy.busyBeyond 1 { msg with dst := 2 } = true ∧ sees .flitSend busy (fun t => t == busy) = true) ∧
    sees .flitReceive (wired (d { seq := 4095, data := some [] }) {}) (fun t => (t.link 0).ab.e == 0 && (t.link 0).ab.wire == []) = true ∧
    sees .flitReceive (wired (d { seq := 0, data := some [msg] }) {}) (fun t => (t.ing 1).arrived == [msg] && comes t .messageIngress) = true ∧
    sees .ackControlFlit (wired { ba := { ackOwed := true } } {}) (fun t => !(t.link 0).ba.ackOwed && (t.link 0).ab.wire.length == 1) = true ∧
    sees .replayTimeout (wired { ab := { retry := [{ seq := 7, msgs := [] }], resent := 1 } } { m := 7 }) (fun t =>
      (t.link 0).ab.resent == 0 && (t.link 0).ab.replays == 1 && comes t .flitSend) = true ∧
    sees .nakPendingExpiry (wired { ab := { nakPending := some 3 } } {}) (fun t => (t.link 0).ab.nakPending.isNone) = true := by decide +kernel

-- A message in order, an old one, an early one, one that was bounced; and one sent on again.
theorem test_witness_messages :
    let s := fun (m : Msg) (e : BitVec 16) => { State.reset.setIng 1 { arrived := [m], expected := [(3, e)] } with arg := { d := 1 } }
    let full := List.replicate 80 ({ msg with slots := 64 }, false)
    let mine := [({ msg with slots := 16 }, true)]
    let hand := fun (m : Msg) => { State.reset.setIng 1 { ready := [(m, true)] } with arg := { d := 1, flag := true, n := 3 } }
    sees .messageIngress (s msg 0) (fun t => (t.ing 1).arrived == [] && Tab.get (t.ing 1).expected 0 3 == 1 && (t.ing 1).ready == [(msg, true)] &&
      comes t .messageIngress) = true ∧
    sees .messageIngress { State.reset.setIng 1 { arrived := [msg], ready := mine ++ full } with arg := { d := 1 } } (fun t =>
      (t.ing 1).arrived == [] && Tab.get (t.ing 1).expected 0 3 == 0 && (t.link 0).ba.waiting.any (fun m => m.bounced && m.dst == 0)) = true ∧
    sees .messageIngress (hand msg) (fun t => (t.ing 1).ready == [] && comes t .fence) = true ∧
    sees .messageIngress (hand { msg with kind := 9 }) (fun t => (t.ing 1).ready == [] && t.agenda == [] && t.errlog.length == 1) = true ∧
    sees .messageIngress (s msg 1) (fun t => (t.ing 1).arrived == [] && (t.ing 1).held == []) = true ∧
    sees .messageIngress (s { msg with stamp := 0x7FFF } 0) (fun t => (t.ing 1).held.length == 1) = true ∧
    sees .messageIngress (s { msg with bounced := true } 0) (fun t => (t.ing 1).bounce.length == 1 && comes t .bounceResend) = true ∧
    pairOf 1 (nextHop 1 0) = some (0, true) ∧ (State.reset.pickLink 0 0) = some 0 ∧
    sees .bounceResend { State.reset.setIng 1 { bounce := [({ msg with dst := 0, src := 1 }, 0)] } with arg := { d := 1 } } (fun t =>
      (t.ing 1).bounce == [] && (t.link 0).ba.waiting.length == 1 && comes t .flitSend) = true := by decide +kernel

-- LinksRetrain: rates 0 to 7; a Down link; the counters; pins; a lane; the CRC injection; a retrain that ends well, at a lower rate and in Down.
theorem test_witness_LinksRetrain :
    let up : Link := {}
    let train : Link := { state := 1 }
    let trains := fun (i : Instr) (k : Link) (a : Args) => sees i (wired k a) fun t => (t.link 0).state == 1 && comes t .retrainDone
    sees .lctlRate (wired up { val := 5 }) (fun t => t == wired up { val := 5 }) = true ∧ sees .lctlRate (wired up { val := 3 }) (fun t => t == wired up { val := 3 }) = true ∧
    trains .lctlRate up { val := 0 } = true ∧ sees .lctlRate (wired train { val := 1 }) (fun t => (t.link 0).further) = true ∧
    trains .lctlRetrain { state := 2 } {} = true ∧ sees .lctlClr (wired { retrains := 4 } {}) (fun t => (t.link 0).retrains == 0) = true ∧
    sees .lctlPin (wired up { flag := true }) (fun t => (t.link 0).pin) = true ∧ sees .lctlPin (wired { pin := true } {}) (fun t => !(t.link 0).pin) = true ∧
    up.active 63 = true ∧ up.freeRepair = some 0 ∧ trains .linjLaneArm up { m := 63 } = true ∧ trains .laneRetire up { m := 0 } = true ∧
    sees .linjCrcArm (wired { crcAfter := 5 } {}) (fun t => (t.link 0).crcArm && (t.link 0).crcLeft == 5) = true ∧
    sees .retrainDone (wired train {}) (fun t => (t.link 0).state == 0) = true ∧ trains .retrainDone train { m := 1 } = true ∧
    sees .retrainDone (wired { train with rate := 0 } { m := 1 }) (fun t => (t.link 0).state == 2) = true ∧
    trains .replayWindow { ab := { winReplays := 65 } } {} = true ∧ trains .flitReplayLimit { ab := { retry := [{ seq := 0, msgs := [], replays := 8 }] } } {} = true := by
  decide +kernel

-- ThePod: a peer's load refused, let in, and come before; atomics of another module and of host memory; an acknowledgement, none; stations.
theorem test_witness_ThePod :
    let q : Req := { op := .load 0x40 8 true }
    let far := 0xFE00400000000000
    let pw : Req := { id := 1, src := .task 0 1, op := .atomic far 8 (.int 0) 5 0 0 .reg }
    let rem : Remote := { req := { id := 1, src := .task 0 1, op := .load far 8 true }, die := 0, module := 1, seq := 3, va := far, clock := 0 }
    let dev := (mapped State.reset).writeLeaf (memKey 0 0x20000) (Leaf.word { probeLeaf with cls := 4, frame := 0x8000 } true)
    sees .peerIngress (home { m := 1, req := q }) (fun t => t.peerOut.length == 1) = true ∧
    (let s := { home { m := 1, req := q } with peers := [(1, 3)] }
     s.peerRefusal { module := 1, die := 0, seq := 0, ctx := 0, req := q } = 0 ∧ sees .peerIngress s (fun t => t.peerOut == [] && Tab.get t.nextSeq 0 1024 == 0) = true) ∧
    sees .peerIngress (home { m := 1, n := 0xFFFFFFFF, req := q }) (fun t => t.peerOut == []) = true ∧
    sees .proxyAtomic (home { req := pw }) (fun t => t.remote.length == 1) = true ∧
    sees .proxyAtomic { dev with arg := { req := { id := 1, src := .task 0 1, op := .atomic 0x40 8 (.int 0) 5 0 0 .reg } }, devices := [(0x8000, .host 0x1000)] }
      (fun t => Tab.get t.hostMem 0 0x1040 == 5) = true ∧
    sees .remoteAcknowledgement { home { n := 0 } with remote := [rem] } (fun t => t.remote == []) = true ∧
    sees .remoteTimeout { home { d := 0, m := 1, n := 3 } with remote := [rem] } (fun t => t.remote == [] && comes t .storePerformed) = true ∧
    sees .stationFail { home { n := 15 } with ctxs := [(0, { handlers := [(5, 0x100)] })] } (fun t => t.stationsDown == [15] && comes t .raiseEvent) = true ∧
    sees .stationReturn { home { n := 15 } with stationsDown := [3, 15] } (fun t => t.stationsDown == [3]) = true := by decide +kernel

/-! ### Dispatchers, engines and contexts -/

/-- Context 0 running on coach 0 with kernel 0 registered, and at 0x1000 a TASK record that names bogie 0. -/
def dispatch (a : Args) : State :=
  let s := lively { State.reset with arg := a, clock := 100 } 0
  let s := s.setCtx 0 { s.ctx 0 with bandHigh := 12, kernels := [(0, { state := 1, hdr := { addr := 0x2000 } })] }
  s.writeBytes 0x1000 (bytesOfNat 8 (2 ^ 20) ++ bytesOfNat 8 0 ++ bytesOfNat 8 7)

/-- The record. -/
def record : Vec := BitVec.ofNat 512 (2 ^ 20 + 7 * 2 ^ 128)

-- Admitted, and the ways of a release: no room, a free context, placed, forwarded, held, pushed.
theorem test_witness_Admitted : Admitted (dispatch {}) { record := 0x1000 } record 0 := by
  constructor <;> decide +kernel

-- R321: a die with no room refuses a release that comes, or comes again.
theorem test_witness_refused :
    let full := { State.reset.setDie 0 { store := List.replicate 16384 { rel := {}, place := .waiting } } with arg := { rel := { src := .host, rel := {} } } }
    (full.die 0).hasRoom 0 = false ∧ ([.releaseAccept, .releaseResend] : List Instr).all (fun i => sees i full (fun t => t.agenda.length == 1)) = true ∧
    sees .releaseForward { full with arg := { h := 0, n := 0 } } (fun t => t.agenda.length == 1) = true := by decide +kernel

-- R321: 256 entries of a context and 16,128 shared ones, full and with room for one.
theorem test_store_full : ({ store := List.replicate 16384 { rel := {}, place := .waiting } } : Die).hasRoom 0 = false := by decide +kernel

theorem test_witness_ReleasesReachFrames :
    let r : RelReq := { id := 1, src := .task 3 1, rel := { record := 0x1000 } }
    let p : Pending := { id := 5, rel := { record := 0x1000, named := some 0 }, d0 := 2 ^ 20, place := .fifo 0 0 }
    ([.releaseAccept, .releaseResend] : List Instr).all (fun i =>
      sees i { State.reset with arg := { rel := r } } (fun t => t.errlog.length == 1 && (t.die 0).store == []) &&
      sees i (dispatch { rel := r }) (fun t => (t.die 0).store.map (·.place) == [.fifo 0 0] && comes t .releaseEnqueuePush)) = true ∧
    sees .releaseForward ((dispatch { d := 1, h := 0, n := 5, g := 200, flag := true, rel := r }).setDie 0 { (dispatch {}).die 0 with store := [p] })
      (fun t => (t.die 1).store.length == 1 && (t.die 0).store == []) = true ∧
    ([(5, true), (6, false)] : List (Nat × Bool)).all (fun e => sees .releaseForward
      (((dispatch { d := 1, h := 0, n := 5, g := 200, flag := true, rel := r }).setDie 0 { (dispatch {}).die 0 with store := [p] }).setCtx 0
        { (dispatch {}).ctx 0 with state := e.1 }) (fun t => ((t.die 1).store.map (·.place) == [.closed 200]) == e.2 && (t.die 0).store == [])) = true ∧
    (let again : Happening := { ev := .releaseResend, arg := {}, lane := some (7100, senderKey (.task 3 1)) }
     let s := { dispatch { rel := r } with agenda := [again] }
     s.refusedBefore (7100, senderKey (.task 3 1)) = true ∧ sees .releaseAccept s (fun t => t.agenda.length == 2 && (t.die 0).store == []) = true) ∧
    sees .holdEnd ((dispatch {}).setDie 0 { (dispatch {}).die 0 with store := [{ p with rel := { record := 0x1000 }, place := .held }] })
      (fun t => (t.die 0).store.map (·.place) == [.fifo 0 0]) = true ∧
    (let s := (dispatch {}).setDie 0 { (dispatch {}).die 0 with store := [p] }
     (s.bogie 0).awaitsTop = true ∧ s.decision 0 = some p ∧
     sees .releaseEnqueuePush s (fun t => ((t.bogie 0).stack.head?.map fun f => (f.getX 1, f.cpu.pc)) == some (7, 0x2040) &&
       (t.die 0).store.map (·.place) == [.pushed s.uid]) = true) := by
  decide +kernel

/-- A group of context 0 in slot 3 of die 0: node 0 waits for two, node 1 has no predecessor and one instance left. -/
def grp : Group :=
  { ctx := 0, block := 0x3000, table := 0x4000, weights := [1], nodes := [{ kernel := 0, pred := 2, count := 1 }, { kernel := 0, count := 1 }, { kernel := 0, count := 1 }] }

-- ReleasesAndGroups: an update arrives; a decrement above, to and below zero; a report; the done release; a node made ready and issued.
theorem test_witness_GroupsCount :
    let s := fun (a : Args) => (dispatch a).setDie 0 { (dispatch {}).die 0 with groups := [(3, grp)] }
    let ref := fun (i : Nat) => (s {}).nodeRef 0 3 i
    let upd := fun (o : Op) => (s { flag := true }).setDie 0 { (s {}).die 0 with groupIn := [{ clock := 5, g := 0, ctx := 0, op := o }] }
    let dec := fun (c : Nat) => Op.gdec ((ref 0).setWidth 64) c
    (s {}).groupOf 0 (updateRef (dec 1)) = some (0, 3, grp) ∧ bits (updateRef (dec 1)) 11 0 = 0 ∧
    sees .groupUpdate (s { req := { id := 1, src := .task 0 1, op := dec 1 } }) (fun t => (t.die 0).groupIn.length == 1) = true ∧
    sees .groupUpdate (upd (dec 1)) (fun t => (Tab.find (t.die 0).groups 3).map (fun g => (g.nodes.head?.map (·.pred))) == some (some 1)) = true ∧
    sees .groupUpdate (upd (dec 2)) (fun t => comes t .issueInstance) = true ∧ sees .groupUpdate (upd (dec 3)) (fun t => t.fwork.map (fun w => (w.stores.length, w.after.map (·.ev))) == [(2, [.raiseEvent])]) = true ∧
    sees .groupUpdate (upd (.notice (ref 1) 0 true false)) (fun t => (Tab.find (t.die 0).groups 3).map (·.done) == some 1) = true ∧
    sees .groupUpdate { s { m := 2, n := 4 } with answers := [(4, (0, 0))] } (fun t => comes t .releaseAccept) = true ∧
    sees .issueInstance (s { flag := true, n := 3, m := 1 }) (fun t => (t.die 0).ready.length == 1 && comes t .issueInstance) = true ∧
    (let e : Ready := { home := 0, slot := 3, gen := 0, node := 1, level := 0, next := 0, last := 1 }
     let r := (s {}).setDie 0 { (s {}).die 0 with ready := [e] }
     r.issuable 0 e = some grp ∧
     sees .issueInstance (r.setDie 0 { r.die 0 with ready := [{ e with since := 100 }] }) (fun t => (t.die 0).ready.length == 1 && comes t .issueInstance) = true ∧
     sees .issueInstance r (fun t => (t.die 0).ready == [] && comes t .releaseAccept) = true) := by decide +kernel

/-- Context 0 with a copy queue's descriptor at 0x5000: its ring of 2^4 slots at 0x6000, served by hart 2 of die 0. -/
def copying (wr : Nat) (a : Args) : State :=
  (dispatch a).writeBytes 0x5000 (bytesOfNat 8 0x6000 ++ bytesOfNat 4 0 ++ bytesOfNat 4 wr ++ bytesOfNat 8 4)

-- CopyPackets: an append with room and to a full ring; a kick.
theorem test_witness_CopyPackets :
    let q : Req := { id := 1, src := .task 0 1, op := .copy 0x5000 1 }
    let w := ((copying 0 {}).recordAt 0 0x5000).getD 0
    (copying 0 {}).recordAt 0 0x5000 = some w ∧ (descOf w).log2n = 4 ∧
    sees .copyAppend (copying 0 { req := q }) (fun t => t.readByte 0x6000 == 1 && t.readByte 0x500C == 1) = true ∧
    sees .copyAppend (copying 16 { req := q }) (fun t => comes t .copyAppend && t.mem == (copying 16 {}).mem) = true ∧
    (copying 1 {}).kickOk 0 0 0 (descOf w) = true ∧
    sees .engineKick (copying 1 { d := 0, h := 0, m := 8, val := 0x5000, req := q }) (fun t => (t.hart 0 0).work == [(0, 0x5000)] && comes t .copyPacketExecute) = true ∧
    sees .engineKick (copying 1 { d := 0, h := 3, m := 8, val := 0x5000, req := q }) (fun t => (t.hart 0 3).work == [] && t.errlog.length == 1) = true ∧
    sees .engineKick (copying 1 { d := 0, h := 22, m := 8, val := 0x5000, req := q }) (fun t => t.errlog.length == 1) = true ∧
    sees .engineKick (copying 1 { d := 0, h := 21, m := 8, val := 0x40, req := q }) (fun t => (t.hart 0 21).work == [(0, 0x40)] && comes t .engineQuantum) = true := by
  decide +kernel

/-- A packet that copies a line from 0x7000 to 0x8000. -/
def line : Vec := BitVec.ofNat 512 (1 + 64 * 2 ^ 24 + 0x7000 * 2 ^ 64 + 0x8000 * 2 ^ 128)

-- A hart takes a packet, and one that a check refuses; it reads, it delivers; the packet ends; and its completion record, with and without a wake.
theorem test_witness_copy_packets :
    let s0 := fun (p : Vec) => ((copying 1 {}).writeBytes 0x6000 (bytesOfNat 64 p.toNat))
    let idle := fun (p : Vec) => (s0 p).setHart 0 0 { work := [(0, 0x5000)] }
    let run : CopyRun := { ctx := 0, desc := 0x5000, slot := 0, pkt := line, coach := 0, ch := 0 }
    let at_ := fun (r : CopyRun) => (s0 line).setHart 0 0 { run := some r, state := 1 }
    let ring := fun (prod wake : Nat) => { (at_ { run with pkt := line ||| BitVec.ofNat 512 (2 ^ 11 + 0x9000 * 2 ^ 384), stage := 2, sent := 64, bytes := 64 }).writeBytes 0x9000
      (bytesOfNat 8 0xA000 ++ bytesOfNat 4 prod ++ bytesOfNat 4 0 ++ bytesOfNat 8 4 ++ bytesOfNat 8 wake) with ringq := [(0, 0x9000, 0)] }
    let ops := fun (t : State) => (t.hart 0 0).transit.map (·.op)
    (idle line).nextPacket 0 0x5000 = some (descOf (((copying 1 {}).recordAt 0 0x5000).getD 0), line) ∧
    (s0 line).packetCheck run = none ∧
    sees .copyPacketExecute (idle line) (fun t => (t.hart 0 0).run == some run && comes t .copyPacketExecute) = true ∧
    sees .copyPacketExecute (idle 7) (fun t => ((t.hart 0 0).run.map fun r => r.status) == some 0x20 && comes t .copyCompletion) = true ∧
    sees .copyPacketExecute (at_ run) (fun t => ((t.hart 0 0).run.map fun r => r.buf.length) == some 64) = true ∧
    (let cached := (at_ run).setDie 0 { (at_ run).die 0 with rdc := [{ ctx := 0, va := 0x7000, data := 5, fill := 1 }] }
     ((cached.die 0).rdcHit 0 [] 0 0x7000).isSome = true ∧ sees .copyPacketExecute cached (fun t => ((t.hart 0 0).run.map fun r => r.buf.length) == some 64) = true) ∧
    sees .copyPacketExecute (at_ { run with buf := List.replicate 64 9 }) (fun t => ((t.hart 0 0).run.map fun r => (r.sent, r.stage)) == some (64, 1) && comes t .homeStore) = true ∧
    (let far : CopyRun := { run with pkt := line ||| BitVec.ofNat 512 (3 * 2 ^ 8 + 2 ^ 256), buf := List.replicate 64 9 }
     let s := (at_ far).setBogie 0 { stack := [{ reg [] with hdr := { probeHeader with scratch := 1, barriers := 1 } }] }
     (s.bogie 0).stack.length = 1 ∧ s.packetBound far = true → sees .copyPacketExecute s (fun t => ((t.hart 0 0).run.map fun r => r.status) == some 0x21) = true) ∧
    sees .copyCompletion (at_ { run with stage := 1, sent := 64, bytes := 64 }) (fun t => ((t.hart 0 0).run.map fun r => r.stage) == some 5 && (t.hart 0 0).done == 0) = true ∧
    sees .copyPacketExecute (at_ { run with stage := 5, sent := 64, bytes := 64 }) (fun t => ((t.hart 0 0).run.map fun r => r.stage) == some 4 && (t.hart 0 0).done == 1 &&
      ops t == [.store [(0x6000, 0)] false false none, .store (placed 0x5008 [1, 0, 0, 0]) true false none]) = true ∧
    sees .copyCompletion (at_ { run with pkt := line ||| BitVec.ofNat 512 (2 ^ 10 + 0x40 * 2 ^ 320), stage := 1, sent := 64, bytes := 64 }) (fun t => comes t .releaseAccept) = true ∧
    sees .copyPacketExecute { at_ { run with stage := 3 } with ringq := [(0, 0x9000, 0)] } (fun t => t.ringq == [] && (t.hart 0 0).done == 1) = true ∧
    sees .copyPacketExecute (at_ { run with stage := 4 }) (fun t => (t.hart 0 0).run.isNone && comes t .copyPacketExecute) = true ∧
    sees .completionRecordWrite { ring 0 0 with ringq := [] } (fun t => ((t.hart 0 0).run.map fun r => r.stage) == some 2 && t.agenda == []) = true ∧
    sees .completionRecordWrite (ring 16 0) (fun t => ((t.hart 0 0).run.map fun r => r.stage) == some 2 && comes t .completionRecordWrite) = true ∧
    sees .completionRecordWrite (ring 0 0) (fun t => ((t.hart 0 0).run.map fun r => r.stage) == some 3 && (ops t).length == 2) = true ∧
    sees .completionRecordWrite (ring 0 0x40) (fun t => (ops t).length == 3) = true := by decide +kernel

-- HartsTakeTurns: a copy hart and a collective hart that stopped; a command begun and ended; the three steps of a load of microcode.
theorem test_witness_HartsTakeTurns :
    let s := fun (h : Nat) (x : Hart) (a : Args) => { State.reset.setHart 0 h x with arg := { a with h := h } }
    let run : CopyRun := { ctx := 0, desc := 0x5000, slot := 0, pkt := line, coach := 0, ch := 0 }
    sees .engineHartFault (s 0 { stopped := some 1, run := some run, entry := 0x40 } { n := 1 }) (fun t => (t.hart 0 0).stopped.isNone &&
      ((t.hart 0 0).run.map fun r => (r.stage, r.status, r.cause)) == some (1, 0x20, 1) && comes t .copyCompletion) = true ∧
    sees .engineHartFault (s 16 { stopped := some 1, work := [(0, 0x40)] } { n := 1 }) (fun t => (t.hart 0 16).stopped.isNone && (t.hart 0 16).done == 1 &&
      (t.hart 0 16).last == 0x120 && t.errlog == [{ code := 0x20, ctx := 0, addr := 0x40 }]) = true ∧
    sees .engineQuantum (s 16 { work := [(3, 0x40)], entry := 0x80 } {}) (fun t => (t.hart 0 16).state == 3 && (t.hart 0 16).loading == some 3) = true ∧
    sees .engineQuantum { s 16 { work := [(3, 0x40), (4, 0x80)], state := 3, ctx := 3, loading := some 3, image := [(0, 9)], parts := [(4, [(0, 8)])] } {} with clock := 85000 }
      (fun t => (t.hart 0 16).loading == some 4 && (t.hart 0 16).image == [(0, 8)] && Tab.get (t.hart 0 16).parts [] 3 == [(0, 9)]) = true ∧
    sees .engineQuantum (s 16 { work := [(3, 0x40)], entry := 0x80, loaded := some 3 } {}) (fun t => (t.hart 0 16).ctx == 3 && (t.hart 0 16).state == 1 && (t.hart 0 16).cpu.pc == 0x80) = true ∧
    sees .engineQuantum (s 16 { work := [(3, 0x40)], state := 1 } { flag := true }) (fun t => (t.hart 0 16).work == [] && (t.hart 0 16).state == 0) = true ∧
    sees .microcodeLoad (s 21 {} { m := 0, c := 5 }) (fun t => (t.hart 0 21).state == 3 && (t.hart 0 21).loading == some 5) = true ∧
    sees .microcodeLoad (s 21 { state := 3 } { m := 1, n := 1, pkt := 7 }) (fun t => Tab.get (t.hart 0 21).image 0 64 == 7) = true ∧
    sees .microcodeLoad (s 21 { state := 3, loading := some 5 } { m := 2, val := 0x80 }) (fun t => (t.hart 0 21).state == 0 && (t.hart 0 21).ctx == 5 && comes t .engineQuantum) = true := by
  decide +kernel

/-! ### Services and contexts -/

-- The services of TRAP, at the ends of their ranges; a step that is answered, held, and done.
theorem test_witness_ServicesAnswer :
    let s := fun (n : Nat) (v : Word) => { State.reset with arg := { req := { id := 1, src := .hart 0 16, op := .trap n v } } }
    let tells := fun (i : Instr) (v w : Word) => sees i (s 0 v) fun t => t.agenda.any fun h => h.ev == .storePerformed && h.arg.val == w
    let bad : Word := 0xFFFFFFFFFFFFFFFD
    (s 0 0).sys.update ≠ 2 ∧ tells .version 0 0 = true ∧ tells .version 1 bad = true ∧ tells .linkState 55 (State.reset.link 55).lstat = true ∧
    tells .linkState 256 0 = true ∧ tells .linkState 311 0 = true ∧ tells .linkState 56 bad = true ∧ tells .linkState 255 bad = true ∧ tells .linkState 312 bad = true ∧
    tells .temperature 26 0 = true ∧ tells .temperature 0 0 = true ∧ tells .temperature 27 bad = true ∧ tells .power 0 0 = true ∧ tells .power 1 bad = true ∧
    tells .errlogCount 0 0 = true ∧ tells .errlogCount 1 bad = true ∧
    sees .stepEnter (s 0 7) (fun t => (t.hart 0 16).entered == [(0, 7)] && reaches t .storePerformed) = true ∧
    sees .stepEnter ((s 0 7).setCtx 0 { snap := { state := 1, step := 6 } }) (fun t => (t.hart 0 16).asking == some 7) = true ∧
    sees .stepDone (s 0 7) (fun t => (t.hart 0 16).finished == [(0, 7)]) = true := by decide +kernel

/-- Context 0 as given, with memory mapped. -/
def context (x : Ctx) (a : Args) : State := { mapped State.reset with arg := a, sys := { locked := true } }.setCtx 0 { x with ptRoot := 0x10001 }

-- ContextCommands: commands in states that do not take them; CREATE; ARM at each of its checks; ACTIVATE; QUIESCE; fields written.
theorem test_witness_ContextCommands :
    let st := fun (i : Instr) (x : Ctx) => (match exec i (context x {}) with | .next t => some ((t.ctx 0).state, (t.ctx 0).status) | _ => none)
    let full : Ctx := { state := 1, coaches := 1, saveSize := 5242880, bandHigh := 15, handlerBase := 0x3000, ceilBase := 0x3200 }
    ([(.create, 1), (.arm, 0), (.activate, 1), (.quiesce, 2), (.thaw, 3), (.destroy, 3), (.contextCommandInvalid, 3)] : List (Instr × Nat)).all
      (fun p => st p.1 { state := p.2 } == some (p.2, 2) && st p.1 { state := p.2, busy := true } == some (p.2, 1)) = true ∧
    st .create {} = some (1, 0) ∧ st .arm { full with coaches := 0 } = some (1, 3) ∧ st .arm { full with saveSize := 5242879 } = some (1, 5) ∧
    sees .arm ((context full {}).setCtx 1 { state := 2, coaches := 1 }) (fun t => (t.ctx 0).status == 4) = true ∧
    st .arm { full with bandLow := 9, bandHigh := 8 } = some (1, 3) ∧ st .arm full = some (2, 0) ∧
    sees .arm (context full { n := 2 }) (fun t => t == context full { n := 2 }) = true ∧
    sees .arm (context { full with busy := true, command := 2 } { n := 2 }) (fun t => (t.ctx 0).state == 2 && !(t.ctx 0).busy) = true ∧
    sees .arm ((context full {}).writeLeaf probeLeaf.key ({ probeLeaf with w := true, present := false }.word true)) (fun t => (t.ctx 0).busy && comes t .arm) = true ∧ st .activate { state := 2 } = some (3, 0) ∧
    sees .activate (context { state := 2 } {}) (fun t => comes t .holdEnd && comes t .mapperBind) = true ∧
    sees .quiesce (context { state := 3 } {}) (fun t => (t.ctx 0).busy && comes t .quiesceDrainDone) = true ∧
    st .quiesceDrainDone { state := 4, busy := true, command := 4 } = some (2, 0) ∧
    (let w := (context { state := 4, busy := true, command := 4 } {}).setBogie 0 { stack := [reg []], phase := .running }
     w.outstandingOf 0 = true ∧ sees .quiesceDrainDone w (fun t => (t.ctx 0).state == 4 && comes t .quiesceDrainDone) = true) ∧
    sees .contextFieldWrite (context { state := 1 } { n := 48, m := 8, val := 0x40 }) (fun t => (t.ctx 0).blockWord 6 == 0x40) = true ∧
    sees .contextFieldWrite (context { state := 3 } { n := 120, m := 8, val := 0x40 }) (fun t => (t.ctx 0).status == 2) = true ∧
    sees .contextFieldWrite (context { state := 2 } { n := 4, m := 1, val := 3 }) (fun t => (t.ctx 0).state == 3) = true := by decide +kernel

-- ContextsFreezeAndThaw: FREEZE of an Armed and of a running context, complete and not yet; THAW and its end; DESTROY, a reset, and the scrub.
theorem test_witness_ContextsFreezeAndThaw :
    let cold : Ctx := { state := 3, busy := true, command := 5, coaches := 1 }
    let at_ := fun (ph : Phase) => ((context cold {}).setBogie 0 { stack := [reg []], phase := ph, ckpt := some (reg []) })
    let kept : Saved := { g := 0, frames := [{ frame := reg [(1, 7)] }] }
    sees .freeze (context { state := 2 } {}) (fun t => (t.ctx 0).state == 5) = true ∧
    sees .freeze (context { state := 3 } {}) (fun t => (t.ctx 0).busy && comes t .freezeComplete) = true ∧ cold.freezing = true ∧
    (at_ .waiting).issued 0 = false ∧ sees .freezeComplete (at_ .waiting) (fun t => (t.ctx 0).state == 5 && (t.bogie 0).stack == []) = true ∧
    (at_ .running).issued 0 = false ∧ ((at_ .running).bogie 0).still = false ∧ sees .freezeComplete (at_ .running) (fun t => (t.ctx 0).state == 3 && comes t .freezeComplete) = true ∧
    (context { state := 5, coaches := 1 } {}).presented ((context { state := 5, coaches := 1 } {}).ctx 0) = true ∧
    sees .thaw (context { state := 5, coaches := 1 } {}) (fun t => (t.ctx 0).thawing && comes t .thawRestoreDone) = true ∧
    sees .thaw (context { state := 5, coaches := 2 ^ 191 } {}) (fun t => (t.ctx 0).state == 3) = true ∧
    sees .thaw ((context { state := 5, coaches := 2 ^ 23 } {}).setDie 0 { coaches := 23 }) (fun t => (t.ctx 0).status == 3) = true ∧
    (let w := context { state := 3, busy := true, command := 6, coaches := 1, saveBase := 0x10000000000, saved := [(0, kept)] } {}
     w.slotAltered kept = false) ∧
    sees .thawRestoreDone (context { state := 3, busy := true, command := 6, coaches := 1, saveBase := 0x10000000000, saved := [(0, kept)] } {}) (fun t =>
      (t.ctx 0).saved == [] && ((t.bogie 0).stack.map fun f => f.getX 1) == [7] && comes t .triggerDelivery) = true ∧
    sees .destroy (context { state := 5 } {}) (fun t => (t.ctx 0).state == 6 && comes t .scrubDone) = true ∧
    sees .functionLevelReset (at_ .waiting) (fun t => (t.ctx 0).state == 6 && (t.bogie 0).stack == []) = true ∧
    sees .scrubDone (context { state := 6, busy := true } {}) (fun t => (t.ctx 0).state == 0 && !(t.ctx 0).busy) = true := by decide +kernel

/-! ### Command queues -/

/-- A packet by its doublewords. -/
def pk (l : List Nat) : Vec := vecOf (l.flatMap (bytesOfNat 8))

/-- The descriptor of `ring`'s queue: a ring of 2^4 slots at 0x1000 with one packet. -/
def ringDesc : CmdDesc := { base := 0x1000, wr := 1, rd := 0, log2n := 4, fails := 0, bad := false }

/-- Enabled queue 3 of context 0 in host memory under PASID 0, bound to slot 0, with a packet that has been fetched. -/
def ring (l : List Nat) (a : Args) : State :=
  let mem := Tab.setList (Tab.setList [] unlisted (hostKey 0 8) (bytesOfNat 4 1 ++ bytesOfNat 4 0 ++ bytesOfNat 8 4)) unlisted (hostKey 0 0) (bytesOfNat 8 0x1000)
  { dispatch { a with n := 3, pkt := pk l } with
    queues := [(3, { state := 1, host := true, fetching := true, slot := some 0 })], slots := [(0, 3)]
    hostMem := Tab.setList mem unlisted (hostKey 0 0x1000) (l.flatMap (bytesOfNat 8)) }

/-- The packet retires with a status and a cause. -/
def retired (t : State) (status cause : Nat) : Bool :=
  (t.queue 3).begun == some 0 && (t.agenda.any fun h => h.ev == .mapperBind && h.arg.m == 2) && Tab.range t.hostMem unlisted (hostKey 0 0x1038) 2 == bytesOfNat 2 (status + 256 * cause)

/-- The packet retires so once firmware's stores are performed. -/
def ends (t : State) (status cause : Nat) : Bool :=
  (t.queue 3).begun == some 0 && t.fwork.map (fun w => w.after.map fun h => (h.ev, h.arg.m, h.arg.h, h.arg.d)) == [[(.nop, 2, status, cause)]]

/-- It has begun, and the message that makes step ev waits at a link. -/
def begun (t : State) (ev : Instr) : Bool :=
  (t.queue 3).begun == some 1 && !(t.queue 3).fetching && t.links.any fun e => (e.2.ab.waiting ++ e.2.ba.waiting).any fun m => m.ev == ev

theorem test_witness_InRing : InRing (ring [1] {}) ringDesc := by constructor <;> decide +kernel

-- QueuesAreMapped: a queue enabled, notified, bound, unbound and torn down.
theorem test_witness_QueuesAreMapped :
    let s := fun (q : Queue) (a : Args) => { ring [1] {} with arg := { a with n := 3 }, queues := [(3, q)], slots := [] }
    let on : Queue := { state := 1, host := true }
    let st := fun (i : Instr) (q : Queue) => match exec i (s q {}) with | .next t => some ((t.queue 3).state, comes t .lastFetchReturn) | _ => none
    st .queueEnable {} = some (1, false) ∧ st .queueEnable { state := 2 } = some (2, false) ∧ st .queueTeardown on = some (0, false) ∧
    st .queueTeardown { on with fetching := true } = some (2, true) ∧ st .queueTeardown {} = some (0, false) ∧
    sees .pasidInvalidate { s { on with pasid := 3 } {} with arg := { n := 3 } } (fun t => (t.queue 3).state == 0) = true ∧
    st .lastFetchReturn { on with state := 2, fetching := true } = some (0, false) ∧
    sees .queueNotify { s {} {} with arg := { va := 24, m := 8 } } (fun t => t.errlog == [{ code := 0, addr := 3 }]) = true ∧
    sees .queueNotify { s { on with ctx := 2 } {} with arg := { va := 24, m := 8, c := 1 } } (fun t => t.errlog.length == 1) = true ∧
    sees .queueNotify { s { on with queued := true } {} with arg := { va := 24, m := 8 } } (fun t => t.notified == []) = true ∧
    sees .queueNotify { s on {} with arg := { va := 24, m := 8 } } (fun t => t.notified == [3] && comes t .mapperBind) = true ∧
    sees .queueNotify { s { on with ctx := 5 } {} with arg := { va := 24, m := 8 } } (fun t => t.waiting == [3]) = true ∧
    sees .mapperBind { s on {} with notified := [3], oracle := [0] } (fun t => Tab.find t.slots 0 == some 3 && comes t .nop) = true ∧
    sees .mapperBind { s { on with slot := some 0 } { flag := true } with slots := [(0, 3)], oracle := [0] } (fun t => (t.queue 3).fetching && comes t .nop) = true ∧
    sees .mapperBind { s on {} with notified := [3], oracle := [1] } (fun t => (t.queue 3).state == 0 && t.errlog.length == 1) = true ∧
    sees .mapperBind { s { on with desc := 64 } {} with
      notified := [3], oracle := [0], hostMem := Tab.setList [] unlisted (hostKey 0 80) [1] } (fun t => (t.queue 3).state == 0 && t.errlog.length == 1) = true ∧
    sees .mapperBind { s { on with slot := some 0, retired := 16 } { flag := true } with slots := [(0, 3)], notified := [9] } (fun t => comes t .mapperUnbind) = true ∧
    (let w := { s { on with slot := some 0 } {} with agenda := [{ ev := .mapperBind, arg := { n := 3, flag := true, m := 1 } }] }
     w.fetchParked 3 = true ∧ sees .queueTeardown w (fun t => (t.queue 3).state == 2) = true) ∧
    sees .mapperUnbind { s { on with slot := some 0, retired := 16 } {} with slots := [(0, 3)], notified := [5] } (fun t => t.notified == [5, 3] && t.slots == []) = true ∧
    (let w := { s { on with slot := some 0, held := true } {} with slots := [(0, 3)] }
     sees .mapperUnbind w (· == w) = true) ∧
    sees .mapperBind (s { on with begun := some 0 } { flag := true, m := 2 }) (fun t => (t.queue 3).retired == 1 && (t.queue 3).begun.isNone && comes t .mapperBind) = true ∧
    sees .mapperBind { s { on with begun := some 0, retired := 15 } { flag := true, m := 2 } with notified := [9] } (fun t => comes t .mapperUnbind) = true ∧
    sees .mapperUnbind { s { on with slot := some 0, desc := 64 } { flag := true } with
      slots := [(0, 3)], hostMem := Tab.setList [] unlisted (hostKey 0 80) [4] } (fun t => t.notified == [] && t.slots == []) = true := by decide +kernel

-- The drain of a kernel index ends: with a new header, and with none.
theorem test_witness_KernelDrains :
    let s := fun (h : Option Header) => (context { state := 3, kernels := [(3, { state := 2, hdr := {}, next := h, queue := 1024 })] } { n := 3 })
    (s none).liveFrames 0 3 = false ∧ sees .kernelDrainEnd (s (some { addr := 0x2000 })) (fun t => ((t.ctx 0).kernel 3).state == 1 && ((t.ctx 0).kernel 3).hdr.addr == 0x2000) = true ∧
    sees .kernelDrainEnd (s none) (fun t => ((t.ctx 0).kernel 3).state == 0 && comes t .holdEnd) = true := by decide +kernel

-- PacketsRetire: malformed; NOP; one request; the triggers.
theorem test_witness_PacketsRetire :
    let sees := fun (i : Instr) (l : List Nat) (p : State → Bool) => sees i (ring l {}) p
    let armed : Trigger := { armed := true, threshold := 5, counter := 3, pkt := pk [2], queue := 3 }
    let trig := fun (l : List Nat) => (ring l {}).setCtx 0 { (ring l {}).ctx 0 with triggers := [(9, armed)] }
    ([.nop, .launchTask, .queueCopy, .signalStore, .signalAdd, .signalTrigger, .wait, .skipIf, .jump, .call, .returnList, .armTrigger, .snapshotCut,
      .setCeilings] : List Instr).all (fun i => sees i [0x101] (fun t => retired t 2 0)) = true ∧
    sees .nop [1] (fun t => retired t 1 0) = true ∧ sees .launchTask [2, 0x1000, 2 ^ 36] (fun t => begun t .releaseAccept) = true ∧
    (ring [] {}).copyTarget 0 0x5000 = none ∧ sees .queueCopy [4, 0x5000, 0x7000] (fun t => begun t .copyAppend) = true ∧
    sees .signalStore [5, 0x40, 7] (fun t => begun t .homeStore) = true ∧ sees .signalStore [5, 0x40, 7, 3] (fun t => retired t 2 0) = true ∧
    sees .signalAdd [5, 0x40, 7, 1] (fun t => begun t .atomicExecute) = true ∧
    (match exec .signalTrigger (trig [5, 9, 2, 2]) with | .next t => (t.ctx 0).sums == [(9, 100, some 2)] && t.agenda.map (·.arg.m) == [1, 2] | _ => false) = true ∧
    (match exec .signalTrigger { trig [5, 9, 2, 2] with arg := { n := 3, m := 2, pkt := pk [5, 9, 2, 2] } } with | .next t => retired t 1 0 | _ => false) = true ∧
    (match exec .nop { ring [5] {} with arg := { n := 3, m := 2, h := 4, d := 9 } } with | .next t => retired t 4 9 | _ => false) = true ∧
    sees .launchTask [2, 0x1000, 0] (fun t => begun t .releaseAccept) = true ∧
    (match exec .launchTask { ring [2, 0x1000, 0] {} with poison := [0x40] } with | .next t => retired t 4 0x10 | _ => false) = true ∧
    (match exec .armTrigger (((trig [11, 0x7000, 9, 6]).setCtx 0 { (trig []).ctx 0 with triggers := [(9, { armed with counter := 7 })], sums := [(9, 100, none)] }).writeBytes 0x7000 [3]) with
      | .next t => comes t .launchTask && (Tab.get (t.ctx 0).triggers {} 9).counter == 2 && (Tab.get (t.ctx 0).triggers {} 9).threshold == 6 | _ => false) = true ∧
    (match exec .armTrigger ((ring [11, 0x7000, 4, 6] {}).writeBytes 0x7000 [3]) with | .next t => (t.ctx 0).sums == [(4, 100, none)] && Tab.get (t.ctx 0).triggers {} 4 == { armed := true, threshold := 6, pkt := pk [3], queue := 3 } | _ => false) = true := by
  decide +kernel

-- The sums of a clock: one that reaches the threshold, one that does not, and two that fire in the order of their tags.
theorem test_witness_TriggersSum :
    let armed := fun (k : Nat) => ({ armed := true, threshold := 5, counter := 3, pkt := pk [k], queue := 3 } : Trigger)
    let s := fun (sums : List (Nat × Nat × Option Word)) => (ring [] { m := 1 }).setCtx 0 { (ring [] {}).ctx 0 with triggers := [(4, armed 4), (9, armed 2)], sums := sums }
    let sees := fun (sums : List (Nat × Nat × Option Word)) (p : State → Bool) => sees .signalTrigger (s sums) p
    sees [(9, 99, some 1), (9, 99, some 1)] (fun t => Tab.get (t.ctx 0).triggers {} 9 == { armed 2 with counter := 0, armed := false } && t.agenda.map (·.ev) == [.launchTask]) = true ∧
    sees [(9, 99, some 1)] (fun t => Tab.get (t.ctx 0).triggers {} 9 == { armed 2 with counter := 4 } && t.agenda == []) = true ∧
    sees [(9, 99, none)] (fun t => (Tab.get (t.ctx 0).triggers {} 9).armed && t.agenda == []) = true ∧
    (match exec .signalTrigger ((ring [] { m := 1 }).setCtx 0 { (ring [] {}).ctx 0 with triggers := [(9, { armed 2 with counter := 6 })], sums := [(9, 99, none)] }) with
      | .next t => (Tab.get (t.ctx 0).triggers {} 9) == { armed 2 with counter := 1, armed := false } && comes t .launchTask | _ => false) = true ∧
    sees [(9, 99, some 2), (4, 99, some 2)] (fun t => t.agenda.map (·.ev) == [.queueCopy, .launchTask]) = true := by decide +kernel

-- The waits, the lists, and the ceilings: a table taken, and one whose entry 0 fails.
theorem test_witness_PacketsWait :
    let s := fun (l : List Nat) (w : Option Nat) => { ring l {} with queues := [(3, { state := 1, host := true, fetching := true, slot := some 0, waitFrom := w })] }
    let w := fun (code : Nat) (from' : Option Nat) => s [6, 0x40, 1, code, 1] from'
    let a : Args := { n := 3, pkt := pk [6, 0x40, 1, 1, 1] }
    sees .wait (w 1 none) (fun t => retired t 1 0) = true ∧ sees .wait (w 0 none) (fun t => (t.queue 3).waitFrom == some 100 && comes t .waitTimeout && comes t .wait) = true ∧
    sees .wait { w 0 (some 100) with clock := 1800 } (fun t => retired t 6 0) = true ∧
    sees .skipIf (s [7, 0x40, 1, 2 ^ 16 * 5 + 1] none) (fun t => retired t 1 0 && (t.queue 3).skips == 5) = true ∧
    sees .skipIf (s [7, 0x40, 1, 2 ^ 16 * 5] none) (fun t => retired t 1 0 && (t.queue 3).skips == 0) = true ∧
    sees .waitTimeout { w 0 (some 7) with arg := { n := 3, m := 7 }, agenda := [{ ev := .wait, arg := a }] } (fun t => retired t 6 0 && !comes t .wait) = true ∧
    (let far := 0xFE00400000000000
     let p := { ring [6, far, 1, 1, 1] {} with peers := [(1, 7)] }
     sees .wait p (fun t => t.remote.length == 1 && comes t .wait) = true ∧
     sees .wait p (fun t => (t.queue 3).waitFrom == some 100 && comes t .waitTimeout) = true ∧
     sees .wait { { p with arg := { p.arg with m := 4 }, clock := 1800 } with queues := [(3, { state := 1, host := true, fetching := true, slot := some 0, waitFrom := some 100 })] }
       (fun t => retired t 6 0) = true ∧
     sees .wait { p with arg := { p.arg with m := 4 }, answers := [(4, (0, 0))] } (fun t => retired t 1 0) = true ∧
     sees .wait { p with arg := { p.arg with m := 4 }, answers := [(4, (0, 9))] } (fun t => retired t 4 9) = true) ∧
    ([.jump, .call] : List Instr).all (fun i => sees i (ring [8, 0x4000000000] {}) fun t => retired t 4 9) = true ∧
    ([.jump, .call] : List Instr).all (fun i => sees i (ring [8, 0x7000] {}) fun t => (t.queue 3).point == { list := some 0x7000, ret := 1 }) = true ∧
    sees .returnList (ring [10] {}) (fun t => retired t 2 0) = true ∧
    sees .setCeilings (ring [14, 0x7000] {}) (fun t => retired t 1 0) = true ∧
    sees .setCeilings ((ring [14, 0x7000] {}).writeBytes 0x7000 [0x30]) (fun t => retired t 3 1) = true := by decide +kernel

/-- Context 0 of `ring` with one kernel index, and with the header of a kernel of one word at 0x7000. -/
def kernelAt (l : List Nat) (k : Kernel) (a : Args) : State :=
  let s := (ring l a).writeBytes 0x7000 (bytesOfNat 16 (1 + 2 ^ 11 + 64 * 2 ^ 64 + 2 ^ 96))
  s.setCtx 0 { s.ctx 0 with kernelCount := 2, kernels := if k.state = 0 then [] else [(1, k)] }

-- REGISTER_KERNEL: an index out of range; a removal, of nothing and of a kernel that runs; a header refused, and one taken.
theorem test_witness_KernelsRegister :
    let s := fun (i addr : Nat) (k : Kernel) => kernelAt [13, i, addr] k {}
    let run := (s 1 0 { state := 1 }).setBogie 0 { stack := [{ reg [] with kernel := 1 }], phase := .running }
    (s 2 0 {}).ctx 0 = { (s 2 0 {}).ctx 0 with kernelCount := 2 } ∧ sees .registerKernel (s 2 0 {}) (fun t => retired t 3 1) = true ∧
    sees .registerKernel (s 1 0 {}) (fun t => retired t 1 0) = true ∧ run.liveFrames 0 1 = true ∧
    sees .registerKernel run (fun t => ((t.ctx 0).kernel 1).state == 2 && (t.queue 3).held && comes t .registerKernel) = true ∧
    sees .registerKernel (s 1 0x7040 {}) (fun t => retired t 3 3) = true ∧ sees .registerKernel (s 1 0x7000 {}) (fun t => ends t 1 0 && ((t.ctx 0).kernel 1).state == 1) = true := by
  decide +kernel

/-- At 0x3000 a group's block, with its table of one node at 0x4000. -/
def groupAt (weights mark : Nat) : State :=
  ((ring [3, 0x3000, weights] {}).writeBytes 0x3000 (bytesOfNat 16 (0x4000 + 2 ^ 64 + mark * 2 ^ 108))).writeBytes 0x4000 (bytesOfNat 32 (2 ^ 224))

-- LAUNCH_GROUP: of a block that runs, with no weight, and in slot 0 of die 0.
theorem test_witness_GroupsLaunch :
    sees .launchGroup (groupAt 1 1) (fun t => retired t 3 1) = true ∧ sees .launchGroup (groupAt 0 0) (fun t => ends t 3 6) = true ∧
    sees .launchGroup ((groupAt 1 0).writeBytes 0x3000 [1]) (fun t => ends t 3 2) = true ∧ sees .launchGroup ((groupAt 1 0).writeBytes 0x3008 [0]) (fun t => ends t 3 3) = true ∧
    sees .launchGroup (groupAt 1 0) (fun t => ends t 1 0 && (Tab.find (t.die 0).groups 0).isSome) = true ∧
    (match (groupAt 1 0).readRange 0 0x3000 64, (groupAt 1 0).readRange 0 0x4000 64 with
      | .ok l, .ok tb => bits (vecOf l) 76 64 == 1 && nodeOk (vecOf tb) 1 && bits (vecOf tb) 55 44 == 0 | _, _ => false) = true := by decide +kernel

-- RETURN within lists and from the outermost; SNAPSHOT_CUT without its feature, and taken.
theorem test_witness_ListsAndCuts :
    let r := fun (st : List Nat) => { ring [10] {} with queues := [(3, { state := 1, host := true, slot := some 0, point := { list := some 0x7000, stack := st } })] }
    let far := 0xFE00400000000000
    let cut := { (ring [12, 5, far, 0, 0x8000, 0x7000, 1] {}).writeBytes 0x7000 (bytesOfNat 16 (0x10000 + 2 ^ 64)) with peers := [(1, 7)] }
    sees .returnList (r [0x9000]) (fun t => (t.queue 3).point == { list := some 0x9000 }) = true ∧
    sees .returnList (r []) (fun t => (t.queue 3).point == {} && (t.queue 3).retired == 1 && retired t 1 0) = true ∧
    sees .snapshotCut cut (fun t => retired t 3 2) = true ∧
    ([[12, 5, far + 8, 0, 0x8000, 0x7000, 1], [12, 5, far, 0, 0x8008, 0x7000, 1], [12, 5, far, 0, 0x8000, 0x7008, 1], [12, 5, far, 0, 0x8000, 0x7000, 0],
      [12, 5, far, 0, 0x8000, 0x7000, 65]] : List (List Nat)).all (fun l => sees .snapshotCut (ring l {}) fun t => retired t 2 0) = true ∧
    sees .snapshotCut ({ cut with sys := { accept := 4 } }.setHart 0 16 { entered := [(0, 5)] }) (fun t => retired t 3 1) = true ∧
    sees .snapshotCut { cut with sys := { accept := 4 } } (fun t => retired t 1 0 && comes t .snapshotCutTaken && (t.ctx 0).snap.regions == [(0x10000, 1)]) = true := by
  decide +kernel

/-! ### Pages, consists, snapshots -/

/-- Context 0 with its first 2 MiB mapped by a leaf of a class. -/
def small (cls : Nat) : State :=
  let s := (mapped State.reset).writeBytes (memKey 0 0x20000) (bytesOfNat 8 0x30001)
  s.writeLeaf (memKey 0 0x30000) ({ probeLeaf with size := 1, cls := cls }.word true)

/-- A translation request of a kind for that page, with operands from bit 9 and bit 12 on; its done doubleword is at 0x5000. -/
def request (kind perms target : Nat) : Vec := BitVec.ofNat 512 (kind + perms * 2 ^ 9 + target * 2 ^ 12 + 32 * 2 ^ 96 + 0x5000 * 2 ^ 192)

-- PagesChange: rejected for its fields, for its pages and for the page's class; begun; acknowledged by one of two and by the last; copied.
theorem test_witness_PagesChange :
    let s := fun (p : Vec) => { small 0 with arg := { pkt := p } }
    let all : List (Nat × Instr) := [(1, .unmap), (2, .protect), (3, .migrate)]
    let ro := { small 5 with arg := { pkt := request 2 3 0 } }
    let o := fun (k : Nat) (owed : List Nat) => ({ kind := k, ctx := 0, page := 0, size := 1, home := 0, done := 0x5000, owed := owed, target := 1 } : PageOp)
    let ack := fun (k : Nat) (owed : List Nat) => { small 0 with pageOps := [o k owed], arg := { g := 5, n := k, flag := true } }
    all.all (fun p => sees p.2 (s (request p.1 3 1)) (fun t => t.pageOps.length == 1 && (if p.1 = 3 then comes t .migrateCopyDone else comes t .invalidateAck)) &&
      sees p.2 (s 0) (fun t => t.pageOps == []) && sees p.2 (s (request p.1 3 1 + BitVec.ofNat 512 (2 ^ 128 * 2 ^ 30))) (fun t => t.pageOps == [] && reaches t .homeStore)) = true ∧
    ([.unmap, .protect] : List Instr).all (fun i => sees i ((s (request (if i = .unmap then 1 else 2) 3 0)).setDie 2 { trans := [{ ctx := 0, page := 0, size := 1, key := 0, word := 0 }] }) fun t =>
      (t.die 2).trans == []) = true ∧
    sees .protect ro (fun t => t.pageOps == [] && reaches t .homeStore) = true ∧
    sees .invalidateAck (ack 1 [5, 6]) (fun t => t.pageOps == [o 1 [6]]) = true ∧
    sees .invalidateAck (ack 1 [5]) (fun t => (t.leaf 0 0).isNone && t.pageOps == [] && t.errlog.length == 1) = true ∧
    sees .invalidateAck (ack 2 [5]) (fun t => ((t.leaf 0 0).map fun l => l.rd) == some false && reaches t .homeStore) = true := by decide +kernel

-- A MIGRATE's copy.
theorem test_witness_Migrate :
    sees .migrateCopyDone { mapped State.reset with pageOps := [{ kind := 3, ctx := 0, page := 0, size := 2, home := 0, target := 1 }], arg := {}, oracle := [0x4000] }
      (fun t => t.readByte (memKey 0 0x20003) == 0x40 && t.pageOps.map (·.frame) == [0x4000] && comes t .invalidateAck) = true := by decide +kernel

/-- A consist request of a kind for consist 5 on dies 2 and 3, with n units. -/
def consistReq (kind n : Nat) : Vec := BitVec.ofNat 512 (kind + 5 * 2 ^ 6 + 2 * 2 ^ 12 + 0xFFFFFF32 * 2 ^ 96 + n * 2 ^ 128 + 0x5000 * 2 ^ 192)

/-- CONSIST accepted, and consist 5 of context 0 as given. -/
def consists (c : Consist) (a : Args) : State :=
  let s := mapped { State.reset with arg := a, sys := { accept := 2 } }
  s.setConsist 0 5 c

-- ConsistsAreMade: a field rule broken; created, and no memory for it; destroyed.
theorem test_witness_ConsistsAreMade :
    let st := fun (i : Instr) (c : Consist) (p : Vec) => match exec i (consists c { pkt := p }) with | .next t => some ((t.consist 0 5).state, reaches t .homeStore) | _ => none
    st .consistCreate {} (consistReq 1 1 ||| 16) = some (0, true) ∧ st .consistCreate {} (consistReq 1 1) = some (1, true) ∧
    st .consistDestroy { state := 1 } (consistReq 2 1) = some (0, true) ∧ st .consistDestroy { state := 2 } (consistReq 2 1) = some (2, true) ∧
    sees .consistCreate ((consists {} { pkt := consistReq 1 1 }).setDie 2 { alloc := 2 ^ 22 }) (fun t => (t.consist 0 5).state == 0) = true ∧
    sees .consistDestroy ((consists { state := 1, units := 1 } { pkt := consistReq 2 1 }).writeLeaf (memKey 0 0x20000) ({ probeLeaf with cls := 3, place := 5 }.word true))
      (fun t => (t.consist 0 5).state == 1) = true := by decide +kernel

-- ConsistsChain: a store at the head; one that the tail has, and its next; acknowledgements at the middle and at the head.
theorem test_witness_ConsistsChain :
    let c : Consist := { state := 1, dies := [2, 3], units := 1 }
    let q : Req := { id := 1, src := .task (192 * 3) 1, op := .store [(0x40, 7)] false false none }
    let page := fun (s : State) => s.writeLeaf (memKey 0 0x20000) ({ probeLeaf with w := true, cls := 3, place := 5 }.word true)
    let s := fun (c : Consist) (a : Args) => page (consists c { a with n := 5, req := q })
    (s c {}).leaf 0 0x40 ≠ none ∧
    sees .chainApply (s c { d := 2 }) (fun t => (t.consist 0 5).version == 1 && (t.consist 0 5).unacked == [(1, q, 0)]) = true ∧
    sees .chainApply (s { c with applied := [(3, 1)] } { d := 3, flag := true, va := 1 }) (fun t => t == s { c with applied := [(3, 1)] } { d := 3, flag := true, va := 1 }) = true ∧
    sees .chainApply (s c { d := 3, h := 2, flag := true, va := 1 }) (fun t => Tab.get (t.consist 0 5).replicas [] 3 == [(0x40, 7)] && comes t .storePerformed) = true ∧
    sees .chainAck (s { c with dies := [1, 2, 3], dirty := [(2, [(1, 4)])] } { d := 2, h := 3, va := 4 }) (fun t => Tab.get (t.consist 0 5).dirty [] 2 == []) = true ∧
    sees .chainAck (s { c with unacked := [(4, q, 0)] } { d := 2, h := 3, va := 4 }) (fun t => (t.consist 0 5).unacked == []) = true := by decide +kernel

-- The ends of a re-link, and the failure of a member and of a die that joins.
theorem test_witness_ConsistsRelink :
    let c : Consist := { state := 2, dies := [2, 3], units := 1, asker := some { id := 1, src := .task 0 1, op := .couple 5 4 } }
    let f := fun (i : Instr) (c : Consist) (d : Nat) => match exec i (consists c { n := 5, d := d }) with
      | .next t => (t.consist 0 5).dies ++ [(t.consist 0 5).state, (t.consist 0 5).gen.toNat, if comes t .storePerformed then 1 else 0] | _ => []
    f .coupleCopyDone { c with joining := 4 } 0 = [2, 3, 4, 2, 1, 0] ∧ f .coupleStreamDone { c with joining := 3 } 0 = [2, 3, 1, 0, 1] ∧
    f .uncoupleDone { c with dies := [1, 2, 3], leaving := 2 } 0 = [1, 3, 1, 1, 1] ∧
    f .memberFail { c with state := 1 } 3 = [2, 3, 1, 0] ∧ f .memberFail { c with joining := 4 } 4 = [2, 3, 1, 0, 1] ∧
    sees .memberFail (consists { c with state := 1, dies := [3] } { n := 5, d := 3 }) (fun t => (t.consist 0 5).dead) = true ∧
    sees .coupleCopyDone (consists { c with dies := [], joining := 4, dead := true } { n := 5 }) (fun t => (t.consist 0 5).dead && (t.consist 0 5).dies == [4]) = true := by decide +kernel

-- SnapshotsDrain: the cut taken and waited for; an advance, and the last; a line of a unit; the three ends.
theorem test_witness_SnapshotsDrain :
    let sn : Snap := { state := 2, base := 0xFE00400000000000, record := 0x8000, advanced := [0, 1, 2, 3, 4, 5, 6, 7] }
    let s := fun (x : Snap) (a : Args) => let t := mapped { State.reset with arg := a }
      State.setCtx { t with peers := [(1, 7)] } 0 { t.ctx 0 with snap := x }
    let armed : Snap := { sn with state := 1, step := 3, advanced := [], regions := [(0, 1)] }
    sees .snapshotCutTaken (s armed {}) (fun t => (t.ctx 0).epoch == 1 && (t.ctx 0).snap.units.length == 1 && comes t .snapshotCutTaken) = true ∧
    sees .snapshotCutTaken ((s armed {}).setHart 0 16 { image := [(64, 1)], loaded := some 0, entered := [(0, 3)] }) (fun t => (t.ctx 0).snap.state == 1 && comes t .snapshotCutTaken) = true ∧
    sees .snapshotCutTaken (s { sn with advanced := [0] } { m := 1, d := 7 }) (fun t => (t.ctx 0).snap.advanced == [0, 7]) = true ∧
    sees .snapshotCutTaken (s { sn with advanced := [0, 1, 2, 3, 4, 5, 6] } { m := 1, d := 7 }) (fun t => comes t .drainUnit && comes t .snapshotDone) = true ∧
    sees .drainUnit (s { sn with units := [{ va := 0 }] } {}) (fun t => t.remote.length == 1 && (t.ctx 0).snap.units.map (·.next) == [1] && (t.ctx 0).snap.owed == [(1, 0)]) = true ∧
    sees .snapshotDone { s { sn with stage := 65 } { n := 4 } with answers := [(4, (0, 0))] } (fun t => (t.ctx 0).snap == {} && comes t .raiseEvent) = true ∧
    sees .snapshotDone (s { sn with stage := 64 } {}) (fun t => (t.ctx 0).snap.stage == 65 && comes t .snapshotDone) = true ∧
    sees .snapshotDone (s { sn with stage := 63 } {}) (fun t => (t.ctx 0).snap.stage == 64 && t.remote.length == 1) = true ∧
    sees .snapshotDone (s sn {}) (fun t => (t.ctx 0).snap.stage == 1 && t.remote.length == 1) = true := by decide +kernel

/-! ### The module -/

-- TheModuleBoots: the reset; the stages of a boot and its failures; the features; the power; the update.
theorem test_witness_TheModuleBoots :
    let r := { State.reset with arg := {} }
    let s := fun (y : Sys) (a : Args) => { r with sys := y, arg := a }
    let ok : Machine.Complex := { stage := 4 }
    let y : Sys := { h0 := ok, h1 := ok }
    let sys := fun (i : Instr) (y : Sys) (a : Args) (p : Sys → Bool) => sees i (s y a) fun t => p t.sys
    sees .moduleReset ((s y {}).setBogie 3 { streak := 1 }) (fun t => t.sys == State.reset.sys && t.bogies == []) = true ∧
    sys .bootStage {} {} (fun z => z.h0.stage == 1) = true ∧ sys .bootStage { h0 := { stage := 2 } } {} (fun z => z.h0.stage == 3) = true ∧
    sys .bootStage { h0 := { stage := 2 } } { m := 4 } (fun z => z.h0.stage == 5 && z.h0.error == 4 && z.active == 1) = true ∧
    sys .bootStage { h0 := { stage := 1 } } { m := 3 } (fun z => z.h0.error == 3) = true ∧ sys .bootStage y { m := 1 } (fun z => z == y) = true ∧
    sys .bootStage { h1 := { stage := 3 } } { h := 1 } (fun z => z.h1.stage == 4) = true ∧ sys .spdmRequest y {} (fun z => z.responses.length == 1) = true ∧
    sees .featCommit ((s y {}).setLink 3 { rate := 4 }) (fun t => (t.link 3).rate == 2 && (t.link 3).state == 1 && t.sys.locked) = true ∧
    sys .featCommit { y with accept := 31 } {} (fun z => z.locked && z.featStatus == 1) = true ∧ sys .featCommit { y with accept := 32 } {} (fun z => z.featStatus == 2 && !z.locked) = true ∧
    sys .scaleReq y {} (fun z => z.scaleResult == 3) = true ∧
    sees .scaleReq ((s { y with accept := 8 } { val := 1 }).setCtx 0 { state := 2, coaches := 1 }) (fun t => (t.ctx 0).servers == [(0, true)]) = true ∧
    sys .pwrLimit y { val := 999 } (fun z => z.powerLimit == 1000) = true ∧ sys .pwrLimit y { val := 3401 } (fun z => z.powerLimit == 3400) = true ∧
    sys .pwrLimit y { val := 2000 } (fun z => z.powerLimit == 2000) = true ∧
    sys .powerWindow y { n := 26, va := 9, val := 3400000 } (fun z => z.withhold == 0 && z.temps == [(26, 9)]) = true ∧ sys .powerWindow y { n := 1, val := 3400001 } (fun z => z.withhold == 1) = true ∧
    (s y {}).standby = ok ∧ sys .fwStage y {} (fun z => z.update == 1) = true ∧ sees .fwStage (s y { m := 1 }) (fun t => t.errlog.length == 1) = true ∧
    sees .fwCommit (s { y with update := 1 } {}) (fun t => t.sys.update == 2 && comes t .mailboxesEmpty) = true ∧ sys .fwAbort { y with update := 1 } {} (fun z => z.update == 0) = true ∧
    sys .mailboxesEmpty { y with update := 2 } {} (fun z => z.active == 1 && z.update == 0) = true ∧ sys .complexFailover y {} (fun z => z.active == 1 && z.h0.failed) = true := by decide +kernel

-- ErrorsAndRegisters: rates, the undervolt, diagnostics, and the units retired.
theorem test_witness_ErrorsRetireUnits :
    let s := fun (x : Domain) (a : Args) => { State.reset with arg := a, clock := 100, sys := { accept := 16, domains := [(a.n, x)] } }
    let closed := fun (n : Nat) => { State.reset.setBogie 0 { closed := true, streak := 3 } with oracle := [n], arg := {} }
    let spares := fun (a : Args) => { State.reset with arg := a }.setDie 0 { spareCh := 1, spareCo := 2 }
    sees .correctedError (s { errors := 9 } {}) (fun t => (t.domain 0).errors == 10 && t.agenda == []) = true ∧
    sees .correctedError (s { errors := 10 } {}) (fun t => comes t .errorRateThreshold) = true ∧
    sees .errorRateThreshold (s { under := true } {}) (fun t => (t.domain 0).revoked && comes t .errorRateThreshold) = true ∧
    sees .errorRateThreshold (s { above := some 7 } { flag := true, va := 7 }) (fun t => comes t .unitRetire) = true ∧
    sees .errorRateThreshold (s {} { flag := true, va := 7 }) (fun t => t.agenda == []) = true ∧
    sees .undervoltStep (s {} {}) (fun t => (t.domain 0).under) = true ∧ sees .undervoltStep (s { revoked := true } {}) (fun t => !(t.domain 0).under) = true ∧
    sees .diagnosticsDone (closed 0) (fun t => !(t.bogie 0).closed) = true ∧ sees .diagnosticsDone (closed 1) (fun t => (t.bogie 0).closed && comes t .unitRetire) = true ∧
    sees .correctedError (s {} { va := 7 }) (fun t => Tab.get t.sys.arrayErrors 0 7 == 1) = true ∧
    sees .unitRetire ({ State.reset with arg := {} }.setCtx 0 { state := 3, coaches := 1 }) (fun t => (t.ctx 0).freezing && comes t .unitRetire) = true ∧
    sees .unitRetire (({ State.reset with arg := {} }.setDie 0 { spareCo := 0 }).setBogie 0 { stack := [reg []] }) (fun t => (t.die 0).coaches == 23 && (t.bogie 0).stack == []) = true ∧
    sees .unitRetire (spares { m := 1 }) (fun t => (t.die 0).spareCh == 0) = true ∧
    sees .unitRetire ((spares { n := 1, h := 2 }).setBogie 16 { closed := true }) (fun t => (t.die 0).spareCo == 1 && !(t.bogie 16).closed) = true := by decide +kernel

-- Writes of registers: refused, and in each of the regions, at the ends of their ranges.
theorem test_witness_RegistersTakeWrites :
    let s := fun (c n m : Nat) (v : Word) => { State.reset with arg := { c := c, n := n, m := m, val := v }, sys := { h0 := { stage := 4 } } }
    let w := fun (c n m : Nat) (v : Word) (p : State → Bool) => sees .registerWrite (s c n m v) p
    let same := fun (c n m : Nat) (v : Word) => w c n m v fun t => t == s c n m v
    (s 0 0 0 0).ready = true ∧ same 0 0x120 3 1 = true ∧ same 0 0x121 8 1 = true ∧ sees .registerWrite { s 0 0x120 8 1 with sys := {} } (fun t => t.sys.accept == 0) = true ∧
    same 192 0x1FF8 8 1 = true ∧ w 192 0x2000 8 1 (fun t => t.errlog.length == 1) = true ∧ w 192 0x3FF8 8 1 (fun t => t.errlog == [{ code := 0, ctx := 192, addr := 1023 }]) = true ∧
    w 0 (0x18000 + 128 * 192 + 8) 8 0x40 (fun t => (t.ctx 192).blockWord 1 == 0) = true ∧ w 0 0x120 8 3 (fun t => t.sys.accept == 3) = true ∧
    w 0 0x138 8 3 (fun t => t.sys.accept == 3 * 2 ^ 192) = true ∧ sees .registerWrite { s 0 0x138 8 3 with sys := { h0 := { stage := 4 }, locked := true } } (fun t => t.sys.accept == 0) = true ∧
    w 0 0x140 8 1 (fun t => t.sys.locked) = true ∧ w 0 0x140 8 0 (fun t => !t.sys.locked) = true ∧ w 0 0x150 8 2000 (fun t => t.sys.powerLimit == 2000) = true ∧
    w 0 (0x10000 + 16 * 1023) 8 (1 + 5 * 2 ^ 15 + 2 ^ 23 + 7 * 2 ^ 24) (fun t => (t.queue 1023).state == 1 && (t.queue 1023).ctx == 5 && (t.queue 1023).host && (t.queue 1023).pasid == 7) = true ∧
    w 0 0x40008 8 0xFFF00000007 (fun t => Tab.get t.peers 0 2 == 7 && Tab.get t.peers 0 3 == 0xFFF) = true := by decide +kernel

-- BranchesAndJumps: JALR on an engine hart, to a word and to a byte between words.
theorem test_witness_JalrOnHart :
    let s := hartOn [(1, 0x200), (2, 0x202)]
    hartRunsB s 0 16 (.jalr 1 1 4) = true ∧ sees (.jalr 1 1 4) s (fun t => (t.hart 0 16).cpu.pc == 0x204 && (t.hart 0 16).cpu.getX 1 == 0x104) = true ∧
    hartRunsB s 0 16 (.jalr 1 2 4) = true ∧ sees (.jalr 1 2 4) s (fun t => (t.hart 0 16).stopped == some 4 && (t.hart 0 16).cpu.getX 1 == 0x200) = true := by decide +kernel

-- R155, R156, R260, R259: the first reserved value of each selecting field, and a mask word with a ty.
theorem test_witness_reserved_fields :
    decode (0x08#6 ++ 3#5 ++ 2#5 ++ 0#16) = none ∧ decode (0x29#6 ++ 1#5 ++ 2#5 ++ 0#16) = none ∧
    decode (0x28#6 ++ 1#5 ++ 2#5 ++ 0#5 ++ 0#3 ++ 9#6 ++ 0#2) = none ∧ decode (0x28#6 ++ 1#5 ++ 2#5 ++ 0#5 ++ 0#3 ++ 4#6 ++ 1#2) = none ∧
    decode (0x28#6 ++ 1#5 ++ 2#5 ++ 0#5 ++ 1#3 ++ 4#6 ++ 0#2) = none := by decide +kernel

/-! ### Further witnesses: the clauses that a test above does not meet -/

-- StepRunsDecodedWord: a fetch from a chained page takes the tail's bytes. RepetitionBegins: a body beyond the extent, and one that no page maps.
theorem test_witness_fetches :
    let l : Leaf := { probeLeaf with cls := 3, place := 2 }
    let s := ((State.reset.withFetchWord 32 0).writeLeaf probeLeaf.key (l.word true)).setConsist 0 2
      { state := 1, dies := [0, 1], units := 64, replicas := [(1, Tab.setList [] 0 0x100000 (bytesOfNat 4 0x08220005))] }
    let f := { probeFrame 1 with cpu := { pc := 0x10FFFC }, hdr := { probeHeader with words := 0x10000 } }
    let far := { (on f).setBogie 0 { (on f).bogie 0 with tlb := [{ page := 0x100000, x := true, rd := true }], unmapped := some 0x11 } with cur := .bogie 0 }
    s.codeHit 0 0 0x100000 = none ∧ s.leaf 0 0x100000 = some l ∧ (s.consist 0 2).notYet (s.consist 0 2).tail 0x100000 = false ∧
    stepSees s (fun t => ((t.bogie 0).stack.head?.map fun f => f.getX 1) == some 5) = true ∧
    stops (State.reset.withFetchWord 32 0 |> fun s => { s with cur := .bogie 0 }) (.rep 0 0 0 1 0) 0x03 0x100004 0 = true ∧
    sees (.rep 0 0 0 1 0) far (fun t => (t.bogie 0).phase == .boundary (.fault { code := 9, addr := 0x110000 }) &&
      ((t.bogie 0).stack.head?.map fun f => f.cpu.pc) == some 0x110000) = true := by decide +kernel

-- AccessesFault: the faults of LD. ReleasesAndClaims: an entry that is not valid, one that lets no release through, and one that does.
-- CopyWords: a packet and a queue address that are misaligned, and a queue in no global memory. HartMemoryWords: a load past the caches.
theorem test_witness_checks :
    let s := fun (a : Word) => lab { reg [(1, a)] with hdr := { probeHeader with scratch := 4 } }
    let far := fun (e : BitVec 32) => { lab (reg [(1, 0xFE00400000000000)]) with peers := [(1, e)] }
    let c := fun (q p : Word) => lab { reg [(1, p), (2, q)] with hdr := { probeHeader with scratch := 1 } }
    let h := hartOn [(1, 0x40)]
    let by' := h.setHart 0 16 { h.hart 0 16 with cpu := { (h.hart 0 16).cpu with pfx := { mod := some 16 } } }
    ([(3, 4), (0x50000, 9), (0x30000, 9), (0xFF00000000000002, 4), (0x0100000000000000, 9)] : List (Word × Nat)).all
      (fun p => stops (s p.1) (.ld 2 1 0 2) p.2 p.1.toNat 0) = true ∧
    stops (s 0xFF00000000000400) (.ld 2 1 0 2) 0x05 0xFF00000000000400 0x400 = true ∧
    stops (far 0) (.releasePeer 1 2 0 0) 0x09 0xFE00400000000000 0 = true ∧ stops (far 1) (.releasePeer 1 2 0 0) 0x12 0xFE00400000000000 0 = true ∧
    sees (.releasePeer 1 2 0 0) (far 9) (fun t => (t.bogie 0).outbox.length == 1) = true ∧
    ([.copy 1 2, .copyc 1 2, .copym 1 2] : List Instr).all (fun i => stops (c 0xFF00000000000000 0) i 9 0xFF00000000000000 0 &&
      stops (c 0x44 0) i 4 0x44 0 && stops (c 0x40 0x20) i 4 0x20 0) = true ∧
    hartRunsB by' 0 16 (.ld 3 1 0 3) = true ∧ hartCheck (mapped by') 0 .load 0x40 8 = .ok () ∧
    sees (.ld 3 1 0 3) (mapped by') (fun t => (t.hart 0 16).await.map (·.bypass) == some true) = true := by decide +kernel

-- SignExtremeAndApproximation: 1, a power of two, and 3, none. MatrixCommands: each command behind one of its frame's that uses its tile or its rows.
-- ScalePassAndQuery: the first misaligned address of a pass.
theorem test_witness_matrix_waits :
    let f := { reg [(1, 0xFF00000000000000)] with hdr := { probeHeader with scratch := 40 } }
    let busy := fun (o : MxOp) => (lab f).setCoach 0 { shadow := [(3, { cmd := { ctx := 0, g := 0, level := 3, uid := f.uid, record := 0x40, op := o } })] }
    let waits := fun (o : MxOp) (i : Instr) => sees i (busy o) fun t => match (t.bogie 0).phase with | .stalled _ => true | _ => false
    (match fp32.unpack 0x3F800000, fp32.unpack 0x40400000 with
      | .fin sg mt _, .fin _ mu _ => !sg && mt == 2 ^ Nat.log2 mt && mt != 0 && mu != 2 ^ Nat.log2 mu | _, _ => false) = true ∧
    waits (.st 0 0xFF00000000000000 0 none 0 0 0 false) (.mxldb 3 1 2 0 1) = true ∧
    ([.mxlda 3 1 2 0, .mma 3 1 2 1 0 0, .mxst 3 1 2 0 0 0 0] : List Instr).all (fun i => waits (.z (f.tile 3) true) i) = true ∧
    passMisaligned (BitVec.ofNat 512 (1 + 2 ^ 128 + 8 * 2 ^ 192)) = some 8 := by decide +kernel

-- TheArrayExecutes: MXST to the own scratchpad, of a clean tile with a barrier and of a poisoned one, and to global memory; a grouped code.
theorem test_witness_matrix_stores :
    let st := fun (dst : Word) => MxOp.st 2 dst (2 ^ 41) (some 5) 0 0 0 false
    let own := coachWith (st 0xFF00000000000000) { tiles := [(2, { data := [(0, 0x3F800000)] })] }
    let bad := coachWith (st 0xFF00000000000000) { tiles := [(2, { poison := true })] }
    let far := mapped (coachWith (st 0x40) {})
    let c : MxCmd := { ctx := 0, g := 0, level := 3, uid := 1, record := 0x40, op := st 0x40 }
    let arrives := fun (s : State) (p : Args → Bool) => sees .arrayCommandExecute s fun t => t.agenda.any fun h => h.ev == .heldWriteArrival && p h.arg
    own.stepping 0 = false ∧ own.readyLevel 0 = some 3 ∧ own.holder 0 3 = some (0, false) ∧
    arrives own (fun a => a.held == [.deliver 0 (.array 0 0) (.frame 1) 0 (bytesOfNat 4 0x3F800000 ++ List.replicate 60 0) (some (5, { bytes := 64 })),
      .deliver 1 (.array 0 0) (.frame 1) 64 (List.replicate 64 0) (some (5, { bytes := 64, arr := 1 }))]) = true ∧
    arrives bad (fun a => a.held == [.deliver 1 (.array 0 0) (.frame 1) 0 [] (some (5, { code := 0x10 }))]) = true ∧
    sees .arrayCommandExecute far (fun t => (t.coach 0).jobs.map (fun j => (j.cmd == c, j.owed.length)) == [(true, 2)] && reaches t .homeStore) = true ∧
    fp16.unpack (recScale 0x3C00) = .fin false 1024 (-10) ∧ recZero 0x53C00 = 5 ∧ mxCode 5 .rne false 0x3C00 0 (.fin false 3 0) = 3 ∧
    mxCode 5 .rne false 0x53C00 0 .nan = 5 ∧ mxCode 6 .rne false 0x3C00 0 (.fin true 3 0) = 0 := by decide +kernel

-- Verdicts: a match whose journalled reads took copied bytes of a peer's scratchpad. WritesAndEventsArrive: a frame on the bogie named and on
-- another; an event whose slot is in use.
theorem test_witness_arrivals :
    let b : Bogie := { stack := [reg [(1, 5)]], phase := .boundary .commit, ckpt := some (reg []), peerReads := [(1, 64, 4)] }
    let s := (bog b {}).setBogie 1 { fresh := [65, 68], stack := [{ reg [] with uid := 5 }] }
    let ev := (lively { State.reset with arg := { info := { code := 7 } }, clock := 9 } 0x100)
    sees .witnessVerdict s (fun t => (t.bogie 1).pfUsed == 1 && (t.bogie 1).fresh == [68] && (t.bogie 0).peerReads == []) = true ∧
    ((s.bogie 0).frameFor (.frame 1) true).isSome = true ∧ s.target (some (.frame 1)) 0 = 0 ∧
    ((s.bogie 0).frameFor (.frame 5) true).isSome = false ∧ s.target (some (.frame 5)) 0 = 1 ∧
    sees .raiseEvent (ev.setCtx 0 { ev.ctx 0 with outstanding := [(0, [0])], seqs := [(0, 16)] }) (fun t => (Tab.get (t.ctx 0).eventq [] 0).length == 1) = true := by
  decide +kernel

-- HomesServeWrites: a store and an atomic of a word that another bogie owns, and one to memory-side bytes. HomesServeReads: the last
-- acknowledgement of an atomic's drops. WalksAndRepairs: a walk whose tables another die holds.
theorem test_witness_owned_words :
    let st : Req := { id := 1, src := .task 0 1, op := .store [(0x40, 9)] false false none }
    let at_ : Req := { id := 1, src := .task 0 1, op := .atomic 0x40 4 (.int 0) 5 0 0 .reg }
    let owned := fun (q : Req) => { home { req := q } with owner := [(0x10, some (.task 5 1))] }
    let side := { (home { req := st }).writeLeaf (memKey 0 0x20000) (Leaf.word { probeLeaf with w := true, cls := 2 } true) with owner := [(0x10, some (.task 5 1))] }
    let drop := (home { req := at_, g := 5, flag := true }).setDie 0 { (home {}).die 0 with dropping := [{ req := at_, owed := [5], old := 7 }] }
    let away := (home { g := 192, va := 0x40 }).setBogie 192 { stack := [reg []], phase := .stalled 0x40 }
    sees .homeStore (owned st) (fun t => t.readByte 0x40 == 9 && reaches t .dropReceived && !comes t .storePerformed) = true ∧
    sees .atomicExecute (owned at_) (fun t => (t.die 0).dropping.map (fun p => (p.owed, p.old)) == [([5], 0)] && Tab.get t.owner none 0x10 == none) = true ∧
    sees .homeStore side (fun t => t.owner == [(0x10, some (.task 5 1))] && comes t .storePerformed) = true ∧
    sees .dropReceived drop (fun t => (t.die 0).dropping == [] && t.agenda.any fun h => h.ev == .storePerformed && h.arg.val == 7) = true ∧
    away.walkWay 1 0 0x40 ≠ 0 ∧ sees .tlbMiss away (fun t => (t.die 1).walks == [(192, 0x40)] && reaches t .walkComplete && !comes t .walkComplete) = true ∧
    sees .walkComplete { away with arg := { away.arg with n := 2 } } (fun t => reaches t .walkComplete) = true := by decide +kernel

-- LinksRetrain: lanes that leave no half, and a quarter, without a bare one; a rate declined; a step-down joined. ThePod: a peer's load of a
-- chained page. R378: the check value of CRC-32C.
theorem test_witness_widths :
    let k : Link := { lanes := BitVec.ofNat 64 (15 * 2 ^ 60), repairs := [(0, 60), (1, 61), (2, 62), (3, 63)] }
    let down : Link := { state := 2, lanes := BitVec.ofNat 64 (2 ^ 5 + 2 ^ 20 + 2 ^ 40), repRetired := 15 }
    let q : Req := { op := .load 0x40 8 true }
    let far : State := { (home { m := 1, req := q }).writeLeaf (memKey 0 0x20000) (Leaf.word { probeLeaf with cls := 3, place := 2 } true) with peers := [(1, 3)] }
    let pod := far.setConsist 0 2 { state := 1, dies := [0, 1], units := 64 }
    crc32c (bytesOfNat 9 0x393837363534333231) = 0xE3069283 ∧
    sees .laneRetire (wired k { m := 5 }) (fun t => (t.link 0).width == 1 && (t.link 0).base == 2 && (t.link 0).state == 1) = true ∧
    (down.settleLanes.width = 2 ∧ down.settleLanes.base = 3) ∧
    sees .lctlRetrain { wired { state := 2, req := 4 } {} with sys := { locked := true } } (fun t => (t.link 0).rate == 2 && (t.link 0).state == 1) = true ∧
    sees .lctlRate (wired { state := 1, rate := 1, begun := some (1000000, 2), why := some (0xFF, 2) } { val := 0 }) (fun t => (t.link 0).rate == 0) = true ∧
    pod.peerRefusal { module := 1, die := 0, seq := 0, ctx := 0, req := q } = 0 ∧ peerId { module := 1, die := 0, seq := 0, ctx := 0, req := q } = 1 ∧
    sees .peerIngress pod (fun t => t.peerOut == [] && reaches t .loadFill && !comes t .loadFill) = true := by decide +kernel

-- ReleasesAndGroups: firmware's stores, one by one. CopyPacketsAndHarts: a ring whose page is under change; a packet out of bounds; a packet and a
-- command that wait for what they issued.
theorem test_witness_stores_in_order :
    let w := fun (l : List (Nat × List Byte)) => { dispatch { req := { id := 9, src := .firmware, op := .fence } } with
      fwork := [{ id := 9, ctx := 0, stores := l, after := [{ ev := .nop, arg := {} }] }] }
    let p := ((copying 0 { req := { id := 1, src := .task 0 1, op := .copy 0x5000 1 } }).writeBytes (memKey 0 0x20000) (bytesOfNat 8 0x30001)).writeLeaf
      (memKey 0 0x30000) ({ probeLeaf with size := 1, w := true }.word true)
    let q := (p.writeLeaf (memKey 0 0x30008) ({ probeLeaf with size := 1, w := true, frame := 64 }.word true)).writeBytes 0x5000 (bytesOfNat 8 0x206000)
    let held := { q with pageOps := [{ kind := 1, ctx := 0, page := 0x200000, size := 1, home := 0 }] }
    let run : CopyRun := { ctx := 0, desc := 0x5000, slot := 0, pkt := line, coach := 0, ch := 0 }
    let tight : Frame := { reg [] with bogies := [0], hdr := { probeHeader with scratch := 1, barriers := 1 } }
    let far : CopyRun := { run with pkt := line ||| BitVec.ofNat 512 (2 ^ 8 + (handleOf 0 tight 0).toNat * 2 ^ 256), buf := List.replicate 64 9 }
    let at_ := fun (r : CopyRun) => (copying 1 {}).setHart 0 0 { run := some r, state := 1, transit := [{ id := 3, uid := 0, ctx := 0, op := .fence }] }
    let there := (at_ far).setBogie 0 { stack := [tight] }
    let busy := { State.reset with arg := { h := 16, flag := true } }.setHart 0 16 { work := [(3, 0x40)], state := 1, transit := [{ id := 3, uid := 0, ctx := 3, op := .fence }] }
    sees .storePerformed (w []) (fun t => t.fwork == [] && t.agenda.map (·.ev) == [.nop]) = true ∧
    sees .storePerformed (w [(0x40, [7])]) (fun t => t.fwork.map (fun x => (x.id, x.stores.length)) == [((w []).uid, 0)] && reaches t .homeStore) = true ∧
    held.restricting 0 0x206000 = true ∧ held.readWaits 0 0x5000 = none ∧
    sees .copyAppend held (fun t => comes t .copyAppend && t.mem == held.mem) = true ∧ sees .copyAppend q (fun t => t.readByte 0x500C == 1) = true ∧
    there.packetBound far = true ∧ sees .copyPacketExecute there (fun t => ((t.hart 0 0).run.map fun r => r.status) == some 0x21) = true ∧
    ([3, 4, 5] : List Nat).all (fun n => sees .copyPacketExecute (at_ { run with stage := n }) (· == at_ { run with stage := n })) = true ∧
    sees .engineQuantum busy (fun t => t.agenda == [{ ev := .engineQuantum, arg := { h := 16, flag := true }, due := 1 }]) = true := by decide +kernel

-- ContextsFreezeAndThaw: a THAW of a context whose coach is lost. QueuesAreMapped: a packet of firmware's stores that counts. SnapshotsDrain: the
-- units that a hart takes first. PagesChange: a change that a cut overtakes.
theorem test_witness_waits_of_changes :
    let lost := context { state := 5, coaches := 1, lost := true } {}
    let o : PageOp := { kind := 1, ctx := 0, page := 0, size := 1, home := 0, done := 0x5000, owed := [5] }
    let cut := fun (l : List Nat) => ({ small 0 with pageOps := [o], arg := { g := 5, n := 1, flag := true } }).setCtx 0
      { (small 0).ctx 0 with snap := { state := 2, advanced := l } }
    let us : List SnapUnit := [{ va := 0 }, { va := 0x10000, state := 1 }, { va := 0x20000, asked := some 5 }, { va := 0x30000, asked := some 4 }]
    let sn := fun (l : List SnapUnit) => ((small 0).setCtx 0 { (small 0).ctx 0 with snap := { state := 2, units := l } }).nextUnit 0 0 20
    sees .thaw lost (fun t => t == lost.setCtx 0 { lost.ctx 0 with status := 3 }) = true ∧
    sees .invalidateAck (cut [0]) (fun t => t.pageOps == [{ o with owed := [] }] && comes t .invalidateAck && t.mem == (small 0).mem) = true ∧
    sees .invalidateAck (cut [0, 1, 2, 3, 4, 5, 6, 7]) (fun t => t.pageOps == []) = true ∧
    (sn us).map (·.va) = some 0x30000 ∧ (sn (us.take 2)).map (·.va) = some 0x10000 ∧ (sn (us.take 1)).map (·.va) = some 0 ∧
    (sn ({ va := 0x50000, number := some 0, hart := 20 } :: us)).map (·.va) = some 0x50000 := by decide +kernel

-- Consists: a numbered store parks at a tail whose pool is empty, and is applied once it has a frame; a version past the last that 64 bits
-- count; the last member leaves; a COUPLE abandoned by a consist that was Degraded.
theorem test_witness_consists_wait :
    let c : Consist := { state := 1, dies := [2, 3], units := 1 }
    let q : Req := { id := 1, src := .task (192 * 3) 1, op := .store [(0x40, 7)] false false none }
    let s := fun (c : Consist) (a : Args) => (consists c { a with n := 5, req := q }).writeLeaf (memKey 0 0x20000) ({ probeLeaf with w := true, cls := 3, place := 5 }.word true)
    let cut := fun (pool : List Nat) => ((s c { d := 3, h := 2, flag := true, va := 1 }).setCtx 0
      { (s c {}).ctx 0 with snap := { state := 2, advanced := [3], units := [{ va := 0, cls := 3 }] } }).setDie 3 { reserve := pool }
    let ask : Req := { id := 1, src := .task 0 1, op := .couple 5 4 }
    let last : Consist := { c with version := 2 ^ 64 - 1, applied := [(2, 2 ^ 64 - 1), (3, 2 ^ 64 - 1)] }
    (cut []).chainGuard 3 0 0x40 { probeLeaf with cls := 3, place := 5 } = none ∧
    sees .chainApply (cut []) (fun t => (t.die 3).parked == [chainMark 0 0x40] && comes t .chainApply && (t.consist 0 5) == c) = true ∧
    sees .chainApply (cut [0x3000]) (fun t => (t.die 3).parked == [] && (t.ctx 0).snap.units.map (fun u => (u.state, u.copies)) == [(1, [(3, 0x3000)])] &&
      Tab.get (t.consist 0 5).replicas [] 3 == [(0x40, 7)]) = true ∧
    sees .chainApply (s last { d := 2 }) (fun t => (t.consist 0 5).version == 0 && (t.consist 0 5).unacked == [(0, q, 0)]) = true ∧
    sees .chainApply (s last { d := 3, h := 2, flag := true, va := 0 }) (fun t => Tab.get (t.consist 0 5).applied 9 3 == 0) = true ∧
    sees .uncoupleDone (consists { c with state := 2, dies := [3], leaving := 3, asker := some ask } { n := 5 }) (fun t => (t.consist 0 5).dead && (t.consist 0 5).dies == []) = true ∧
    sees .coupleStreamDone (consists { c with state := 2, joining := 3, failed := true, asker := some ask } { n := 5 }) (fun t => (t.consist 0 5).state == 3) = true ∧
    sees .memberFail (consists { c with state := 2, joining := 4, back := 3, asker := some ask } { n := 5, d := 4 }) (fun t => (t.consist 0 5).state == 3) = true := by decide +kernel

-- TheModuleBoots: every response to an attestation request; a link request taken back; firmware's packets executed afresh. ErrorsAndRegisters: a
-- rate that has fallen; no undervolt without its feature; a channel retired with nothing beyond it and with a page beyond it; a context that loses
-- its coach; writes that cover no WO field.
theorem test_witness_module_edges :
    let up : Sys := { h0 := { stage := 4 }, h1 := { stage := 4 } }
    let at_ := fun (y : Sys) (a : Args) => { State.reset with sys := y, arg := a, clock := 100 }
    let spdm : Nat → List SpdmResponse := fun n => match exec .spdmRequest (at_ up { n := n }) with | .next t => t.sys.responses | _ => []
    let dom := fun (x : Domain) (a : Args) => { at_ { accept := 16, domains := [(0, x)] } a with clock := 1700000100 }
    let few := { at_ up { m := 1 } with dies := [(0, { spareCh := 0 })] }
    let leaf : Leaf := { probeLeaf with size := 0, w := true, frame := 160 * 16384 - 1 }
    let big := (((mapped few).writeBytes (memKey 0 0x20000) (bytesOfNat 8 0x30001)).writeBytes (memKey 0 0x30000) (bytesOfNat 8 0x31001)).writeLeaf (memKey 0 0x31000) (leaf.word true)
    let frozen := (at_ up {}).setDie 0 { spareCo := 0 }
    let narrow := fun (n m : Nat) => at_ { up with accept := 8 } { n := n, m := m, val := 1 }
    (List.range 7).all (fun n => spdm n != [.error] && (spdm n).length == 1) = true ∧ spdm 0 ≠ [] ∧ spdm 7 = [.error] ∧ (spdm 2 ≠ spdm 3 ∧ spdm 4 ≠ spdm 5) ∧
    sees .featCommit ((at_ up {}).setLink 3 { rate := 1, req := 4 }) (fun t => (t.link 3).req == 2 && (t.link 3).state == 0) = true ∧
    sees .bootStage (at_ {} { m := 2 }) (fun t => t.sys.h0.stage == 1) = true ∧
    sees .complexFailover { at_ up {} with queues := [(3, { waitFrom := some 7, begun := some 1 })] } (fun t => (t.queue 3).waitFrom.isNone && (t.queue 3).begun == some 1) = true ∧
    sees .errorRateThreshold (dom { above := some 7, errors := 3, since := 0 } { flag := true, va := 7 }) (fun t => t == dom { above := some 7, errors := 3, since := 0 } { flag := true, va := 7 }) = true ∧
    sees .errorRateThreshold (dom { above := some 7, errors := 11, since := 0 } { flag := true, va := 7 }) (fun t => comes t .unitRetire) = true ∧
    sees .undervoltStep (at_ up {}) (· == at_ up {}) = true ∧
    sees .unitRetire few (fun t => (t.die 0).channels == 63) = true ∧
    (big.leavesBeyond 0 (63 * (160 * 2 ^ 30 / 64))).length = 1 ∧
    sees .unitRetire big (fun t => (t.die 0).channels == 63 && t.leavesBeyond 0 (63 * (160 * 2 ^ 30 / 64)) == [] && (t.leaf 0 0x40).isSome) = true ∧
    sees .unitRetire (frozen.setCtx 5 { state := 5, coaches := 2 ^ 23 }) (fun t => (t.ctx 5).lost && (t.die 0).coaches == 23) = true ∧
    ([(0x14B, 1), (0x14C, 4)] : List (Nat × Nat)).all (fun e => sees .registerWrite (narrow e.1 e.2) (· == narrow e.1 e.2)) = true ∧
    sees .registerWrite (narrow 0x148 8) (fun t => t.sys.scaleResult == 3) = true ∧
    sees .registerWrite { narrow 0x120 8 with sys := { up with accept := 16, domains := [(4, { under := true })] } } (fun t => !(t.domain 4).under) = true := by decide +kernel

end Sys2Proof.Tests
end

section

/-! # Proofs of the machine's statements: a word's frame

The architect's laws of the words (`word_on_bogie`) give a word on a bogie as one change of that bogie; a step's isolation fails at the reset
value of a die that no table lists. -/

namespace Sys2Proof.Machine

/-- Settles O7: a task's word ends as one change of its bogie's record and one list added to what is under way. -/
theorem wordsActOnTheirBogie : Obligations.WordsActOnTheirBogie := by
  unfold Obligations.WordsActOnTheirBogie
  intro i w s g h hc hne
  obtain ⟨body, e⟩ := word_on_bogie h hc (List.head?_eq_some_head hne)
  exact ⟨_, _, e⟩

/-- The reset state on the turn of bogie 0, which runs no frame. -/
def idleTurn : State := { State.reset with turn := .agent (.bogie 0) }

/-- A turn of a bogie that runs no frame passes. -/
theorem step_idleTurn : step idleTurn = .next { idleTurn with turn := .free, cur := .bogie 0 } := rfl

/-- Refutes O13: the statement reads a die that the table does not list as the record `{}`, whose round-robin pointer (R129) is 0, while in the
model (`State.die`) the pointer of an unlisted die d is 192 d, its first bogie. On a turn of an idle bogie 0 in the reset state (`idleTurn`) the
step goes on and lists no die, so that the statement's clause for die 1 asks for 0 = 192. -/
theorem not_agentStepIsolation : ¬ Obligations.AgentStepIsolation := by
  unfold Obligations.AgentStepIsolation
  intro h
  obtain ⟨⟨b, k, x, a, l, o, n, ht, -, -, hdie, -⟩, -⟩ := h idleTurn _ 0 rfl step_idleTurn
  have unlisted : x = [] := (congrArg State.dies ht).symm
  obtain ⟨r, m, -, e⟩ := hdie 1
  have pointers : (0 : Nat) = 192 := by simpa [unlisted, Tab.get, State.die, idleTurn, State.reset] using congrArg Die.pointer e
  exact absurd pointers (by decide)

end Sys2Proof.Machine
end

section

/-! # What leaves memory as it was

`State.SameMemory t s`: memory and the hosts' memory of t are those of s. One rule for each function of the model that gives a state and writes
neither, in the order of the model's files; almost all of the machine is of this kind. -/

namespace Sys2Proof.Machine

/-- Both memories of t are those of s. -/
@[simp] abbrev State.SameMemory (t s : State) : Prop := t.mem = s.mem ∧ t.hostMem = s.hostMem

theorem State.SameMemory.trans {r s t : State} (h : r.SameMemory s) (g : s.SameMemory t) : r.SameMemory t := ⟨h.1.trans g.1, h.2.trans g.2⟩

/-- The state of a pair that a `let` takes apart. -/
theorem State.SameMemory.of_snd {α : Type} {p : α × State} {a : α} {t s : State} (h : p.2.SameMemory s) (e : p = (a, t)) : t.SameMemory s := by
  subst e; exact h

@[simp] theorem State.mem_ite (c : Prop) [Decidable c] (s t : State) : (if c then s else t).mem = if c then s.mem else t.mem := apply_ite ..

@[simp] theorem State.hostMem_ite (c : Prop) [Decidable c] (s t : State) : (if c then s else t).hostMem = if c then s.hostMem else t.hostMem :=
  apply_ite ..

@[simp] theorem State.sameMemory_foldl {α : Type} (f : State → α → State) (h : ∀ s a, (f s a).SameMemory s) (l : List α) (s : State) :
    (l.foldl f s).SameMemory s :=
  List.foldlRecOn (motive := fun t => t.SameMemory s) l f ⟨rfl, rfl⟩ fun t ht a _ => State.SameMemory.trans (h t a) ht

@[simp] theorem State.sameMemory_foldl_fst {α β : Type} (f : State × β → α → State × β) (h : ∀ x a, (f x a).1.SameMemory x.1) (l : List α)
    (x : State × β) : (l.foldl f x).1.SameMemory x.1 :=
  List.foldlRecOn (motive := fun y => y.1.SameMemory x.1) l f ⟨rfl, rfl⟩ fun y hy a _ => State.SameMemory.trans (h y a) hy

@[simp] theorem State.sameMemory_foldl_snd {α β : Type} (f : β × State → α → β × State) (h : ∀ x a, (f x a).2.SameMemory x.2) (l : List α)
    (x : β × State) : (l.foldl f x).2.SameMemory x.2 :=
  List.foldlRecOn (motive := fun y => y.2.SameMemory x.2) l f ⟨rfl, rfl⟩ fun y hy a _ => State.SameMemory.trans (h y a) hy

@[simp] theorem State.sameMemory_foldr {α : Type} (f : α → State → State) (h : ∀ s a, (f a s).SameMemory s) (l : List α) (s : State) :
    (l.foldr f s).SameMemory s := by
  induction l with
  | nil => exact ⟨rfl, rfl⟩
  | cons a r ih => exact State.SameMemory.trans (h _ a) ih

/-- Stated for any number, so that no proof compares the free choices of two states. -/
theorem State.sameMemory_with_freeCtr (s : State) (n : Nat) : State.SameMemory { s with freeCtr := n } s := ⟨rfl, rfl⟩

/-! #### Machine/Ops -/

@[simp] theorem State.sameMemory_draw (s : State) : s.draw.2.SameMemory s := by simp only [State.draw]; split <;> simp
@[simp] theorem State.sameMemory_choose (s : State) (n : Nat) : (s.choose n).2.SameMemory s := by simp only [State.choose]; split <;> simp
@[simp] theorem State.sameMemory_setBogie (s : State) (g : Nat) (b : Bogie) : (s.setBogie g b).SameMemory s := ⟨rfl, rfl⟩
@[simp] theorem State.sameMemory_setCoach (s : State) (c : Nat) (x : Coach) : (s.setCoach c x).SameMemory s := ⟨rfl, rfl⟩
@[simp] theorem State.sameMemory_setDie (s : State) (d : Nat) (x : Die) : (s.setDie d x).SameMemory s := ⟨rfl, rfl⟩
@[simp] theorem State.sameMemory_setHart (s : State) (d h : Nat) (x : Hart) : (s.setHart d h x).SameMemory s := ⟨rfl, rfl⟩
@[simp] theorem State.sameMemory_setCtx (s : State) (c : Nat) (x : Ctx) : (s.setCtx c x).SameMemory s := ⟨rfl, rfl⟩
@[simp] theorem State.sameMemory_add (s : State) (l : List Happening) : (s.add l).SameMemory s := ⟨rfl, rfl⟩
@[simp] theorem State.sameMemory_afterWord (s : State) (g : Nat) (r : BRes) : (s.afterWord g r).SameMemory s := ⟨rfl, rfl⟩

/-! #### Machine/Net -/

@[simp] theorem State.sameMemory_setLink (s : State) (l : Nat) (k : Link) : (s.setLink l k).SameMemory s := ⟨rfl, rfl⟩
@[simp] theorem State.sameMemory_setIng (s : State) (d : Nat) (x : Ingress) : (s.setIng d x).SameMemory s := ⟨rfl, rfl⟩
@[simp] theorem State.sameMemory_forward (s : State) (at' : Nat) (m : Msg) : (s.forward at' m).SameMemory s := by
  simp only [State.forward]
  split <;> simp

@[simp] theorem State.sameMemory_unstick (s : State) (d : Nat) : (s.unstick d).SameMemory s := by simp [State.unstick]
@[simp] theorem State.sameMemory_post (s : State) (src ep dst ctx spread slots : Nat) (ev : Instr) (arg : Args) :
    (s.post src ep dst ctx spread slots ev arg).SameMemory s := by
  simp [State.post]

@[simp] theorem State.sameMemory_transmit (s : State) (l : Nat) (r : Bool) (seq : BitVec 12) (data : Option (List Msg)) (bad : Bool) :
    (s.transmit l r seq data bad).SameMemory s :=
  ⟨rfl, rfl⟩

@[simp] theorem State.sameMemory_wantSend (s : State) (l : Nat) (r : Bool) : (s.wantSend l r).SameMemory s := ⟨rfl, rfl⟩
@[simp] theorem State.sameMemory_feed (s : State) (d : Nat) : (s.feed d).SameMemory s := by simp [State.feed]
@[simp] theorem sameMemory_flitSend (l : Nat) (r : Bool) (s : State) : (flitSend l r s).SameMemory s := by
  simp only [flitSend]
  (repeat' split) <;> simp

@[simp] theorem State.sameMemory_goBack (s : State) (l : Nat) (r : Bool) : (s.goBack l r).SameMemory s := by simp [State.goBack]
@[simp] theorem State.sameMemory_oweNak (s : State) (l : Nat) (r : Bool) : (s.oweNak l r).SameMemory s := by simp [State.oweNak]
@[simp] theorem State.sameMemory_arrive (s : State) (d : Nat) (l : List Msg) : (s.arrive d l).SameMemory s := by
  induction l generalizing s with
  | nil => exact ⟨rfl, rfl⟩
  | cons m r ih => simp [State.arrive, ih]

@[simp] theorem sameMemory_flitReceive (l : Nat) (r : Bool) (noise : Nat) (s : State) : (flitReceive l r noise s).SameMemory s := by
  simp only [flitReceive]
  (repeat' split) <;> simp

@[simp] theorem sameMemory_ackControlFlit (l : Nat) (r : Bool) (s : State) : (ackControlFlit l r s).SameMemory s := by simp [ackControlFlit]
@[simp] theorem sameMemory_replayTimeout (l : Nat) (r : Bool) (seq : Nat) (s : State) : (replayTimeout l r seq s).SameMemory s := by
  simp only [replayTimeout]
  split <;> simp

@[simp] theorem sameMemory_nakPendingExpiry (l : Nat) (r : Bool) (s : State) : (nakPendingExpiry l r s).SameMemory s := by
  simp only [nakPendingExpiry]
  split <;> simp

@[simp] theorem State.sameMemory_linkEvent (s : State) (l code lane reason : Nat) : (s.linkEvent l code lane reason).SameMemory s := ⟨rfl, rfl⟩
@[simp] theorem State.sameMemory_retrain (s : State) (l : Nat) (why : Option (Nat × Nat)) : (s.retrain l why).SameMemory s := ⟨rfl, rfl⟩
@[simp] theorem sameMemory_lctlRate (l : Nat) (rate : BitVec 3) (overdrive : Bool) (s : State) : (lctlRate l rate overdrive s).SameMemory s := by
  simp only [lctlRate]
  (repeat' split) <;> simp

@[simp] theorem sameMemory_lctlClr (l : Nat) (s : State) : (lctlClr l s).SameMemory s := ⟨rfl, rfl⟩
@[simp] theorem sameMemory_lctlPin (l : Nat) (on : Bool) (s : State) : (lctlPin l on s).SameMemory s := by simp [lctlPin]
@[simp] theorem State.sameMemory_linkDown (s : State) (l lane : Nat) : (s.linkDown l lane).SameMemory s := by simp [State.linkDown]
@[simp] theorem State.sameMemory_loseLane (s : State) (l lane : Nat) : (s.loseLane l lane).SameMemory s := by simp [State.loseLane]
@[simp] theorem State.sameMemory_logLane (s : State) (l lane : Nat) : (s.logLane l lane).SameMemory s := by simp [State.logLane]
@[simp] theorem sameMemory_laneRetire (l lane : Nat) (s : State) : (laneRetire l lane s).SameMemory s := by
  simp only [laneRetire]
  (repeat' split) <;> simp

@[simp] theorem sameMemory_linjLaneArm (l lane : Nat) (s : State) : (linjLaneArm l lane s).SameMemory s := by simp [linjLaneArm]
@[simp] theorem sameMemory_linjCrcArm (l : Nat) (s : State) : (linjCrcArm l s).SameMemory s := ⟨rfl, rfl⟩
@[simp] theorem sameMemory_lctlRetrain (l : Nat) (s : State) : (lctlRetrain l s).SameMemory s := by simp [lctlRetrain]
@[simp] theorem State.sameMemory_receiveHeld (s : State) (l : Nat) : (s.receiveHeld l).SameMemory s := ⟨rfl, rfl⟩
@[simp] theorem sameMemory_retrainDone (l : Nat) (ok : Bool) (s : State) : (retrainDone l ok s).SameMemory s := by
  simp only [retrainDone]
  (repeat' split) <;> simp

@[simp] theorem sameMemory_replayWindow (l : Nat) (s : State) : (replayWindow l s).SameMemory s := by
  simp only [replayWindow]
  (repeat' split) <;> simp

@[simp] theorem sameMemory_flitReplayLimit (l : Nat) (r : Bool) (s : State) : (flitReplayLimit l r s).SameMemory s := by simp [flitReplayLimit]
@[simp] theorem State.sameMemory_deliver (s : State) (d : Nat) (m : Msg) (own : Bool) : (s.deliver d m own).SameMemory s := ⟨rfl, rfl⟩
@[simp] theorem State.sameMemory_drainHeld (s : State) (d key fuel : Nat) : (s.drainHeld d key fuel).SameMemory s := by
  induction fuel generalizing s with
  | zero => exact ⟨rfl, rfl⟩
  | succ n ih => simp only [State.drainHeld]; split <;> simp [ih]

@[simp] theorem sameMemory_handOver (d key stamp : Nat) (s : State) : (handOver d key stamp s).SameMemory s := by simp only [handOver]; split <;> simp
@[simp] theorem sameMemory_takeMessage (d : Nat) (s : State) : (takeMessage d s).SameMemory s := by simp only [takeMessage]; split <;> simp
@[simp] theorem sameMemory_messageIngress (a : Args) (s : State) : (messageIngress a s).SameMemory s := by simp [messageIngress]
@[simp] theorem sameMemory_bounceResend (d : Nat) (s : State) : (bounceResend d s).SameMemory s := by simp only [bounceResend]; split <;> simp

/-! #### Machine/Exec -/

@[simp] theorem State.sameMemory_hartFault (s : State) (d h code : Nat) (va : Nat) : (s.hartFault d h code va).SameMemory s := ⟨rfl, rfl⟩

/-! #### Machine/Page -/

@[simp] theorem State.sameMemory_noteWalk (s : State) (ctx va : Nat) : (s.noteWalk ctx va).SameMemory s := by
  simp only [State.noteWalk]
  split <;> simp

@[simp] theorem State.sameMemory_fillTlb (s : State) (g : Nat) (e : TlbEntry) : (s.fillTlb g e).SameMemory s := by simp [State.fillTlb]
@[simp] theorem State.sameMemory_fillTrans (s : State) (d ctx va : Nat) (l : Leaf) : (s.fillTrans d ctx va l).SameMemory s := by
  simp [State.fillTrans]

@[simp] theorem State.sameMemory_walkOn (s : State) (g va d n : Nat) : (s.walkOn g va d n).SameMemory s := by simp [State.walkOn]
@[simp] theorem State.sameMemory_beginWalk (s : State) (g va : Nat) : (s.beginWalk g va).SameMemory s := by simp [State.beginWalk]
@[simp] theorem sameMemory_tlbMiss (g va : Nat) (s : State) : (tlbMiss g va s).SameMemory s := by simp [tlbMiss]
@[simp] theorem sameMemory_walkDone (g va : Nat) (s : State) : (walkDone g va s).SameMemory s := by simp only [walkDone]; split <;> simp
@[simp] theorem sameMemory_walkComplete (g va : Nat) (flag : Bool) (s : State) : (walkComplete g va flag s).SameMemory s := by
  simp only [walkComplete]
  (repeat' split) <;> simp

/-! #### Machine/Home -/

@[simp] theorem State.sameMemory_newId (s : State) : s.newId.2.SameMemory s := ⟨rfl, rfl⟩
@[simp] theorem State.sameMemory_answer (s : State) (d : Nat) (q : Req) (val : Word) (code : Nat) : (s.answer d q val code).SameMemory s := by
  simp [State.answer]

@[simp] theorem State.sameMemory_answerData (s : State) (d : Nat) (q : Req) (l : List Byte) : (s.answerData d q l).SameMemory s := by
  simp [State.answerData]

@[simp] theorem State.sameMemory_noteParked (s : State) (ctx : Nat) (o : Op) : (s.noteParked ctx o).SameMemory s := by simp [State.noteParked]
@[simp] theorem State.sameMemory_park (s : State) (d : Nat) (q : Req) : (s.park d q).SameMemory s := by simp [State.park]
@[simp] theorem State.sameMemory_wipeLine (s : State) (q : Src) (k : Nat) (mask : BitVec 64) : (s.wipeLine q k mask).SameMemory s := by
  simp [State.wipeLine]

@[simp] theorem State.sameMemory_poisonBytes (s : State) (l : Leaf) (bytes : Tab Byte) : (s.poisonBytes l bytes).SameMemory s := ⟨rfl, rfl⟩
@[simp] theorem State.sameMemory_takeWords (s : State) (me : Option Src) (keys : List Nat) : (s.takeWords me keys).1.SameMemory s := by
  refine State.sameMemory_foldl_fst _ (fun _ _ => ?_) _ _
  exact ⟨rfl, rfl⟩

@[simp] theorem State.sameMemory_sendDrops (s : State) (d : Nat) (q : Req) (l : List Nat) : (s.sendDrops d q l).SameMemory s := by
  simp [State.sendDrops]

@[simp] theorem State.sameMemory_invalidateLines (s : State) (ctx va n : Nat) : (s.invalidateLines ctx va n).SameMemory s := ⟨rfl, rfl⟩
@[simp] theorem State.sameMemory_dropCode (s : State) (ctx va n : Nat) : (s.dropCode ctx va n).SameMemory s := ⟨rfl, rfl⟩
@[simp] theorem State.sameMemory_aliases (s : State) (d ctx va : Nat) (l : Leaf) (write : Bool) : (s.aliases d ctx va l write).SameMemory s := by
  simp only [State.aliases]
  (repeat' split) <;> simp

@[simp] theorem State.sameMemory_setSnap (s : State) (c : Nat) (x : Snap) : (s.setSnap c x).SameMemory s := ⟨rfl, rfl⟩
@[simp] theorem State.sameMemory_putUnit (s : State) (ctx : Nat) (u : SnapUnit) : (s.putUnit ctx u).SameMemory s := ⟨rfl, rfl⟩
theorem State.sameMemory_of_startBreak {s : State} {d ctx va : Nat} {l : Leaf} {s' : State} (h : s.startBreak d ctx va l = some s') :
    s'.SameMemory s := by
  simp only [State.startBreak] at h
  split at h
  · cases h
  · cases h; simp

@[simp] theorem State.sameMemory_lost (s : State) (d : Nat) (q : Req) : (s.lost d q).SameMemory s := by simp [State.lost]
@[simp] theorem State.sameMemory_setConsist (s : State) (ctx k : Nat) (x : Consist) : (s.setConsist ctx k x).SameMemory s := ⟨rfl, rfl⟩
@[simp] theorem State.sameMemory_toHead (s : State) (d ep : Nat) (q : Req) (l : Leaf) : (s.toHead d ep q l).SameMemory s := by
  simp only [State.toHead]
  split <;> simp

@[simp] theorem State.sameMemory_deviceStore (s : State) (d ep : Nat) (q : Req) (l : Leaf) (bytes : Tab Byte) :
    (s.deviceStore d ep q l bytes).SameMemory s := by
  simp only [State.deviceStore]
  split <;> simp

@[simp] theorem State.sameMemory_amoaDeliver (s : State) (d ep : Nat) (q : Req) (uid off k n old code : Nat) :
    (s.amoaDeliver d ep q uid off k n old code).SameMemory s := by
  simp only [State.amoaDeliver]
  split <;> simp

@[simp] theorem State.sameMemory_atomicDone (s : State) (d : Nat) (q : Req) (old code : Nat) : (s.atomicDone d q old code).SameMemory s := by
  simp only [State.atomicDone]
  (repeat' split) <;> simp

@[simp] theorem State.sameMemory_performed (s : State) (d : Nat) (q : Req) (old : Nat) : (s.performed d q old).SameMemory s := by
  simp only [State.performed]
  split <;> simp

@[simp] theorem State.sameMemory_passWords (s : State) (d : Nat) (q : Req) (me : Option Src) (keys : List Nat) (old : Nat) :
    (s.passWords d q me keys old).SameMemory s := by
  simp only [State.passWords]
  split <;> simp

@[simp] theorem State.sameMemory_ownWords (s : State) (d : Nat) (q : Req) (keys : List Nat) : (s.ownWords d q keys).SameMemory s := by
  simp [State.ownWords]

@[simp] theorem State.sameMemory_dropAcked (s : State) (g d : Nat) (q : Req) : (s.dropAcked g d q).SameMemory s := by
  simp only [State.dropAcked]
  split <;> simp

@[simp] theorem sameMemory_dropReceived (a : Args) (s : State) : (dropReceived a s).SameMemory s := by simp [dropReceived]
@[simp] theorem State.sameMemory_makeRoom (s : State) (g ctx line : Nat) : (s.makeRoom g ctx line).SameMemory s := by
  simp only [State.makeRoom]
  (repeat' split) <;> simp

@[simp] theorem State.sameMemory_fillSector (s : State) (f : Fetch) (va : Nat) (line : Vec) (poison pref : Bool) :
    (s.fillSector f va line poison pref).SameMemory s := by
  simp [State.fillSector]

@[simp] theorem State.sameMemory_fillCore (s : State) (f : Fetch) (line : Vec) (poison : Bool) : (s.fillCore f line poison).SameMemory s := by
  simp only [State.fillCore]
  split <;> simp

@[simp] theorem State.sameMemory_dataArrive (s : State) (f : Fetch) (d : Nat) : (s.dataArrive f d).SameMemory s := by
  simp only [State.dataArrive]
  split <;> simp

@[simp] theorem State.sameMemory_sendLine (s : State) (f : Fetch) (d : Nat) : (s.sendLine f d).SameMemory s := by simp [State.sendLine]
@[simp] theorem State.sameMemory_serveLine (s : State) (f : Fetch) (d : Nat) : (s.serveLine f d).SameMemory s := by
  simp only [State.serveLine]
  split <;> simp

@[simp] theorem sameMemory_tailQuery (a : Args) (s : State) : (tailQuery a s).SameMemory s := by simp only [tailQuery]; split <;> simp
@[simp] theorem State.sameMemory_fetchLine (s : State) (f : Fetch) : (s.fetchLine f).SameMemory s := by
  simp only [State.fetchLine]
  (repeat' split) <;> simp

@[simp] theorem State.sameMemory_refill (s : State) (d : Nat) (q : Req) (va : Nat) (l : Leaf) (sync : Bool) :
    (s.refill d q va l sync).SameMemory s := by
  simp [State.refill]

@[simp] theorem State.sameMemory_serveLoad (s : State) (d : Nat) (q : Req) (va n : Nat) (sync : Bool) : (s.serveLoad d q va n sync).SameMemory s := by
  simp only [State.serveLoad]
  (repeat' split) <;> simp

@[simp] theorem State.sameMemory_sendRemote (s : State) (d va : Nat) (q : Req) : (s.sendRemote d va q).SameMemory s := ⟨rfl, rfl⟩
@[simp] theorem State.sameMemory_ringStatus (s : State) (d : Nat) (q : Req) (h : Vec) : (s.ringStatus d q h).SameMemory s := by
  simp [State.ringStatus]

@[simp] theorem State.sameMemory_serveRing (s : State) (d : Nat) (q : Req) (va : Nat) : (s.serveRing d q va).SameMemory s := by
  simp only [State.serveRing]
  (repeat' split) <;> simp

@[simp] theorem State.sameMemory_serveRead (s : State) (d : Nat) (q : Req) : (s.serveRead d q).SameMemory s := by
  simp only [State.serveRead]
  (repeat' split) <;> simp

@[simp] theorem sameMemory_loadFill (a : Args) (s : State) : (loadFill a s).SameMemory s := by simp only [loadFill]; (repeat' split) <;> simp
@[simp] theorem State.sameMemory_returnFrames (s : State) (d : Nat) (l : List Nat) : (s.returnFrames d l).SameMemory s := ⟨rfl, rfl⟩
@[simp] theorem sameMemory_memoryUncorrectableError (kind d where' n : Nat) (s : State) :
    (memoryUncorrectableError kind d where' n s).SameMemory s := by
  simp only [memoryUncorrectableError]
  (repeat' split) <;> simp

@[simp] theorem State.sameMemory_noteRead (s : State) (ctx va : Nat) : (s.noteRead ctx va).SameMemory s := by
  simp only [State.noteRead]
  split <;> simp

@[simp] theorem State.sameMemory_parkRead (s : State) (home : Option Nat) (q : Src) (ctx va : Nat) : (s.parkRead home q ctx va).SameMemory s := by
  simp only [State.parkRead]
  split <;> simp

@[simp] theorem State.sameMemory_sendOwn (s : State) (a : Args) : (s.sendOwn a).SameMemory s := by simp only [State.sendOwn]; split <;> simp

/-! #### Machine/Barrier -/

@[simp] theorem State.sameMemory_endWipes (s : State) (maker : Nat) : (s.endWipes maker).SameMemory s := ⟨rfl, rfl⟩
@[simp] theorem State.sameMemory_mapSaved (s : State) (uid : Nat) (fn : SavedFrame → SavedFrame) : (s.mapSaved uid fn).SameMemory s := ⟨rfl, rfl⟩
@[simp] theorem State.sameMemory_applyUpdate (s : State) (g : Nat) (x : BarUpdate) : (s.applyUpdate g x).SameMemory s := by
  simp only [State.applyUpdate]
  split <;> simp

@[simp] theorem State.sameMemory_dropArrival (s : State) (who : Who) : (s.dropArrival who).SameMemory s := by
  simp only [State.dropArrival]
  split <;> simp

@[simp] theorem State.sameMemory_checkDrain (s : State) (g uid : Nat) : (s.checkDrain g uid).SameMemory s := by simp [State.checkDrain]
@[simp] theorem State.sameMemory_checkDrains (s : State) (uid : Nat) : (s.checkDrains uid).SameMemory s := by
  simp only [State.checkDrains]
  split <;> simp

@[simp] theorem State.sameMemory_applyHeld (s : State) (g : Nat) (ups : List BarUpdate) (h : Held) : (s.applyHeld g ups h).1.SameMemory s := by
  simp only [State.applyHeld]
  (repeat' split) <;> simp

@[simp] theorem State.sameMemory_applyClock (s : State) (g : Nat) (l : List Held) : (s.applyClock g l).SameMemory s := by simp [State.applyClock]
@[simp] theorem State.sameMemory_checkBwait (s : State) (g : Nat) : (s.checkBwait g).SameMemory s := by
  simp only [State.checkBwait]
  (repeat' split) <;> simp

@[simp] theorem State.sameMemory_releaseHeld (s : State) (g : Nat) (watch : Bool) : (s.releaseHeld g watch).SameMemory s := by
  simp [State.releaseHeld]

@[simp] theorem sameMemory_heldWriteArrival (g : Nat) (l : List Held) (s : State) : (heldWriteArrival g l s).SameMemory s := by
  simp [heldWriteArrival]

@[simp] theorem sameMemory_handleArrival (g : Nat) (q : Req) (s : State) : (handleArrival g q s).SameMemory s := by
  simp only [handleArrival]
  split <;> simp

@[simp] theorem sameMemory_barrierUpdate (g : Nat) (s : State) : (barrierUpdate g s).SameMemory s := by simp [barrierUpdate]

/-! #### Machine/Consist -/

@[simp] theorem State.sameMemory_fwSend (s : State) (id ctx va : Nat) (l : List Byte) : (s.fwSend id ctx va l).SameMemory s := by
  simp only [State.fwSend]
  split <;> simp

@[simp] theorem State.sameMemory_fwStore (s : State) (ctx va : Nat) (l : List Byte) : (s.fwStore ctx va l).SameMemory s := by simp [State.fwStore]
@[simp] theorem State.sameMemory_fwStep (s : State) (w : FwWork) : (s.fwStep w).SameMemory s := by simp only [State.fwStep]; (repeat' split) <;> simp
@[simp] theorem State.sameMemory_fwStores (s : State) (ctx : Nat) (l : List (Nat × List Byte)) (after : List Happening) :
    (s.fwStores ctx l after).SameMemory s := by
  simp [State.fwStores]

theorem State.sameMemory_of_fwNext {s : State} {id : Nat} {s' : State} (h : s.fwNext id = some s') : s'.SameMemory s := by
  obtain ⟨w, -, rfl⟩ := Option.map_eq_some_iff.1 h
  simp

@[simp] theorem State.sameMemory_writeDone (s : State) (r : BitVec 256) (outcome : Nat) : (s.writeDone r outcome).SameMemory s := by
  simp [State.writeDone]

@[simp] theorem State.sameMemory_putConsist (s : State) (ctx k : Nat) (c : Consist) : (s.putConsist ctx k c).SameMemory s := by
  simp [State.putConsist]

@[simp] theorem State.sameMemory_useUnits (s : State) (d n : Nat) (take : Bool) : (s.useUnits d n take).SameMemory s := ⟨rfl, rfl⟩
@[simp] theorem sameMemory_consistCreate (r : BitVec 256) (s : State) : (consistCreate r s).SameMemory s := by simp [consistCreate]
@[simp] theorem State.sameMemory_freeConsist (s : State) (ctx k : Nat) : (s.freeConsist ctx k).SameMemory s := by simp [State.freeConsist]
@[simp] theorem sameMemory_consistDestroy (r : BitVec 256) (s : State) : (consistDestroy r s).SameMemory s := by simp [consistDestroy]
@[simp] theorem State.sameMemory_parkChain (s : State) (a : Args) (va : Nat) : (s.parkChain a va).SameMemory s := by simp [State.parkChain]
@[simp] theorem State.sameMemory_unparkChain (s : State) (d ctx va : Nat) : (s.unparkChain d ctx va).SameMemory s := by simp [State.unparkChain]
@[simp] theorem State.sameMemory_tailDone (s : State) (d ctx k v : Nat) (q : Req) (silent : Bool) : (s.tailDone d ctx k v q silent).SameMemory s := by
  simp only [State.tailDone]
  split <;> simp

@[simp] theorem State.sameMemory_chainOn (s : State) (d ctx k v : Nat) (q : Req) (silent : Bool) : (s.chainOn d ctx k v q silent).SameMemory s := by
  simp only [State.chainOn]
  split <;> simp

@[simp] theorem State.sameMemory_chainLost (s : State) (d : Nat) (q : Req) : (s.chainLost d q).SameMemory s := by
  simp only [State.chainLost]
  split <;> simp

@[simp] theorem State.sameMemory_headApply (s : State) (d ctx k : Nat) (q : Req) (l : Leaf) : (s.headApply d ctx k q l).SameMemory s := by
  simp only [State.headApply]
  split <;> simp

@[simp] theorem State.sameMemory_memberApply (s : State) (a : Args) (bytes : Tab Byte) : (s.memberApply a bytes).SameMemory s := by
  simp [State.memberApply]

@[simp] theorem State.sameMemory_acked (s : State) (d ctx k v : Nat) : (s.acked d ctx k v).SameMemory s := by
  simp only [State.acked]
  refine State.SameMemory.trans (State.sameMemory_foldl _ (fun s e => ?_) _ _) (by simp)
  (repeat' split) <;> simp

@[simp] theorem sameMemory_chainAck (a : Args) (s : State) : (chainAck a s).SameMemory s := by simp only [chainAck]; (repeat' split) <;> simp
@[simp] theorem State.sameMemory_relinkDone (s : State) (c : Consist) (status : Nat) : (s.relinkDone c status).SameMemory s := by
  simp only [State.relinkDone]
  split <;> simp

@[simp] theorem State.sameMemory_couple (s : State) (q : Req) (k : Nat) (die : Word) : (s.couple q k die).SameMemory s := by simp [State.couple]
@[simp] theorem State.sameMemory_uncouple (s : State) (q : Req) (k : Nat) (die : Word) : (s.uncouple q k die).SameMemory s := by simp [State.uncouple]
@[simp] theorem sameMemory_coupleCopyDone (ctx k : Nat) (s : State) : (coupleCopyDone ctx k s).SameMemory s := by simp [coupleCopyDone]
@[simp] theorem sameMemory_coupleStreamDone (ctx k : Nat) (s : State) : (coupleStreamDone ctx k s).SameMemory s := by simp [coupleStreamDone]
@[simp] theorem State.sameMemory_reforward (s : State) (ctx k p n : Nat) : (s.reforward ctx k p n).SameMemory s := by
  simp only [State.reforward]
  refine State.SameMemory.trans (State.sameMemory_foldl _ (fun s e => ?_) _ _) (by simp)
  (repeat' split) <;> simp

@[simp] theorem State.sameMemory_becomeTail (s : State) (ctx k p done : Nat) : (s.becomeTail ctx k p done).SameMemory s := by
  simp only [State.becomeTail]
  refine State.SameMemory.trans (State.sameMemory_foldl _ (fun s e => by simp) _ _) ?_
  refine State.SameMemory.trans (State.sameMemory_foldl _ (fun s e => ?_) _ _) (by simp)
  split <;> simp

@[simp] theorem State.sameMemory_unlink (s : State) (ctx k m : Nat) : (s.unlink ctx k m).SameMemory s := by simp only [State.unlink]; split <;> simp
@[simp] theorem sameMemory_memberFail (ctx k d : Nat) (s : State) : (memberFail ctx k d s).SameMemory s := by simp [memberFail]

/-! #### Machine/Transit -/

@[simp] theorem State.sameMemory_setTransit (s : State) (a : Agent) (l : List Transit) : (s.setTransit a l).SameMemory s := by
  simp only [State.setTransit]
  split <;> simp

@[simp] theorem State.sameMemory_forwardOps (s : State) (a : Agent) (uid ctx : Nat) (l : List Op) : (s.forwardOps a uid ctx l).SameMemory s := by
  simp [State.forwardOps]

@[simp] theorem State.sameMemory_sendStore (s : State) (a : Agent) (q : Req) (bytes : Tab Byte) : (s.sendStore a q bytes).SameMemory s := by
  simp only [State.sendStore]
  (repeat' split) <;> simp

@[simp] theorem State.sameMemory_sendAtomic (s : State) (a : Agent) (q : Req) (va : Nat) : (s.sendAtomic a q va).SameMemory s := by
  simp only [State.sendAtomic]
  (repeat' split) <;> simp

@[simp] theorem State.sameMemory_sendLoad (s : State) (a : Agent) (q : Req) (va n : Nat) (sync : Bool) : (s.sendLoad a q va n sync).SameMemory s := by
  simp only [State.sendLoad]
  (repeat' split) <;> simp

@[simp] theorem State.sameMemory_sendOp (s : State) (a : Agent) (t : Transit) : (s.sendOp a t).SameMemory s := by
  simp only [State.sendOp]
  (repeat' split) <;> simp

@[simp] theorem State.sameMemory_setReply (s : State) (g uid : Nat) (r : Except (Nat × Word) Word) : (s.setReply g uid r).SameMemory s := by
  simp only [State.setReply]
  split <;> simp

@[simp] theorem State.sameMemory_reply (s : State) (a : Agent) (uid : Nat) (r : Except (Nat × Word) Word) : (s.reply a uid r).SameMemory s := by
  simp only [State.reply]
  (repeat' split) <;> simp

theorem State.sameMemory_of_enqueueMatrix {s : State} {c : MxCmd} {s' : State} (h : s.enqueueMatrix c = some s') : s'.SameMemory s := by
  simp only [State.enqueueMatrix] at h
  split at h
  · cases h
  · cases h; simp

@[simp] theorem State.sameMemory_pumpOne (s : State) (a : Agent) (id : Nat) : (s.pumpOne a id).SameMemory s := by
  simp only [State.pumpOne]
  (repeat' split) <;> simp
  next h => simp [State.sameMemory_of_enqueueMatrix h]

@[simp] theorem State.sameMemory_pump (s : State) (a : Agent) : (s.pump a).SameMemory s := by simp [State.pump]
@[simp] theorem State.sameMemory_wakeFor (s : State) (a : Agent) (o : Op) : (s.wakeFor a o).SameMemory s := by
  simp only [State.wakeFor]
  (repeat' split) <;> simp

@[simp] theorem State.sameMemory_finish (s : State) (a : Agent) (id : Nat) (val : Word) (code : Nat) : (s.finish a id val code).SameMemory s := by
  simp only [State.finish]
  (repeat' split) <;> simp

/-! #### Machine/Release -/

@[simp] theorem State.sameMemory_beginFreeze (s : State) (c : Nat) : (s.beginFreeze c).SameMemory s := by simp [State.beginFreeze]
@[simp] theorem State.sameMemory_escalate (s : State) (c code addr : Nat) : (s.escalate c code addr).SameMemory s := by simp [State.escalate]
@[simp] theorem State.sameMemory_dropEvent (s : State) (d : Nat) (r : Release) (code : Nat) : (s.dropEvent d r code).SameMemory s := by
  simp [State.dropEvent]

@[simp] theorem State.sameMemory_dropLog (s : State) (r : Release) : (s.dropLog r).SameMemory s := ⟨rfl, rfl⟩
@[simp] theorem State.sameMemory_putPending (s : State) (d : Nat) (p : Pending) : (s.putPending d p).SameMemory s := by simp [State.putPending]
@[simp] theorem State.sameMemory_delPending (s : State) (d id : Nat) : (s.delPending d id).SameMemory s := ⟨rfl, rfl⟩
@[simp] theorem State.sameMemory_sendOn (s : State) (d die : Nat) (g : Option Nat) (p : Pending) : (s.sendOn d die g p).SameMemory s := by
  simp [State.sendOn]

@[simp] theorem State.sameMemory_joinBogie (s : State) (d g : Nat) (p : Pending) : (s.joinBogie d g p).SameMemory s := by simp [State.joinBogie]
@[simp] theorem State.sameMemory_enterFifo (s : State) (d g : Nat) (p : Pending) : (s.enterFifo d g p).SameMemory s := by
  simp only [State.enterFifo]
  (repeat' split) <;> simp

@[simp] theorem State.sameMemory_toBogie (s : State) (d g : Nat) (p : Pending) : (s.toBogie d g p).SameMemory s := by simp [State.toBogie]
theorem State.sameMemory_of_tryPlace {s : State} {d : Nat} {p : Pending} {s' : State} (h : s.tryPlace d p = some s') : s'.SameMemory s := by
  simp only [State.tryPlace] at h
  split at h <;> split at h <;> cases h <;> simp

@[simp] theorem State.sameMemory_route (s : State) (d : Nat) (p : Pending) : (s.route d p).SameMemory s := by
  simp only [State.route]
  (repeat' split) <;> simp
  next h => simp [State.sameMemory_of_tryPlace h]

@[simp] theorem State.sameMemory_endClosed (s : State) (g : Nat) (n : Nat) : (s.endClosed g n).SameMemory s := by simp [State.endClosed]
@[simp] theorem State.sameMemory_dropWith (s : State) (d : Nat) (p : Pending) (code : Nat) : (s.dropWith d p code).SameMemory s := by
  simp only [State.dropWith]
  split <;> simp

@[simp] theorem State.sameMemory_noteRecord (s : State) (r : Release) : (s.noteRecord r).SameMemory s := by simp [State.noteRecord]
@[simp] theorem State.sameMemory_holdAgain (s : State) (d ctx : Nat) : (s.holdAgain d ctx).SameMemory s := by simp [State.holdAgain]
@[simp] theorem State.sameMemory_holdRecord (s : State) (d : Nat) (p : Pending) (home : Option Nat) : (s.holdRecord d p home).SameMemory s := by
  simp [State.holdRecord]

@[simp] theorem State.sameMemory_placeRelease (s : State) (d : Nat) (p : Pending) : (s.placeRelease d p).SameMemory s := by
  simp only [State.placeRelease]
  (repeat' split) <;> simp

@[simp] theorem State.sameMemory_accepted (s : State) (d : Nat) (q : RelReq) : (s.accepted d q).SameMemory s := by simp [State.accepted]
@[simp] theorem State.sameMemory_sendAgain (s : State) (h : Happening) (lane : Nat × Nat) (first : Bool) :
    (s.sendAgain h lane first).SameMemory s := by
  simp [State.sendAgain]

@[simp] theorem State.sameMemory_acceptRelease (s : State) (d : Nat) (q : RelReq) (again : Bool) : (s.acceptRelease d q again).SameMemory s := by
  simp only [State.acceptRelease]
  (repeat' split) <;> simp

@[simp] theorem sameMemory_releaseAccept (d : Nat) (q : RelReq) (s : State) : (releaseAccept d q s).SameMemory s := by simp [releaseAccept]
@[simp] theorem sameMemory_releaseResend (d : Nat) (q : RelReq) (s : State) : (releaseResend d q s).SameMemory s := by simp [releaseResend]
@[simp] theorem sameMemory_releaseForward (a : Args) (s : State) : (releaseForward a s).SameMemory s := by
  simp only [releaseForward]
  (repeat' split) <;> simp
  all_goals next h => simp [State.sameMemory_of_tryPlace h]

@[simp] theorem sameMemory_holdEnd (d ctx : Nat) (s : State) : (holdEnd d ctx s).SameMemory s := by simp [holdEnd]
@[simp] theorem State.sameMemory_endHolds (s : State) (ctx : Nat) : (s.endHolds ctx).SameMemory s := ⟨rfl, rfl⟩
@[simp] theorem State.sameMemory_retryWaiting (s : State) (d ctx fuel : Nat) : (s.retryWaiting d ctx fuel).SameMemory s := by
  induction fuel generalizing s with
  | zero => exact ⟨rfl, rfl⟩
  | succ n ih =>
    simp only [State.retryWaiting]
    split
    · simp
    · split
      · simp
      · split
        · next t ht => simp [ih, State.sameMemory_of_tryPlace ht]
        · simp

@[simp] theorem State.sameMemory_resumePlacing (s : State) (ctx : Nat) : (s.resumePlacing ctx).SameMemory s := by simp [State.resumePlacing]
@[simp] theorem State.sameMemory_retry (s : State) (g ctx : Nat) : (s.retry g ctx).SameMemory s := by simp [State.retry]
@[simp] theorem State.sameMemory_clearHoldings (s : State) (g base n : Nat) (tiles : List Nat) : (s.clearHoldings g base n tiles).SameMemory s :=
  ⟨rfl, rfl⟩

@[simp] theorem State.sameMemory_pushFrame (s : State) (g : Nat) (f : Frame) : (s.pushFrame g f).SameMemory s := ⟨rfl, rfl⟩
@[simp] theorem State.sameMemory_restoreFrame (s : State) (g : Nat) (x : SavedFrame) : (s.restoreFrame g x).SameMemory s := by
  simp [State.restoreFrame]

@[simp] theorem State.sameMemory_rejoin (s : State) (d g : Nat) (p : Pending) : (s.rejoin d g p).SameMemory s := by simp [State.rejoin]
@[simp] theorem State.sameMemory_restoreSlot (s : State) (g : Nat) (v : Saved) : (s.restoreSlot g v).SameMemory s := by
  simp only [State.restoreSlot]
  (repeat' split) <;> simp

@[simp] theorem State.sameMemory_acquireTop (s : State) (g : Nat) : (s.acquireTop g).SameMemory s := by simp only [State.acquireTop]; split <;> simp
@[simp] theorem State.sameMemory_pushRelease (s : State) (g : Nat) (p : Pending) : (s.pushRelease g p).SameMemory s := by
  simp only [State.pushRelease]
  (repeat' split) <;> simp

@[simp] theorem State.sameMemory_consume (s : State) (uid : Nat) : (s.consume uid).SameMemory s := by simp [State.consume]
@[simp] theorem State.sameMemory_preempt (s : State) (g : Nat) : (s.preempt g).SameMemory s := by simp only [State.preempt]; split <;> simp
@[simp] theorem State.sameMemory_resumeTop (s : State) (g : Nat) : (s.resumeTop g).SameMemory s := by simp only [State.resumeTop]; split <;> simp
@[simp] theorem sameMemory_releaseEnqueuePush (g : Nat) (s : State) : (releaseEnqueuePush g s).SameMemory s := by simp [releaseEnqueuePush]
@[simp] theorem sameMemory_frameDrainEnd (g uid : Nat) (s : State) : (frameDrainEnd g uid s).SameMemory s := by
  simp only [frameDrainEnd]
  split <;> simp

/-! #### Machine/Group -/

@[simp] theorem State.sameMemory_putGroup (s : State) (home slot : Nat) (g : Group) : (s.putGroup home slot g).SameMemory s := ⟨rfl, rfl⟩
@[simp] theorem State.sameMemory_freeGroup (s : State) (home slot : Nat) : (s.freeGroup home slot).SameMemory s := ⟨rfl, rfl⟩
@[simp] theorem State.sameMemory_unready (s : State) (home slot : Nat) : (s.unready home slot).SameMemory s := ⟨rfl, rfl⟩
@[simp] theorem State.sameMemory_fwStoreId (s : State) (ctx va : Nat) (l : List Byte) : (s.fwStoreId ctx va l).2.SameMemory s := by
  simp [State.fwStoreId]

@[simp] theorem State.sameMemory_enterReady (s : State) (d home slot i : Nat) (node : BitVec 32) :
    (s.enterReady d home slot i node).SameMemory s := by
  simp only [State.enterReady]
  split <;> simp

@[simp] theorem State.sameMemory_announce (s : State) (home slot : Nat) (g : Group) (nodes : List Nat) :
    (s.announce home slot g nodes).SameMemory s := by
  simp [State.announce]

@[simp] theorem State.sameMemory_settle (s : State) (home slot : Nat) (t : GStep) : (s.settle home slot t).SameMemory s := by
  simp only [State.settle]
  (repeat' split) <;> simp

@[simp] theorem State.sameMemory_groupClock (s : State) (home slot : Nat) (l : List GroupMsg) : (s.groupClock home slot l).SameMemory s := by
  simp only [State.groupClock]
  split <;> simp

@[simp] theorem State.sameMemory_groupFlush (s : State) (d : Nat) : (s.groupFlush d).SameMemory s := by simp [State.groupFlush]
@[simp] theorem sameMemory_groupUpdate (a : Args) (s : State) : (groupUpdate a s).SameMemory s := by simp [groupUpdate]
@[simp] theorem State.sameMemory_issue (s : State) (d : Nat) (r : Ready) (g : Group) : (s.issue d r g).SameMemory s := ⟨rfl, rfl⟩
@[simp] theorem sameMemory_issueInstance (a : Args) (s : State) : (issueInstance a s).SameMemory s := by
  simp only [issueInstance]
  (repeat' split) <;> simp

/-! #### Machine/Memory -/

@[simp] theorem State.sameMemory_hartIssue (s : State) (d h : Nat) (l : List Op) (a : Option Await) : (s.hartIssue d h l a).SameMemory s := by
  simp [State.hartIssue]

theorem State.sameMemory_of_hartLoad {s : State} {d h : Nat} {k : AccKind} {t : BitVec 5} {va n : Nat} {signed : Bool} {s' : State}
    (h : s.hartLoad d h k t va n signed = .ok s') : s'.SameMemory s := by
  simp only [State.hartLoad, bind, Except.bind] at h
  split at h
  · cases h
  · cases h; simp

theorem State.sameMemory_of_hartStore {s : State} {d h : Nat} {k : AccKind} {va n : Nat} {v : Word} {rel : Bool} {note : Option Note} {s' : State}
    (h : s.hartStore d h k va n v rel note = .ok s') : s'.SameMemory s := by
  simp only [State.hartStore, bind, Except.bind] at h
  split at h
  · cases h
  · cases h; simp

theorem State.sameMemory_of_hartAtomic {s : State} {d h : Nat} {t : Option (BitVec 5)} {va n : Nat} {signed : Bool} {fn : AtomF} {x y : Word}
    {ord : BitVec 2} {w : BitVec 32} {s' : State} (h : s.hartAtomic d h t va n signed fn x y ord w = .ok s') : s'.SameMemory s := by
  simp only [State.hartAtomic, bind, Except.bind] at h
  split at h
  · cases h
  · split at h <;> cases h <;> simp

theorem State.sameMemory_of_hartNotify {s : State} {d h : Nat} {i : Instr} {t b xf : BitVec 5} {n : Nat} {isTask : Bool} {s' : State}
    (h : s.hartNotify d h i t b xf n isTask = .ok s') : s'.SameMemory s := by
  simp only [State.hartNotify, bind, Except.bind] at h
  repeat' split at h
  all_goals cases h
  all_goals simp

theorem State.sameMemory_of_hartPrefFar {s : State} {d h va : Nat} {s' : State} (h : s.hartPrefFar d h va = .ok s') : s'.SameMemory s := by
  simp only [State.hartPrefFar] at h
  repeat' split at h
  all_goals cases h
  all_goals simp

/-! #### Machine/Task -/

@[simp] theorem State.sameMemory_latch (s : State) (g : Nat) : (s.latch g).SameMemory s := by simp [State.latch]
@[simp] theorem State.sameMemory_start (s : State) (g : Nat) (f0 f : Frame) (phase : Phase) : (s.start g f0 f phase).SameMemory s := by
  simp [State.start]

@[simp] theorem sameMemory_triggerDelivery (g : Nat) (s : State) : (triggerDelivery g s).SameMemory s := by
  simp only [triggerDelivery]
  (repeat' split) <;> simp

@[simp] theorem State.sameMemory_rollback (s : State) (g : Nat) : (s.rollback g).SameMemory s := by simp [State.rollback]
@[simp] theorem State.sameMemory_commitL1 (s : State) (g ctx : Nat) (bytes : Tab Byte) : (s.commitL1 g ctx bytes).SameMemory s := by
  simp [State.commitL1]

@[simp] theorem State.sameMemory_commitEntry (s : State) (g ctx : Nat) (o : Op) : (s.commitEntry g ctx o).SameMemory s := by
  simp only [State.commitEntry]
  (repeat' split) <;> simp

@[simp] theorem State.sameMemory_usePeers (s : State) (g : Nat) : (s.usePeers g).SameMemory s := by simp [State.usePeers]
@[simp] theorem State.sameMemory_forwardTop (s : State) (g : Nat) (f : Frame) (more : List Op) : (s.forwardTop g f more).SameMemory s := by
  simp [State.forwardTop]

@[simp] theorem State.sameMemory_endDrains (s : State) (ctx : Nat) : (s.endDrains ctx).SameMemory s := ⟨rfl, rfl⟩
@[simp] theorem State.sameMemory_popTop (s : State) (g : Nat) : (s.popTop g).SameMemory s := by simp only [State.popTop]; split <;> simp
@[simp] theorem State.sameMemory_afterBoundary (s : State) (g : Nat) : (s.afterBoundary g).SameMemory s := by simp [State.afterBoundary]
@[simp] theorem State.sameMemory_takeFault (s : State) (g : Nat) (i : FaultInfo) : (s.takeFault g i).SameMemory s := by
  simp only [State.takeFault]
  split <;> simp

@[simp] theorem State.sameMemory_commitTop (s : State) (g : Nat) (k : Boundary) : (s.commitTop g k).SameMemory s := by
  simp only [State.commitTop]
  (repeat' split) <;> simp

@[simp] theorem sameMemory_witnessVerdict (g : Nat) (upset : Bool) (s : State) : (witnessVerdict g upset s).SameMemory s := by
  simp only [witnessVerdict]
  split <;> simp

@[simp] theorem sameMemory_streakLimit (g : Nat) (s : State) : (streakLimit g s).SameMemory s := by simp only [streakLimit]; (repeat' split) <;> simp
@[simp] theorem sameMemory_uncorrectableError (g kind n va : Nat) (s : State) : (uncorrectableError g kind n va s).SameMemory s := by
  simp [uncorrectableError]

/-! #### Machine/Trap -/

@[simp] theorem State.sameMemory_sendEvent (s : State) (d c k : Nat) (i : FaultInfo) : (s.sendEvent d c k i).SameMemory s := by
  simp only [State.sendEvent]
  (repeat' split) <;> simp

@[simp] theorem State.sameMemory_queueEvent (s : State) (c k : Nat) (i : FaultInfo) : (s.queueEvent c k i).SameMemory s := by simp [State.queueEvent]
@[simp] theorem sameMemory_raiseEvent (a : Args) (s : State) : (raiseEvent a s).SameMemory s := by simp only [raiseEvent]; (repeat' split) <;> simp
@[simp] theorem sameMemory_eventUnqueue (c k : Nat) (seq : BitVec 32) (flag : Bool) (s : State) : (eventUnqueue c k seq flag s).SameMemory s := by
  simp only [eventUnqueue]
  split <;> simp

/-! #### Machine/Copy -/

@[simp] theorem State.sameMemory_noteCopy (s : State) (ctx desc slot : Nat) (p : Vec) : (s.noteCopy ctx desc slot p).SameMemory s := by
  simp [State.noteCopy]

@[simp] theorem State.sameMemory_logKick (s : State) (a : Args) : (s.logKick a).SameMemory s := ⟨rfl, rfl⟩
@[simp] theorem State.sameMemory_takeKick (s : State) (a : Args) : (s.takeKick a).SameMemory s := by
  simp only [State.takeKick]
  (repeat' split) <;> simp

@[simp] theorem sameMemory_engineKick (a : Args) (s : State) : (engineKick a s).SameMemory s := by simp only [engineKick]; split <;> simp
@[simp] theorem State.sameMemory_hartRead (s : State) (d h : Nat) (r : CopyRun) (va n : Nat) : (s.hartRead d h r va n).2.SameMemory s := by
  simp only [State.hartRead]
  (repeat' split) <;> simp

@[simp] theorem State.sameMemory_putRun (s : State) (d h : Nat) (r : CopyRun) : (s.putRun d h r).SameMemory s := ⟨rfl, rfl⟩
@[simp] theorem State.sameMemory_again (s : State) (d h : Nat) : (s.again d h).SameMemory s := ⟨rfl, rfl⟩
@[simp] theorem State.sameMemory_tryComplete (s : State) (d h : Nat) : (s.tryComplete d h).SameMemory s := by
  simp only [State.tryComplete]
  split <;> simp

@[simp] theorem State.sameMemory_deliverCopy (s : State) (d h : Nat) (r : CopyRun) (off : Nat) (data : List Byte) (last : Bool) :
    (s.deliverCopy d h r off data last).1.SameMemory s := by
  simp only [State.deliverCopy]
  refine State.sameMemory_foldl_fst _ (fun x hd => ?_) _ _
  split
  · split <;> simp
  · simp

@[simp] theorem State.sameMemory_showBytes (s : State) (r : CopyRun) : (s.showBytes r).SameMemory s := ⟨rfl, rfl⟩
@[simp] theorem State.sameMemory_sendCommit (s : State) (d h : Nat) (r : CopyRun) : (s.sendCommit d h r).SameMemory s := by
  simp only [State.sendCommit]
  (repeat' split) <;> simp

@[simp] theorem State.sameMemory_sendCopy (s : State) (d h : Nat) (r : CopyRun) : (s.sendCopy d h r).SameMemory s := by
  simp only [State.sendCopy]
  (repeat' split) <;> simp

@[simp] theorem State.sameMemory_moveCopy (s : State) (d h : Nat) (r : CopyRun) : (s.moveCopy d h r).SameMemory s := by
  simp only [State.moveCopy]
  (repeat' split) <;> simp
  all_goals next e => exact State.SameMemory.of_snd (State.sameMemory_hartRead ..) e

@[simp] theorem State.sameMemory_hartLooks (s : State) (d h : Nat) : (s.hartLooks d h).SameMemory s := by
  have looked : ∀ l : List (Nat × Nat), State.SameMemory (l.foldl (fun s w => match s.queueWaits w.1 w.2 with
      | some (x, va) => s.parkRead x (.hart d h) w.1 va
      | none => s) s) s :=
    fun l => State.sameMemory_foldl _ (fun s w => by split <;> simp) l s
  simp only [State.hartLooks]
  split
  · exact looked _
  · exact State.SameMemory.trans (State.sameMemory_again ..) (looked _)

@[simp] theorem State.sameMemory_takePacket (s : State) (d h : Nat) : (s.takePacket d h).SameMemory s := by
  simp only [State.takePacket]
  (repeat' split) <;> simp

theorem State.sameMemory_of_copyAnswer {s : State} {d h id : Nat} {val : Word} {code : Nat} {s' : State}
    (h : s.copyAnswer d h id val code = some s') : s'.SameMemory s := by
  simp only [State.copyAnswer] at h
  repeat' split at h
  all_goals cases h
  all_goals simp

@[simp] theorem State.sameMemory_arriveCopy (s : State) (hd : Word) (u : Update) : (s.arriveCopy hd u).1.SameMemory s := by
  simp only [State.arriveCopy]
  split <;> simp

@[simp] theorem State.sameMemory_completionUpdates (s : State) (r : CopyRun) : (s.completionUpdates r).1.SameMemory s := by
  simp only [State.completionUpdates]
  (repeat' split) <;> simp

@[simp] theorem State.sameMemory_closePacket (s : State) (d h : Nat) (r : CopyRun) : (s.closePacket d h r).SameMemory s := by
  simp only [State.closePacket]
  split <;> simp

@[simp] theorem sameMemory_copyCompletion (d h : Nat) (s : State) : (copyCompletion d h s).SameMemory s := by
  simp only [copyCompletion]
  (repeat' split) <;> simp

@[simp] theorem State.sameMemory_leaveRing (s : State) (d h ctx ring : Nat) : (s.leaveRing d h ctx ring).SameMemory s := by
  simp only [State.leaveRing]
  split <;> simp

@[simp] theorem sameMemory_completionRecordWrite (d h : Nat) (s : State) : (completionRecordWrite d h s).SameMemory s := by
  simp only [completionRecordWrite]
  (repeat' split) <;> simp

@[simp] theorem State.sameMemory_tryClose (s : State) (d h : Nat) (r : CopyRun) : (s.tryClose d h r).SameMemory s := by
  simp only [State.tryClose]
  split <;> simp

@[simp] theorem State.sameMemory_endPacket (s : State) (d h : Nat) : (s.endPacket d h).SameMemory s := ⟨rfl, rfl⟩
@[simp] theorem sameMemory_copyPacketExecute (d h : Nat) (s : State) : (copyPacketExecute d h s).SameMemory s := by
  simp only [copyPacketExecute]
  (repeat' split) <;> simp

@[simp] theorem sameMemory_engineHartFault (a : Args) (s : State) : (engineHartFault a s).SameMemory s := by
  simp only [engineHartFault]
  (repeat' split) <;> simp

@[simp] theorem State.sameMemory_beginLoad (s : State) (d h c : Nat) : (s.beginLoad d h c).SameMemory s := ⟨rfl, rfl⟩
@[simp] theorem sameMemory_engineQuantum (d h : Nat) (done : Bool) (s : State) : (engineQuantum d h done s).SameMemory s := by
  unfold engineQuantum
  lift_lets
  extract_lets
  (repeat' split) <;> simp

@[simp] theorem sameMemory_microcodeLoad (a : Args) (s : State) : (microcodeLoad a s).SameMemory s := by
  simp only [microcodeLoad]
  (repeat' split) <;> simp

/-! #### Machine/Matrix -/

@[simp] theorem State.sameMemory_noteRows (s : State) (ctx : Nat) (rows : List (Nat × Nat)) : (s.noteRows ctx rows).SameMemory s := by
  simp [State.noteRows]

@[simp] theorem State.sameMemory_putTile (s : State) (k t : Nat) (x : Tile) : (s.putTile k t x).SameMemory s := ⟨rfl, rfl⟩
@[simp] theorem State.sameMemory_arbitrate (s : State) (k : Nat) : (s.arbitrate k).SameMemory s := ⟨rfl, rfl⟩
@[simp] theorem State.sameMemory_mxDone (s : State) (k : Nat) (c : MxCmd) : (s.mxDone k c).SameMemory s := by
  simp only [State.mxDone]
  (repeat' split) <;> simp

@[simp] theorem State.sameMemory_mxComplete (s : State) (c : MxCmd) : (s.mxComplete c).SameMemory s := by simp [State.mxComplete]
@[simp] theorem State.sameMemory_arrayStore (s : State) (k ctx : Nat) (bytes : Tab Byte) (poison : Bool) :
    (s.arrayStore k ctx bytes poison).1.SameMemory s := by
  simp only [State.arrayStore]
  split <;> simp

@[simp] theorem State.sameMemory_mxDeliver (s : State) (k : Nat) (c : MxCmd) (l : List Held) : (s.mxDeliver k c l).SameMemory s := by
  simp [State.mxDeliver]

@[simp] theorem State.sameMemory_addJob (s : State) (k : Nat) (j : MxJob) : (s.addJob k j).SameMemory s := ⟨rfl, rfl⟩
@[simp] theorem State.sameMemory_mxStore (s : State) (k : Nat) (c : MxCmd) (tile : Nat) (dst ctl : Word) (bar : Option Nat) (out gs : Nat)
    (round : BitVec 3) (sat : Bool) : (s.mxStore k c tile dst ctl bar out gs round sat).SameMemory s := by
  simp only [State.mxStore]
  (repeat' split) <;> simp

@[simp] theorem State.sameMemory_mxError (s : State) (k : Nat) (c : MxCmd) (tile cause : Nat) : (s.mxError k c tile cause).SameMemory s := ⟨rfl, rfl⟩
@[simp] theorem State.sameMemory_mmaWork (s : State) (k : Nat) (c : MxCmd) (tile : Nat) (src : Word) (slot stride kk : Nat) (aint : Bool)
    (base : BitVec 10) (step : Nat) : (s.mmaWork k c tile src slot stride kk aint base step).SameMemory s := by
  simp only [State.mmaWork]
  split <;> simp

@[simp] theorem State.sameMemory_mxLoadB (s : State) (k slot ty kk : Nat) (ctl : Word) (rows : List (List (Byte × Bool))) :
    (s.mxLoadB k slot ty kk ctl rows).SameMemory s :=
  ⟨rfl, rfl⟩

@[simp] theorem State.sameMemory_mxLoadA (s : State) (k tile : Nat) (i32 : Bool) (rows : List (List (Byte × Bool))) :
    (s.mxLoadA k tile i32 rows).SameMemory s :=
  ⟨rfl, rfl⟩

@[simp] theorem State.sameMemory_mxBegin (s : State) (k : Nat) (c : MxCmd) : (s.mxBegin k c).SameMemory s := by
  simp only [State.mxBegin]
  (repeat' split) <;> simp

@[simp] theorem State.sameMemory_runPair (s : State) (k key : Nat) : (s.runPair k key).SameMemory s := by
  simp only [State.runPair]
  (repeat' split) <;> simp

@[simp] theorem State.sameMemory_parkHeads (s : State) (k : Nat) : (s.parkHeads k).SameMemory s := by
  refine State.sameMemory_foldl _ (fun s c => ?_) _ _
  split <;> simp

@[simp] theorem sameMemory_arrayCommandExecute (k : Nat) (s : State) : (arrayCommandExecute k s).SameMemory s := by
  simp only [arrayCommandExecute]
  (repeat' split) <;> simp

@[simp] theorem sameMemory_mmaStep (k key : Nat) (s : State) : (mmaStep k key s).SameMemory s := by simp only [mmaStep]; (repeat' split) <;> simp
@[simp] theorem sameMemory_leaseEnd (k : Nat) (s : State) : (leaseEnd k s).SameMemory s := by simp only [leaseEnd]; split <;> simp
@[simp] theorem sameMemory_scaleDelivery (d : Nat) (q : Req) (s : State) : (scaleDelivery d q s).SameMemory s := by
  simp only [scaleDelivery]
  split <;> simp

@[simp] theorem sameMemory_scaleFileApply (g : Nat) (s : State) : (scaleFileApply g s).SameMemory s := by simp [scaleFileApply]
@[simp] theorem State.sameMemory_passEnd (s : State) (k : Nat) (r : MxRun) : (s.passEnd k r).SameMemory s := by simp [State.passEnd]
theorem State.sameMemory_of_passWork {s : State} {k : Nat} {r : MxRun} {d : Vec} {t tile k0 n : Nat} {s' : State} {r' : MxRun}
    (h : s.passWork k r d t tile k0 n = .ok (s', r')) : s'.SameMemory s := by
  simp only [State.passWork] at h
  repeat' split at h
  all_goals cases h
  all_goals simp

@[simp] theorem State.sameMemory_passStore (s : State) (k : Nat) (r : MxRun) (d : Vec) (t tile : Nat) :
    (s.passStore k r d t tile).1.SameMemory s := by
  simp only [State.passStore]
  refine State.sameMemory_foldl_fst _ (fun y line => ?_) _ _
  (repeat' split) <;> simp

@[simp] theorem sameMemory_passExecute (k key : Nat) (s : State) : (passExecute k key s).SameMemory s := by
  simp only [passExecute]
  (repeat' split) <;> simp
  all_goals next h _ => simp [State.sameMemory_of_passWork h]

@[simp] theorem sameMemory_passComplete (k id : Nat) (s : State) : (passComplete k id s).SameMemory s := by simp only [passComplete]; split <;> simp
@[simp] theorem State.sameMemory_arrayAnswer (s : State) (k : Nat) (q : Req) (code : Nat) : (s.arrayAnswer k q code).SameMemory s := by
  simp only [State.arrayAnswer]
  (repeat' split) <;> simp

/-! #### Machine/Translate -/

@[simp] theorem State.sameMemory_broadcast (s : State) (o : PageOp) : (s.broadcast o).SameMemory s := by simp only [State.broadcast]; split <;> simp
@[simp] theorem State.sameMemory_requestDone (s : State) (o : PageOp) : (s.requestDone o).SameMemory s := by simp [State.requestDone]

/-! #### Machine/Snapshot -/

@[simp] theorem State.sameMemory_mail (s : State) (ev : Instr) (a : Args) : (s.mail ev a).SameMemory s := ⟨rfl, rfl⟩
@[simp] theorem State.sameMemory_service (s : State) (ev : Instr) (f : State → State) (hf : (f s).SameMemory s) : (s.service ev f).SameMemory s := by
  unfold State.service
  split
  · simp
  · exact hf

@[simp] theorem sameMemory_stepEnter (d h : Nat) (q : Req) (s : State) : (stepEnter d h q s).SameMemory s := by simp only [stepEnter]; split <;> simp
@[simp] theorem State.sameMemory_answerHeld (s : State) (c : Nat) : (s.answerHeld c).SameMemory s := by
  simp only [State.answerHeld]
  split
  · simp
  · refine State.sameMemory_foldl _ (fun s e => ?_) _ _
    (repeat' split) <;> simp

@[simp] theorem sameMemory_stepDone (d h : Nat) (q : Req) (s : State) : (stepDone d h q s).SameMemory s := by simp only [stepDone]; split <;> simp
theorem State.sameMemory_of_snapshotCut {s : State} {ctx : Nat} {p : Vec} {s' : State} (h : s.snapshotCut ctx p = .ok s') : s'.SameMemory s := by
  simp only [State.snapshotCut] at h
  repeat' split at h
  all_goals cases h
  all_goals simp

@[simp] theorem sameMemory_snapshotCutTaken (c d m : Nat) (s : State) : (snapshotCutTaken c d m s).SameMemory s := by simp [snapshotCutTaken]
theorem State.sameMemory_of_snapSend {s : State} {c d h off k : Nat} {l : List Byte} {s' : State} (h : s.snapSend c d h off k l = some s') :
    s'.SameMemory s := by
  simp only [State.snapSend] at h
  repeat' split at h
  all_goals cases h
  all_goals simp

@[simp] theorem State.sameMemory_freeCopies (s : State) (u : SnapUnit) : (s.freeCopies u).SameMemory s := by simp [State.freeCopies]
@[simp] theorem sameMemory_snapshotDone (c n : Nat) (s : State) : (snapshotDone c n s).SameMemory s := by
  simp only [snapshotDone]
  (repeat' split) <;> simp
  all_goals next h => simp [State.sameMemory_of_snapSend h]

@[simp] theorem State.sameMemory_abandonSnapshot (s : State) (c : Nat) : (s.abandonSnapshot c).SameMemory s := by simp [State.abandonSnapshot]

/-! #### Machine/Context -/

@[simp] theorem State.sameMemory_done (s : State) (c status : Nat) : (s.done c status).SameMemory s := ⟨rfl, rfl⟩
@[simp] theorem State.sameMemory_refuse (s : State) (c : Nat) : (s.refuse c).SameMemory s := ⟨rfl, rfl⟩
@[simp] theorem sameMemory_create (c : Nat) (s : State) : (create c s).SameMemory s := by simp [create]
@[simp] theorem State.sameMemory_retryCommand (s : State) (c code : Nat) (d : Option Nat) (va : Nat) : (s.retryCommand c code d va).SameMemory s := by
  simp [State.retryCommand]

@[simp] theorem sameMemory_armNow (c : Nat) (s : State) : (armNow c s).SameMemory s := by simp only [armNow]; (repeat' split) <;> simp
@[simp] theorem sameMemory_arm (c : Nat) (again : Bool) (s : State) : (arm c again s).SameMemory s := by simp [arm]
@[simp] theorem State.sameMemory_takeServers (s : State) (c : Nat) : (s.takeServers c).SameMemory s := by
  simp only [State.takeServers]
  split <;> simp

@[simp] theorem State.sameMemory_joinFifo (s : State) (c : Nat) : (s.joinFifo c).SameMemory s := ⟨rfl, rfl⟩
@[simp] theorem State.sameMemory_resumeWork (s : State) (c : Nat) : (s.resumeWork c).SameMemory s := by simp [State.resumeWork]
@[simp] theorem sameMemory_activate (c : Nat) (s : State) : (activate c s).SameMemory s := by simp [activate]
@[simp] theorem sameMemory_quiesce (c : Nat) (s : State) : (quiesce c s).SameMemory s := by simp [quiesce]
@[simp] theorem sameMemory_quiesceDrainDone (c : Nat) (s : State) : (quiesceDrainDone c s).SameMemory s := by simp [quiesceDrainDone]
@[simp] theorem sameMemory_freeze (c : Nat) (s : State) : (freeze c s).SameMemory s := by simp [freeze]
@[simp] theorem sameMemory_thawNow (c : Nat) (s : State) : (thawNow c s).SameMemory s := by simp only [thawNow]; (repeat' split) <;> simp
@[simp] theorem sameMemory_thaw (c : Nat) (again : Bool) (s : State) : (thaw c again s).SameMemory s := by simp [thaw]
@[simp] theorem sameMemory_thawRestoreDone (c : Nat) (s : State) : (thawRestoreDone c s).SameMemory s := by simp [thawRestoreDone]
@[simp] theorem State.sameMemory_dropReleases (s : State) (c : Nat) : (s.dropReleases c).SameMemory s := by
  simp only [State.dropReleases]
  refine State.SameMemory.trans (State.sameMemory_foldl _ (fun s a => ?_) _ _) ⟨rfl, rfl⟩
  split <;> simp

@[simp] theorem sameMemory_destroy (c : Nat) (s : State) : (destroy c s).SameMemory s := by simp [destroy]
@[simp] theorem State.sameMemory_resetBogie (s : State) (g c : Nat) : (s.resetBogie g c).SameMemory s := by simp [State.resetBogie]
@[simp] theorem sameMemory_functionLevelReset (c : Nat) (s : State) : (functionLevelReset c s).SameMemory s := by simp [functionLevelReset]
@[simp] theorem State.sameMemory_scrubCoach (s : State) (k : Nat) : (s.scrubCoach k).SameMemory s := by simp [State.scrubCoach]
@[simp] theorem State.sameMemory_scrubCaches (s : State) (c : Nat) : (s.scrubCaches c).SameMemory s := ⟨rfl, rfl⟩
@[simp] theorem State.sameMemory_scrubGroups (s : State) (c : Nat) : (s.scrubGroups c).SameMemory s := by simp [State.scrubGroups]
@[simp] theorem sameMemory_contextCommandInvalid (c : Nat) (s : State) : (contextCommandInvalid c s).SameMemory s := ⟨rfl, rfl⟩
@[simp] theorem sameMemory_runCommand (code c : Nat) (s : State) : (runCommand code c s).SameMemory s := by simp only [runCommand]; split <;> simp
@[simp] theorem sameMemory_contextFieldWrite (c off m : Nat) (v : Word) (s : State) : (contextFieldWrite c off m v s).SameMemory s := by
  simp [contextFieldWrite]

/-! #### Machine/Fetch -/

@[simp] theorem State.sameMemory_keepCode (s : State) (n : Nat) (l : List CodeLine) (e : CodeLine) : (s.keepCode n l e).2.SameMemory s := by
  simp [State.keepCode]

@[simp] theorem State.sameMemory_fillCode (s : State) (g ctx va : Nat) : (s.fillCode g ctx va).SameMemory s := by
  simp only [State.fillCode]
  (repeat' split) <;> simp

/-! #### Machine/Queue -/

@[simp] theorem State.sameMemory_setQueue (s : State) (n : Nat) (q : Queue) : (s.setQueue n q).SameMemory s := ⟨rfl, rfl⟩
@[simp] theorem State.sameMemory_freeSlot (s : State) (n : Nat) : (s.freeSlot n).SameMemory s := by simp only [State.freeSlot]; split <;> simp
@[simp] theorem State.sameMemory_tearDown (s : State) (n : Nat) : (s.tearDown n).SameMemory s := by simp [State.tearDown]
@[simp] theorem State.sameMemory_failQueue (s : State) (n : Nat) : (s.failQueue n).SameMemory s := by simp [State.failQueue]
@[simp] theorem sameMemory_queueEnable (n : Nat) (s : State) : (queueEnable n s).SameMemory s := by simp [queueEnable]
@[simp] theorem sameMemory_queueTeardown (n : Nat) (s : State) : (queueTeardown n s).SameMemory s := by simp [queueTeardown]
@[simp] theorem sameMemory_pasidInvalidate (pasid : Nat) (s : State) : (pasidInvalidate pasid s).SameMemory s := by simp [pasidInvalidate]
@[simp] theorem sameMemory_lastFetchReturn (n : Nat) (s : State) : (lastFetchReturn n s).SameMemory s := by simp [lastFetchReturn]
@[simp] theorem sameMemory_queueNotify (c off m : Nat) (s : State) : (queueNotify c off m s).SameMemory s := by simp [queueNotify]
@[simp] theorem State.sameMemory_lookAgain (s : State) (n : Nat) : (s.lookAgain n).SameMemory s := ⟨rfl, rfl⟩
@[simp] theorem State.sameMemory_parkFetch (s : State) (n : Nat) (d : Option Nat) (va : Nat) : (s.parkFetch n d va).SameMemory s := by
  simp [State.parkFetch]

@[simp] theorem State.sameMemory_failStores (s : State) (n status cause : Nat) : (s.failStores n status cause).2.SameMemory s := by
  simp only [State.failStores]
  split <;> simp

@[simp] theorem State.sameMemory_countRetired (s : State) (n : Nat) : (s.countRetired n).SameMemory s := by simp [State.countRetired]
@[simp] theorem State.sameMemory_endStores (s : State) (n status cause : Nat) : (s.endStores n status cause).2.SameMemory s := by
  simp only [State.endStores]
  split <;> simp

@[simp] theorem State.sameMemory_begin' (s : State) (a : Args) : (s.begin' a).SameMemory s := by simp [State.begin']
@[simp] theorem State.sameMemory_awaitPacket (s : State) (a : Args) (id : Nat) : (s.awaitPacket a id).SameMemory s := by simp [State.awaitPacket]
@[simp] theorem State.sameMemory_repeatPacket (s : State) (a : Args) (ev : Instr) : (s.repeatPacket a ev).SameMemory s := ⟨rfl, rfl⟩
@[simp] theorem State.sameMemory_finishAfter (s : State) (a : Args) (l : List (Nat × List Byte)) (status cause : Nat) :
    (s.finishAfter a l status cause).SameMemory s := by
  simp [State.finishAfter]

@[simp] theorem State.sameMemory_holdPacket (s : State) (a : Args) (ev : Instr) : (s.holdPacket a ev).SameMemory s := by simp [State.holdPacket]
@[simp] theorem State.sameMemory_hubStore (s : State) (q : Req) (va : Nat) (bytes : Tab Byte) : (s.hubStore q va bytes).SameMemory s := by
  simp only [State.hubStore]
  (repeat' split) <;> simp

@[simp] theorem State.sameMemory_hubAtomic (s : State) (q : Req) (va : Nat) : (s.hubAtomic q va).SameMemory s := by
  simp only [State.hubAtomic]
  (repeat' split) <;> simp

@[simp] theorem State.sameMemory_evalTrigger (s : State) (c tag : Nat) : (s.evalTrigger c tag).SameMemory s := by
  simp only [State.evalTrigger]
  (repeat' split) <;> simp

@[simp] theorem State.sameMemory_sumClock (s : State) (c clock : Nat) : (s.sumClock c clock).SameMemory s := by simp [State.sumClock]
@[simp] theorem State.sameMemory_sumTriggers (s : State) (c : Nat) : (s.sumTriggers c).SameMemory s := by simp [State.sumTriggers]
@[simp] theorem State.sameMemory_touchTrigger (s : State) (c tag : Nat) (v : Option Word) : (s.touchTrigger c tag v).SameMemory s := ⟨rfl, rfl⟩
@[simp] theorem State.sameMemory_addTrigger (s : State) (c tag : Nat) (v : Word) : (s.addTrigger c tag v).SameMemory s := ⟨rfl, rfl⟩
@[simp] theorem State.sameMemory_afterTrigger (s : State) (a : Args) : (s.afterTrigger a).SameMemory s := ⟨rfl, rfl⟩
@[simp] theorem State.sameMemory_startWait (s : State) (a : Args) : (s.startWait a).SameMemory s := by simp [State.startWait]
@[simp] theorem State.sameMemory_goTo (s : State) (n : Nat) (p : Point) : (s.goTo n p).SameMemory s := by simp [State.goTo]
@[simp] theorem State.sameMemory_putKernel (s : State) (c k : Nat) (x : Kernel) : (s.putKernel c k x).2.SameMemory s := by simp [State.putKernel]
@[simp] theorem State.sameMemory_install (s : State) (c k : Nat) (h : Option Header) : (s.install c k h).2.SameMemory s := by
  simp only [State.install]
  split <;> simp

@[simp] theorem sameMemory_kernelDrainEnd (c k : Nat) (s : State) : (kernelDrainEnd c k s).SameMemory s := by
  simp only [kernelDrainEnd]
  (repeat' split) <;> simp

@[simp] theorem State.sameMemory_rejectGroup (s : State) (a : Args) (block check : Nat) (w : Vec) : (s.rejectGroup a block check w).SameMemory s := by
  simp [State.rejectGroup]

@[simp] theorem State.sameMemory_launchOn (s : State) (a : Args) (block : Nat) (g : Group) : (s.launchOn a block g).SameMemory s := by
  simp only [State.launchOn]
  split <;> simp

/-! #### Machine/Fabric -/

@[simp] theorem State.sameMemory_sendPeer (s : State) (m id : Nat) (code : Nat) (val : Vec) : (s.sendPeer m id code val).SameMemory s := ⟨rfl, rfl⟩
@[simp] theorem State.sameMemory_refusePeer (s : State) (p : PeerReq) : (s.refusePeer p).SameMemory s := by simp [State.refusePeer]
@[simp] theorem State.sameMemory_servePeer (s : State) (p : PeerReq) : (s.servePeer p).SameMemory s := by
  simp only [State.servePeer]
  (repeat' split) <;> simp

@[simp] theorem State.sameMemory_peerAnswer (s : State) (m : Nat) (q : Req) (val : Vec) (code : Nat) : (s.peerAnswer m q val code).SameMemory s := by
  simp only [State.peerAnswer]
  (repeat' split) <;> simp

@[simp] theorem State.sameMemory_deliverPeer (s : State) (fuel : Nat) : (s.deliverPeer fuel).SameMemory s := by
  induction fuel generalizing s with
  | zero => exact ⟨rfl, rfl⟩
  | succ n ih => simp only [State.deliverPeer]; split <;> simp [ih]

@[simp] theorem sameMemory_peerIngress (a : Args) (s : State) : (peerIngress a s).SameMemory s := by simp [peerIngress]
@[simp] theorem State.sameMemory_postedEvent (s : State) (d : Nat) (q : Req) (va code : Nat) : (s.postedEvent d q va code).SameMemory s := ⟨rfl, rfl⟩
@[simp] theorem State.sameMemory_proxyEnd (s : State) (d : Nat) (q : Req) (val : Word) (code : Nat) : (s.proxyEnd d q val code).SameMemory s := by
  simp only [State.proxyEnd]
  (repeat' split) <;> simp

@[simp] theorem sameMemory_stationFail (n : Nat) (s : State) : (stationFail n s).SameMemory s := by simp [stationFail]
@[simp] theorem sameMemory_stationReturn (n : Nat) (s : State) : (stationReturn n s).SameMemory s := ⟨rfl, rfl⟩

/-! #### Machine/System -/

@[simp] theorem State.sameMemory_reply' (s : State) (ev : Instr) (f : State → Word × State) (hf : (f s).2.SameMemory s) :
    (s.reply' ev f).SameMemory s :=
  State.sameMemory_service _ _ _ (State.SameMemory.trans (State.sameMemory_answer ..) hf)

@[simp] theorem sameMemory_version (s : State) : (version s).SameMemory s := by simp [version]
@[simp] theorem sameMemory_linkState (s : State) : (linkState s).SameMemory s := by simp [linkState]
@[simp] theorem sameMemory_temperature (s : State) : (temperature s).SameMemory s := by simp [temperature]
@[simp] theorem sameMemory_power (s : State) : (power s).SameMemory s := by simp [power]
@[simp] theorem sameMemory_errlogCount (s : State) : (errlogCount s).SameMemory s := by simp [errlogCount]
@[simp] theorem State.sameMemory_setPools (s : State) : s.setPools.SameMemory s := by simp [State.setPools]
@[simp] theorem State.sameMemory_setPod (s : State) : s.setPod.SameMemory s := by simp [State.setPod]
@[simp] theorem State.sameMemory_setDevices (s : State) : s.setDevices.SameMemory s := by simp [State.setDevices]
@[simp] theorem State.sameMemory_loadImage (s : State) (c : Complex) : (s.loadImage c).2.SameMemory s := by simp [State.loadImage]
@[simp] theorem sameMemory_bootStage (h m : Nat) (s : State) : (bootStage h m s).SameMemory s := by simp only [bootStage]; (repeat' split) <;> simp
@[simp] theorem sameMemory_spdmRequest (n : Nat) (s : State) : (spdmRequest n s).SameMemory s := by simp [spdmRequest]
@[simp] theorem State.sameMemory_log (s : State) (code ctx addr : Nat) : (s.log code ctx addr).SameMemory s := ⟨rfl, rfl⟩
@[simp] theorem sameMemory_fwStage (m : Nat) (s : State) : (fwStage m s).SameMemory s := by simp only [fwStage]; (repeat' split) <;> simp
@[simp] theorem sameMemory_fwCommit (s : State) : (fwCommit s).SameMemory s := by simp [fwCommit]
@[simp] theorem sameMemory_fwAbort (s : State) : (fwAbort s).SameMemory s := by simp [fwAbort]
@[simp] theorem State.sameMemory_wakeService (s : State) : s.wakeService.SameMemory s := ⟨rfl, rfl⟩
@[simp] theorem sameMemory_mailboxesEmpty (s : State) : (mailboxesEmpty s).SameMemory s := by simp [mailboxesEmpty]
@[simp] theorem sameMemory_complexFailover (s : State) : (complexFailover s).SameMemory s := by simp [complexFailover]
@[simp] theorem State.sameMemory_dropOverdrive (s : State) : s.dropOverdrive.SameMemory s := by simp [State.dropOverdrive]
@[simp] theorem sameMemory_featCommit (s : State) : (featCommit s).SameMemory s := by simp [featCommit]
@[simp] theorem sameMemory_scaleReq (v : Word) (s : State) : (scaleReq v s).SameMemory s := by simp [scaleReq]
@[simp] theorem sameMemory_pwrLimit (v : Word) (s : State) : (pwrLimit v s).SameMemory s := ⟨rfl, rfl⟩
@[simp] theorem sameMemory_powerWindow (n : Nat) (temp mw : Word) (s : State) : (powerWindow n temp mw s).SameMemory s := ⟨rfl, rfl⟩
@[simp] theorem State.sameMemory_setDomain (s : State) (n : Nat) (x : Domain) : (s.setDomain n x).SameMemory s := ⟨rfl, rfl⟩
@[simp] theorem sameMemory_correctedError (a : Args) (s : State) : (correctedError a s).SameMemory s := by
  unfold correctedError
  extract_lets x aged x sys counted marked
  have same : marked.SameMemory s := ⟨rfl, rfl⟩
  clear_value marked
  split <;> simp [same]

@[simp] theorem sameMemory_errorRateThreshold (a : Args) (s : State) : (errorRateThreshold a s).SameMemory s := by
  fun_cases errorRateThreshold a s <;> simp

@[simp] theorem sameMemory_undervoltStep (n : Nat) (s : State) : (undervoltStep n s).SameMemory s := by simp [undervoltStep]
@[simp] theorem State.sameMemory_freshCoach (s : State) (k : Nat) : (s.freshCoach k).SameMemory s := by simp [State.freshCoach]
@[simp] theorem State.sameMemory_loseCoaches (s : State) (k j : Nat) : (s.loseCoaches k j).SameMemory s := ⟨rfl, rfl⟩
@[simp] theorem sameMemory_retireCoach (a : Args) (s : State) : (retireCoach a s).SameMemory s := by simp [retireCoach]
@[simp] theorem State.sameMemory_reopened (s : State) (g : Nat) : (s.reopened g).SameMemory s := by simp [State.reopened]
@[simp] theorem State.sameMemory_manageBogie (s : State) (a : Args) : (s.manageBogie a).SameMemory s := by
  simp only [State.manageBogie]
  split <;> simp

@[simp] theorem sameMemory_diagnosticsDone (g : Nat) (s : State) : (diagnosticsDone g s).SameMemory s := by simp [diagnosticsDone]
@[simp] theorem State.sameMemory_writeQueue (s : State) (off m : Nat) (v : Word) : (s.writeQueue off m v).SameMemory s := by simp [State.writeQueue]
@[simp] theorem State.sameMemory_writeLink (s : State) (off m : Nat) (v : Word) : (s.writeLink off m v).SameMemory s := by simp [State.writeLink]
@[simp] theorem State.sameMemory_writePeer (s : State) (off m : Nat) (v : Word) : (s.writePeer off m v).SameMemory s := by simp [State.writePeer]
@[simp] theorem State.sameMemory_submitConsist (s : State) : s.submitConsist.SameMemory s := by simp [State.submitConsist]
@[simp] theorem State.sameMemory_dropUndervolt (s : State) : s.dropUndervolt.SameMemory s := by simp [State.dropUndervolt]
@[simp] theorem State.sameMemory_writeIdentity (s : State) (off m : Nat) (v : Word) : (s.writeIdentity off m v).SameMemory s := by
  simp [State.writeIdentity]

@[simp] theorem State.sameMemory_writeEngine (s : State) (c : Option Nat) (off m : Nat) (v : Word) : (s.writeEngine c off m v).SameMemory s := by
  simp [State.writeEngine]

/-! #### Machine/Outside -/

@[simp] theorem State.sameMemory_pass (s : State) (t : Nat) : (s.pass t).SameMemory s := by simp [State.pass]
@[simp] theorem State.sameMemory_drawArgs (s : State) : s.drawArgs.2.SameMemory s := by simp [State.drawArgs]
@[simp] theorem State.sameMemory_chance (s : State) (ev : Instr) (a : Args) : (s.chance ev a).2.SameMemory s := by
  simp only [State.chance]
  split <;> simp

/-! #### Machine/Step -/

@[simp] theorem State.sameMemory_settleFetch (s : State) (g n : Nat) : (s.settleFetch g n).SameMemory s := by
  simp only [State.settleFetch]
  split <;> simp

end Sys2Proof.Machine
end

section

/-! # What writes memory in its canonical form

`State.MemoryWf s`: memory and the hosts' memory of s are in their canonical form. One rule for each function of the model that may write one of
them: it goes down to the writes of a byte, a list of bytes and a moved block, which keep the form by the laws of tables. -/

namespace Sys2Proof.Machine

/-- Both memories of s are in their canonical form. -/
@[simp] abbrev State.MemoryWf (s : State) : Prop := memWf s.mem = true ∧ memWf s.hostMem = true

theorem State.MemoryWf.of_same {s t : State} (h : s.MemoryWf) (e : t.SameMemory s) : t.MemoryWf := by
  rw [State.MemoryWf, e.1, e.2]; exact h

/-- The state of a pair that a `let` takes apart. -/
theorem State.MemoryWf.of_fst {α : Type} {p : State × α} {a : α} {t : State} (h : p.1.MemoryWf) (e : p = (t, a)) : t.MemoryWf := by
  subst e; exact h

theorem State.MemoryWf.ite {c : Prop} [Decidable c] {s t : State} (hs : s.MemoryWf) (ht : t.MemoryWf) : (if c then s else t).MemoryWf := by
  split
  · exact hs
  · exact ht

@[simp] theorem State.memoryWf_foldl {α : Type} (f : State → α → State) (hf : ∀ s a, s.MemoryWf → (f s a).MemoryWf) (l : List α) (s : State)
    (h : s.MemoryWf) : (l.foldl f s).MemoryWf :=
  List.foldlRecOn (motive := State.MemoryWf) l f h fun t ht a _ => hf t a ht

/-- A fold that can fail: each step keeps the form of the state that it had, if it had one. -/
theorem State.memoryWf_of_foldl {α : Type} {f : Option State → α → Option State}
    (hf : ∀ o a t, (∀ s, o = some s → s.MemoryWf) → f o a = some t → t.MemoryWf) (l : List α) (o : Option State)
    (ho : ∀ s, o = some s → s.MemoryWf) : ∀ t, l.foldl f o = some t → t.MemoryWf :=
  List.foldlRecOn (motive := fun o => ∀ t, o = some t → t.MemoryWf) l f ho fun o ho a _ t => hf o a t ho

theorem State.memoryWf_of_foldl_bind {α : Type} {f : State → α → Option State} (hf : ∀ s a t, s.MemoryWf → f s a = some t → t.MemoryWf)
    {l : List α} {s t : State} (hs : s.MemoryWf) (e : l.foldl (fun o a => o.bind fun s => f s a) (some s) = some t) : t.MemoryWf :=
  State.memoryWf_of_foldl (fun o a t ho e => by
    obtain ⟨r, hr, e⟩ := Option.bind_eq_some_iff.1 e
    exact hf r a t (ho r hr) e) l (some s) (by rintro _ ⟨⟩; exact hs) t e

@[simp] theorem memWf_setList (m : List Host.Cell) (a : Nat) (l : List Byte) (h : memWf m = true) : memWf (Tab.setList m unlisted a l) = true :=
  Tab.wf_setList l a h

/-! #### Machine/Ops -/

@[simp] theorem State.memoryWf_writeByte (s : State) (a : Nat) (b : Byte) (hs : s.MemoryWf) : (s.writeByte a b).MemoryWf :=
  ⟨memWf_writeByte s a b hs.1, hs.2⟩

@[simp] theorem State.memoryWf_writeBytes (s : State) (a : Nat) (l : List Byte) (hs : s.MemoryWf) : (s.writeBytes a l).MemoryWf :=
  ⟨memWf_writeBytes s a l hs.1, hs.2⟩

/-! #### Machine/Home -/

@[simp] theorem State.memoryWf_moveMem (s : State) (src dst n : Nat) (hs : s.MemoryWf) : (s.moveMem src dst n).MemoryWf :=
  ⟨memWf_moveMem s src dst n hs.1, hs.2⟩

@[simp] theorem State.memoryWf_writeLeaf (s : State) (key : Nat) (w : Word) (hs : s.MemoryWf) : (s.writeLeaf key w).MemoryWf := by
  simp [State.writeLeaf, hs]

@[simp] theorem State.memoryWf_applyBytes (s : State) (q : Src) (l : Leaf) (bytes : Tab Byte) (hs : s.MemoryWf) :
    (s.applyBytes q l bytes).MemoryWf := by
  have written : State.MemoryWf (bytes.foldl (fun s e => s.writeByte (l.phys e.1) e.2) s) :=
    State.memoryWf_foldl _ (fun s e h => State.memoryWf_writeByte _ _ _ h) _ _ hs
  simpa [State.applyBytes] using written

theorem State.memoryWf_of_guardUnit {s : State} {d ctx va : Nat} {l : Leaf} {s' : State} (hs : s.MemoryWf) (e : s.guardUnit d ctx va l = some s') :
    s'.MemoryWf := by
  simp only [State.guardUnit] at e
  repeat' split at e
  all_goals cases e
  all_goals simp [hs]

theorem State.memoryWf_of_snapGuard {s : State} {d ctx va : Nat} {l : Leaf} {s' : State} (hs : s.MemoryWf) (e : s.snapGuard d ctx va l = some s') :
    s'.MemoryWf :=
  State.memoryWf_of_foldl_bind (fun _ _ _ h e => State.memoryWf_of_guardUnit h e) hs e

theorem State.memoryWf_of_beforeWrite {s : State} {d : Nat} {q : Req} {l : Leaf} {s' : State} (hs : s.MemoryWf) (e : s.beforeWrite d q l = .ok s') :
    s'.MemoryWf := by
  simp only [State.beforeWrite] at e
  repeat' split at e
  all_goals cases e
  next r hr =>
    have guarded := State.memoryWf_of_foldl_bind (fun _ _ _ h e => State.memoryWf_of_snapGuard h e) hs hr
    simp [guarded]

theorem State.memoryWf_of_error_beforeWrite {s : State} {d : Nat} {q : Req} {l : Leaf} {s' : State} (hs : s.MemoryWf)
    (e : s.beforeWrite d q l = .error s') : s'.MemoryWf := by
  simp only [State.beforeWrite] at e
  repeat' split at e
  all_goals cases e
  case h_2 hb => simp [State.sameMemory_of_startBreak hb, hs]
  all_goals simp [hs]

@[simp] theorem State.memoryWf_commitVersion (s : State) (d : Nat) (q : Req) (l : Leaf) (bytes : Tab Byte) (v : Nat) (expected : Word)
    (bad : List Nat) (hs : s.MemoryWf) : (s.commitVersion d q l bytes v expected bad).MemoryWf := by
  simp only [State.commitVersion]
  (repeat' split) <;> simp [hs]

@[simp] theorem State.memoryWf_serveStore (s : State) (d : Nat) (q : Req) (bytes : Tab Byte) (hs : s.MemoryWf) :
    (s.serveStore d q bytes).MemoryWf := by
  simp only [State.serveStore]
  split
  · simp [hs]
  · split
    · simp [hs]
    · split
      · simp [hs]
      · split
        · next r hr => exact State.memoryWf_of_error_beforeWrite hs hr
        · next r hr =>
          have before := State.memoryWf_of_beforeWrite hs hr
          (repeat' split) <;> simp [before]

@[simp] theorem State.memoryWf_serveAtomic (s : State) (d : Nat) (q : Req) (va n : Nat) (fn : AtomF) (x y : Word) (hs : s.MemoryWf) :
    (s.serveAtomic d q va n fn x y).MemoryWf := by
  simp only [State.serveAtomic]
  split
  · simp [hs]
  · split
    · simp [hs]
    · split
      · simp [hs]
      · split
        · simp [hs]
        · split
          · next r hr => exact State.memoryWf_of_error_beforeWrite hs hr
          · next r hr =>
            have before := State.memoryWf_of_beforeWrite hs hr
            (repeat' split) <;> simp [before]

@[simp] theorem memoryWf_homeStore (d : Nat) (q : Req) (s : State) (hs : s.MemoryWf) : (homeStore d q s).MemoryWf := by
  simp only [homeStore]
  split
  · next bytes _ _ _ _ =>
    split
    · simp [hs, memWf_foldl]
    · split
      · exact State.memoryWf_foldl _ (fun s e h => State.memoryWf_writeByte _ _ _ h) _ _ hs
      · simp [hs]
  · exact hs

@[simp] theorem memoryWf_atomicExecute (d : Nat) (q : Req) (s : State) (hs : s.MemoryWf) : (atomicExecute d q s).MemoryWf := by
  simp only [atomicExecute]
  split <;> simp [hs]

@[simp] theorem State.memoryWf_serve (s : State) (d : Nat) (q : Req) (hs : s.MemoryWf) : (s.serve d q).MemoryWf := by
  simp only [State.serve]
  split <;> simp [hs]

@[simp] theorem State.memoryWf_replay (s : State) (d ctx va n : Nat) (hs : s.MemoryWf) : (s.replay d ctx va n).MemoryWf := by
  simp only [State.replay]
  exact State.memoryWf_foldl _ (fun s q h => State.memoryWf_serve _ _ _ h) _ _ (by simp [hs])

@[simp] theorem memoryWf_parkRepair (d ctx va : Nat) (can : Bool) (s : State) (hs : s.MemoryWf) : (parkRepair d ctx va can s).MemoryWf := by
  simp only [parkRepair]
  (repeat' split) <;> simp [hs]

@[simp] theorem memoryWf_unitPoison (d ctx va : Nat) (s : State) (hs : s.MemoryWf) : (unitPoison d ctx va s).MemoryWf := by
  simp only [unitPoison]
  split <;> simp [hs]

@[simp] theorem memoryWf_faultQueueResend (d : Nat) (q : Req) (s : State) (hs : s.MemoryWf) : (faultQueueResend d q s).MemoryWf := by
  simp [faultQueueResend, hs]

@[simp] theorem memoryWf_cowCopyDone (d ctx page : Nat) (s : State) (hs : s.MemoryWf) : (cowCopyDone d ctx page s).MemoryWf := by
  simp only [cowCopyDone]
  split
  · refine State.memoryWf_replay _ _ _ _ _ (State.MemoryWf.of_same ?_ (State.sameMemory_returnFrames ..))
    refine State.memoryWf_foldl _ (fun s i h => ?_) _ _ (by simp [hs])
    (repeat' split) <;> simp [h]
  · exact hs

/-! #### Machine/Consist -/

theorem State.memoryWf_of_copyChained {s : State} {d ctx : Nat} {c : Consist} {o : Nat} {u : SnapUnit} {s' : State} (hs : s.MemoryWf)
    (e : s.copyChained d ctx c o u = some s') : s'.MemoryWf := by
  unfold State.copyChained at e
  split at e
  · cases e
  · extract_lets k src taken written marked at e
    have kept : written.MemoryWf := State.memoryWf_writeBytes _ _ _ hs
    have same : marked.SameMemory written := by simp [marked]
    clear_value marked
    rw [← Option.some.inj e]
    exact kept.of_same (State.SameMemory.trans (State.sameMemory_putUnit ..) same)

theorem State.memoryWf_of_chainGuard {s : State} {d ctx va : Nat} {l : Leaf} {s' : State} (hs : s.MemoryWf) (e : s.chainGuard d ctx va l = some s') :
    s'.MemoryWf := by
  simp only [State.chainGuard] at e
  split at e
  · cases e; exact hs
  · exact State.memoryWf_of_foldl_bind (fun _ _ _ h e => State.memoryWf_of_copyChained h e) hs e

@[simp] theorem memoryWf_chainApply (a : Args) (s : State) (hs : s.MemoryWf) : (chainApply a s).MemoryWf := by
  have guarded : ∀ (l : Leaf) (t : State), (if ((s.consist a.c a.n).next a.d).isNone = true then s.chainGuard a.d a.c (opVa a.req.op) l
      else some s) = some t → t.MemoryWf := fun l t e => by
    split at e
    · exact State.memoryWf_of_chainGuard hs e
    · cases e; exact hs
  simp only [chainApply]
  (repeat' split) <;> simp [hs]
  · next e => simp [guarded _ _ e]
  · next e _ => simp [guarded _ _ e]

theorem State.memoryWf_of_saveTail {s : State} {ctx k : Nat} {s' : State} (hs : s.MemoryWf) (e : s.saveTail ctx k = some s') : s'.MemoryWf := by
  refine State.memoryWf_of_foldl_bind (fun r u t h e => ?_) hs e
  split at e
  · split at e
    · exact State.memoryWf_of_chainGuard h e
    · cases e; exact h
  · cases e; exact h

@[simp] theorem memoryWf_uncoupleDone (ctx k : Nat) (s : State) (hs : s.MemoryWf) : (uncoupleDone ctx k s).MemoryWf := by
  have saved : ∀ t : State, (if ((s.consist ctx k).next (s.consist ctx k).leaving).isNone = true then s.saveTail ctx k else some s) = some t →
      t.MemoryWf := fun t e => by
    split at e
    · exact State.memoryWf_of_saveTail hs e
    · cases e; exact hs
  unfold uncoupleDone
  extract_lets c m passed again
  split
  · exact hs
  · split
    · split
      · simp [again, hs]
      · next t e => simp [saved t e]
    · simp [again, hs]

/-! #### Machine/Release -/

@[simp] theorem State.memoryWf_writeSlot (s : State) (ctx g seed : Nat) (hs : s.MemoryWf) : (s.writeSlot ctx g seed).MemoryWf :=
  State.memoryWf_foldl _ (fun _ _ h => State.memoryWf_writeBytes _ _ _ h) _ _ hs

/-! #### Machine/Task -/

@[simp] theorem State.memoryWf_saveBogie (s : State) (g ctx streak : Nat) (hs : s.MemoryWf) : (s.saveBogie g ctx streak).MemoryWf := by
  unfold State.saveBogie
  extract_lets b v die stored idle c marked written
  have kept : marked.MemoryWf := by simp [marked, idle, stored, hs]
  clear_value marked
  have kept : written.MemoryWf := State.memoryWf_writeSlot _ _ _ _ kept
  exact kept.of_same (State.sameMemory_with_freeCtr _ _)

@[simp] theorem memoryWf_quarantineMove (g : Nat) (s : State) (hs : s.MemoryWf) : (quarantineMove g s).MemoryWf := by
  unfold quarantineMove
  extract_lets b
  split
  · simp [hs]
  · refine State.MemoryWf.ite (by simp [hs]) (State.MemoryWf.ite (by simp [hs]) ?_)
    split
    · simp [hs]
    · extract_lets saved c moved c' ceilings capped b' drained
      have kept : saved.MemoryWf := State.memoryWf_saveBogie _ _ _ _ hs
      have kept : moved.MemoryWf := kept.of_same (State.sameMemory_setCtx ..)
      have kept : capped.MemoryWf := kept.of_same (State.sameMemory_setCtx ..)
      have kept : drained.MemoryWf := kept.of_same (State.SameMemory.trans (State.sameMemory_endDrains ..) (State.sameMemory_setBogie ..))
      exact kept.of_same (State.sameMemory_add ..)

/-! #### Machine/Copy -/

@[simp] theorem State.memoryWf_storeNow (s : State) (q : Src) (ctx va : Nat) (l : List Byte) (hs : s.MemoryWf) :
    (s.storeNow q ctx va l).MemoryWf := by
  simp only [State.storeNow]
  (repeat' split) <;> simp [hs]

@[simp] theorem memoryWf_copyAppend (d : Nat) (q : Req) (s : State) (hs : s.MemoryWf) : (copyAppend d q s).MemoryWf := by
  simp only [copyAppend]
  (repeat' split) <;> simp [hs]

/-! #### Machine/Translate -/

theorem State.memoryWf_of_saveUnits {s : State} {ctx : Nat} {p : Nat × Leaf} {s' : State} (hs : s.MemoryWf) (e : s.saveUnits ctx p = some s') :
    s'.MemoryWf := by
  refine State.memoryWf_of_foldl (fun o i t ho ht => ?_) _ _ (by rintro _ ⟨⟩; exact hs) _ e
  split at ht
  · cases ht
  · next r hr =>
    split at ht
    · exact State.memoryWf_of_chainGuard (ho _ rfl) ht
    · split at ht
      · refine State.memoryWf_of_foldl (fun o d t ho ht => ?_) _ _ (by rintro _ ⟨⟩; exact ho _ rfl) _ ht
        split at ht
        · cases ht
        · exact State.memoryWf_of_snapGuard (ho _ rfl) ht
      · exact State.memoryWf_of_snapGuard (ho _ rfl) ht

@[simp] theorem memoryWf_translationRequest (kind : Nat) (r : BitVec 256) (s : State) (hs : s.MemoryWf) : (translationRequest kind r s).MemoryWf := by
  simp only [translationRequest]
  split
  · simp [hs]
  · split
    · simp [hs]
    · split
      · simp [hs]
      · split
        · simp [hs]
        · split
          · simp [hs]
          · next r hr =>
            have saved := State.memoryWf_of_foldl (fun o e t ho ht => by
              split at ht
              · cases ht
              · exact State.memoryWf_of_saveUnits (ho _ rfl) ht) _ _ (by rintro _ ⟨⟩; exact hs) _ hr
            refine State.memoryWf_foldl _ (fun s e h => ?_) _ _ (by simp [saved])
            split <;> simp [h]

theorem State.memoryWf_of_saveChanged {s : State} {ctx page : Nat} {s' : State} (hs : s.MemoryWf) (e : s.saveChanged ctx page = some s') :
    s'.MemoryWf := by
  simp only [State.saveChanged] at e
  split at e
  · cases e; exact hs
  · split at e
    · cases e; exact hs
    · split at e
      · cases e
      · exact State.memoryWf_of_saveUnits hs e

@[simp] theorem State.memoryWf_endChange (s : State) (o : PageOp) (hs : s.MemoryWf) : (s.endChange o).MemoryWf := by
  simp only [State.endChange]
  (repeat' split) <;> simp [hs]

@[simp] theorem memoryWf_invalidateAck (a : Args) (s : State) (hs : s.MemoryWf) : (invalidateAck a s).MemoryWf := by
  have changed : ∀ (t t' : State) (o : PageOp), t.MemoryWf →
      (if t.breaking o.ctx o.page = true then none else t.saveChanged o.ctx o.page) = some t' → t'.MemoryWf := fun t t' o ht e => by
    split at e
    · cases e
    · exact State.memoryWf_of_saveChanged ht e
  unfold invalidateAck
  split
  · exact hs
  · extract_lets b passed bound o' marked
    have kept : marked.MemoryWf := hs
    (repeat' split) <;> simp [hs, kept]
    next t e => simp [changed _ t _ kept e]

@[simp] theorem memoryWf_migrateCopyDone (ctx page : Nat) (s : State) (hs : s.MemoryWf) : (migrateCopyDone ctx page s).MemoryWf := by
  fun_cases migrateCopyDone ctx page s
  case case1 o l _ _ r drawn e _ => simp [hs.of_same (State.SameMemory.of_snd (State.sameMemory_draw s) e)]
  case case2 o l _ _ r drawn e _ _ => simp [hs.of_same (State.SameMemory.of_snd (State.sameMemory_draw s) e)]
  case case3 o l _ _ r drawn e f saved es _ n broad moved mapped marked x mine =>
    have kept : saved.MemoryWf :=
      State.memoryWf_of_saveChanged (hs.of_same (State.SameMemory.of_snd (State.sameMemory_draw s) e)) es
    have kept : mapped.MemoryWf := State.memoryWf_writeLeaf _ _ _ (State.memoryWf_moveMem _ _ _ _ (by simp [broad, kept]))
    have kept : marked.MemoryWf := by simpa [marked] using kept
    exact State.memoryWf_foldl _ (fun s q h => State.memoryWf_serve _ _ _ h) _ _ (by simp [kept])
  case case4 => exact hs

/-! #### Machine/Snapshot -/

@[simp] theorem State.memoryWf_replayUnit (s : State) (c : Nat) (u : SnapUnit) (hs : s.MemoryWf) : (s.replayUnit c u).MemoryWf := by
  refine State.memoryWf_foldl _ (fun s d h => ?_) _ _ hs
  split <;> simp [h]

@[simp] theorem State.memoryWf_unitDrained (s : State) (c : Nat) (u : SnapUnit) (hs : s.MemoryWf) : (s.unitDrained c u).MemoryWf := by
  simp only [State.unitDrained]
  (repeat' split) <;> simp [hs]

@[simp] theorem memoryWf_drainUnit (c d h : Nat) (s : State) (hs : s.MemoryWf) : (drainUnit c d h s).MemoryWf := by
  simp only [drainUnit]
  split
  · exact hs
  · split
    · split <;> simp [hs]
    · split
      · simp [hs]
      · next t e =>
        have sent := hs.of_same (State.sameMemory_of_snapSend e)
        split <;> simp [sent]

@[simp] theorem State.memoryWf_snapAnswer (s : State) (c id code : Nat) (hs : s.MemoryWf) : (s.snapAnswer c id code).MemoryWf := by
  have drained : ∀ (t : State) (l : List SnapUnit), t.MemoryWf →
      (l.foldl (fun s u => s.unitDrained c { (s.snapUnit c u.va).getD u with next := 0 }) t).MemoryWf :=
    fun t l h => State.memoryWf_foldl _ (fun s u h => State.memoryWf_unitDrained _ _ _ h) _ _ h
  simp only [State.snapAnswer]
  (repeat' split) <;> simp [hs, drained]

/-! #### Machine/Context -/

@[simp] theorem memoryWf_freezeComplete (c : Nat) (s : State) (hs : s.MemoryWf) : (freezeComplete c s).MemoryWf := by
  have saved : ∀ l : List Nat, (l.foldl (fun s g =>
      if (s.bogie g).stack.isEmpty ∧ (s.fifoOf g).isEmpty ∧ ((s.bogie g).scale.isEmpty ∨ (Tab.find (s.ctx c).saved g).isSome) then s
      else s.saveBogie g c (s.bogie g).streak) s).MemoryWf :=
    fun l => State.memoryWf_foldl _ (fun s g h => by split <;> simp [h]) _ _ hs
  simp only [freezeComplete]
  split
  · exact hs
  · split
    · simp [hs]
    · exact State.MemoryWf.of_same (saved _) (State.SameMemory.trans (State.sameMemory_done ..) ⟨rfl, rfl⟩)

@[simp] theorem memoryWf_scrubDone (c : Nat) (s : State) (hs : s.MemoryWf) : (scrubDone c s).MemoryWf := by
  have unmapped : ∀ (t : State) (l : List Leaf), t.MemoryWf → (l.foldl (fun s l => s.writeLeaf l.key (l.word false)) t).MemoryWf :=
    fun t l h => State.memoryWf_foldl _ (fun s l h => State.memoryWf_writeLeaf _ _ _ h) _ _ h
  simp only [scrubDone]
  (repeat' split) <;> simp [hs, unmapped]

/-! #### Machine/Queue -/

@[simp] theorem State.memoryWf_queueStores (s : State) (q : Queue) (l : List (Nat × List Byte)) (after : List Happening) (hs : s.MemoryWf) :
    (s.queueStores q l after).MemoryWf := by
  simp only [State.queueStores]
  split
  · have stored : memWf (l.foldl (fun m e => Tab.setList m unlisted (hostKey q.pasid e.1) e.2) s.hostMem) = true :=
      List.foldlRecOn (motive := fun m => memWf m = true) l _ hs.2 fun m hm e _ => memWf_setList _ _ _ hm
    simp [hs, stored]
  · simp [hs]

@[simp] theorem State.memoryWf_noteFail (s : State) (n status cause : Nat) (hs : s.MemoryWf) : (s.noteFail n status cause).MemoryWf := by
  simp [State.noteFail, hs]

@[simp] theorem State.memoryWf_retireBy (s : State) (n : Nat) (l : List (Nat × List Byte)) (hs : s.MemoryWf) : (s.retireBy n l).MemoryWf := by
  simp [State.retireBy, hs]

@[simp] theorem State.memoryWf_retireRing (s : State) (n status cause : Nat) (hs : s.MemoryWf) : (s.retireRing n status cause).MemoryWf := by
  simp only [State.retireRing]
  split <;> simp [hs]

@[simp] theorem State.memoryWf_retire (s : State) (n status cause : Nat) (hs : s.MemoryWf) : (s.retire n status cause).MemoryWf := by
  simp only [State.retire]
  (repeat' split) <;> simp [hs]

@[simp] theorem State.memoryWf_takePacketAt (s : State) (n va : Nat) (p : Vec) (hs : s.MemoryWf) : (s.takePacketAt n va p).MemoryWf := by
  simp only [State.takePacketAt]
  (repeat' split) <;> simp [hs]

@[simp] theorem State.memoryWf_fetchNext (s : State) (n : Nat) (hs : s.MemoryWf) : (s.fetchNext n).MemoryWf := by
  simp only [State.fetchNext]
  (repeat' split) <;> simp [hs]

@[simp] theorem memoryWf_mapperBind (a : Args) (s : State) (hs : s.MemoryWf) : (mapperBind a s).MemoryWf := by
  simp only [mapperBind]
  (repeat' split) <;> simp [hs]

@[simp] theorem memoryWf_mapperUnbind (n : Nat) (idle : Bool) (s : State) (hs : s.MemoryWf) : (mapperUnbind n idle s).MemoryWf := by
  simp only [mapperUnbind]
  (repeat' split) <;> simp [hs]

@[simp] theorem State.memoryWf_finishPacket (s : State) (a : Args) (status cause : Nat) (hs : s.MemoryWf) :
    (s.finishPacket a status cause).MemoryWf := by
  simp only [State.finishPacket]
  (repeat' split) <;> simp [hs]

theorem State.memoryWf_of_queueAnswer {s : State} {id code : Nat} {s' : State} (hs : s.MemoryWf) (e : s.queueAnswer id code = some s') :
    s'.MemoryWf := by
  simp only [State.queueAnswer] at e
  repeat' split at e
  all_goals cases e
  all_goals simp [hs]

@[simp] theorem State.memoryWf_scrubbedPacket (s : State) (a : Args) (hs : s.MemoryWf) : (s.scrubbedPacket a).MemoryWf := by
  simp [State.scrubbedPacket, hs]

@[simp] theorem State.memoryWf_packetLoad (s : State) (a : Args) (ev : Instr) (hs : s.MemoryWf) : (s.packetLoad a ev).1.MemoryWf := by
  simp only [State.packetLoad]
  (repeat' split) <;> simp [hs]

@[simp] theorem memoryWf_nop (a : Args) (s : State) (hs : s.MemoryWf) : (nop a s).MemoryWf := by simp only [nop]; (repeat' split) <;> simp [hs]
@[simp] theorem memoryWf_launchTask (a : Args) (s : State) (hs : s.MemoryWf) : (launchTask a s).MemoryWf := by
  simp only [launchTask]
  (repeat' split) <;> simp [hs]

@[simp] theorem memoryWf_queueCopy (a : Args) (s : State) (hs : s.MemoryWf) : (queueCopy a s).MemoryWf := by
  simp only [queueCopy]
  (repeat' split) <;> simp [hs]

@[simp] theorem memoryWf_signalStore (a : Args) (s : State) (hs : s.MemoryWf) : (signalStore a s).MemoryWf := by
  simp only [signalStore]
  (repeat' split) <;> simp [hs]

@[simp] theorem memoryWf_signalAdd (a : Args) (s : State) (hs : s.MemoryWf) : (signalAdd a s).MemoryWf := by
  simp only [signalAdd]
  (repeat' split) <;> simp [hs]

@[simp] theorem memoryWf_signalTrigger (a : Args) (s : State) (hs : s.MemoryWf) : (signalTrigger a s).MemoryWf := by
  simp only [signalTrigger]
  (repeat' split) <;> simp [hs]

@[simp] theorem memoryWf_armTrigger (a : Args) (s : State) (hs : s.MemoryWf) : (armTrigger a s).MemoryWf := by
  simp only [armTrigger]
  (repeat' split) <;> simp [hs]

@[simp] theorem memoryWf_wait (a : Args) (s : State) (hs : s.MemoryWf) : (wait a s).MemoryWf := by
  unfold wait
  extract_lets begun d3 started late
  split
  · simp [begun, hs]
  · have loaded : (started.packetLoad a .wait).1.MemoryWf := by simp [started, begun, hs]
    split
    · next e =>
      have kept := loaded.of_fst e
      split <;> simp [started, begun, hs, kept]
    · next e =>
      have kept := loaded.of_fst e
      (repeat' split) <;> simp [kept]

@[simp] theorem memoryWf_waitTimeout (a : Args) (s : State) (hs : s.MemoryWf) : (waitTimeout a s).MemoryWf := by
  simp only [waitTimeout]
  split <;> simp [hs]

@[simp] theorem memoryWf_skipIf (a : Args) (s : State) (hs : s.MemoryWf) : (skipIf a s).MemoryWf := by
  unfold skipIf
  extract_lets begun d3
  split
  · simp [begun, hs]
  · have loaded : (begun.packetLoad a .skipIf).1.MemoryWf := by simp [begun, hs]
    split
    · next e => exact loaded.of_fst e
    · next e =>
      have kept := loaded.of_fst e
      split <;> simp [kept]

@[simp] theorem memoryWf_jump (a : Args) (s : State) (hs : s.MemoryWf) : (jump a s).MemoryWf := by simp only [jump]; (repeat' split) <;> simp [hs]
@[simp] theorem memoryWf_call (a : Args) (s : State) (hs : s.MemoryWf) : (call a s).MemoryWf := by simp only [call]; (repeat' split) <;> simp [hs]
@[simp] theorem memoryWf_returnList (a : Args) (s : State) (hs : s.MemoryWf) : (returnList a s).MemoryWf := by
  simp only [returnList]
  (repeat' split) <;> simp [hs]

@[simp] theorem memoryWf_snapshotCut (a : Args) (s : State) (hs : s.MemoryWf) : (snapshotCut a s).MemoryWf := by
  simp only [snapshotCut]
  (repeat' split) <;> simp [hs]
  next e =>
    have cut := State.MemoryWf.of_same (s := s.begin' a) (by simp [hs]) (State.sameMemory_of_snapshotCut e)
    simp [cut]

@[simp] theorem memoryWf_setCeilings (a : Args) (s : State) (hs : s.MemoryWf) : (setCeilings a s).MemoryWf := by
  simp only [setCeilings]
  (repeat' split) <;> simp [hs]

@[simp] theorem State.memoryWf_register (s : State) (a : Args) (k : Nat) (h : Option Header) (hs : s.MemoryWf) : (s.register a k h).MemoryWf := by
  simp only [State.register]
  split <;> simp [hs]

@[simp] theorem memoryWf_registerKernel (a : Args) (s : State) (hs : s.MemoryWf) : (registerKernel a s).MemoryWf := by
  simp only [registerKernel]
  (repeat' split) <;> simp [hs]

@[simp] theorem memoryWf_launchGroup (a : Args) (s : State) (hs : s.MemoryWf) : (launchGroup a s).MemoryWf := by
  unfold launchGroup
  extract_lets begun block weights
  have kept : begun.MemoryWf := by simp [begun, hs]
  refine State.MemoryWf.ite (by simp [kept]) (State.MemoryWf.ite (by simp [kept]) (State.MemoryWf.ite (by simp [kept])
    (State.MemoryWf.ite (by simp [kept]) ?_)))
  clear_value begun block weights
  cases begun.readRange a.c block 64 with
  | bad => simp [kept]
  | wait => simp [kept]
  | ok l =>
    dsimp only
    refine State.MemoryWf.ite (by simp [kept]) (State.MemoryWf.ite (by simp [kept]) (State.MemoryWf.ite (by simp [kept]) ?_))
    split
    · simp [kept]
    · simp [kept]
    · (repeat' refine State.MemoryWf.ite (by simp [kept]) ?_)
      simp [kept]

/-! #### Machine/Fabric -/

@[simp] theorem State.memoryWf_proxyLocal (s : State) (q : Req) (hs : s.MemoryWf) : (s.proxyLocal q).1.MemoryWf := by
  simp only [State.proxyLocal]
  (repeat' split) <;> simp [hs]

@[simp] theorem State.memoryWf_issueLane (s : State) (d lane fuel : Nat) (hs : s.MemoryWf) : (s.issueLane d lane fuel).MemoryWf := by
  induction fuel generalizing s with
  | zero => exact hs
  | succ k ih =>
    simp only [State.issueLane]
    split
    · exact hs
    · split
      · simp [hs]
      · exact ih _ (by simp [hs])

@[simp] theorem memoryWf_proxyAtomic (d : Nat) (q : Req) (s : State) (hs : s.MemoryWf) : (proxyAtomic d q s).MemoryWf := by
  simp only [proxyAtomic]
  (repeat' split) <;> simp [hs]

@[simp] theorem State.memoryWf_remoteEnd (s : State) (r : Remote) (val : Word) (code : Nat) (pkt : Vec) (hs : s.MemoryWf) :
    (s.remoteEnd r val code pkt).MemoryWf := by
  simp only [State.remoteEnd]
  split <;> simp [hs]

@[simp] theorem memoryWf_remoteAcknowledgement (n code : Nat) (val : Word) (pkt : Vec) (s : State) (hs : s.MemoryWf) :
    (remoteAcknowledgement n code val pkt s).MemoryWf := by
  simp only [remoteAcknowledgement]
  split <;> simp [hs]

@[simp] theorem memoryWf_remoteTimeout (d m seq : Nat) (s : State) (hs : s.MemoryWf) : (remoteTimeout d m seq s).MemoryWf := by
  simp only [remoteTimeout]
  split <;> simp [hs]

/-! #### Machine/System -/

@[simp] theorem memoryWf_moduleReset (s : State) (hs : s.MemoryWf) : (moduleReset s).MemoryWf := by simp [moduleReset, hs]
@[simp] theorem State.memoryWf_moveBytes (s : State) (src dst n : Nat) (hs : s.MemoryWf) : (s.moveBytes src dst n).MemoryWf := by
  simp [State.moveBytes, hs]

@[simp] theorem State.memoryWf_moveTable (s : State) (d level f : Nat) (w : Word) (hs : s.MemoryWf) : (s.moveTable d level f w).MemoryWf := by
  unfold State.moveTable
  extract_lets new pointed moved
  have kept : pointed.MemoryWf := State.memoryWf_foldl _ (fun s e h => by split <;> simp [h]) _ _ hs
  have kept : moved.MemoryWf := State.memoryWf_moveMem _ _ _ _ kept
  clear_value moved
  exact ⟨kept.1, kept.2⟩

theorem State.memoryWf_of_pullTables {s : State} {d top fuel : Nat} {s' : State} (hs : s.MemoryWf) (e : s.pullTables d top fuel = some s') :
    s'.MemoryWf := by
  induction fuel generalizing s with
  | zero =>
    unfold State.pullTables at e
    split at e <;> cases e
    exact hs
  | succ k ih =>
    unfold State.pullTables at e
    split at e
    · cases e; exact hs
    · obtain ⟨f, -, e⟩ := Option.bind_eq_some_iff.1 e
      exact ih (State.memoryWf_moveTable _ _ _ _ _ hs) e

@[simp] theorem State.memoryWf_moveFrames (s : State) (l : Leaf) (f : Nat) (hs : s.MemoryWf) : (s.moveFrames l f).MemoryWf := by
  unfold State.moveFrames
  extract_lets units mine dies moved
  have kept : moved.MemoryWf := State.memoryWf_foldl _ (fun s m h => State.memoryWf_writeLeaf _ _ _ h) _ _ hs
  refine State.memoryWf_foldl _ (fun s d h => ?_) _ _ kept
  exact State.MemoryWf.of_same (State.memoryWf_moveBytes s _ _ _ h) ⟨rfl, rfl⟩

theorem State.memoryWf_of_pullPages {s : State} {d top fuel : Nat} {s' : State} (hs : s.MemoryWf) (e : s.pullPages d top fuel = some s') :
    s'.MemoryWf := by
  induction fuel generalizing s with
  | zero =>
    unfold State.pullPages at e
    extract_lets out at e
    split at e <;> cases e
    exact hs
  | succ k ih =>
    unfold State.pullPages at e
    extract_lets out at e
    split at e
    · cases e; exact hs
    · obtain ⟨f, -, e⟩ := Option.bind_eq_some_iff.1 e
      exact ih (State.memoryWf_moveFrames _ _ _ hs) e

theorem State.memoryWf_of_pullCopies {s : State} {d top : Nat} {s' : State} (hs : s.MemoryWf) (e : s.pullCopies d top = some s') : s'.MemoryWf := by
  refine State.memoryWf_of_foldl_bind (fun r x t h e => ?_) hs e
  obtain ⟨f, -, rfl⟩ := Option.map_eq_some_iff.1 e
  simp [h]

theorem State.memoryWf_of_pullIn {s : State} {d top : Nat} {s' : State} (hs : s.MemoryWf) (e : s.pullIn d top = some s') : s'.MemoryWf := by
  simp only [State.pullIn] at e
  split at e
  · cases e
  · obtain ⟨t, e, copies⟩ := Option.bind_eq_some_iff.1 e
    obtain ⟨r, tables, pages⟩ := Option.bind_eq_some_iff.1 e
    exact State.memoryWf_of_pullCopies (State.memoryWf_of_pullPages (State.memoryWf_of_pullTables hs tables) pages) copies

@[simp] theorem memoryWf_retireChannel (a : Args) (s : State) (hs : s.MemoryWf) : (retireChannel a s).MemoryWf := by
  simp only [retireChannel]
  split
  · simp [hs]
  · split
    · exact hs
    · split
      · next e =>
        have pulled := State.memoryWf_of_pullIn (by simp [hs]) e
        simp [pulled]
      · simp [hs]

@[simp] theorem memoryWf_unitRetire (a : Args) (s : State) (hs : s.MemoryWf) : (unitRetire a s).MemoryWf := by
  simp only [unitRetire]
  (repeat' split) <;> simp [hs]

@[simp] theorem State.memoryWf_submitTranslation (s : State) (hs : s.MemoryWf) : s.submitTranslation.MemoryWf := by simp [State.submitTranslation, hs]
@[simp] theorem memoryWf_registerWrite (c off m : Nat) (v : Word) (s : State) (hs : s.MemoryWf) : (registerWrite c off m v s).MemoryWf := by
  unfold registerWrite
  split
  · exact hs
  · extract_lets v in' src typed posted
    have kept : typed.MemoryWf := hs
    have kept' : posted.MemoryWf := hs
    (repeat' split) <;> simp [hs, kept, kept']

/-! #### Machine/Finish -/

@[simp] theorem State.memoryWf_firmwareAnswer (s : State) (id : Nat) (val : Word) (code : Nat) (hs : s.MemoryWf) :
    (s.firmwareAnswer id val code).MemoryWf := by
  simp only [State.firmwareAnswer, Option.orElse_eq_or]
  split
  · exact hs
  · split
    · next e =>
      rcases Option.or_eq_some_iff.1 e with e | ⟨-, e⟩
      · exact hs.of_same (State.sameMemory_of_fwNext e)
      · exact State.memoryWf_of_queueAnswer hs e
    · exact hs

@[simp] theorem State.memoryWf_hartAnswer (s : State) (d h id : Nat) (val : Word) (code : Nat) (hs : s.MemoryWf) :
    (s.hartAnswer d h id val code).MemoryWf := by
  simp only [State.hartAnswer]
  split
  · simp [hs]
  · split
    · next e => exact hs.of_same (State.sameMemory_of_copyAnswer e)
    · simp [hs]

@[simp] theorem memoryWf_storePerformed (a : Args) (s : State) (hs : s.MemoryWf) : (storePerformed a s).MemoryWf := by
  simp only [storePerformed]
  split <;> simp [hs]

end Sys2Proof.Machine
end

section

/-! # What words and events do to memory

A word on a task or an engine hart leaves both memories as they were: what it stores is under way until its home applies it. An event is one of
the functions above. -/

namespace Sys2Proof.Machine

theorem State.sameMemory_hartWord {s : State} {i : Instr} {d h : Nat} {body : Except Stop State} (hb : ∀ t, body = .ok t → t.SameMemory s) :
    (s.hartWord i d h body).SameMemory s := by
  unfold State.hartWord
  split
  · simp
  · split
    · exact hb _ rfl
    · simp
    · simp

theorem sameMemory_of_taskWord {i : Instr} {body : State → Nat → Bogie → Frame → Except Stop BRes} {s t : State}
    (e : taskWord i body s = .next t) : t.SameMemory s := by
  unfold taskWord at e
  split at e
  · split at e <;> cases e
    simp
  · cases e
    simp

theorem sameMemory_of_agentWord {i : Instr} {body : State → Nat → Bogie → Frame → Except Stop BRes}
    {hbody : State → Nat → Nat → Except Stop State} {s t : State} (hb : ∀ d h t, hbody s d h = .ok t → t.SameMemory s)
    (e : agentWord i body hbody s = .next t) : t.SameMemory s := by
  unfold agentWord at e
  split at e
  · split at e <;> cases e
    simp
  · cases e
    exact State.sameMemory_hartWord (hb _ _)

theorem sameMemory_of_scalarWord {i : Instr} {f : Cpu → Except Stop Cpu} {s t : State} (e : scalarWord i f s = .next t) : t.SameMemory s := by
  refine sameMemory_of_agentWord (fun d h t e => ?_) e
  cases hf : f (s.hart d h).cpu with
  | ok c => rw [hf] at e; cases e; simp
  | error r => rw [hf] at e; cases e

theorem sameMemory_of_hintWord {i : Instr} {f : Prefix → Prefix} {s t : State} (e : hintWord i f s = .next t) : t.SameMemory s := by
  refine sameMemory_of_agentWord (fun d h t e => ?_) e
  cases e
  simp

theorem sameMemory_of_fetchFault {code val : Nat} {addr : Word} {s t : State} (e : fetchFault code addr val s = .next t) : t.SameMemory s := by
  unfold fetchFault at e
  (repeat' split at e) <;> cases e <;> simp

theorem sameMemory_of_vectorTo {i d k w lane} {s t : State} (e : vectorTo i d k w lane s = .next t) : t.SameMemory s :=
  sameMemory_of_taskWord e

theorem sameMemory_of_maskTo {i d k w c} {s t : State} (e : maskTo i d k w c s = .next t) : t.SameMemory s := sameMemory_of_taskWord e

theorem sameMemory_of_scalarTo {i d v} {s t : State} (e : scalarTo i d v s = .next t) : t.SameMemory s := sameMemory_of_taskWord e

theorem sameMemory_of_floatBinary {i d a b k q op} {s t : State} (e : floatBinary i d a b k q op s = .next t) : t.SameMemory s :=
  sameMemory_of_vectorTo e

theorem sameMemory_of_floatFused {i d a b k q op} {s t : State} (e : floatFused i d a b k q op s = .next t) : t.SameMemory s :=
  sameMemory_of_vectorTo e

theorem sameMemory_of_floatMinMax {i d a b k q max} {s t : State} (e : floatMinMax i d a b k q max s = .next t) : t.SameMemory s :=
  sameMemory_of_vectorTo e

theorem sameMemory_of_floatUnary {i d a k q op} {s t : State} (e : floatUnary i d a k q op s = .next t) : t.SameMemory s :=
  sameMemory_of_vectorTo e

theorem sameMemory_of_intBinary {i d a b k q op} {s t : State} (e : intBinary i d a b k q op s = .next t) : t.SameMemory s :=
  sameMemory_of_vectorTo e

theorem sameMemory_of_maskWord {i d v} {s t : State} (e : maskWord i d v s = .next t) : t.SameMemory s := sameMemory_of_taskWord e

theorem sameMemory_of_maskBranch {i a any imm} {s t : State} (e : maskBranch i a any imm s = .next t) : t.SameMemory s :=
  sameMemory_of_taskWord e

/-- Every word runs through one of the shared forms above. -/
theorem sameMemory_of_exec_word {i : Instr} {w : BitVec 32} {s t : State} (hw : encode i = some w) (e : exec i s = .next t) : t.SameMemory s := by
  cases i
  case yield | endTask | endCont | release | releaseDie | releasePeer | claim | unclaim | prio | prioSet | self | selfFrame | gdec | gnode |
      gnodeN | binit | bexpect | barrive | barriveH | bwait | btest | bpoison | copy | copyc | copym | cwp | cring | vld | vldH | vst | vstH |
      vlds | vsts | vgath | vscat | vins | vsel | vcompr | rep | mxldb | mxz | mxlda | mma | mxst | scmc | mxpass | mxqT | mxqS | couple |
      uncouple | cquery | csync | pageq | pageqH =>
    dsimp only [exec] at e; exact sameMemory_of_taskWord e
  case vext | vredadd | vredmin | vredmax | vredmini | kpopc | kfirst | kmovX =>
    dsimp only [exec] at e; exact sameMemory_of_scalarTo e
  case vcmp | vicmp =>
    dsimp only [exec] at e; exact sameMemory_of_maskTo e
  case vbcast | vcvt | vperm | vslideUp | vslideDn | vzipLo | vzipHi =>
    dsimp only [exec] at e; exact sameMemory_of_vectorTo e
  case vadd | vsub | vmul | vdiv =>
    dsimp only [exec] at e; exact sameMemory_of_floatBinary e
  case vfma | vfms | vnfma =>
    dsimp only [exec] at e; exact sameMemory_of_floatFused e
  case vmin | vmax =>
    dsimp only [exec] at e; exact sameMemory_of_floatMinMax e
  case vabs | vneg | vsqrt | vrcp | vrsq | vexp2 | vlog2 =>
    dsimp only [exec] at e; exact sameMemory_of_floatUnary e
  case viadd | visub | vimul | vimulh | vimin | vimax | vand | vor | vxor | vshl | vshr | vsra =>
    dsimp only [exec] at e; exact sameMemory_of_intBinary e
  case kand | kor | kxor | knot | kset | kmov =>
    dsimp only [exec] at e; exact sameMemory_of_maskWord e
  case bkany | bknone =>
    dsimp only [exec] at e; exact sameMemory_of_maskBranch e
  case ill | add | sub | and | or | xor | andn | orn | shl | shr | sra | min | max | minn | maxn | slt | sltn | mul | mulh | mulhn | div | divn |
      rem | remn | clz | ctz | popc | adds | shli | shri | srai | addi | andi | ori | xori | slti | sltni | movhi | addpc | beq | bne | blt | bge
      | bltn | bgen | jal | jalr | hnop =>
    dsimp only [exec] at e; exact sameMemory_of_scalarWord e
  case ext | mod | sched =>
    dsimp only [exec] at e; exact sameMemory_of_hintWord e
  case ld | lda => dsimp only [exec] at e; exact sameMemory_of_agentWord (fun _ _ _ e => State.sameMemory_of_hartLoad e) e
  case st | stl => dsimp only [exec] at e; exact sameMemory_of_agentWord (fun _ _ _ e => State.sameMemory_of_hartStore e) e
  case amo | amop | cas | fadd | faddPosted =>
    dsimp only [exec] at e; exact sameMemory_of_agentWord (fun _ _ _ e => State.sameMemory_of_hartAtomic e) e
  case amoa | brk => dsimp only [exec] at e; exact sameMemory_of_agentWord (fun _ _ _ e => by cases e) e
  case stfFlag | stfTask => dsimp only [exec] at e; exact sameMemory_of_agentWord (fun _ _ _ e => State.sameMemory_of_hartNotify e) e
  case pref | fence | csrr | csrw | trap => dsimp only [exec] at e; exact sameMemory_of_agentWord (fun _ _ _ e => by cases e; simp) e
  case prefFar => dsimp only [exec] at e; exact sameMemory_of_agentWord (fun _ _ _ e => State.sameMemory_of_hartPrefFar e) e
  all_goals exact nomatch hw

/-- Each event is one function of the state. -/
theorem memoryWf_of_exec_event {i : Instr} {s t : State} (hs : s.MemoryWf) (hi : encode i = none) (e : exec i s = .next t) : t.MemoryWf := by
  cases i
  case watchdog | fetchBound | illegalInstruction => dsimp only [exec] at e; exact hs.of_same (sameMemory_of_fetchFault e)
  case stepEnter | stepDone =>
    dsimp only [exec, execStepEnter, execStepDone] at e
    split at e <;> cases e <;> simp [hs]
  case witnessVerdict | streakLimit | quarantineMove | uncorrectableError | correctedError | triggerDelivery | heldWriteArrival |
      releaseEnqueuePush | frameDrainEnd | homeStore | dropReceived | storePerformed | loadFill | atomicExecute | barrierUpdate | handleArrival |
      engineKick | copyAppend | copyPacketExecute | copyCompletion | completionRecordWrite | engineHartFault | engineQuantum | microcodeLoad |
      arrayCommandExecute | mmaStep | leaseEnd | scaleDelivery | scaleFileApply | passExecute | passComplete | raiseEvent | eventUnqueue | version
      | linkState | temperature | power | errlogCount | groupUpdate | issueInstance | releaseAccept | releaseResend | releaseForward | holdEnd |
      create | arm | activate | quiesce | freeze | thaw | destroy | contextCommandInvalid | contextFieldWrite | quiesceDrainDone | freezeComplete
      | scrubDone | functionLevelReset | kernelDrainEnd | queueNotify | queueEnable | queueTeardown | pasidInvalidate | lastFetchReturn |
      mapperBind | mapperUnbind | nop | launchTask | launchGroup | queueCopy | signalStore | signalAdd | signalTrigger | wait | waitTimeout |
      skipIf | jump | call | returnList | armTrigger | snapshotCut | registerKernel | setCeilings | unmap | protect | migrate | invalidateAck |
      migrateCopyDone | tlbMiss | walkComplete | parkRepair | unitPoison | faultQueueResend | cowCopyDone | consistCreate | consistDestroy |
      chainApply | chainAck | tailQuery | coupleCopyDone | coupleStreamDone | uncoupleDone | memberFail | flitSend | flitReceive | replayTimeout |
      nakPendingExpiry | messageIngress | bounceResend | lctlRate | lctlRetrain | lctlClr | lctlPin | linjLaneArm | linjCrcArm | laneRetire |
      retrainDone | replayWindow | flitReplayLimit | peerIngress | proxyAtomic | remoteTimeout | stationFail | snapshotCutTaken | drainUnit |
      snapshotDone | moduleReset | bootStage | spdmRequest | featCommit | scaleReq | pwrLimit | powerWindow | errorRateThreshold | fwStage |
      fwCommit | fwAbort | mailboxesEmpty | complexFailover | diagnosticsDone | unitRetire | registerWrite | thawRestoreDone | ackControlFlit |
      remoteAcknowledgement | stationReturn | undervoltStep | memoryUncorrectableError =>
    cases e; simp [hs]
  all_goals exact nomatch hi

end Sys2Proof.Machine
end

section

/-! # Every step keeps the canonical form of memory (O14) -/

namespace Sys2Proof.Machine

theorem memoryWf_of_exec {i : Instr} {s t : State} (hs : s.MemoryWf) (e : exec i s = .next t) : t.MemoryWf := by
  cases hi : encode i with
  | some w => exact hs.of_same (sameMemory_of_exec_word hi e)
  | none => exact memoryWf_of_exec_event hs hi e

theorem sameMemory_of_settle {g n : Nat} {o : Host.Outcome State Fault Refusal} {t : State} (e : settle g n o = .next t) :
    ∃ s, o = .next s ∧ t.SameMemory s := by
  cases o with
  | next s => cases e; exact ⟨s, rfl, by simp⟩
  | fault r => cases e
  | refused r => cases e

theorem memoryWf_of_runWord {g n : Nat} {w : BitVec 32} {s t : State} (hs : s.MemoryWf) (e : runWord g n w s = .next t) : t.MemoryWf := by
  unfold runWord at e
  split at e
  · obtain ⟨r, er, same⟩ := sameMemory_of_settle e
    exact (memoryWf_of_exec (by simp [hs]) er).of_same same
  · exact memoryWf_of_exec (by simp [hs]) e

theorem memoryWf_of_runBogie {g : Nat} {s t : State} (hs : s.MemoryWf) (e : runBogie g s = .next t) : t.MemoryWf := by
  unfold runBogie at e
  extract_lets b at e
  split at e
  · split at e
    · split at e
      · exact memoryWf_of_exec (by simp [hs]) e
      · exact memoryWf_of_exec (by simp [hs]) e
    · split at e
      · exact memoryWf_of_runWord (by simp [hs]) e
      · exact memoryWf_of_exec (by simp [hs]) e
      · exact memoryWf_of_exec (by simp [hs]) e
      · cases e; simp [hs]
  · cases e; exact hs

theorem memoryWf_of_runHart {d h : Nat} {s t : State} (hs : s.MemoryWf) (e : runHart d h s = .next t) : t.MemoryWf := by
  unfold runHart at e
  extract_lets x w at e
  split at e
  · cases e; exact hs
  · split at e
    · exact memoryWf_of_exec (by simp [hs]) e
    · exact memoryWf_of_exec (by simp [hs]) e

theorem memoryWf_of_runAgent {a : Agent} {s t : State} (hs : s.MemoryWf) (e : runAgent a s = .next t) : t.MemoryWf := by
  cases a with
  | bogie g => exact memoryWf_of_runBogie (by simp [hs]) e
  | hart d h => exact memoryWf_of_runHart (by simp [hs]) e

theorem memoryWf_of_runEvent {n : Nat} {s t : State} (hs : s.MemoryWf) (e : runEvent n s = .next t) : t.MemoryWf := by
  unfold runEvent at e
  split at e
  · cases e; exact hs
  · extract_lets taken at e
    split at e
    next drawn =>
      have kept : taken.MemoryWf := by simp [taken, hs]
      have kept := kept.of_same (State.SameMemory.of_snd (State.sameMemory_chance ..) drawn)
      split at e
      · cases e; simp [kept]
      · exact memoryWf_of_exec (by simp [kept]) e

theorem memoryWf_of_runOutside {s t : State} (hs : s.MemoryWf) (e : runOutside s = .next t) : t.MemoryWf := by
  unfold runOutside at e
  extract_lets l at e
  split at e
  next chosen =>
  split at e
  next drawn =>
  have kept := hs.of_same (State.SameMemory.of_snd (State.sameMemory_choose ..) chosen)
  have kept := kept.of_same (State.SameMemory.of_snd (State.sameMemory_drawArgs _) drawn)
  split at e
  · cases e
    split <;> simp [kept]
  · extract_lets a at e
    split at e
    · cases e; exact kept
    · split at e
      · cases e; simp [kept]
      · exact memoryWf_of_exec (by simp [kept]) e

theorem memoryWf_of_runFree {s t : State} (hs : s.MemoryWf) (e : runFree s = .next t) : t.MemoryWf := by
  unfold runFree at e
  split at e
  next drawn =>
  have kept := hs.of_same (State.SameMemory.of_snd (State.sameMemory_draw _) drawn)
  extract_lets passed agents events at e
  have kept : passed.MemoryWf := by simp [passed, kept]
  split at e
  next chosen =>
  have kept := kept.of_same (State.SameMemory.of_snd (State.sameMemory_choose ..) chosen)
  split at e
  · exact memoryWf_of_runAgent kept e
  · exact memoryWf_of_runEvent kept e
  · exact memoryWf_of_runOutside kept e

/-- Settles O14, by cases on the turn: an agent's word, something under way, or a free turn. -/
theorem stepsKeepMemory : Obligations.StepsKeepMemory := by
  unfold Obligations.StepsKeepMemory
  intro s t hm hh e
  have hs : s.MemoryWf := ⟨hm, hh⟩
  unfold step at e
  split at e
  · exact memoryWf_of_runFree hs e
  · exact memoryWf_of_runAgent (by simp [hs]) e
  · exact memoryWf_of_runEvent (by simp [hs]) e

end Sys2Proof.Machine
end

section

/-! # Register reads and writes, and the control and status registers (O16)

The registers are tables (`Tab.get_set_same`, `Tab.get_set_other`); CSRR and CSRW are agent's words whose bodies always complete, so that
`agentWord_runs` and `agentWord_hart` give their outcomes. -/

namespace Sys2Proof.Machine

open Sys2Proof.Safety

/-! ### Registers of a frame (R43, R58) -/

@[simp] theorem Frame.getX_zero (f : Frame) : f.getX 0 = 0 := rfl
@[simp] theorem Frame.setX_zero (f : Frame) (v : Word) : f.setX 0 v = f := rfl
@[simp] theorem Frame.getK_zero (f : Frame) : f.getK 0 = BitVec.allOnes 64 := rfl

theorem Frame.getX_setX_same (f : Frame) {r : BitVec 5} (v : Word) (h : r ≠ 0) : (f.setX r v).getX r = v := by
  unfold Frame.getX Frame.setX
  rw [Cpu.getX_setX, if_neg h, if_pos rfl]

theorem Frame.getX_setX_other (f : Frame) {r q : BitVec 5} (v : Word) (h : q ≠ r) : (f.setX r v).getX q = f.getX q := by
  by_cases hq : q = 0
  · subst hq; rfl
  · unfold Frame.getX Frame.setX
    rw [Cpu.getX_setX, if_neg hq, if_neg h]

theorem Frame.getV_setV_same (f : Frame) (r : BitVec 5) (x : Vec) : (f.setV r x).getV r = x := by
  rw [Frame.getV_setV, if_pos rfl]

theorem Frame.getV_setV_other (f : Frame) {r q : BitVec 5} (x : Vec) (h : q ≠ r) : (f.setV r x).getV q = f.getV q := by
  rw [Frame.getV_setV, if_neg h]

theorem Frame.getK_setK_same (f : Frame) {r : BitVec 5} (m : Mask) (h : r ≠ 0) : (f.setK r m).getK r.toNat = m := by
  have hn : r.toNat ≠ 0 := fun e => h (BitVec.eq_of_toNat_eq e)
  unfold Frame.getK Frame.setK
  rw [if_neg hn]
  exact Tab.get_set_same ..

/-! ### Words whose body completes -/

theorem taskWord_goes {s : State} {g : Nat} {f f' : Frame} {i : Instr} {body : State → Nat → Bogie → Frame → Except Stop BRes}
    (he : exec i s = taskWord i body s) (h : Runs s g f i) (hb : body s g (s.bogie g) f = (s.bogie g).go f') : TaskGoes i s g f' := by
  unfold TaskGoes
  rw [he, taskWord_runs h, hb]; rfl

theorem agentWord_goes {s : State} {g : Nat} {f f' : Frame} {i : Instr} {body : State → Nat → Bogie → Frame → Except Stop BRes}
    {hbody : State → Nat → Nat → Except Stop State} (he : exec i s = agentWord i body hbody s) (h : Runs s g f i)
    (hb : body s g (s.bogie g) f = (s.bogie g).go f') : TaskGoes i s g f' := by
  unfold TaskGoes
  rw [he, agentWord_runs h, hb]; rfl

/-- Two words that go on with the same frame have one outcome. -/
theorem exec_eq_of_taskGoes {i j : Instr} {s t : State} {g : Nat} {f' : Frame} (hi : TaskGoes i s g f') (hj : TaskGoes j s g f')
    (e : exec j s = .next t) : exec i s = .next t :=
  hi.trans (hj.symm.trans e)

/-! ### CSRR and CSRW (R161 to R166, R189) -/

theorem exec_csrr (d : BitVec 5) (c : BitVec 12) (s : State) : exec (.csrr d c) s = execCsrr d c s := rfl

theorem exec_csrw (a : BitVec 5) (c : BitVec 12) (s : State) : exec (.csrw a c) s = execCsrw a c s := rfl

theorem exec_self (d : BitVec 5) (s : State) : exec (.self d) s = execSelf d s := rfl

theorem exec_selfFrame (d : BitVec 5) (s : State) : exec (.selfFrame d) s = execSelfFrame d s := rfl

theorem exec_prio (d : BitVec 5) (s : State) : exec (.prio d) s = execPrio d s := rfl

/-- The prefetch counters are the four registers from 0x100. -/
theorem readCsr_pfLatch (s : State) (g : Nat) (b : Bogie) (f : Frame) {k : Nat} (hk : k < 4) :
    readCsr s g b f (BitVec.ofNat 12 (0x100 + k)) = (b.pfLatch[k]?).getD 0 := by
  interval_cases k <;> rfl

theorem csrr_goes {s : State} {g : Nat} {f : Frame} {d : BitVec 5} {c : BitVec 12} {v : Word} (h : Runs s g f (.csrr d c))
    (hv : readCsr s g (s.bogie g) f c = v) : TaskGoes (.csrr d c) s g (f.setX d v) :=
  agentWord_goes (exec_csrr d c s) h (by rw [hv])

theorem csrw_goes {s : State} {g : Nat} {f : Frame} {a : BitVec 5} {c : BitVec 12} (h : Runs s g f (.csrw a c)) :
    TaskGoes (.csrw a c) s g { f with scaleA := (f.getX a).setWidth 10 } :=
  agentWord_goes (exec_csrw a c s) h rfl

theorem self_goes {s : State} {g : Nat} {f : Frame} {d : BitVec 5} (h : Runs s g f (.self d)) :
    TaskGoes (.self d) s g (f.setX d (selfWord s g f)) :=
  taskWord_goes (exec_self d s) h rfl

theorem selfFrame_goes {s : State} {g : Nat} {f : Frame} {d : BitVec 5} (h : Runs s g f (.selfFrame d)) :
    TaskGoes (.selfFrame d) s g (f.setX d (frameWord (s.bogie g) f)) :=
  taskWord_goes (exec_selfFrame d s) h rfl

theorem prio_goes {s : State} {g : Nat} {f : Frame} {d : BitVec 5} (h : Runs s g f (.prio d)) :
    TaskGoes (.prio d) s g (f.setX d (prioWord (s.bogie g) f)) :=
  taskWord_goes (exec_prio d s) h rfl

/-- CSRR on an engine hart draws one free word and writes it (log 22). -/
theorem csrr_hart {s : State} {die h : Nat} {d : BitVec 5} {c : BitVec 12} (r : HartRuns s die h (.csrr d c)) :
    exec (.csrr d c) s = .next (State.setHart { s with freeCtr := s.freeCtr + 1 } die h
      { s.hart die h with
        cpu := { (s.hart die h).cpu.setX d (Config.freeWord (s.freeCtr + 1)) with pc := (s.hart die h).cpu.pc + 4, pfx := {} } }) := by
  rw [exec_csrr, execCsrr, agentWord_hart r]
  simp only [Cpu.next, Cpu.done, Cpu.setX_pc]

/-- Settles O16: the register laws are those of the tables, each register of CSRR is one equation of `readCsr`, and SELF, SELF.frame and
PRIO go on with the frame that CSRR of their register gives. -/
theorem registersReadAndWrite : Obligations.RegistersReadAndWrite := by
  unfold Obligations.RegistersReadAndWrite
  constructor
  · intro f r q v
    exact ⟨f.getX_zero, f.setX_zero v, f.getK_zero, f.getX_setX_same v, f.getX_setX_other v, fun x m =>
      ⟨f.getV_setV_same r x, f.getV_setV_other x, f.getK_setK_same m⟩⟩
  · intro s g f d a c b
    refine ⟨fun h v hv => csrr_goes h ?_, fun h t e hs => exec_eq_of_taskGoes (csrr_goes h rfl) (self_goes hs) e,
      fun h t e hs => exec_eq_of_taskGoes (csrr_goes h rfl) (selfFrame_goes hs) e,
      fun h t e hs => exec_eq_of_taskGoes (csrr_goes h rfl) (prio_goes hs) e, csrw_goes, fun die h r => ⟨_, csrr_hart r⟩⟩
    obtain ⟨rfl, rfl⟩ | ⟨rfl, rfl⟩ | ⟨rfl, rfl⟩ | ⟨rfl, rfl⟩ | ⟨rfl, rfl⟩ | ⟨rfl, rfl⟩ | ⟨rfl, rfl⟩ | ⟨k, hk, rfl, rfl⟩ := hv
    case inr.inr.inr.inr.inr.inr.inr => exact readCsr_pfLatch s g b f hk
    all_goals rfl

end Sys2Proof.Machine
end

section

/-! # The decoder and the encoder agree (O1, O2)

One way round is the architect's lemma for each instruction (`Encoding.add` and so on, Laws/PerInstr). The other way needs one fact about words:
the bits of a field are a difference of two values of `upperBits`, so that the word put together again from its fields, as `encode` does, is a
telescoping sum. -/

namespace Sys2Proof.Laws

/-! ### Fields as differences -/

/-- The number that the bits of a word from bit k upwards make. -/
def upperBits (w : BitVec 32) (k : Nat) : Int := (w.toNat / 2 ^ k : Nat)

theorem upperBits_zero (w : BitVec 32) : upperBits w 0 = w.toNat := by rw [upperBits, Nat.pow_zero, Nat.div_one]

theorem toNat_field (w : BitVec 32) (lo n : Nat) : ((field w lo n).toNat : Int) = upperBits w lo - 2 ^ n * upperBits w (lo + n) := by
  have e := Nat.div_add_mod (w.toNat / 2 ^ lo) (2 ^ n)
  rw [Nat.div_div_eq_div_mul, ← Nat.pow_add] at e
  rw [field, BitVec.extractLsb'_toNat, Nat.shiftRight_eq_div_pow, upperBits, upperBits, eq_sub_iff_add_eq']
  exact_mod_cast e

theorem field_eq_iff {w : BitVec 32} {lo n c : Nat} :
    field w lo n = BitVec.ofNat n c ↔ upperBits w lo - 2 ^ n * upperBits w (lo + n) = (c % 2 ^ n : Nat) := by
  rw [← toNat_field, Int.ofNat_inj, ← BitVec.toNat_inj, BitVec.toNat_ofNat]

/-- The major opcode is what stands from bit 26 upwards (R55). -/
theorem upperBits_26 (w : BitVec 32) : upperBits w 26 = (field w 26 6).toNat := by
  have top : upperBits w 32 = 0 := by rw [upperBits, Nat.div_eq_of_lt w.isLt]; rfl
  rw [toNat_field, top, mul_zero, sub_zero]

/-! ### Words that decode (R56, R59, R74) -/

/-- The instruction that o holds, if it holds one, has the word w. -/
def WordOf (w : BitVec 32) (o : Option Instr) : Prop := ∀ i, o = some i → encode i = some w

theorem WordOf.nothing {w : BitVec 32} : WordOf w none := nofun

theorem WordOf.just {w : BitVec 32} {i : Instr} (h : encode i = some w) : WordOf w (some i) := by
  rintro _ ⟨⟩; exact h

/-- One entry of a major opcode's table: an instruction under the condition on its function fields, and the entries after it. -/
theorem WordOf.entry {w : BitVec 32} {c : Prop} [Decidable c] {i : Instr} {o : Option Instr} (h : c → encode i = some w)
    (ho : WordOf w o) : WordOf w (if c then some i else o) := by
  by_cases hc : c
  · rw [if_pos hc]; exact WordOf.just (h hc)
  · rwa [if_neg hc]

/-- The number that `encode` gives is the word's own. -/
theorem word_of_number {w : BitVec 32} {n : Nat} (h : (n : Int) = upperBits w 0) : some (BitVec.ofNat 32 n) = some w := by
  rw [upperBits_zero, Int.ofNat_inj] at h
  rw [h, BitVec.ofNat_toNat, BitVec.setWidth_eq]

/-- The words of major opcode 0x01, the longest table. -/
theorem wordOf_decodeMajor01 {w : BitVec 32} (op : upperBits w 26 = (0x01 : Nat)) : WordOf w (decodeMajor01 w) := by
  unfold decodeMajor01
  repeat' with_reducible first | exact WordOf.nothing | apply WordOf.entry
  all_goals
    intro fixed
    apply word_of_number
    simp only [field_eq_iff, toNat_field, Int.natCast_add, Int.natCast_mul, Nat.reduceAdd] at fixed ⊢
    omega

/-- Each major opcode's table is walked entry by entry; the bits that an entry fixes and the fields of its operands add up to the word. -/
theorem wordOf_decodeFields (w : BitVec 32) : WordOf w (decodeFields w) := by
  have op := upperBits_26 w
  unfold decodeFields
  split
  -- Case 2 is the table of major opcode 0x01, and case 55 that of the opcodes that have none (R61).
  case h_2 major => rw [major] at op; exact wordOf_decodeMajor01 op
  case h_55 => exact WordOf.nothing
  all_goals
    rename_i major
    rw [major] at op
    clear major
    simp only [decodeMajor00, decodeMajor02, decodeMajor03, decodeMajor04, decodeMajor05, decodeMajor06, decodeMajor07, decodeMajor08,
      decodeMajor09, decodeMajor0A, decodeMajor0B, decodeMajor0C, decodeMajor0D, decodeMajor0E, decodeMajor0F, decodeMajor10, decodeMajor11,
      decodeMajor12, decodeMajor13, decodeMajor14, decodeMajor15, decodeMajor16, decodeMajor17, decodeMajor18, decodeMajor19, decodeMajor1A,
      decodeMajor1B, decodeMajor1C, decodeMajor1D, decodeMajor1E, decodeMajor1F, decodeMajor20, decodeMajor21, decodeMajor22, decodeMajor23,
      decodeMajor24, decodeMajor25, decodeMajor26, decodeMajor27, decodeMajor28, decodeMajor29, decodeMajor2A, decodeMajor2B, decodeMajor2C,
      decodeMajor2D, decodeMajor2E, decodeMajor2F, decodeMajor30, decodeMajor31, decodeMajor32, decodeMajor33, decodeMajor34, decodeMajor3F]
    repeat' with_reducible first | exact WordOf.nothing | apply WordOf.just | apply WordOf.entry
  all_goals
    intros
    apply word_of_number
    simp only [field_eq_iff, toNat_field, Int.natCast_add, Int.natCast_mul, Nat.reduceAdd] at *
    omega

theorem decodeFields_of_decode {w : BitVec 32} {i : Instr} (h : decode w = some i) : decodeFields w = some i ∧ wellFormed i = true := by
  unfold decode at h
  split at h
  next found =>
    split at h
    next wf => cases h; exact ⟨found, wf⟩
    next => cases h
  next => cases h

/-! ### Words of instructions (R56, R57) -/

/-- The architect's lemma for each instruction, in the order of the table; the steps of the other agents have no word. -/
theorem Encoding.all (i : Instr) : Encoding.Statement i := by
  cases i with
  | ill => apply Encoding.ill | add => apply Encoding.add | sub => apply Encoding.sub | and => apply Encoding.and | or => apply Encoding.or
  | xor => apply Encoding.xor | andn => apply Encoding.andn | orn => apply Encoding.orn | shl => apply Encoding.shl | shr => apply Encoding.shr
  | sra => apply Encoding.sra | min => apply Encoding.min | max => apply Encoding.max | minn => apply Encoding.minn | maxn => apply Encoding.maxn
  | slt => apply Encoding.slt | sltn => apply Encoding.sltn | mul => apply Encoding.mul | mulh => apply Encoding.mulh
  | mulhn => apply Encoding.mulhn | div => apply Encoding.div | divn => apply Encoding.divn | rem => apply Encoding.rem
  | remn => apply Encoding.remn | clz => apply Encoding.clz | ctz => apply Encoding.ctz | popc => apply Encoding.popc
  | adds => apply Encoding.adds | shli => apply Encoding.shli | shri => apply Encoding.shri | srai => apply Encoding.srai
  | addi => apply Encoding.addi | andi => apply Encoding.andi | ori => apply Encoding.ori | xori => apply Encoding.xori
  | slti => apply Encoding.slti | sltni => apply Encoding.sltni | movhi => apply Encoding.movhi | addpc => apply Encoding.addpc
  | beq => apply Encoding.beq | bne => apply Encoding.bne | blt => apply Encoding.blt | bge => apply Encoding.bge | bltn => apply Encoding.bltn
  | bgen => apply Encoding.bgen | jal => apply Encoding.jal | jalr => apply Encoding.jalr | yield => apply Encoding.yield
  | endTask => apply Encoding.endTask | endCont => apply Encoding.endCont | release => apply Encoding.release
  | releaseDie => apply Encoding.releaseDie | releasePeer => apply Encoding.releasePeer | claim => apply Encoding.claim
  | unclaim => apply Encoding.unclaim | prio => apply Encoding.prio | prioSet => apply Encoding.prioSet | self => apply Encoding.self
  | selfFrame => apply Encoding.selfFrame | gdec => apply Encoding.gdec | gnode => apply Encoding.gnode | gnodeN => apply Encoding.gnodeN
  | ld => apply Encoding.ld | st => apply Encoding.st | lda => apply Encoding.lda | stl => apply Encoding.stl | amo => apply Encoding.amo
  | amop => apply Encoding.amop | amoa => apply Encoding.amoa | cas => apply Encoding.cas | fadd => apply Encoding.fadd
  | faddPosted => apply Encoding.faddPosted | stfFlag => apply Encoding.stfFlag | stfTask => apply Encoding.stfTask | pref => apply Encoding.pref
  | prefFar => apply Encoding.prefFar | fence => apply Encoding.fence | binit => apply Encoding.binit | bexpect => apply Encoding.bexpect
  | barrive => apply Encoding.barrive | barriveH => apply Encoding.barriveH | bwait => apply Encoding.bwait | btest => apply Encoding.btest
  | bpoison => apply Encoding.bpoison | copy => apply Encoding.copy | copyc => apply Encoding.copyc | copym => apply Encoding.copym
  | cwp => apply Encoding.cwp | cring => apply Encoding.cring | vld => apply Encoding.vld | vldH => apply Encoding.vldH
  | vst => apply Encoding.vst | vstH => apply Encoding.vstH | vlds => apply Encoding.vlds | vsts => apply Encoding.vsts
  | vgath => apply Encoding.vgath | vscat => apply Encoding.vscat | vbcast => apply Encoding.vbcast | vins => apply Encoding.vins
  | vext => apply Encoding.vext | vadd => apply Encoding.vadd | vsub => apply Encoding.vsub | vmul => apply Encoding.vmul
  | vmin => apply Encoding.vmin | vmax => apply Encoding.vmax | vdiv => apply Encoding.vdiv | vfma => apply Encoding.vfma
  | vfms => apply Encoding.vfms | vnfma => apply Encoding.vnfma | vabs => apply Encoding.vabs | vneg => apply Encoding.vneg
  | vsqrt => apply Encoding.vsqrt | vrcp => apply Encoding.vrcp | vrsq => apply Encoding.vrsq | vexp2 => apply Encoding.vexp2
  | vlog2 => apply Encoding.vlog2 | vcmp => apply Encoding.vcmp | vsel => apply Encoding.vsel | vcvt => apply Encoding.vcvt
  | viadd => apply Encoding.viadd | visub => apply Encoding.visub | vimul => apply Encoding.vimul | vimulh => apply Encoding.vimulh
  | vimin => apply Encoding.vimin | vimax => apply Encoding.vimax | vand => apply Encoding.vand | vor => apply Encoding.vor
  | vxor => apply Encoding.vxor | vshl => apply Encoding.vshl | vshr => apply Encoding.vshr | vsra => apply Encoding.vsra
  | vicmp => apply Encoding.vicmp | vredadd => apply Encoding.vredadd | vredmin => apply Encoding.vredmin | vredmax => apply Encoding.vredmax
  | vredmini => apply Encoding.vredmini | vperm => apply Encoding.vperm | vslideUp => apply Encoding.vslideUp
  | vslideDn => apply Encoding.vslideDn | vzipLo => apply Encoding.vzipLo | vzipHi => apply Encoding.vzipHi | vcompr => apply Encoding.vcompr
  | kand => apply Encoding.kand | kor => apply Encoding.kor | kxor => apply Encoding.kxor | knot => apply Encoding.knot
  | kpopc => apply Encoding.kpopc | kfirst => apply Encoding.kfirst | kset => apply Encoding.kset | kmov => apply Encoding.kmov
  | kmovX => apply Encoding.kmovX | bkany => apply Encoding.bkany | bknone => apply Encoding.bknone | rep => apply Encoding.rep
  | mxldb => apply Encoding.mxldb | mxz => apply Encoding.mxz | mxlda => apply Encoding.mxlda | mma => apply Encoding.mma
  | mxst => apply Encoding.mxst | scmc => apply Encoding.scmc | mxpass => apply Encoding.mxpass | mxqT => apply Encoding.mxqT
  | mxqS => apply Encoding.mxqS | couple => apply Encoding.couple | uncouple => apply Encoding.uncouple | cquery => apply Encoding.cquery
  | csync => apply Encoding.csync | pageq => apply Encoding.pageq | pageqH => apply Encoding.pageqH | csrr => apply Encoding.csrr
  | csrw => apply Encoding.csrw | trap => apply Encoding.trap | brk => apply Encoding.brk | hnop => apply Encoding.hnop
  | ext => apply Encoding.ext | mod => apply Encoding.mod | sched => apply Encoding.sched
  | _ => exact nofun

/-- Settles O1, by cases on the instruction. -/
theorem encodedWordsDecode : Obligations.EncodedWordsDecode := by
  unfold Obligations.EncodedWordsDecode
  exact fun i w => Encoding.all i w

/-- Settles O2: the major opcode picks a table, the entry fixes its bits, and the fields are the rest of the word. -/
theorem decodedWordsEncode : Obligations.DecodedWordsEncode := by
  unfold Obligations.DecodedWordsEncode
  intro w i h
  obtain ⟨found, wf⟩ := decodeFields_of_decode h
  exact ⟨wordOf_decodeFields w i found, wf⟩

end Sys2Proof.Laws
end

section

/-! # Written-out words, and the checks before a word's own faults (O3, O6)

O3 is O1 at thirteen instructions, and four words with no entry. A word that the gate stops (R60) has an outcome that its body has no part in:
`word_on_bogie` gives the word as a run behind the gate, and `Bogie.run_shut` gives the run. -/

namespace Sys2Proof.Machine

open Sys2Proof.Safety

/-- Settles O3: each word is the word of its instruction (`encodedWordsDecode`), and the reserved ones have no entry. -/
theorem wordsDecode : Obligations.WordsDecode := by
  unfold Obligations.WordsDecode
  have reads (i : Instr) (w : BitVec 32) (hwf : wellFormed i = true) (hw : encode i = some w) : decode w = some i :=
    Laws.encodedWordsDecode i w hwf hw
  exact ⟨reads _ _ rfl rfl, reads _ _ rfl rfl, reads _ _ rfl rfl, reads _ _ rfl rfl, reads _ _ rfl rfl, reads _ _ rfl rfl, reads _ _ rfl rfl,
    reads _ _ rfl rfl, reads _ _ rfl rfl, reads _ _ rfl rfl, reads _ _ rfl rfl, reads _ _ rfl rfl, reads _ _ rfl rfl, rfl, rfl, rfl, rfl⟩

/-! ### The gate (R58, R60, R68, R115) -/

section
variable {i : Instr} {p : Prefix} {h : Header} {w : BitVec 32}

theorem gate_of_badPrefix (hp : badPrefix i p = true) : gate i p h w = some (.fault 0x01 0 w.toNat) := by
  rw [gate, if_pos hp]

theorem gate_of_badField (hp : badPrefix i p = false) (hf : ∃ q ∈ operands i, badField h q = true) :
    gate i p h w = some (.fault 0x02 0 w.toNat) := by
  rw [gate, if_neg (by simp [hp]), if_pos (List.any_eq_true.2 hf)]

theorem gate_of_boundField {code n : Nat} (hp : badPrefix i p = false) (hf : ∀ q ∈ operands i, badField h q = false)
    (hb : ((operands i).filterMap (boundField h)).head? = some (code, n)) : gate i p h w = some (.fault code 0 n) := by
  have none : (operands i).any (badField h) = false := List.any_eq_false.2 fun q hq => by simp [hf q hq]
  rw [gate, if_neg (by simp [hp]), if_neg (by simp [none]), hb]

end

/-- The declaration's own bounds have the codes BARRIER_BOUND and MX_BOUND. -/
theorem boundField_code {h : Header} {q : Kind × BitVec 5} {code n : Nat} (hb : boundField h q = some (code, n)) : code = 0x0A ∨ code = 0x0C := by
  unfold boundField at hb
  split at hb
  · split at hb <;> simp_all
  · split at hb <;> simp_all
  · cases hb

/-! ### Words that the gate stops -/

section
variable {i : Instr} {w : BitVec 32} {s : State} {g : Nat} {f : Frame}

theorem exec_of_gate {st : Stop} (hw : encode i = some w) (hc : s.cur = .bogie g) (ht : (s.bogie g).stack.head? = some f)
    (hg : gate i f.cpu.pfx f.hdr ((s.bogie g).wordNow i) = some st) :
    exec i s = .next (s.afterWord g ((s.bogie g).stop g f ((s.bogie g).orCommit i f st))) := by
  obtain ⟨body, e⟩ := word_on_bogie hw hc ht
  rw [e, Bogie.run_shut hg]

theorem Bogie.orCommit_illegal (b : Bogie) (i : Instr) (f : Frame) (addr val : Nat) :
    b.orCommit i f (.fault 0x01 addr val) = .fault 0x01 addr val := by
  simp [Bogie.orCommit]

theorem faults_of_gate {val : Nat} (hw : encode i = some w) (hc : s.cur = .bogie g) (ht : (s.bogie g).stack.head? = some f)
    (hg : gate i f.cpu.pfx f.hdr ((s.bogie g).wordNow i) = some (.fault 0x01 0 val)) : Faults i s g 0x01 0 val := by
  unfold Faults
  rw [exec_of_gate hw hc ht hg, Bogie.orCommit_illegal, Bogie.stop]

/-- A gate's fault other than ILLEGAL_INSTRUCTION gives way to a forced commit where the word lacks room (R142). -/
theorem raises_of_gate {code val : Nat} (hw : encode i = some w) (hc : s.cur = .bogie g) (ht : (s.bogie g).stack.head? = some f)
    (hg : gate i f.cpu.pfx f.hdr ((s.bogie g).wordNow i) = some (.fault code 0 val)) (hcode : code ≠ 0x01) : Raises i s g code 0 val := by
  intro f' ht'
  obtain rfl : f = f' := Option.some.inj (ht.symm.trans ht')
  have e := exec_of_gate hw hc ht hg
  constructor
  · intro room
    have stays : (s.bogie g).orCommit i f (.fault code 0 val) = .fault code 0 val := by
      rcases room with inRep | room
      · simp [Bogie.orCommit, inRep]
      · simp [Bogie.orCommit, room]
    rw [stays] at e
    exact e
  · intro outside lacks
    have commits : (s.bogie g).orCommit i f (.fault code 0 val) = .commit := by simp [Bogie.orCommit, hcode, outside, lacks]
    rw [commits] at e
    exact e

end

/-! ### ILL and the hints (R66, R69 to R72) -/

section
variable {s : State} {g : Nat} {f : Frame}

theorem exec_ill (e : BitVec 26) (s : State) : exec (.ill e) s = execIll e s := rfl
theorem exec_ext (e : BitVec 22) (s : State) : exec (.ext e) s = execExt e s := rfl
theorem exec_mod (b t : BitVec 1) (r : BitVec 3) (s : State) : exec (.mod b t r) s = execMod b t r s := rfl
theorem exec_sched (t : BitVec 1) (e : BitVec 6) (s : State) : exec (.sched t e) s = execSched t e s := rfl
theorem exec_hnop (s : State) : exec .hnop s = execHnop s := rfl

theorem ill_faults {e : BitVec 26} (h : Runs s g f (.ill e)) : Faults (.ill e) s g 0x01 0 e.toNat := by
  unfold Faults
  rw [exec_ill, execIll, scalarWord, agentWord_runs h]
  simp only [Except.map, Bogie.orCommit_illegal, Bogie.stop]

theorem ill_hart {e : BitVec 26} {d h : Nat} (r : HartRuns s d h (.ill e)) : exec (.ill e) s = .next (s.hartFault d h 0x01 0) := by
  rw [exec_ill, execIll, scalarWord, agentWord_hart r]; rfl

/-- The state after a word of bogie g that moves on to the next one, before which p then stands. -/
def State.afterHintWord (s : State) (g : Nat) (f : Frame) (p : Prefix) : State :=
  s.afterWord g { b := (s.bogie g).setTop { f with cpu := { f.cpu with pc := f.cpu.pc + 4, pfx := p }, instret := f.instret + 1 } }

theorem hintWord_joins {i : Instr} {q : Prefix → Prefix} (he : exec i s = hintWord i q s) (h : Runs s g f i) (hr : (s.bogie g).rep = none) :
    exec i s = .next (s.afterHintWord g f (q f.cpu.pfx)) := by
  rw [he, hintWord, agentWord_runs h]
  simp only [Bogie.advance_plain _ _ _ hr, if_true, State.afterHintWord]

theorem hnop_ends (h : Runs s g f .hnop) : exec .hnop s = .next (s.afterHintWord g f {}) := by
  rw [exec_hnop, execHnop, scalarWord, agentWord_runs h]; rfl

end

/-- Settles O6: ILL and the hints by their bodies, the ranks of R60 by the gate, and engine mode by `word_refused_on_hart`. -/
theorem prefixesAndChecks : Obligations.PrefixesAndChecks := by
  unfold Obligations.PrefixesAndChecks
  refine ⟨fun e s => ⟨fun g f => ill_faults, fun d h => ill_hart⟩, fun s g f hr => ⟨fun e h => ?ext, fun b t r h => ?mod, fun t e h => ?sched,
    hnop_ends⟩, fun i w s g f hw hc ht => ⟨fun hp => ?badPrefix, fun hp hf => ?badField, fun hp hf code n hb => ?bound⟩,
    fun i w s d h hw hc => word_refused_on_hart hw hc⟩
  case ext => exact hintWord_joins (exec_ext e s) h hr
  case mod => exact hintWord_joins (exec_mod b t r s) h hr
  case sched => exact hintWord_joins (exec_sched t e s) h hr
  case badPrefix => exact faults_of_gate hw hc ht (gate_of_badPrefix hp)
  case badField => exact raises_of_gate hw hc ht (gate_of_badField hp hf) (by decide)
  case bound =>
    have hcode : code ≠ 0x01 := by
      obtain ⟨q, -, hq⟩ := List.mem_filterMap.1 (List.mem_of_head? hb)
      rcases boundField_code hq with rfl | rfl <;> decide
    exact raises_of_gate hw hc ht (gate_of_boundField hp hf hb) hcode

end Sys2Proof.Machine
end

section

/-! # Steps that run a word (O8 to O11)

A turn of an agent is `runBogie` or `runHart`; the fetch (`fetchTask`) has one lemma per outcome, in the order of its faults, and what a fetch leaves
in the state (`fillCode`) is said once. -/

namespace Sys2Proof.Machine

open Sys2Proof.Safety

/-! ### Bytes of a word (R55) -/

theorem wordOfBytes_eq (b0 b1 b2 b3 : Byte) : wordOfBytes b0 b1 b2 b3 = BitVec.ofNat 32 (natOfBytes [b0, b1, b2, b3]) := by
  apply BitVec.eq_of_toNat_eq
  have h0 := b0.isLt
  have h1 := b1.isLt
  have h2 := b2.isLt
  simp only [wordOfBytes, BitVec.toNat_append]
  rw [← Nat.shiftLeft_add_eq_or_of_lt h2, ← Nat.shiftLeft_add_eq_or_of_lt h1, ← Nat.shiftLeft_add_eq_or_of_lt h0]
  simp only [Nat.shiftLeft_eq, natOfBytes, BitVec.toNat_ofNat]
  omega

/-- The four bytes of a line at an address are the word that it holds there. -/
theorem CodeLine.word_eq_bytes (c : CodeLine) (va : Nat) :
    c.word va = wordOfBytes (c.data.extractLsb' (8 * (va % 64 + 0)) 8) (c.data.extractLsb' (8 * (va % 64 + 1)) 8)
      (c.data.extractLsb' (8 * (va % 64 + 2)) 8) (c.data.extractLsb' (8 * (va % 64 + 3)) 8) := by
  simp only [wordOfBytes]
  rw [BitVec.extractLsb'_append_extractLsb'_eq_extractLsb' (by omega), BitVec.extractLsb'_append_extractLsb'_eq_extractLsb' (by omega),
    BitVec.extractLsb'_append_extractLsb'_eq_extractLsb' (by omega)]
  rfl

/-! ### What a fetch leaves in the state (R22, R353) -/

/-- The acting agent and every bogie's frames are those of s. -/
def State.SameFrames (t s : State) : Prop := t.cur = s.cur ∧ ∀ g, (t.bogie g).stack = (s.bogie g).stack

theorem State.SameFrames.refl (s : State) : s.SameFrames s := ⟨rfl, fun _ => rfl⟩

theorem State.SameFrames.trans {r s t : State} (h : r.SameFrames s) (k : s.SameFrames t) : r.SameFrames t :=
  ⟨h.1.trans k.1, fun g => (h.2 g).trans (k.2 g)⟩

/-- A property that f keeps of every value is kept at every number of a table. -/
theorem Tab.get_mapVals_keeps {α β : Type} {f : α → α} {p : α → β} (h : ∀ v, p (f v) = p v) (t : Tab α) (d : α) (k : Nat) :
    p (Tab.get (Tab.mapVals t f) d k) = p (Tab.get t d k) := by
  induction t with
  | nil => rfl
  | cons e r ih =>
    simp only [Tab.mapVals, List.map_cons, Tab.get]
    split
    · exact h _
    · exact ih

theorem State.sameFrames_invalidateLines (s : State) (ctx va n : Nat) : (s.invalidateLines ctx va n).SameFrames s := by
  refine ⟨rfl, fun g => ?_⟩
  simp only [State.bogie, State.invalidateLines]
  rw [Tab.get_mapVals_keeps (p := Bogie.stack)]
  exact fun _ => rfl

theorem State.sameFrames_aliases (s : State) (d ctx va : Nat) (l : Leaf) (write : Bool) : (s.aliases d ctx va l write).SameFrames s := by
  have drops (as : List Alias) (t : State) :
      (as.foldl (fun s a => s.invalidateLines a.ctx a.page (pageBytes a.size)) t).SameFrames t := by
    induction as generalizing t with
    | nil => exact .refl t
    | cons a as ih => exact (ih _).trans (State.sameFrames_invalidateLines ..)
  unfold State.aliases
  split
  · exact .refl s
  · extract_lets me x noted
    have kept : noted.SameFrames s := by
      unfold noted
      (repeat' split)
      · exact .refl s
      · exact .refl s
      · exact .refl s
      · exact State.sameFrames_invalidateLines ..
    split
    · exact (drops _ _).trans kept
    · exact kept

theorem State.sameFrames_noteRead (s : State) (ctx va : Nat) : (s.noteRead ctx va).SameFrames s := by
  unfold State.noteRead
  split
  · split
    · exact .refl s
    · exact State.sameFrames_aliases ..
  · unfold State.noteWalk
    split
    · exact .refl s
    · exact .refl s

/-- A read by the only address of a page leaves nothing at its home. -/
theorem State.noteRead_eq_self {s : State} {ctx va : Nat} {l : Leaf} (hl : s.leaf ctx va = some l) (hs : l.syn = false) :
    s.noteRead ctx va = s := by
  simp [State.noteRead, hl, State.aliases, hs]

/-- The state once the home has seen the read, where no instruction cache held the line. -/
def State.afterRead (s : State) (g ctx va : Nat) : State := if (s.codeHit g ctx va).isSome = true then s else s.noteRead ctx va

theorem State.sameFrames_afterRead (s : State) (g ctx va : Nat) : (s.afterRead g ctx va).SameFrames s := by
  unfold State.afterRead
  split
  · exact .refl s
  · exact State.sameFrames_noteRead ..

theorem State.afterRead_eq_self {s : State} {g ctx va : Nat} {l : Leaf} (hl : s.leaf ctx va = some l) (hs : l.syn = false) :
    s.afterRead g ctx va = s := by
  rw [State.afterRead, State.noteRead_eq_self hl hs, ite_self]

theorem State.choose_state (s : State) (n : Nat) : ∃ o c, (s.choose n).2 = { s with oracle := o, freeCtr := c } := by
  unfold State.choose
  split
  · exact ⟨_, _, rfl⟩
  · unfold State.draw
    split
    · exact ⟨_, _, rfl⟩
    · exact ⟨_, _, rfl⟩

theorem State.keepCode_state (s : State) (n : Nat) (l : List CodeLine) (e : CodeLine) :
    ∃ o c, (s.keepCode n l e).2 = { s with oracle := o, freeCtr := c } := State.choose_state s _

/-- A fetch changes, beside what the home notes, the two instruction caches and the free choices. -/
theorem State.fillCode_cases (s : State) (g ctx va : Nat) :
    s.fillCode g ctx va = s ∨ ∃ o n k j, s.fillCode g ctx va = { s.afterRead g ctx va with
      oracle := o, freeCtr := n
      coaches := Tab.put (s.afterRead g ctx va).coaches (coachOf g) { (s.afterRead g ctx va).coach (coachOf g) with icache := k }
      bogies := Tab.put (s.afterRead g ctx va).bogies g { (s.afterRead g ctx va).bogie g with icache := j } } := by
  cases miss : codeLine (s.bogie g).icache ctx va with
  | some c => left; simp only [State.fillCode, miss]
  | none =>
    cases mapped : s.leaf ctx va with
    | none => left; simp only [State.fillCode, miss, mapped]
    | some l =>
      right
      let u := s.afterRead g ctx va
      let c := u.coach (coachOf g)
      let e := (codeLine c.icache ctx va).getD
        { ctx := ctx, va := va / 64 * 64, data := BitVec.ofNat 512 (u.codeBytes l ctx (va / 64 * 64) 64) }
      let coach := if (codeLine c.icache ctx va).isSome then (c.icache, u) else u.keepCode 8192 c.icache e
      let own := coach.2.keepCode 512 (coach.2.bogie g).icache e
      have filled : s.fillCode g ctx va =
          (own.2.setCoach (coachOf g) { c with icache := coach.1 }).setBogie g { own.2.bogie g with icache := own.1 } := by
        simp only [State.fillCode, miss, mapped]; rfl
      obtain ⟨o1, n1, h1⟩ : ∃ o n, coach.2 = { u with oracle := o, freeCtr := n } := by
        unfold coach
        split
        · exact ⟨_, _, rfl⟩
        · exact State.keepCode_state ..
      obtain ⟨o2, n2, h2⟩ : ∃ o n, own.2 = { coach.2 with oracle := o, freeCtr := n } := State.keepCode_state ..
      refine ⟨o2, n2, coach.1, own.1, filled.trans ?_⟩
      rw [h2, h1]
      rfl

theorem State.sameFrames_fillCode (s : State) (g ctx va : Nat) : (s.fillCode g ctx va).SameFrames s := by
  rcases s.fillCode_cases g ctx va with h | ⟨o, n, k, j, h⟩
  · rw [h]; exact .refl s
  · refine State.SameFrames.trans ?_ (s.sameFrames_afterRead g ctx va)
    rw [h]
    refine ⟨rfl, fun g' => ?_⟩
    by_cases e : g = g'
    · subst e; exact (congrArg Bogie.stack (Tab.get_put_same ..)).trans rfl
    · exact congrArg Bogie.stack (Tab.get_put_other _ _ _ _ _ e)

/-! ### The outcomes of a fetch, in the order of its faults (R60, R114, R134, R348) -/

section
variable {s : State} {g n pc : Nat} {b : Bogie} {f : Frame}

theorem fetchTask_watchdog (hn : f.window ≤ n) : fetchTask s g b f n pc = .error (.fault 0x0F 0 f.window) := by
  simp [fetchTask, hn, bind, Except.bind]

theorem fetchTask_bound (hn : n < f.window) (he : inExtent f.hdr pc = false) : fetchTask s g b f n pc = .error (.fault 0x03 pc 0) := by
  simp [fetchTask, Nat.not_le.2 hn, he, bind, Except.bind]

theorem fetchTask_unmapped (hn : n < f.window) (he : inExtent f.hdr pc = true) (ht : b.translate f.ctx pc = .ok none) :
    fetchTask s g b f n pc = .error (.fault 0x09 pc 0) := by
  simp [fetchTask, Nat.not_le.2 hn, he, ht, bind, Except.bind]

theorem fetchTask_noExec {e : TlbEntry} (hn : n < f.window) (he : inExtent f.hdr pc = true) (ht : b.translate f.ctx pc = .ok (some e))
    (hx : e.x = false) : fetchTask s g b f n pc = .error (.fault 0x08 pc 0) := by
  simp [fetchTask, Nat.not_le.2 hn, he, ht, hx, bind, Except.bind]

theorem fetchTask_held {e : TlbEntry} {c : CodeLine} (hn : n < f.window) (he : inExtent f.hdr pc = true)
    (ht : b.translate f.ctx pc = .ok (some e)) (hx : e.x = true) (hc : s.codeHit g f.ctx pc = some c) :
    fetchTask s g b f n pc = .ok (c.word pc) := by
  simp [fetchTask, Nat.not_le.2 hn, he, ht, hx, hc, bind, Except.bind]

theorem fetchTask_memory {e : TlbEntry} {l : Leaf} (hn : n < f.window) (he : inExtent f.hdr pc = true)
    (ht : b.translate f.ctx pc = .ok (some e)) (hx : e.x = true) (hc : s.codeHit g f.ctx pc = none) (hl : s.leaf f.ctx pc = some l)
    (hp : l.present = true) (hm : l.migr = false)
    (ha : l.cls = 3 → (s.consist f.ctx l.place).notYet (s.consist f.ctx l.place).tail (l.chainOff pc) = false) :
    fetchTask s g b f n pc = .ok (s.codeWord l f.ctx pc) := by
  simpa [fetchTask, Nat.not_le.2 hn, he, ht, hx, hc, hl, hp, hm, bind, Except.bind] using ha

end

/-- A PC that is no multiple of 4, or lies before or beyond the code, is outside the extent (R114, log 125). -/
theorem inExtent_eq_false {h : Header} {pc : Nat} (hp : pc % 4 ≠ 0 ∨ pc < h.codeStart ∨ h.codeStart + 4 * h.words < pc + 4) :
    inExtent h pc = false := by
  simp only [inExtent, Bool.and_eq_false_iff, beq_eq_false_iff_ne, decide_eq_false_iff_not, Nat.not_le]
  tauto

/-! ### The steps by which a fetch faults -/

section
variable {s : State}

theorem fetchFault_bogie {g : Nat} {f : Frame} (code : Nat) (addr : Word) (val : Nat) (hc : s.cur = .bogie g)
    (ht : (s.bogie g).stack.head? = some f) :
    fetchFault code addr val s = .next (s.afterWord g ((s.bogie g).syncFault g code addr.toNat val)) := by
  obtain ⟨r, hr⟩ := Bogie.stack_of_head ht
  simp [fetchFault, hc, hr]

theorem fetchFault_hart {d h : Nat} (code : Nat) (addr : Word) (val : Nat) (hc : s.cur = .hart d h) :
    fetchFault code addr val s = .next (s.hartFault d h code) := by
  simp [fetchFault, hc]

theorem exec_watchdog (s : State) : exec .watchdog s = execWatchdog s := rfl
theorem exec_fetchBound (s : State) : exec .fetchBound s = execFetchBound s := rfl
theorem exec_illegalInstruction (s : State) : exec .illegalInstruction s = execIllegalInstruction s := rfl

theorem watchdog_faults {g : Nat} {f : Frame} (hc : s.cur = .bogie g) (ht : (s.bogie g).stack.head? = some f) :
    Faults .watchdog s g 0x0F 0 f.window := by
  unfold Faults
  rw [exec_watchdog, execWatchdog, fetchFault_bogie _ _ _ hc ht, hc]
  simp only [ht]
  rfl

theorem fetchBound_faults {g : Nat} {f : Frame} (hc : s.cur = .bogie g) (ht : (s.bogie g).stack.head? = some f) :
    Faults .fetchBound s g 0x03 f.cpu.pc.toNat 0 := by
  unfold Faults
  rw [exec_fetchBound, execFetchBound, fetchFault_bogie _ _ _ hc ht, State.curPc, hc]
  simp only [ht]
  rfl

theorem illegalInstruction_faults {g : Nat} {f : Frame} (hc : s.cur = .bogie g) (ht : (s.bogie g).stack.head? = some f) :
    Faults .illegalInstruction s g 0x01 0 s.arg.n := by
  unfold Faults
  rw [exec_illegalInstruction, execIllegalInstruction, fetchFault_bogie _ _ _ hc ht]
  rfl

theorem watchdog_hart {d h : Nat} (hc : s.cur = .hart d h) : exec .watchdog s = .next (s.hartFault d h 0x0F) :=
  (exec_watchdog s).trans (fetchFault_hart _ _ _ hc)

theorem fetchBound_hart {d h : Nat} (hc : s.cur = .hart d h) : exec .fetchBound s = .next (s.hartFault d h 0x03) :=
  (exec_fetchBound s).trans (fetchFault_hart _ _ _ hc)

theorem illegalInstruction_hart {d h : Nat} (hc : s.cur = .hart d h) : exec .illegalInstruction s = .next (s.hartFault d h 0x01) :=
  (exec_illegalInstruction s).trans (fetchFault_hart _ _ _ hc)

end

/-! ### A bogie's turn -/

theorem step_bogie {s : State} {g : Nat} (h : s.turn = .agent (.bogie g)) :
    step s = runBogie g { s with turn := .free, cur := .bogie g } := by
  rw [step, h]; rfl

/-- Bogie g runs on its top frame f, and no repetition issues its next word. -/
structure Fetches (s : State) (g : Nat) (f : Frame) : Prop where
  phase : (s.bogie g).phase = .running
  top : (s.bogie g).stack.head? = some f
  rep : (s.bogie g).rep = none

section
variable {s : State} {g : Nat} {f : Frame} (h : Fetches s g f)
include h

theorem runBogie_of_word {w : BitVec 32} (hw : fetchTask s g (s.bogie g) f (s.bogie g).fetched f.cpu.pc.toNat = .ok w) :
    runBogie g s = runWord g (s.bogie g).fetched w (s.fillCode g f.ctx f.cpu.pc.toNat) := by
  obtain ⟨r, hr⟩ := Bogie.stack_of_head h.top
  simp only [runBogie, h.phase, hr, h.rep, hw]

theorem runBogie_of_watchdog {a v : Nat}
    (hw : fetchTask s g (s.bogie g) f (s.bogie g).fetched f.cpu.pc.toNat = .error (.fault 0x0F a v)) : runBogie g s = exec .watchdog s := by
  obtain ⟨r, hr⟩ := Bogie.stack_of_head h.top
  simp only [runBogie, h.phase, hr, h.rep, hw]

theorem runBogie_of_bound {a v : Nat}
    (hw : fetchTask s g (s.bogie g) f (s.bogie g).fetched f.cpu.pc.toNat = .error (.fault 0x03 a v)) : runBogie g s = exec .fetchBound s := by
  obtain ⟨r, hr⟩ := Bogie.stack_of_head h.top
  simp only [runBogie, h.phase, hr, h.rep, hw]

/-- A fault of the page at a fetch (R348). -/
theorem runBogie_of_pageFault {code a v : Nat} (hcode : code = 0x08 ∨ code = 0x09)
    (hw : fetchTask s g (s.bogie g) f (s.bogie g).fetched f.cpu.pc.toNat = .error (.fault code a v)) :
    runBogie g s = .next (s.afterWord g ((s.bogie g).syncFault g code a v)) := by
  obtain ⟨r, hr⟩ := Bogie.stack_of_head h.top
  rcases hcode with rfl | rfl
  · simp only [runBogie, h.phase, hr, h.rep, hw]; rfl
  · simp only [runBogie, h.phase, hr, h.rep, hw]; rfl

end

/-- Settles O10: the fetch's outcomes (`fetchTask_watchdog` and those after it) on the bogie's turn, then the three steps themselves. -/
theorem fetchOfWords : Obligations.FetchOfWords := by
  unfold Obligations.FetchOfWords
  refine ⟨?window, ?page, fun s => ⟨fun g f hc ht => ⟨watchdog_faults hc ht, fetchBound_faults hc ht, illegalInstruction_faults hc ht⟩,
    fun d h hc => ⟨watchdog_hart hc, fetchBound_hart hc, illegalInstruction_hart hc⟩⟩⟩
  case window =>
    intro s g f b t turn running top noRep
    have fetches : Fetches t g f := ⟨running, top, noRep⟩
    rw [step_bogie turn]
    refine ⟨fun spent => ?_, fun left outside => ?_⟩
    · rw [runBogie_of_watchdog fetches (fetchTask_watchdog spent)]
      exact watchdog_faults rfl top
    · rw [runBogie_of_bound fetches (fetchTask_bound left (inExtent_eq_false outside))]
      exact fetchBound_faults rfl top
  case page =>
    intro s g f b t turn running top noRep left inside
    have fetches : Fetches t g f := ⟨running, top, noRep⟩
    rw [step_bogie turn]
    exact ⟨fun unmapped => runBogie_of_pageFault fetches (.inr rfl) (fetchTask_unmapped left inside unmapped),
      fun e mapped noExec => runBogie_of_pageFault fetches (.inl rfl) (fetchTask_noExec left inside mapped noExec)⟩

/-! ### The word that a fetch brings -/

/-- The word that memory holds is its four bytes; of a chained page, those of the tail's replica. -/
theorem State.codeWord_eq_bytes (s : State) (l : Leaf) (ctx va : Nat) :
    let k := s.consist ctx l.place
    let byte := fun n => if l.cls = 3 then Tab.get (Tab.get k.replicas [] k.tail) 0 (l.chainOff va + n) else s.readByte (l.phys va + n)
    s.codeWord l ctx va = wordOfBytes (byte 0) (byte 1) (byte 2) (byte 3) := by
  intro k byte
  rw [wordOfBytes_eq, State.codeWord, State.codeBytes]
  by_cases h : l.cls = 3
  · simp only [byte, if_pos h]; rfl
  · simp only [byte, if_neg h]; rfl

theorem runWord_of_decode {s : State} {g n : Nat} {w : BitVec 32} {i : Instr} (h : decode w = some i) :
    runWord g n w s = settle g n (exec i (s.setBogie g { s.bogie g with fetched := n + 1 })) := by
  simp only [runWord, h]

theorem runWord_of_none {s : State} {g n : Nat} {w : BitVec 32} (h : decode w = none) :
    runWord g n w s = exec .illegalInstruction { s with arg := { n := w.toNat } } := by
  simp only [runWord, h]

/-- Settles O8: the fetch's word (`fetchTask_memory`, `fetchTask_held`) is the four bytes, and `fillCode_cases` says what the fetch leaves. -/
theorem stepRunsDecodedWord : Obligations.StepRunsDecodedWord := by
  unfold Obligations.StepRunsDecodedWord
  intro s g f e l b pc s0 t k byte held runs turn running top noRep left inside mapped execs
  have fetches : Fetches s0 g f := ⟨running, top, noRep⟩
  have frames : t.SameFrames s0 := s0.sameFrames_fillCode ..
  have runs_of_fetch (w : BitVec 32) (hw : fetchTask s0 g (s0.bogie g) f (s0.bogie g).fetched f.cpu.pc.toNat = .ok w) : runs w := by
    have word : step s = runWord g b.fetched w t := (step_bogie turn).trans (runBogie_of_word fetches hw)
    refine ⟨fun i decoded => word.trans (runWord_of_decode decoded), fun reserved => ?_⟩
    have illegal := word.trans (runWord_of_none reserved)
    refine ⟨illegal, illegal.trans ?_⟩
    exact illegalInstruction_faults frames.1 ((congrArg List.head? (frames.2 g)).trans top)
  refine ⟨fun miss leaf present still applied => ?_, fun c hit => ?_, ?_, ?_⟩
  · rw [show wordOfBytes (byte 0) (byte 1) (byte 2) (byte 3) = s0.codeWord l f.ctx pc from (s0.codeWord_eq_bytes l f.ctx pc).symm]
    exact runs_of_fetch _ (fetchTask_memory left inside mapped execs miss leaf present still applied)
  · rw [show wordOfBytes (held c 0) (held c 1) (held c 2) (held c 3) = c.word pc from (c.word_eq_bytes pc).symm]
    exact runs_of_fetch _ (fetchTask_held left inside mapped execs hit)
  · exact s0.fillCode_cases g f.ctx pc
  · exact fun l leaf alone => State.afterRead_eq_self (s := s0) leaf alone

/-! ### An engine hart's turn -/

theorem step_hart {s : State} {d h : Nat} (ht : s.turn = .agent (.hart d h)) :
    step s = runHart d h { s with turn := .free, cur := .hart d h } := by
  rw [step, ht]; rfl

/-- The word at the PC in a hart's image (R235). -/
def Hart.word (x : Hart) : BitVec 32 := BitVec.ofNat 32 (natOfBytes (Tab.range x.image 0 x.cpu.pc.toNat 4))

theorem Hart.word_eq_bytes (x : Hart) :
    let byte := fun k => Tab.get x.image 0 (x.cpu.pc.toNat + k)
    x.word = wordOfBytes (byte 0) (byte 1) (byte 2) (byte 3) := (wordOfBytes_eq ..).symm

section
variable {s : State} {d h : Nat} (engine : 16 ≤ h) (running : (s.hart d h).state = 1) (free : (s.hart d h).await = none)
  (going : (s.hart d h).stopped = none)
include engine running free going

theorem runHart_of_decode {i : Instr} (hd : decode (s.hart d h).word = some i) : runHart d h s = exec i s := by
  unfold Hart.word at hd
  simp only [runHart, Nat.not_lt.2 engine, running, free, going, hd]
  rfl

theorem runHart_of_none (hd : decode (s.hart d h).word = none) :
    runHart d h s = exec .illegalInstruction { s with arg := { n := (s.hart d h).word.toNat } } := by
  unfold Hart.word at hd ⊢
  simp only [runHart, Nat.not_lt.2 engine, running, free, going, hd]
  rfl

end

/-- Settles O9: an engine hart that waits for nothing decodes the four bytes of its image. -/
theorem stepRunsHartWord : Obligations.StepRunsHartWord := by
  unfold Obligations.StepRunsHartWord
  intro s d h x byte w t turn engine running free going
  have image : (t.hart d h).word = w := x.word_eq_bytes
  rw [step_hart turn]
  refine ⟨fun i decoded => ?_, fun reserved => ?_⟩
  · exact runHart_of_decode (s := t) engine running free going (image ▸ decoded)
  · rw [← image] at reserved ⊢
    exact (runHart_of_none (s := t) engine running free going reserved).trans (illegalInstruction_hart rfl)

/-! ### The word after (R55, R68, R261, R263, R264) -/

/-- A bogie in a repetition runs the body word that is due, without a fetch. -/
theorem runBogie_of_rep {s : State} {g : Nat} {f : Frame} {r : Rep} {i : Instr} (phase : (s.bogie g).phase = .running)
    (top : (s.bogie g).stack.head? = some f) (inRep : (s.bogie g).rep = some r) (due : r.now = some i) : runBogie g s = exec i s := by
  obtain ⟨rest, hr⟩ := Bogie.stack_of_head top
  simp only [runBogie, phase, hr, inRep, due]

section
variable {b : Bogie} {r : Rep} (f : Frame) (inRep : b.rep = some r)
include inRep

theorem Bogie.advance_in_body (more : r.idx + 1 < r.body.length) :
    b.advance f = { b.setTop { f with
      cpu := { f.cpu with pc := r.addr + BitVec.ofNat 64 (4 * (r.idx + 1 + 1)), pfx := {} }, instret := f.instret + 1 } with
        rep := some { r with idx := r.idx + 1 } } := by
  simp [Bogie.advance, inRep, Nat.not_le.2 more]

theorem Bogie.advance_to_pass (last : r.body.length = r.idx + 1) (again : r.pass + 1 < r.count) :
    b.advance f = { b.setTop { f with
      cpu := { f.cpu with pc := r.addr + BitVec.ofNat 64 (4 * (0 + 1)), pfx := {} }, instret := f.instret + 1 } with
        rep := some { r with pass := r.pass + 1, idx := 0 } } := by
  simp [Bogie.advance, inRep, last, Nat.not_le.2 again]

theorem Bogie.advance_out (last : r.body.length = r.idx + 1) (spent : r.count ≤ r.pass + 1) :
    b.advance f = { b.setTop { f with
      cpu := { f.cpu with pc := r.addr + BitVec.ofNat 64 (4 * (r.body.length + 1)), pfx := {} }, instret := f.instret + 1 } with
        rep := none } := by
  simp [Bogie.advance, inRep, last, spent]

end

/-- Settles O11: `Bogie.advance` outside a repetition, and in one by the place of the word in its body and pass. -/
theorem repetitionSteps : Obligations.RepetitionSteps := by
  unfold Obligations.RepetitionSteps
  refine ⟨fun b f h => ⟨b.advance_plain f false h, rfl, rfl, rfl, rfl, rfl, rfl, rfl⟩, ?_⟩
  intro s g f r i b f' at_ inRep
  refine ⟨fun turn running top due => ?_, Bogie.advance_in_body f inRep, Bogie.advance_to_pass f inRep, Bogie.advance_out f inRep⟩
  rw [step_bogie turn]
  exact runBogie_of_rep running top inRep due

end Sys2Proof.Machine
end

section

/-! # Integer lane words (O31)

A vector word writes `merge`, whose elements are read back by `elem_lanes`; what an integer word forms from two elements is said on integers. -/

namespace Sys2Proof.Machine

open Sys2Proof.Safety

/-! ### Elements of a register (R239, R240) -/

theorem elem_lt (w : Nat) (v : Vec) (i : Nat) : elem w v i < 2 ^ w := Nat.mod_lt _ (Nat.two_pow_pos w)

@[simp] theorem elem_mod (w : Nat) (v : Vec) (i : Nat) : elem w v i % 2 ^ w = elem w v i := Nat.mod_eq_of_lt (elem_lt w v i)

theorem joinElems_lt (w : Nat) (l : List Nat) : joinElems w l < 2 ^ (w * l.length) := by
  induction l with
  | nil => simp [joinElems]
  | cons x r ih =>
    have hx : x % 2 ^ w < 2 ^ w := Nat.mod_lt _ (Nat.two_pow_pos w)
    calc x % 2 ^ w + 2 ^ w * joinElems w r < 2 ^ w * (joinElems w r + 1) := by rw [Nat.mul_add_one]; omega
      _ ≤ 2 ^ w * 2 ^ (w * r.length) := Nat.mul_le_mul_left _ ih
      _ = 2 ^ (w * (x :: r).length) := by rw [← Nat.pow_add, List.length_cons, Nat.mul_add_one, Nat.add_comm]

/-- Digit i of a number made of elements is element i. -/
theorem joinElems_digit (w : Nat) (l : List Nat) (i : Nat) : joinElems w l / 2 ^ (w * i) % 2 ^ w = (l[i]?).getD 0 % 2 ^ w := by
  induction l generalizing i with
  | nil => simp [joinElems]
  | cons x r ih =>
    cases i with
    | zero => simp [joinElems]
    | succ j =>
      have high : (x % 2 ^ w + 2 ^ w * joinElems w r) / 2 ^ w = joinElems w r := by
        rw [Nat.add_mul_div_left _ _ (Nat.two_pow_pos w), Nat.div_eq_of_lt (Nat.mod_lt _ (Nat.two_pow_pos w)), Nat.zero_add]
      rw [Nat.mul_add_one, Nat.add_comm (w * j), Nat.pow_add, ← Nat.div_div_eq_div_mul]
      exact (congrArg (· / 2 ^ (w * j) % 2 ^ w) high).trans (ih j)

theorem elem_lanes {w j : Nat} (f : Nat → Nat) (h : j < 512 / w) : elem w (lanes w f) j = f j % 2 ^ w := by
  have fits : joinElems w ((List.range (512 / w)).map f) < 2 ^ 512 :=
    Nat.lt_of_lt_of_le (joinElems_lt _ _) (Nat.pow_le_pow_right Nat.two_pos (by rw [List.length_map, List.length_range]; exact Nat.mul_div_le 512 w))
  rw [elem, lanes, BitVec.toNat_ofNat, Nat.mod_eq_of_lt fits, joinElems_digit]
  simp [h]

theorem elem_merge {w j : Nat} (k : Mask) (old : Vec) (f : Nat → Nat) (h : j < 512 / w) :
    elem w (merge w k old f) j = if k.getLsbD j = true then f j % 2 ^ w else elem w old j := by
  rw [merge, elem_lanes _ h, bit, apply_ite (· % 2 ^ w), elem_mod]

/-- A vector word writes its lanes, which may be given by any function of the same value modulo 2^w. -/
theorem vectorTo_writesLanes {i : Instr} {d : BitVec 5} {k : BitVec 3} {w : Nat} {lane lane' : Frame → Nat → Nat}
    (he : ∀ s, exec i s = vectorTo i d k w lane s) (hl : ∀ f j, lane f j % 2 ^ w = lane' f j % 2 ^ w) : WritesLanes i d k w lane' := by
  intro s g f h
  refine ⟨merge w (f.getK k.toNat) (f.getV d) (lane f), taskWord_goes (he s) h rfl, fun j hj => ?_⟩
  rw [elem_merge _ _ _ hj, hl]

/-! ### Integers of w bits (R79) -/

theorem elemOf_mod (w : Nat) (n : Int) : elemOf w n % 2 ^ w = elemOf w n := by
  have pos : (0 : Int) < 2 ^ w := by positivity
  refine Nat.mod_eq_of_lt ?_
  rw [elemOf, Int.toNat_lt (Int.emod_nonneg _ pos.ne')]
  exact_mod_cast Int.emod_lt_of_pos n pos

theorem elemOf_natCast (w n : Nat) : elemOf w (n : Int) = n % 2 ^ w := by
  rw [elemOf, show ((n : Int) % 2 ^ w) = ((n % 2 ^ w : Nat) : Int) by push_cast; rfl, Int.toNat_natCast]

/-- The value of an element as the statements give it. -/
theorem elemInt_eq {w n : Nat} (u : Bool) (hw : 0 < w) (h : n < 2 ^ w) :
    elemInt u w n = if u = true then (n : Int) else (BitVec.ofNat w n).toInt := by
  have half : n < 2 ^ (w - 1) ↔ 2 * n < 2 ^ w := by
    rw [← Nat.sub_add_cancel hw, Nat.pow_succ', Nat.add_sub_cancel]; omega
  cases u with
  | true => rfl
  | false =>
    rw [elemInt, BitVec.toInt_eq_toNat_cond, BitVec.toNat_ofNat, Nat.mod_eq_of_lt h]
    simp [half]

theorem elemOf_elemInt {w n : Nat} (u : Bool) : elemOf w (elemInt u w n) = n % 2 ^ w := by
  unfold elemInt
  split
  · exact elemOf_natCast w n
  · split
    · exact elemOf_natCast w n
    · rw [elemOf, Int.sub_emod_right, ← elemOf, elemOf_natCast]

theorem clampInt_eq {lo hi : Int} (h : lo ≤ hi) (v : Int) : clampInt lo hi v = max lo (min v hi) := by
  unfold clampInt
  split
  · omega
  · split <;> omega

theorem intMin_le_intMax (u : Bool) (w : Nat) : intMin u w ≤ intMax u w := by
  have p : (0 : Int) < 2 ^ w := by positivity
  have q : (0 : Int) < 2 ^ (w - 1) := by positivity
  unfold intMin intMax
  split <;> omega

/-- Arithmetic on two elements, wrapped or clamped. -/
theorem intArith_mod {w x y : Nat} (u : BitVec 1) (op : Int → Int → Int) (f : Frame) (hw : 0 < w) (hx : x < 2 ^ w) (hy : y < 2 ^ w) :
    let val := fun (n : Nat) => if (u == 1) = true then (n : Int) else (BitVec.ofNat w n).toInt
    intArith u op f w x y % 2 ^ w = elemOf w (if modSatOf f = true then max (intMin (u == 1) w) (min (op (val x) (val y)) (intMax (u == 1) w))
      else op (val x) (val y)) := by
  rw [intArith, intResult, elemOf_mod, elemInt_eq _ hw hx, elemInt_eq _ hw hy, clampInt_eq (intMin_le_intMax _ w)]

/-- Halving a number of w bits more than w - 1 times leaves its sign. -/
theorem toInt_ediv_min {w : Nat} (x : BitVec w) (c : Nat) : x.toInt / 2 ^ min c (w - 1) = x.toInt / 2 ^ c := by
  rcases Nat.le_total c (w - 1) with h | h
  · rw [Nat.min_eq_left h]
  · have small : (2 : Int) ^ (w - 1) ≤ 2 ^ c := by exact_mod_cast Nat.pow_le_pow_right Nat.two_pos h
    have lo := x.le_toInt
    have hi := x.toInt_lt
    rw [Nat.min_eq_right h]
    rcases Int.lt_or_le x.toInt 0 with neg | pos
    · rw [Int.ediv_eq_neg_one_of_neg_of_le neg (by omega), Int.ediv_eq_neg_one_of_neg_of_le neg (by omega)]
    · rw [Int.ediv_eq_zero_of_lt pos hi, Int.ediv_eq_zero_of_lt pos (by omega)]

/-! ### What the integer words form (R255, R256) -/

section

variable {w x y : Nat} (hx : x < 2 ^ w) (hy : y < 2 ^ w)
include hx

include hy in
theorem elemOf_min (u : Bool) :
    elemOf w (min (elemInt u w x) (elemInt u w y)) = if elemInt u w x ≤ elemInt u w y then x else y := by
  split
  · rw [min_eq_left ‹_›, elemOf_elemInt, Nat.mod_eq_of_lt hx]
  · rw [min_eq_right (Int.le_of_not_le ‹_›), elemOf_elemInt, Nat.mod_eq_of_lt hy]

include hy in
theorem elemOf_max (u : Bool) :
    elemOf w (max (elemInt u w x) (elemInt u w y)) = if elemInt u w x ≤ elemInt u w y then y else x := by
  split
  · rw [max_eq_right ‹_›, elemOf_elemInt, Nat.mod_eq_of_lt hy]
  · rw [max_eq_left (Int.le_of_not_le ‹_›), elemOf_elemInt, Nat.mod_eq_of_lt hx]

/-- A logical shift to the right by w or more leaves 0. -/
theorem shiftRight_eq (c : Nat) : (if w ≤ c then 0 else x / 2 ^ c) = x / 2 ^ c := by
  split
  · rw [Nat.div_eq_of_lt (Nat.lt_of_lt_of_le hx (Nat.pow_le_pow_right Nat.two_pos ‹_›))]
  · rfl

end

/-- A shift to the left by w or more leaves 0. -/
theorem shiftLeft_mod (w x c : Nat) : (if w ≤ c then 0 else x * 2 ^ c) % 2 ^ w = x * 2 ^ c % 2 ^ w := by
  split
  · rw [Nat.zero_mod, Nat.mod_eq_zero_of_dvd (Dvd.dvd.mul_left (Nat.pow_dvd_pow 2 ‹_›) x)]
  · rfl

/-- A word of two integer elements writes what `integerLane` says of them. -/
theorem intBinary_writesLanes {i : Instr} {d a b : BitVec 5} {k : BitVec 3} {u : BitVec 1} {t : BitVec 2}
    (op : Frame → Nat → Nat → Nat → Nat) (he : ∀ s, exec i s = intBinary i d a b k t op s)
    (hl : ∀ f x y, x < 2 ^ widthOf t → y < 2 ^ widthOf t →
      op f (widthOf t) x y % 2 ^ widthOf t = elemOf (widthOf t) ((integerLane i (modSatOf f) (widthOf t) (u == 1) x y).getD 0)) :
    WritesLanes i d k (widthOf t) fun f j =>
      (((integerLane i (modSatOf f) (widthOf t) (u == 1) (elem (widthOf t) (f.getV a) j) (elem (widthOf t) (f.getV b) j)).getD 0) %
        2 ^ widthOf t).toNat :=
  vectorTo_writesLanes he fun _ _ => (hl _ _ _ (elem_lt ..) (elem_lt ..)).trans (elemOf_mod ..).symm

theorem widthOf_pos (t : BitVec 2) : 0 < widthOf t := Nat.mul_pos (by decide) (Nat.two_pow_pos _)

/-- Settles O31, word by word. -/
theorem integerLanes : Obligations.IntegerLanes := by
  unfold Obligations.IntegerLanes
  intro i d a b k u t fields
  have hw := widthOf_pos t
  unfold integerFields at fields
  split at fields <;> cases fields
  case h_1 => exact intBinary_writesLanes (intArith u (· + ·)) (fun _ => rfl) fun f x y hx hy => intArith_mod u (· + ·) f hw hx hy
  case h_2 => exact intBinary_writesLanes (intArith u (· - ·)) (fun _ => rfl) fun f x y hx hy => intArith_mod u (· - ·) f hw hx hy
  case h_3 => exact intBinary_writesLanes (intArith u (· * ·)) (fun _ => rfl) fun f x y hx hy => intArith_mod u (· * ·) f hw hx hy
  case h_4 =>
    refine intBinary_writesLanes (fun _ w x y => elemOf w (elemInt (u == 1) w x * elemInt (u == 1) w y / 2 ^ w)) (fun _ => rfl) fun f x y hx hy => ?_
    rw [elemOf_mod, elemInt_eq _ hw hx, elemInt_eq _ hw hy]; rfl
  case h_5 =>
    refine intBinary_writesLanes (fun _ w x y => if elemInt (u == 1) w x ≤ elemInt (u == 1) w y then x else y) (fun _ => rfl) fun f x y hx hy => ?_
    rw [← elemOf_min hx hy, elemOf_mod, elemInt_eq _ hw hx, elemInt_eq _ hw hy]; rfl
  case h_6 =>
    refine intBinary_writesLanes (fun _ w x y => if elemInt (u == 1) w x ≤ elemInt (u == 1) w y then y else x) (fun _ => rfl) fun f x y hx hy => ?_
    rw [← elemOf_max hx hy, elemOf_mod, elemInt_eq _ hw hx, elemInt_eq _ hw hy]; rfl
  case h_7 => exact intBinary_writesLanes (fun _ _ x y => x &&& y) (fun _ => rfl) fun f x y _ _ => (elemOf_natCast _ (x &&& y)).symm
  case h_8 => exact intBinary_writesLanes (fun _ _ x y => x ||| y) (fun _ => rfl) fun f x y _ _ => (elemOf_natCast _ (x ||| y)).symm
  case h_9 => exact intBinary_writesLanes (fun _ _ x y => x ^^^ y) (fun _ => rfl) fun f x y _ _ => (elemOf_natCast _ (x ^^^ y)).symm
  case h_10 =>
    refine intBinary_writesLanes (fun _ w x c => if w ≤ c then 0 else x * 2 ^ c) (fun _ => rfl) fun f x y _ _ => ?_
    exact (shiftLeft_mod ..).trans (elemOf_natCast _ (x * 2 ^ y)).symm
  case h_11 =>
    refine intBinary_writesLanes (fun _ w x c => if w ≤ c then 0 else x / 2 ^ c) (fun _ => rfl) fun f x y hx _ => ?_
    rw [shiftRight_eq hx]
    exact (elemOf_natCast _ (x / 2 ^ y)).symm
  case h_12 =>
    refine intBinary_writesLanes (fun _ w x c => elemOf w (elemInt false w x / 2 ^ min c (w - 1))) (fun _ => rfl) fun f x y hx _ => ?_
    rw [elemOf_mod, elemInt_eq _ hw hx, if_neg Bool.false_ne_true, toInt_ediv_min]; rfl

end Sys2Proof.Machine
end

section

/-! # Floating-point values and lanes (O29)

Finite values are rationals (`valueOf`); an encoding is a sign and a code below it (`Fmt.unpack_code`), and a number that a format holds is packed to
the code that it came from. -/

namespace Sys2Proof.Machine

open Sys2Proof.Safety

/-! ### Values (R75, R84) -/

/-- The sign of a finite value as a factor. -/
def signum (s : Bool) : ℚ := if s then -1 else 1

theorem signum_not (s : Bool) : signum (!s) = -signum s := by cases s <;> simp [signum]

theorem signum_bne (s t : Bool) : signum (s != t) = signum s * signum t := by cases s <;> cases t <;> simp [signum]

theorem valueOf_fin (s : Bool) (m : Nat) (e : Int) : valueOf (.fin s m e) = some (signum s * m * 2 ^ e) := rfl

theorem valueOf_eq_some {x : FV} {p : ℚ} (h : valueOf x = some p) : ∃ s m e, x = .fin s m e ∧ p = signum s * m * 2 ^ e := by
  cases x with
  | nan => cases h
  | inf s => cases h
  | fin s m e => exact ⟨s, m, e, rfl, (Option.some.inj h).symm⟩

theorem two_zpow_sub_toNat {q e : Int} (h : q ≤ e) : (2 : ℚ) ^ (e - q).toNat * 2 ^ q = 2 ^ e := by
  rw [← zpow_natCast, Int.toNat_of_nonneg (Int.sub_nonneg_of_le h), ← zpow_add₀ two_ne_zero, Int.sub_add_cancel]

/-- `fixAt` is the value as a multiple of 2^q. -/
theorem fixAt_mul (s : Bool) (m : Nat) {e q : Int} (h : q ≤ e) : (fixAt s m e q : ℚ) * 2 ^ q = signum s * m * 2 ^ e := by
  rw [← two_zpow_sub_toNat h]
  cases s <;> simp [fixAt, signum] <;> ring

theorem valueOf_ofFix (k q : Int) : valueOf (ofFix k q) = some ((k : ℚ) * 2 ^ q) := by
  rw [ofFix, valueOf_fin, signum, Nat.cast_natAbs]
  rcases Int.lt_or_le k 0 with h | h
  · rw [decide_eq_true h, if_pos rfl, abs_of_neg h, Int.cast_neg, neg_mul_neg, one_mul]
  · rw [decide_eq_false (Int.not_lt.2 h), if_neg Bool.false_ne_true, abs_of_nonneg h, one_mul]

theorem valueOf_neg {x : FV} {p : ℚ} (h : valueOf x = some p) : valueOf x.neg = some (-p) := by
  obtain ⟨s, m, e, rfl, rfl⟩ := valueOf_eq_some h
  rw [FV.neg, valueOf_fin, signum_not]
  simp

section

variable {x y : FV} {p q : ℚ} (hx : valueOf x = some p) (hy : valueOf y = some q)
include hx hy

theorem valueOf_mul : valueOf (x.mul y) = some (p * q) := by
  obtain ⟨s, m, e, rfl, rfl⟩ := valueOf_eq_some hx
  obtain ⟨t, n, k, rfl, rfl⟩ := valueOf_eq_some hy
  rw [FV.mul, valueOf_fin, signum_bne, zpow_add₀ two_ne_zero]
  push_cast
  ring_nf

theorem valueOf_add (d : Dir) : valueOf (FV.add d x y) = some (p + q) := by
  obtain ⟨s, m, e, rfl, rfl⟩ := valueOf_eq_some hx
  obtain ⟨t, n, k, rfl, rfl⟩ := valueOf_eq_some hy
  have sum : ((fixAt s m e (min e k) + fixAt t n k (min e k) : Int) : ℚ) * 2 ^ min e k = signum s * m * 2 ^ e + signum t * n * 2 ^ k := by
    rw [Int.cast_add, add_mul, fixAt_mul s m (min_le_left e k), fixAt_mul t n (min_le_right e k)]
  rw [FV.add, ← sum]
  split
  next zero => rw [valueOf_fin, zero]; simp
  next => exact valueOf_ofFix ..

/-- The order of finite values is that of the rationals. -/
theorem lt_iff_of_valueOf : x.lt y = true ↔ p < q := by
  obtain ⟨s, m, e, rfl, rfl⟩ := valueOf_eq_some hx
  obtain ⟨t, n, k, rfl, rfl⟩ := valueOf_eq_some hy
  rw [FV.lt, decide_eq_true_iff, ← fixAt_mul s m (min_le_left e k), ← fixAt_mul t n (min_le_right e k),
    mul_lt_mul_iff_left₀ (by positivity), Int.cast_lt]

end

/-! ### Codes of a format (R76, R77)

The bits of an encoding below its sign are its code. -/

/-- The exponent field of a code, where the subnormals count as the least normals do. -/
def Fmt.field (f : Fmt) (c : Nat) : Nat := max (c / 2 ^ f.mb) 1

/-- The significand of a finite code as a whole number of last places. -/
def Fmt.signif (f : Fmt) (c : Nat) : Nat := c - (f.field c - 1) * 2 ^ f.mb

/-- The exponent of the last place of a finite code. -/
def Fmt.lastPlace (f : Fmt) (c : Nat) : Int := f.field c - f.bias - f.mb

section

variable {f : Fmt}

theorem Fmt.inf_le (f : Fmt) : f.inf ≤ 2 ^ (f.eb + f.mb) := by
  rw [Fmt.inf, Nat.pow_add]; exact Nat.mul_le_mul_right _ (Nat.sub_le ..)

theorem Fmt.field_lt {c : Nat} (finite : c < f.inf) : c / 2 ^ f.mb < 2 ^ f.eb - 1 := (Nat.div_lt_iff_lt_mul (Nat.two_pow_pos _)).2 finite

/-- A finite encoding by its sign and its code. -/
theorem Fmt.unpack_finite {n : Nat} (finite : n % 2 ^ (f.eb + f.mb) < f.inf) :
    f.unpack n = .fin (n / 2 ^ (f.eb + f.mb) % 2 == 1) (f.signif (n % 2 ^ (f.eb + f.mb))) (f.lastPlace (n % 2 ^ (f.eb + f.mb))) := by
  have hx : n / 2 ^ f.mb % 2 ^ f.eb = n % 2 ^ (f.eb + f.mb) / 2 ^ f.mb := by
    rw [Nat.add_comm, Nat.pow_add, Nat.mod_mul_right_div_self]
  have hm : n % 2 ^ f.mb = n % 2 ^ (f.eb + f.mb) % 2 ^ f.mb := (Nat.mod_mod_of_dvd _ (Nat.pow_dvd_pow 2 (Nat.le_add_left ..))).symm
  have split := Nat.div_add_mod (n % 2 ^ (f.eb + f.mb)) (2 ^ f.mb)
  rw [Fmt.unpack, hx, hm, if_neg (Fmt.field_lt finite).ne, Fmt.signif, Fmt.lastPlace, Fmt.field]
  generalize n % 2 ^ (f.eb + f.mb) = c at *
  split
  next zero => simp [zero, Nat.mod_eq_of_lt ((Nat.div_eq_zero_iff_lt (Nat.two_pow_pos _)).1 zero)]
  next pos =>
    rw [max_eq_left (Nat.one_le_iff_ne_zero.2 pos)]
    obtain ⟨x, hx⟩ := Nat.exists_eq_succ_of_ne_zero pos
    rw [hx] at split ⊢
    congr 1
    rw [Nat.mul_succ] at split
    rw [Nat.succ_sub_one, Nat.mul_comm x]
    omega

/-- An encoding whose value is finite has a finite code. -/
theorem Fmt.code_lt_of_valueOf {n : Nat} {p : ℚ} (h : valueOf (f.unpack n) = some p) : n % 2 ^ (f.eb + f.mb) < f.inf := by
  by_contra inf
  have hx : n / 2 ^ f.mb % 2 ^ f.eb = 2 ^ f.eb - 1 := by
    have lower := (Nat.le_div_iff_mul_le (Nat.two_pow_pos _)).2 (Nat.not_lt.1 inf)
    rw [Nat.add_comm, Nat.pow_add, Nat.mod_mul_right_div_self] at lower
    have := Nat.mod_lt (n / 2 ^ f.mb) (Nat.two_pow_pos f.eb)
    omega
  rw [Fmt.unpack, if_pos hx] at h
  split at h <;> cases h

theorem Fmt.sign_add_div {c : Nat} (s : Bool) (finite : c < f.inf) : ((f.sign s + c) / 2 ^ (f.eb + f.mb) % 2 == 1) = s := by
  have low := Nat.lt_of_lt_of_le finite f.inf_le
  cases s
  · simp [Fmt.sign, Nat.div_eq_of_lt low]
  · simp [Fmt.sign, Nat.add_div_left, Nat.div_eq_of_lt low]

theorem Fmt.sign_add_mod {c : Nat} (s : Bool) (finite : c < f.inf) : (f.sign s + c) % 2 ^ (f.eb + f.mb) = c := by
  have low := Nat.lt_of_lt_of_le finite f.inf_le
  cases s <;> simp [Fmt.sign, Nat.mod_eq_of_lt low]

/-- An encoding is its sign and its code. -/
theorem Fmt.sign_add_code {n : Nat} (h : n < 2 ^ f.width) :
    f.sign (n / 2 ^ (f.eb + f.mb) % 2 == 1) + n % 2 ^ (f.eb + f.mb) = n := by
  have top : n / 2 ^ (f.eb + f.mb) < 2 := by
    rwa [Nat.div_lt_iff_lt_mul (Nat.two_pow_pos _), ← Nat.pow_succ', Nat.succ_eq_add_one, Nat.add_comm, ← Nat.add_assoc]
  have split := Nat.div_add_mod n (2 ^ (f.eb + f.mb))
  rcases Nat.le_one_iff_eq_zero_or_eq_one.1 (Nat.le_of_lt_succ top) with h | h <;> rw [h] at split ⊢ <;> simpa [Fmt.sign] using split

section

variable {x r : Nat} (small : r < 2 ^ (f.mb + 1)) (normal : x = 0 ∨ 2 ^ f.mb ≤ r)
include small normal

theorem Fmt.field_code : f.field (x * 2 ^ f.mb + r) = x + 1 := by
  rw [Fmt.field, Nat.add_comm, Nat.add_mul_div_right _ _ (Nat.two_pow_pos _)]
  rw [Nat.pow_succ] at small
  rcases Nat.lt_or_ge r (2 ^ f.mb) with sub | nor
  · have := normal.resolve_right (Nat.not_le.2 sub)
    simp [this, Nat.div_eq_of_lt sub]
  · have := Nat.div_eq_of_lt_le (k := 1) (by omega) (by omega : r < (1 + 1) * 2 ^ f.mb)
    omega

/-- A finite code made of x binades and r last places has r as its significand. -/
theorem Fmt.unpack_code (s : Bool) (finite : x * 2 ^ f.mb + r < f.inf) :
    f.unpack (f.sign s + (x * 2 ^ f.mb + r)) = .fin s r (x + 1 - f.bias - f.mb) := by
  rw [Fmt.unpack_finite (by rwa [Fmt.sign_add_mod s finite]), Fmt.sign_add_mod s finite, Fmt.sign_add_div s finite, Fmt.signif, Fmt.lastPlace,
    Fmt.field_code small normal, Nat.add_sub_cancel, Nat.add_sub_cancel_left]
  push_cast; rfl

/-- A number that a format holds is packed to its code, whatever the direction. -/
theorem Fmt.pack_code (d : Dir) (sat s : Bool) (finite : x * 2 ^ f.mb + r < f.inf) :
    f.pack d sat s r (x + 1 - f.bias - f.mb) = f.sign s + (x * 2 ^ f.mb + r) := by
  rw [Fmt.pack]
  split
  next zero =>
    subst zero
    have : x = 0 := normal.resolve_right (Nat.not_le.2 (Nat.two_pow_pos _))
    simp [this]
  next pos =>
    have lead : Nat.log2 r < f.mb + 1 := (Nat.log2_lt pos).2 small
    have scale : max ((x + 1 - f.bias - f.mb : Int) + Nat.log2 r) (1 - f.bias) - f.mb = x + 1 - f.bias - f.mb := by
      rcases normal with rfl | nor
      · omega
      · have := (Nat.le_log2 pos).2 nor
        omega
    have binades : ((x + 1 - f.bias - f.mb : Int) + f.mb + f.bias - 1).toNat = x := by omega
    simp only [scale, binades, roundAt, le_refl, if_true, Int.sub_self, Int.toNat_zero, Nat.pow_zero, Nat.mul_one]
    rw [if_neg (Nat.not_le.2 finite)]

end

theorem Fmt.signif_lt (c : Nat) : f.signif c < 2 ^ (f.mb + 1) := by
  have split := Nat.div_add_mod c (2 ^ f.mb)
  have rest := Nat.mod_lt c (Nat.two_pow_pos f.mb)
  rw [Fmt.signif, Fmt.field, Nat.pow_succ]
  rcases Nat.eq_zero_or_pos (c / 2 ^ f.mb) with h | h
  · rw [h] at split ⊢; simp; omega
  · rw [max_eq_left h, Nat.sub_mul, Nat.one_mul, Nat.mul_comm (c / _)]; omega

theorem Fmt.signif_normal (c : Nat) : f.field c - 1 = 0 ∨ 2 ^ f.mb ≤ f.signif c := by
  have split := Nat.div_add_mod c (2 ^ f.mb)
  rw [Fmt.signif, Fmt.field]
  rcases Nat.eq_zero_or_pos (c / 2 ^ f.mb) with h | h
  · simp [h]
  · right
    have one := Nat.le_mul_of_pos_right (2 ^ f.mb) h
    rw [max_eq_left h, Nat.sub_mul, Nat.one_mul, Nat.mul_comm (c / _)]; omega

theorem Fmt.field_pos (c : Nat) : 1 ≤ f.field c := le_max_right ..

theorem Fmt.binades_add_signif (c : Nat) : (f.field c - 1) * 2 ^ f.mb + f.signif c = c := by
  refine Nat.add_sub_cancel' ?_
  rw [Fmt.field]
  rcases Nat.eq_zero_or_pos (c / 2 ^ f.mb) with h | h
  · simp [h]
  · rw [max_eq_left h]
    exact (Nat.mul_le_mul_right _ (Nat.sub_le ..)).trans (Nat.div_mul_le_self ..)

/-- Rounding changes no encoding of a finite value (R84, R86). -/
theorem Fmt.round_unpack {n : Nat} (d : Dir) (sat : Bool) (h : n < 2 ^ f.width) (finite : n % 2 ^ (f.eb + f.mb) < f.inf) :
    f.round d sat (f.unpack n) = n := by
  have place : f.lastPlace (n % 2 ^ (f.eb + f.mb)) = ((f.field (n % 2 ^ (f.eb + f.mb)) - 1 : Nat) : Int) + 1 - f.bias - f.mb := by
    have := f.field_pos (n % 2 ^ (f.eb + f.mb))
    rw [Fmt.lastPlace]; omega
  rw [Fmt.unpack_finite finite, Fmt.round, place, Fmt.pack_code (Fmt.signif_lt _) (Fmt.signif_normal _), Fmt.binades_add_signif,
    Fmt.sign_add_code h]
  rwa [Fmt.binades_add_signif]

end

/-! ### Lanes of the float words (R249 to R251) -/

/-- Settles O29: the lanes of the float words word by word, the exact sums and products as rationals, and the encodings that are their own
rounding. -/
theorem floatLanes : Obligations.FloatLanes := by
  unfold Obligations.FloatLanes
  refine ⟨⟨?_, fun d x y p q hx hy => ⟨valueOf_add hx hy d, valueOf_mul hx hy, valueOf_neg hx⟩⟩, fun m hm d sat n hn finite => ?_⟩
  · intro i d a b k t fields _
    unfold floatFields at fields
    split at fields <;> cases fields <;> exact vectorTo_writesLanes (fun _ => rfl) fun _ _ => rfl
  · have low : m.width - 1 = m.eb + m.mb := by rw [Fmt.width]; omega
    exact Fmt.round_unpack d sat hn (low ▸ finite)

end Sys2Proof.Machine
end

section

/-! # Conversion lanes (O35)

A wider format holds every finite value of a narrower one (`Fmt.unpack_pack_exact`). -/

namespace Sys2Proof.Machine

open Sys2Proof.Safety

section

variable {f : Fmt}

theorem Fmt.two_pow_eb (h : 1 < f.eb) : (2 : Int) ^ f.eb = 2 * f.bias + 2 := by
  rw [Fmt.bias, ← Nat.sub_add_cancel h.le, pow_succ, Nat.add_sub_cancel]; ring

theorem Fmt.bias_pos (h : 1 < f.eb) : 1 ≤ f.bias := by
  have : (2 : Int) ^ 1 ≤ 2 ^ (f.eb - 1) := by exact_mod_cast Nat.pow_le_pow_right Nat.two_pos (by omega)
  rw [Fmt.bias]; omega

/-- The range of the finite values of a format. -/
theorem Fmt.unpack_bounds {n m : Nat} {s : Bool} {e : Int} (h : 1 < f.eb) (hn : f.unpack n = .fin s m e) :
    m < 2 ^ (f.mb + 1) ∧ 1 - f.bias - f.mb ≤ e ∧ e + f.mb ≤ f.bias := by
  have finite := Fmt.code_lt_of_valueOf (f := f) (n := n) (by rw [hn]; rfl)
  rw [Fmt.unpack_finite finite] at hn
  cases hn
  have field := Fmt.field_lt finite
  have cap := Fmt.two_pow_eb h
  have one := Fmt.bias_pos h
  refine ⟨Fmt.signif_lt _, ?_⟩
  rw [Fmt.lastPlace, Fmt.field]
  generalize n % 2 ^ (f.eb + f.mb) / 2 ^ f.mb = x at *
  zify [Nat.one_le_two_pow] at field
  rw [cap] at field
  push_cast
  omega

/-- A number of at most so many digits and in the format's range is packed to an encoding of its value, whatever the direction. -/
theorem Fmt.unpack_pack_exact {m : Nat} {e : Int} (d : Dir) (sat s : Bool) (h : 1 < f.eb) (digits : m < 2 ^ (f.mb + 1))
    (small : 1 - f.bias - f.mb ≤ e) (large : e + Nat.log2 m ≤ f.bias) :
    valueOf (f.unpack (f.pack d sat s m e)) = valueOf (.fin s m e) := by
  rw [Fmt.pack]
  split
  next zero =>
    subst zero
    have code := Fmt.unpack_code (f := f) (x := 0) (r := 0) (Nat.two_pow_pos _) (.inl rfl) s (by
      have two := Nat.pow_le_pow_right Nat.two_pos h
      rw [Nat.zero_mul, Fmt.inf]
      exact Nat.mul_pos (by omega) (Nat.two_pow_pos _))
    rw [Nat.zero_mul, Nat.add_zero] at code
    simp [code, valueOf_fin]
  next pos =>
    have lead : Nat.log2 m < f.mb + 1 := (Nat.log2_lt pos).2 digits
    obtain ⟨q, hq⟩ : ∃ q, q = max (e + Nat.log2 m) (1 - f.bias) - f.mb := ⟨_, rfl⟩
    have exact' : q ≤ e := by omega
    obtain ⟨x, hx⟩ := Int.eq_ofNat_of_zero_le (show 0 ≤ q + f.mb + f.bias - 1 by omega)
    have hr : (e - q).toNat + Nat.log2 m ≤ f.mb := by omega
    have small' : m * 2 ^ (e - q).toNat < 2 ^ (f.mb + 1) := calc
      m * 2 ^ (e - q).toNat < 2 ^ (Nat.log2 m + 1) * 2 ^ (e - q).toNat := Nat.mul_lt_mul_of_pos_right Nat.lt_log2_self (Nat.two_pow_pos _)
      _ = 2 ^ (Nat.log2 m + 1 + (e - q).toNat) := (Nat.pow_add ..).symm
      _ ≤ 2 ^ (f.mb + 1) := Nat.pow_le_pow_right Nat.two_pos (by omega)
    have normal : x = 0 ∨ 2 ^ f.mb ≤ m * 2 ^ (e - q).toNat := by
      rcases Nat.eq_zero_or_pos x with zero | pos'
      · exact .inl zero
      · refine .inr (calc
          2 ^ f.mb = 2 ^ Nat.log2 m * 2 ^ (e - q).toNat := by rw [← Nat.pow_add]; congr 1; omega
          _ ≤ m * 2 ^ (e - q).toNat := Nat.mul_le_mul_right _ (Nat.log2_self_le pos))
    have finite : x * 2 ^ f.mb + m * 2 ^ (e - q).toNat < f.inf := by
      have cap := Fmt.two_pow_eb h
      have one := Fmt.bias_pos h
      have top : x + 2 ≤ 2 ^ f.eb - 1 := by zify [Nat.one_le_two_pow]; rw [cap]; omega
      calc x * 2 ^ f.mb + m * 2 ^ (e - q).toNat < (x + 2) * 2 ^ f.mb := by rw [Nat.pow_succ] at small'; rw [Nat.add_mul]; omega
        _ ≤ f.inf := Nat.mul_le_mul_right _ top
    simp only [← hq, roundAt, if_pos exact', hx, Int.toNat_natCast]
    rw [if_neg (Nat.not_le.2 finite), Fmt.unpack_code small' normal s finite, valueOf_fin, valueOf_fin,
      show (x + 1 - f.bias - f.mb : Int) = q by omega, ← two_zpow_sub_toNat exact']
    push_cast
    congr 1
    ring

end

/-- The value of a finite encoding of one format, converted to a wider one. -/
theorem valueOf_convert {f g : Fmt} {n : Nat} (d : Dir) (sat : Bool) (hf : 1 < f.eb) (hg : 1 < g.eb) (digits : f.mb ≤ g.mb)
    (range : f.bias ≤ g.bias) (places : g.bias + g.mb ≥ f.bias + f.mb) (h : valueOf (f.unpack n) ≠ none) :
    valueOf (g.unpack (g.round d sat (f.unpack n))) = valueOf (f.unpack n) := by
  obtain ⟨p, hp⟩ := Option.ne_none_iff_exists'.1 h
  obtain ⟨s, m, e, hn, -⟩ := valueOf_eq_some hp
  obtain ⟨small, low, high⟩ := Fmt.unpack_bounds hf hn
  have lead : Nat.log2 m ≤ f.mb := by
    rcases eq_or_ne m 0 with rfl | pos
    · simp
    · exact Nat.le_of_lt_succ ((Nat.log2_lt pos).2 small)
  rw [hn, Fmt.round]
  exact Fmt.unpack_pack_exact d sat s hg (Nat.lt_of_lt_of_le small (Nat.pow_le_pow_right Nat.two_pos (by omega))) (by omega) (by omega)

/-- An integer of w bits, extended. -/
theorem elemOf_elemInt_false {w n : Nat} (v : Nat) (hw : 0 < w) (h : n < 2 ^ w) :
    elemOf v (elemInt false w n) = ((BitVec.ofNat w n).signExtend v).toNat := by
  rw [elemInt_eq false hw h, if_neg Bool.false_ne_true, BitVec.signExtend, BitVec.toNat_ofInt, elemOf]
  push_cast; rfl

/-- Settles O35: the halves by the widths of the code, and the exact conversions. -/
theorem conversionLanes : Obligations.ConversionLanes := by
  unfold Obligations.ConversionLanes
  intro d a k h c r u
  refine ⟨fun wide => ?_, fun same => ?_, fun narrow => ?_, fun tr un dir sat x hx => ⟨?_, ?_, ?_, ?_⟩⟩
  · exact vectorTo_writesLanes (fun _ => rfl) fun f j => by rw [if_pos wide]
  · exact vectorTo_writesLanes (fun _ => rfl) fun f j => by rw [if_neg same.not_lt, if_neg same.not_gt]
  · exact vectorTo_writesLanes (fun _ => rfl) fun f j => by rw [if_neg narrow.not_gt, if_pos narrow]
  · exact valueOf_convert .rne false (by decide) (by decide) (by decide) (by decide) (by decide)
  · exact valueOf_convert .rne false (by decide) (by decide) (by decide) (by decide) (by decide)
  · exact elemOf_elemInt_false 32 (by decide) hx
  · exact (elemOf_natCast 32 x).trans (Nat.mod_eq_of_lt (hx.trans (by decide)))

end Sys2Proof.Machine
end

section

/-! # Sign, extremes and approximations (O30)

A step between codes is one last place (`Fmt.mag_succ`), so that a result nudged by a few codes stays within as many last places of where it was. -/

namespace Sys2Proof.Machine

open Sys2Proof.Safety

/-! ### Magnitudes of codes (R76) -/

section

variable {f : Fmt}

/-- The magnitude of a finite code. -/
def Fmt.mag (f : Fmt) (c : Nat) : ℚ := f.signif c * 2 ^ f.lastPlace c

/-- The unit in the last place of a code. -/
def Fmt.ulp (f : Fmt) (c : Nat) : ℚ := 2 ^ f.lastPlace c

theorem Fmt.valueOf_unpack {n : Nat} {p : ℚ} (h : valueOf (f.unpack n) = some p) :
    p = signum (n / 2 ^ (f.eb + f.mb) % 2 == 1) * f.mag (n % 2 ^ (f.eb + f.mb)) := by
  rw [Fmt.unpack_finite (Fmt.code_lt_of_valueOf h), valueOf_fin, mul_assoc] at h
  exact (Option.some.inj h).symm

theorem Fmt.field_mono {c c' : Nat} (h : c ≤ c') : f.field c ≤ f.field c' := max_le_max_right 1 (Nat.div_le_div_right h)

theorem Fmt.ulp_pos (c : Nat) : 0 < f.ulp c := zpow_pos two_pos _

theorem Fmt.ulp_mono {c c' : Nat} (h : c ≤ c') : f.ulp c ≤ f.ulp c' := by
  have := Fmt.field_mono (f := f) h
  refine zpow_le_zpow_right₀ one_le_two ?_
  rw [Fmt.lastPlace, Fmt.lastPlace]; omega

/-- Neighbouring codes lie one last place of the lower apart. -/
theorem Fmt.mag_succ (c : Nat) : f.mag (c + 1) = f.mag c + f.ulp c := by
  have here := f.binades_add_signif c
  have there := f.binades_add_signif (c + 1)
  have low := f.field_pos c
  have next : f.field (c + 1) ≤ f.field c + 1 := by
    have : (c + 1) / 2 ^ f.mb ≤ c / 2 ^ f.mb + 1 := by
      rw [← Nat.add_div_right c (Nat.two_pow_pos _)]
      exact Nat.div_le_div_right (Nat.add_le_add_left Nat.one_le_two_pow c)
    rw [Fmt.field, Fmt.field]; omega
  rcases (Fmt.field_mono (f := f) (Nat.le_add_right c 1)).eq_or_lt with same | up
  · have step : f.signif (c + 1) = f.signif c + 1 := by rw [← same] at there; omega
    rw [Fmt.mag, Fmt.mag, Fmt.ulp, Fmt.lastPlace, ← same, step, Fmt.lastPlace]
    push_cast; ring
  · have binade : f.field (c + 1) = f.field c + 1 := by omega
    have above := (f.signif_normal (c + 1)).resolve_left (by omega)
    have below := f.signif_lt c
    rw [binade, Nat.add_sub_cancel, ← Nat.sub_add_cancel low, Nat.add_mul, Nat.one_mul] at there
    rw [Nat.pow_succ] at below
    have least : f.signif (c + 1) = 2 ^ f.mb := by omega
    have most : f.signif c + 1 = 2 * 2 ^ f.mb := by omega
    have place : f.lastPlace (c + 1) = f.lastPlace c + 1 := by rw [Fmt.lastPlace, Fmt.lastPlace, binade]; push_cast; ring
    have most' : (f.signif c : ℚ) + 1 = 2 * 2 ^ f.mb := by exact_mod_cast most
    rw [Fmt.mag, Fmt.mag, Fmt.ulp, least, place, zpow_add_one₀ two_ne_zero]
    push_cast
    linear_combination -(2 : ℚ) ^ f.lastPlace c * most'

/-- Of j codes upwards none has a larger last place than u. -/
theorem Fmt.mag_add_le {c j : Nat} {u : ℚ} (h : ∀ i < j, f.ulp (c + i) ≤ u) : f.mag (c + j) ≤ f.mag c + j * u := by
  induction j with
  | zero => simp
  | succ j ih =>
    have := ih fun i hi => h i (Nat.lt_succ_of_lt hi)
    have := h j (Nat.lt_succ_self j)
    rw [← Nat.add_assoc, Fmt.mag_succ]
    push_cast
    linarith

theorem Fmt.mag_mono {c c' : Nat} (h : c ≤ c') : f.mag c ≤ f.mag c' := by
  induction h with
  | refl => exact le_rfl
  | step _ ih => rw [Nat.succ_eq_add_one, Fmt.mag_succ]; exact ih.trans (le_add_of_nonneg_right (Fmt.ulp_pos _).le)

end

/-! ### Results nudged within a bound (R89) -/

/-- The codes to which a nudge may take a code upwards. -/
def nudgeUp (bound c : Nat) : Nat :=
  if bound ≤ 2 ^ 23 - c % 2 ^ 23 ∨ c < 2 ^ 23 then bound else 2 ^ 23 - c % 2 ^ 23 + (bound - (2 ^ 23 - c % 2 ^ 23)) / 2

/-- The codes to which a nudge may take a code downwards. -/
def nudgeDown (bound c : Nat) : Nat := if bound ≤ c % 2 ^ 23 ∨ c < 2 ^ 24 then bound else c % 2 ^ 23 + 2 * (bound - c % 2 ^ 23)

/-- A nudge keeps the sign and gives a finite code within those limits. -/
theorem nudge_code {n : Nat} (bound : Nat) (err : Int) (finite : n % 2 ^ 31 < fp32.inf) :
    ∃ c, c < fp32.inf ∧ nudge bound err n = n / 2 ^ 31 * 2 ^ 31 + c ∧
      c ≤ n % 2 ^ 31 + nudgeUp bound (n % 2 ^ 31) ∧ n % 2 ^ 31 ≤ c + nudgeDown bound (n % 2 ^ 31) := by
  obtain ⟨k, hk, low, high⟩ : ∃ k, nudge bound err n = n / 2 ^ 31 * 2 ^ 31 + (clampInt 0 ((fp32.inf - 1 : Nat) : Int) ((n % 2 ^ 31 : Nat) + k)).toNat ∧
      -(nudgeDown bound (n % 2 ^ 31) : Int) ≤ k ∧ k ≤ nudgeUp bound (n % 2 ^ 31) := by
    refine ⟨_, rfl, ?_, ?_⟩ <;>
    · rw [clampInt_eq (by omega)]
      simp only [nudgeDown, nudgeUp]
      omega
  refine ⟨_, ?_, hk, ?_, ?_⟩ <;> rw [clampInt_eq (by omega)] <;> omega

theorem field_fp32 (c : Nat) : fp32.field c = max (c / 2 ^ 23) 1 := rfl

theorem fp32_ulp_le {c c' : Nat} (h : fp32.field c ≤ fp32.field c') : fp32.ulp c ≤ fp32.ulp c' := by
  refine zpow_le_zpow_right₀ one_le_two ?_
  rw [Fmt.lastPlace, Fmt.lastPlace]; omega

theorem mag_nudgeUp {bound c c' : Nat} (small : bound ≤ 2) (h : c' ≤ c + nudgeUp bound c) : fp32.mag c' ≤ fp32.mag c + bound * fp32.ulp c := by
  have steps : nudgeUp bound c ≤ bound := by rw [nudgeUp]; split <;> omega
  refine (Fmt.mag_mono h).trans ((Fmt.mag_add_le (u := fp32.ulp c) fun i hi => fp32_ulp_le ?_).trans ?_)
  · rw [nudgeUp] at hi
    rw [field_fp32, field_fp32]
    split at hi <;> omega
  · have : (nudgeUp bound c : ℚ) ≤ bound := by exact_mod_cast steps
    have := mul_le_mul_of_nonneg_right this (fp32.ulp_pos c).le
    linarith

/-- Below a power of two the last place is half as large. -/
theorem ulp_below_binade {c i : Nat} (normal : 2 ^ 24 ≤ c) (h : i < c / 2 ^ 23 * 2 ^ 23) : fp32.ulp i ≤ fp32.ulp c / 2 := by
  rw [Fmt.ulp, Fmt.ulp, div_eq_mul_inv, ← zpow_sub_one₀ two_ne_zero]
  refine zpow_le_zpow_right₀ one_le_two ?_
  rw [Fmt.lastPlace, Fmt.lastPlace, field_fp32, field_fp32]
  omega

theorem mag_nudgeDown {bound c c' : Nat} (h : c ≤ c' + nudgeDown bound c) : fp32.mag c ≤ fp32.mag c' + bound * fp32.ulp c := by
  have pos := (fp32.ulp_pos c).le
  have near : ∀ lo j, lo + j = c → fp32.mag c ≤ fp32.mag lo + j * fp32.ulp c := fun lo j e => by
    rw [← e]; exact Fmt.mag_add_le fun i hi => Fmt.ulp_mono (by omega)
  have close : c ≤ c' + bound → fp32.mag c ≤ fp32.mag c' + bound * fp32.ulp c := fun hb => by
    rcases Nat.le_total c c' with up | down
    · exact (Fmt.mag_mono up).trans (le_add_of_nonneg_right (mul_nonneg (Nat.cast_nonneg _) pos))
    · have : ((c - c' : Nat) : ℚ) ≤ bound := by exact_mod_cast (by omega : c - c' ≤ bound)
      have := mul_le_mul_of_nonneg_right this pos
      have := near c' (c - c') (by omega)
      linarith
  rw [nudgeDown] at h
  split at h
  · exact close h
  · rcases Nat.le_total c (c' + bound) with hb | far
    · exact close hb
    · have split : c / 2 ^ 23 * 2 ^ 23 + c % 2 ^ 23 = c := by omega
      have base := near _ _ split
      have half := Fmt.mag_add_le (f := fp32) (c := c') (j := c / 2 ^ 23 * 2 ^ 23 - c') (u := fp32.ulp c / 2) fun i hi =>
        ulp_below_binade (by omega) (by omega)
      rw [Nat.add_sub_cancel' (by omega)] at half
      have count : ((c / 2 ^ 23 * 2 ^ 23 - c' : Nat) : ℚ) + 2 * (c % 2 ^ 23 : Nat) ≤ 2 * bound := by
        exact_mod_cast (by omega : c / 2 ^ 23 * 2 ^ 23 - c' + 2 * (c % 2 ^ 23) ≤ 2 * bound)
      have := mul_le_mul_of_nonneg_right count (half_pos (fp32.ulp_pos c)).le
      linarith

/-- r lies within k last places of x, where both are finite. -/
def Within (k : ℚ) (r x : Nat) : Prop :=
  ∀ p q, valueOf (fp32.unpack r) = some p → valueOf (fp32.unpack x) = some q →
    |p - q| ≤ k * (2 : ℚ) ^ ((max (x / 2 ^ 23 % 2 ^ 8) 1 : Nat) - 150 : Int)

theorem Within.refl {k : ℚ} (hk : 0 ≤ k) (x : Nat) : Within k x x := fun p q hp hq => by
  rw [hp] at hq; cases hq
  rw [sub_self, abs_zero]
  positivity

/-- Codes of one sign that lie within k last places in magnitude do so as values. -/
theorem within_of_mag {k : ℚ} {r x : Nat} (same : r / 2 ^ 31 % 2 = x / 2 ^ 31 % 2)
    (near : x % 2 ^ 31 < fp32.inf → |fp32.mag (r % 2 ^ 31) - fp32.mag (x % 2 ^ 31)| ≤ k * fp32.ulp (x % 2 ^ 31)) : Within k r x := by
  intro p q hp hq
  have place : fp32.ulp (x % 2 ^ 31) = (2 : ℚ) ^ ((max (x / 2 ^ 23 % 2 ^ 8) 1 : Nat) - 150 : Int) := by
    rw [Fmt.ulp, Fmt.lastPlace, field_fp32, show x % 2 ^ 31 / 2 ^ 23 = x / 2 ^ 23 % 2 ^ 8 by omega, sub_sub]; rfl
  have hs : r / 2 ^ (fp32.eb + fp32.mb) % 2 = x / 2 ^ (fp32.eb + fp32.mb) % 2 := same
  have unit : |signum (x / 2 ^ (fp32.eb + fp32.mb) % 2 == 1)| = 1 := by rw [signum]; split <;> simp
  rw [Fmt.valueOf_unpack hp, Fmt.valueOf_unpack hq, hs, ← mul_sub, abs_mul, unit, one_mul, ← place]
  exact near (Fmt.code_lt_of_valueOf hq)

theorem within_nudge {bound : Nat} (small : bound ≤ 2) (err : Int) (x : Nat) : Within bound (nudge bound err x) x := by
  intro p q hp hq
  have finite : x % 2 ^ 31 < fp32.inf := Fmt.code_lt_of_valueOf hq
  obtain ⟨c, hc, e, up, down⟩ := nudge_code bound err finite
  have low : c < 2 ^ 31 := hc.trans (by decide)
  refine within_of_mag (by omega) (fun _ => ?_) p q hp hq
  rw [e, show (x / 2 ^ 31 * 2 ^ 31 + c) % 2 ^ 31 = c by omega, abs_sub_le_iff]
  have := mag_nudgeUp small up
  have := mag_nudgeDown down
  exact ⟨by linarith, by linarith⟩

/-! ### Reciprocals and logarithms (R89) -/

section

variable {n mt : Nat} {sg : Bool} {ex : Int} (h : fp32.unpack n = .fin sg mt ex) (pos : mt ≠ 0)
include h pos

theorem rcp32_within : Within 1 (rcp32 n).1 (fp32.round .rne false (FV.div (.fin false 1 0) (.fin sg mt ex))) := by
  simp only [rcp32, h, if_neg pos]
  split
  · exact .refl zero_le_one _
  · split
    · exact .refl zero_le_one _
    · exact_mod_cast within_nudge one_le_two _ _

theorem rsq32_within (plus : sg = false) :
    Within 1 (rsq32 n).1 (fp32.round .rne false (FV.div (.fin false 1 0) (FV.sqrt (.fin sg mt ex)))) := by
  simp only [rsq32, h, if_neg pos, plus, Bool.false_eq_true, if_false]
  split
  · exact .refl zero_le_one _
  · exact_mod_cast within_nudge one_le_two _ _

theorem log32_within (plus : sg = false) (broken : mt ≠ 2 ^ Nat.log2 mt) :
    Within 2 (log32 n).1 (fp32.round .rne false (log2Exact mt ex)) := by
  simp only [log32, h, if_neg pos, plus, if_neg broken, Bool.false_eq_true, if_false]
  exact_mod_cast within_nudge le_rfl _ _

theorem rcp32_of_power (power : mt = 2 ^ Nat.log2 mt) :
    (rcp32 n).1 = fp32.round .rne false (FV.div (.fin false 1 0) (.fin sg mt ex)) := by
  simp only [rcp32, h, if_neg pos, if_pos power]

theorem log32_of_power (plus : sg = false) (power : mt = 2 ^ Nat.log2 mt) :
    (log32 n).1 = fp32.round .rne false (FV.ofInt (ex + Nat.log2 mt)) := by
  simp only [log32, h, if_neg pos, plus, if_pos power, Bool.false_eq_true, if_false]

end

/-! ### Exponentials (R89)

2 to a whole power is marked beneath its leading digit as every other is, and rounds to the same encoding down to the least subnormal. -/

theorem expProduct_zero (roots : List Nat) (i acc : Nat) : expProduct roots 0 i acc = acc := by
  induction roots generalizing i with
  | nil => rfl
  | cons r rest ih => simpa [expProduct] using ih (i - 1)

theorem exp2Exact_of_int {s : Bool} {m : Nat} {e k : Int} (digits : m < 2 ^ 24) (pos : m ≠ 0) (small : k < 128)
    (value : signum s * m * 2 ^ e = (k : ℚ)) : exp2Exact s m e = .fin false (2 * 2 ^ 128 + 1) (max (-200) k - 129) := by
  have places : 0 ≤ e + 60 := by
    by_contra tiny
    have bound : (2 : ℚ) ^ e ≤ 2 ^ (-24 : Int) := zpow_le_zpow_right₀ one_le_two (by omega)
    have nonzero : k ≠ 0 := by
      rintro rfl
      have : signum s * m * (2 : ℚ) ^ e ≠ 0 :=
        mul_ne_zero (mul_ne_zero (by cases s <;> simp [signum]) (Nat.cast_ne_zero.2 pos)) (zpow_pos two_pos e).ne'
      exact this (value.trans Int.cast_zero)
    have one : (1 : ℚ) ≤ |(k : ℚ)| := by exact_mod_cast Int.one_le_abs nonzero
    have digits' : (m : ℚ) < 2 ^ 24 := by exact_mod_cast digits
    have unit : |signum s| = 1 := by cases s <;> simp [signum]
    rw [← value, abs_mul, abs_mul, unit, one_mul, Nat.abs_cast, abs_of_pos (zpow_pos two_pos e)] at one
    have : (m : ℚ) * 2 ^ e < 2 ^ 24 * 2 ^ (-24 : Int) :=
      mul_lt_mul digits' bound (zpow_pos two_pos e) (by positivity)
    norm_num at this
    linarith
  have whole : fixAt s m (e + 60) 0 = k * 2 ^ 60 := by
    have := fixAt_mul s m places
    rw [zpow_zero, mul_one, zpow_add₀ two_ne_zero, ← mul_assoc, value] at this
    exact_mod_cast this
  have clamp : clampInt (-(200 * 2 ^ 60)) (200 * 2 ^ 60) (k * 2 ^ 60) = max (-200) k * 2 ^ 60 := by
    rw [clampInt_eq (by norm_num)]; omega
  simp only [exp2Exact, if_pos places, whole, clamp]
  rw [Int.mul_emod_left, Int.mul_ediv_cancel _ (by norm_num), Int.toNat_zero, expProduct_zero]

theorem log2_marked : Nat.log2 (2 * 2 ^ 128 + 1) = 129 := (Nat.log2_eq_iff (by norm_num)).2 ⟨by norm_num, by norm_num⟩

theorem roundAt_marked {k q : Int} (low : q ≤ k) (high : k ≤ q + 23) :
    roundAt .rne false (2 * 2 ^ 128 + 1) (k - 129) q = roundAt .rne false 1 k q := by
  obtain ⟨j, hj⟩ := Int.eq_ofNat_of_zero_le (Int.sub_nonneg_of_le low)
  obtain ⟨i, hi⟩ : ∃ i, 129 - j = i + 2 := ⟨127 - j, by omega⟩
  have whole : 2 * 2 ^ 128 = 2 ^ j * 2 ^ (i + 2) := by rw [← Nat.pow_add, ← hi, Nat.add_sub_cancel' (by omega), ← Nat.pow_succ']
  have four := Nat.one_le_two_pow (n := i)
  have one : 1 < 2 ^ (i + 2) := by rw [Nat.pow_add]; omega
  rw [roundAt, roundAt, if_neg (by omega), if_pos low, hj, show (q - (k - 129)).toNat = i + 2 by omega, whole, Int.toNat_natCast]
  have quot : (2 ^ j * 2 ^ (i + 2) + 1) / 2 ^ (i + 2) = 2 ^ j := by
    rw [Nat.add_comm, Nat.add_mul_div_right _ _ (Nat.two_pow_pos _), Nat.div_eq_of_lt one, Nat.zero_add]
  have rest : (2 ^ j * 2 ^ (i + 2) + 1) % 2 ^ (i + 2) = 1 := by rw [Nat.add_comm, Nat.add_mul_mod_self_right, Nat.mod_eq_of_lt one]
  have half : 2 ^ (i + 2 - 1) = 2 * 2 ^ i := Nat.pow_succ'
  have exact' : ∀ odd, roundsAway .rne false odd 1 (2 * 2 ^ i) = false := fun odd => by
    rw [roundsAway, decide_eq_false (by omega), decide_eq_false (by omega)]; rfl
  simp only [quot, rest, half, exact', Bool.false_eq_true, if_false, Nat.one_mul]

/-- From the least subnormal upwards the marked power rounds to the power itself. -/
theorem pack_marked {k : Int} (low : -149 ≤ k) :
    fp32.pack .rne false false (2 * 2 ^ 128 + 1) (k - 129) = fp32.pack .rne false false 1 k := by
  have bias : fp32.bias = 127 := rfl
  have places : fp32.mb = 23 := rfl
  have scale : max (k - 129 + (129 : Nat)) (1 - 127) - (23 : Nat) = max (k + (0 : Nat)) (1 - 127) - (23 : Nat) := by omega
  simp only [Fmt.pack, log2_marked, (by decide : Nat.log2 1 = 0), bias, places, scale]
  rw [roundAt_marked (by omega) (by omega)]
  rfl

/-- A power below the least subnormal is less than one last place, and half of it at most. -/
theorem pack_tiny {k : Int} (low : k < -149) : fp32.pack .rne false false 1 k = 0 := by
  have bias : fp32.bias = 127 := rfl
  have places : fp32.mb = 23 := rfl
  have scale : max (k + (0 : Nat)) (1 - 127) - (23 : Nat) = -149 := by omega
  obtain ⟨i, hi⟩ : ∃ i, (-149 - k).toNat = i + 1 := ⟨(-150 - k).toNat, by omega⟩
  have one : 1 < 2 ^ (i + 1) := Nat.one_lt_two_pow (by omega)
  have half := Nat.one_le_two_pow (n := i)
  have down : roundAt .rne false 1 k (-149) = 0 := by
    simp only [roundAt, if_neg (show ¬ -149 ≤ k by omega), hi, Nat.div_eq_of_lt one, Nat.mod_eq_of_lt one, Nat.add_sub_cancel, roundsAway,
      decide_eq_false (Nat.not_lt.2 half)]
    simp
  simp only [Fmt.pack, (by decide : Nat.log2 1 = 0), bias, places, scale, down]
  rfl

theorem pack_tiny_marked {k : Int} (low : k < -149) : fp32.pack .rne false false (2 * 2 ^ 128 + 1) (max (-200) k - 129) ≤ 1 := by
  have bias : fp32.bias = 127 := rfl
  have places : fp32.mb = 23 := rfl
  have scale : max (max (-200) k - 129 + (129 : Nat)) (1 - 127) - (23 : Nat) = -149 := by omega
  obtain ⟨i, hi⟩ : ∃ i, (-149 - (max (-200) k - 129)).toNat = i + 130 := ⟨(-20 - max (-200) k).toNat - 130, by omega⟩
  have less : 2 * 2 ^ 128 + 1 < 2 ^ (i + 130) := (by norm_num : 2 * 2 ^ 128 + 1 < 2 ^ 130).trans_le (Nat.pow_le_pow_right Nat.two_pos (by omega))
  have down : roundAt .rne false (2 * 2 ^ 128 + 1) (max (-200) k - 129) (-149) ≤ 1 := by
    simp only [roundAt, if_neg (show ¬ -149 ≤ max (-200) k - 129 by omega), hi, Nat.div_eq_of_lt less]
    split <;> omega
  have inf : fp32.inf = 2139095040 := rfl
  simp only [Fmt.pack, log2_marked, bias, places, scale, inf]
  rw [if_neg (by omega), show (-149 + ((23 : Nat) : Int) + 127 - 1).toNat = 0 by decide, Nat.zero_mul, if_neg (by omega)]
  exact (Nat.zero_add _).trans_le ((Nat.zero_add _).trans_le down)

/-- The two least codes are within two last places of what a nudge of 0 gives. -/
theorem within_nudge_zero {x : Nat} (err : Int) (h : x ≤ 1) : Within 2 (nudge 2 err 0) x := by
  obtain ⟨c, hc, e, up, -⟩ := nudge_code (n := 0) 2 err (by decide)
  have high : c ≤ 2 := up
  have zero : fp32.mag 0 = 0 := by simp [Fmt.mag, Fmt.signif]
  have span : ∀ c, c ≤ 2 → 0 ≤ fp32.mag c ∧ fp32.mag c ≤ 2 * fp32.ulp 0 := fun c hc => by
    have near := Fmt.mag_add_le (f := fp32) (c := 0) (j := c) (u := fp32.ulp 0) fun i hi => fp32_ulp_le (by
      rw [field_fp32, field_fp32]; omega)
    rw [Nat.zero_add, zero, zero_add] at near
    have : (c : ℚ) ≤ 2 := by exact_mod_cast hc
    exact ⟨zero ▸ Fmt.mag_mono (Nat.zero_le c), near.trans (mul_le_mul_of_nonneg_right this (fp32.ulp_pos 0).le)⟩
  rw [e, show 0 / 2 ^ 31 * 2 ^ 31 + c = c by omega]
  refine within_of_mag (by omega) fun _ => ?_
  rw [show c % 2 ^ 31 = c by omega, show x % 2 ^ 31 = x by omega, abs_sub_le_iff]
  have := span c high
  have := span x (by omega)
  have := Fmt.ulp_mono (f := fp32) (Nat.zero_le x)
  exact ⟨by linarith, by linarith⟩

theorem valueOf_ofInt (k : Int) : valueOf (FV.ofInt k) = some (k : ℚ) := by rw [FV.ofInt, valueOf_ofFix, zpow_zero, mul_one]

theorem exp32_within {n mt : Nat} {sg : Bool} {ex : Int} (h : fp32.unpack n = .fin sg mt ex) (pos : mt ≠ 0) :
    Within 2 (exp32 n).1 (fp32.round .rne false (exp2Exact sg mt ex)) := by
  have value := valueOf_fin sg mt ex
  simp only [exp32, h, if_neg pos, FV.toInt]
  generalize (if sg = true then -((roundAt Dir.rtz sg mt ex 0 : Nat) : Int) else ((roundAt Dir.rtz sg mt ex 0 : Nat) : Int)) = k
  split
  next below =>
    split
    next whole =>
      have equal : signum sg * mt * 2 ^ ex = (k : ℚ) := by
        rw [Bool.and_eq_true, Bool.not_eq_true', Bool.not_eq_true', ← Bool.not_eq_true, ← Bool.not_eq_true,
          lt_iff_of_valueOf (valueOf_ofInt k) value, lt_iff_of_valueOf value (valueOf_ofInt k)] at whole
        exact le_antisymm (not_lt.1 whole.1) (not_lt.1 whole.2)
      have small : k < 128 := by
        have := (lt_iff_of_valueOf value (valueOf_ofInt 128)).1 below
        rw [equal] at this
        exact_mod_cast this
      rw [exp2Exact_of_int (Fmt.unpack_bounds (by decide) h).1 pos small equal, Fmt.round, Fmt.round]
      split
      next normal => rw [max_eq_right (by omega), pack_marked normal]; exact .refl zero_le_two _
      next tiny => rw [pack_tiny (Int.not_le.1 tiny)]; exact within_nudge_zero _ (pack_tiny_marked (Int.not_le.1 tiny))
    · exact_mod_cast within_nudge le_rfl _ _
  · intro p q hp _
    have infinite : valueOf (fp32.unpack fp32.inf) = none := rfl
    rw [infinite] at hp
    cases hp

/-! ### NaNs and extremes (R77, R88, R89) -/

theorem approx_nan {op : Nat → Nat × Bool} {m : Fmt} {n : Nat} (d : Dir) (sat : Bool) (ho : op fp32.nan = (fp32.nan, false))
    (h : m.unpack n = .nan) : approx op m d sat n = m.nan := by
  have quiet : fp32.unpack fp32.nan = .nan := by decide
  simp only [approx, h, Fmt.round, ho, quiet, Bool.false_and, Bool.false_eq_true, if_false]

theorem minmax_nan {m : Fmt} {x y : Nat} (mx : Bool) (h : m.unpack x = .nan ∨ m.unpack y = .nan) : m.minmax mx x y = m.nan := by
  have : (m.unpack x).unordered (m.unpack y) = true := by
    rcases h with h | h <;> simp [FV.unordered, h]
  rw [Fmt.minmax, if_pos this]

theorem ordered_of_valueOf {a b : FV} {p q : ℚ} (ha : valueOf a = some p) (hb : valueOf b = some q) : ¬ a.unordered b = true := by
  obtain ⟨s, m, e, rfl, -⟩ := valueOf_eq_some ha
  obtain ⟨t, n, k, rfl, -⟩ := valueOf_eq_some hb
  simp [FV.unordered]

/-- Of two finite values the less is the minimum, and the other the maximum. -/
theorem minmax_of_lt {m : Fmt} {x y : Nat} {p q : ℚ} (hx : valueOf (m.unpack x) = some p) (hy : valueOf (m.unpack y) = some q) (h : p < q) :
    (m.minmax false x y = x ∧ m.minmax true x y = y) ∧ m.minmax false y x = x ∧ m.minmax true y x = y := by
  have less : (m.unpack x).lt (m.unpack y) = true := (lt_iff_of_valueOf hx hy).2 h
  have more : (m.unpack y).lt (m.unpack x) = false := Bool.eq_false_iff.2 fun e => lt_asymm h ((lt_iff_of_valueOf hy hx).1 e)
  simp [Fmt.minmax, ordered_of_valueOf hx hy, ordered_of_valueOf hy hx, less, more]

/-- Settles O30: the lanes word by word, the extremes by the order of the values, and the approximations by the codes that a nudge reaches. -/
theorem signExtremeAndApproximation : Obligations.SignExtremeAndApproximation := by
  unfold Obligations.SignExtremeAndApproximation
  refine ⟨fun d a b k t => ⟨?_, ?_, ?_, ?_, fun x y p q mx => ⟨minmax_nan mx, fun hx hy => ⟨fun h => ?_, fun h => ?_⟩⟩⟩,
    fun d a k t => ⟨?_, ?_, ?_, ?_, ?_⟩, fun n sg mt ex _ h pos => ⟨rcp32_within h pos, rsq32_within h pos, exp32_within h pos,
      log32_within h pos, fun power => ⟨rcp32_of_power h pos power, fun plus => log32_of_power h pos plus power⟩⟩⟩
  · exact vectorTo_writesLanes (fun _ => rfl) fun _ _ => rfl
  · exact vectorTo_writesLanes (fun _ => rfl) fun _ _ => rfl
  · exact vectorTo_writesLanes (fun _ => rfl) fun _ _ => rfl
  · exact vectorTo_writesLanes (fun _ => rfl) fun _ _ => rfl
  · exact (minmax_of_lt hx hy h).1
  · exact (minmax_of_lt hy hx h).2
  · exact vectorTo_writesLanes (fun _ => rfl) fun _ _ => rfl
  · exact vectorTo_writesLanes (fun _ => rfl) fun _ _ => rfl
  · exact vectorTo_writesLanes (fun _ => rfl) fun _ _ => rfl
  · exact vectorTo_writesLanes (fun _ => rfl) fun _ _ => rfl
  · intro op member d sat n _ nan
    refine approx_nan d sat ?_ nan
    simp only [List.mem_cons, List.not_mem_nil, or_false] at member
    rcases member with rfl | rfl | rfl | rfl <;> decide

end Sys2Proof.Machine
end

section

/-! # A home performs stores and atomics (O44)

A message changes the agenda, the links and the ingress tables alone (`State.Ships`), and what it brings about comes (`State.reaches_post`); a
request at its home (`AtHome`) meets nothing that parks it, so that its bytes are applied and its words pass at once. -/

namespace Sys2Proof.Machine

open Sys2Proof.Safety

/-! ### What waits goes on waiting (R377, R379) -/

/-- Whatever is under way in s, or waits at a link or a die, is so in t. -/
structure State.Persists (s t : State) : Prop where
  agenda : ∀ h ∈ s.agenda, h ∈ t.agenda
  waiting : ∀ l r, ∀ m ∈ ((s.link l).dir r).waiting, m ∈ ((t.link l).dir r).waiting
  stuck : ∀ d, ∀ m ∈ (s.ing d).stuck, m ∈ (t.ing d).stuck

theorem State.Persists.refl (s : State) : s.Persists s := ⟨fun _ h => h, fun _ _ _ h => h, fun _ _ h => h⟩

theorem State.Persists.trans {r s t : State} (h : r.Persists s) (k : s.Persists t) : r.Persists t :=
  ⟨fun x hx => k.agenda x (h.agenda x hx), fun l d m hm => k.waiting l d m (h.waiting l d m hm), fun d m hm => k.stuck d m (h.stuck d m hm)⟩

/-- A change that leaves the agenda, the links and the ingress tables as they are. -/
theorem State.Persists.of_eq {s t : State} (ha : t.agenda = s.agenda) (hl : t.links = s.links) (hi : t.ingress = s.ingress) : s.Persists t :=
  ⟨fun h hh => ha ▸ hh, fun l r m hm => by rwa [State.link, hl], fun d m hm => by rwa [State.ing, hi]⟩

theorem UnderWay.mono {s t : State} {ev : Instr} {p : Args → Prop} (h : s.Persists t) : UnderWay s ev p → UnderWay t ev p :=
  fun ⟨x, hx, e⟩ => ⟨x, h.agenda x hx, e⟩

theorem Reaches.mono {s t : State} {ev : Instr} {p : Args → Prop} (h : s.Persists t) : Reaches s ev p → Reaches t ev p := by
  rintro (u | ⟨l, r, m, hm, e⟩ | ⟨d, m, hm, e⟩)
  · exact .inl (UnderWay.mono h u)
  · exact .inr (.inl ⟨l, r, m, h.waiting l r m hm, e⟩)
  · exact .inr (.inr ⟨d, m, h.stuck d m hm, e⟩)

theorem UnderWay.imp {s : State} {ev : Instr} {p q : Args → Prop} (h : ∀ a, p a → q a) : UnderWay s ev p → UnderWay s ev q :=
  fun ⟨x, hx, e, hp⟩ => ⟨x, hx, e, h _ hp⟩

theorem Reaches.imp {s : State} {ev : Instr} {p q : Args → Prop} (h : ∀ a, p a → q a) : Reaches s ev p → Reaches s ev q := by
  rintro (u | ⟨l, r, m, hm, e, hp⟩ | ⟨d, m, hm, e, hp⟩)
  · exact .inl (UnderWay.imp h u)
  · exact .inr (.inl ⟨l, r, m, hm, e, h _ hp⟩)
  · exact .inr (.inr ⟨d, m, hm, e, h _ hp⟩)

theorem State.persists_add (s : State) (l : List Happening) : s.Persists (s.add l) :=
  ⟨fun _ h => List.mem_append_left _ h, fun _ _ _ h => h, fun _ _ h => h⟩

theorem State.underWay_add {s : State} {l : List Happening} {x : Happening} {p : Args → Prop} (h : x ∈ l) (hp : p x.arg) :
    UnderWay (s.add l) x.ev p := ⟨x, List.mem_append_right _ h, rfl, hp⟩

/-- An ingress table with more messages kept back. -/
theorem State.persists_setIng {s : State} {d : Nat} {x : Ingress} (h : ∀ m ∈ (s.ing d).stuck, m ∈ x.stuck) : s.Persists (s.setIng d x) := by
  refine ⟨fun _ h => h, fun _ _ _ h => h, fun d' m hm => ?_⟩
  rcases eq_or_ne d d' with rfl | other
  · rw [State.setIng_same]; exact h m hm
  · rwa [State.ing, State.setIng, Tab.get_put_other _ _ _ _ _ other]

theorem Link.dir_setDir_same (k : Link) (r : Bool) (x : LinkDir) : (k.setDir r x).dir r = x := by cases r <;> rfl

theorem Link.dir_setDir_other (k : Link) {r q : Bool} (x : LinkDir) (h : r ≠ q) : (k.setDir r x).dir q = k.dir q := by
  cases r <;> cases q <;> simp_all [Link.setDir, Link.dir]

/-- A direction of a link with more messages waiting. -/
theorem State.persists_setLink {s : State} {l : Nat} {r : Bool} {x : LinkDir}
    (h : ∀ m ∈ ((s.link l).dir r).waiting, m ∈ x.waiting) : s.Persists (s.setLink l ((s.link l).setDir r x)) := by
  refine ⟨fun _ h => h, fun l' r' m hm => ?_, fun _ _ h => h⟩
  rcases eq_or_ne l l' with rfl | other
  · rw [State.setLink_same]
    rcases eq_or_ne r r' with rfl | back
    · rw [Link.dir_setDir_same]; exact h m hm
    · rwa [Link.dir_setDir_other _ _ back]
  · rwa [State.link, State.setLink, Tab.get_put_other _ _ _ _ _ other]

/-! ### Messages (R377, R386, R389) -/

/-- t is s with other happenings, links and ingress tables, and with all that waited in s. -/
structure State.Ships (s t : State) : Prop extends s.Persists t where
  rest : t = { s with agenda := t.agenda, links := t.links, ingress := t.ingress }

theorem State.Ships.refl (s : State) : s.Ships s := ⟨.refl s, rfl⟩

theorem State.Ships.trans {r s t : State} (h : r.Ships s) (k : s.Ships t) : r.Ships t := by
  refine ⟨h.toPersists.trans k.toPersists, ?_⟩
  rw [k.rest, h.rest]

section

variable {s t : State} (h : s.Ships t)
include h

theorem State.Ships.bogies : t.bogies = s.bogies := by rw [h.rest]
theorem State.Ships.owner : t.owner = s.owner := by rw [h.rest]
theorem State.Ships.mem : t.mem = s.mem := by rw [h.rest]
theorem State.Ships.dies : t.dies = s.dies := by rw [h.rest]
theorem State.Ships.sys : t.sys = s.sys := by rw [h.rest]
theorem State.Ships.coaches : t.coaches = s.coaches := by rw [h.rest]
theorem State.Ships.ctxs : t.ctxs = s.ctxs := by rw [h.rest]
theorem State.Ships.consists : t.consists = s.consists := by rw [h.rest]

end

theorem State.ships_add (s : State) (l : List Happening) : s.Ships (s.add l) := ⟨s.persists_add l, rfl⟩

theorem State.ships_setIng {s : State} {d : Nat} {x : Ingress} (h : ∀ m ∈ (s.ing d).stuck, m ∈ x.stuck) : s.Ships (s.setIng d x) :=
  ⟨State.persists_setIng h, rfl⟩

theorem State.ships_forward (s : State) (d : Nat) (m : Msg) : s.Ships (s.forward d m) := by
  rw [State.forward]
  split
  next l r _ =>
    exact ⟨(State.persists_setLink fun _ h => List.mem_append_left _ h).trans (State.persists_add ..), rfl⟩
  · exact State.ships_setIng fun _ h => List.mem_append_left _ h

theorem reaches_setIng {s : State} {d : Nat} {x : Ingress} {ev : Instr} {p : Args → Prop} (h : ∃ m ∈ x.stuck, m.ev = ev ∧ p m.arg) :
    Reaches (s.setIng d x) ev p :=
  .inr (.inr ⟨d, by rwa [State.setIng_same]⟩)

/-- A message that is put to a link, or kept back at its die, brings its step about. -/
theorem State.reaches_forward (s : State) (d : Nat) (m : Msg) : Reaches (s.forward d m) m.ev (· = m.arg) := by
  rw [State.forward]
  split
  next l r _ =>
    refine .inr (.inl ⟨l, r, m, ?_, rfl, rfl⟩)
    rw [State.add, State.link]
    change m ∈ (((s.setLink l _).link l).dir r).waiting
    rw [State.setLink_same, Link.dir_setDir_same]
    exact List.mem_append_right _ (List.mem_singleton_self m)
  · exact reaches_setIng ⟨m, List.mem_append_right _ (List.mem_singleton_self m), rfl, rfl⟩

section

variable (s : State) (src ep dst ctx spread slots : Nat) (ev : Instr) (arg : Args)

theorem State.ships_post : s.Ships (s.post src ep dst ctx spread slots ev arg) := by
  simp only [State.post]
  split
  · exact s.ships_add _
  · split
    · exact State.ships_setIng fun _ h => List.mem_append_left _ h
    · refine State.Ships.trans ?_ (State.ships_forward ..)
      exact State.ships_setIng fun _ h => h

/-- What a message brings about comes. -/
theorem State.reaches_post : Reaches (s.post src ep dst ctx spread slots ev arg) ev (· = arg) := by
  simp only [State.post]
  split
  · exact .inl (State.underWay_add (List.mem_singleton_self _) rfl)
  · split
    · exact reaches_setIng ⟨_, List.mem_append_right _ (List.mem_singleton_self _), rfl, rfl⟩
    · exact State.reaches_forward ..

/-- What a message within one die brings about is under way. -/
theorem State.underWay_post_same : UnderWay (s.post src ep src ctx spread slots ev arg) ev (· = arg) := by
  rw [State.post, if_pos rfl]
  exact State.underWay_add (List.mem_singleton_self _) rfl

end

theorem State.ships_foldl {α : Type} (f : State → α → State) (h : ∀ (s : State) a, s.Ships (f s a)) (l : List α) (s : State) : s.Ships (l.foldl f s) :=
  List.foldlRecOn (motive := fun t : State => s.Ships t) l f (.refl s) fun t ht a _ => ht.trans (h t a)

/-! ### Answers (R184) -/

theorem State.ships_answer (s : State) (d : Nat) (q : Req) (val : Word) (code : Nat) : s.Ships (s.answer d q val code) := by
  rw [State.answer]
  split
  · exact .refl s
  · exact State.ships_post ..

theorem State.srcDie_of_sys {s t : State} (h : t.sys = s.sys) (q : Src) : t.srcDie q = s.srcDie q := by
  cases q <;> simp only [State.srcDie, State.hub, h]

/-- A maker on the home's own die hears the answer. -/
theorem answers_answer {s t : State} {d : Nat} {q : Req} {val : Word} {code : Nat} (h : t.sys = s.sys) :
    Answers s (t.answer d q val code) d q val code := by
  intro waits here
  rw [State.answer, if_neg waits, State.srcDie_of_sys h, here]
  exact UnderWay.imp (fun _ e => by rw [e]; exact ⟨rfl, rfl, rfl⟩) (State.underWay_post_same ..)

/-! ### Words that change their owner (R183) -/

/-- The words of some bytes. -/
def wordsOf (keys : List Nat) : List Nat := (keys.map (· / 4)).eraseDups

theorem mem_wordsOf {keys : List Nat} {w : Nat} : w ∈ wordsOf keys ↔ ∃ k ∈ keys, k / 4 = w := by
  rw [wordsOf, List.mem_eraseDups, List.mem_map]

/-- One word taken: its new owner, and who is to drop it. -/
def takeWord (me : Option Src) (r : State × List Nat) (w : Nat) : State × List Nat :=
  ({ r.1 with owner := Tab.set r.1.owner none w me },
    match Tab.get r.1.owner none w with
    | some (.task g _) => if Tab.get r.1.owner none w = me ∨ r.2.contains g then r.2 else r.2 ++ [g]
    | _ => r.2)

theorem State.takeWords_eq (s : State) (me : Option Src) (keys : List Nat) : s.takeWords me keys = (wordsOf keys).foldl (takeWord me) (s, []) := rfl

theorem takeWord_owner (me : Option Src) (r : State × List Nat) (w v : Nat) :
    Tab.get (takeWord me r w).1.owner none v = if w = v then me else Tab.get r.1.owner none v := by
  split
  next e => rw [← e]; exact Tab.get_set_same ..
  next ne => exact Tab.get_set_other _ _ _ _ _ ne

theorem takeWords_owner (me : Option Src) (ws : List Nat) (r : State × List Nat) (v : Nat) :
    Tab.get (ws.foldl (takeWord me) r).1.owner none v = if v ∈ ws then me else Tab.get r.1.owner none v := by
  induction ws generalizing r with
  | nil => simp
  | cons w rest ih =>
    rw [List.foldl_cons, ih, takeWord_owner]
    by_cases h : v ∈ rest
    · simp [h]
    · simp [h, eq_comm]

/-- Taking words changes the owners alone. -/
theorem takeWords_rest (me : Option Src) (ws : List Nat) (r : State × List Nat) :
    ∃ o, (ws.foldl (takeWord me) r).1 = { r.1 with owner := o } :=
  List.foldlRecOn (motive := fun t : State × List Nat => ∃ o, t.1 = { r.1 with owner := o }) ws _ ⟨_, rfl⟩ fun t ⟨o, e⟩ w _ => ⟨Tab.set t.1.owner none w me, by
    rw [takeWord, e]⟩

/-- Words that no other bogie owns are dropped by none. -/
theorem takeWords_owed_nil {me : Option Src} {ws : List Nat} {s : State}
    (h : ∀ w ∈ ws, ∀ g u, Tab.get s.owner none w = some (.task g u) → me = some (.task g u)) : (ws.foldl (takeWord me) (s, [])).2 = [] := by
  refine (List.foldlRecOn (motive := fun t : State × List Nat =>
    t.2 = [] ∧ ∀ w ∈ ws, ∀ g u, Tab.get t.1.owner none w = some (.task g u) → me = some (.task g u)) ws _ ⟨rfl, h⟩ ?_).1
  rintro t ⟨none', own⟩ w hw
  refine ⟨?_, fun v hv g u e => ?_⟩
  · simp only [takeWord]
    split
    next g u e => rw [if_pos (.inl (e.trans (own w hw g u e).symm)), none']
    · exact none'
  · rw [takeWord_owner] at e
    split at e
    · exact e
    · exact own v hv g u e

/-- Words that one bogie owns, and that nobody is to own, are dropped by it. -/
theorem takeWords_owed_one {g u : Nat} {ws : List Nat} {s : State} (some' : ws ≠ [])
    (h : ∀ w ∈ ws, Tab.get s.owner none w = some (.task g u)) : (ws.foldl (takeWord none) (s, [])).2 = [g] := by
  obtain ⟨w, rest, rfl⟩ := List.exists_cons_of_ne_nil some'
  have first : (takeWord none (s, []) w).2 = [g] := by simp [takeWord, h w (List.mem_cons_self ..)]
  have owned : ∀ v ∈ rest, Tab.get (takeWord none (s, []) w).1.owner none v = none ∨
      Tab.get (takeWord none (s, []) w).1.owner none v = some (.task g u) := fun v hv => by
    rw [takeWord_owner]
    split
    · exact .inl rfl
    · exact .inr (h v (List.mem_cons_of_mem _ hv))
  refine (List.foldlRecOn (motive := fun t : State × List Nat =>
    t.2 = [g] ∧ ∀ v ∈ rest, Tab.get t.1.owner none v = none ∨ Tab.get t.1.owner none v = some (.task g u)) rest _ ⟨first, owned⟩ ?_).1
  rintro t ⟨one, own⟩ w hw
  refine ⟨?_, fun v hv => ?_⟩
  · rcases own w hw with e | e <;> simp [takeWord, e, one]
  · rw [takeWord_owner]
    split
    · exact .inl rfl
    · exact own v hv

theorem State.ships_sendDrops (s : State) (d : Nat) (q : Req) (l : List Nat) : s.Ships (s.sendDrops d q l) :=
  State.ships_foldl _ (fun _ _ => State.ships_post ..) l s

theorem State.reaches_drop (s : State) (d : Nat) (q : Req) (g : Nat) :
    Reaches (s.sendDrops d q [g]) .dropReceived fun b => b.g = g ∧ b.d = d ∧ b.req = q ∧ b.flag = false := by
  refine Reaches.imp ?_ (State.reaches_post ..)
  rintro b rfl
  exact ⟨rfl, rfl, rfl, rfl⟩

/-! ### Words pass to a new owner (R183, R184) -/

section

variable (s : State) (d : Nat) (q : Req) {me : Option Src} {keys : List Nat} {old : Nat}

theorem State.passWords_of_nil {t : State} (h : (wordsOf keys).foldl (takeWord me) (s, []) = (t, [])) :
    s.passWords d q me keys old = t.performed d q old := by
  rw [State.passWords, State.takeWords_eq, h]; rfl

theorem State.passWords_of_cons {t : State} {g : Nat} {r : List Nat} (h : (wordsOf keys).foldl (takeWord me) (s, []) = (t, g :: r)) :
    s.passWords d q me keys old = (t.sendDrops d q (g :: r)).setDie d { (t.sendDrops d q (g :: r)).die d with
      dropping := ((t.sendDrops d q (g :: r)).die d).dropping ++ [{ req := q, owed := g :: r, words := wordsOf keys, old := old }] } := by
  rw [State.passWords, State.takeWords_eq, h]; rfl

/-- Words pass without a change of any bogie, where telling the maker changes none. -/
theorem State.passWords_bogies (tell : ∀ t : State, (t.performed d q old).bogies = t.bogies) : (s.passWords d q me keys old).bogies = s.bogies := by
  obtain ⟨o, e⟩ := takeWords_rest me (wordsOf keys) (s, [])
  rcases h : (wordsOf keys).foldl (takeWord me) (s, []) with ⟨t, _ | ⟨g, r⟩⟩ <;> rw [h] at e <;> dsimp only at e
  · rw [State.passWords_of_nil s d q h, tell, e]
  · rw [State.passWords_of_cons s d q h, State.setDie_bogies, (State.ships_sendDrops ..).bogies, e]

/-- Where no bogie is to drop a word, the request is performed at once. -/
theorem State.passWords_told (h : ∀ k ∈ keys, ∀ g u, Tab.get s.owner none (k / 4) = some (.task g u) → me = some (.task g u)) :
    ∃ o, s.passWords d q me keys old = State.performed { s with owner := o } d q old := by
  obtain ⟨o, e⟩ := takeWords_rest me (wordsOf keys) (s, [])
  have nil : ((wordsOf keys).foldl (takeWord me) (s, [])).2 = [] := takeWords_owed_nil fun w hw => by
    obtain ⟨k, hk, rfl⟩ := mem_wordsOf.1 hw
    exact h k hk
  exact ⟨o, State.passWords_of_nil s d q (Prod.ext e nil)⟩

/-- Where one bogie owns every word and nobody is to, it is told to drop them, and the request waits for it. -/
theorem State.passWords_owed {g u : Nat} (some' : keys ≠ []) (h : ∀ k ∈ keys, Tab.get s.owner none (k / 4) = some (.task g u))
    (settled : (s.die d).dropping = []) :
    (((s.passWords d q none keys old).die d).dropping = [{ req := q, owed := [g], words := wordsOf keys, old := old }]) ∧
    (∀ k ∈ keys, Tab.get (s.passWords d q none keys old).owner none (k / 4) = none) ∧
    Reaches (s.passWords d q none keys old) .dropReceived fun b => b.g = g ∧ b.d = d ∧ b.req = q ∧ b.flag = false := by
  obtain ⟨o, e⟩ := takeWords_rest none (wordsOf keys) (s, [])
  have one : ((wordsOf keys).foldl (takeWord none) (s, [])).2 = [g] := by
    refine takeWords_owed_one (u := u) ?_ fun w hw => ?_
    · obtain ⟨k, r, rfl⟩ := List.exists_cons_of_ne_nil some'
      exact List.ne_nil_of_mem (mem_wordsOf.2 ⟨k, List.mem_cons_self .., rfl⟩)
    · obtain ⟨k, hk, rfl⟩ := mem_wordsOf.1 hw
      exact h k hk
  have passed : ∀ k ∈ keys, Tab.get o none (k / 4) = none := fun k hk => by
    have := takeWords_owner none (wordsOf keys) (s, []) (k / 4)
    rwa [e, if_pos (mem_wordsOf.2 ⟨k, hk, rfl⟩)] at this
  have sent := State.ships_sendDrops { s with owner := o } d q [g]
  rw [State.passWords_of_cons s d q (Prod.ext e one)]
  refine ⟨?_, fun k hk => ?_, ?_⟩
  · rw [State.setDie_same, State.die, sent.dies]
    exact congrArg (· ++ _) settled
  · rw [State.setDie_owner, sent.owner]
    exact passed k hk
  · refine Reaches.mono ?_ (State.reaches_drop ({ s with owner := o } : State) d q g)
    exact .of_eq rfl rfl rfl

end

/-! ### Bytes applied at their home (R183, R298) -/

/-- t is s with other bytes in memory, and with other marks of poison. -/
def State.Stores (s t : State) (m : List Host.Cell) : Prop := ∃ p w, t = { s with mem := m, poison := p, wiping := w }

theorem State.wipeLine_stores (s : State) (q : Src) (k : Nat) (mask : BitVec 64) : s.Stores (s.wipeLine q k mask) s.mem := by
  simp only [State.wipeLine]
  split <;> split <;> exact ⟨_, _, rfl⟩

theorem writeBytes_foldl (l : Leaf) (bytes : Tab Byte) (s : State) :
    bytes.foldl (fun s e => s.writeByte (l.phys e.1) e.2) s =
      { s with mem := bytes.foldl (fun m e => Tab.set m unlisted (l.phys e.1) e.2) s.mem } := by
  induction bytes generalizing s with
  | nil => rfl
  | cons e r ih => exact ih _

theorem State.applyBytes_stores (s : State) (q : Src) (l : Leaf) (bytes : Tab Byte) :
    s.Stores (s.applyBytes q l bytes) (bytes.foldl (fun m e => Tab.set m unlisted (l.phys e.1) e.2) s.mem) := by
  rw [State.applyBytes, writeBytes_foldl]
  refine List.foldlRecOn (motive := fun t : State => s.Stores t _) _ _ ⟨_, _, rfl⟩ ?_
  rintro t ⟨p, w, rfl⟩ k _
  exact State.wipeLine_stores _ q k _

theorem State.poisonBytes_stores {s t : State} {m : List Host.Cell} (l : Leaf) (bytes : Tab Byte) (h : s.Stores t m) :
    s.Stores (t.poisonBytes l bytes) m := by
  obtain ⟨p, w, rfl⟩ := h
  exact ⟨_, _, rfl⟩

/-! ### A request at its home (R350, R352, R353, R416) -/

section

variable {s : State} {d : Nat} {q : Req} {l : Leaf} (h : AtHome s d q l)
include h

theorem snapGuard_atHome {a : Nat} (ha : a ∈ opUnits q.op) : s.snapGuard d q.ctx a l = some s := by
  simp [State.snapGuard, State.otherUnits, h.alone, State.guardUnit, h.drained a ha]

/-- Nothing parks a request at its home, and nothing is done before its bytes are applied. -/
theorem beforeWrite_atHome : s.beforeWrite d q l = .ok s := by
  have guards : (opUnits q.op).foldl (fun (o : Option State) a => o.bind fun s => s.snapGuard d q.ctx a l) (some s) = some s :=
    List.foldlRecOn (motive := fun o => o = some s) _ _ rfl fun o ho a ha => by rw [ho]; exact snapGuard_atHome h ha
  have aliases : s.aliases d q.ctx (opVa q.op) l true = s := by simp [State.aliases, h.alone]
  simp [State.beforeWrite, h.home, h.free, h.present, h.still, h.cls.2.2, guards, aliases]

theorem dropsOwed_atHome (va n : Nat) : s.dropsOwed d l va n = false := by rw [State.dropsOwed, h.settled]; rfl

end

/-! ### Stores (R183, R193, R228, R229) -/

theorem State.performed_store {s : State} {d : Nat} {q : Req} {old : Nat} {bytes : Tab Byte} {rel bp : Bool} {note : Option Note}
    (hq : q.op = .store bytes rel bp note) : s.performed d q old = s.answer d q 0 0 := by rw [State.performed, hq]

section

variable {s : State} {d : Nat} {q : Req} {l : Leaf} {bytes : Tab Byte} {rel bp : Bool} {note : Option Note}

/-- A store of no version at its home applies its bytes, and passes its words to its maker or, beside memory, answers. -/
theorem serveStore_atHome (h : AtHome s d q l) (hq : q.op = .store bytes rel bp note) (plain : ∀ v e b, note ≠ some (.version v e b)) :
    ∃ t, s.Stores t (bytes.foldl (fun m e => Tab.set m unlisted (l.phys e.1) e.2) s.mem) ∧
      s.serveStore d q bytes = if l.cls = 2 then t.answer d q 0 0 else t.ownWords d q (bytes.map fun e => l.phys e.1) := by
  refine ⟨if poisons q.op then (s.applyBytes q.src l bytes).poisonBytes l bytes else s.applyBytes q.src l bytes, ?_, ?_⟩
  · have applied := s.applyBytes_stores q.src l bytes
    split
    · exact State.poisonBytes_stores l bytes applied
    · exact applied
  · rw [State.serveStore, h.leaf]
    dsimp only
    rw [if_neg h.cls.1, if_neg h.cls.2.1, beforeWrite_atHome h, hq]
    match note with
    | none => rfl
    | some (.flag _ _) => rfl
    | some (.task _ _ _) => rfl
    | some .poison => rfl
    | some (.version v e b) => exact absurd rfl (plain v e b)

/-- What a store at its home leaves, and when its maker hears of it. -/
theorem serveStore_atHome_spec (h : AtHome s d q l) (hq : q.op = .store bytes rel bp note) (plain : ∀ v e b, note ≠ some (.version v e b)) :
    let t := s.serveStore d q bytes
    t.mem = bytes.foldl (fun m e => Tab.set m unlisted (l.phys e.1) e.2) s.mem ∧ t.bogies = s.bogies ∧
    (l.cls = 2 → t.owner = s.owner ∧ Answers s t d q 0 0) ∧
    ((∀ e ∈ bytes, ∀ g u, Tab.get s.owner none (l.phys e.1 / 4) = some (.task g u) → ownerOf q.src = some (.task g u)) →
      Answers s t d q 0 0) := by
  obtain ⟨_, ⟨p, w, rfl⟩, e⟩ := serveStore_atHome h hq plain
  rw [e]
  by_cases side : l.cls = 2
  · rw [if_pos side]
    refine ⟨?_, ?_, fun _ => ⟨?_, answers_answer rfl⟩, fun _ => answers_answer rfl⟩
    · rw [(State.ships_answer ..).mem]
    · rw [(State.ships_answer ..).bogies]
    · rw [(State.ships_answer ..).owner]
  · rw [if_neg side]
    refine ⟨?_, ?_, fun hs => absurd hs side, fun own => ?_⟩
    · exact (State.sameMemory_passWords ..).1
    · exact State.passWords_bogies _ _ _ fun t => by rw [State.performed_store hq, (State.ships_answer ..).bogies]
    · obtain ⟨o, told⟩ := State.passWords_told (me := ownerOf q.src) (keys := bytes.map fun e => l.phys e.1) (old := 0)
        ({ s with mem := bytes.foldl (fun m e => Tab.set m unlisted (l.phys e.1) e.2) s.mem, poison := p, wiping := w } : State) d q (by
          intro k hk
          obtain ⟨b, hb, rfl⟩ := List.mem_map.1 hk
          exact own b hb)
      rw [State.ownWords, told, State.performed_store hq]
      exact answers_answer rfl

/-- The row of a COPYC and the increment of its version come to memory together, or neither does. -/
theorem serveStore_version (h : AtHome s d q l) {v : Nat} {x : Word} (hq : q.op = .store bytes rel bp (some (.version v x []))) :
    let t := s.serveStore d q bytes
    let old := natOfBytes (s.readBytes (l.phys v) 8)
    (s.poisoned l v = true → t.mem = s.mem ∧ Answers s t d q 0 0x10) ∧
    (s.poisoned l v = false → old ≠ x.toNat → t.mem = s.mem ∧ Answers s t d q 0 0x22) ∧
    (s.poisoned l v = false → old = x.toNat → t.mem = Tab.setList (bytes.foldl (fun m e => Tab.set m unlisted (l.phys e.1) e.2) s.mem) unlisted
      (l.phys v) (bytesOfNat 8 (old + 1))) := by
  have e : s.serveStore d q bytes = s.commitVersion d q l bytes v x [] := by
    rw [State.serveStore, h.leaf]
    dsimp only
    rw [if_neg h.cls.1, if_neg h.cls.2.1, beforeWrite_atHome h]
    dsimp only
    rw [hq]
  simp only [e, State.commitVersion]
  refine ⟨fun bad => ?_, fun good other => ?_, fun good same => ?_⟩
  · rw [if_pos bad]
    exact ⟨(State.ships_answer ..).mem, answers_answer rfl⟩
  · rw [if_neg (by rw [good]; decide), if_neg other]
    exact ⟨(State.ships_answer ..).mem, answers_answer rfl⟩
  · rw [if_neg (by rw [good]; decide), if_pos same]
    obtain ⟨p, w, applied⟩ := State.poisonBytes_stores l (bytes.filter fun e => [].contains e.1) (s.applyBytes_stores q.src l bytes)
    rw [applied]
    exact (State.sameMemory_passWords ..).1

end

/-! ### Atomics (R94, R197 to R203) -/

section

variable {s : State} {d : Nat} {q : Req} {l : Leaf} {va n : Nat} {fn : AtomF} {x y : Word} {ord : BitVec 2}

theorem State.performed_atomic {old : Nat} (hq : q.op = .atomic va n fn x y ord .reg) :
    s.performed d q old = s.answer d q (BitVec.ofNat 64 old) 0 := by simp only [State.performed, hq, State.atomicDone]

theorem serveAtomic_atHome (h : AtHome s d q l) (hq : q.op = .atomic va n fn x y ord .reg) :
    s.serveAtomic d q va n fn x y =
      if s.poisoned l va then s.answer d q 0 0x10
      else
        let old := natOfBytes (s.readBytes (l.phys va) n)
        let t := s.writeBytes (l.phys va) (bytesOfNat n (atomNew fn n old x y))
        if l.cls = 2 then t.answer d q (BitVec.ofNat 64 old) 0 else t.passWords d q none ((List.range n).map fun i => l.phys va + i) old := by
  have leaf : s.leaf q.ctx va = some l := by have := h.leaf; rwa [hq] at this
  have told : ∀ (t : State) old code, t.atomicDone d q old code = t.answer d q (BitVec.ofNat 64 old) code := fun t old code => by
    simp only [State.atomicDone, hq]
  rw [State.serveAtomic, leaf]
  dsimp only
  rw [if_neg h.cls.1, if_neg h.cls.2.1, dropsOwed_atHome h, if_neg Bool.false_ne_true, beforeWrite_atHome h]
  simp only [told]
  rfl

theorem serveAtomic_poisoned (h : AtHome s d q l) (hq : q.op = .atomic va n fn x y ord .reg) (bad : s.poisoned l va = true) :
    (s.serveAtomic d q va n fn x y).mem = s.mem ∧ Answers s (s.serveAtomic d q va n fn x y) d q 0 0x10 := by
  rw [serveAtomic_atHome h hq, if_pos bad]
  exact ⟨(State.ships_answer ..).mem, answers_answer rfl⟩

theorem serveAtomic_spec (h : AtHome s d q l) (hq : q.op = .atomic va n fn x y ord .reg) (good : s.poisoned l va = false) :
    let old := natOfBytes (s.readBytes (l.phys va) n)
    let t := s.serveAtomic d q va n fn x y
    t.mem = (s.writeBytes (l.phys va) (bytesOfNat n (atomNew fn n old x y))).mem ∧ t.bogies = s.bogies ∧
    ((l.cls = 2 ∨ ∀ i < n, ∀ g u, Tab.get s.owner none ((l.phys va + i) / 4) ≠ some (.task g u)) → Answers s t d q (BitVec.ofNat 64 old) 0) ∧
    (∀ g u, l.cls ≠ 2 → 0 < n → (∀ i < n, Tab.get s.owner none ((l.phys va + i) / 4) = some (.task g u)) →
      (∃ p, (t.die d).dropping = [p] ∧ p.req = q ∧ p.owed = [g] ∧ p.old = old) ∧ (∀ i < n, Tab.get t.owner none ((l.phys va + i) / 4) = none) ∧
      Reaches t .dropReceived fun b => b.g = g ∧ b.d = d ∧ b.req = q ∧ b.flag = false) := by
  dsimp only
  rw [serveAtomic_atHome h hq, if_neg (by rw [good]; decide)]
  dsimp only
  by_cases side : l.cls = 2
  · rw [if_pos side]
    exact ⟨(State.ships_answer ..).mem, (State.ships_answer ..).bogies, fun _ => answers_answer rfl, fun _ _ hs => absurd side hs⟩
  · rw [if_neg side]
    refine ⟨(State.sameMemory_passWords ..).1, ?_, fun free => ?_, fun g u _ some' own => ?_⟩
    · exact State.passWords_bogies _ _ _ fun t => by rw [State.performed_atomic hq, (State.ships_answer ..).bogies]
    · obtain ⟨o, told⟩ := State.passWords_told (me := none) (keys := (List.range n).map fun i => l.phys va + i)
        (old := natOfBytes (s.readBytes (l.phys va) n))
        (s.writeBytes (l.phys va) (bytesOfNat n (atomNew fn n (natOfBytes (s.readBytes (l.phys va) n)) x y))) d q (by
          intro k hk g u owner
          obtain ⟨i, hi, rfl⟩ := List.mem_map.1 hk
          exact absurd owner (free.resolve_left side i (List.mem_range.1 hi) g u))
      rw [told, State.performed_atomic hq]
      exact answers_answer rfl
    · obtain ⟨drops, owners, comes⟩ := State.passWords_owed (g := g) (u := u) (keys := (List.range n).map fun i => l.phys va + i)
        (old := natOfBytes (s.readBytes (l.phys va) n))
        (s.writeBytes (l.phys va) (bytesOfNat n (atomNew fn n (natOfBytes (s.readBytes (l.phys va) n)) x y))) d q
        (by simp [some'.ne']) (by
          intro k hk
          obtain ⟨i, hi, rfl⟩ := List.mem_map.1 hk
          exact own i (List.mem_range.1 hi)) h.settled
      exact ⟨⟨_, drops, rfl, rfl, rfl⟩, fun i hi => owners _ (List.mem_map.2 ⟨i, List.mem_range.2 hi, rfl⟩), comes⟩

end

/-- What an integer atomic leaves, by its number. -/
theorem atomNew_int (n old : Nat) (x y : Word) :
    let b := x.toNat % 2 ^ (8 * n)
    let z := fun v => (BitVec.ofNat (8 * n) v).toInt
    let new := fun (o : BitVec 4) => atomNew (.int o) n old x y
    new 0 = (old + b) % 2 ^ (8 * n) ∧ new 1 = (old &&& b) ∧ new 2 = (old ||| b) ∧ new 3 = (old ^^^ b) ∧ z (new 4) = min (z old) (z b) ∧
    z (new 5) = max (z old) (z b) ∧ new 6 = min old b ∧ new 7 = max old b ∧ new 8 = b ∧
    atomNew .cas n old x y = (if old = b then y.toNat % 2 ^ (8 * n) else old) := by
  have pick : ∀ (c : Prop) [Decidable c] (a b : Nat), (BitVec.ofNat (8 * n) (if c then a else b)).toInt =
      if c then (BitVec.ofNat (8 * n) a).toInt else (BitVec.ofNat (8 * n) b).toInt := fun c _ a b => by split <;> rfl
  refine ⟨rfl, rfl, rfl, rfl, ?_, ?_, rfl, rfl, rfl, rfl⟩
  · exact (pick ..).trans (min_def ..).symm
  · exact (pick ..).trans (max_def ..).symm

/-- Settles O44: the request at its home by `serveStore_atHome_spec`, `serveStore_version` and `serveAtomic_spec`. -/
theorem homesServeWrites : Obligations.HomesServeWrites := by
  unfold Obligations.HomesServeWrites
  refine ⟨fun s l => ⟨?_, ?_, ?_, ?_⟩, fun n old x y _ _ => atomNew_int n old x y⟩
  · intro bytes rel bp note hq plain home low i hi host
    have spec := serveStore_atHome_spec home hq plain
    simp only [List.mem_cons, List.not_mem_nil, or_false] at hi
    rcases hi with rfl | rfl
    · refine ⟨_, rfl, ?_⟩
      have inCtx : ¬ (s.arg.req.src = .host ∧ 192 < s.arg.req.ctx) := by
        rcases host rfl with c | c
        · exact fun e => absurd e.2 (Nat.not_lt.2 c)
        · exact fun e => c e.1
      simp only [homeStore, hq, if_neg (Nat.not_le.2 low), if_neg inCtx]
      exact spec
    · refine ⟨_, rfl, ?_⟩
      simp only [faultQueueResend, State.serve, hq]
      exact spec
  · intro bytes rel bp v e hq home low host
    obtain ⟨bad, other, same⟩ := serveStore_version home hq
    have step : exec .homeStore s = .next (s.serveStore s.arg.d s.arg.req bytes) := by
      change Host.Outcome.next (homeStore s.arg.d s.arg.req s) = _
      rw [homeStore, hq]
      dsimp only
      rw [if_neg (Nat.not_le.2 low), if_neg fun e => host e.1]
    exact ⟨fun b => ⟨_, step, bad b⟩, fun g o => ⟨_, step, other g o⟩, fun g o => ⟨_, step, same g o⟩⟩
  · intro bytes rel bp note hq high
    refine ⟨_, rfl, ?_⟩
    simp only [homeStore, hq, if_pos high]
    exact ⟨(State.sameMemory_answer ..).2, (State.sameMemory_answer ..).1, answers_answer rfl⟩
  · intro va n fn x y ord hq home
    have step : exec .atomicExecute s = .next (s.serveAtomic s.arg.d s.arg.req va n fn x y) := by
      change Host.Outcome.next (atomicExecute s.arg.d s.arg.req s) = _
      rw [atomicExecute, hq]
    exact ⟨fun good => ⟨_, step, serveAtomic_spec home hq good⟩, fun bad => ⟨_, step, serveAtomic_poisoned home hq bad⟩⟩

end Sys2Proof.Machine
end

section

/-! # What an agent's list changes of the arrays

`State.Kept s t`: what waited in s still does, and the coaches of t differ from those of s in their FIFOs and leases alone. One rule for each function
of the model by which an agent's list is sent (R184, R185) or a command leaves its array (R272, R273). -/

namespace Sys2Proof.Machine

open Sys2Proof.Safety

/-- What waited in s waits in t, whose coaches have other FIFOs and leases at most. -/
structure State.Kept (s t : State) : Prop extends s.Persists t where
  coach : ∀ k, ∃ f l, t.coach k = { s.coach k with fifos := f, lease := l }

theorem State.Kept.refl (s : State) : s.Kept s := ⟨.refl s, fun _ => ⟨_, _, rfl⟩⟩

namespace State.Kept

variable {s t : State} (h : s.Kept t)
include h

theorem trans {u : State} (h' : t.Kept u) : s.Kept u := by
  refine ⟨h.toPersists.trans h'.toPersists, fun k => ?_⟩
  obtain ⟨f, l, e⟩ := h.coach k
  obtain ⟨f', l', e'⟩ := h'.coach k
  exact ⟨f', l', by rw [e', e]⟩

theorem tiles (k : Nat) : (t.coach k).tiles = (s.coach k).tiles := by obtain ⟨f, l, e⟩ := h.coach k; rw [e]
theorem slots (k : Nat) : (t.coach k).slots = (s.coach k).slots := by obtain ⟨f, l, e⟩ := h.coach k; rw [e]
theorem shadow (k : Nat) : (t.coach k).shadow = (s.coach k).shadow := by obtain ⟨f, l, e⟩ := h.coach k; rw [e]
theorem jobs (k : Nat) : (t.coach k).jobs = (s.coach k).jobs := by obtain ⟨f, l, e⟩ := h.coach k; rw [e]

/-- A change that leaves the agenda, the links, the ingress tables and the coaches as they are. -/
theorem frame {u : State} (ha : u.agenda = t.agenda) (hl : u.links = t.links) (hi : u.ingress = t.ingress) (hc : u.coaches = t.coaches) :
    s.Kept u :=
  h.trans ⟨.of_eq ha hl hi, fun k => ⟨(t.coach k).fifos, (t.coach k).lease, by rw [State.coach, hc]; rfl⟩⟩

theorem ships {u : State} (h' : t.Ships u) : s.Kept u :=
  h.trans ⟨h'.toPersists, fun k => ⟨(t.coach k).fifos, (t.coach k).lease, by rw [State.coach, h'.coaches]; rfl⟩⟩

/-- A coach with other FIFOs or another lease. -/
theorem setCoach (k : Nat) {x : Coach} (hx : ∃ f l, x = { t.coach k with fifos := f, lease := l }) : s.Kept (t.setCoach k x) := by
  refine h.trans ⟨.of_eq rfl rfl rfl, fun j => ?_⟩
  rcases eq_or_ne k j with rfl | other
  · rwa [State.setCoach_same]
  · rw [State.setCoach_other _ _ _ _ other]; exact ⟨_, _, rfl⟩

theorem add (l : List Happening) : s.Kept (t.add l) := h.ships (t.ships_add l)
theorem post (src ep dst ctx spread slots : Nat) (ev : Instr) (arg : Args) : s.Kept (t.post src ep dst ctx spread slots ev arg) :=
  h.ships (State.ships_post ..)
theorem answer (d : Nat) (q : Req) (val : Word) (code : Nat) : s.Kept (t.answer d q val code) := h.ships (State.ships_answer ..)
theorem setBogie (g : Nat) (b : Bogie) : s.Kept (t.setBogie g b) := h.frame rfl rfl rfl rfl
theorem setDie (d : Nat) (x : Die) : s.Kept (t.setDie d x) := h.frame rfl rfl rfl rfl
theorem setHart (d k : Nat) (x : Hart) : s.Kept (t.setHart d k x) := h.frame rfl rfl rfl rfl
theorem setCtx (c : Nat) (x : Ctx) : s.Kept (t.setCtx c x) := h.frame rfl rfl rfl rfl
theorem setConsist (c k : Nat) (x : Consist) : s.Kept (t.setConsist c k x) := h.frame rfl rfl rfl rfl

theorem foldl {α : Type} (f : State → α → State) (hf : ∀ (u : State) a, s.Kept u → s.Kept (f u a)) (l : List α) : s.Kept (l.foldl f t) :=
  List.foldlRecOn (motive := fun u : State => s.Kept u) l f h fun u hu a _ => hf u a hu

theorem iteFoldl {α : Type} {c : Prop} [Decidable c] (f : State → α → State) (hf : ∀ (u : State) a, s.Kept u → s.Kept (f u a)) (l : List α) :
    s.Kept (if c then l.foldl f t else t) := by
  split
  · exact h.foldl f hf l
  · exact h

theorem iteAdd {c : Prop} [Decidable c] (l : List Happening) : s.Kept (if c then t.add l else t) := by
  split
  · exact h.add l
  · exact h

/-! ### Requests on their way (R345, R349, R350, R353, R386) -/

theorem noteWalk (ctx va : Nat) : s.Kept (t.noteWalk ctx va) := by
  rw [State.noteWalk]
  split
  · exact h.frame rfl rfl rfl rfl
  · exact h

theorem lost (d : Nat) (q : Req) : s.Kept (t.lost d q) := ((h.noteWalk ..).answer ..).frame rfl rfl rfl rfl

theorem toHead (d ep : Nat) (q : Req) (l : Leaf) : s.Kept (t.toHead d ep q l) := by
  rw [State.toHead]
  split
  · exact h.post ..
  · exact h.add _

theorem deviceStore (d ep : Nat) (q : Req) (l : Leaf) (bytes : Tab Byte) : s.Kept (t.deviceStore d ep q l bytes) := by
  simp only [State.deviceStore]
  split
  · exact h.post ..
  · exact h.post ..
  · exact h.post ..
  · exact h.answer ..

theorem sendRemote (d va : Nat) (q : Req) : s.Kept (t.sendRemote d va q) := (h.add _).frame rfl rfl rfl rfl

theorem draw : s.Kept t.draw.2 := by
  rw [State.draw]
  split
  · exact h.frame rfl rfl rfl rfl
  · exact h.frame rfl rfl rfl rfl

theorem choose (n : Nat) : s.Kept (t.choose n).2 := by
  rw [State.choose]
  split
  · exact h
  · exact h.draw

theorem invalidateLines (ctx va n : Nat) : s.Kept (t.invalidateLines ctx va n) := h.frame rfl rfl rfl rfl

theorem aliases (d ctx va : Nat) (l : Leaf) (write : Bool) : s.Kept (t.aliases d ctx va l write) := by
  simp only [State.aliases]
  split
  · exact h
  · refine iteFoldl ?_ _ (fun u a hu => hu.invalidateLines ..) _
    split
    · exact h
    · split
      · exact h.setDie ..
      · split
        · exact h
        · exact (h.setDie ..).invalidateLines ..

theorem noteRead (ctx va : Nat) : s.Kept (t.noteRead ctx va) := by
  rw [State.noteRead]
  split
  · split
    · exact h
    · exact h.aliases ..
  · exact h.noteWalk ..

theorem noteParked (ctx : Nat) (o : Op) : s.Kept (t.noteParked ctx o) := by
  simp only [State.noteParked]
  split
  · exact h
  · exact h.frame rfl rfl rfl rfl

theorem park (d : Nat) (q : Req) : s.Kept (t.park d q) := by
  have noted := h.noteParked q.ctx q.op
  simp only [State.park]
  split
  · exact noted.add _
  · split
    · exact noted.setDie ..
    · exact (noted.setDie ..).add _

theorem parkRead (home : Option Nat) (q : Src) (ctx va : Nat) : s.Kept (t.parkRead home q ctx va) := by
  simp only [State.parkRead]
  split
  · split
    · exact h
    · exact h.park ..
  · exact h

theorem sendOwn (a : Args) : s.Kept (t.sendOwn a) := by
  rw [State.sendOwn]
  split
  · exact (h.parkRead ..).add _
  · exact (h.noteRead ..).add _

/-! ### Consists (R372, R373) -/

theorem fwStore (ctx va : Nat) (l : List Byte) : s.Kept (t.fwStore ctx va l) := by
  simp only [State.fwStore, State.fwSend]
  split
  · exact h.lost ..
  · split
    · exact h.toHead ..
    · split
      · exact h.deviceStore ..
      · exact h.post ..

theorem putConsist (ctx k : Nat) (c : Consist) : s.Kept (t.putConsist ctx k c) := (h.setConsist ..).fwStore ..

theorem relinkDone (c : Consist) (status : Nat) : s.Kept (t.relinkDone c status) := by
  rw [State.relinkDone]
  split
  · exact h.answer ..
  · exact h

theorem couple (q : Req) (k : Nat) (die : Word) : s.Kept (t.couple q k die) := by
  simp only [State.couple, State.useUnits]
  iterate 6
    split
    · exact h.relinkDone ..
  exact ((h.setDie ..).putConsist ..).add _

theorem uncouple (q : Req) (k : Nat) (die : Word) : s.Kept (t.uncouple q k die) := by
  simp only [State.uncouple]
  iterate 5
    split
    · exact h.relinkDone ..
  exact (h.putConsist ..).add _

/-! ### The agent's list (R184, R185) -/

theorem sendStore (a : Agent) (q : Req) (bytes : Tab Byte) : s.Kept (t.sendStore a q bytes) := by
  simp only [State.sendStore]
  split
  · split
    · exact h.lost ..
    · split
      · exact h.deviceStore ..
      · split
        · exact h.toHead ..
        · exact h.post ..
  · exact h.sendRemote ..
  · exact h.post ..
  · exact h.post ..
  · exact h.answer ..

theorem sendAtomic (a : Agent) (q : Req) (va : Nat) : s.Kept (t.sendAtomic a q va) := by
  simp only [State.sendAtomic]
  split
  · split
    · exact h.lost ..
    · split
      · exact h.post ..
      · split
        · exact h.toHead ..
        · exact h.post ..
  · exact h.post ..
  · exact h.post ..

theorem sendLoad (a : Agent) (q : Req) (va n : Nat) (sync : Bool) : s.Kept (t.sendLoad a q va n sync) := by
  simp only [State.sendLoad]
  split
  · split
    · exact h.lost ..
    · split
      · have drawn := h.choose 2
        split
        · exact drawn.post ..
        · split
          · exact drawn.answer ..
          · exact drawn.answer ..
      · exact h.post ..
  · exact h.sendRemote ..
  · exact h.post ..
  · exact h.post ..

theorem sendOp (a : Agent) (x : Transit) : s.Kept (t.sendOp a x) := by
  simp only [State.sendOp]
  split
  case h_1 => exact h.sendStore ..
  case h_2 =>
    split
    · exact h.sendAtomic ..
    · exact h.post ..
    · exact h.answer ..
  case h_3 => exact h.sendAtomic ..
  case h_4 => exact h.sendLoad ..
  case h_5 =>
    split
    · exact h.sendRemote ..
    · split
      · exact h.sendOwn _
      · exact h.post ..
  case h_6 | h_7 | h_8 | h_9 | h_10 | h_15 => exact h.post ..
  case h_11 =>
    split
    · exact h.post ..
    · exact h.answer ..
  case h_12 | h_13 => exact h.add _
  case h_14 =>
    split
    · exact h.sendRemote ..
    · exact h.post ..
  case h_16 => exact h.couple ..
  case h_17 => exact h.uncouple ..
  case h_18 | h_19 => exact h.answer ..

theorem setTransit (a : Agent) (l : List Transit) : s.Kept (t.setTransit a l) := by
  cases a with
  | bogie g => exact h.setBogie ..
  | hart d k => exact h.setHart ..

theorem reply (a : Agent) (uid : Nat) (r : Except (Nat × Word) Word) : s.Kept (t.reply a uid r) := by
  cases a with
  | bogie g =>
    simp only [State.reply, State.setReply]
    split
    · split
      · exact (h.setBogie ..).add _
      · exact h.setBogie ..
    · exact h.setBogie ..
  | hart d k =>
    simp only [State.reply]
    split
    · exact h
    · split
      · split
        · exact h.setHart ..
        · exact h.setHart ..
      · exact ((h.setHart ..).setHart ..).add _

theorem enqueueMatrix {c : MxCmd} {u : State} (e : t.enqueueMatrix c = some u) : s.Kept u := by
  simp only [State.enqueueMatrix] at e
  split at e
  · cases e
  · cases e
    exact (h.setCoach _ ⟨_, _, rfl⟩).add _

theorem checkBwait (g : Nat) : s.Kept (t.checkBwait g) := by
  simp only [State.checkBwait]
  split
  · split
    · split
      · split
        · split
          · exact (h.setBogie ..).add _
          · exact h
        · exact h
      · exact h
    · exact h
  · exact h

theorem pumpOne (a : Agent) (id : Nat) : s.Kept (t.pumpOne a id) := by
  simp only [State.pumpOne]
  split
  · exact h
  · split
    · exact h
    · split
      case h_1 =>
        split
        next e => exact (h.enqueueMatrix e).setTransit ..
        · exact h
      case h_2 => exact (h.setTransit ..).reply ..
      case h_3 =>
        split
        · exact h
        · exact (h.setTransit ..).reply ..
      case h_4 =>
        split
        · exact ((h.setTransit ..).setBogie ..).checkBwait _
        · exact h.setTransit ..
      case h_5 => exact (h.setTransit ..).add _
      case h_6 =>
        split
        · exact h
        · exact (h.setTransit ..).sendOp ..
      case h_7 => exact (h.setTransit ..).sendOp ..

theorem pump (a : Agent) : s.Kept (t.pump a) := h.foldl _ (fun _ _ hu => hu.pumpOne ..) _

/-! ### A command leaves its array (R123, R268, R272, R273) -/

theorem checkDrain (g uid : Nat) : s.Kept (t.checkDrain g uid) := by
  rw [State.checkDrain]
  split
  · exact h.add _
  · exact h

theorem mxComplete (c : MxCmd) : s.Kept (t.mxComplete c) := by
  simp only [State.mxComplete]
  refine State.Kept.pump (State.Kept.checkDrain ?_ ..) _
  split
  · exact h.setBogie ..
  · exact h

theorem mxDone (k : Nat) (c : MxCmd) : s.Kept (t.mxDone k c) := by
  simp only [State.mxDone, State.arbitrate]
  have counted := h.setCoach k ⟨(t.coach k).fifos, (t.coach k).lease.map fun l => { l with done := l.done + 1 }, rfl⟩
  refine State.Kept.add (State.Kept.iteAdd (State.Kept.pump (State.Kept.setBogie ?_ ..) _) _) _
  split
  · exact counted.iteAdd _
  · exact counted

end State.Kept

end Sys2Proof.Machine
end

section

/-! # What the array reads and keeps

A read of memory rests on the pages and the bytes, not on what the coaches hold; and a table made of rows holds at each place what its row does. -/

namespace Sys2Proof.Machine

open Sys2Proof.Safety

/-! ### Tables -/

/-- The value just put is found. -/
theorem find_put_same {α : Type} (t : Tab α) (k : Nat) (v : α) : Tab.find (Tab.put t k v) k = some v := by
  induction t with
  | nil => simp [Tab.put, Tab.find]
  | cons e r ih =>
    obtain ⟨j, w⟩ := e
    unfold Tab.put
    split
    · simp [Tab.find]
    · split
      · simp [Tab.find]
      · next ne => simp [Tab.find, Ne.symm ne, ih]

/-- A number whose entry is taken away is not found. -/
theorem find_del_same {α : Type} (t : Tab α) (k : Nat) : Tab.find (Tab.del t k) k = none := by
  induction t with
  | nil => rfl
  | cons e r ih =>
    obtain ⟨j, w⟩ := e
    unfold Tab.del
    split
    · exact ih
    · next ne => simp [Tab.find, ne, ih]

/-- A number is read as v where every entry that it has is v, and it has one unless v is the default. -/
theorem get_eq_of_entries {α : Type} {t : Tab α} {d v : α} {k : Nat} (only : ∀ e ∈ t, e.1 = k → e.2 = v) (some' : v ≠ d → (k, v) ∈ t) :
    Tab.get t d k = v := by
  induction t with
  | nil => by_contra ne; exact absurd (some' (Ne.symm ne)) List.not_mem_nil
  | cons e r ih =>
    obtain ⟨j, w⟩ := e
    rw [Tab.get]
    split
    next here => exact only (j, w) List.mem_cons_self here
    next ne =>
      refine ih (fun e he => only e (List.mem_cons_of_mem _ he)) fun hv => ?_
      rcases List.mem_cons.1 (some' hv) with e | e
      · exact absurd (congrArg Prod.fst e).symm ne
      · exact e

/-- The numbered entries of a list. -/
theorem mem_zip_range {α : Type} {l : List α} {n i : Nat} {a : α} : (i, a) ∈ (List.range n).zip l ↔ i < n ∧ l[i]? = some a := by
  rw [List.mem_iff_getElem?]
  constructor
  · rintro ⟨j, h⟩
    obtain ⟨hr, hl⟩ := List.getElem?_zip_eq_some.1 h
    obtain ⟨lt, rfl⟩ := List.getElem?_eq_some_iff.1 hr
    rw [List.length_range] at lt
    rw [List.getElem_range]
    exact ⟨lt, hl⟩
  · rintro ⟨lt, hl⟩
    exact ⟨i, List.getElem?_zip_eq_some.2 ⟨List.getElem?_range lt, hl⟩⟩

/-! ### Pages (R342-R345) -/

section

variable {s t : State} (hm : t.mem = s.mem) (hc : t.ctxs = s.ctxs) (hk : t.consists = s.consists) (hd : t.dies = s.dies)

include hm in
theorem State.readWord_congr : t.readWord = s.readWord := funext fun _ => by rw [State.readWord, State.readBytes, hm]; rfl

include hd in
theorem State.die_congr : t.die = s.die := funext fun _ => by rw [State.die, hd]; rfl

include hc in
theorem State.ctx_congr : t.ctx = s.ctx := funext fun _ => by rw [State.ctx, hc]; rfl

include hd in
theorem malformedPointer_congr : malformedPointer t = malformedPointer s :=
  funext fun w => funext fun n => by simp only [malformedPointer, State.die_congr hd]

include hk hd in
theorem malformedLeaf_congr : malformedLeaf t = malformedLeaf s :=
  funext fun ctx => funext fun w => funext fun n => by simp only [malformedLeaf, State.die_congr hd, hk]

include hm hk hd

theorem walkFrom_congr (ctx : Nat) (ptr : Word) (va level : Nat) : walkFrom t ctx ptr va level = walkFrom s ctx ptr va level := by
  induction level generalizing ptr with
  | zero =>
    rw [walkFrom, walkFrom, State.readWord_congr hm, malformedLeaf_congr hk hd]
  | succ n ih =>
    rw [walkFrom, walkFrom, State.readWord_congr hm, malformedLeaf_congr hk hd, malformedPointer_congr hd]
    simp only [ih]

include hc

/-- A leaf rests on memory, the contexts, the consists and the dies. -/
theorem State.leaf_congr (ctx va : Nat) : t.leaf ctx va = s.leaf ctx va := by
  simp only [State.leaf, State.walk, State.ctx_congr hc, malformedPointer_congr hd, walkFrom_congr hm hk hd]

end

/-! ### Reads by an array (R268, R269) -/

section

variable (s : State) (cs : Tab Coach)

theorem State.copyRead_coaches (d ctx va n : Nat) : { s with coaches := cs }.copyRead d ctx va n = s.copyRead d ctx va n := by
  have leaf : ∀ a, { s with coaches := cs }.leaf ctx a = s.leaf ctx a := State.leaf_congr rfl rfl rfl rfl ctx
  simp only [State.copyRead, leaf]
  rfl

theorem State.streamRead_coaches (d ctx va n fuel : Nat) : { s with coaches := cs }.streamRead d ctx va n fuel = s.streamRead d ctx va n fuel := by
  have leaf : ∀ a, { s with coaches := cs }.leaf ctx a = s.leaf ctx a := State.leaf_congr rfl rfl rfl rfl ctx
  induction fuel generalizing va n with
  | zero => rfl
  | succ f ih => simp only [State.streamRead, leaf, State.copyRead_coaches, ih]

theorem State.mxRead_coaches (c : MxCmd) (va n : Nat) : { s with coaches := cs }.mxRead c va n = s.mxRead c va n := by
  simp only [State.mxRead, State.streamRead_coaches]
  rfl

theorem State.sourceRows_coaches (c : MxCmd) : { s with coaches := cs }.sourceRows c = s.sourceRows c := by
  simp only [State.sourceRows, State.mxRows, State.mxRead_coaches]

end

/-! ### Slots and tiles that a load fills (R277, R279, R280) -/

/-- The byte at place i of row j of an MXLDB. -/
theorem State.mxLoadB_data (s : State) (k slot ty kk : Nat) (ctl : Word) {rows : List (List (Byte × Bool))} {j i : Nat} {r : List (Byte × Bool)}
    {e : Byte × Bool} (hr : rows[j]? = some r) (hl : r.length = columnBytes ty kk) (he : r[i]? = some e) :
    Tab.get (Tab.get ((s.mxLoadB k slot ty kk ctl rows).coach k).slots {} slot).data 0 (j * columnBytes ty kk + i) = e.1 := by
  have inRow : i < columnBytes ty kk := hl ▸ (List.getElem?_eq_some_iff.1 he).1
  rw [State.mxLoadB, State.setCoach_same, Tab.get_put_same]
  simp only
  refine get_eq_of_entries ?_ ?_
  · simp only [List.mem_filterMap, List.mem_flatMap, List.mem_map, Prod.exists, mem_zip_range]
    rintro _ ⟨n, b, p, ⟨j', r', ⟨-, hr'⟩, i', b', p', ⟨lt, he'⟩, same⟩, made⟩ here
    cases same
    split at made
    · cases made
    · cases made
      obtain ⟨rfl, rfl⟩ : j' = j ∧ i' = i := by
        have : j' = j := by
          have := congrArg (· / columnBytes ty kk) here
          simpa [Nat.mul_comm _ (columnBytes ty kk), Nat.mul_add_div (Nat.zero_lt_of_lt inRow), Nat.div_eq_of_lt lt, Nat.div_eq_of_lt inRow] using this
        exact ⟨this, by subst this; exact Nat.add_left_cancel here⟩
      rw [hr] at hr'
      cases hr'
      rw [he] at he'
      cases he'
      rfl
  · intro listed
    have place : (j, r) ∈ (List.range rows.length).zip rows := mem_zip_range.2 ⟨(List.getElem?_eq_some_iff.1 hr).1, hr⟩
    refine List.mem_filterMap.2 ⟨(j * columnBytes ty kk + i, e), ?_, ?_⟩
    · exact List.mem_flatMap.2 ⟨_, place, List.mem_map.2 ⟨(i, e), mem_zip_range.2 ⟨inRow, he⟩, rfl⟩⟩
    · rw [if_neg listed]

/-- The word at place j of row i of an MXLDA. -/
theorem State.mxLoadA_data (s : State) (k tile : Nat) (z : Bool) {rows : List (List (Byte × Bool))} {i j : Nat} {r : List (Byte × Bool)}
    (hr : rows[i]? = some r) (hj : j < 128) :
    Tab.get (Tab.get ((s.mxLoadA k tile z rows).coach k).tiles {} tile).data 0 (i * 128 + j) =
      BitVec.ofNat 32 (natOfBytes (((r.drop (4 * j)).take 4).map (·.1))) := by
  rw [State.mxLoadA, State.putTile, State.setCoach_same, Tab.get_put_same]
  simp only
  refine get_eq_of_entries ?_ ?_
  · simp only [List.mem_filter, List.mem_flatMap, List.mem_map, List.mem_range, Prod.exists, mem_zip_range]
    rintro _ ⟨⟨i', r', ⟨-, hr'⟩, j', lt, rfl⟩, -⟩ here
    obtain ⟨rfl, rfl⟩ : i' = i ∧ j' = j := by simp only at here; omega
    rw [hr] at hr'
    cases hr'
    rfl
  · intro listed
    have place : (i, r) ∈ (List.range rows.length).zip rows := mem_zip_range.2 ⟨(List.getElem?_eq_some_iff.1 hr).1, hr⟩
    exact List.mem_filter.2 ⟨List.mem_flatMap.2 ⟨_, place, List.mem_map.2 ⟨j, List.mem_range.2 hj, rfl⟩⟩, by simpa using listed⟩

end Sys2Proof.Machine
end

section

/-! # The array takes a command (R266-R277)

Arbitration takes the head of a FIFO (`Takes`, `does_execute`); a command that leaves the array changes the coaches' FIFOs and leases alone
(`State.kept_leave`), so that what it did to slots and tiles stands, and arbitration runs again (`State.underWay_mxDone`). -/

namespace Sys2Proof.Machine

open Sys2Proof.Safety

/-! ### Arbitration (R266, R273) -/

/-- Command c is the head of the FIFO of bogie b and level lvl, which holds the array of the agenda's coach. -/
structure Takes (s : State) (c : MxCmd) (rest : List MxCmd) (b lvl : Nat) : Prop where
  idle : s.stepping s.arg.h = false
  level : s.readyLevel s.arg.h = some lvl
  holder : s.holder s.arg.h lvl = some (b, false)
  free : Tab.find (s.coach s.arg.h).shadow (b * 16 + lvl) = none
  head : Tab.get (s.coach s.arg.h).fifos [] (b * 16 + lvl) = c :: rest
  key : mxKey c = b * 16 + lvl

/-- The state in which a FIFO of coach k holds but the rest of its commands. -/
def State.unqueue (s : State) (k key : Nat) (rest : List MxCmd) : State :=
  s.setCoach k { s.coach k with fifos := Tab.put (s.coach k).fifos key rest }

theorem State.unqueue_coach (s : State) (k key : Nat) (rest : List MxCmd) :
    (s.unqueue k key rest).coach k = { s.coach k with fifos := Tab.put (s.coach k).fifos key rest } := State.setCoach_same ..

theorem State.unqueue_sourceRows (s : State) (k key : Nat) (rest : List MxCmd) (c : MxCmd) : (s.unqueue k key rest).sourceRows c = s.sourceRows c :=
  State.sourceRows_coaches ..

/-- A command that arbitration takes begins. -/
theorem does_execute {s : State} {c : MxCmd} {rest : List MxCmd} {b lvl : Nat} (h : Takes s c rest b lvl) {p : State → Prop}
    (hp : p ((s.unqueue s.arg.h (b * 16 + lvl) rest).mxBegin s.arg.h c)) : Does .arrayCommandExecute s p := by
  refine ⟨arrayCommandExecute s.arg.h s, rfl, ?_⟩
  rw [arrayCommandExecute, h.idle, if_neg (by decide), h.level]
  simp only [h.holder, Bool.false_eq_true, if_false]
  rw [State.runPair]
  simp only [h.free, h.head]
  exact hp

/-! ### A command leaves the array -/

/-- What a command that leaves the array keeps of it (R269, R272, R273). -/
theorem State.kept_leave (s : State) (k : Nat) (c : MxCmd) : s.Kept ((s.mxComplete c).mxDone k c) := ((State.Kept.refl s).mxComplete c).mxDone k c

theorem State.underWay_mxDone (s : State) (k : Nat) (c : MxCmd) : UnderWay (s.mxDone k c) .arrayCommandExecute fun a => a.h = k := by
  rw [State.mxDone, State.arbitrate]
  exact State.underWay_add (List.mem_singleton_self _) rfl

/-- The tile just put is read back, once its command has left. -/
theorem State.putTile_leave (s : State) (k tl : Nat) (x : Tile) (c : MxCmd) :
    Tab.get ((((s.putTile k tl x).mxComplete c).mxDone k c).coach k).tiles {} tl = x := by
  rw [(State.kept_leave ..).tiles, State.putTile, State.setCoach_same, Tab.get_put_same]

/-! ### The commands of one step, and those that are held -/

section

variable (s : State) (k : Nat) (c : MxCmd)

theorem State.mxBegin_z {tl : Nat} {z : Bool} (h : c.op = .z tl z) :
    s.mxBegin k c = ((s.putTile k tl { i32 := z }).mxComplete c).mxDone k c := by
  simp only [State.mxBegin, h]

theorem State.mxBegin_ldb {slot ty kk : Nat} {src ctl : Word} {rows : List (List (Byte × Bool))} (h : c.op = .ldb slot ty kk src ctl)
    (read : s.sourceRows c = .ok rows) :
    s.mxBegin k c = (((s.noteRows c.ctx (mxSources c)).mxLoadB k slot ty kk ctl rows).mxComplete c).mxDone k c := by
  simp only [State.mxBegin, h, read]

theorem State.mxBegin_lda {tl : Nat} {src ctl : Word} {z : Bool} {rows : List (List (Byte × Bool))} (h : c.op = .lda tl src ctl z)
    (read : s.sourceRows c = .ok rows) :
    s.mxBegin k c = (((s.noteRows c.ctx (mxSources c)).mxLoadA k tl z rows).mxComplete c).mxDone k c := by
  simp only [State.mxBegin, h, read]

theorem State.mxBegin_st {tl : Nat} {dst ctl : Word} {bar : Option Nat} {out gs : Nat} {round : BitVec 3} {sat : Bool}
    (h : c.op = .st tl dst ctl bar out gs round sat) : s.mxBegin k c = (s.mxStore k c tl dst ctl bar out gs round sat).mxDone k c := by
  simp only [State.mxBegin, h]

/-- A command put in its shadow context. -/
def State.hold : State := s.setCoach k { s.coach k with shadow := Tab.put (s.coach k).shadow (mxKey c) { cmd := c } }

theorem State.hold_found : Tab.find ((s.hold k c).coach k).shadow (mxKey c) = some { cmd := c } := by
  rw [State.hold, State.setCoach_same]
  exact find_put_same ..

section

variable {tl : Nat} {src : Word} {slot stride kk : Nat} {aint : Bool} {base : BitVec 10} (h : c.op = .mma tl src slot stride kk aint base)
include h

theorem State.mxBegin_mma (fit : mmaError (Tab.get (s.coach k).slots {} slot) (Tab.get (s.coach k).tiles {} tl) kk aint = none) :
    s.mxBegin k c = (s.hold k c).add [{ ev := .mmaStep, arg := { h := k, n := mxKey c } }] := by
  simp only [State.mxBegin, h, fit, State.hold]

theorem State.mxBegin_mmaFault {e : Nat} (bad : mmaError (Tab.get (s.coach k).slots {} slot) (Tab.get (s.coach k).tiles {} tl) kk aint = some e) :
    s.mxBegin k c = ((s.mxError k c tl e).mxComplete c).mxDone k c := by
  simp only [State.mxBegin, h, bad]

end

theorem State.mxBegin_pass {d : Vec} {tiles : List Nat} (h : c.op = .pass d tiles) :
    s.mxBegin k c = (s.hold k c).add [{ ev := .passExecute, arg := { h := k, n := mxKey c } }] := by
  simp only [State.mxBegin, h, State.hold]

end

/-! ### Each as arbitration takes it -/

section

variable {s : State} {c : MxCmd} {rest : List MxCmd} {b lvl : Nat} (h : Takes s c rest b lvl)
include h

theorem executes_z {tl : Nat} {z : Bool} (op : c.op = .z tl z) : Does .arrayCommandExecute s fun t =>
    Tab.get (t.coach s.arg.h).tiles {} tl = { i32 := z } ∧ UnderWay t .arrayCommandExecute fun a => a.h = s.arg.h := by
  refine does_execute h ?_
  rw [State.mxBegin_z _ _ _ op]
  exact ⟨State.putTile_leave .., State.underWay_mxDone ..⟩

theorem executes_ldb {slot ty kk : Nat} {src ctl : Word} {rows : List (List (Byte × Bool))} (op : c.op = .ldb slot ty kk src ctl)
    (read : s.sourceRows c = .ok rows) : Does .arrayCommandExecute s fun t => (UnderWay t .arrayCommandExecute fun a => a.h = s.arg.h) ∧
      let w := Tab.get (t.coach s.arg.h).slots {} slot
      w.loaded = true ∧ w.type = ty ∧ w.k = kk ∧ w.base = bits ctl 9 0 ∧
      ∀ j r, rows[j]? = some r → r.length = columnBytes ty kk → ∀ i e, r[i]? = some e → Tab.get w.data 0 (j * columnBytes ty kk + i) = e.1 := by
  refine does_execute h ?_
  rw [State.mxBegin_ldb _ _ _ op ((State.unqueue_sourceRows ..).trans read)]
  refine ⟨State.underWay_mxDone .., ?_⟩
  rw [(State.kept_leave ..).slots]
  refine ⟨?_, ?_, ?_, ?_, fun j r hr hl i e he => State.mxLoadB_data _ _ _ _ _ _ hr hl he⟩ <;>
    rw [State.mxLoadB, State.setCoach_same, Tab.get_put_same]

theorem executes_lda {tl : Nat} {src ctl : Word} {z : Bool} {rows : List (List (Byte × Bool))} (op : c.op = .lda tl src ctl z)
    (read : s.sourceRows c = .ok rows) : Does .arrayCommandExecute s fun t => (UnderWay t .arrayCommandExecute fun a => a.h = s.arg.h) ∧
      let w := Tab.get (t.coach s.arg.h).tiles {} tl
      w.i32 = z ∧ w.poison = rows.any (fun r => r.any (·.2)) ∧
      ∀ i r, rows[i]? = some r → ∀ j < 128, Tab.get w.data 0 (i * 128 + j) = BitVec.ofNat 32 (natOfBytes (((r.drop (4 * j)).take 4).map (·.1))) := by
  refine does_execute h ?_
  rw [State.mxBegin_lda _ _ _ op ((State.unqueue_sourceRows ..).trans read)]
  refine ⟨State.underWay_mxDone .., ?_⟩
  rw [(State.kept_leave ..).tiles]
  refine ⟨?_, ?_, fun i r hr j hj => State.mxLoadA_data _ _ _ _ hr hj⟩ <;>
    rw [State.mxLoadA, State.putTile, State.setCoach_same, Tab.get_put_same]

section

variable {tl : Nat} {src : Word} {slot stride kk : Nat} {aint : Bool} {base : BitVec 10} (op : c.op = .mma tl src slot stride kk aint base)
include op

/-- An MMA that may run is held and stepped (R274). -/
theorem executes_mma (fit : mmaError (Tab.get (s.coach s.arg.h).slots {} slot) (Tab.get (s.coach s.arg.h).tiles {} tl) kk aint = none) :
    Does .arrayCommandExecute s fun t => Tab.find (t.coach s.arg.h).shadow (b * 16 + lvl) = some { cmd := c } ∧
      UnderWay t .mmaStep fun a => a.h = s.arg.h ∧ a.n = b * 16 + lvl := by
  refine does_execute h ?_
  rw [State.mxBegin_mma _ _ _ op (by rwa [State.unqueue_coach]), ← h.key]
  exact ⟨State.hold_found .., State.underWay_add (List.mem_singleton_self _) ⟨rfl, rfl⟩⟩

/-- An MMA that may not run poisons its tile and raises ILLEGAL_OPERAND (R276). -/
theorem executes_mmaFault {e : Nat}
    (bad : mmaError (Tab.get (s.coach s.arg.h).slots {} slot) (Tab.get (s.coach s.arg.h).tiles {} tl) kk aint = some e) :
    Does .arrayCommandExecute s fun t => (Tab.get (t.coach s.arg.h).tiles {} tl).poison = true ∧ UnderWay t .raiseEvent fun a =>
      a.c = c.ctx ∧ a.info.code = 0x02 ∧ a.info.extra = BitVec.ofNat 64 e ∧ a.info.record = c.record := by
  refine does_execute h ?_
  rw [State.mxBegin_mmaFault _ _ _ op (by rwa [State.unqueue_coach])]
  constructor
  · rw [(State.kept_leave ..).tiles, State.mxError]
    change (Tab.get ((State.putTile _ _ _ _).coach _).tiles {} tl).poison = true
    rw [State.putTile, State.setCoach_same, Tab.get_put_same]
  · refine UnderWay.mono (State.kept_leave ..).toPersists ?_
    rw [State.mxError]
    exact State.underWay_add (List.mem_singleton_self _) ⟨rfl, rfl, rfl, rfl⟩

end

/-- A pass is held (R286). -/
theorem executes_pass {d : Vec} {tiles : List Nat} (op : c.op = .pass d tiles) : Does .arrayCommandExecute s fun t =>
    Tab.find (t.coach s.arg.h).shadow (b * 16 + lvl) = some { cmd := c } ∧ UnderWay t .passExecute fun a => a.h = s.arg.h ∧ a.n = b * 16 + lvl := by
  refine does_execute h ?_
  rw [State.mxBegin_pass _ _ _ op, ← h.key]
  exact ⟨State.hold_found .., State.underWay_add (List.mem_singleton_self _) ⟨rfl, rfl⟩⟩

end

end Sys2Proof.Machine
end

section

/-! # The array stores a tile (R268, R277, R282)

To the own scratchpad go the 64-byte parts of the rows, which together are the rows (`flatMap_blocks`) and each a run of bytes (`placed_of_block`);
to global memory each line by its own request (`State.fold_arrayStore`). -/

namespace Sys2Proof.Machine

open Sys2Proof.Safety

/-! ### Bytes cut by the blocks that they touch (R137) -/

/-- A list in the order of its keys, cut by its keys, is itself. -/
theorem flatMap_filter_keys {α : Type} {f : α → Nat} {l : List α} (sorted : l.Pairwise fun x y => f x ≤ f y) :
    ((l.map f).eraseDups.flatMap fun k => l.filter fun e => f e == k) = l := by
  induction l with
  | nil => rfl
  | cons x r ih =>
    obtain ⟨below, sorted⟩ := List.pairwise_cons.1 sorted
    have others : (((r.map f).filter fun b => !b == f x).eraseDups.flatMap fun k => (x :: r).filter fun e => f e == k) =
        ((r.map f).filter fun b => !b == f x).eraseDups.flatMap fun k => r.filter fun e => f e == k :=
      List.flatMap_congr fun k hk => by
        rw [List.mem_eraseDups, List.mem_filter] at hk
        have ne : k ≠ f x := by simpa using hk.2
        rw [List.filter_cons_of_neg (by simpa using ne.symm)]
    rw [List.map_cons, List.eraseDups_cons, List.flatMap_cons, others, List.filter_cons_of_pos (by simp), List.cons_append]
    refine congrArg (x :: ·) ?_
    cases r with
    | nil => rfl
    | cons y r =>
      have cut := ih sorted
      rcases eq_or_ne (f y) (f x) with same | ne
      · have keys : ((y :: r).map f).filter (fun b => !b == f x) = (r.map f).filter fun b => !b == f x := by
          rw [List.map_cons, List.filter_cons_of_neg (by simp [same])]
        rw [List.map_cons, List.eraseDups_cons, List.flatMap_cons, same] at cut
        rw [keys, cut]
      · have above : ∀ z ∈ y :: r, f z ≠ f x := fun z hz => by
          have hy := below y List.mem_cons_self
          rcases List.mem_cons.1 hz with rfl | hr
          · exact ne
          · have := (List.pairwise_cons.1 sorted).1 z hr
            omega
        have none' : (y :: r).filter (fun e => f e == f x) = [] := List.filter_eq_nil_iff.2 fun z hz => by simpa using above z hz
        have all' : ((y :: r).map f).filter (fun b => !b == f x) = (y :: r).map f := List.filter_eq_self.2 fun k hk => by
          obtain ⟨z, hz, rfl⟩ := List.mem_map.1 hk
          simpa using above z hz
        rw [none', all', List.nil_append, cut]

theorem mem_placed {a : Nat} {l : List Byte} {e : Nat × Byte} (h : e ∈ placed a l) : a ≤ e.1 := by
  induction l generalizing a with
  | nil => cases h
  | cons v r ih =>
    rcases List.mem_cons.1 h with rfl | h
    · exact le_rfl
    · exact Nat.le_of_succ_le (ih h)

theorem placed_sorted (a : Nat) (l : List Byte) : (placed a l).Pairwise fun x y => x.1 / 64 ≤ y.1 / 64 := by
  induction l generalizing a with
  | nil => exact .nil
  | cons v r ih => exact List.pairwise_cons.2 ⟨fun e he => Nat.div_le_div_right (Nat.le_of_succ_le (mem_placed he)), ih _⟩

/-- The blocks of a run of bytes, one after the other, are the run. -/
theorem flatMap_blocks (a : Nat) (l : List Byte) : (blocks (placed a l)).flatMap id = placed a l := by
  rw [blocks, List.flatMap_map]
  exact flatMap_filter_keys (f := fun e : Nat × Byte => e.1 / 64) (placed_sorted a l)

/-- What a run has in a block that begins no later is a run. -/
theorem filter_placed_begun {a k : Nat} (h : k ≤ a / 64) (l : List Byte) :
    (placed a l).filter (fun e => e.1 / 64 == k) = placed a (l.take (64 * k + 64 - a)) := by
  induction l generalizing a with
  | nil => rw [List.take_nil]; rfl
  | cons v r ih =>
    have next := ih (a := a + 1) (h.trans (Nat.div_le_div_right (Nat.le_succ a)))
    rw [placed]
    rcases eq_or_ne (a / 64) k with here | past
    · rw [List.filter_cons_of_pos (by simpa using here), next, show 64 * k + 64 - a = (64 * k + 64 - (a + 1)) + 1 by omega, List.take_succ_cons, placed]
    · rw [List.filter_cons_of_neg (by simpa using past), next, show 64 * k + 64 - (a + 1) = 0 by omega, show 64 * k + 64 - a = 0 by omega]
      rfl

/-- What a run has in a block is a run. -/
theorem filter_placed (a k : Nat) (l : List Byte) : ∃ b r, (placed a l).filter (fun e => e.1 / 64 == k) = placed b r := by
  induction l generalizing a with
  | nil => exact ⟨0, [], rfl⟩
  | cons v r ih =>
    by_cases h : k ≤ a / 64
    · exact ⟨_, _, filter_placed_begun h _⟩
    · rw [placed, List.filter_cons_of_neg (by simp; omega)]
      exact ih _

theorem placed_snd (a : Nat) (l : List Byte) : (placed a l).map (·.2) = l := by
  induction l generalizing a with
  | nil => rfl
  | cons v r ih => rw [placed, List.map_cons, ih]

/-- A block of a run, placed at its first byte, is itself. -/
theorem placed_of_block {a : Nat} {l : List Byte} {t : Tab Byte} (h : t ∈ blocks (placed a l)) :
    placed ((t.head?.map (·.1)).getD 0) (t.map (·.2)) = t := by
  obtain ⟨k, -, rfl⟩ := List.mem_map.1 h
  obtain ⟨b, r, e⟩ := filter_placed a k l
  rw [e, placed_snd]
  cases r with
  | nil => rfl
  | cons v r => rfl

/-! ### Deliveries to the own scratchpad (R277, R282) -/

/-- The bytes that a delivery brings. -/
def heldBytes (h : Held) : Tab Byte :=
  match h with
  | .deliver _ _ _ off data _ => placed off data
  | _ => []

/-- The parts of rows at a pitch: where each begins, and its bytes. -/
def partsOf (o pitch : Nat) (rows : List (Nat × List Byte)) : List (Nat × List Byte) :=
  rows.flatMap fun e => (blocks (placed (o + e.1 * pitch) e.2)).map fun t => ((t.head?.map (·.1)).getD 0, t.map (·.2))

theorem flatMap_partsOf (o pitch : Nat) (rows : List (Nat × List Byte)) :
    (partsOf o pitch rows).flatMap (fun p => placed p.1 p.2) = rows.flatMap fun e => placed (o + e.1 * pitch) e.2 := by
  rw [partsOf, List.flatMap_assoc]
  refine List.flatMap_congr fun e _ => ?_
  rw [List.flatMap_map]
  exact (List.flatMap_congr fun t ht => placed_of_block ht).trans (flatMap_blocks ..)

/-- The deliveries of parts from a maker to a frame, each with its update of a barrier, the last with the request's number. -/
def deliveries (src : Src) (uid id : Nat) (bar : Option Nat) (poison : Bool) (parts : List (Nat × List Byte)) : List Held :=
  ((List.range parts.length).zip parts).map fun (e : Nat × Nat × List Byte) =>
    let last := decide (e.1 + 1 = parts.length)
    Held.deliver (if last then id else 0) src (.frame uid) e.2.1 e.2.2 (bar.map fun i =>
      (i, if poison then { code := 0x10 } else { bytes := e.2.2.length, arr := if last then 1 else 0 }))

section

variable (src : Src) (uid id : Nat) (bar : Option Nat) (poison : Bool) (parts : List (Nat × List Byte))

theorem length_deliveries : (deliveries src uid id bar poison parts).length = parts.length := by simp [deliveries]

theorem heldBytes_deliveries : (deliveries src uid id bar poison parts).flatMap heldBytes = parts.flatMap fun p => placed p.1 p.2 := by
  rw [deliveries, List.flatMap_map]
  have numbered : ((List.range parts.length).zip parts).map Prod.snd = parts := List.map_snd_zip (by simp)
  conv_rhs => rw [← numbered, List.flatMap_map]
  rfl

/-- A delivery of rows that are not poisoned. -/
theorem getElem?_deliveries {n : Nat} {h : Held} (e : (deliveries src uid id bar false parts)[n]? = some h) :
    ∃ i off data, h = Held.deliver i src (.frame uid) off data
      (bar.map fun i => (i, { bytes := data.length, arr := if n + 1 = (deliveries src uid id bar false parts).length then 1 else 0 })) := by
  rw [length_deliveries]
  rw [deliveries, List.getElem?_map, Option.map_eq_some_iff] at e
  obtain ⟨⟨m, off, data⟩, e, rfl⟩ := e
  obtain ⟨hr, -⟩ := List.getElem?_zip_eq_some.1 e
  obtain ⟨lt, rfl⟩ := List.getElem?_eq_some_iff.1 hr
  rw [List.getElem_range]
  exact ⟨if n + 1 = parts.length then id else 0, off, data, by simp⟩

end

section

variable {s : State} {k : Nat} {c : MxCmd} {tl : Nat} {dst ctl : Word} {bar : Option Nat} {out gs : Nat} {round : BitVec 3} {sat : Bool}

/-- The rows that an MXST of tile tl stores, by number. -/
def State.stored (s : State) (k : Nat) (c : MxCmd) (tl : Nat) (ctl : Word) (out gs : Nat) (round : BitVec 3) (sat : Bool) : List (Nat × List Byte) :=
  let r := s.stRows c (Tab.get (s.coach k).tiles {} tl) ctl out gs round sat
  (List.range r.1.length).zip r.1

variable {w o : Nat} (here : region dst.toNat = .own w o)
include here

/-- What an MXST to the own scratchpad sends where its tile is not poisoned. -/
theorem State.mxStore_own (clean : (s.stRows c (Tab.get (s.coach k).tiles {} tl) ctl out gs round sat).2 = false)
    (some' : partsOf o (stPitch out ctl) (s.stored k c tl ctl out gs round sat) ≠ []) :
    s.mxStore k c tl dst ctl bar out gs round sat = (({ s with uid := s.uid + 1 }).addJob k { cmd := c, owed := [s.uid] }).mxDeliver k c
      (deliveries (.array (k / 24) k) c.uid s.uid bar false (partsOf o (stPitch out ctl) (s.stored k c tl ctl out gs round sat))) := by
  have full : (deliveries (.array (k / 24) k) c.uid s.uid bar false (partsOf o (stPitch out ctl) (s.stored k c tl ctl out gs round sat))).isEmpty ≠ true := by
    rw [Ne, List.isEmpty_iff_length_eq_zero, length_deliveries, List.length_eq_zero_iff]
    exact some'
  simp only [State.mxStore, here, clean, State.newId]
  exact if_neg full

/-- What it sends where its tile is poisoned. -/
theorem State.mxStore_ownPoison {i : Nat} (poison : (s.stRows c (Tab.get (s.coach k).tiles {} tl) ctl out gs round sat).2 = true) :
    s.mxStore k c tl dst ctl (some i) out gs round sat = (({ s with uid := s.uid + 1 }).addJob k { cmd := c, owed := [s.uid] }).mxDeliver k c
      [Held.deliver s.uid (.array (k / 24) k) (.frame c.uid) 0 [] (some (i, { code := 0x10 }))] := by
  simp only [State.mxStore, here, poison, State.newId]
  rfl

end

end Sys2Proof.Machine
end

section

/-! # The rows of a tile (R277, R282) -/

namespace Sys2Proof.Machine

open Sys2Proof.Safety

/-! ### Rows -/

section

variable (s : State) (c : MxCmd) (tile : Tile) (ctl : Word) (out gs : Nat) (round : BitVec 3) (sat : Bool)

/-- The epilogue of an MXST: biases and, at number 128, the scale. -/
def State.epilogue : List (Byte × Bool) := if bit ctl 37 then s.frameRead c.g c.uid (bits ctl 36 26 * 64) 516 else []

/-- A number of the epilogue. -/
def State.epilogueWord (i : Nat) : Nat := natOfBytes ((((s.epilogue c ctl).drop (4 * i)).take 4).map (·.1))

/-- What an MXST stores of element (i, j), before its conversion: the element times the scale plus the bias. -/
def State.stValue (i j : Nat) : FV :=
  if bit ctl 37 then FV.add (dirOf round) ((tile.value i j).mul (fp32.unpack (s.epilogueWord c ctl 128))) (fp32.unpack (s.epilogueWord c ctl j))
  else FV.add (dirOf round) ((tile.value i j).mul (.fin false 1 0)) (.fin false 0 0)

/-- The record of the scale file for element (i, j) of a grouped MXST. -/
def State.stRecord (i j : Nat) : BitVec 32 :=
  Tab.get (s.bogie c.g).scale 0 ((bits ctl 25 16 + i * (stWidth ctl / (32 * 2 ^ gs)) + j / (32 * 2 ^ gs)) % 1024)

/-- The free code of element (i, j), where its record's z has no code (log 29). -/
def State.stFree (i j : Nat) : Nat :=
  Config.zCode (s.stRecord c ctl gs i j &&& 0xFFFFFF) (Tab.get tile.data 0 (i * 128 + j)).toNat
    (if bit ctl 37 then s.epilogueWord c ctl 128 else 0) (if bit ctl 37 then s.epilogueWord c ctl j else 0)

theorem State.length_stRows : (s.stRows c tile ctl out gs round sat).1.length = bits ctl 47 41 + 1 := by simp [State.stRows]

theorem State.stRows_poison : (s.stRows c tile ctl out gs round sat).2 = true ↔ tile.poison = true ∨ ∃ e ∈ s.epilogue c ctl, e.2 = true := by
  change (tile.poison || (s.epilogue c ctl).any (·.2)) = true ↔ _
  rw [Bool.or_eq_true, List.any_eq_true]

/-- The codes of a row, each converted once. -/
theorem State.stRows_row {i : Nat} {row : List Byte} (h : (s.stRows c tile ctl out gs round sat).1[i]? = some row) :
    row = packCodes out ((List.range (stWidth ctl)).map fun j =>
      mxCode out (dirOf round) sat (s.stRecord c ctl gs i j) (s.stFree c tile ctl gs i j) (s.stValue c tile ctl round i j)) := by
  simp only [State.stRows, List.getElem?_map, Option.map_eq_some_iff] at h
  obtain ⟨n, hn, rfl⟩ := h
  obtain ⟨lt, rfl⟩ := List.getElem?_eq_some_iff.1 hn
  rw [List.getElem_range]
  refine congrArg _ (List.map_congr_left fun j _ => ?_)
  simp only [State.stValue, State.stFree, State.stRecord, State.epilogueWord, State.epilogue]
  split
  · rfl
  · rfl

end

/-! ### No row is empty -/

theorem packCodes_ne_nil (out : Nat) {l : List Nat} (h : 2 ≤ l.length) : packCodes out l ≠ [] := by
  obtain ⟨a, r, rfl⟩ := List.exists_cons_of_length_pos (Nat.zero_lt_of_lt h)
  simp only [packCodes]
  split
  · rw [Ne, List.map_eq_nil_iff, List.range_eq_nil]
    omega
  all_goals simp [bytesOfNat]

theorem blocks_placed_ne_nil (a : Nat) {l : List Byte} (h : l ≠ []) : blocks (placed a l) ≠ [] := fun e => by
  have := flatMap_blocks a l
  rw [e] at this
  cases l with
  | nil => exact h rfl
  | cons v r => cases this

/-- An MXST stores one byte at least. -/
theorem State.partsOf_stored_ne_nil (s : State) (k : Nat) (c : MxCmd) (tl : Nat) (ctl : Word) (out gs : Nat) (round : BitVec 3) (sat : Bool) (o pitch : Nat) :
    partsOf o pitch (s.stored k c tl ctl out gs round sat) ≠ [] := by
  have rows := s.length_stRows c (Tab.get (s.coach k).tiles {} tl) ctl out gs round sat
  have first := List.getElem?_eq_getElem (l := (s.stRows c (Tab.get (s.coach k).tiles {} tl) ctl out gs round sat).1) (i := 0) (by omega)
  have row := State.stRows_row _ _ _ _ _ _ _ _ first
  have listed := mem_zip_range.2 ⟨(by omega : 0 < (s.stRows c (Tab.get (s.coach k).tiles {} tl) ctl out gs round sat).1.length), first⟩
  intro none'
  rw [partsOf, List.flatMap_eq_nil_iff] at none'
  have := none' _ listed
  rw [List.map_eq_nil_iff, row] at this
  refine blocks_placed_ne_nil _ (packCodes_ne_nil out ?_) this
  rw [List.length_map, List.length_range, stWidth]
  omega

/-! ### MXST to the own scratchpad (R277, R282) -/

theorem State.kept_newId (s : State) : s.Kept { s with uid := s.uid + 1 } := (State.Kept.refl s).frame rfl rfl rfl rfl

theorem State.persists_addJob (s : State) (k : Nat) (j : MxJob) : s.Persists (s.addJob k j) := .of_eq rfl rfl rfl

/-- What an array sends to a bogie of its die is under way when its command has left. -/
theorem State.underWay_mxDeliver (s : State) (k : Nat) (c c' : MxCmd) (l : List Held) :
    UnderWay ((s.mxDeliver k c l).mxDone k c') .heldWriteArrival (· = { g := c.g, held := l }) :=
  UnderWay.mono ((State.Kept.refl _).mxDone k c').toPersists (State.underWay_post_same ..)

section

variable {s : State} {c : MxCmd} {rest : List MxCmd} {b lvl : Nat} (h : Takes s c rest b lvl)
variable {tl : Nat} {dst ctl : Word} {bar : Option Nat} {out gs : Nat} {round : BitVec 3} {sat : Bool}
variable {w o : Nat} (here : region dst.toNat = .own w o)
include h here

theorem executes_st_own (op : c.op = .st tl dst ctl bar out gs round sat)
    (clean : (s.stRows c (Tab.get (s.coach s.arg.h).tiles {} tl) ctl out gs round sat).2 = false) :
    Does .arrayCommandExecute s fun t => (UnderWay t .arrayCommandExecute fun a => a.h = s.arg.h) ∧
      UnderWay t .heldWriteArrival fun a => a.g = c.g ∧
        a.held.flatMap heldBytes = (s.stored s.arg.h c tl ctl out gs round sat).flatMap (fun e => placed (o + e.1 * stPitch out ctl) e.2) ∧
        ∀ n h, a.held[n]? = some h → ∃ id off data, h = Held.deliver id (.array (s.arg.h / 24) s.arg.h) (.frame c.uid) off data
          (bar.map fun i => (i, { bytes := data.length, arr := if n + 1 = a.held.length then 1 else 0 })) := by
  have tiles : (Tab.get ((s.unqueue s.arg.h (b * 16 + lvl) rest).coach s.arg.h).tiles {} tl) = Tab.get (s.coach s.arg.h).tiles {} tl := by
    rw [State.unqueue_coach]
  have rows : (s.unqueue s.arg.h (b * 16 + lvl) rest).stored s.arg.h c tl ctl out gs round sat = s.stored s.arg.h c tl ctl out gs round sat := by
    rw [State.stored, tiles]
    rfl
  refine does_execute h ?_
  rw [State.mxBegin_st _ _ _ op, State.mxStore_own here (by rw [tiles]; exact clean) (State.partsOf_stored_ne_nil _ _ _ _ _ _ _ _ _ _ _), rows]
  refine ⟨State.underWay_mxDone .., UnderWay.imp ?_ (State.underWay_mxDeliver ..)⟩
  rintro _ rfl
  exact ⟨rfl, (heldBytes_deliveries ..).trans (flatMap_partsOf ..), fun n h e => getElem?_deliveries _ _ _ _ _ e⟩

theorem executes_st_ownPoison {i : Nat} (op : c.op = .st tl dst ctl (some i) out gs round sat)
    (poison : (s.stRows c (Tab.get (s.coach s.arg.h).tiles {} tl) ctl out gs round sat).2 = true) :
    Does .arrayCommandExecute s fun t => (UnderWay t .arrayCommandExecute fun a => a.h = s.arg.h) ∧
      UnderWay t .heldWriteArrival fun a => a.g = c.g ∧
        ∃ id, a.held = [Held.deliver id (.array (s.arg.h / 24) s.arg.h) (.frame c.uid) 0 [] (some (i, { code := 0x10 }))] := by
  refine does_execute h ?_
  rw [State.mxBegin_st _ _ _ op, State.mxStore_ownPoison here (by rw [State.unqueue_coach]; exact poison)]
  refine ⟨State.underWay_mxDone .., UnderWay.imp ?_ (State.underWay_mxDeliver ..)⟩
  rintro _ rfl
  exact ⟨rfl, _, rfl⟩

end

/-! ### MXST to global memory (R268, R277, R282) -/

/-- What waited in s waits in t, whose memory, contexts, consists and dies are those of s: every address has its leaf. -/
structure State.SamePages (s t : State) : Prop extends s.Kept t where
  mem : t.mem = s.mem
  ctxs : t.ctxs = s.ctxs
  consists : t.consists = s.consists
  dies : t.dies = s.dies

theorem State.SamePages.refl (s : State) : s.SamePages s := ⟨.refl s, rfl, rfl, rfl, rfl⟩

theorem State.SamePages.trans {r s t : State} (h : r.SamePages s) (g : s.SamePages t) : r.SamePages t :=
  ⟨h.toKept.trans g.toKept, g.mem.trans h.mem, g.ctxs.trans h.ctxs, g.consists.trans h.consists, g.dies.trans h.dies⟩

theorem State.SamePages.leaf {s t : State} (h : s.SamePages t) (ctx va : Nat) : t.leaf ctx va = s.leaf ctx va :=
  State.leaf_congr h.mem h.ctxs h.consists h.dies ctx va

theorem State.Ships.samePages {s t : State} (h : s.Ships t) : s.SamePages t :=
  ⟨(State.Kept.refl s).ships h, h.mem, h.ctxs, h.consists, h.dies⟩

theorem State.samePages_newId (s : State) : s.SamePages { s with uid := s.uid + 1 } := ⟨s.kept_newId, rfl, rfl, rfl, rfl⟩

theorem State.samePages_noteWalk (s : State) (ctx va : Nat) : s.SamePages (s.noteWalk ctx va) := by
  rw [State.noteWalk]
  split
  · exact ⟨(State.Kept.refl s).frame rfl rfl rfl rfl, rfl, rfl, rfl, rfl⟩
  · exact .refl s

theorem State.samePages_lost (s : State) (d : Nat) (q : Req) : s.SamePages (s.lost d q) :=
  (s.samePages_noteWalk q.ctx (opVa q.op)).trans
    ((State.ships_answer ..).samePages.trans ⟨(State.Kept.refl _).frame rfl rfl rfl rfl, rfl, rfl, rfl, rfl⟩)

theorem State.ships_toHead (s : State) (d ep : Nat) (q : Req) (l : Leaf) : s.Ships (s.toHead d ep q l) := by
  rw [State.toHead]
  split
  · exact State.ships_post ..
  · exact State.ships_add ..

/-- A request for a chained page comes to its head. -/
theorem State.reaches_toHead (s : State) (d ep : Nat) (q : Req) (l : Leaf) : Reaches (s.toHead d ep q l) .chainApply (·.req = q) := by
  rw [State.toHead]
  split
  · exact Reaches.imp (fun _ e => by rw [e]) (State.reaches_post ..)
  · exact .inl (State.underWay_add (List.mem_singleton_self _) rfl)

/-- The request of a line that an array stores. -/
def lineRequest (ctx : Nat) (u : Tab Byte) (poison : Bool) (r : Req) : Prop :=
  r.ctx = ctx ∧ r.op = .store u false false (if poison then some .poison else none)

section

variable (s : State) (k ctx : Nat) (u : Tab Byte) (poison : Bool)

theorem State.samePages_arrayStore : s.SamePages (s.arrayStore k ctx u poison).1 := by
  simp only [State.arrayStore, State.newId]
  split
  · exact s.samePages_newId.trans (State.samePages_lost ..)
  · split
    · exact s.samePages_newId.trans (State.ships_toHead ..).samePages
    · exact s.samePages_newId.trans (State.ships_post ..).samePages

theorem State.length_arrayStore : (s.arrayStore k ctx u poison).2.length = 1 := by
  simp only [State.arrayStore, State.newId]
  split
  · rfl
  · rfl

/-- A line that a page maps comes to its home, or to its consist's head. -/
theorem State.reaches_arrayStore {l : Leaf} (mapped : s.leaf ctx ((u.head?.map (·.1)).getD 0) = some l) :
    Reaches (s.arrayStore k ctx u poison).1 (if l.cls = 3 then .chainApply else .homeStore) fun a => lineRequest ctx u poison a.req := by
  have mapped' := (s.samePages_newId.leaf ctx ((u.head?.map (·.1)).getD 0)).trans mapped
  simp only [State.arrayStore, State.newId]
  rw [mapped']
  simp only
  split
  · exact Reaches.imp (fun _ e => by rw [e]; exact ⟨rfl, rfl⟩) (State.reaches_toHead ..)
  · exact Reaches.imp (fun _ e => by rw [e]; exact ⟨rfl, rfl⟩) (State.reaches_post ..)

end

/-- One line more: the state, and the numbers of the requests so far. -/
def storeLine (k ctx : Nat) (poison : Bool) (x : State × List Nat) (u : Tab Byte) : State × List Nat :=
  ((x.1.arrayStore k ctx u poison).1, x.2 ++ (x.1.arrayStore k ctx u poison).2)

section

variable (k ctx : Nat) (poison : Bool) (lines : List (Tab Byte)) (x : State × List Nat)

theorem samePages_storeLines : x.1.SamePages (lines.foldl (storeLine k ctx poison) x).1 :=
  List.foldlRecOn (motive := fun y : State × List Nat => x.1.SamePages y.1) lines _ (.refl x.1) fun y hy u _ =>
    hy.trans (y.1.samePages_arrayStore k ctx u poison)

/-- A request for every line. -/
theorem length_storeLines : (lines.foldl (storeLine k ctx poison) x).2.length = x.2.length + lines.length := by
  induction lines generalizing x with
  | nil => rfl
  | cons u r ih =>
    rw [List.foldl_cons, ih, storeLine, List.length_append, State.length_arrayStore, List.length_cons]
    omega

theorem reaches_storeLines {u : Tab Byte} (hu : u ∈ lines) {l : Leaf} (mapped : x.1.leaf ctx ((u.head?.map (·.1)).getD 0) = some l) :
    Reaches (lines.foldl (storeLine k ctx poison) x).1 (if l.cls = 3 then .chainApply else .homeStore) fun a => lineRequest ctx u poison a.req := by
  induction lines generalizing x with
  | nil => cases hu
  | cons v r ih =>
    rw [List.foldl_cons]
    rcases List.mem_cons.1 hu with rfl | hr
    · exact Reaches.mono (samePages_storeLines ..).toPersists (State.reaches_arrayStore _ _ _ _ _ mapped)
    · exact ih _ hr ((((x.1.samePages_arrayStore k ctx v poison)).leaf ctx _).trans mapped)

end

/-- The lines that an MXST stores. -/
def State.storedLines (s : State) (k : Nat) (c : MxCmd) (tl : Nat) (dst ctl : Word) (out gs : Nat) (round : BitVec 3) (sat : Bool) : List (Tab Byte) :=
  rowLines ((s.stored k c tl ctl out gs round sat).map fun e => placed (dst.toNat + e.1 * stPitch out ctl) e.2)

theorem State.mxStore_glob {s : State} {k : Nat} {c : MxCmd} {tl : Nat} {dst ctl : Word} {bar : Option Nat} {out gs : Nat} {round : BitVec 3}
    {sat : Bool} (here : region dst.toNat = .glob) :
    let r := s.stRows c (Tab.get (s.coach k).tiles {} tl) ctl out gs round sat
    let x := (s.storedLines k c tl dst ctl out gs round sat).foldl (storeLine k c.ctx r.2) (s, [])
    s.mxStore k c tl dst ctl bar out gs round sat = x.1.addJob k { cmd := c, owed := x.2, bytes := (r.1.map List.length).sum } := by
  simp only [State.mxStore, here]
  rfl

/-- What is still to be performed for a command is kept when it has left. -/
theorem State.mem_jobs_leave (s : State) (k : Nat) (j : MxJob) (c : MxCmd) : j ∈ (((s.addJob k j).mxDone k c).coach k).jobs := by
  rw [((State.Kept.refl _).mxDone ..).jobs, State.addJob, State.setCoach_same]
  exact List.mem_append_right _ (List.mem_singleton_self _)

/-- Each line of a global destination is stored once, poison where the tile is. -/
theorem executes_st_glob {s : State} {c : MxCmd} {rest : List MxCmd} {b lvl : Nat} (h : Takes s c rest b lvl) {tl : Nat} {dst ctl : Word}
    {bar : Option Nat} {out gs : Nat} {round : BitVec 3} {sat : Bool} (here : region dst.toNat = .glob) (op : c.op = .st tl dst ctl bar out gs round sat) :
    Does .arrayCommandExecute s fun t => (UnderWay t .arrayCommandExecute fun a => a.h = s.arg.h) ∧
      (∃ j ∈ (t.coach s.arg.h).jobs, j.cmd = c ∧ j.owed.length = (s.storedLines s.arg.h c tl dst ctl out gs round sat).length) ∧
      ∀ u ∈ s.storedLines s.arg.h c tl dst ctl out gs round sat, ∀ l, s.leaf c.ctx ((u.head?.map (·.1)).getD 0) = some l →
        Reaches t (if l.cls = 3 then .chainApply else .homeStore) fun a =>
          lineRequest c.ctx u (s.stRows c (Tab.get (s.coach s.arg.h).tiles {} tl) ctl out gs round sat).2 a.req := by
  have tiles : (Tab.get ((s.unqueue s.arg.h (b * 16 + lvl) rest).coach s.arg.h).tiles {} tl) = Tab.get (s.coach s.arg.h).tiles {} tl := by
    rw [State.unqueue_coach]
  have rows : (s.unqueue s.arg.h (b * 16 + lvl) rest).stRows c (Tab.get (s.coach s.arg.h).tiles {} tl) ctl out gs round sat =
      s.stRows c (Tab.get (s.coach s.arg.h).tiles {} tl) ctl out gs round sat := rfl
  have lines : (s.unqueue s.arg.h (b * 16 + lvl) rest).storedLines s.arg.h c tl dst ctl out gs round sat =
      s.storedLines s.arg.h c tl dst ctl out gs round sat := by
    rw [State.storedLines, State.stored, tiles, rows]
    rfl
  refine does_execute h ?_
  rw [State.mxBegin_st _ _ _ op, State.mxStore_glob here, tiles, rows, lines]
  refine ⟨State.underWay_mxDone .., ⟨_, State.mem_jobs_leave .., rfl, (length_storeLines ..).trans (Nat.zero_add _)⟩, fun u hu l mapped => ?_⟩
  refine Reaches.mono ((State.persists_addJob ..).trans ((State.Kept.refl _).mxDone ..).toPersists) ?_
  refine reaches_storeLines _ _ _ _ _ hu ((State.leaf_congr ?_ ?_ ?_ ?_ ..).trans mapped) <;> rfl

end Sys2Proof.Machine
end

section

/-! # The array's codes, sums, steps and passes (R93, R266-R277, R282, R283, R286) -/

namespace Sys2Proof.Machine

open Sys2Proof.Safety

/-! ### Codes (R282) and sums (R93) -/

/-- A code of out type 5 or 6, whose record's z has one: z itself where there is no quotient. -/
theorem mxCode_zero {out top : Nat} (ht : out = 5 ∧ top = 15 ∨ out = 6 ∧ top = 255) (dir : Dir) (sat : Bool) {r : BitVec 32} (own : Nat) {v : FV}
    (fits : recZero r ≤ top) (no : v = .nan ∨ ∀ sg m e, fp16.unpack (recScale r) = .fin sg m e → m = 0) :
    mxCode out dir sat r own v = recZero r := by
  rcases ht with ⟨rfl, rfl⟩ | ⟨rfl, rfl⟩
  all_goals
    simp only [mxCode]
    rw [if_neg (by simp; omega)]
    split
    · rfl
    · rfl
    · rfl
    next isNumber scale => rw [if_pos (no.elim (fun h => (isNumber h).elim) fun h => h _ _ _ scale)]

/-- The quotient and z, clamped to the type. -/
theorem mxCode_quotient {out top : Nat} (ht : out = 5 ∧ top = 15 ∨ out = 6 ∧ top = 255) {dir : Dir} (sat : Bool) {r : BitVec 32} (own : Nat) {v : FV}
    {sg : Bool} {m : Nat} {e q : Int} (num : v ≠ .nan) (scale : fp16.unpack (recScale r) = .fin sg m e) (some' : m ≠ 0)
    (quot : (FV.div v (.fin sg m e)).toInt dir = some (.ok q)) :
    (mxCode out dir sat r own v : Int) = max 0 (min (q + recZero r) top) := by
  rcases ht with ⟨rfl, rfl⟩ | ⟨rfl, rfl⟩
  all_goals
    simp only [mxCode, scale, quot, if_neg some', Nat.reduceEqDiff, reduceIte]
    rw [clampInt_eq (by decide), Int.toNat_of_nonneg (le_max_left ..)]
    rfl

theorem chunkInt8_toInt (acc : BitVec 32) (l : List (Int × Int)) :
    (chunkInt8 acc l).1.toInt = max (-2 ^ 31) (min (acc.toInt + (l.map fun p => p.1 * p.2).sum) (2 ^ 31 - 1)) := by
  have sum : ∀ z : Int, l.foldl (fun c p => c + p.1 * p.2) z = z + (l.map fun p => p.1 * p.2).sum := by
    induction l with
    | nil => simp
    | cons p r ih => intro z; rw [List.foldl_cons, ih, List.map_cons, List.sum_cons, add_assoc]
  rw [chunkInt8]
  simp only [sum, zero_add, intMin, intMax]
  rw [clampInt_eq (by decide), BitVec.toInt_ofInt, Int.bmod_eq_of_le]
  · rfl
  · simp
  · simp

/-! ### A step of an MMA (R274) -/

/-- A step of an MMA changes its bogie, and the tiles of its coach alone. -/
theorem State.mmaWork_coach (s : State) (k : Nat) (c : MxCmd) (tl : Nat) (src : Word) (slot stride kk : Nat) (aint : Bool) (base : BitVec 10)
    (step : Nat) : ∃ l, (s.mmaWork k c tl src slot stride kk aint base step).coach k = { s.coach k with tiles := l } := by
  simp only [State.mmaWork]
  split
  · exact ⟨_, State.setCoach_same ..⟩
  · exact ⟨_, State.setCoach_same ..⟩

theorem State.kept_arbitrate (s : State) (k : Nat) : s.Kept (s.arbitrate k) := (State.Kept.refl s).add _

theorem State.underWay_arbitrate (s : State) (k : Nat) : UnderWay (s.arbitrate k) .arrayCommandExecute fun a => a.h = k :=
  State.underWay_add (List.mem_singleton_self _) rfl

/-- The last step ends the command, and each before it leaves it held. -/
theorem does_mmaStep {s : State} {r : MxRun} (held : Tab.find (s.coach s.arg.h).shadow s.arg.n = some r) {tl : Nat} {src : Word}
    {slot stride kk : Nat} {aint : Bool} {base : BitVec 10} (op : r.cmd.op = .mma tl src slot stride kk aint base) :
    Does .mmaStep s fun t =>
      Tab.get (t.coach s.arg.h).tiles {} tl =
        Tab.get ((s.mmaWork s.arg.h r.cmd tl src slot stride kk aint base r.steps).coach s.arg.h).tiles {} tl ∧
      Tab.find (t.coach s.arg.h).shadow s.arg.n =
        (if decide (r.steps + 1 < s.mxTotal s.arg.h r.cmd) = true then some { r with steps := r.steps + 1 } else none) ∧
      UnderWay t .arrayCommandExecute fun a => a.h = s.arg.h := by
  refine ⟨mmaStep s.arg.h s.arg.n s, rfl, ?_⟩
  obtain ⟨l, worked⟩ := s.mmaWork_coach s.arg.h r.cmd tl src slot stride kk aint base r.steps
  have total : (s.mmaWork s.arg.h r.cmd tl src slot stride kk aint base r.steps).mxTotal s.arg.h r.cmd = s.mxTotal s.arg.h r.cmd := by
    simp only [State.mxTotal, op, worked]
  simp only [mmaStep, held, op, total]
  split
  next last =>
    have kept := State.kept_leave ((s.mmaWork s.arg.h r.cmd tl src slot stride kk aint base r.steps).setCoach s.arg.h
      { (s.mmaWork s.arg.h r.cmd tl src slot stride kk aint base r.steps).coach s.arg.h with
        shadow := Tab.del ((s.mmaWork s.arg.h r.cmd tl src slot stride kk aint base r.steps).coach s.arg.h).shadow s.arg.n }) s.arg.h r.cmd
    rw [kept.tiles, kept.shadow, State.setCoach_same, if_neg (by rw [decide_eq_true_eq]; omega)]
    exact ⟨rfl, find_del_same .., State.underWay_mxDone ..⟩
  next more =>
    rw [(State.kept_arbitrate ..).tiles, (State.kept_arbitrate ..).shadow, State.setCoach_same, if_pos (by rw [decide_eq_true_eq]; omega)]
    exact ⟨rfl, find_put_same .., State.underWay_arbitrate ..⟩

/-! ### Leases (R273) -/

theorem does_leaseEnd {s : State} {l : Lease} (lease : (s.coach s.arg.h).lease = some l) (ranOut : 16 ≤ l.done ∨ l.start + 2048 ≤ s.clock) :
    Does .leaseEnd s fun t => t.coach s.arg.h = { s.coach s.arg.h with lease := some { l with done := max l.done 16 } } ∧
      UnderWay t .arrayCommandExecute fun a => a.h = s.arg.h := by
  refine ⟨leaseEnd s.arg.h s, rfl, ?_⟩
  have ends : l.over s.clock = true := by simpa [Lease.over] using ranOut
  simp only [leaseEnd, lease, ends, if_true]
  exact ⟨State.setCoach_same .., State.underWay_arbitrate ..⟩

/-! ### Scale files (R283) -/

/-- What reaches one bogie of a coach, where it is of the mask. -/
def scaleTo (g : Nat) (mask : BitVec 8) (x : Held) (s : State) (b : Nat) : State :=
  if bit mask b then heldWriteArrival (g / 8 * 8 + b) [x] s else s

/-- Something for no frame that reaches a bogie which is not quarantined is held there. -/
theorem heldWriteArrival_bogie {s : State} {g : Nat} {x : Held} (who : Held.who x = none) (well : (s.bogie g).quarantined = none) :
    ∀ j, (heldWriteArrival g [x] s).bogie j = if j = g then { s.bogie g with held := (s.bogie g).held ++ [(s.clock, x)] } else s.bogie j := by
  intro j
  have here : s.target (Held.who x) g = g := by
    rw [who]
    change s.standIn g 8 = g
    unfold State.standIn
    rw [well]
  have held : ∀ u : State, u.bogies = (s.setBogie g { s.bogie g with held := (s.bogie g).held ++ [(s.clock, x)] }).bogies →
      u.bogie j = if j = g then { s.bogie g with held := (s.bogie g).held ++ [(s.clock, x)] } else s.bogie j := by
    intro u e
    rw [State.bogie, e]
    split
    next e => subst e; exact State.setBogie_same ..
    next ne => exact State.setBogie_other _ _ _ _ (Ne.symm ne)
  rw [heldWriteArrival]
  simp only [List.foldl_cons, List.foldl_nil, here]
  split
  · exact held _ rfl
  · exact held _ rfl

theorem heldWriteArrival_clock (g : Nat) (x : Held) (s : State) : (heldWriteArrival g [x] s).clock = s.clock ∧ (heldWriteArrival g [x] s).sys = s.sys := by
  rw [heldWriteArrival]
  simp only [List.foldl_cons, List.foldl_nil]
  split
  · exact ⟨rfl, rfl⟩
  · exact ⟨rfl, rfl⟩

/-- What the first n bogies of a coach hold once a record has reached those of the mask. -/
theorem scaleTo_foldl (g : Nat) (mask : BitVec 8) {x : Held} (who : Held.who x = none) {s : State}
    (well : ∀ b < 8, (s.bogie (g / 8 * 8 + b)).quarantined = none) (n : Nat) (hn : n ≤ 8) :
    let t := (List.range n).foldl (scaleTo g mask x) s
    t.clock = s.clock ∧ t.sys = s.sys ∧ ∀ b < 8, (t.bogie (g / 8 * 8 + b)).quarantined = none ∧
      (t.bogie (g / 8 * 8 + b)).held = (s.bogie (g / 8 * 8 + b)).held ++ if b < n ∧ mask.getLsbD b = true then [(s.clock, x)] else [] := by
  induction n with
  | zero => exact ⟨rfl, rfl, fun b hb => ⟨well b hb, by simp⟩⟩
  | succ n ih =>
    obtain ⟨clock, sys, bogies⟩ := ih (by omega)
    simp only [List.range_succ, List.foldl_append, List.foldl_cons, List.foldl_nil]
    generalize (List.range n).foldl (scaleTo g mask x) s = u at *
    rw [scaleTo]
    split
    next masked =>
      obtain ⟨clock', sys'⟩ := heldWriteArrival_clock (g / 8 * 8 + n) x u
      refine ⟨clock'.trans clock, sys'.trans sys, fun b hb => ?_⟩
      rw [heldWriteArrival_bogie who (bogies n (by omega)).1]
      obtain ⟨well', held⟩ := bogies b hb
      rcases eq_or_ne b n with rfl | ne
      · rw [if_pos rfl]
        refine ⟨well', ?_⟩
        simp only [held, clock]
        rw [if_neg (by omega), if_pos ⟨Nat.lt_succ_self b, masked⟩, List.append_nil]
      · rw [if_neg (by omega)]
        exact ⟨well', held.trans (congrArg _ (if_congr (and_congr_left' (by omega)) rfl rfl))⟩
    next clear =>
      refine ⟨clock, sys, fun b hb => ⟨(bogies b hb).1, (bogies b hb).2.trans ?_⟩⟩
      rcases eq_or_ne b n with rfl | ne
      · rw [if_neg (by omega), if_neg fun h => clear h.2]
      · exact congrArg _ (if_congr (and_congr_left' (by omega)) rfl rfl)

theorem does_scaleDelivery {s : State} {entry : Nat} {recs : List (BitVec 32)} {mask : BitVec 8} {g u : Nat}
    (op : s.arg.req.op = .scale entry recs mask) (src : s.arg.req.src = .task g u)
    (well : ∀ b < 8, (s.bogie (g / 8 * 8 + b)).quarantined = none) : Does .scaleDelivery s fun t =>
    (∀ b < 8, (t.bogie (g / 8 * 8 + b)).held = (s.bogie (g / 8 * 8 + b)).held ++
      if mask.getLsbD b = true then [(s.clock, .scale 0 s.arg.req.src entry recs)] else []) ∧ Answers s t s.arg.d s.arg.req 0 0 := by
  refine ⟨scaleDelivery s.arg.d s.arg.req s, rfl, ?_⟩
  obtain ⟨-, sys, bogies⟩ := scaleTo_foldl g mask (x := .scale 0 s.arg.req.src entry recs) rfl well 8 le_rfl
  have delivered : scaleDelivery s.arg.d s.arg.req s =
      ((List.range 8).foldl (scaleTo g mask (.scale 0 s.arg.req.src entry recs)) s).answer s.arg.d s.arg.req 0 0 := by
    simp only [scaleDelivery, op, src]
    rfl
  rw [delivered]
  refine ⟨fun b hb => ?_, answers_answer sys⟩
  rw [State.bogie, (State.ships_answer ..).bogies]
  refine (bogies b hb).2.trans ?_
  simp only [hb, true_and]

end Sys2Proof.Machine
end

section

/-! # Passes (R286) -/

namespace Sys2Proof.Machine

open Sys2Proof.Safety

/-- How a step of a pass ends: the pass goes on with its next step, or ends. -/
def State.passNext (s : State) (k key : Nat) (r : MxRun) : State :=
  if r.status = 0x20 ∨ s.mxTotal k r.cmd ≤ r.steps + 1 then s.passEnd k r
  else (s.setCoach k { s.coach k with shadow := Tab.put (s.coach k).shadow key { r with steps := r.steps + 1 } }).arbitrate k

/-- A pass that goes on: its tiles stand, and its next step is held. -/
theorem State.passNext_more {s : State} {k key : Nat} {r : MxRun} (fine : r.status ≠ 0x20) (more : r.steps + 1 < s.mxTotal k r.cmd) :
    ((s.passNext k key r).coach k).tiles = (s.coach k).tiles ∧
    Tab.find ((s.passNext k key r).coach k).shadow key = some { r with steps := r.steps + 1 } := by
  rw [State.passNext, if_neg (by simp only [fine, false_or]; omega), (State.kept_arbitrate ..).tiles, (State.kept_arbitrate ..).shadow,
    State.setCoach_same]
  exact ⟨rfl, find_put_same ..⟩

/-- A pass that may not read, where it has stored nothing: it is held no longer, and is complete. -/
theorem State.passNext_stop {s : State} {k : Nat} {r : MxRun} (stop : r.status = 0x20) (none' : (s.coach k).jobs = []) :
    Tab.find ((s.passNext k (mxKey r.cmd) r).coach k).shadow (mxKey r.cmd) = none ∧
    UnderWay (s.passNext k (mxKey r.cmd) r) .passComplete fun a => a.h = k ∧ a.n = r.cmd.id := by
  rw [State.passNext, if_pos (.inl stop), State.passEnd]
  simp only [none', List.find?_nil, Option.getD_none, List.isEmpty_nil, OfNat.zero_ne_ofNat, if_true, if_false]
  constructor
  · rw [((State.Kept.refl _).mxDone ..).shadow, ((State.Kept.refl _).add _).shadow, State.setCoach_same]
    exact find_del_same ..
  · refine UnderWay.mono ((State.Kept.refl _).mxDone ..).toPersists ?_
    exact State.underWay_add (List.mem_singleton_self _) ⟨rfl, rfl⟩

theorem State.mxTotal_pass (s : State) (k : Nat) {c : MxCmd} {d : Vec} {tiles : List Nat} (op : c.op = .pass d tiles) :
    s.mxTotal k c = 1 + stepCount (passType d) (passK d) * tiles.length + tiles.length := by
  simp only [State.mxTotal, op]

theorem tiles_foldl_putTile (k : Nat) (x : Tile) (tiles : List Nat) (s : State) (tl : Nat) :
    Tab.get ((tiles.foldl (fun s t => s.putTile k t x) s).coach k).tiles {} tl = if tl ∈ tiles then x else Tab.get (s.coach k).tiles {} tl := by
  induction tiles generalizing s with
  | nil => rfl
  | cons t r ih =>
    rw [List.foldl_cons, ih, State.putTile, State.setCoach_same]
    simp only
    by_cases h : tl ∈ r
    · rw [if_pos h, if_pos (List.mem_cons_of_mem _ h)]
    · rw [if_neg h]
      rcases eq_or_ne t tl with rfl | ne
      · rw [if_pos List.mem_cons_self, Tab.get_put_same]
      · rw [if_neg (by simp [h, ne.symm]), Tab.get_put_other _ _ _ _ _ ne]

/-- What a step of a pass leaves of the command and of its count of steps. -/
theorem State.passWork_run {s s' : State} {k : Nat} {r r' : MxRun} {d : Vec} {t tile k0 n : Nat} (h : s.passWork k r d t tile k0 n = .ok (s', r')) :
    r'.cmd = r.cmd ∧ r'.steps = r.steps := by
  simp only [State.passWork] at h
  split at h
  · cases h
  · cases h
    exact ⟨rfl, rfl⟩
  · cases h
    split
    · split
      · exact ⟨rfl, rfl⟩
      · exact ⟨rfl, rfl⟩
    · exact ⟨rfl, rfl⟩

theorem State.passWork_stop {s : State} (k : Nat) {r : MxRun} {d : Vec} {t : Nat} (tile : Nat) {k0 n cause va : Nat}
    (h : s.passBlock r.cmd d t k0 n = .error (.inr (cause, va))) :
    s.passWork k r d t tile k0 n = .ok (s.noteRead r.cmd.ctx va, { r with status := 0x20, cause := cause, addr := va }) := by
  simp only [State.passWork, h]

section

variable {s : State} {r : MxRun} (held : Tab.find (s.coach s.arg.h).shadow s.arg.n = some r)
variable {d : Vec} {tiles : List Nat} (op : r.cmd.op = .pass d tiles)
include held op

/-- The first step of a pass clears its tiles. -/
theorem does_passExecute_clear (some' : tiles ≠ []) (first : r.steps = 0) (fine : r.status ≠ 0x20) : Does .passExecute s fun t =>
    (∀ tl ∈ tiles, Tab.get (t.coach s.arg.h).tiles {} tl = { i32 := passType d == 1 }) ∧
    Tab.find (t.coach s.arg.h).shadow s.arg.n = some { r with steps := 1 } := by
  refine ⟨passExecute s.arg.h s.arg.n s, rfl, ?_⟩
  have run : passExecute s.arg.h s.arg.n s =
      (tiles.foldl (fun u t => u.putTile s.arg.h t { i32 := passType d == 1 }) s).passNext s.arg.h s.arg.n r := by
    simp only [passExecute, held, op]
    rw [if_pos first]
    rfl
  obtain ⟨cleared, goes⟩ := State.passNext_more (s := tiles.foldl (fun u t => u.putTile s.arg.h t { i32 := passType d == 1 }) s)
    (k := s.arg.h) (key := s.arg.n) fine (by
      have := List.length_pos_iff.2 some'
      rw [State.mxTotal_pass _ _ op, first]
      omega)
  rw [run]
  refine ⟨fun tl htl => ?_, goes.trans (by rw [first])⟩
  rw [cleared, tiles_foldl_putTile, if_pos htl]

/-- A step of a pass that is not the first, and not of its stores, does its work and ends as `State.passNext` says. -/
theorem passExecute_work (later : r.steps ≠ 0) (within : r.steps ≤ stepCount (passType d) (passK d) * tiles.length) {s' : State} {r' : MxRun}
    (work : s.passWork s.arg.h r d ((r.steps - 1) % tiles.length) (pick tiles ((r.steps - 1) % tiles.length))
      ((r.steps - 1) / tiles.length * stepSpan (passType d))
      (min (stepSpan (passType d)) (passK d - (r.steps - 1) / tiles.length * stepSpan (passType d))) = .ok (s', r')) :
    passExecute s.arg.h s.arg.n s = s'.passNext s.arg.h s.arg.n r' := by
  simp only [passExecute, held, op]
  rw [if_neg later, if_pos within]
  simp only [work]
  rfl

/-- A step that has worked is followed by the next one. -/
theorem does_passExecute_work (some' : tiles ≠ []) (later : r.steps ≠ 0) (within : r.steps ≤ stepCount (passType d) (passK d) * tiles.length)
    {s' : State} {r' : MxRun}
    (work : s.passWork s.arg.h r d ((r.steps - 1) % tiles.length) (pick tiles ((r.steps - 1) % tiles.length))
      ((r.steps - 1) / tiles.length * stepSpan (passType d))
      (min (stepSpan (passType d)) (passK d - (r.steps - 1) / tiles.length * stepSpan (passType d))) = .ok (s', r'))
    (fine : r'.status ≠ 0x20) : Does .passExecute s fun t =>
    Tab.find (t.coach s.arg.h).shadow s.arg.n = some { r' with steps := r'.steps + 1 } ∧ (t.coach s.arg.h).tiles = (s'.coach s.arg.h).tiles := by
  refine ⟨passExecute s.arg.h s.arg.n s, rfl, ?_⟩
  obtain ⟨cmd, steps⟩ := State.passWork_run work
  rw [passExecute_work held op later within work]
  obtain ⟨tiles', goes⟩ := State.passNext_more (s := s') (k := s.arg.h) (key := s.arg.n) fine (by
    have := List.length_pos_iff.2 some'
    rw [cmd, steps, State.mxTotal_pass _ _ op]
    omega)
  exact ⟨goes, tiles'⟩

/-- A step that may not read ends the pass. -/
theorem does_passExecute_stop (later : r.steps ≠ 0) (within : r.steps ≤ stepCount (passType d) (passK d) * tiles.length)
    (key : mxKey r.cmd = s.arg.n) (none' : (s.coach s.arg.h).jobs = []) {cause va : Nat}
    (stop : s.passBlock r.cmd d ((r.steps - 1) % tiles.length) ((r.steps - 1) / tiles.length * stepSpan (passType d))
      (min (stepSpan (passType d)) (passK d - (r.steps - 1) / tiles.length * stepSpan (passType d))) = .error (.inr (cause, va))) :
    Does .passExecute s fun t => Tab.find (t.coach s.arg.h).shadow s.arg.n = none ∧
      UnderWay t .passComplete fun a => a.h = s.arg.h ∧ a.n = r.cmd.id := by
  refine ⟨passExecute s.arg.h s.arg.n s, rfl, ?_⟩
  rw [passExecute_work held op later within (State.passWork_stop _ _ stop), ← key]
  exact State.passNext_stop rfl ((((State.Kept.refl s).noteRead ..).jobs _).trans none')

end

/-! ### A pass is complete -/

section

variable {s : State} {j : MxJob} {d : Vec} {tiles : List Nat}

/-- What a complete pass tells: its successor's release, or the event of its failure. -/
def State.passTells (s : State) (k : Nat) (j : MxJob) (d : Vec) : State :=
  let die := match j.top with
    | some e => e.2
    | none => k / 24
  if bits d 511 448 ≠ 0 then
    s.add [{ ev := .releaseAccept
             arg := { d := die, rel := { src := .array (k / 24) k, rel := {
               type := 1, prio := j.cmd.level, ctx := j.cmd.ctx, record := bits d 511 448, arg := BitVec.ofNat 32 (j.status + 256 * j.cause) } } }
             lane := some (6000 + die, 0) }]
  else if j.status ≠ 0 then
    s.add [{ ev := .raiseEvent
             arg := { d := k / 24, c := j.cmd.ctx, info := { code := j.status, addr := BitVec.ofNat 64 j.addr, cause := j.cause } } }]
  else s

theorem State.passTells_release (s : State) (k : Nat) (j : MxJob) {d : Vec} (some' : bits d 511 448 ≠ 0) :
    UnderWay (s.passTells k j d) .releaseAccept fun a => a.rel.rel.type = 1 ∧ a.rel.rel.prio = j.cmd.level ∧ a.rel.rel.ctx = j.cmd.ctx ∧
      a.rel.rel.record = bits d 511 448 ∧ a.rel.rel.arg = BitVec.ofNat 32 (j.status + 256 * j.cause) := by
  rw [State.passTells]
  simp only [if_pos some']
  exact State.underWay_add (List.mem_singleton_self _) ⟨rfl, rfl, rfl, rfl, rfl⟩

theorem State.passTells_event (s : State) (k : Nat) {j : MxJob} {d : Vec} (none' : bits d 511 448 = 0) (bad : j.status ≠ 0) :
    UnderWay (s.passTells k j d) .raiseEvent fun a =>
      a.c = j.cmd.ctx ∧ a.info.code = j.status ∧ a.info.addr = BitVec.ofNat 64 j.addr ∧ a.info.cause = j.cause := by
  rw [State.passTells]
  simp only [if_neg (not_not.2 none'), if_pos bad]
  exact State.underWay_add (List.mem_singleton_self _) ⟨rfl, rfl, rfl, rfl⟩

variable (only : (s.coach s.arg.h).jobs = [j]) (id : j.cmd.id = s.arg.n) (paid : j.owed = []) (op : j.cmd.op = .pass d tiles)
include only id paid op

theorem passComplete_eq : passComplete s.arg.h s.arg.n s =
    ((((s.setCoach s.arg.h { s.coach s.arg.h with jobs := [] }).passTells s.arg.h j d).mxComplete j.cmd).arbitrate s.arg.h) := by
  have found : (s.coach s.arg.h).jobs.find? (fun y : MxJob => y.cmd.id == s.arg.n) = some j := by
    rw [only, List.find?_cons_of_pos (by simp [id])]
  have others : (s.coach s.arg.h).jobs.filter (fun y : MxJob => y.cmd.id != s.arg.n) = [] := by
    rw [only, List.filter_cons_of_neg (by simp [id]), List.filter_nil]
  simp only [passComplete, found, others, paid, List.isEmpty_nil, Bool.not_true, Bool.false_eq_true, if_false, op]
  rfl

/-- What a complete pass tells is under way. -/
theorem does_passComplete : Does .passComplete s fun t =>
    ∀ ev p, UnderWay ((s.setCoach s.arg.h { s.coach s.arg.h with jobs := [] }).passTells s.arg.h j d) ev p → UnderWay t ev p :=
  ⟨passComplete s.arg.h s.arg.n s, rfl, fun ev p u => by
    rw [passComplete_eq only id paid op]
    exact UnderWay.mono (((State.Kept.refl _).mxComplete _).add _).toPersists u⟩

end

end Sys2Proof.Machine
end

section

/-! # The array executes the commands of its queues (O39) -/

namespace Sys2Proof.Machine

open Sys2Proof.Safety

/-- The pitch of an MXST by its control word, whose highest field reaches its top bit. -/
theorem stPitch_eq (out : Nat) (ctl : Word) : stPitch out ctl =
    if ctl.toNat / 2 ^ 48 = 0 then outBytes out (16 * (ctl.toNat / 2 ^ 38 % 8 + 1)) else ctl.toNat / 2 ^ 48 * 16 := by
  have top : bits ctl 63 48 = ctl.toNat / 2 ^ 48 := by
    have := ctl.isLt
    rw [bits, Nat.mod_eq_of_lt]
    omega
  rw [stPitch, top]
  rfl

/-- Settles O39: arbitration takes a command (`Takes`), which each kind of command answers by its own rule; what it did to slots, tiles and
shadow contexts stands when it has left the array (`State.kept_leave`). -/
theorem theArrayExecutes : Obligations.TheArrayExecutes := by
  unfold Obligations.TheArrayExecutes
  refine ⟨?commands, ?rows, ?codes, ?steps, chunkInt8_toInt, fun s l lease ranOut => does_leaseEnd lease ranOut,
    fun s entry recs mask g u op src well => does_scaleDelivery op src well, ?complete⟩
  case commands =>
    intro s c rest b lvl k x key idle level holder free head here runs again
    have h : Takes s c rest b lvl := ⟨idle, level, holder, free, head, here⟩
    refine ⟨fun tl z => executes_z h, fun slot ty kk src ctl rows => executes_ldb h, fun tl src ctl z rows => executes_lda h,
      fun tl src slot stride kk aint base op => ⟨executes_mma h op, fun e => executes_mmaFault h op⟩, ?store, fun d tiles => executes_pass h⟩
    case store =>
      intro tl dst ctl bar out gs round sat op r pitch rows bytesOf
      have pitched : pitch = stPitch out ctl := (stPitch_eq out ctl).symm
      clear_value pitch
      subst pitched
      refine ⟨fun o own => ⟨fun clean => executes_st_own h own op clean, fun poison i barrier => ?_⟩, fun glob => executes_st_glob h glob op⟩
      subst barrier
      exact executes_st_ownPoison h own op poison
  case rows =>
    intro s c tile ctl out gs round sat w n epi param value r
    refine ⟨State.length_stRows .., State.stRows_poison .., fun i row h => ⟨_, State.stRows_row _ _ _ _ _ _ _ _ h, fun j _ => ⟨_, rfl⟩⟩⟩
  case codes =>
    intro dir sat r own v code
    exact ⟨rfl, rfl, rfl, rfl, rfl, fun out top ht fits =>
      ⟨mxCode_zero ht dir sat own fits, fun sg m e q num scale some' quot => mxCode_quotient ht sat own num scale some' quot⟩⟩
  case steps =>
    intro s r k x key held
    refine ⟨fun tl src slot stride kk aint base op => does_mmaStep held op, fun d tiles op some' => ⟨does_passExecute_clear held op some', ?_⟩⟩
    intro later within here at_ k0 n
    exact ⟨fun s' r' work fine => does_passExecute_work held op some' later within work fine,
      fun cause va stop none' => does_passExecute_stop held op later within here none' stop⟩
  case complete =>
    intro s j d tiles k only id paid op
    obtain ⟨t, run, told⟩ := does_passComplete only id paid op
    exact ⟨fun some' => ⟨t, run, told _ _ (State.passTells_release _ _ _ some')⟩,
      fun none' bad => ⟨t, run, told _ _ (State.passTells_event _ _ none' bad)⟩⟩

end Sys2Proof.Machine
end

section

/-! # What a step leaves of tasks, contexts and stored releases

`State.SameUnits t s`: an effect that is only sent, for the contexts, the bogies and the dies of t are those of s. `State.Rests s t`: the contexts
stand, each stack stands but for what its frames await, no cache line comes, and every release stays in its die's store. One rule for each function
of the model by which an agent's list is sent (R184, R185) or firmware writes a consist (R360). -/

namespace Sys2Proof.Machine

open Sys2Proof.Safety

/-! ### Tables -/

/-- A number keeps its entry when another is put. -/
theorem find_put_other {α : Type} (t : Tab α) {k q : Nat} (v : α) (h : k ≠ q) : Tab.find (Tab.put t k v) q = Tab.find t q := by
  induction t with
  | nil => simp [Tab.put, Tab.find, h]
  | cons e r ih =>
    obtain ⟨j, w⟩ := e
    unfold Tab.put
    split
    · simp [Tab.find, h]
    · split
      next here => subst here; simp [Tab.find, h]
      · simp only [Tab.find, ih]

/-- What holds between every value and its image, and of the default, holds between what a table has at a number before and after. -/
theorem get_mapVals_rel {α : Type} {p : α → α → Prop} {f : α → α} (hf : ∀ v, p v (f v)) {d : α} (hd : p d d) (t : Tab α) (k : Nat) :
    p (Tab.get t d k) (Tab.get (Tab.mapVals t f) d k) := by
  induction t with
  | nil => exact hd
  | cons e r ih =>
    obtain ⟨j, w⟩ := e
    rw [Tab.mapVals, List.map_cons, Tab.get, Tab.get]
    split
    · exact hf w
    · exact ih

/-- What holds between every bogie and its image, and of an unlisted one, holds between each bogie before and after. -/
theorem State.bogie_mapVals {s t : State} {f : Bogie → Bogie} (e : t.bogies = Tab.mapVals s.bogies f) {p : Bogie → Bogie → Prop} (hf : ∀ b, p b (f b))
    (h : p {} {}) (g : Nat) : p (s.bogie g) (t.bogie g) := by
  rw [State.bogie, State.bogie, e]; exact get_mapVals_rel hf h ..

/-- The same of the dies. -/
theorem State.die_mapVals {s t : State} {f : Die → Die} (e : t.dies = Tab.mapVals s.dies f) {p : Die → Die → Prop} (hf : ∀ x, p x (f x))
    (h : ∀ n, p { pointer := n } { pointer := n }) (d : Nat) : p (s.die d) (t.die d) := by
  rw [State.die, State.die, e]; exact get_mapVals_rel hf (h _) ..

/-! ### Effects that are only sent -/

/-- The contexts, the bogies and the dies of t are those of s. -/
@[simp] abbrev State.SameUnits (t s : State) : Prop := t.ctxs = s.ctxs ∧ t.bogies = s.bogies ∧ t.dies = s.dies

theorem State.Ships.sameUnits {s t : State} (h : s.Ships t) : t.SameUnits s := ⟨h.ctxs, h.bogies, h.dies⟩

@[simp] theorem State.sameUnits_post (s : State) (src ep dst ctx spread slots : Nat) (ev : Instr) (arg : Args) :
    (s.post src ep dst ctx spread slots ev arg).SameUnits s := (State.ships_post ..).sameUnits
@[simp] theorem State.sameUnits_answer (s : State) (d : Nat) (q : Req) (val : Word) (code : Nat) : (s.answer d q val code).SameUnits s :=
  (State.ships_answer ..).sameUnits
@[simp] theorem State.sameUnits_noteWalk (s : State) (ctx va : Nat) : (s.noteWalk ctx va).SameUnits s := by
  rw [State.noteWalk]; split <;> exact ⟨rfl, rfl, rfl⟩
@[simp] theorem State.sameUnits_lost (s : State) (d : Nat) (q : Req) : (s.lost d q).SameUnits s := by simp [State.lost]
@[simp] theorem State.sameUnits_toHead (s : State) (d ep : Nat) (q : Req) (l : Leaf) : (s.toHead d ep q l).SameUnits s := by
  rw [State.toHead]; split <;> simp
@[simp] theorem State.sameUnits_deviceStore (s : State) (d ep : Nat) (q : Req) (l : Leaf) (bytes : Tab Byte) :
    (s.deviceStore d ep q l bytes).SameUnits s := by
  simp only [State.deviceStore]; split <;> simp
@[simp] theorem State.sameUnits_sendRemote (s : State) (d va : Nat) (q : Req) : (s.sendRemote d va q).SameUnits s := ⟨rfl, rfl, rfl⟩
@[simp] theorem State.sameUnits_choose (s : State) (n : Nat) : (s.choose n).2.SameUnits s := by
  rw [State.choose, State.draw]
  split
  · exact ⟨rfl, rfl, rfl⟩
  · split <;> exact ⟨rfl, rfl, rfl⟩
@[simp] theorem State.sameUnits_fwSend (s : State) (id ctx va : Nat) (l : List Byte) : (s.fwSend id ctx va l).SameUnits s := by
  simp only [State.fwSend]; (repeat' split) <;> simp
@[simp] theorem State.sameUnits_putConsist (s : State) (ctx k : Nat) (c : Consist) : (s.putConsist ctx k c).SameUnits s :=
  State.sameUnits_fwSend (s.setConsist ctx k c) ..
@[simp] theorem State.sameUnits_relinkDone (s : State) (c : Consist) (status : Nat) : (s.relinkDone c status).SameUnits s := by
  rw [State.relinkDone]; split <;> simp
@[simp] theorem State.sameUnits_uncouple (s : State) (q : Req) (k : Nat) (die : Word) : (s.uncouple q k die).SameUnits s := by
  simp only [State.uncouple]; (repeat' split) <;> simp
@[simp] theorem State.sameUnits_sendStore (s : State) (a : Agent) (q : Req) (bytes : Tab Byte) : (s.sendStore a q bytes).SameUnits s := by
  simp only [State.sendStore]; (repeat' split) <;> simp
@[simp] theorem State.sameUnits_sendAtomic (s : State) (a : Agent) (q : Req) (va : Nat) : (s.sendAtomic a q va).SameUnits s := by
  simp only [State.sendAtomic]; (repeat' split) <;> simp
@[simp] theorem State.sameUnits_sendLoad (s : State) (a : Agent) (q : Req) (va n : Nat) (sync : Bool) : (s.sendLoad a q va n sync).SameUnits s := by
  simp only [State.sendLoad]; (repeat' split) <;> simp
@[simp] theorem State.sameUnits_hartFault (s : State) (d h code va : Nat) : (s.hartFault d h code va).SameUnits s := ⟨rfl, rfl, rfl⟩

/-! ### Stacks, contexts and stores that stand -/

/-- A frame but for what it awaits. -/
def Frame.bare (f : Frame) : Frame := { f with await := none }

/-- Bogie b' has the stack of b but for what its frames await, its translations, and no cache line that b has not. -/
structure Bogie.Stands (b b' : Bogie) : Prop where
  stack : b'.stack.map Frame.bare = b.stack.map Frame.bare
  tlb : b'.tlb = b.tlb
  l1 : ∀ e ∈ b'.l1, e ∈ b.l1

theorem Bogie.Stands.refl (b : Bogie) : b.Stands b := ⟨rfl, rfl, fun _ h => h⟩

theorem Bogie.Stands.trans {a b c : Bogie} (h : a.Stands b) (k : b.Stands c) : a.Stands c :=
  ⟨k.stack.trans h.stack, k.tlb.trans h.tlb, fun e he => h.l1 e (k.l1 e he)⟩

/-- A frame that gets other things to await keeps the stack. -/
theorem map_bare_of_await {l : List Frame} {f : Frame → Frame} (h : ∀ x, (f x).bare = x.bare) : (l.map f).map Frame.bare = l.map Frame.bare := by
  rw [List.map_map]; exact List.map_congr_left fun x _ => h x

/-- The contexts stand, and the bogies. -/
structure State.Stands (s t : State) : Prop where
  ctxs : t.ctxs = s.ctxs
  bogie : ∀ g, (s.bogie g).Stands (t.bogie g)

/-- The contexts and the bogies stand, and every die's store. -/
structure State.Rests (s t : State) : Prop extends s.Stands t where
  store : ∀ d, (t.die d).store = (s.die d).store

theorem State.Stands.refl (s : State) : s.Stands s := ⟨rfl, fun _ => .refl _⟩

theorem State.Rests.refl (s : State) : s.Rests s := ⟨.refl s, fun _ => rfl⟩

namespace State.Stands

variable {s t : State} (h : s.Stands t)
include h

theorem trans {u : State} (k : t.Stands u) : s.Stands u := ⟨k.ctxs.trans h.ctxs, fun g => (h.bogie g).trans (k.bogie g)⟩

theorem frame {u : State} (hc : u.ctxs = t.ctxs) (hb : u.bogies = t.bogies) : s.Stands u :=
  h.trans ⟨hc, fun g => by rw [State.bogie, State.bogie, hb]; exact .refl _⟩

theorem ctx (c : Nat) : t.ctx c = s.ctx c := by rw [State.ctx, h.ctxs]; rfl

theorem setBogie (g : Nat) {b : Bogie} (hb : (t.bogie g).Stands b) : s.Stands (t.setBogie g b) := by
  refine h.trans ⟨rfl, fun g' => ?_⟩
  rcases eq_or_ne g g' with rfl | other
  · rwa [State.setBogie_same]
  · rw [State.setBogie_other _ _ _ _ other]; exact .refl _

theorem foldl {α : Type} (f : State → α → State) (hf : ∀ (u : State) a, s.Stands u → s.Stands (f u a)) (l : List α) : s.Stands (l.foldl f t) :=
  List.foldlRecOn (motive := fun u : State => s.Stands u) l f h fun u hu a _ => hf u a hu

end State.Stands

namespace State.Rests

variable {s t : State} (h : s.Rests t)
include h

theorem trans {u : State} (k : t.Rests u) : s.Rests u := ⟨h.toStands.trans k.toStands, fun d => (k.store d).trans (h.store d)⟩

theorem units {u : State} (k : u.SameUnits t) : s.Rests u :=
  ⟨h.toStands.frame k.1 k.2.1, fun d => by rw [State.die, k.2.2]; exact h.store d⟩

theorem setBogie (g : Nat) {b : Bogie} (hb : (t.bogie g).Stands b) : s.Rests (t.setBogie g b) := ⟨h.toStands.setBogie g hb, h.store⟩

theorem setDie (d : Nat) {x : Die} (hx : x.store = (t.die d).store) : s.Rests (t.setDie d x) := by
  refine ⟨h.toStands.frame rfl rfl, fun e => ?_⟩
  rcases eq_or_ne d e with rfl | other
  · rw [State.setDie_same, hx]; exact h.store d
  · rw [State.setDie_other _ _ _ _ other]; exact h.store e

theorem foldl {α : Type} (f : State → α → State) (hf : ∀ (u : State) a, s.Rests u → s.Rests (f u a)) (l : List α) : s.Rests (l.foldl f t) :=
  List.foldlRecOn (motive := fun u : State => s.Rests u) l f h fun u hu a _ => hf u a hu

theorem add (l : List Happening) : s.Rests (t.add l) := h.units ⟨rfl, rfl, rfl⟩

/-- Lines leave the caches; nothing comes. -/
theorem invalidateLines (ctx va n : Nat) : s.Rests (t.invalidateLines ctx va n) := by
  refine h.trans ⟨⟨rfl, fun g => ?_⟩, fun d => ?_⟩
  · refine State.bogie_mapVals (p := Bogie.Stands) (by rw [State.invalidateLines]) (fun b => ?_) (.refl _) g
    exact ⟨rfl, rfl, fun _ => List.mem_of_mem_filter⟩
  · refine State.die_mapVals (p := fun x y => y.store = x.store) (by rw [State.invalidateLines]) (fun x => ?_) (fun _ => rfl) d
    rfl

theorem iteFoldl {α : Type} {c : Prop} [Decidable c] (f : State → α → State) (hf : ∀ (u : State) a, s.Rests u → s.Rests (f u a)) (l : List α) :
    s.Rests (if c then l.foldl f t else t) := by
  split
  · exact h.foldl f hf l
  · exact h

theorem aliases (d ctx va : Nat) (l : Leaf) (write : Bool) : s.Rests (t.aliases d ctx va l write) := by
  simp only [State.aliases]
  split
  · exact h
  · refine iteFoldl ?_ _ (fun u a hu => hu.invalidateLines ..) _
    split
    · exact h
    · split
      · exact State.Rests.setDie h d rfl
      · split
        · exact h
        · refine State.Rests.invalidateLines (State.Rests.setDie h d ?_) ..
          rfl

theorem noteRead (ctx va : Nat) : s.Rests (t.noteRead ctx va) := by
  rw [State.noteRead]
  split
  · split
    · exact h
    · exact h.aliases ..
  · exact h.units (by simp)

/-- A read that parks leaves no mark on a snapshot: it writes no unit (R416, R418). -/
theorem parkRead (home : Option Nat) (q : Src) (ctx va : Nat) : s.Rests (t.parkRead home q ctx va) := by
  have unmarked : t.noteParked ctx (.load va 1 false) = t := by simp [State.noteParked, parkedUnits]
  simp only [State.parkRead]
  split
  · split
    · exact h
    · simp only [State.park, unmarked]
      split
      · exact h.add _
      · split
        · exact State.Rests.setDie h _ rfl
        · refine State.Rests.add (State.Rests.setDie h _ ?_) _
          rfl
  · exact h

theorem sendOwn (a : Args) : s.Rests (t.sendOwn a) := by
  rw [State.sendOwn]
  split
  · exact (h.parkRead ..).add _
  · exact (h.noteRead ..).add _

theorem useUnits (d n : Nat) (take : Bool) : s.Rests (t.useUnits d n take) := h.setDie d rfl

theorem couple (q : Req) (k : Nat) (die : Word) : s.Rests (t.couple q k die) := by
  simp only [State.couple]
  iterate 6
    split
    · exact h.units (by simp)
  exact ((h.useUnits ..).units (State.sameUnits_putConsist ..)).add _

theorem freeConsist (ctx k : Nat) : s.Rests (t.freeConsist ctx k) :=
  (h.foldl _ (fun _ _ hu => hu.useUnits ..) _).units (State.sameUnits_putConsist ..)

/-! ### The agent's list (R184, R185) -/

theorem sendOp (a : Agent) (x : Transit) : s.Rests (t.sendOp a x) := by
  simp only [State.sendOp]
  split
  case h_5 =>
    split
    · exact h.units (by simp)
    · split
      · exact h.sendOwn _
      · exact h.units (by simp)
  case h_16 => exact h.couple ..
  all_goals (repeat' split) <;> exact h.units (by simp)

theorem setTransit (a : Agent) (l : List Transit) : s.Rests (t.setTransit a l) := by
  cases a with
  | bogie g => exact h.setBogie g ⟨rfl, rfl, fun _ he => he⟩
  | hart d k => exact h.units ⟨rfl, rfl, rfl⟩

theorem reply (a : Agent) (uid : Nat) (r : Except (Nat × Word) Word) : s.Rests (t.reply a uid r) := by
  cases a with
  | bogie g =>
    have replied := h.setBogie g (b := { t.bogie g with stack := (t.bogie g).stack.map fun f =>
      if f.uid = uid then { f with await := f.await.map fun a => { a with started := true, reply := some r } } else f })
      ⟨map_bare_of_await fun f => by split <;> rfl, rfl, fun _ he => he⟩
    simp only [State.reply, State.setReply]
    split
    · split
      · exact replied.add _
      · exact replied
    · exact replied
  | hart d k =>
    simp only [State.reply]
    (repeat' split) <;> exact h.units ⟨rfl, rfl, rfl⟩

theorem checkBwait (g : Nat) : s.Rests (t.checkBwait g) := by
  simp only [State.checkBwait]
  split
  next f r hs _ =>
    (repeat' split)
    any_goals exact h
    refine State.Rests.add (State.Rests.setBogie h g ?_) _
    exact ⟨by rw [hs]; rfl, rfl, fun _ he => he⟩
  · exact h

theorem pumpOne (a : Agent) (id : Nat) : s.Rests (t.pumpOne a id) := by
  simp only [State.pumpOne]
  split
  · exact h
  · split
    · exact h
    · split
      case h_1 =>
        split
        next e =>
          refine State.Rests.setTransit ?_ ..
          simp only [State.enqueueMatrix] at e
          split at e
          · cases e
          · cases e; exact h.units ⟨rfl, rfl, rfl⟩
        · exact h
      case h_2 => exact (h.setTransit ..).reply ..
      case h_3 =>
        split
        · exact h
        · exact (h.setTransit ..).reply ..
      case h_4 =>
        split
        · refine State.Rests.checkBwait (State.Rests.setBogie (h.setTransit ..) _ ?_) _
          exact ⟨map_bare_of_await fun f => by split <;> rfl, rfl, fun _ he => he⟩
        · exact h.setTransit ..
      case h_5 => exact (h.setTransit ..).add _
      case h_6 =>
        split
        · exact h
        · exact (h.setTransit ..).sendOp ..
      case h_7 => exact (h.setTransit ..).sendOp ..

theorem pump (a : Agent) : s.Rests (t.pump a) := h.foldl _ (fun _ _ hu => hu.pumpOne ..) _

end State.Rests

end Sys2Proof.Machine
end

section

/-! # Placing goes on (O52, O53)

`State.Places s t`: what waited in s still does, and the contexts and the bogies are those of s. One rule for each function of the model by which what
waited for a context goes on (R106, R107, R129, R324). -/

namespace Sys2Proof.Machine

open Sys2Proof.Safety

/-- What waited in s waits in t, whose contexts and bogies are those of s. -/
structure State.Places (s t : State) : Prop extends s.Persists t where
  ctxs : t.ctxs = s.ctxs
  bogies : t.bogies = s.bogies

theorem State.Places.refl (s : State) : s.Places s := ⟨.refl s, rfl, rfl⟩

namespace State.Places

variable {s t : State} (h : s.Places t)
include h

theorem trans {u : State} (k : t.Places u) : s.Places u := ⟨h.toPersists.trans k.toPersists, k.ctxs.trans h.ctxs, k.bogies.trans h.bogies⟩

/-- A change that leaves all of that as it is. -/
theorem frame {u : State} (ha : u.agenda = t.agenda) (hl : u.links = t.links) (hi : u.ingress = t.ingress) (hc : u.ctxs = t.ctxs)
    (hb : u.bogies = t.bogies) : s.Places u := h.trans ⟨.of_eq ha hl hi, hc, hb⟩

theorem ships {u : State} (k : t.Ships u) : s.Places u := h.trans ⟨k.toPersists, k.ctxs, k.bogies⟩

theorem ctx (c : Nat) : t.ctx c = s.ctx c := by rw [State.ctx, h.ctxs]; rfl

theorem bogie (g : Nat) : t.bogie g = s.bogie g := by rw [State.bogie, h.bogies]; rfl

theorem setDie (d : Nat) (x : Die) : s.Places (t.setDie d x) := h.frame rfl rfl rfl rfl rfl

theorem setHart (d k : Nat) (x : Hart) : s.Places (t.setHart d k x) := h.frame rfl rfl rfl rfl rfl

theorem add (l : List Happening) : s.Places (t.add l) := h.ships (t.ships_add l)

theorem foldl {α : Type} (f : State → α → State) (hf : ∀ (u : State) a, s.Places u → s.Places (f u a)) (l : List α) : s.Places (l.foldl f t) :=
  List.foldlRecOn (motive := fun u : State => s.Places u) l f h fun u hu a _ => hf u a hu

/-! ### The dispatchers (R107, R127, R129, R324) -/

theorem putPending (d : Nat) (p : Pending) : s.Places (t.putPending d p) := by
  simp only [State.putPending]
  split <;> exact h.setDie ..

theorem sendOn (d die : Nat) (g : Option Nat) (p : Pending) : s.Places (t.sendOn d die g p) :=
  (h.putPending ..).ships (State.ships_post ..)

theorem joinBogie (d g : Nat) (p : Pending) : s.Places (t.joinBogie d g p) := (h.putPending ..).add _

theorem enterFifo (d g : Nat) (p : Pending) : s.Places (t.enterFifo d g p) := by
  simp only [State.enterFifo]
  split
  · split
    · split
      · exact h.joinBogie ..
      · exact h.sendOn ..
    · exact h.putPending ..
  · exact h.joinBogie ..

theorem tryPlace {d : Nat} {p : Pending} {u : State} (e : t.tryPlace d p = some u) : s.Places u := by
  simp only [State.tryPlace] at e
  split at e <;> split at e <;> cases e
  · exact h.sendOn ..
  · exact (h.setDie ..).enterFifo ..

theorem endClosed (g n : Nat) : s.Places (t.endClosed g n) := h.foldl _ (fun _ _ hu => hu.enterFifo ..) _

theorem rejoin (d g : Nat) (p : Pending) : s.Places (t.rejoin d g p) := by
  simp only [State.rejoin]
  split
  · exact h.joinBogie ..
  · exact h.sendOn ..

omit h in
theorem retryWaiting (fuel : Nat) {t : State} (h : s.Places t) (d ctx : Nat) : s.Places (t.retryWaiting d ctx fuel) := by
  induction fuel generalizing t with
  | zero => exact h
  | succ n ih =>
    simp only [State.retryWaiting]
    split
    · exact h
    · split
      · exact h
      · split
        next e => exact ih (h.tryPlace e)
        · exact h

theorem resumePlacing (ctx : Nat) : s.Places (t.resumePlacing ctx) :=
  h.foldl _ (fun _ _ hu => retryWaiting _ ((hu.setDie ..).foldl _ (fun _ _ hv => hv.endClosed ..) _) ..) _

/-! ### What waited for the context (R106, R293, R312, R335, R411) -/

theorem endHolds (ctx : Nat) : s.Places (t.endHolds ctx) := h.add _

theorem joinFifo (c : Nat) : s.Places (t.joinFifo c) := by
  rw [State.joinFifo]
  refine State.Places.add ?_ _
  exact h.frame rfl rfl rfl rfl rfl

theorem resumeWork (c : Nat) : s.Places (t.resumeWork c) := (((h.resumePlacing c).endHolds c).joinFifo c).add _

theorem answerHeld (c : Nat) : s.Places (t.answerHeld c) := by
  rw [State.answerHeld]
  split
  · exact h
  · refine h.foldl _ (fun u e hu => ?_) _
    dsimp only
    split
    · split
      · exact hu
      · exact (hu.setHart ..).ships (State.ships_answer ..)
    · exact hu

end State.Places

/-! ### What comes of it -/

section

variable (s : State) (c : Nat)

/-- The holds of the context end on every die. -/
theorem State.underWay_endHolds {d : Nat} (hd : d < 8) : UnderWay (s.endHolds c) .holdEnd fun b => b.d = d ∧ b.c = c :=
  State.underWay_add (List.mem_map_of_mem (List.mem_range.2 hd)) ⟨rfl, rfl⟩

theorem State.underWay_joinFifo : UnderWay (s.joinFifo c) .mapperBind fun _ => True := by
  rw [State.joinFifo]
  exact State.underWay_add (List.mem_singleton_self _) trivial

theorem State.underWay_resumeWork :
    (∀ d < 8, UnderWay (s.resumeWork c) .holdEnd fun b => b.d = d ∧ b.c = c) ∧ UnderWay (s.resumeWork c) .mapperBind fun _ => True := by
  refine ⟨fun d hd => ?_, ?_⟩
  · exact UnderWay.mono (((State.Places.refl _).joinFifo c).add _).toPersists (State.underWay_endHolds _ c hd)
  · exact UnderWay.mono (State.persists_add ..) (State.underWay_joinFifo _ c)

/-- The settings that waited change what serves, and no more of the contexts (R429). -/
theorem State.takeServers_ctx : ∃ w g, (s.takeServers c).ctx c = { s.ctx c with servers := w, serving := g } := by
  simp only [State.takeServers]
  split
  · split
    · exact ⟨_, _, State.setCtx_same ..⟩
    · exact ⟨_, _, State.setCtx_same ..⟩
  · exact ⟨_, _, State.setCtx_same ..⟩

end

end Sys2Proof.Machine
end

section

/-! # The commands of a context (O52) -/

namespace Sys2Proof.Machine

open Sys2Proof.Safety

/-! ### Commands that are refused (R106) -/

section

variable {s : State} {c : Nat}

theorem create_refused (h : (s.ctx c).busy = true ∨ (s.ctx c).state ≠ 0 ∨ s.sys.locked = false) : create c s = s.refuse c :=
  if_pos (by simpa using h)

theorem arm_refused (h : (s.ctx c).busy = true ∨ (s.ctx c).state ≠ 1) : arm c false s = s.refuse c := if_pos h

theorem activate_refused (h : (s.ctx c).busy = true ∨ (s.ctx c).state ≠ 2) : activate c s = s.refuse c := if_pos h

theorem quiesce_refused (h : (s.ctx c).busy = true ∨ (s.ctx c).state ≠ 3) : quiesce c s = s.refuse c := if_pos h

theorem thaw_refused (h : (s.ctx c).busy = true ∨ (s.ctx c).state ≠ 5) : thaw c false s = s.refuse c := if_pos h

theorem destroy_refused (h : (s.ctx c).busy = true ∨ ((s.ctx c).state ≠ 1 ∧ (s.ctx c).state ≠ 2 ∧ (s.ctx c).state ≠ 5)) :
    destroy c s = s.refuse c := if_pos h

/-! ### CREATE and ARM (R98-R103, R106) -/

theorem create_free (idle : (s.ctx c).busy = false) (free : (s.ctx c).state = 0) (locked : s.sys.locked = true) :
    create c s = s.setCtx c { state := 1 } := if_neg (by simp [idle, free, locked])

/-- ARM is carried out: when it is written, and when what it waited for has come. -/
theorem arm_now {again : Bool} (h : (s.ctx c).busy = false ∧ again = false ∨ (s.ctx c).busy = true ∧ (s.ctx c).command = 2 ∧ again = true)
    (created : (s.ctx c).state = 1) : arm c again s = armNow c s := by
  rcases h with ⟨idle, rfl⟩ | ⟨busy, command, rfl⟩
  · simp [arm, idle, created]
  · simp [arm, Ctx.retries, busy, command, created]

/-- An attempt of ARM that comes when none is in progress any more changes nothing. -/
theorem arm_again_idle (h : ¬((s.ctx c).busy = true ∧ (s.ctx c).command = 2 ∧ (s.ctx c).state = 1)) : arm c true s = s := by
  simp only [arm, if_true, Ctx.retries]
  exact if_neg (by simpa [and_assoc] using h)

theorem armNow_coaches (h : (s.ctx c).coaches = 0 ∨ s.presented (s.ctx c) = false) : armNow c s = s.done c 3 := if_pos (by simpa using h)

/-- The coaches of the context's set are presented by their dies (R102). -/
structure Coached (s : State) (c : Nat) : Prop where
  some' : (s.ctx c).coaches ≠ 0
  presented : s.presented (s.ctx c) = true

/-- Whose check of the set passes. -/
theorem Coached.passes (k : Coached s c) : ¬((s.ctx c).coaches = 0 ∨ (!s.presented (s.ctx c)) = true) := by
  rintro (none' | absent)
  · exact k.some' none'
  · rw [k.presented] at absent; cases absent

theorem armNow_conflict (k : Coached s c) (h : s.coachConflict c = true) : armNow c s = s.done c 4 := by
  rw [armNow, if_neg k.passes, if_pos h]

theorem armNow_small (k : Coached s c) (free : s.coachConflict c = false) (h : (s.ctx c).saveSize.toNat < 5242880 * (s.ctx c).coachList.length) :
    armNow c s = s.done c 5 := by
  rw [armNow, if_neg k.passes, if_neg (by rw [free]; decide), if_pos h]

/-- The coaches are the context's alone, and its save area holds their slots (R102, R103). -/
structure Housed (s : State) (c : Nat) : Prop extends Coached s c where
  free : s.coachConflict c = false
  room : 5242880 * (s.ctx c).coachList.length ≤ (s.ctx c).saveSize.toNat

theorem armNow_band (k : Housed s c) (h : (s.ctx c).bandHigh < (s.ctx c).bandLow) : armNow c s = s.done c 3 := by
  rw [armNow, if_neg k.passes, if_neg (by rw [k.free]; decide), if_neg (Nat.not_lt.2 k.room), if_pos h]

theorem armNow_waits (k : Housed s c) (band : (s.ctx c).bandLow ≤ (s.ctx c).bandHigh) {d : Option Nat} {va : Nat}
    (h : s.readRange c (s.ctx c).handlerBase.toNat 64 = .wait d va) : armNow c s = s.retryCommand c 2 d va := by
  rw [armNow, if_neg k.passes, if_neg (by rw [k.free]; decide), if_neg (Nat.not_lt.2 k.room), if_neg (Nat.not_lt.2 band), h]

theorem armNow_loads (k : Housed s c) (band : (s.ctx c).bandLow ≤ (s.ctx c).bandHigh) {hb cb : List Byte} {h t : Tab Word}
    (handlers : s.readRange c (s.ctx c).handlerBase.toNat 64 = .ok hb) (hh : handlerTable hb = some h)
    (ceilings : s.readRange c (s.ctx c).ceilBase.toNat 512 = .ok cb) (ht : (s.ctx c).ceilTable cb = .ok t) :
    armNow c s = s.setCtx c { s.ctx c with state := 2, status := 0, busy := false, handlers := h, ceilings := t, seqs := [], outstanding := []
                                           eventq := [], triggers := [], sums := [], handlerNew := false } := by
  rw [armNow, if_neg k.passes, if_neg (by rw [k.free]; decide), if_neg (Nat.not_lt.2 k.room), if_neg (Nat.not_lt.2 band), handlers]
  simp only [hh, ceilings, ht]

/-- A command that meets a page under repair is in progress, and comes again. -/
theorem retryCommand_ctx (s : State) (c code : Nat) (d : Option Nat) (va : Nat) :
    (s.retryCommand c code d va).ctx c = { s.ctx c with busy := true, command := code } := by
  have parked := (State.Rests.refl (s.setCtx c { s.ctx c with busy := true, command := code })).parkRead d .firmware c va
  exact (parked.toStands.ctx c).trans (State.setCtx_same ..)

theorem retryCommand_comes (s : State) (c code : Nat) (d : Option Nat) (va : Nat) :
    UnderWay (s.retryCommand c code d va) (commandStep code) fun b => b.c = c ∧ b.n = code :=
  State.underWay_add (x := { ev := commandStep code, arg := { c := c, n := code }, due := _ }) (List.mem_singleton_self _) ⟨rfl, rfl⟩

/-! ### ACTIVATE and QUIESCE (R106, R107) -/

theorem activate_armed (idle : (s.ctx c).busy = false) (armed : (s.ctx c).state = 2) :
    activate c s = ((s.setCtx c { s.ctx c with state := 3, status := 0 }).takeServers c).resumeWork c := if_neg (by simp [idle, armed])

theorem activate_ctx (idle : (s.ctx c).busy = false) (armed : (s.ctx c).state = 2) :
    ((activate c s).ctx c).state = 3 ∧ ((activate c s).ctx c).status = 0 := by
  obtain ⟨w, g, e⟩ := State.takeServers_ctx (s.setCtx c { s.ctx c with state := 3, status := 0 }) c
  rw [activate_armed idle armed, ((State.Places.refl _).resumeWork c).ctx, e, State.setCtx_same]
  exact ⟨rfl, rfl⟩

theorem quiesce_active (idle : (s.ctx c).busy = false) (active : (s.ctx c).state = 3) :
    quiesce c s = (s.setCtx c { s.ctx c with state := 4, busy := true, command := 4 }).add
      [{ ev := .quiesceDrainDone, arg := { c := c }, due := s.clock + 1 }] := if_neg (by simp [idle, active])

theorem quiesceDrainDone_idle (draining : (s.ctx c).state = 4) (going : (s.ctx c).freezing = false) (h : s.outstandingOf c = false) :
    (quiesceDrainDone c s).ctx c = { s.ctx c with state := 2, status := 0, busy := false } := by
  simp [quiesceDrainDone, draining, going, h, State.done]

theorem quiesceDrainDone_waits (draining : (s.ctx c).state = 4) (going : (s.ctx c).freezing = false) (h : s.outstandingOf c = true) :
    quiesceDrainDone c s = s.add [{ ev := .quiesceDrainDone, arg := { c := c }, due := s.clock + 1 }] := by
  simp [quiesceDrainDone, draining, going, h]

end

/-! ### The block's doublewords (R96) -/

theorem mergeWord_whole (w v : Word) : mergeWord w 0 8 v = v := by
  have all : BitVec.ofNat 64 ((2 ^ (8 * 8) - 1) * 2 ^ (8 * 0)) = BitVec.allOnes 64 := by decide
  rw [mergeWord, all, BitVec.not_allOnes, BitVec.and_zero, BitVec.zero_or, BitVec.and_allOnes]
  exact BitVec.shiftLeft_zero v

/-- Doubleword k of a coach set. -/
def coachWord (a : BitVec 192) (k : Nat) : Word := a.extractLsb' (64 * k) 64

/-- The set with doubleword k written, as `Ctx.writeBlock` puts it together. -/
def putCoachWord (a : BitVec 192) (k : Nat) (v : Word) : BitVec 192 :=
  match k with
  | 0 => a.extractLsb' 64 128 ++ v
  | 1 => a.extractLsb' 128 64 ++ v ++ a.extractLsb' 0 64
  | _ => v ++ a.extractLsb' 0 128

theorem getLsbD_putCoachWord (a : BitVec 192) {k : Nat} (hk : k < 3) (v : Word) {i : Nat} (hi : i < 192) :
    (putCoachWord a k v).getLsbD i = if i / 64 = k then v.getLsbD (i % 64) else a.getLsbD i := by
  interval_cases k
  · refine (BitVec.getLsbD_append (x := a.extractLsb' 64 128) (y := v)).trans ?_
    rcases lt_or_ge i 64 with h | h
    · simp [h, Nat.div_eq_of_lt h, Nat.mod_eq_of_lt h]
    · simp [Nat.not_lt.2 h, show i / 64 ≠ 0 by omega, show i - 64 < 128 by omega, show 64 + (i - 64) = i by omega]
  · refine (BitVec.getLsbD_append (x := a.extractLsb' 128 64 ++ v) (y := a.extractLsb' 0 64)).trans ?_
    rcases lt_or_ge i 64 with h | h
    · simp [h, show i / 64 ≠ 1 by omega]
    · rw [if_neg (Nat.not_lt.2 h), BitVec.getLsbD_append]
      rcases lt_or_ge i 128 with g | g
      · simp [show i / 64 = 1 by omega, show i - 64 < 64 by omega, show i % 64 = i - 64 by omega]
      · simp [show i / 64 ≠ 1 by omega, show ¬ i - 64 < 64 by omega, show i - 64 - 64 < 64 by omega, show 128 + (i - 64 - 64) = i by omega]
  · refine (BitVec.getLsbD_append (x := v) (y := a.extractLsb' 0 128)).trans ?_
    rcases lt_or_ge i 128 with h | h
    · simp [h, show i / 64 ≠ 2 by omega]
    · simp [Nat.not_lt.2 h, show i / 64 = 2 by omega, show i % 64 = i - 128 by omega]

theorem coachWord_putCoachWord (a : BitVec 192) {k : Nat} (hk : k < 3) (v : Word) {j : Nat} (hj : j < 3) :
    coachWord (putCoachWord a k v) j = if j = k then v else coachWord a j := by
  refine BitVec.eq_of_getLsbD_eq fun i hi => ?_
  simp only [coachWord, BitVec.getLsbD_extractLsb', hi, decide_true, Bool.true_and]
  rw [getLsbD_putCoachWord a hk v (by omega), Nat.mul_add_div (by decide), Nat.div_eq_of_lt hi, Nat.add_zero, Nat.mul_add_mod, Nat.mod_eq_of_lt hi]
  split
  · rfl
  · simp [hi]

/-- The field of doubleword i set, of those from 6 on, as `Ctx.writeBlock` sets it where it takes the write. -/
def Ctx.setBlock (i : Nat) (v : Word) (x : Ctx) : Ctx :=
  match i with
  | 6 => { x with ceilBase := v }
  | 7 => { x with handlerBase := v, handlerNew := x.handlerNew || x.state == 5 }
  | 8 => { x with kernelBase := v }
  | 9 => { x with consistBase := v }
  | 10 => { x with ptRoot := v }
  | 11 => { x with saveBase := v }
  | 12 => { x with saveSize := v }
  | _ => { x with coaches := putCoachWord x.coaches (i - 13) v }

theorem Ctx.writeBlock_eq (x : Ctx) {i : Nat} (low : 6 ≤ i) (high : i ≤ 15) (v : Word) :
    x.writeBlock i v = x.writeField (v != x.blockWord i) (decide (i = 7)) (Ctx.setBlock i v) := by
  interval_cases i <;> rfl

theorem Ctx.blockWord_setCoaches (x : Ctx) {k : Nat} (hk : k < 3) (v : Word) (j : Nat) :
    ({ x with coaches := putCoachWord x.coaches k v } : Ctx).blockWord j = if j = 13 + k then v else x.blockWord j := by
  have low := coachWord_putCoachWord x.coaches hk v (j := 0) (by decide)
  have mid := coachWord_putCoachWord x.coaches hk v (j := 1) (by decide)
  have high := coachWord_putCoachWord x.coaches hk v (j := 2) (by decide)
  simp only [coachWord] at low mid high
  unfold Ctx.blockWord
  interval_cases k <;> split <;> simp_all

theorem Ctx.blockWord_setBlock (x : Ctx) {i : Nat} (low : 6 ≤ i) (high : i ≤ 15) (v : Word) (j : Nat) :
    (x.setBlock i v).blockWord j = if j = i then v else x.blockWord j := by
  rcases lt_or_ge i 13 with field | set
  · unfold Ctx.setBlock Ctx.blockWord
    interval_cases i <;> split <;> simp_all
  · obtain ⟨k, rfl⟩ := Nat.exists_eq_add_of_le set
    have small : k < 3 := by omega
    have put := x.blockWord_setCoaches small v j
    interval_cases k <;> exact put

/-- A field that takes a write has its value after it, and no other field of the block changes. -/
theorem Ctx.blockWord_writeField {x : Ctx} (created : x.state = 1) {i : Nat} {v : Word} {b : Bool} {f : Ctx → Ctx}
    (put : ∀ j, (f x).blockWord j = if j = i then v else x.blockWord j) (j : Nat) :
    (x.writeField (v != x.blockWord i) b f).blockWord j = if j = i then v else x.blockWord j := by
  rcases eq_or_ne v (x.blockWord i) with same | other
  · rw [Ctx.writeField, if_pos (by simp [same])]
    split
    next here => rw [here, same]
    · rfl
  · rw [Ctx.writeField, if_neg (by simp [other]), if_pos (.inl created)]
    exact put j

theorem Ctx.blockWord_writeBlock {x : Ctx} (created : x.state = 1) {i : Nat} (low : 6 ≤ i) (high : i ≤ 15) (v : Word) (j : Nat) :
    (x.writeBlock i v).blockWord j = if j = i then v else x.blockWord j := by
  rw [Ctx.writeBlock_eq x low high]
  exact Ctx.blockWord_writeField created (x.blockWord_setBlock low high v) j

/-- A field outside Created: the status is WRONG_STATE (R96). -/
theorem Ctx.writeBlock_refused {x : Ctx} (state : x.state ≠ 1) {i : Nat} (low : 6 ≤ i) (high : i ≤ 15) (only : i ≠ 7) {v : Word}
    (other : x.blockWord i ≠ v) : x.writeBlock i v = { x with status := 2 } := by
  rw [Ctx.writeBlock_eq x low high, Ctx.writeField, if_neg (by simpa using other.symm), if_neg (by simp [state, only])]

/-! ### Stores to the block (R96-R98) -/

/-- A doubleword stored to a field of the block. -/
theorem contextFieldWrite_field (s : State) {c i : Nat} (hc : c ≤ 192) (low : 6 ≤ i) (high : i ≤ 15) (v : Word) :
    contextFieldWrite c (8 * i) 8 v s = s.setCtx c ((s.ctx c).writeBlock i v) := by
  have word : 8 * i / 8 = i := by omega
  have start : 8 * i % 8 = 0 := by omega
  rw [contextFieldWrite, if_neg (by omega), word, start]
  simp only [mergeWord_whole, show i ≠ 0 by omega, if_false, if_true]

/-- A bit of a doubleword of which byte 4, the command code, is written. -/
theorem getLsbD_mergeWord_code (w v : Word) {i : Nat} (hi : i < 64) :
    (mergeWord w 4 1 v).getLsbD i = if 32 ≤ i ∧ i < 40 then v.getLsbD (i - 32) else w.getLsbD i := by
  have mask : ∀ i < 64, (BitVec.ofNat 64 ((2 ^ (8 * 1) - 1) * 2 ^ (8 * 4))).getLsbD i = decide (32 ≤ i ∧ i < 40) := by decide
  simp only [mergeWord, BitVec.getLsbD_or, BitVec.getLsbD_and, BitVec.getLsbD_not, mask i hi, BitVec.getLsbD_shiftLeft, hi]
  split
  next code => simp [code]
  next other => simp [other]

/-- A field of bits is that of another place, or of another value, with the same bits. -/
theorem bits_congr {m n : Nat} {x : BitVec m} {y : BitVec n} {hi lo hi' lo' : Nat} (size : hi + 1 - lo = hi' + 1 - lo')
    (h : ∀ k < hi + 1 - lo, x.getLsbD (lo + k) = y.getLsbD (lo' + k)) : bits x hi lo = bits y hi' lo' := by
  rw [bits, bits, ← size]
  refine Nat.eq_of_testBit_eq fun k => ?_
  simp only [Nat.testBit_mod_two_pow, Nat.testBit_div_two_pow]
  rcases lt_or_ge k (hi + 1 - lo) with small | large
  · rw [Nat.add_comm k, Nat.add_comm k]; exact congrArg _ (h k small)
  · simp [Nat.not_lt.2 large]

section

variable {s : State} {c : Nat}

theorem Ctx.bands_blockWord {x : Ctx} (state : x.state < 8) (low : x.bandLow < 16) (high : x.bandHigh < 16) :
    bits (x.blockWord 0) 11 8 = x.bandLow ∧ bits (x.blockWord 0) 15 12 = x.bandHigh := by
  simp only [bits, Ctx.blockWord, BitVec.toNat_ofNat]
  cases x.busy
  · constructor <;> simp only [Bool.false_eq_true, if_false] <;> omega
  · constructor <;> simp only [if_true] <;> omega

/-- The byte of a command code stored: the command is carried out, and no field of the block changes. -/
theorem contextFieldWrite_code (hc : c ≤ 192) (state : (s.ctx c).state < 8) (low : (s.ctx c).bandLow < 16) (high : (s.ctx c).bandHigh < 16)
    {v : Word} (code : v.toNat % 256 ≠ 0) : contextFieldWrite c 4 1 v s = runCommand (v.toNat % 256) c (s.setCtx c (s.ctx c)) := by
  obtain ⟨lo, hi⟩ := Ctx.bands_blockWord state low high
  have kept : ∀ a b, b < 32 → bits (mergeWord ((s.ctx c).blockWord 0) 4 1 v) b a = bits ((s.ctx c).blockWord 0) b a := fun a b hb =>
    bits_congr rfl fun k hk => by rw [getLsbD_mergeWord_code _ _ (by omega), if_neg (by omega)]
  have new : bits (mergeWord ((s.ctx c).blockWord 0) 4 1 v) 39 32 = v.toNat % 256 := by
    have : bits v 7 0 = v.toNat % 256 := by rw [bits, Nat.pow_zero, Nat.div_one]; rfl
    rw [← this]
    exact bits_congr rfl fun k hk => by rw [getLsbD_mergeWord_code _ _ (by omega), if_pos (by omega)]; congr 1; omega
  have bands : (s.ctx c).writeBlock 0 (mergeWord ((s.ctx c).blockWord 0) 4 1 v) = s.ctx c := by
    rw [Ctx.writeBlock, kept 8 11 (by decide), kept 12 15 (by decide), lo, hi, Ctx.writeBand, if_pos ⟨rfl, rfl⟩]
  rw [contextFieldWrite, if_neg (by omega)]
  simp only [Nat.reduceDiv, Nat.reduceMod, bands, new, if_true, code, if_false]

end

/-- ARM in Created, by its checks in order. -/
theorem does_arm {s : State} (now : arm s.arg.c (s.arg.n == 2) s = armNow s.arg.c s) {p : State → Prop} (h : p (armNow s.arg.c s)) :
    Does .arm s p := ⟨_, rfl, now ▸ h⟩

/-- Settles O52: the commands refused first, then each command in its states, then the stores to the block. -/
theorem contextCommands : Obligations.ContextCommands := by
  unfold Obligations.ContextCommands
  intro s c x wrong ends written goesOn
  have first : written → (s.arg.n == 2) = false := fun w => by simpa [written] using w
  refine ⟨fun h => ⟨_, rfl, create_refused h⟩, fun w h => ⟨_, rfl, ?armRefused⟩, fun h => ⟨_, rfl, activate_refused h⟩,
    fun h => ⟨_, rfl, quiesce_refused h⟩, fun w h => ⟨_, rfl, ?thawRefused⟩, fun h => ⟨_, rfl, destroy_refused h⟩, ⟨_, rfl, rfl⟩,
    fun idle free locked => ⟨_, rfl, create_free idle free locked⟩,
    fun w h => ⟨_, rfl, ?armStale⟩, fun h created => ?armNow, fun idle armed => ?activate, fun idle active => ?quiesce,
    fun draining going => ⟨fun h => ?drained, fun h => ?draining⟩,
    fun hc whole i low high off => ⟨fun created => ?fieldTaken, fun state only other => ?fieldRefused⟩,
    fun hc state low high off one code => ⟨_, rfl, ?code⟩⟩
  case armRefused => rw [first w]; exact arm_refused h
  case thawRefused => rw [show (s.arg.n == 6) = false by simpa using w]; exact thaw_refused h
  case armStale =>
    have again : s.arg.n = 2 := not_not.1 w
    rw [show (s.arg.n == 2) = true by simpa using again]
    exact arm_again_idle fun ⟨busy, command, created⟩ => h ⟨⟨busy, command, again⟩, created⟩
  case armNow =>
    have now : arm c (s.arg.n == 2) s = armNow c s := arm_now (h.imp (fun ⟨idle, w⟩ => ⟨idle, first w⟩) fun ⟨busy, command, again⟩ =>
      ⟨busy, command, by simpa using again⟩) created
    refine ⟨fun bad => does_arm now (armNow_coaches bad), fun some' presented => ?_⟩
    have set : Coached s c := ⟨some', presented⟩
    refine ⟨fun held => does_arm now (armNow_conflict set held), fun free small => does_arm now (armNow_small set free small), fun free room => ?_⟩
    have housed : Housed s c := { set with free := free, room := room }
    refine ⟨fun empty => does_arm now (armNow_band housed empty), fun d va band waits => does_arm now ?_,
      fun hb cb h tb band handlers hh ceilings ht => does_arm now (armNow_loads housed band handlers hh ceilings ht)⟩
    rw [armNow_waits housed band waits]
    exact ⟨retryCommand_ctx .., retryCommand_comes ..⟩
  case activate =>
    obtain ⟨state, status⟩ := activate_ctx idle armed
    refine ⟨_, rfl, state, status, ?_⟩
    rw [activate_armed idle armed]
    exact State.underWay_resumeWork ..
  case quiesce =>
    refine ⟨_, rfl, ?_⟩
    rw [quiesce_active idle active]
    exact ⟨State.setCtx_same .., State.underWay_add (List.mem_singleton_self _) rfl⟩
  case drained => exact ⟨_, rfl, quiesceDrainDone_idle draining going h⟩
  case draining =>
    refine ⟨_, rfl, ?_⟩
    rw [quiesceDrainDone_waits draining going h]
    exact ⟨rfl, State.underWay_add (List.mem_singleton_self _) rfl⟩
  case fieldTaken =>
    refine ⟨_, rfl, ?_⟩
    rw [off, whole, contextFieldWrite_field s hc low high]
    dsimp only
    rw [State.setCtx_same]
    exact ⟨fun j other => by rw [Ctx.blockWord_writeBlock created low high, if_neg other], by rw [Ctx.blockWord_writeBlock created low high, if_pos rfl]⟩
  case fieldRefused =>
    refine ⟨_, rfl, ?_⟩
    rw [off, whole, contextFieldWrite_field s hc low high]
    dsimp only
    rw [State.setCtx_same]
    exact Ctx.writeBlock_refused state low high only other
  case code => rw [off, one]; exact contextFieldWrite_code hc state low high code

end Sys2Proof.Machine
end

section

/-! # FREEZE, THAW, DESTROY, function-level reset and the scrub (O53)

What ends a stack or restores it is a fold over bogies, frames or coaches: each has its lemma, by induction on the list; what follows it in the step
leaves contexts, stacks and stores as they are (`State.Rests`, `State.Places`). -/

namespace Sys2Proof.Machine

open Sys2Proof.Safety

section

variable {s : State} {c : Nat}

/-! ### FREEZE (R104, R106) -/

theorem freeze_armed (idle : (s.ctx c).busy = false) (armed : (s.ctx c).state = 2) :
    freeze c s = s.setCtx c { s.ctx c with state := 5, status := 0 } := by
  simp [freeze, idle, armed]

theorem freeze_running (idle : (s.ctx c).busy = false) (running : (s.ctx c).state = 3 ∨ (s.ctx c).state = 4) :
    freeze c s = (s.setCtx c { s.ctx c with busy := true, command := 5 }).add [{ ev := .freezeComplete, arg := { c := c } }] := by
  have going : (s.ctx c).freezing = false := by simp [Ctx.freezing, idle]
  rw [freeze, if_neg (by simp [idle]), if_neg (by omega), if_pos running, State.beginFreeze, if_pos ⟨running, by simp [going]⟩]

theorem freezeComplete_waits (freezing : (s.ctx c).freezing = true)
    (h : s.issued c = true ∨ s.queued c s.packetsLeft = true ∨ ∃ g ∈ s.ctxBogies c, (s.bogie g).still = false) :
    freezeComplete c s = s.add [{ ev := .freezeComplete, arg := { c := c }, due := s.clock + 1 }] := by
  rw [freezeComplete, if_neg (by simp [freezing]), if_pos (by simpa using h)]

/-! ### The stacks saved (R103, R104) -/

/-- A bogie of the context saved, where it holds anything. -/
def saveHeld (c : Nat) (s : State) (g : Nat) : State :=
  if (s.bogie g).stack.isEmpty ∧ (s.fifoOf g).isEmpty ∧ ((s.bogie g).scale.isEmpty ∨ (Tab.find (s.ctx c).saved g).isSome) then s
  else s.saveBogie g c (s.bogie g).streak

theorem freezeComplete_saves (freezing : (s.ctx c).freezing = true) (issued : s.issued c = false) (queued : s.queued c s.packetsLeft = false)
    (still : ∀ g ∈ s.ctxBogies c, (s.bogie g).still = true) :
    freezeComplete c s = (((s.ctxBogies c).foldl (saveHeld c) s).setCtx c { ((s.ctxBogies c).foldl (saveHeld c) s).ctx c with state := 5 }).done c 0 := by
  have quiet : (s.ctxBogies c).any (fun g => !(s.bogie g).still) = false := by
    simp only [List.any_eq_false, Bool.not_eq_true', Bool.not_eq_false]
    exact still
  rw [freezeComplete, if_neg (by simp [freezing]), if_neg (by simp [issued, queued, quiet])]
  rfl

/-- A slot written changes memory alone. -/
theorem State.writeSlot_rest (s : State) (ctx g seed : Nat) : (s.writeSlot ctx g seed).bogies = s.bogies ∧ (s.writeSlot ctx g seed).ctxs = s.ctxs := by
  rw [State.writeSlot]
  generalize s.slotSpans ctx g = l
  refine List.foldlRecOn (motive := fun t : State => t.bogies = s.bogies ∧ t.ctxs = s.ctxs) l _ ⟨rfl, rfl⟩ fun t h e _ => ?_
  rwa [State.writeBytes_bogies, State.writeBytes_ctxs]

/-- What a save slot keeps of a bogie. -/
def State.savedStack (s : State) (g streak : Nat) : Saved :=
  let b := s.bogie g
  { g := g, latch := b.ckpt.map fun _ => (b.cycle, b.cwp, b.pfLatch), frames := b.stack.map fun f => s.saveFrame g f
    scale := b.scale, fifo := s.fifoOf g, streak := streak, seed := s.freeCtr }

theorem State.saveBogie_ctx (s : State) (g c streak : Nat) :
    (s.saveBogie g c streak).ctx c = { s.ctx c with saved := Tab.put (s.ctx c).saved g (s.savedStack g streak) } := by
  simp only [State.saveBogie, State.ctx, (State.writeSlot_rest ..).2, State.setCtx, Tab.get_put_same]
  rfl

theorem State.saveBogie_bogie_same (s : State) (g c streak : Nat) : ((s.saveBogie g c streak).bogie g).stack = [] := by
  simp only [State.saveBogie, State.bogie, (State.writeSlot_rest ..).1, State.setCtx, State.setBogie, Tab.get_put_same]

theorem State.saveBogie_bogie_other (s : State) {g h : Nat} (c streak : Nat) (other : g ≠ h) : (s.saveBogie g c streak).bogie h = s.bogie h := by
  simp only [State.saveBogie, State.bogie, (State.writeSlot_rest ..).1, State.setCtx, State.setBogie, Tab.get_put_other _ _ _ _ _ other]
  rfl

theorem State.frames_savedStack (s : State) (g streak : Nat) : (s.savedStack g streak).frames.map (·.frame) = (s.bogie g).stack := by
  rw [State.savedStack, List.map_map]
  exact List.map_id _

/-- A slot keeps the stack of a bogie: its frames, in order, and the scale file. -/
def Keeps (x : Ctx) (g : Nat) (b : Bogie) : Prop := ∃ v, Tab.find x.saved g = some v ∧ v.frames.map (·.frame) = b.stack ∧ v.scale = b.scale

theorem saveHeld_stack (c : Nat) (s : State) (g : Nat) : ((saveHeld c s g).bogie g).stack = [] := by
  rw [saveHeld]
  split
  next none' => exact List.isEmpty_iff.1 none'.1
  · exact State.saveBogie_bogie_same ..

theorem saveHeld_keeps (c : Nat) {s : State} {g : Nat} (some' : (s.bogie g).stack ≠ []) : Keeps ((saveHeld c s g).ctx c) g (s.bogie g) := by
  rw [saveHeld, if_neg fun none' => some' (List.isEmpty_iff.1 none'.1), State.saveBogie_ctx]
  exact ⟨_, find_put_same .., s.frames_savedStack .., rfl⟩

theorem saveHeld_bogie_other (c : Nat) (s : State) {g h : Nat} (other : g ≠ h) : (saveHeld c s g).bogie h = s.bogie h := by
  rw [saveHeld]
  split
  · rfl
  · exact s.saveBogie_bogie_other c _ other

theorem saveHeld_find_other (c : Nat) (s : State) {g h : Nat} (other : g ≠ h) :
    Tab.find ((saveHeld c s g).ctx c).saved h = Tab.find (s.ctx c).saved h := by
  rw [saveHeld]
  split
  · rfl
  · rw [State.saveBogie_ctx]; exact find_put_other _ _ other

/-- Bogies that are not saved stay as they are, and their slots. -/
theorem foldl_saveHeld_other (c : Nat) (l : List Nat) (s : State) {h : Nat} (other : h ∉ l) :
    (l.foldl (saveHeld c) s).bogie h = s.bogie h ∧ Tab.find ((l.foldl (saveHeld c) s).ctx c).saved h = Tab.find (s.ctx c).saved h := by
  induction l generalizing s with
  | nil => exact ⟨rfl, rfl⟩
  | cons g r ih =>
    have first : g ≠ h := fun e => other (e ▸ List.mem_cons_self)
    obtain ⟨bogie, find⟩ := ih (saveHeld c s g) fun mem => other (List.mem_cons_of_mem _ mem)
    exact ⟨bogie.trans (saveHeld_bogie_other c s first), find.trans (saveHeld_find_other c s first)⟩

/-- Each of several bogies is empty after they are saved, and its slot keeps the stack that it had. -/
theorem foldl_saveHeld (c : Nat) {l : List Nat} (once : l.Nodup) (s : State) {g : Nat} (mem : g ∈ l) :
    ((l.foldl (saveHeld c) s).bogie g).stack = [] ∧ ((s.bogie g).stack ≠ [] → Keeps ((l.foldl (saveHeld c) s).ctx c) g (s.bogie g)) := by
  induction l generalizing s with
  | nil => cases mem
  | cons h r ih =>
    obtain ⟨apart, rest⟩ := List.nodup_cons.1 once
    rcases eq_or_ne h g with rfl | other
    · obtain ⟨bogie, find⟩ := foldl_saveHeld_other c r (saveHeld c s h) apart
      refine ⟨by rw [List.foldl_cons, bogie, saveHeld_stack], fun some' => ?_⟩
      obtain ⟨v, at', kept⟩ := saveHeld_keeps c some'
      exact ⟨v, find.trans at', kept⟩
    · have := ih rest (saveHeld c s h) ((List.mem_cons.1 mem).resolve_left other.symm)
      rwa [saveHeld_bogie_other c s other] at this

theorem nodup_ctxBogies (s : State) (c : Nat) : (s.ctxBogies c).Nodup := by
  refine List.nodup_flatMap.2 ⟨fun k _ => ?_, ?_⟩
  · exact List.nodup_range.map fun a b h => Nat.add_left_cancel h
  · refine (List.nodup_range.filter _).imp fun {a b} apart => ?_
    intro g ha hb
    obtain ⟨i, hi, rfl⟩ := List.mem_map.1 ha
    obtain ⟨j, hj, e⟩ := List.mem_map.1 hb
    rw [List.mem_range] at hi hj
    omega

/-! ### THAW (R105, R106) -/

theorem thawNow_goes (presented : s.presented (s.ctx c) = true) (found : (s.ctx c).lost = false) (old : (s.ctx c).handlerNew = false) :
    thawNow c s = (((s.setCtx c { s.ctx c with state := 3, busy := true, command := 6, handlerNew := false }).takeServers c).joinFifo c).add
      [{ ev := .thawRestoreDone, arg := { c := c } }] := by
  simp only [thawNow, presented, found, old, Bool.not_true, Bool.not_false, Bool.false_eq_true, or_self, if_false, if_true]

theorem thaw_frozen (idle : (s.ctx c).busy = false) (frozen : (s.ctx c).state = 5) : thaw c false s = thawNow c s := by
  rw [thaw, if_neg (by decide), if_neg (by simp [idle, frozen])]

theorem thawNow_ctx (presented : s.presented (s.ctx c) = true) (found : (s.ctx c).lost = false) (old : (s.ctx c).handlerNew = false) :
    ((thawNow c s).ctx c).state = 3 ∧ ((thawNow c s).ctx c).thawing = true ∧ ((thawNow c s).ctx c).saved = (s.ctx c).saved := by
  obtain ⟨w, g, e⟩ := State.takeServers_ctx (s.setCtx c { s.ctx c with state := 3, busy := true, command := 6, handlerNew := false }) c
  rw [thawNow_goes presented found old, (((State.Places.refl _).joinFifo c).add _).ctx, e, State.setCtx_same]
  exact ⟨rfl, rfl, rfl⟩

theorem thawNow_lost (h : s.presented (s.ctx c) = false ∨ (s.ctx c).lost = true) : thawNow c s = s.done c 3 := by
  rw [thawNow, if_pos (by simpa using h)]

/-! ### A stack restored (R105, R122) -/

/-- What a restored frame has of the saved one. -/
def Frame.key (f : Frame) : Nat × Cpu × Tab Vec × Tab Word × Nat := (f.uid, f.cpu, f.v, f.k, f.prio)

theorem Bogie.Stands.keys {a b : Bogie} (h : a.Stands b) : b.stack.map Frame.key = a.stack.map Frame.key := by
  have bare : ∀ l : List Frame, (l.map Frame.bare).map Frame.key = l.map Frame.key := fun l => by rw [List.map_map]; rfl
  rw [← bare, h.stack, bare]

theorem State.restoreFrame_ctxs (s : State) (g : Nat) (x : SavedFrame) : (s.restoreFrame g x).ctxs = s.ctxs := rfl

theorem State.restoreFrame_keys (s : State) (g : Nat) (x : SavedFrame) :
    ((s.restoreFrame g x).bogie g).stack.map Frame.key = x.frame.key :: (s.bogie g).stack.map Frame.key := by
  have cleared : ∀ base n tiles, ((s.clearHoldings g base n tiles).bogie g).stack = (s.bogie g).stack := by
    intro base n tiles
    change ((s.setBogie g _).bogie g).stack = _
    rw [State.setBogie_same]
  simp only [State.restoreFrame]
  rw [← cleared ((((s.bogie g).freeRun x.frame.hdr).getD 0)) x.frame.hdr.scratchUse (((s.bogie g).freeTiles g).take x.frame.hdr.acc)]
  exact congrArg (fun b : Bogie => b.stack.map Frame.key) (State.setBogie_same ..)

/-- Frames restored from the bottom upwards stand in their order. -/
theorem State.foldl_restoreFrame (s : State) (g : Nat) (l : List SavedFrame) :
    ((l.reverse.foldl (fun s x => s.restoreFrame g x) s).bogie g).stack.map Frame.key =
      l.map (·.frame.key) ++ (s.bogie g).stack.map Frame.key ∧
    (l.reverse.foldl (fun s x => s.restoreFrame g x) s).ctxs = s.ctxs := by
  induction l with
  | nil => exact ⟨rfl, rfl⟩
  | cons x r ih =>
    rw [List.reverse_cons, List.foldl_append, List.foldl_cons, List.foldl_nil, State.restoreFrame_keys, State.restoreFrame_ctxs, ih.1]
    exact ⟨rfl, ih.2⟩

/-- What a slot holds does not depend on which stacks the context has saved, nor on its command. -/
theorem State.slotAltered_setCtx (s : State) (c : Nat) {x : Ctx} (root : x.ptRoot = (s.ctx c).ptRoot) (base : x.saveBase = (s.ctx c).saveBase)
    (set : x.coaches = (s.ctx c).coaches) (v : Saved) : (s.setCtx c x).slotAltered v = s.slotAltered v := by
  have same : ∀ ctx, ((s.setCtx c x).ctx ctx).ptRoot = (s.ctx ctx).ptRoot ∧ ((s.setCtx c x).ctx ctx).saveBase = (s.ctx ctx).saveBase ∧
      ((s.setCtx c x).ctx ctx).coaches = (s.ctx ctx).coaches := by
    intro ctx
    rcases eq_or_ne c ctx with rfl | other
    · rw [State.setCtx_same]; exact ⟨root, base, set⟩
    · rw [State.setCtx_other _ _ _ _ other]; exact ⟨rfl, rfl, rfl⟩
  have phys : ∀ ctx va, (s.setCtx c x).phys ctx va = s.phys ctx va := by
    intro ctx va
    have walk : (s.setCtx c x).walk ctx va = s.walk ctx va := by
      simp only [State.walk, (same ctx).1, malformedPointer_congr (s := s) (t := s.setCtx c x) rfl,
        walkFrom_congr (s := s) (t := s.setCtx c x) rfl rfl rfl]
    simp only [State.phys, State.leaf, walk]
  have slot : ∀ ctx g, ((s.setCtx c x).ctx ctx).slotBase g = (s.ctx ctx).slotBase g := by
    intro ctx g
    obtain ⟨-, hb, hc⟩ := same ctx
    simp only [Ctx.slotBase, Ctx.slotOf, Ctx.hasCoach, hb, hc]
  simp only [State.slotAltered, State.slotSpans, phys, slot]
  rfl

/-- The slot's scale file and its latch go onto a bogie. -/
def State.restoreRest (s : State) (g : Nat) (v : Saved) : State :=
  let b := s.bogie g
  let s := s.setBogie g { b with scale := v.scale, streak := v.streak, phase := if v.frames.isEmpty then b.phase else .waiting }
  match v.latch with
  | some (c, w, p) => s.setBogie g { s.bogie g with cycle := c, cwp := w, pfLatch := p, ckpt := (s.bogie g).stack.head? }
  | none => s

theorem State.restoreRest_stack (s : State) (g : Nat) (v : Saved) : ((s.restoreRest g v).bogie g).stack = (s.bogie g).stack := by
  simp only [State.restoreRest]
  split <;> simp only [State.setBogie_same]

theorem State.restoreRest_ctxs (s : State) (g : Nat) (v : Saved) : (s.restoreRest g v).ctxs = s.ctxs := by
  simp only [State.restoreRest]
  split <;> rfl

theorem State.restoreSlot_eq (s : State) (g : Nat) {v : Saved} (some' : v.frames ≠ []) (kept : s.slotAltered v = false) :
    s.restoreSlot g v = ((List.range v.fifo.length).zip v.fifo).foldl (fun s e => s.rejoin (dieOf v.g) g { e.2 with order := some e.1 })
      ((((v.frames.reverse.foldl (fun s x => s.restoreFrame g x) s).restoreRest g v).add [{ ev := .triggerDelivery, arg := { g := g } }]).checkBwait g) := by
  have frames : v.frames.isEmpty = false := by simpa using some'
  simp only [State.restoreSlot, State.restoreRest, kept, frames, Bool.false_eq_true, if_false] <;> rfl

/-- A slot restored onto an empty bogie: its stack, in order, and a message that triggers its top frame. -/
theorem State.restoreSlot_restores (s : State) (g : Nat) {v : Saved} (some' : v.frames ≠ []) (kept : s.slotAltered v = false)
    (empty : (s.bogie g).stack = []) : ((s.restoreSlot g v).bogie g).stack.map Frame.key = v.frames.map (·.frame.key) ∧
      (s.restoreSlot g v).ctxs = s.ctxs ∧ UnderWay (s.restoreSlot g v) .triggerDelivery fun b => b.g = g := by
  obtain ⟨keys, ctxs⟩ := s.foldl_restoreFrame g v.frames
  rw [s.restoreSlot_eq g some' kept]
  generalize v.frames.reverse.foldl (fun s x => s.restoreFrame g x) s = u at keys ctxs
  have waits := ((State.Kept.refl ((u.restoreRest g v).add [{ ev := .triggerDelivery, arg := { g := g } }])).checkBwait g).toPersists
  have rests := ((State.Rests.refl ((u.restoreRest g v).add [{ ev := .triggerDelivery, arg := { g := g } }])).checkBwait g)
  have placed := (State.Places.refl (((u.restoreRest g v).add [{ ev := .triggerDelivery, arg := { g := g } }]).checkBwait g)).foldl
    (fun s (e : Nat × Pending) => s.rejoin (dieOf v.g) g { e.2 with order := some e.1 }) (fun _ _ hu => hu.rejoin ..)
    ((List.range v.fifo.length).zip v.fifo)
  refine ⟨?_, ?_, ?_⟩
  · rw [placed.bogie, (rests.bogie g).keys]
    change List.map Frame.key ((u.restoreRest g v).bogie g).stack = _
    rw [State.restoreRest_stack, keys, empty, List.map_nil, List.append_nil]
  · rw [placed.ctxs, rests.ctxs]
    exact (u.restoreRest_ctxs g v).trans ctxs
  · exact UnderWay.mono (waits.trans placed.toPersists) (State.underWay_add (List.mem_singleton_self _) rfl)

theorem thawRestoreDone_one (thawing : (s.ctx c).thawing = true) {g : Nat} {v : Saved} (saved : (s.ctx c).saved = [(g, v)]) (stays : v.moved = false)
    (short : v.streak < 3) : thawRestoreDone c s =
      ((((s.setCtx c { s.ctx c with saved := [], busy := false, status := 0 }).restoreSlot g v).answerHeld c).resumeWork c).endDrains c := by
  simp only [thawRestoreDone, thawing, saved, stays, List.filter_cons, List.filter_nil, Bool.not_true, Bool.not_false, Bool.false_eq_true, if_false,
    if_true, List.foldl_cons, List.foldl_nil, Nat.not_le.2 short]

theorem thawRestoreDone_restores (thawing : (s.ctx c).thawing = true) {g : Nat} {v : Saved} (saved : (s.ctx c).saved = [(g, v)]) (stays : v.moved = false)
    (short : v.streak < 3) (some' : v.frames ≠ []) (kept : s.slotAltered v = false) (empty : (s.bogie g).stack = []) :
    (thawRestoreDone c s).ctx c = { s.ctx c with saved := [], busy := false, status := 0 } ∧
      ((thawRestoreDone c s).bogie g).stack.map Frame.key = v.frames.map (·.frame.key) ∧
      UnderWay (thawRestoreDone c s) .triggerDelivery (fun b => b.g = g) ∧
      ∀ d < 8, UnderWay (thawRestoreDone c s) .holdEnd fun b => b.d = d ∧ b.c = c := by
  rw [thawRestoreDone_one thawing saved stays short]
  have whole : (s.setCtx c { s.ctx c with saved := [], busy := false, status := 0 }).slotAltered v = false := by
    refine (s.slotAltered_setCtx c ?_ ?_ ?_ v).trans kept <;> rfl
  obtain ⟨keys, ctxs, comes⟩ := State.restoreSlot_restores _ g some' whole empty
  generalize (s.setCtx c { s.ctx c with saved := [], busy := false, status := 0 }).restoreSlot g v = u at keys ctxs comes
  have placed := (((State.Places.refl u).answerHeld c).resumeWork c).add
    (((((u.answerHeld c).resumeWork c).ctx c).kernels.filter fun e => e.2.state == 2 && !((u.answerHeld c).resumeWork c).liveFrames c e.1).map fun e =>
      { ev := .kernelDrainEnd, arg := { c := c, n := e.1 } })
  refine ⟨?_, ?_, UnderWay.mono placed.toPersists comes, fun d hd => ?_⟩
  · exact (placed.ctx c).trans (by rw [State.ctx, ctxs]; exact State.setCtx_same ..)
  · exact (congrArg (fun b : Bogie => b.stack.map Frame.key) (placed.bogie g)).trans keys
  · exact UnderWay.mono (State.persists_add ..) ((State.underWay_resumeWork _ c).1 d hd)

/-! ### Releases dropped (R330) -/

/-- No die's store holds a release of the context. -/
def State.Dropped (c : Nat) (t : State) : Prop := ∀ d, ∀ p ∈ (t.die d).store, p.rel.ctx ≠ c

/-- After its lists are filtered of a context, a state whose agents are pumped. -/
theorem State.dropReleases_rests (s : State) (c : Nat) : ∃ u : State, u.Rests (s.dropReleases c) ∧ u.Dropped c ∧ u.ctxs = s.ctxs ∧
    ∀ g, (u.bogie g).stack = (s.bogie g).stack := by
  rw [State.dropReleases]
  refine ⟨_, (State.Rests.refl _).foldl _ (fun u a hu => ?_) _, fun d => ?_, rfl, fun g => ?_⟩
  · split
    · exact (hu.pump _).add _
    · exact hu.pump _
  · refine State.die_mapVals (s := s) (p := fun _ y => ∀ p ∈ y.store, p.rel.ctx ≠ c) (by dsimp only) (fun x p hp => ?_) (fun _ p hp => ?_) d
    · simpa using List.of_mem_filter hp
    · cases hp
  · refine State.bogie_mapVals (s := s) (p := fun x y => y.stack = x.stack) (by dsimp only) (fun x => ?_) rfl g
    rfl

theorem State.freeCopies_rest (s : State) (u : SnapUnit) : (s.freeCopies u).ctxs = s.ctxs ∧ (s.freeCopies u).bogies = s.bogies :=
  List.foldlRecOn (motive := fun t : State => t.ctxs = s.ctxs ∧ t.bogies = s.bogies) u.copies _ ⟨rfl, rfl⟩ fun _ h _ _ => h

/-- A snapshot abandoned leaves the rest of its context, and every bogie (R421). -/
theorem State.abandonSnapshot_rest (s : State) (c : Nat) : (∃ x, (s.abandonSnapshot c).ctx c = { s.ctx c with snap := x }) ∧
    (s.abandonSnapshot c).bogies = s.bogies := by
  rw [State.abandonSnapshot]
  split
  · exact ⟨⟨_, rfl⟩, rfl⟩
  · have freed := List.foldlRecOn (motive := fun t : State => t.ctxs = (s.setSnap c {}).ctxs ∧ t.bogies = s.bogies) (s.ctx c).snap.units
      (fun s u => s.freeCopies u) ⟨rfl, rfl⟩ fun t h u _ => ⟨(t.freeCopies_rest u).1.trans h.1, (t.freeCopies_rest u).2.trans h.2⟩
    refine ⟨⟨{}, ?_⟩, freed.2⟩
    change Tab.get _ _ _ = _
    rw [freed.1]
    exact State.setCtx_same ..

/-- A scrub of the context begins, and none of its releases is in a store (R106). -/
def Scrubs (c : Nat) (t : State) : Prop :=
  (t.ctx c).state = 6 ∧ (t.ctx c).busy = true ∧ (∀ d, ∀ p ∈ (t.die d).store, p.rel.ctx ≠ c) ∧ UnderWay t .scrubDone fun b => b.c = c

/-- The scrub begins: the snapshot abandoned, the releases dropped. -/
def State.beginScrub (s : State) (c : Nat) (x : Ctx) : State :=
  (((s.setCtx c x).abandonSnapshot c).dropReleases c).add [{ ev := .scrubDone, arg := { c := c } }]

theorem State.beginScrub_ctx (s : State) (c : Nat) (x : Ctx) : ∃ n, (s.beginScrub c x).ctx c = { x with snap := n } := by
  obtain ⟨⟨n, e⟩, -⟩ := (s.setCtx c x).abandonSnapshot_rest c
  obtain ⟨u, rests, -, ctxs, -⟩ := ((s.setCtx c x).abandonSnapshot c).dropReleases_rests c
  refine ⟨n, (rests.ctx c).trans ?_⟩
  rw [State.ctx, ctxs]
  exact e.trans (by rw [State.setCtx_same])

theorem State.beginScrub_scrubs (s : State) (c : Nat) {x : Ctx} (state : x.state = 6) (busy : x.busy = true) : Scrubs c (s.beginScrub c x) := by
  obtain ⟨n, e⟩ := s.beginScrub_ctx c x
  obtain ⟨u, rests, dropped, -, -⟩ := ((s.setCtx c x).abandonSnapshot c).dropReleases_rests c
  rw [Scrubs, e]
  exact ⟨state, busy, fun d p hp => dropped d p (by rw [← rests.store d]; exact hp), State.underWay_add (List.mem_singleton_self _) rfl⟩

/-- Every frame is one of a frame of before, but for what it awaits. -/
theorem State.beginScrub_stack (s : State) (c : Nat) (x : Ctx) (g : Nat) :
    ((s.beginScrub c x).bogie g).stack.map Frame.bare = (s.bogie g).stack.map Frame.bare := by
  obtain ⟨-, bogies⟩ := (s.setCtx c x).abandonSnapshot_rest c
  obtain ⟨u, rests, -, -, stack⟩ := ((s.setCtx c x).abandonSnapshot c).dropReleases_rests c
  refine (rests.bogie g).stack.trans ?_
  rw [stack, State.bogie, bogies]
  rfl

theorem destroy_begins (idle : (s.ctx c).busy = false) (state : (s.ctx c).state = 1 ∨ (s.ctx c).state = 2 ∨ (s.ctx c).state = 5) :
    destroy c s = s.beginScrub c { s.ctx c with state := 6, busy := true, command := 7, handlerNew := decide ((s.ctx c).state ≠ 1) } := by
  rw [destroy, if_neg (by simp only [idle, Bool.false_eq_true, false_or]; omega)]
  rfl

/-! ### The function-level reset (R106) -/

theorem State.resetBogie_stack (s : State) (g c : Nat) : ∀ f ∈ ((s.resetBogie g c).bogie g).stack, f.ctx ≠ c := by
  simp only [State.resetBogie]
  split
  · rw [State.setBogie_same]
    exact fun _ h => absurd h List.not_mem_nil
  next none' => simpa using none'

theorem State.resetBogie_other (s : State) {g h : Nat} (c : Nat) (other : g ≠ h) : (s.resetBogie g c).bogie h = s.bogie h := by
  simp only [State.resetBogie]
  split
  · exact State.setBogie_other _ _ _ _ other
  · rfl

/-- Each bogie that is reset, and each that held no frame of the context, holds none after it. -/
theorem foldl_resetBogie (c : Nat) (l : List Nat) (s : State) (h : Nat) (mem : h ∈ l ∨ ∀ f ∈ (s.bogie h).stack, f.ctx ≠ c) :
    ∀ f ∈ ((l.foldl (fun s g => s.resetBogie g c) s).bogie h).stack, f.ctx ≠ c := by
  induction l generalizing s with
  | nil => exact mem.resolve_left List.not_mem_nil
  | cons g r ih =>
    rw [List.foldl_cons]
    rcases eq_or_ne g h with rfl | other
    · exact ih _ (.inr (s.resetBogie_stack g c))
    · refine ih _ (mem.imp (fun mem => (List.mem_cons.1 mem).resolve_left other.symm) fun none' => ?_)
      rwa [s.resetBogie_other c other]

theorem get_of_unlisted {α : Type} (t : Tab α) (d : α) {k : Nat} (h : k ∉ t.map (·.1)) : Tab.get t d k = d := by
  induction t with
  | nil => rfl
  | cons e r ih =>
    rw [List.map_cons, List.mem_cons, not_or] at h
    rw [Tab.get, if_neg (Ne.symm h.1), ih h.2]

/-- A bogie that no table lists has no frame. -/
theorem State.stack_of_unlisted (s : State) {g : Nat} (h : g ∉ s.bogies.map (·.1)) : (s.bogie g).stack = [] := by
  rw [State.bogie, get_of_unlisted _ _ h]

theorem functionLevelReset_begins (live : (s.ctx c).state ≠ 0) (still : (s.ctx c).state ≠ 6) (hc : c ≤ 192) :
    functionLevelReset c s = ((s.bogies.map (·.1)).foldl (fun s g => s.resetBogie g c) s).beginScrub c
      { s.ctx c with state := 6, busy := true, command := 7, handlerNew := decide ((s.ctx c).state ≠ 1), saved := [] } := by
  rw [functionLevelReset, if_neg (by omega)]
  rfl

theorem functionLevelReset_stack (live : (s.ctx c).state ≠ 0) (still : (s.ctx c).state ≠ 6) (hc : c ≤ 192) (g : Nat) :
    ∀ f ∈ ((functionLevelReset c s).bogie g).stack, f.ctx ≠ c := by
  intro f hf
  have reset := foldl_resetBogie c (s.bogies.map (·.1)) s g (by
    by_cases mem : g ∈ s.bogies.map (·.1)
    · exact .inl mem
    · exact .inr (by rw [s.stack_of_unlisted mem]; exact fun _ h => absurd h List.not_mem_nil))
  rw [functionLevelReset_begins live still hc] at hf
  have bare := List.mem_map_of_mem (f := Frame.bare) hf
  rw [State.beginScrub_stack] at bare
  obtain ⟨f', hf', e⟩ := List.mem_map.1 bare
  exact fun is => reset f' hf' ((congrArg Frame.ctx e).trans is)

/-! ### The scrub (R106, R271) -/

/-- No bogie has a cache line of the context, nor a translation. -/
def State.Forgot (c : Nat) (t : State) : Prop := ∀ g, (∀ e ∈ (t.bogie g).l1, e.ctx ≠ c) ∧ ∀ e ∈ (t.bogie g).tlb, e.ctx ≠ c

theorem State.Forgot.of_bogies {s t : State} (h : t.bogies = s.bogies) (k : s.Forgot c) : t.Forgot c := by
  intro g
  rw [State.bogie, h]
  exact k g

theorem State.Stands.forgot {s t : State} (h : s.Stands t) (k : s.Forgot c) : t.Forgot c :=
  fun g => ⟨fun e he => (k g).1 e ((h.bogie g).l1 e he), by rw [(h.bogie g).tlb]; exact (k g).2⟩

theorem State.scrubCaches_forgot (s : State) (c : Nat) : (s.scrubCaches c).Forgot c := by
  intro g
  refine State.bogie_mapVals (s := s) (p := fun _ b => (∀ e ∈ b.l1, e.ctx ≠ c) ∧ ∀ e ∈ b.tlb, e.ctx ≠ c) (by rw [State.scrubCaches]) (fun b => ?_)
    ⟨fun _ h => absurd h List.not_mem_nil, fun _ h => absurd h List.not_mem_nil⟩ g
  exact ⟨fun e h => by simpa using List.of_mem_filter h, fun e h => by simpa using List.of_mem_filter h⟩

/-- A coach scrubbed keeps stacks, lines and translations. -/
theorem State.scrubCoach_stands (s : State) (k : Nat) : s.Stands (s.scrubCoach k) := by
  rw [State.scrubCoach]
  refine State.Stands.foldl ((State.Stands.refl s).frame ?_ ?_) _ (fun u i hu => ?_) _
  · rfl
  · rfl
  exact hu.setBogie _ ⟨rfl, rfl, fun _ h => h⟩

theorem State.scrubGroups_stands (s : State) (c : Nat) : s.Stands (s.scrubGroups c) := by
  rw [State.scrubGroups]
  refine (State.Stands.refl s).foldl _ (fun u e hu => hu.foldl _ (fun v g hv => ?_) _) _
  refine hv.frame ?_ ?_ <;> rfl

theorem State.writeLeaf_stands (s : State) (key : Nat) (w : Word) : s.Stands (s.writeLeaf key w) := by
  refine (State.Stands.refl s).frame ?_ ?_ <;> rfl

/-- The coaches that the scrub clears: those of the context's set that it armed, and that no other context has taken since (R102). -/
def State.scrubSet (s : State) (c : Nat) : List Nat :=
  (s.ctx c).coachList.filter fun k =>
    (s.ctx c).handlerNew && !(s.ctxs.any fun e => e.1 != c && decide (2 ≤ e.2.state) && decide (e.2.state ≤ 5) && e.2.hasCoach k)

/-- The scrub's steps after the caches: coaches, groups, consists and leaves. -/
def State.scrubRest (s : State) (c : Nat) : State :=
  let s := (s.scrubSet c).foldl (fun s k => s.scrubCoach k) s
  let s := s.scrubGroups c
  let s := (s.consists.filter fun e => e.1 / 64 == c && e.2.state != 0).foldl (fun s e => s.freeConsist c (e.1 % 64)) s
  (s.leaves c).foldl (fun s l => s.writeLeaf l.key (l.word false)) s

theorem State.scrubRest_stands (s : State) (c : Nat) : s.Stands (s.scrubRest c) := by
  refine State.Stands.foldl (State.Stands.foldl (State.Stands.trans ?_ (State.scrubGroups_stands _ c)) _ (fun u e hu => ?_) _) _ (fun u l hu => ?_) _
  · exact (State.Stands.refl s).foldl _ (fun u k hu => hu.trans (u.scrubCoach_stands k)) _
  · exact hu.trans ((State.Rests.refl u).freeConsist ..).toStands
  · exact hu.trans (u.writeLeaf_stands ..)

/-- The context that the scrub leaves. -/
def Ctx.scrubbed (x : Ctx) : Ctx :=
  { x with state := 0, busy := false, status := 0, kernels := [], saved := [], eventq := [], outstanding := [], triggers := [], sums := [], ceilings := []
           handlers := [], servers := [], serving := [], lost := false, handlerNew := false, snap := {} }

theorem scrubDone_scrubs (state : (s.ctx c).state = 6) (issued : s.issued c = false)
    (queued : s.queued c (fun c desc => (s.nextPacket c desc).isSome) = false) :
    (scrubDone c s).ctx c = (s.ctx c).scrubbed ∧ (scrubDone c s).Forgot c := by
  rw [scrubDone, if_neg (by simp [state]), if_neg (by simp [issued, queued])]
  refine ⟨State.setCtx_same .., ?_⟩
  refine State.Forgot.of_bogies (s := (s.scrubCaches c).scrubRest c) ?_ (((s.scrubCaches c).scrubRest_stands c).forgot (s.scrubCaches_forgot c))
  rfl

end

/-- Settles O53: each command and completion by the lemma of its step. -/
theorem contextsFreezeAndThaw : Obligations.ContextsFreezeAndThaw := by
  unfold Obligations.ContextsFreezeAndThaw
  intro s c x gone
  have first : ∀ {p : State → Prop}, s.arg.n ≠ 6 → x.busy = false → x.state = 5 → p (thawNow c s) → Does .thaw s p := by
    intro p written idle frozen h
    refine ⟨_, rfl, ?_⟩
    rw [show (s.arg.n == 6) = false by simpa using written, thaw_frozen idle frozen]
    exact h
  refine ⟨fun idle armed => ⟨_, rfl, freeze_armed idle armed⟩, fun idle running => ⟨_, rfl, ?freeze⟩,
    fun freezing => ⟨fun h => ⟨_, rfl, ?freezeWaits⟩,
    fun issued queued still => ⟨_, rfl, ?freezeSaves⟩⟩, fun written idle frozen presented found old => first written idle frozen ?thaw,
    fun written idle frozen h => first written idle frozen (thawNow_lost h), fun g v thawing saved stays short some' kept empty => ⟨_, rfl, ?restore⟩,
    fun idle state => ⟨_, rfl, ?destroy⟩, fun live still hc => ⟨_, rfl, ?reset⟩, fun state issued queued => ⟨_, rfl, ?scrub⟩⟩
  case freeze =>
    rw [freeze_running idle running]
    exact ⟨State.setCtx_same .., State.underWay_add (List.mem_singleton_self _) rfl⟩
  case freezeWaits =>
    rw [freezeComplete_waits freezing h]
    exact ⟨rfl, State.underWay_add (List.mem_singleton_self _) rfl⟩
  case freezeSaves =>
    have saves := fun g mem => foldl_saveHeld c (nodup_ctxBogies s c) s (g := g) mem
    rw [freezeComplete_saves freezing issued queued still]
    generalize (s.ctxBogies c).foldl (saveHeld c) s = u at saves
    simp only [State.done, State.setCtx_same, true_and]
    exact saves
  case thaw =>
    obtain ⟨state, thawing, saved⟩ := thawNow_ctx presented found old
    refine ⟨state, thawing, saved, ?_⟩
    rw [thawNow_goes presented found old]
    exact State.underWay_add (List.mem_singleton_self _) rfl
  case restore =>
    obtain ⟨ctx, keys, triggered, holds⟩ := thawRestoreDone_restores thawing saved stays short some' kept empty
    have active : x.state = 3 := by
      simp only [Ctx.thawing, Bool.and_eq_true, beq_iff_eq] at thawing
      exact thawing.1.1
    rw [ctx]
    exact ⟨active, rfl, rfl, keys, triggered, holds⟩
  case destroy =>
    rw [destroy_begins idle state]
    exact s.beginScrub_scrubs c rfl rfl
  case reset =>
    have cleared := functionLevelReset_stack live still hc
    rw [functionLevelReset_begins live still hc] at cleared ⊢
    obtain ⟨n, e⟩ := State.beginScrub_ctx _ c _
    exact ⟨State.beginScrub_scrubs _ c rfl rfl, by rw [e], cleared⟩
  case scrub =>
    obtain ⟨ctx, forgot⟩ := scrubDone_scrubs state issued queued
    rw [ctx]
    exact ⟨rfl, rfl, rfl, rfl, rfl, forgot⟩

end Sys2Proof.Machine
end

section

/-! # The packets that F1 carries out (O55)

Triggers first: what came to them in one clock is folded over the tags it names. Then the queues: a packet at the head of its queue's ring goes on as
`Carries` says, reads what the state before its step reads (`State.Aside`), and retires by `InRing.retires`. -/

namespace Sys2Proof.Machine

open Sys2Proof.Safety

/-! ### Triggers (R340) -/

section

variable {s : State} {c : Nat}

/-- The trigger of a tag. -/
def State.trigger (s : State) (c tag : Nat) : Trigger := Tab.get (s.ctx c).triggers {} tag

/-- The step that carries out the packet saved in a trigger. -/
def firedPacket (c : Nat) (g : Trigger) (ev : Instr) : Happening :=
  { ev := ev, arg := { c := c, n := g.queue, pkt := g.pkt, flag := true }, lane := some (7000, c) }

/-- A trigger is armed and its counter has come to the threshold. -/
def Trigger.fires (g : Trigger) : Prop := g.armed = true ∧ g.threshold.toNat ≤ g.counter.toNat

/-- A trigger that has fired. -/
def Trigger.spent (g : Trigger) : Trigger := { g with counter := g.counter - g.threshold, armed := false }

theorem State.evalTrigger_still (h : ¬(s.trigger c tag).fires) : s.evalTrigger c tag = s := if_neg h

/-- What an evaluation that fires leaves: the trigger spent, every other as it was, and its packet carried out. -/
theorem State.evalTrigger_fires {tag : Nat} (h : (s.trigger c tag).fires) :
    ((s.evalTrigger c tag).ctx c) = { s.ctx c with triggers := Tab.put (s.ctx c).triggers tag (s.trigger c tag).spent } ∧
    ∀ ev, packetStep (s.trigger c tag).pkt = some ev → (s.evalTrigger c tag).agenda = s.agenda ++ [firedPacket c (s.trigger c tag) ev] := by
  have fires : (Tab.get (s.ctx c).triggers {} tag).armed = true ∧
    (Tab.get (s.ctx c).triggers {} tag).threshold.toNat ≤ (Tab.get (s.ctx c).triggers {} tag).counter.toNat := h
  simp only [State.evalTrigger, if_pos fires]
  refine ⟨?_, fun ev step => ?_⟩
  · split <;> exact State.setCtx_same ..
  · split
    next ev' step' =>
      cases step'.symm.trans step
      rfl
    next none' => cases none'.symm.trans step

theorem State.trigger_evalTrigger_fires {tag : Nat} (h : (s.trigger c tag).fires) : (s.evalTrigger c tag).trigger c tag = (s.trigger c tag).spent := by
  rw [State.trigger, (State.evalTrigger_fires h).1]
  exact Tab.get_put_same ..

theorem State.trigger_evalTrigger_other {tag u : Nat} (other : u ≠ tag) : (s.evalTrigger c tag).trigger c u = s.trigger c u := by
  by_cases h : (s.trigger c tag).fires
  · rw [State.trigger, (State.evalTrigger_fires h).1]
    exact Tab.get_put_other _ _ _ _ _ other.symm
  · rw [State.evalTrigger_still h]

theorem State.sums_evalTrigger (s : State) (c tag : Nat) : ((s.evalTrigger c tag).ctx c).sums = (s.ctx c).sums := by
  by_cases h : (s.trigger c tag).fires
  · rw [(State.evalTrigger_fires h).1]
  · rw [State.evalTrigger_still h]

/-- An addition to a trigger's counter. -/
def State.raise (s : State) (c tag : Nat) (v : Word) : State :=
  s.setCtx c { s.ctx c with triggers := Tab.put (s.ctx c).triggers tag { s.trigger c tag with counter := (s.trigger c tag).counter + v } }

theorem State.trigger_raise_same (s : State) (c tag : Nat) (v : Word) :
    (s.raise c tag v).trigger c tag = { s.trigger c tag with counter := (s.trigger c tag).counter + v } := by
  rw [State.trigger, State.raise, State.setCtx_same]
  exact Tab.get_put_same ..

theorem State.trigger_raise_other (s : State) (c : Nat) {tag u : Nat} (v : Word) (other : u ≠ tag) :
    (s.raise c tag v).trigger c u = s.trigger c u := by
  rw [State.trigger, State.raise, State.setCtx_same]
  exact Tab.get_put_other _ _ _ _ _ other.symm

theorem State.sums_raise (s : State) (c tag : Nat) (v : Word) : ((s.raise c tag v).ctx c).sums = (s.ctx c).sums := by
  rw [State.raise, State.setCtx_same]

/-- The sums of a context emptied. -/
def State.noSums (s : State) (c : Nat) : State := s.setCtx c { s.ctx c with sums := [] }

theorem State.trigger_noSums (s : State) (c tag : Nat) : (s.noSums c).trigger c tag = s.trigger c tag := by
  rw [State.trigger, State.noSums, State.setCtx_same]
  rfl

theorem State.sums_noSums (s : State) (c : Nat) : ((s.noSums c).ctx c).sums = [] := by rw [State.noSums, State.setCtx_same]

/-- What came to a trigger in one clock: its arming evaluated, and the sum of what was added. -/
def State.sumTag (s : State) (c : Nat) (mine : List (Nat × Nat × Option Word)) (tag : Nat) : State :=
  let here := (mine.filter fun e => e.1 == tag).map (·.2.2)
  let s := if here.contains none then s.evalTrigger c tag else s
  let added := here.filterMap id
  if added.isEmpty then s else (s.raise c tag (added.foldl (· + ·) 0)).evalTrigger c tag

/-- One clock's part of the sums taken out of a context. -/
def State.takeSums (s : State) (c clock : Nat) : State := s.setCtx c { s.ctx c with sums := (s.ctx c).sums.filter fun e => e.2.1 != clock }

theorem State.sumClock_eq (s : State) (c clock : Nat) : s.sumClock c clock =
    ((List.range 256).filter fun tag => ((s.ctx c).sums.filter fun e => e.2.1 == clock).any fun e => e.1 == tag).foldl
      (fun t tag => t.sumTag c ((s.ctx c).sums.filter fun e => e.2.1 == clock) tag) (s.takeSums c clock) := rfl

theorem eraseDups_of_all_eq {l : List Nat} {k : Nat} (some' : l ≠ []) (all : ∀ a ∈ l, a = k) : l.eraseDups = [k] := by
  cases l with
  | nil => exact absurd rfl some'
  | cons a r =>
    obtain ⟨rfl, rest⟩ := List.forall_mem_cons.1 all
    have none' : (r.filter fun b => !b == a) = [] := List.filter_eq_nil_iff.2 fun b hb => by simp [rest b hb]
    rw [List.eraseDups_cons, none', List.eraseDups_nil]

/-- Sums of one earlier clock alone are evaluated as that clock's, tag by tag. -/
theorem State.sumTriggers_one {k : Nat} (past : k < s.clock) (some' : (s.ctx c).sums ≠ []) (one : ∀ e ∈ (s.ctx c).sums, e.2.1 = k) :
    s.sumTriggers c = ((List.range 256).filter fun tag => (s.ctx c).sums.any fun e => e.1 == tag).foldl
      (fun t tag => t.sumTag c (s.ctx c).sums tag) (s.noSums c) := by
  have clocks : (((s.ctx c).sums.map fun e => e.2.1).filter fun k => decide (k < s.clock)).eraseDups = [k] := by
    refine eraseDups_of_all_eq ?_ fun a ha => ?_
    · obtain ⟨e, he⟩ := List.exists_mem_of_ne_nil _ some'
      refine List.ne_nil_of_mem (a := e.2.1) (List.mem_filter.2 ⟨List.mem_map_of_mem he, ?_⟩)
      rw [one e he]
      exact decide_eq_true past
    · obtain ⟨e, he, rfl⟩ := List.mem_map.1 (List.mem_of_mem_filter ha)
      exact one e he
  have mine : ((s.ctx c).sums.filter fun e => e.2.1 == k) = (s.ctx c).sums := List.filter_eq_self.2 fun e he => by simp [one e he]
  have rest : ((s.ctx c).sums.filter fun e => e.2.1 != k) = [] := List.filter_eq_nil_iff.2 fun e he => by simp [one e he]
  rw [State.sumTriggers, clocks, List.foldl_cons, List.foldl_nil, State.sumClock_eq, mine, State.takeSums, rest]
  rfl

/-! ### One tag, and two -/

/-- An ascending list of numbers below 256 is the range filtered for them. -/
theorem filter_range_eq {l : List Nat} {p : Nat → Bool} (ascending : l.Pairwise (· < ·)) (low : ∀ u ∈ l, u < 256)
    (mem : ∀ u, p u = true ↔ u ∈ l) : (List.range 256).filter p = l := by
  refine (List.pairwise_lt_range.filter _).eq_of_mem_iff ascending fun u => ?_
  rw [List.mem_filter, List.mem_range, mem]
  exact ⟨And.right, fun h => ⟨low u h, h⟩⟩

/-- The sums of one clock and one tag: additions alone. -/
def additions (tag k : Nat) (l : List Word) : List (Nat × Nat × Option Word) := l.map fun v => (tag, k, some v)

theorem sumTag_additions (s : State) (c tag k : Nat) {l : List Word} (some' : l ≠ []) :
    s.sumTag c (additions tag k l) tag = (s.raise c tag (l.foldl (· + ·) 0)).evalTrigger c tag := by
  have here : ((additions tag k l).filter fun e => e.1 == tag).map (·.2.2) = l.map some := by
    rw [List.filter_eq_self.2 (by simp [additions]), additions, List.map_map]
    rfl
  have added : (l.map some).filterMap id = l := by simp
  have unarmed : (l.map some).contains none = false := by simp
  have any : l.isEmpty = false := by simpa using some'
  simp only [State.sumTag, here, added, unarmed, any, Bool.false_eq_true, if_false]

theorem sumTag_arming (s : State) (c tag k : Nat) : s.sumTag c [(tag, k, none)] tag = s.evalTrigger c tag := by
  simp [State.sumTag]

/-- The additions of one clock to one trigger: their sum is added, and the trigger evaluated once. -/
theorem sumTriggers_additions {s : State} {c tag k : Nat} {l : List Word} (low : tag < 256) (past : k < s.clock) (some' : l ≠ [])
    (sums : (s.ctx c).sums = additions tag k l) :
    s.sumTriggers c = ((s.noSums c).raise c tag (l.foldl (· + ·) 0)).evalTrigger c tag := by
  obtain ⟨v, hv⟩ := List.exists_mem_of_ne_nil _ some'
  have named : ∀ u, ((additions tag k l).any fun e => e.1 == u) = true ↔ u ∈ [tag] := by
    intro u
    simp only [additions, List.any_map, List.any_eq_true, Function.comp, beq_iff_eq, List.mem_singleton]
    exact ⟨fun ⟨_, _, e⟩ => e.symm, fun e => ⟨v, hv, e.symm⟩⟩
  rw [State.sumTriggers_one past (by rw [sums]; simpa [additions] using some') (by rw [sums]; simp [additions]), sums,
    filter_range_eq (List.pairwise_singleton ..) (by simpa using low) named, List.foldl_cons, List.foldl_nil, sumTag_additions _ _ _ _ some']

theorem sumTriggers_arming {s : State} {c tag k : Nat} (low : tag < 256) (past : k < s.clock) (sums : (s.ctx c).sums = [(tag, k, none)]) :
    s.sumTriggers c = (s.noSums c).evalTrigger c tag := by
  have named : ∀ u, ([(tag, k, (none : Option Word))].any fun e => e.1 == u) = true ↔ u ∈ [tag] := fun u => by
    simp only [List.any_cons, List.any_nil, Bool.or_false, beq_iff_eq, List.mem_singleton]
    exact eq_comm
  rw [State.sumTriggers_one (k := k) past (by rw [sums]; simp) (by rw [sums]; simp), sums,
    filter_range_eq (List.pairwise_singleton ..) (by simpa using low) named, List.foldl_cons, List.foldl_nil, sumTag_arming]

/-- One addition in one clock to each of two triggers: the lower tag goes first. -/
theorem sumTriggers_two {s : State} {c i j k : Nat} {v w : Word} (order : i < j) (low : j < 256) (past : k < s.clock)
    (sums : (s.ctx c).sums = [(j, k, some v), (i, k, some w)]) :
    s.sumTriggers c = ((((s.noSums c).raise c i w).evalTrigger c i).raise c j v).evalTrigger c j := by
  have named : ∀ u, ([(j, k, some v), (i, k, some w)].any fun e => e.1 == u) = true ↔ u ∈ [i, j] := fun u => by
    simp only [List.any_cons, List.any_nil, Bool.or_false, Bool.or_eq_true, beq_iff_eq, List.mem_cons, List.not_mem_nil, or_false]
    omega
  have first : ∀ t : State, t.sumTag c [(j, k, some v), (i, k, some w)] i = (t.raise c i w).evalTrigger c i := fun t => by
    simp [State.sumTag, order.ne']
  have second : ∀ t : State, t.sumTag c [(j, k, some v), (i, k, some w)] j = (t.raise c j v).evalTrigger c j := fun t => by
    simp [State.sumTag, order.ne]
  rw [State.sumTriggers_one (k := k) past (by rw [sums]; simp) (by rw [sums]; simp), sums,
    filter_range_eq (by simpa using order) (by simpa using ⟨order.trans low, low⟩) named, List.foldl_cons, List.foldl_cons, List.foldl_nil, first, second]

end

/-! ### A clock's outcome -/

/-- What an evaluation does to a trigger g of queue and tag: it fires, or stays. -/
structure Evaluates (s t : State) (c tag : Nat) (g : Trigger) : Prop where
  sums : (t.ctx c).sums = []
  other : ∀ u, u ≠ tag → t.trigger c u = s.trigger c u
  fires : g.fires → t.trigger c tag = g.spent ∧ ∀ ev, packetStep g.pkt = some ev → t.agenda = s.agenda ++ [firedPacket c g ev]
  still : ¬g.fires → t.trigger c tag = g ∧ t.agenda = s.agenda

theorem evaluates_evalTrigger {s u : State} {c tag : Nat} (sums : (u.ctx c).sums = []) (other : ∀ v, v ≠ tag → u.trigger c v = s.trigger c v)
    (agenda : u.agenda = s.agenda) : Evaluates s (u.evalTrigger c tag) c tag (u.trigger c tag) where
  sums := (u.sums_evalTrigger c tag).trans sums
  other v hv := (State.trigger_evalTrigger_other hv).trans (other v hv)
  fires h := ⟨State.trigger_evalTrigger_fires h, fun ev step => by rw [(State.evalTrigger_fires h).2 ev step, agenda]⟩
  still h := by rw [State.evalTrigger_still h]; exact ⟨rfl, agenda⟩

theorem evaluates_additions {s : State} {c tag k : Nat} {l : List Word} (low : tag < 256) (past : k < s.clock) (some' : l ≠ [])
    (sums : (s.ctx c).sums = additions tag k l) :
    Evaluates s (s.sumTriggers c) c tag { s.trigger c tag with counter := (s.trigger c tag).counter + l.foldl (· + ·) 0 } := by
  rw [sumTriggers_additions low past some' sums, ← State.trigger_noSums, ← State.trigger_raise_same]
  exact evaluates_evalTrigger ((State.sums_raise ..).trans (s.sums_noSums c))
    (fun v hv => ((s.noSums c).trigger_raise_other c _ hv).trans (s.trigger_noSums c v)) rfl

theorem evaluates_arming {s : State} {c tag k : Nat} (low : tag < 256) (past : k < s.clock) (sums : (s.ctx c).sums = [(tag, k, none)]) :
    Evaluates s (s.sumTriggers c) c tag (s.trigger c tag) := by
  rw [sumTriggers_arming low past sums, ← State.trigger_noSums]
  exact evaluates_evalTrigger (s.sums_noSums c) (fun v _ => s.trigger_noSums c v) rfl

/-- Two triggers that fire in one clock: the packet of the lower tag goes first. -/
theorem agenda_two {s : State} {c i j k : Nat} {v w : Word} {ei ej : Instr} (order : i < j) (low : j < 256) (past : k < s.clock)
    (sums : (s.ctx c).sums = [(j, k, some v), (i, k, some w)])
    (armedI : (s.trigger c i).armed = true) (reachedI : (s.trigger c i).threshold.toNat ≤ ((s.trigger c i).counter + w).toNat)
    (stepI : packetStep (s.trigger c i).pkt = some ei)
    (armedJ : (s.trigger c j).armed = true) (reachedJ : (s.trigger c j).threshold.toNat ≤ ((s.trigger c j).counter + v).toNat)
    (stepJ : packetStep (s.trigger c j).pkt = some ej) :
    (s.sumTriggers c).agenda = s.agenda ++ [firedPacket c (s.trigger c i) ei, firedPacket c (s.trigger c j) ej] := by
  rw [sumTriggers_two order low past sums]
  have atI : ((s.noSums c).raise c i w).trigger c i = { s.trigger c i with counter := (s.trigger c i).counter + w } := by
    rw [State.trigger_raise_same, State.trigger_noSums]
  have firesI : (((s.noSums c).raise c i w).trigger c i).fires := by rw [atI]; exact ⟨armedI, reachedI⟩
  have atJ : ((((s.noSums c).raise c i w).evalTrigger c i).raise c j v).trigger c j = { s.trigger c j with counter := (s.trigger c j).counter + v } := by
    rw [State.trigger_raise_same, State.trigger_evalTrigger_other order.ne', State.trigger_raise_other _ _ _ order.ne', State.trigger_noSums]
  have firesJ : (((((s.noSums c).raise c i w).evalTrigger c i).raise c j v).trigger c j).fires := by rw [atJ]; exact ⟨armedJ, reachedJ⟩
  rw [(State.evalTrigger_fires firesJ).2 ej (by rw [atJ]; exact stepJ), atJ]
  have first := (State.evalTrigger_fires firesI).2 ei (by rw [atI]; exact stepI)
  rw [atI] at first
  refine (congrArg (· ++ _) (first : ((((s.noSums c).raise c i w).evalTrigger c i).raise c j v).agenda = _)).trans ?_
  rw [List.append_assoc]
  rfl

end Sys2Proof.Machine
end

section

/-! # A packet at the head of its queue's ring (O55) -/

namespace Sys2Proof.Machine

open Sys2Proof.Safety

/-! ### What F1 reads (R331, R337) -/

/-- u is s with other queues, happenings and numbers: F1 reads the same. -/
structure State.Aside (s u : State) : Prop where
  rest : u = { s with queues := u.queues, agenda := u.agenda, uid := u.uid }

theorem State.Aside.refl (s : State) : s.Aside s := ⟨rfl⟩

namespace State.Aside

section

variable (s : State) (qs : Tab Queue) (l : List Happening) (id : Nat)

theorem leaf_eq (ctx va : Nat) : { s with queues := qs, agenda := l, uid := id }.leaf ctx va = s.leaf ctx va := State.leaf_congr rfl rfl rfl rfl ctx va

theorem copyRead_eq (d ctx va n : Nat) : { s with queues := qs, agenda := l, uid := id }.copyRead d ctx va n = s.copyRead d ctx va n := by
  simp only [State.copyRead, leaf_eq]
  rfl

theorem streamRead_eq (d ctx va n fuel : Nat) :
    { s with queues := qs, agenda := l, uid := id }.streamRead d ctx va n fuel = s.streamRead d ctx va n fuel := by
  induction fuel generalizing va n with
  | zero => rfl
  | succ f ih => simp only [State.streamRead, leaf_eq, copyRead_eq, ih]

end

variable {s u : State} (h : s.Aside u)
include h

theorem trans {v : State} (k : u.Aside v) : s.Aside v := ⟨by rw [k.rest, h.rest]⟩

theorem setQueue (n : Nat) (q : Queue) : s.Aside (u.setQueue n q) := h.trans ⟨rfl⟩

theorem add (l : List Happening) : s.Aside (u.add l) := h.trans ⟨rfl⟩

theorem leaf (ctx va : Nat) : u.leaf ctx va = s.leaf ctx va := by rw [h.rest, leaf_eq]

theorem readRange (ctx va n : Nat) : u.readRange ctx va n = s.readRange ctx va n := by
  rw [h.rest, State.readRange, streamRead_eq]
  rfl

theorem restricting (ctx va : Nat) : u.restricting ctx va = s.restricting ctx va := by rw [h.rest]; rfl

theorem copyTarget (ctx va : Nat) : u.copyTarget ctx va = s.copyTarget ctx va := by
  rw [h.rest]
  simp only [State.copyTarget, leaf_eq]
  rfl

theorem homeOr (ctx va d : Nat) : u.homeOr ctx va d = s.homeOr ctx va d := by
  rw [h.rest]
  simp only [State.homeOr, leaf_eq]
  rfl

theorem listFault (ctx va : Nat) : u.listFault ctx va = s.listFault ctx va := by
  rw [h.rest]
  simp only [State.listFault, leaf_eq, copyRead_eq]
  rfl

theorem hubLoad (ctx va : Nat) : u.hubLoad ctx va = s.hubLoad ctx va := by
  have range : u.readRange ctx va 8 = s.readRange ctx va 8 := h.readRange ctx va 8
  have page : u.leaf ctx va = s.leaf ctx va := h.leaf ctx va
  have device : u.deviceRead = s.deviceRead := by rw [h.rest]; rfl
  simp only [State.hubLoad, range, page, device]

theorem peerEntry (ctx va : Nat) : peerEntry u ctx va = Machine.peerEntry s ctx va := by rw [h.rest]; rfl

theorem ctx (c : Nat) : u.ctx c = s.ctx c := by rw [h.rest]; rfl

theorem hub : u.hub = s.hub := by rw [h.rest]; rfl

theorem mem : u.mem = s.mem := by rw [h.rest]

theorem hostMem : u.hostMem = s.hostMem := by rw [h.rest]

end State.Aside

/-! ### A ring packet on its way, and its end (R336, R338) -/

/-- The packet at the head of queue n's ring is still in hand in u: its descriptor and its ring as they were. -/
structure Carries (s u : State) (n : Nat) : Prop where
  hostMem : u.hostMem = s.hostMem
  queue : ∃ f w k, u.queue n = { s.queue n with fetching := f, waitFrom := w, skips := k }

theorem Carries.refl (s : State) (n : Nat) : Carries s s n := ⟨rfl, _, _, _, rfl⟩

/-- A change of other things. -/
theorem Carries.frame {s u v : State} {n : Nat} (h : Carries s u n) (hm : v.hostMem = u.hostMem) (hq : v.queues = u.queues) : Carries s v n :=
  ⟨hm.trans h.hostMem, by rw [State.queue, hq]; exact h.queue⟩

theorem State.queue_setQueue_same (s : State) (n : Nat) (q : Queue) : (s.setQueue n q).queue n = q := Tab.get_put_same ..

theorem Carries.setQueue {s u : State} {n : Nat} (h : Carries s u n) {q : Queue}
    (hq : ∃ f w k, q = { u.queue n with fetching := f, waitFrom := w, skips := k }) : Carries s (u.setQueue n q) n := by
  refine ⟨h.hostMem, ?_⟩
  obtain ⟨f, w, k, rfl⟩ := hq
  obtain ⟨f', w', k', e⟩ := h.queue
  exact ⟨f, w, k, by rw [State.queue_setQueue_same, e]⟩

/-- The stores by which a ring packet retires, in their order. -/
def ringStores (q : Queue) (x : CmdDesc) (status cause : Nat) : List (Nat × List Byte) :=
  let noted := if status = 1 ∨ status = 5 then [] else
    [(q.desc.toNat + 17, [BitVec.ofNat 8 status, BitVec.ofNat 8 cause]), (q.desc.toNat + 20, bytesOfNat 4 ((q.fails.getD x.fails + 1) % 2 ^ 32))]
  [(x.slotAt x.rd + 56, bytesOfNat 8 (status + 256 * cause)), (x.slotAt x.rd, bytesOfNat 56 0)] ++ noted ++ [(q.desc.toNat + 12, bytesOfNat 4 (x.rd + 1))]

/-- Host memory after some stores of a queue. -/
def State.hostAfter (s : State) (q : Queue) (l : List (Nat × List Byte)) : List Host.Cell :=
  l.foldl (fun m e => Tab.setList m unlisted (hostKey q.pasid e.1) e.2) s.hostMem

/-- The happening by which F1 goes on once a retiring packet's stores are performed. -/
def retired (n : Nat) : Happening := { ev := .mapperBind, arg := { n := n, flag := true, m := 2 } }

section

variable {s u : State} {x : CmdDesc}

/-- The stores of a retiring packet of a queue in host memory, and what follows them. -/
theorem State.retireBy_host {n : Nat} (host : (u.queue n).host = true) (l : List (Nat × List Byte)) :
    u.retireBy n l = State.add { u with queues := (u.retireBy n l).queues, hostMem := u.hostAfter (u.queue n) l } [retired n] ∧
      (u.retireBy n l).queue n = { u.queue n with begun := some 0 } := by
  have e : u.retireBy n l = State.add { u.setQueue n { u.queue n with begun := some 0 } with hostMem := u.hostAfter (u.queue n) l } [retired n] := by
    rw [State.retireBy, State.queueStores, if_pos host]
    rfl
  exact ⟨by rw [e]; rfl, by rw [e]; exact State.queue_setQueue_same ..⟩

/-- A ring packet retires: its stores, and one happening more. -/
theorem State.retire_ring {n : Nat} (on : (u.queue n).state = 1) (host : (u.queue n).host = true) (point : (u.queue n).point.list = none)
    (desc : u.cmdDesc (u.queue n) = some x) (status cause : Nat) :
    u.retire n status cause = State.add { u with
      queues := (u.retire n status cause).queues
      hostMem := u.hostAfter (u.queue n) (ringStores (u.queue n) x status cause) } [retired n] ∧
      ∃ fails, (u.retire n status cause).queue n = { u.queue n with begun := some 0, fails := fails } := by
  have ring : u.retire n status cause = u.retireRing n status cause := by
    rw [State.retire, if_neg (by simp [on]), point]
  rw [ring, State.retireRing]
  simp only [desc, State.endStores]
  split
  next fine =>
    obtain ⟨e, q⟩ := State.retireBy_host (u := u) host (ringStores (u.queue n) x status cause)
    simp only [ringStores, if_pos fine] at e q ⊢
    exact ⟨e, _, q⟩
  next failed =>
    simp only [State.failStores, desc]
    have same : ((u.setQueue n { u.queue n with fails := some ((((u.queue n).fails.getD x.fails) + 1) % 2 ^ 32) }).queue n) =
      { u.queue n with fails := some ((((u.queue n).fails.getD x.fails) + 1) % 2 ^ 32) } := State.queue_setQueue_same ..
    obtain ⟨e, q⟩ := State.retireBy_host (u := u.setQueue n { u.queue n with fails := some ((((u.queue n).fails.getD x.fails) + 1) % 2 ^ 32) })
      (n := n) (by rw [same]; exact host) (ringStores (u.queue n) x status cause)
    rw [same] at e q
    simp only [ringStores, if_neg failed] at e q ⊢
    exact ⟨e, _, q⟩

/-- A descriptor in host memory rests on that memory and on where it lies. -/
theorem State.cmdDesc_host {q r : Queue} (mem : u.hostMem = s.hostMem) (host : q.host = true) (host' : r.host = true) (pasid : r.pasid = q.pasid)
    (desc : r.desc = q.desc) : u.cmdDesc r = s.cmdDesc q := by
  simp only [State.cmdDesc, host, host', if_true, mem, pasid, desc]

theorem Carries.desc (h : Carries s u s.arg.n) (k : InRing s x) : u.cmdDesc (u.queue s.arg.n) = some x := by
  obtain ⟨f, w, skips, e⟩ := h.queue
  rw [e]
  exact (State.cmdDesc_host h.hostMem k.host k.host rfl rfl).trans k.desc

/-- What retiring a ring packet does: its stores (R336), and the rest as it was, with one happening more. -/
structure Ends (s u t : State) (x : CmdDesc) (status cause : Nat) : Prop where
  retires : Retires s x status cause t
  agenda : t.agenda = u.agenda ++ [retired s.arg.n]
  ctxs : t.ctxs = u.ctxs
  skips : (t.queue s.arg.n).skips = (u.queue s.arg.n).skips

theorem Carries.ends (h : Carries s u s.arg.n) (k : InRing s x) (status cause : Nat) : Ends s u (u.retire s.arg.n status cause) x status cause := by
  obtain ⟨f, w, skips, e⟩ := h.queue
  obtain ⟨rest, fails, after⟩ := State.retire_ring (u := u) (x := x) (n := s.arg.n) (by rw [e]; exact k.enabled.1) (by rw [e]; exact k.host)
    (by rw [e]; exact k.point) (h.desc k) status cause
  refine ⟨⟨?_, ?_, ?_, ?_⟩, ?_, ?_, ?_⟩
  · rw [after]
  · rw [after, e]
  · rw [rest]
    exact State.underWay_add (List.mem_singleton_self _) ⟨rfl, rfl, rfl⟩
  · rw [rest, e]
    by_cases fine : status = 1 ∨ status = 5
    · simp only [State.add, State.hostAfter, h.hostMem, ringStores, if_pos fine, List.cons_append, List.nil_append, List.foldl_cons, List.foldl_nil]
    · simp only [State.add, State.hostAfter, h.hostMem, ringStores, if_neg fine, List.cons_append, List.nil_append, List.foldl_cons, List.foldl_nil]
  · rw [rest]; rfl
  · rw [rest]; rfl
  · rw [after]

theorem State.finishPacket_ring (u : State) {b : Args} (flag : b.flag = false) (status cause : Nat) :
    u.finishPacket b status cause = u.retire b.n status cause := by
  rw [State.finishPacket, flag]
  rfl

/-- The packet is begun: the queue is not fetching any more. -/
theorem begin_ring (k : InRing s x) : s.begin' s.arg = s.setQueue s.arg.n { s.queue s.arg.n with fetching := false } := by
  rw [State.begin', k.ring.1]
  rfl

theorem aside_begin (k : InRing s x) : s.Aside (s.begin' s.arg) := by
  rw [begin_ring k]
  exact (State.Aside.refl s).setQueue ..

theorem carries_begin (k : InRing s x) : Carries s (s.begin' s.arg) s.arg.n := by
  rw [begin_ring k]
  exact (Carries.refl ..).setQueue ⟨_, _, _, rfl⟩

/-- A packet that ends at once retires so. -/
theorem retires_begin (k : InRing s x) (status cause : Nat) : Retires s x status cause ((s.begin' s.arg).finishPacket s.arg status cause) := by
  rw [State.finishPacket_ring _ k.ring.1]
  exact ((carries_begin k).ends k status cause).retires

/-- A packet that ends once a walk is logged retires so. -/
theorem retires_noteWalk (k : InRing s x) (ctx va status cause : Nat) :
    Retires s x status cause (((s.begin' s.arg).noteWalk ctx va).finishPacket s.arg status cause) := by
  rw [State.finishPacket_ring _ k.ring.1]
  refine (Carries.ends ((carries_begin k).frame ?_ ?_) k status cause).retires
  · rw [State.noteWalk]; split <;> rfl
  · rw [State.noteWalk]; split <;> rfl

/-! ### Packets with a reserved bit set, and NOP (R336, R337) -/

theorem fieldsOk_of_reserved {p : Vec} (h : bits p 63 8 ≠ 0) (masks : List Nat) : fieldsOk p masks = false := by
  rw [fieldsOk, beq_false_of_ne h, Bool.false_and]

theorem retires_reserved (k : InRing s x) (h : bits s.arg.pkt 63 8 ≠ 0) :
    ∀ i ∈ [Instr.nop, .launchTask, .queueCopy, .signalStore, .signalAdd, .signalTrigger, .wait, .skipIf, .jump, .call, .returnList, .armTrigger,
        .snapshotCut, .setCeilings],
      (i = .nop → s.arg.m ≠ 2) → (i = .signalTrigger → s.arg.m ≠ 1 ∧ s.arg.m ≠ 2) → Does i s (Retires s x 2 0) := by
  have bad : ∀ masks, (!fieldsOk s.arg.pkt masks) = true := fun masks => by rw [fieldsOk_of_reserved h]; rfl
  have ends := retires_begin k 2 0
  intro i mem nop' trigger
  by_cases isNop : i = .nop
  · subst isNop
    refine ⟨_, rfl, ?_⟩
    simp only [nop, if_neg (nop' rfl), fieldsOk_of_reserved h]
    exact ends
  by_cases isTrigger : i = .signalTrigger
  · subst isTrigger
    refine ⟨_, rfl, ?_⟩
    simp only [signalTrigger, if_neg (trigger rfl).1, if_neg (trigger rfl).2, bad]
    exact ends
  simp only [List.mem_cons, List.not_mem_nil, isNop, isTrigger, or_false, false_or] at mem
  rcases mem with rfl | rfl | rfl | rfl | rfl | rfl | rfl | rfl | rfl | rfl | rfl | rfl
  all_goals
    refine ⟨_, rfl, ?_⟩
    simp only [launchTask, queueCopy, signalStore, signalAdd, wait, skipIf, jump, call, returnList, armTrigger, snapshotCut, setCeilings, bad, true_or,
      if_true]
    exact ends

theorem nop_ends (k : InRing s x) (new : s.arg.m ≠ 2) (fine : fieldsOk s.arg.pkt [] = true) : Retires s x 1 0 (nop s.arg s) := by
  rw [nop, if_neg new, if_pos fine]
  exact retires_begin k 1 0

theorem nop_after (k : InRing s x) (after : s.arg.m = 2) : Retires s x s.arg.h s.arg.d (nop s.arg s) := by
  rw [nop, if_pos after, State.finishPacket_ring _ k.ring.1]
  exact ((Carries.refl s _).ends k _ _).retires

/-! ### Packets that send one request (R223, R319, R337) -/

/-- A ring packet begun, with the next number as that of its request. -/
def State.numbered (s : State) : State := State.awaitPacket { s.begin' s.arg with uid := (s.begin' s.arg).uid + 1 } s.arg (s.begin' s.arg).uid

theorem numbered_eq (k : InRing s x) : s.numbered = State.setQueue { s.begin' s.arg with uid := (s.begin' s.arg).uid + 1 } s.arg.n
    { s.queue s.arg.n with fetching := false, begun := some s.uid } := by
  have queue : State.queue { s.begin' s.arg with uid := (s.begin' s.arg).uid + 1 } s.arg.n = { s.queue s.arg.n with fetching := false } := by
    rw [begin_ring k]
    exact State.queue_setQueue_same ..
  have number : (s.begin' s.arg).uid = s.uid := by rw [begin_ring k]; rfl
  rw [State.numbered, State.awaitPacket, if_neg (Nat.not_le.2 k.ring.2), if_neg (by rw [k.ring.1]; decide), queue, number]

theorem aside_numbered (k : InRing s x) : s.Aside s.numbered := by
  rw [numbered_eq k]
  exact ((aside_begin k).trans ⟨rfl⟩).setQueue ..

theorem begins_numbered (k : InRing s x) (c va d slots : Nat) (ev : Instr) (arg : Args) :
    Begins s c va d slots ev arg (s.numbered.post s.hub epUnit d c va slots ev arg) := by
  have queue : (s.numbered.post s.hub epUnit d c va slots ev arg).queue s.arg.n = { s.queue s.arg.n with fetching := false, begun := some s.uid } := by
    rw [(State.ships_post s.numbered s.hub epUnit d c va slots ev arg).rest, numbered_eq k]
    exact State.queue_setQueue_same ..
  refine ⟨by rw [queue], by rw [queue], s.numbered, rfl, ?_, ?_⟩
  · rw [numbered_eq k, begin_ring k]; rfl
  · rw [numbered_eq k, begin_ring k]; rfl

theorem uid_begin (k : InRing s x) : (s.begin' s.arg).uid = s.uid := by rw [begin_ring k]; rfl

/-- The priority that a LAUNCH_TASK gives its release: the packet's own, or the record's, 0 where that is not mapped readable (R319). -/
def launchPrio (s : State) (prio : Nat) : Prop :=
  (bit (dword s.arg.pkt 2) 36 = true ∧ prio = bits (dword s.arg.pkt 2) 35 32) ∨ (bit (dword s.arg.pkt 2) 36 = false ∧
    ((∃ l, s.readRange s.arg.c (dword s.arg.pkt 1).toNat 64 = .ok l ∧ prio = bits (dword (vecOf l) 0) 19 16) ∨
      (∃ code va, s.readRange s.arg.c (dword s.arg.pkt 1).toNat 64 = .bad code va ∧ code ≠ 0x10 ∧ prio = 0)))

/-- The release of a LAUNCH_TASK, with its request's number. -/
def launchRequest (s : State) (prio : Nat) : RelReq :=
  { id := s.uid, src := .firmware
    rel := { type := 1, prio := prio, ctx := s.arg.c, arg := (dword s.arg.pkt 2).setWidth 32, record := (dword s.arg.pkt 1).toNat } }

theorem launchTask_fields (fine : fieldsOk s.arg.pkt [m64, 0xF1FFFFFFFFF] = true) (aligned : (dword s.arg.pkt 1).toNat % 64 = 0)
    (die : bits (dword s.arg.pkt 2) 43 40 ≤ 7) : ¬((!fieldsOk s.arg.pkt [m64, 0xF1FFFFFFFFF]) = true ∨ (dword s.arg.pkt 1).toNat % 64 ≠ 0 ∨
      (7 < bits (dword s.arg.pkt 2) 43 40 ∧ bits (dword s.arg.pkt 2) 43 40 ≠ 15)) := by
  rw [fine]
  simp only [Bool.not_true, Bool.false_eq_true, false_or]
  omega

theorem launchTask_begins (k : InRing s x) (fine : fieldsOk s.arg.pkt [m64, 0xF1FFFFFFFFF] = true) (aligned : (dword s.arg.pkt 1).toNat % 64 = 0)
    (die : bits (dword s.arg.pkt 2) 43 40 ≤ 7) {prio : Nat} (h : launchPrio s prio) :
    launchTask s.arg s = s.numbered.post s.hub epUnit (bits (dword s.arg.pkt 2) 43 40) s.arg.c (dword s.arg.pkt 1).toNat 2 .releaseAccept
      { d := bits (dword s.arg.pkt 2) 43 40, rel := launchRequest s prio } := by
  have near : ¬bits (dword s.arg.pkt 2) 43 40 = 15 := by omega
  simp only [launchTask, if_neg (launchTask_fields fine aligned die), (aside_begin k).readRange, if_neg near, launchRequest, ← uid_begin k]
  rcases h with ⟨own, rfl⟩ | ⟨other, ⟨l, read, rfl⟩ | ⟨code, va, read, known, rfl⟩⟩
  · simp only [own, if_true]
    rw [← (aside_begin k).hub]
    rfl
  · simp only [other, read, Bool.false_eq_true, if_false]
    rw [← (aside_begin k).hub]
    rfl
  · simp only [other, read, Bool.false_eq_true, if_false]
    rw [← (aside_begin k).hub]
    split
    next e => cases e
    next e => exact absurd (RangeRead.bad.inj e).1 known
    · rfl

theorem launchTask_faults (k : InRing s x) (fine : fieldsOk s.arg.pkt [m64, 0xF1FFFFFFFFF] = true) (aligned : (dword s.arg.pkt 1).toNat % 64 = 0)
    (die : bits (dword s.arg.pkt 2) 43 40 ≤ 7) {va : Nat} (other : bit (dword s.arg.pkt 2) 36 = false)
    (read : s.readRange s.arg.c (dword s.arg.pkt 1).toNat 64 = .bad 0x10 va) : Retires s x 4 0x10 (launchTask s.arg s) := by
  simp only [launchTask, if_neg (launchTask_fields fine aligned die), (aside_begin k).readRange, other, read, Bool.false_eq_true, if_false]
  exact retires_begin k 4 0x10

/-- The request of a COPY (R223). -/
def copyRequest (s : State) (l : List Byte) : Req :=
  { id := s.uid, src := .firmware, ctx := s.arg.c, op := .copy (dword s.arg.pkt 1).toNat (vecOf l) }

theorem queueCopy_begins (k : InRing s x) {l : List Byte} (fine : fieldsOk s.arg.pkt [m64, m64] = true) (aligned : (dword s.arg.pkt 1).toNat % 64 = 0)
    (source : (dword s.arg.pkt 2).toNat % 64 = 0) (glob : region (dword s.arg.pkt 1).toNat = .glob)
    (open' : s.restricting s.arg.c (dword s.arg.pkt 1).toNat = false) (target : s.copyTarget s.arg.c (dword s.arg.pkt 1).toNat = none)
    (read : s.readRange s.arg.c (dword s.arg.pkt 2).toNat 64 = .ok l) :
    queueCopy s.arg s = s.numbered.post s.hub epUnit (s.homeOr s.arg.c (dword s.arg.pkt 1).toNat 0) s.arg.c (dword s.arg.pkt 1).toNat 5 .copyAppend
      { d := s.homeOr s.arg.c (dword s.arg.pkt 1).toNat 0, req := copyRequest s l } := by
  have fields : ¬((!fieldsOk s.arg.pkt [m64, m64]) = true ∨ (dword s.arg.pkt 1).toNat % 64 ≠ 0 ∨ (dword s.arg.pkt 2).toNat % 64 ≠ 0) := by
    rw [fine, aligned, source]
    decide
  have home : State.homeOr { s.begin' s.arg with uid := (s.begin' s.arg).uid + 1 } s.arg.c (dword s.arg.pkt 1).toNat 0 =
    s.homeOr s.arg.c (dword s.arg.pkt 1).toNat 0 := ((aside_begin k).trans ⟨rfl⟩).homeOr ..
  simp only [queueCopy, if_neg fields, (aside_begin k).restricting, open', (aside_begin k).copyTarget, glob, target, (aside_begin k).readRange, read,
    copyRequest, ← uid_begin k, Bool.false_eq_true, if_false, if_true]
  rw [← (aside_begin k).hub, ← home]
  rfl

/-- A SIGNAL names a doubleword on a page mapped writable to memory, neither chained nor a device's (R337). -/
structure Signals (s : State) (l : Leaf) : Prop where
  fine : fieldsOk s.arg.pkt [m64, m64, 3] = true
  aligned : (dword s.arg.pkt 1).toNat % 8 = 0
  glob : region (dword s.arg.pkt 1).toNat = .glob
  opened : s.restricting s.arg.c (dword s.arg.pkt 1).toNat = false
  target : s.copyTarget s.arg.c (dword s.arg.pkt 1).toNat = none
  leaf : s.leaf s.arg.c (dword s.arg.pkt 1).toNat = some l
  plain : l.cls ≠ 3 ∧ l.cls ≠ 4

theorem State.hubStore_memory {q : Req} {va : Nat} {l : Leaf} (glob : region va = .glob) (leaf : u.leaf q.ctx va = some l) (plain : l.cls ≠ 3 ∧ l.cls ≠ 4)
    (bytes : Tab Byte) : u.hubStore q va bytes =
      u.post u.hub epUnit (l.home va) q.ctx va (writeSlots bytes) .homeStore { d := l.home va, req := q } := by
  simp only [State.hubStore, glob, leaf, plain.1, plain.2, reduceCtorEq, if_false]

theorem State.hubAtomic_memory {q : Req} {va : Nat} {l : Leaf} (glob : region va = .glob) (leaf : u.leaf q.ctx va = some l)
    (plain : l.cls ≠ 3 ∧ l.cls ≠ 4) : u.hubAtomic q va = u.post u.hub epUnit (l.home va) q.ctx va 2 .atomicExecute { d := l.home va, req := q } := by
  simp only [State.hubAtomic, glob, leaf, plain.1, plain.2, reduceCtorEq, if_false]

/-- The bytes that a SIGNAL stores. -/
def signalBytes (s : State) : Tab Byte := placed (dword s.arg.pkt 1).toNat (bytesOfNat 8 (dword s.arg.pkt 2).toNat)

/-- The request of a SIGNAL that stores. -/
def storeRequest (s : State) : Req := { id := s.uid, src := .firmware, ctx := s.arg.c, op := .store (signalBytes s) true false none }

/-- The request of a SIGNAL that adds. -/
def addRequest (s : State) : Req :=
  { id := s.uid, src := .firmware, ctx := s.arg.c, op := .atomic (dword s.arg.pkt 1).toNat 8 (.int 0) (dword s.arg.pkt 2) 0 2 .reg }

theorem signalStore_malformed (k : InRing s x) (op : bits (dword s.arg.pkt 3) 1 0 ≠ 0) : Retires s x 2 0 (signalStore s.arg s) := by
  simp only [signalStore, op, ne_eq, not_false_eq_true, true_or, or_true, if_true]
  exact retires_begin k 2 0

section

variable {l : Leaf} (g : Signals s l)
include g

theorem signalStore_eq (k : InRing s x) (op : bits (dword s.arg.pkt 3) 1 0 = 0) :
    signalStore s.arg s = s.numbered.hubStore (storeRequest s) (dword s.arg.pkt 1).toNat (signalBytes s) := by
  have fields : ¬((!fieldsOk s.arg.pkt [m64, m64, 3]) = true ∨ bits (dword s.arg.pkt 3) 1 0 ≠ 0 ∨ (dword s.arg.pkt 1).toNat % 8 ≠ 0) := by
    rw [g.fine, op, g.aligned]
    decide
  simp only [signalStore, if_neg fields, (aside_begin k).restricting, g.opened, (aside_begin k).copyTarget, g.target, storeRequest, ← uid_begin k,
    Bool.false_eq_true, if_false]
  rfl

theorem signalAdd_eq (k : InRing s x) : signalAdd s.arg s = s.numbered.hubAtomic (addRequest s) (dword s.arg.pkt 1).toNat := by
  have fields : ¬((!fieldsOk s.arg.pkt [m64, m64, 3]) = true ∨ (dword s.arg.pkt 1).toNat % 8 ≠ 0) := by
    rw [g.fine, g.aligned]
    decide
  simp only [signalAdd, if_neg fields, (aside_begin k).restricting, g.opened, (aside_begin k).copyTarget, g.target, addRequest, ← uid_begin k,
    Bool.false_eq_true, if_false]
  rfl

theorem signalStore_begins (k : InRing s x) (op : bits (dword s.arg.pkt 3) 1 0 = 0) :
    Begins s s.arg.c (dword s.arg.pkt 1).toNat (l.home (dword s.arg.pkt 1).toNat) (writeSlots (signalBytes s)) .homeStore
      { d := l.home (dword s.arg.pkt 1).toNat, req := storeRequest s } (signalStore s.arg s) := by
  have page : s.numbered.leaf (storeRequest s).ctx (dword s.arg.pkt 1).toNat = some l := ((aside_numbered k).leaf ..).trans g.leaf
  rw [signalStore_eq g k op, State.hubStore_memory g.glob page g.plain, (aside_numbered k).hub]
  exact begins_numbered k ..

theorem signalAdd_begins (k : InRing s x) :
    Begins s s.arg.c (dword s.arg.pkt 1).toNat (l.home (dword s.arg.pkt 1).toNat) 2 .atomicExecute
      { d := l.home (dword s.arg.pkt 1).toNat, req := addRequest s } (signalAdd s.arg s) := by
  have page : s.numbered.leaf (addRequest s).ctx (dword s.arg.pkt 1).toNat = some l := ((aside_numbered k).leaf ..).trans g.leaf
  rw [signalAdd_eq g k, State.hubAtomic_memory g.glob page g.plain, (aside_numbered k).hub]
  exact begins_numbered k ..

end

/-! ### Packets of triggers (R337, R340) -/

/-- t is s with other contexts and happenings. -/
structure State.Sums (s t : State) : Prop where
  rest : t = { s with ctxs := t.ctxs, agenda := t.agenda }

theorem State.Sums.refl (s : State) : s.Sums s := ⟨rfl⟩

theorem State.Sums.trans {s t u : State} (h : s.Sums t) (k : t.Sums u) : s.Sums u := ⟨by rw [k.rest, h.rest]⟩

theorem State.Sums.evalTrigger {s t : State} (h : s.Sums t) (c tag : Nat) : s.Sums (t.evalTrigger c tag) := by
  refine h.trans ?_
  simp only [State.evalTrigger]
  split
  · split <;> exact ⟨rfl⟩
  · exact .refl _

theorem State.Sums.sumTag {s t : State} (h : s.Sums t) (c : Nat) (mine : List (Nat × Nat × Option Word)) (tag : Nat) : s.Sums (t.sumTag c mine tag) := by
  have evaluated : s.Sums (if ((mine.filter fun e => e.1 == tag).map (·.2.2)).contains none then t.evalTrigger c tag else t) := by
    split
    · exact h.evalTrigger c tag
    · exact h
  simp only [State.sumTag]
  split
  · exact evaluated
  · exact (evaluated.trans ⟨rfl⟩).evalTrigger c tag

theorem State.Sums.foldl {α : Type} {s t : State} (h : s.Sums t) (f : State → α → State) (hf : ∀ (u : State) a, s.Sums u → s.Sums (f u a))
    (l : List α) : s.Sums (l.foldl f t) :=
  List.foldlRecOn (motive := fun u : State => s.Sums u) l f h fun u hu a _ => hf u a hu

theorem State.sums_sumTriggers (s : State) (c : Nat) : s.Sums (s.sumTriggers c) := by
  refine (State.Sums.refl s).foldl _ (fun u clock hu => ?_) _
  rw [State.sumClock_eq]
  exact (hu.trans ⟨rfl⟩).foldl _ (fun v tag hv => hv.sumTag ..) _

theorem State.Sums.carries {s t : State} (h : s.Sums t) (n : Nat) : Carries s t n := (Carries.refl s n).frame (by rw [h.rest]) (by rw [h.rest])

theorem State.Sums.inRing {t : State} (h : s.Sums t) (k : InRing s x) : InRing t x := by
  obtain ⟨ring, enabled, host, point, desc, alone⟩ := k
  have desc' : t.cmdDesc (s.queue s.arg.n) = some x := (State.cmdDesc_host (by rw [h.rest]) host host rfl rfl).trans desc
  rw [h.rest] at desc' ⊢
  exact ⟨ring, enabled, host, point, desc', alone⟩

theorem signalTrigger_after (k : InRing s x) (after : s.arg.m = 2) : Retires (s.sumTriggers s.arg.c) x 1 0 (signalTrigger s.arg s) := by
  have arg : (s.sumTriggers s.arg.c).arg = s.arg := by rw [(s.sums_sumTriggers s.arg.c).rest]
  have ends := ((Carries.refl (s.sumTriggers s.arg.c) _).ends ((s.sums_sumTriggers s.arg.c).inRing k) 1 0).retires
  rw [signalTrigger, if_neg (by omega), if_pos after, State.finishPacket_ring _ k.ring.1]
  rwa [arg] at ends

/-- Something came to a trigger, and the packet ends once that has been evaluated. -/
structure Touches (s t : State) : Prop where
  hostMem : t.hostMem = s.hostMem
  retired : (t.queue s.arg.n).retired = (s.queue s.arg.n).retired
  sums : ∃ h ∈ t.agenda, h.ev = .signalTrigger ∧ h.arg.c = s.arg.c ∧ h.arg.m = 1 ∧ h.due = s.clock + 1
  after : ∃ h ∈ t.agenda, h.ev = .signalTrigger ∧ h.arg = { s.arg with m := 2 } ∧ h.due = s.clock + 1

/-- A trigger is touched by the packet in hand. -/
def State.touched (u : State) (a : Args) (tag : Nat) (v : Option Word) : State := (u.touchTrigger a.c tag v).afterTrigger a

theorem Carries.touches (h : Carries s u s.arg.n) (clock : u.clock = s.clock) (tag : Nat) (v : Option Word) : Touches s (u.touched s.arg tag v) := by
  obtain ⟨f, w, skips, e⟩ := h.queue
  refine ⟨h.hostMem, ?_, ?_, ?_⟩
  · exact (congrArg Queue.retired e : (u.queue s.arg.n).retired = _)
  · exact ⟨_, List.mem_append_left _ (List.mem_append_right _ (List.mem_singleton_self _)), rfl, rfl, rfl, congrArg (· + 1) clock⟩
  · exact ⟨_, List.mem_append_right _ (List.mem_singleton_self _), rfl, rfl, congrArg (· + 1) clock⟩

theorem State.touched_ctx (u : State) (a : Args) (tag : Nat) (v : Option Word) :
    (u.touched a tag v).ctx a.c = { u.ctx a.c with sums := (u.ctx a.c).sums ++ [(tag, u.clock, v)] } := State.setCtx_same ..

theorem signalTrigger_adds (fine : fieldsOk s.arg.pkt [0xFF, m64, 3] = true) (new : s.arg.m ≠ 1) (new' : s.arg.m ≠ 2) :
    signalTrigger s.arg s = (s.begin' s.arg).touched s.arg (dword s.arg.pkt 1).toNat (some (dword s.arg.pkt 2)) := by
  rw [signalTrigger, if_neg new, if_neg new']
  simp only [fine, Bool.not_true, Bool.false_eq_true, if_false]
  rfl

/-- An arming of the packet's tag came in this clock. -/
def rearmed (s : State) (tag : Nat) : Bool := (s.ctx s.arg.c).sums.any fun e => e.1 == tag && e.2.2.isNone

/-- The trigger of the packet's tag, evaluated where it was armed in this clock already. -/
def State.beforeArming (s : State) (tag : Nat) : State := if rearmed s tag then (s.begin' s.arg).evalTrigger s.arg.c tag else s.begin' s.arg

/-- A trigger armed with a packet. -/
def Trigger.arm (g : Trigger) (a : Args) (p : Vec) : Trigger := { g with armed := true, threshold := dword a.pkt 3, pkt := p, queue := a.n }

/-- The trigger of a tag armed with a packet. -/
def State.rearm (u : State) (a : Args) (tag : Nat) (p : Vec) : State :=
  u.setCtx a.c { u.ctx a.c with triggers := Tab.put (u.ctx a.c).triggers tag ((u.trigger a.c tag).arm a p) }

theorem State.sumTriggers_none {c : Nat} (h : ∀ e ∈ (s.ctx c).sums, s.clock ≤ e.2.1) : s.sumTriggers c = s := by
  have none' : (((s.ctx c).sums.map fun e => e.2.1).filter fun k => decide (k < s.clock)) = [] := by
    refine List.filter_eq_nil_iff.2 fun k hk => ?_
    obtain ⟨e, he, rfl⟩ := List.mem_map.1 hk
    simpa using h e he
  rw [State.sumTriggers, none']
  rfl

theorem armTrigger_eq (k : InRing s x) {l : List Byte} (fine : fieldsOk s.arg.pkt [m64, 0xFF, m64] = true) (some' : dword s.arg.pkt 3 ≠ 0)
    (read : s.readRange s.arg.c (dword s.arg.pkt 1).toNat 64 = .ok l) (low : 2 ≤ bits (vecOf l) 7 0) (high : bits (vecOf l) 7 0 ≤ 5)
    (settled : ∀ e ∈ (s.ctx s.arg.c).sums, s.clock ≤ e.2.1) :
    armTrigger s.arg s = ((s.beforeArming (bits (dword s.arg.pkt 2) 7 0)).rearm s.arg (bits (dword s.arg.pkt 2) 7 0) (vecOf l)).touched s.arg
      (bits (dword s.arg.pkt 2) 7 0) none := by
  have sums : (s.begin' s.arg).sumTriggers s.arg.c = s.begin' s.arg := by
    refine State.sumTriggers_none ?_
    rw [(aside_begin k).ctx, (aside_begin k).rest]
    exact settled
  have kind : ¬(bits (vecOf l) 7 0 < 2 ∨ 5 < bits (vecOf l) 7 0) := by omega
  simp only [armTrigger, fine, some', Bool.not_true, Bool.false_eq_true, false_or, if_false, (aside_begin k).readRange, read, if_neg kind, sums,
    (aside_begin k).ctx]
  rfl

theorem trigger_begin (k : InRing s x) (tag : Nat) : (s.begin' s.arg).trigger s.arg.c tag = s.trigger s.arg.c tag := by
  rw [State.trigger, (aside_begin k).ctx]
  rfl

theorem sums_beforeArming (k : InRing s x) (tag : Nat) : (s.begin' s.arg).Sums (s.beforeArming tag) ∧
    ((s.beforeArming tag).ctx s.arg.c).sums = (s.ctx s.arg.c).sums := by
  have same : ((s.begin' s.arg).ctx s.arg.c).sums = (s.ctx s.arg.c).sums := by rw [(aside_begin k).ctx]
  rw [State.beforeArming]
  split
  · exact ⟨(State.Sums.refl _).evalTrigger .., (State.sums_evalTrigger ..).trans same⟩
  · exact ⟨.refl _, same⟩

theorem State.trigger_rearm (u : State) (a : Args) (tag : Nat) (p : Vec) : (u.rearm a tag p).trigger a.c tag = (u.trigger a.c tag).arm a p := by
  rw [State.trigger, State.rearm, State.setCtx_same]
  exact Tab.get_put_same ..

/-- What an arming leaves: the trigger armed, and what came to it noted for its clock. -/
theorem armTrigger_arms (k : InRing s x) (tag : Nat) (p : Vec) :
    Touches s (((s.beforeArming tag).rearm s.arg tag p).touched s.arg tag none) ∧
    ((((s.beforeArming tag).rearm s.arg tag p).touched s.arg tag none).ctx s.arg.c).sums = (s.ctx s.arg.c).sums ++ [(tag, s.clock, none)] ∧
    (((s.beforeArming tag).rearm s.arg tag p).touched s.arg tag none).trigger s.arg.c tag = ((s.beforeArming tag).trigger s.arg.c tag).arm s.arg p := by
  obtain ⟨evaluated, sums⟩ := sums_beforeArming k tag
  have clock : (s.beforeArming tag).clock = s.clock := by rw [evaluated.rest, (aside_begin k).rest]
  have carries : Carries s ((s.beforeArming tag).rearm s.arg tag p) s.arg.n :=
    (carries_begin k).frame (by rw [evaluated.rest]; rfl) (by rw [evaluated.rest]; rfl)
  refine ⟨carries.touches clock tag none, ?_, ?_⟩
  · rw [State.touched_ctx, State.rearm, State.setCtx_same]
    exact congrArg₂ (fun l n => l ++ [(tag, n, none)]) sums clock
  · rw [State.trigger, State.touched_ctx]
    exact State.trigger_rearm ..

theorem beforeArming_still (k : InRing s x) {tag : Nat} (h : rearmed s tag = false ∨ ¬(s.trigger s.arg.c tag).fires) :
    (s.beforeArming tag).trigger s.arg.c tag = s.trigger s.arg.c tag := by
  rw [State.beforeArming]
  split
  next again =>
    have still : ¬((s.begin' s.arg).trigger s.arg.c tag).fires := by
      rw [trigger_begin k]
      exact h.resolve_left (by rw [again]; decide)
    rw [State.evalTrigger_still still, trigger_begin k]
  · exact trigger_begin k tag

theorem beforeArming_fires (k : InRing s x) {tag : Nat} (again : rearmed s tag = true) (fires : (s.trigger s.arg.c tag).fires) :
    (s.beforeArming tag).trigger s.arg.c tag = (s.trigger s.arg.c tag).spent ∧
    ∀ ev, packetStep (s.trigger s.arg.c tag).pkt = some ev → firedPacket s.arg.c (s.trigger s.arg.c tag) ev ∈ (s.beforeArming tag).agenda := by
  rw [← trigger_begin k] at fires ⊢
  rw [State.beforeArming, if_pos again]
  refine ⟨State.trigger_evalTrigger_fires fires, fun ev step => ?_⟩
  rw [(State.evalTrigger_fires fires).2 ev step]
  exact List.mem_append_right _ (List.mem_singleton_self _)

end

end Sys2Proof.Machine
end

section

/-! # Lists, ceilings, and packets that wait (O55) -/

namespace Sys2Proof.Machine

open Sys2Proof.Safety

section

variable {s u : State} {x : CmdDesc} (k : InRing s x)
include k

theorem queue_begin : (s.begin' s.arg).queue s.arg.n = { s.queue s.arg.n with fetching := false } := by
  rw [begin_ring k]
  exact State.queue_setQueue_same ..

theorem point_begin : ((s.begin' s.arg).queue s.arg.n).point.list = none := by
  rw [queue_begin k]
  exact k.point

/-! ### Command lists (R339) -/

/-- A JUMP or CALL whose list can be read, or whose fault is a list's. -/
structure Enters (s : State) : Prop where
  fine : fieldsOk s.arg.pkt [m64] = true
  aligned : (dword s.arg.pkt 1).toNat % 64 = 0
  opened : s.restricting s.arg.c (dword s.arg.pkt 1).toNat = false

omit k in
theorem Enters.fields (e : Enters s) : ¬((!fieldsOk s.arg.pkt [m64]) = true ∨ (dword s.arg.pkt 1).toNat % 64 ≠ 0) := by
  rw [e.fine, e.aligned]
  decide

theorem list_faults (e : Enters s) {code : Nat} (fault : s.listFault s.arg.c (dword s.arg.pkt 1).toNat = some code) :
    ∀ i ∈ [Instr.jump, .call], Does i s (Retires s x 4 code) := by
  have ends := retires_noteWalk k s.arg.c (dword s.arg.pkt 1).toNat 4 code
  simp only [List.forall_mem_cons, List.not_mem_nil, IsEmpty.forall_iff, implies_true, and_true]
  refine ⟨⟨_, rfl, ?_⟩, ⟨_, rfl, ?_⟩⟩
  · simp only [jump, if_neg e.fields, (aside_begin k).restricting, e.opened, (aside_begin k).listFault, fault, Bool.false_eq_true, if_false]
    exact ends
  · simp only [call, if_neg e.fields, (aside_begin k).restricting, e.opened, (aside_begin k).listFault, fault, Bool.false_eq_true, if_false]
    exact ends

/-- The execution point of a ring packet that enters a list. -/
def entry (s : State) (x : CmdDesc) : Point := { list := some (dword s.arg.pkt 1).toNat, stack := [], ret := (x.rd + 1) % 2 ^ 32 }

theorem nextSlot_begin : (s.begin' s.arg).nextSlot s.arg.n = (x.rd + 1) % 2 ^ 32 := by
  rw [State.nextSlot, (carries_begin k).desc k]

theorem jump_enters (e : Enters s) (fine : s.listFault s.arg.c (dword s.arg.pkt 1).toNat = none) :
    jump s.arg s = (s.begin' s.arg).goTo s.arg.n (entry s x) := by
  simp only [jump, if_neg e.fields, (aside_begin k).restricting, e.opened, (aside_begin k).listFault, fine, point_begin k, nextSlot_begin k,
    Option.isSome_none, Bool.false_eq_true, if_false]
  rfl

theorem call_enters (e : Enters s) (fine : s.listFault s.arg.c (dword s.arg.pkt 1).toNat = none) :
    call s.arg s = (s.begin' s.arg).goTo s.arg.n (entry s x) := by
  simp only [call, if_neg e.fields, (aside_begin k).restricting, e.opened, (aside_begin k).listFault, fine, point_begin k, nextSlot_begin k,
    Bool.false_eq_true, if_false]
  rfl

/-- The execution point moves, and F1 goes on there. -/
theorem goTo_begin (p : Point) :
    (((s.begin' s.arg).goTo s.arg.n p).queue s.arg.n).point = p ∧ (((s.begin' s.arg).goTo s.arg.n p).queue s.arg.n).retired = (s.queue s.arg.n).retired ∧
    ((s.begin' s.arg).goTo s.arg.n p).hostMem = s.hostMem ∧
    UnderWay ((s.begin' s.arg).goTo s.arg.n p) .mapperBind fun b => b.n = s.arg.n ∧ b.flag = true := by
  have goes : (s.begin' s.arg).goTo s.arg.n p = ((s.begin' s.arg).setQueue s.arg.n { (s.begin' s.arg).queue s.arg.n with point := p }).add
      [{ ev := .mapperBind, arg := { n := s.arg.n, flag := true } }] := by
    rw [State.goTo, point_begin k]
    rfl
  have queue : (((s.begin' s.arg).goTo s.arg.n p).queue s.arg.n) = { s.queue s.arg.n with fetching := false, point := p } := by
    rw [goes, queue_begin k]
    exact State.queue_setQueue_same ..
  refine ⟨by rw [queue], by rw [queue], ?_, ?_⟩
  · rw [goes]
    exact (aside_begin k).hostMem
  · rw [goes]
    exact State.underWay_add (List.mem_singleton_self _) ⟨rfl, rfl⟩

theorem returnList_ring : Retires s x 2 0 (returnList s.arg s) := by
  simp only [returnList, point_begin k, Option.isNone_none, or_true, if_true]
  exact retires_begin k 2 0

/-! ### SET_CEILINGS (R99) -/

theorem setCeilings_fails {l : List Byte} (fine : fieldsOk s.arg.pkt [m64] = true) (aligned : (dword s.arg.pkt 1).toNat % 512 = 0)
    (read : s.readRange s.arg.c (dword s.arg.pkt 1).toNat 512 = .ok l) {e : Nat} (bad : (s.ctx s.arg.c).ceilTable l = .error e) :
    Retires s x 3 (e + 1) (setCeilings s.arg s) ∧ (setCeilings s.arg s).ctx s.arg.c = s.ctx s.arg.c := by
  have ends := (carries_begin k).ends k 3 (e + 1)
  simp only [setCeilings, fine, aligned, (aside_begin k).readRange, read, (aside_begin k).ctx, bad, Bool.not_true, Bool.false_eq_true, ne_eq,
    not_true_eq_false, or_self, if_false, State.finishPacket_ring _ k.ring.1]
  exact ⟨ends.retires, by rw [State.ctx, ends.ctxs]; exact (aside_begin k).ctx _⟩

theorem setCeilings_takes {l : List Byte} (fine : fieldsOk s.arg.pkt [m64] = true) (aligned : (dword s.arg.pkt 1).toNat % 512 = 0)
    (read : s.readRange s.arg.c (dword s.arg.pkt 1).toNat 512 = .ok l) {tb : Tab Word} (table : (s.ctx s.arg.c).ceilTable l = .ok tb) :
    Retires s x 1 0 (setCeilings s.arg s) ∧ (setCeilings s.arg s).ctx s.arg.c = { s.ctx s.arg.c with ceilings := tb } := by
  have taken : Carries s ((s.begin' s.arg).setCtx s.arg.c { s.ctx s.arg.c with ceilings := tb }) s.arg.n := (carries_begin k).frame rfl rfl
  have ends := taken.ends k 1 0
  simp only [setCeilings, fine, aligned, (aside_begin k).readRange, read, (aside_begin k).ctx, table, Bool.not_true, Bool.false_eq_true, ne_eq,
    not_true_eq_false, or_self, if_false, State.finishPacket_ring _ k.ring.1]
  exact ⟨ends.retires, by rw [State.ctx, ends.ctxs]; exact State.setCtx_same ..⟩

/-! ### The load of a WAIT or SKIP_IF (R337) -/

omit k

section

variable {a : Args} (ev : Instr)

theorem packetLoad_unanswered (asked : a.m ≠ 0) (none' : Tab.find u.answers a.m = none) : u.packetLoad a ev = (u.repeatPacket a ev, none) := by
  simp only [State.packetLoad, asked, none', ne_eq, not_false_eq_true, if_true]

theorem packetLoad_answered (asked : a.m ≠ 0) {v : Word} (answer : Tab.find u.answers a.m = some (v, 0)) :
    u.packetLoad a ev = ({ u with answers := Tab.del u.answers a.m }, some v) := by
  simp only [State.packetLoad, asked, answer, ne_eq, not_false_eq_true, if_true]

theorem packetLoad_failed (asked : a.m ≠ 0) {v : Word} {code : Nat} (bad : code ≠ 0) (answer : Tab.find u.answers a.m = some (v, code)) :
    u.packetLoad a ev = (State.finishPacket { u with answers := Tab.del u.answers a.m } a 4 code, none) := by
  simp only [State.packetLoad, asked, answer, bad, ne_eq, not_false_eq_true, if_true, if_false]

/-- The load of another module's doubleword: asked of it, and the packet tried again. -/
def State.askPeer (u : State) (a : Args) : State :=
  State.sendRemote { u with uid := u.uid + 1 } u.hub (dword a.pkt 1).toNat
    { id := u.uid, src := .firmware, ctx := a.c, op := .load (dword a.pkt 1).toNat 8 true }

theorem packetLoad_peer (new : a.m = 0) (peer : region (dword a.pkt 1).toNat = .peerWindow) (valid : bit (peerEntry u a.c (dword a.pkt 1).toNat) 0 = true)
    (readable : bit (peerEntry u a.c (dword a.pkt 1).toNat) 1 = true) :
    u.packetLoad a ev = ((u.askPeer a).repeatPacket { a with m := u.uid } ev, none) := by
  rw [State.packetLoad, if_neg (by simp [new]), if_pos ⟨peer, valid, readable⟩]
  rfl

theorem region_of_hubLoad {c va : Nat} {l : List Byte} (h : u.hubLoad c va = .ok l) : region va = .glob := by
  by_contra other
  rw [State.hubLoad, if_neg other] at h
  cases h

theorem packetLoad_loaded (new : a.m = 0) {l : List Byte} (load : u.hubLoad a.c (dword a.pkt 1).toNat = .ok l) :
    u.packetLoad a ev = (u, some (BitVec.ofNat 64 (natOfBytes l))) := by
  have glob := region_of_hubLoad load
  simp only [State.packetLoad, new, glob, load, ne_eq, not_true_eq_false, reduceCtorEq, false_and, if_false]

end

/-! ### WAIT (R335, R337) -/

/-- The state in which a WAIT loads: begun, with the clock of its first execution noted. -/
def State.waited (s : State) : State := (s.begin' s.arg).startWait s.arg

/-- A WAIT's timeout has run out. -/
def waitLate (s : State) : Bool := s.waited.waitOver s.arg ((s.waited.queue s.arg.n).waitFrom.getD s.waited.clock)

/-- The fields of a WAIT are in their ranges. -/
structure Waits (s : State) : Prop where
  fine : fieldsOk s.arg.pkt [m64, m64, 7, m64] = true
  code : bits (dword s.arg.pkt 3) 2 0 ≤ 5
  aligned : (dword s.arg.pkt 1).toNat % 8 = 0

theorem Waits.fields (w : Waits s) : ¬((!fieldsOk s.arg.pkt [m64, m64, 7, m64]) = true ∨ 5 < bits (dword s.arg.pkt 3) 2 0 ∨
    (dword s.arg.pkt 1).toNat % 8 ≠ 0) := by
  rw [w.fine, w.aligned]
  have := w.code
  simp only [Bool.not_true, Bool.false_eq_true, false_or]
  omega

theorem wait_none (w : Waits s) {t : State} (load : s.waited.packetLoad s.arg .wait = (t, none)) :
    wait s.arg s = if waitLate s && t.inHand s.arg.n then s.waited.finishPacket s.arg 6 0 else t := by
  rw [wait, if_neg w.fields]
  change (match s.waited.packetLoad s.arg .wait with | (t, none) => _ | (s, some v) => _) = _
  rw [load]
  rfl

/-- The condition of a WAIT or SKIP_IF for a loaded doubleword. -/
def packetHolds (s : State) (v : Word) : Bool := condHolds (bits (dword s.arg.pkt 3) 2 0) v (dword s.arg.pkt 2)

theorem wait_some (w : Waits s) {t : State} {v : Word} (load : s.waited.packetLoad s.arg .wait = (t, some v)) :
    wait s.arg s = if packetHolds s v then t.finishPacket { s.arg with m := 0 } 1 0
      else if waitLate s then t.finishPacket { s.arg with m := 0 } 6 0
      else if t.notified.isEmpty then t.repeatPacket { s.arg with m := 0 } .wait else t.add [{ ev := .mapperUnbind, arg := { n := s.arg.n } }] := by
  rw [wait, if_neg w.fields]
  change (match s.waited.packetLoad s.arg .wait with | (t, none) => _ | (s, some v) => _) = _
  rw [load]
  rfl

include k

theorem aside_waited : s.Aside s.waited := by
  simp only [State.waited, State.startWait]
  split
  · exact aside_begin k
  · split
    · exact (aside_begin k).setQueue ..
    · exact ((aside_begin k).setQueue ..).add _

theorem carries_waited : Carries s s.waited s.arg.n := by
  have noted := (carries_begin k).setQueue (q := { (s.begin' s.arg).queue s.arg.n with waitFrom := some (s.begin' s.arg).clock }) ⟨_, _, _, rfl⟩
  simp only [State.waited, State.startWait]
  split
  · exact carries_begin k
  · split
    · exact noted
    · exact noted.frame rfl rfl

theorem waited_again {from' : Nat} (h : (s.queue s.arg.n).waitFrom = some from') : s.waited = s.begin' s.arg := by
  rw [State.waited, State.startWait, if_pos (by rw [queue_begin k]; simp [h])]

/-- A WAIT that is executed again and has run out of time. -/
theorem waitLate_again {from' : Nat} (h : (s.queue s.arg.n).waitFrom = some from') (limit : dword s.arg.pkt 4 ≠ 0)
    (past : from' + (dword s.arg.pkt 4).toNat * 1700 ≤ s.clock) : waitLate s = true := by
  have clock : (s.begin' s.arg).clock = s.clock := by rw [(aside_begin k).rest]
  rw [waitLate, waited_again k h, queue_begin k]
  simp only [h, Option.getD_some, State.waitOver, waitClocks, clock, Bool.and_eq_true, bne_iff_ne, decide_eq_true_eq]
  exact ⟨limit, past⟩

/-- A WAIT that is executed first notes the clock, and its timeout comes. -/
theorem waited_first (h : (s.queue s.arg.n).waitFrom = none) : (s.waited.queue s.arg.n).waitFrom = some s.clock ∧
    (dword s.arg.pkt 4 ≠ 0 → UnderWay s.waited .waitTimeout fun b => b.n = s.arg.n ∧ b.m = s.clock) := by
  have clock : (s.begin' s.arg).clock = s.clock := by rw [(aside_begin k).rest]
  rw [State.waited, State.startWait, if_neg (by rw [queue_begin k]; simp [h]), clock]
  split
  next unlimited => exact ⟨congrArg Queue.waitFrom (State.queue_setQueue_same ..), fun limit => absurd unlimited limit⟩
  · exact ⟨congrArg Queue.waitFrom (State.queue_setQueue_same ..), fun _ => State.underWay_add (List.mem_singleton_self _) ⟨rfl, clock⟩⟩

theorem waitLate_first (h : (s.queue s.arg.n).waitFrom = none) : waitLate s = false := by
  have clock : s.waited.clock = s.clock := by rw [(aside_waited k).rest]
  rw [waitLate, (waited_first k h).1, clock]
  simp only [Option.getD_some, State.waitOver, waitClocks, clock, Bool.and_eq_false_iff, bne_eq_false_iff_eq, decide_eq_false_iff_not]
  by_cases limit : dword s.arg.pkt 4 = 0
  · exact .inl limit
  · have : (dword s.arg.pkt 4).toNat ≠ 0 := fun e => limit (BitVec.eq_of_toNat_eq e)
    exact .inr (by omega)

/-- Every happening of the queue's that is in hand was so before. -/
theorem inHand_waited : s.waited.inHand s.arg.n = s.inHand s.arg.n := by
  have agenda : (s.begin' s.arg).agenda = s.agenda := by rw [begin_ring k]; rfl
  simp only [State.waited, State.startWait]
  split
  · rw [State.inHand, agenda]; rfl
  · split
    · change (s.begin' s.arg).inHand s.arg.n = _
      rw [State.inHand, agenda]; rfl
    · change (List.any ((s.begin' s.arg).agenda ++ _) _) = _
      rw [agenda, List.any_append]
      simp [State.inHand]

theorem uid_waited : s.waited.uid = s.uid := by
  simp only [State.waited, State.startWait]
  split
  · exact uid_begin k
  · split <;> exact uid_begin k

theorem notified_waited : s.waited.notified = [] := by rw [(aside_waited k).rest]; exact k.alone

theorem answers_waited : s.waited.answers = s.answers := by rw [(aside_waited k).rest]

/-- A WAIT that ends retires its packet. -/
theorem retires_waited (m status cause : Nat) : Retires s x status cause (s.waited.finishPacket { s.arg with m := m } status cause) := by
  rw [State.finishPacket_ring _ (b := { s.arg with m := m }) k.ring.1]
  exact ((carries_waited k).ends k status cause).retires

variable (w : Waits s)
include w

theorem wait_peer (new : s.arg.m = 0) (first : (s.queue s.arg.n).waitFrom = none) (peer : region (dword s.arg.pkt 1).toNat = .peerWindow)
    (valid : bit (peerEntry s s.arg.c (dword s.arg.pkt 1).toNat) 0 = true) (readable : bit (peerEntry s s.arg.c (dword s.arg.pkt 1).toNat) 1 = true) :
    wait s.arg s = (s.waited.askPeer s.arg).repeatPacket { s.arg with m := s.uid } .wait := by
  rw [← (aside_waited k).peerEntry] at valid readable
  rw [wait_none w (packetLoad_peer .wait new peer valid readable), waitLate_first k first, uid_waited k]
  rfl

theorem wait_unanswered (asked : s.arg.m ≠ 0) (none' : Tab.find s.answers s.arg.m = none) {from' : Nat} (again : (s.queue s.arg.n).waitFrom = some from')
    (limit : dword s.arg.pkt 4 ≠ 0) (past : from' + (dword s.arg.pkt 4).toNat * 1700 ≤ s.clock) : Retires s x 6 0 (wait s.arg s) := by
  rw [← answers_waited k] at none'
  rw [wait_none w (packetLoad_unanswered .wait asked none'), waitLate_again k again limit past]
  have held : (s.waited.repeatPacket s.arg .wait).inHand s.arg.n = true := by
    simp [State.inHand, State.repeatPacket, State.add, packetOf, k.ring.1]
  rw [held]
  exact retires_waited k s.arg.m 6 0

theorem wait_answered (asked : s.arg.m ≠ 0) {v : Word} (answer : Tab.find s.answers s.arg.m = some (v, 0)) (holds : packetHolds s v = true) :
    Retires s x 1 0 (wait s.arg s) := by
  rw [← answers_waited k] at answer
  have ends := Carries.ends (u := { s.waited with answers := Tab.del s.waited.answers s.arg.m }) ((carries_waited k).frame rfl rfl) k 1 0
  rw [wait_some w (packetLoad_answered .wait asked answer), if_pos holds, State.finishPacket_ring _ (b := { s.arg with m := 0 }) k.ring.1]
  exact ends.retires

theorem wait_failed (asked : s.arg.m ≠ 0) {v : Word} {code : Nat} (bad : code ≠ 0) (idle : s.inHand s.arg.n = false)
    (answer : Tab.find s.answers s.arg.m = some (v, code)) : Retires s x 4 code (wait s.arg s) := by
  rw [← answers_waited k] at answer
  have ends := Carries.ends (u := { s.waited with answers := Tab.del s.waited.answers s.arg.m }) ((carries_waited k).frame rfl rfl) k 4 code
  rw [wait_none w (packetLoad_failed .wait asked bad answer), State.finishPacket_ring _ k.ring.1]
  have ended : (State.retire { s.waited with answers := Tab.del s.waited.answers s.arg.m } s.arg.n 4 code).inHand s.arg.n = false := by
    rw [State.inHand, ends.agenda, List.any_append]
    change (s.waited.inHand s.arg.n || _) = false
    rw [inHand_waited k, idle]
    rfl
  rw [ended, Bool.and_false, if_neg (by decide)]
  exact ends.retires

theorem wait_holds (new : s.arg.m = 0) {l : List Byte} (load : s.hubLoad s.arg.c (dword s.arg.pkt 1).toNat = .ok l)
    (holds : packetHolds s (BitVec.ofNat 64 (natOfBytes l)) = true) : Retires s x 1 0 (wait s.arg s) := by
  rw [wait_some w (packetLoad_loaded .wait new (((aside_waited k).hubLoad ..).trans load)), if_pos holds]
  exact retires_waited k 0 1 0

theorem wait_late (new : s.arg.m = 0) {l : List Byte} (load : s.hubLoad s.arg.c (dword s.arg.pkt 1).toNat = .ok l)
    (fails : packetHolds s (BitVec.ofNat 64 (natOfBytes l)) = false) {from' : Nat} (again : (s.queue s.arg.n).waitFrom = some from')
    (limit : dword s.arg.pkt 4 ≠ 0) (past : from' + (dword s.arg.pkt 4).toNat * 1700 ≤ s.clock) : Retires s x 6 0 (wait s.arg s) := by
  rw [wait_some w (packetLoad_loaded .wait new (((aside_waited k).hubLoad ..).trans load)), if_neg (by rw [fails]; decide),
    if_pos (waitLate_again k again limit past)]
  exact retires_waited k 0 6 0

theorem wait_repeats (new : s.arg.m = 0) {l : List Byte} (load : s.hubLoad s.arg.c (dword s.arg.pkt 1).toNat = .ok l)
    (fails : packetHolds s (BitVec.ofNat 64 (natOfBytes l)) = false) (first : (s.queue s.arg.n).waitFrom = none) :
    wait s.arg s = s.waited.repeatPacket s.arg .wait := by
  have same : { s.arg with m := 0 } = s.arg := by rw [← new]
  rw [wait_some w (packetLoad_loaded .wait new (((aside_waited k).hubLoad ..).trans load)), if_neg (by rw [fails]; decide),
    if_neg (by rw [waitLate_first k first]; decide), if_pos (by rw [notified_waited k]; rfl), same]

omit w

/-! ### SKIP_IF and WAIT_TIMEOUT (R337) -/

/-- The fields of a SKIP_IF are in their ranges. -/
structure Skips (s : State) : Prop where
  fine : fieldsOk s.arg.pkt [m64, m64, 0xFFFF0007, m64] = true
  code : bits (dword s.arg.pkt 3) 2 0 ≤ 5
  aligned : (dword s.arg.pkt 1).toNat % 8 = 0

omit k in
theorem Skips.fields (w : Skips s) : ¬((!fieldsOk s.arg.pkt [m64, m64, 0xFFFF0007, m64]) = true ∨ 5 < bits (dword s.arg.pkt 3) 2 0 ∨
    (dword s.arg.pkt 1).toNat % 8 ≠ 0) := by
  rw [w.fine, w.aligned]
  have := w.code
  simp only [Bool.not_true, Bool.false_eq_true, false_or]
  omega

theorem skipIf_eq (w : Skips s) (new : s.arg.m = 0) {l : List Byte} (load : s.hubLoad s.arg.c (dword s.arg.pkt 1).toNat = .ok l) :
    skipIf s.arg s = if packetHolds s (BitVec.ofNat 64 (natOfBytes l)) then
        ((s.begin' s.arg).setQueue s.arg.n { (s.begin' s.arg).queue s.arg.n with skips := bits (dword s.arg.pkt 3) 31 16 }).finishPacket s.arg 1 0
      else (s.begin' s.arg).finishPacket s.arg 1 0 := by
  have loaded := packetLoad_loaded .skipIf new (((aside_begin k).hubLoad ..).trans load)
  simp only [skipIf, if_neg w.fields, loaded]
  rfl

theorem skipIf_skips (w : Skips s) (new : s.arg.m = 0) {l : List Byte} (load : s.hubLoad s.arg.c (dword s.arg.pkt 1).toNat = .ok l)
    (holds : packetHolds s (BitVec.ofNat 64 (natOfBytes l)) = true) :
    Retires s x 1 0 (skipIf s.arg s) ∧ ((skipIf s.arg s).queue s.arg.n).skips = bits (dword s.arg.pkt 3) 31 16 := by
  have noted := (carries_begin k).setQueue (q := { (s.begin' s.arg).queue s.arg.n with skips := bits (dword s.arg.pkt 3) 31 16 }) ⟨_, _, _, rfl⟩
  have ends := noted.ends k 1 0
  rw [skipIf_eq k w new load, if_pos holds, State.finishPacket_ring _ k.ring.1]
  exact ⟨ends.retires, ends.skips.trans (by rw [State.queue_setQueue_same])⟩

theorem skipIf_goesOn (w : Skips s) (new : s.arg.m = 0) {l : List Byte} (load : s.hubLoad s.arg.c (dword s.arg.pkt 1).toNat = .ok l)
    (fails : packetHolds s (BitVec.ofNat 64 (natOfBytes l)) = false) :
    Retires s x 1 0 (skipIf s.arg s) ∧ ((skipIf s.arg s).queue s.arg.n).skips = (s.queue s.arg.n).skips := by
  have ends := (carries_begin k).ends k 1 0
  rw [skipIf_eq k w new load, if_neg (by rw [fails]; decide), State.finishPacket_ring _ k.ring.1]
  exact ⟨ends.retires, ends.skips.trans (by rw [queue_begin k])⟩

/-- The WAIT of a queue that is in hand. -/
def waitOf (n : Nat) (h : Happening) : Bool := h.ev == .wait && packetOf n h

theorem waitTimeout_ends (from' : (s.queue s.arg.n).waitFrom = some s.arg.m) (bound : (s.queue s.arg.n).slot ≠ none)
    (held : ∃ h ∈ s.agenda, h.ev = .wait ∧ packetOf s.arg.n h = true) :
    Retires s x 6 0 (waitTimeout s.arg s) ∧ ∀ h ∈ (waitTimeout s.arg s).agenda, ¬(h.ev = .wait ∧ packetOf s.arg.n h = true) := by
  have slot : (s.queue s.arg.n).slot.isSome = true := Option.isSome_iff_ne_none.2 bound
  have any : s.agenda.any (waitOf s.arg.n) = true := by
    obtain ⟨h, mem, wait', ours⟩ := held
    exact List.any_eq_true.2 ⟨h, mem, by simp [waitOf, wait', ours]⟩
  have dropped : Carries s { s with agenda := s.agenda.filter fun h => !waitOf s.arg.n h } s.arg.n := (Carries.refl ..).frame rfl rfl
  have ends := dropped.ends k 6 0
  have step : waitTimeout s.arg s = State.retire { s with agenda := s.agenda.filter fun h => !waitOf s.arg.n h } s.arg.n 6 0 := by
    rw [waitTimeout, if_pos ⟨from', slot, any⟩, State.finishPacket_ring _ k.ring.1]
    rfl
  rw [step]
  refine ⟨ends.retires, fun h mem => ?_⟩
  rw [ends.agenda] at mem
  rintro ⟨wait', ours⟩
  rcases List.mem_append.1 mem with old | new
  · have := List.of_mem_filter old
    simp [waitOf, wait', ours] at this
  · rw [List.mem_singleton.1 new] at wait'
    cases wait'

end

/-! ### The obligation -/

/-- What came to the triggers is evaluated (R340). -/
theorem does_sums {s : State} (sums : s.arg.m = 1) {p : State → Prop} (h : p (s.sumTriggers s.arg.c)) : Does .signalTrigger s p := by
  refine ⟨_, rfl, ?_⟩
  rwa [signalTrigger, if_pos sums]

/-- Settles O55: the triggers of a clock, then each packet by the lemma of its step. -/
theorem packetsRetire : Obligations.PacketsRetire := by
  unfold Obligations.PacketsRetire
  refine ⟨fun s => ⟨fun tag k l sums low past some' all => does_sums sums ?additions, fun tag k sums low past all => does_sums sums ?arming,
    fun i j k v w ei ej sums order low past all armedI reachedI stepI armedJ reachedJ stepJ =>
      does_sums sums (agenda_two order low past all armedI reachedI stepI armedJ reachedJ stepJ)⟩,
    fun s x k => ⟨fun i mem reserved => retires_reserved k reserved i mem, fun new fine => ⟨_, rfl, nop_ends k new fine⟩,
      fun after => ⟨_, rfl, nop_after k after⟩, fun fine aligned die => ⟨fun prio h => ⟨_, rfl, ?launch⟩, fun va other read =>
        ⟨_, rfl, launchTask_faults k fine aligned die other read⟩⟩, fun l fine aligned source glob opened target read => ⟨_, rfl, ?copy⟩,
      fun l fine aligned glob opened target leaf three four => ?signal, fun fine new new' => ⟨_, rfl, ?add⟩,
      fun after => ⟨_, rfl, signalTrigger_after k after⟩, fun l fine some' read low high settled => ⟨_, rfl, ?arm⟩, fun code aligned fine => ?wait,
      fun l code aligned new load => ⟨fun fine => ?loaded, fun fine => ?skip⟩, fun from' bound held => ⟨_, rfl, waitTimeout_ends k from' bound held⟩,
      ?listFault, ?listEntry,
      fun _ => ⟨_, rfl, returnList_ring k⟩, fun l fine aligned read => ⟨fun tb table => ⟨_, rfl, setCeilings_takes k fine aligned read table⟩,
        fun e bad => ⟨_, rfl, setCeilings_fails k fine aligned read bad⟩⟩⟩⟩
  case additions =>
    obtain ⟨none', other, fires, still⟩ := evaluates_additions low past some' all
    exact ⟨none', other, fires, still⟩
  case arming =>
    obtain ⟨none', other, fires, still⟩ := evaluates_arming low past all
    exact ⟨none', other, fires, still⟩
  case launch =>
    rw [launchTask_begins k fine aligned die h]
    exact begins_numbered k ..
  case copy =>
    rw [queueCopy_begins k fine aligned source glob opened target read]
    exact begins_numbered k ..
  case signal =>
    have g : Signals s l := ⟨fine, aligned, glob, opened, target, leaf, three, four⟩
    exact ⟨fun op => ⟨_, rfl, signalStore_begins g k op⟩, fun op => ⟨_, rfl, signalStore_malformed k op⟩, ⟨_, rfl, signalAdd_begins g k⟩⟩
  case add =>
    rw [signalTrigger_adds fine new new']
    have clock : (s.begin' s.arg).clock = s.clock := by rw [(aside_begin k).rest]
    obtain ⟨hostMem, retired, sums, after⟩ := (carries_begin k).touches clock (dword s.arg.pkt 1).toNat (some (dword s.arg.pkt 2))
    refine ⟨⟨hostMem, retired, sums, after⟩, ?_, ?_⟩
    · rw [State.touched_ctx, (aside_begin k).ctx, clock]
    · rw [State.touched_ctx, (aside_begin k).ctx]
  case arm =>
    rw [armTrigger_eq k fine some' read low high settled]
    obtain ⟨⟨hostMem, retired, sums, after⟩, noted, armed⟩ := armTrigger_arms k (bits (dword s.arg.pkt 2) 7 0) (vecOf l)
    refine ⟨⟨hostMem, retired, sums, after⟩, noted, fun still => armed.trans ?_, fun again fires => ⟨armed.trans ?_, fun ev step => ?_⟩⟩
    · rw [beforeArming_still k still]
      rfl
    · rw [(beforeArming_fires k again fires).1]
      rfl
    · exact ⟨_, List.mem_append_left _ (List.mem_append_left _ ((beforeArming_fires k again fires).2 ev step)), rfl, rfl⟩
  case wait =>
    have w : Waits s := ⟨fine, code, aligned⟩
    refine ⟨fun new first peer valid readable => ⟨_, rfl, ?_⟩,
      fun from' asked none' again limit past => ⟨_, rfl, wait_unanswered k w asked none' again limit past⟩,
      fun v asked answer holds => ⟨_, rfl, wait_answered k w asked answer holds⟩,
      fun v code asked bad idle answer => ⟨_, rfl, wait_failed k w asked bad idle answer⟩⟩
    rw [wait_peer k w new first peer valid readable]
    obtain ⟨noted, timeout⟩ := waited_first k first
    refine ⟨State.underWay_add (List.mem_singleton_self _) rfl, noted, fun limit => ?_, ?_⟩
    · obtain ⟨h, mem, is⟩ := timeout limit
      exact ⟨h, List.mem_append_left _ (List.mem_append_left _ mem), is⟩
    · exact ⟨_, List.mem_append_right _ (List.mem_singleton_self _), uid_waited k, rfl⟩
  case loaded =>
    have w : Waits s := ⟨fine, code, aligned⟩
    refine ⟨fun holds => ⟨_, rfl, wait_holds k w new load holds⟩, fun fails first limit => ⟨_, rfl, ?_⟩,
      fun from' fails again limit past => ⟨_, rfl, wait_late k w new load fails again limit past⟩⟩
    obtain ⟨noted, timeout⟩ := waited_first k first
    rw [wait_repeats k w new load fails first]
    exact ⟨noted, UnderWay.mono (State.persists_add ..) (timeout limit), State.underWay_add (List.mem_singleton_self _) rfl⟩
  case skip =>
    have w : Skips s := ⟨fine, code, aligned⟩
    exact ⟨fun holds => ⟨_, rfl, skipIf_skips k w new load holds⟩, fun fails => ⟨_, rfl, skipIf_goesOn k w new load fails⟩⟩
  case listFault => exact fun i mem code fine aligned opened fault => list_faults k ⟨fine, aligned, opened⟩ fault i mem
  case listEntry =>
    have enters := goTo_begin k (entry s x)
    intro i mem fine aligned opened sound
    have e : Enters s := ⟨fine, aligned, opened⟩
    simp only [List.mem_cons, List.not_mem_nil, or_false] at mem
    rcases mem with rfl | rfl
    · exact ⟨_, rfl, by rw [jump_enters k e sound]; exact enters⟩
    · exact ⟨_, rfl, by rw [call_enters k e sound]; exact enters⟩

end Sys2Proof.Machine
end

section
/-! # The statements about reset and about groups (O15, O50) -/

namespace Sys2Proof.Machine

open Sys2Proof.Safety

/-- Settles O15: every table of the reset state is empty. -/
theorem resetState : Obligations.ResetState := by
  unfold Obligations.ResetState
  exact ⟨fun _ => rfl, fun _ => rfl, fun _ _ => rfl, fun _ => ⟨rfl, rfl⟩, fun _ _ => rfl, rfl, rfl, rfl, fun _ => ⟨rfl, rfl, rfl⟩⟩

/-- A group of two nodes, whose only share (R307) is that of a ninth die, number 8; its node 0 waits for one decrement. -/
def ninthDieGroup : Group := { ctx := 0, block := 0, table := 0, nodes := [{ pred := 1 }, {}], weights := [0, 0, 0, 0, 0, 0, 0, 0, 1] }

/-- That decrement, with a reference (R305) whose field of the home, of four bits, reads 8. -/
def ninthDieDecrement : GroupMsg := { clock := 0, g := 0, ctx := 0, op := .gdec 0x80000000 1 }

/-- The reset state a clock later, with the group in slot 0 of a die 8, and its decrement, which reached it, to be applied now. -/
def ninthDieState : State :=
  { State.reset with
    clock := 1, arg := { d := 8, flag := true }, dies := [(8, { groups := [(0, ninthDieGroup)], groupIn := [ninthDieDecrement] })] }

theorem groupOf_ninthDieState : ninthDieState.groupOf 0 (updateRef ninthDieDecrement.op) = some (8, 0, ninthDieGroup) := rfl

theorem agenda_groupUpdate_ninthDieState : (groupUpdate ninthDieState.arg ninthDieState).agenda = [] := rfl

/-- Refutes O50: its clause on the updates of a clock bounds no home. The field of a reference that names the home has four bits (R305), so a group
may be kept by a die 8 that has a share of the issue; a node that reaches zero there is announced to dies 0 to 7 alone (R307, R312), and no issue
comes. -/
theorem not_releasesAndGroups : ¬ Obligations.ReleasesAndGroups := by
  unfold Obligations.ReleasesAndGroups
  rintro ⟨-, groups⟩
  obtain ⟨-, flush, -⟩ := groups ninthDieState ninthDieGroup ninthDieDecrement 0 0
  obtain ⟨decrement, -⟩ := flush (by decide) rfl rfl (by decide) rfl (by decide) groupOf_ninthDieState rfl
  obtain ⟨applied, -⟩ := decrement 0x80000000 1 rfl
  obtain ⟨t, ht, -, -, ready⟩ := applied (by decide) fun _ => by decide
  obtain ⟨⟨issue, under, -⟩, -⟩ := ready (by decide) (by decide)
  have e : t = groupUpdate ninthDieState.arg ninthDieState := by injection ht.symm
  rw [e, agenda_groupUpdate_ninthDieState] at under
  exact absurd under List.not_mem_nil

end Sys2Proof.Machine
end

section

/-! # Stores of firmware, and packets that end with them (O56)

A store that firmware sends changes what is under way and the log alone (`State.Sent`). A packet that makes one ends once it is performed
(`EndsAfter`, R313, R338). -/

namespace Sys2Proof.Machine

open Sys2Proof.Safety

/-! ### What firmware sends (R338) -/

/-- t is s with other happenings, links, ingress tables and log entries. -/
structure State.Sent (s t : State) : Prop where
  rest : t = { s with agenda := t.agenda, links := t.links, ingress := t.ingress, errlog := t.errlog }

theorem State.Ships.sent {s t : State} (h : s.Ships t) : s.Sent t := ⟨by rw [h.rest]⟩

theorem State.Sent.trans {s t u : State} (h : s.Sent t) (k : t.Sent u) : s.Sent u := ⟨by rw [k.rest, h.rest]⟩

section

variable (s : State)

theorem State.sent_lost (d : Nat) (q : Req) : s.Sent (s.lost d q) := by
  have noted : s.Sent (s.noteWalk q.ctx (opVa q.op)) := by
    rw [State.noteWalk]
    split <;> exact ⟨rfl⟩
  exact (noted.trans (State.ships_answer ..).sent).trans ⟨rfl⟩

theorem State.sent_toHead (d ep : Nat) (q : Req) (l : Leaf) : s.Sent (s.toHead d ep q l) := by
  rw [State.toHead]
  split
  · exact (State.ships_post ..).sent
  · exact (s.ships_add _).sent

theorem State.sent_deviceStore (d ep : Nat) (q : Req) (l : Leaf) (bytes : Tab Byte) : s.Sent (s.deviceStore d ep q l bytes) := by
  simp only [State.deviceStore]
  split
  · exact (State.ships_post ..).sent
  · exact (State.ships_post ..).sent
  · exact (State.ships_post ..).sent
  · exact (State.ships_answer ..).sent

theorem State.sent_fwSend (id c va : Nat) (l : List Byte) : s.Sent (s.fwSend id c va l) := by
  simp only [State.fwSend]
  split
  · exact s.sent_lost ..
  · split
    · exact s.sent_toHead ..
    · split
      · exact s.sent_deviceStore ..
      · exact (State.ships_post ..).sent

/-- One of firmware's stores numbered, with what follows it noted. -/
def State.noteStore (c : Nat) (after : List Happening) : State :=
  { s with uid := s.uid + 1, fwork := s.fwork ++ [{ id := s.uid, ctx := c, stores := [], after := after }] }

theorem State.fwStores_one (c va : Nat) (l : List Byte) (after : List Happening) :
    s.fwStores c [(va, l)] after = (s.noteStore c after).fwSend s.uid c va l := rfl

theorem State.sent_fwStores (c va : Nat) (l : List Byte) (after : List Happening) :
    (s.noteStore c after).Sent (s.fwStores c [(va, l)] after) := State.sent_fwSend ..

end

/-! ### A packet that ends once its store is performed (R338) -/

section

variable {s u : State} {x : CmdDesc} (k : InRing s x)

/-- The packet in hand is to end with a status and a cause once the store of number s.uid is performed. -/
def EndsAfter (s : State) (status cause : Nat) (t : State) : Prop :=
  (t.queue s.arg.n).begun = some 0 ∧ (t.queue s.arg.n).retired = (s.queue s.arg.n).retired ∧
  ∃ y ∈ t.fwork, y.ctx = s.arg.c ∧ y.id = s.uid ∧ y.stores = [] ∧
    y.after = [{ ev := .nop, arg := { s.arg with m := 2, h := status, d := cause } }]

/-- It goes on doing so while neither the queues nor firmware's stores change. -/
theorem EndsAfter.frame {status cause : Nat} {t v : State} (h : EndsAfter s status cause t) (queues : v.queues = t.queues) (fwork : v.fwork = t.fwork) :
    EndsAfter s status cause v := by
  rw [EndsAfter, State.queue, queues, fwork]
  exact h

/-- A packet begun whose end waits for one store of firmware, the next to be sent. -/
def State.ending (u : State) (a : Args) (status cause : Nat) : State :=
  (u.setQueue a.n { u.queue a.n with begun := some 0 }).noteStore a.c [{ ev := .nop, arg := { a with m := 2, h := status, d := cause } }]

include k

theorem finishAfter_ring (va : Nat) (l : List Byte) (status cause : Nat) :
    u.finishAfter s.arg [(va, l)] status cause = (u.ending s.arg status cause).fwSend u.uid s.arg.c va l := by
  have mine : ¬(s.arg.flag = true ∨ 1024 ≤ s.arg.n) := by
    rw [k.ring.1]
    exact fun h => h.elim (by decide) (Nat.not_le.2 k.ring.2)
  rw [State.finishAfter, if_neg mine, State.fwStores_one]
  rfl

theorem sent_finishAfter (va : Nat) (l : List Byte) (status cause : Nat) :
    (u.ending s.arg status cause).Sent (u.finishAfter s.arg [(va, l)] status cause) := by
  rw [finishAfter_ring k]
  exact State.sent_fwSend ..

/-- Such a packet ends so, and its store is the last thing sent. -/
theorem finishAfter_ends (h : Carries s u s.arg.n) (uid : u.uid = s.uid) (va : Nat) (l : List Byte) (status cause : Nat) :
    EndsAfter s status cause (u.finishAfter s.arg [(va, l)] status cause) ∧
    ∃ v : State, u.finishAfter s.arg [(va, l)] status cause = v.fwSend s.uid s.arg.c va l := by
  obtain ⟨f, w, skips, e⟩ := h.queue
  have queue : (u.ending s.arg status cause).queue s.arg.n = { u.queue s.arg.n with begun := some 0 } := State.queue_setQueue_same ..
  have ending : EndsAfter s status cause (u.ending s.arg status cause) :=
    ⟨by rw [queue], by rw [queue, e], _, List.mem_append_right _ (List.mem_singleton_self _), rfl, uid, rfl, rfl⟩
  have sent := sent_finishAfter (u := u) k va l status cause
  exact ⟨ending.frame (by rw [sent.rest]) (by rw [sent.rest]), _, by rw [finishAfter_ring k, uid]⟩

end

end Sys2Proof.Machine
end

section

/-! # REGISTER_KERNEL (O56, R108-R112) -/

namespace Sys2Proof.Machine

open Sys2Proof.Safety

/-! ### What F1 reads does not rest on its queues -/

section

variable {s u : State} (h : s.Aside u)
include h

theorem State.Aside.mapped (c va n : Nat) (p : Leaf → Bool) : u.mapped c va n p = s.mapped c va n p := by
  simp only [State.mapped, h.leaf]

theorem State.Aside.liveFrames (c i : Nat) : u.liveFrames c i = s.liveFrames c i := by rw [h.rest]; rfl

end

/-! ### The kernel index and its entry (R111, R112) -/

section

variable (s : State)

theorem State.kernel_putKernel (c i : Nat) {y : Kernel} (listed : y.state ≠ 0) : ((s.putKernel c i y).2.ctx c).kernel i = y := by
  simp only [State.putKernel, if_neg listed, State.setCtx_same]
  exact Tab.get_put_same ..

theorem State.putKernel_store (c i : Nat) (y : Kernel) : ∃ va l, (s.putKernel c i y).1 = [(va, l)] := ⟨_, _, rfl⟩

/-- A copy installed: its index Registered, and the store of its entry, whose address is a multiple of 64. -/
theorem State.install_some (c i : Nat) {hdr : Header} (aligned : hdr.addr % 64 = 0) :
    ((s.install c i (some hdr)).2.ctx c).kernel i = { state := 1, hdr := hdr, queue := 1024 } ∧
    (s.install c i (some hdr)).1 = [((s.ctx c).kernelBase.toNat + 8 * i, bytesOfNat 8 (hdr.addr % 2 ^ 56 + 1))] := by
  refine ⟨State.kernel_putKernel _ c i Nat.one_ne_zero, ?_⟩
  have entry : hdr.addr % 2 ^ 56 / 64 * 64 = hdr.addr % 2 ^ 56 := by omega
  simp only [State.install, State.putKernel, Nat.reduceEqDiff, if_false, entry]
  rfl

/-- An installation changes the context and the instruction caches alone. -/
theorem State.install_rest (c i : Nat) (hdr : Option Header) : ∃ b k x,
    (s.install c i hdr).2 = { s with bogies := b, coaches := k, ctxs := x } := by
  cases hdr <;> exact ⟨_, _, _, rfl⟩

end

section

variable {s u : State} {x : CmdDesc} (k : InRing s x)

/-- The index that a REGISTER_KERNEL names. -/
def kernelIndex (s : State) : Nat := (dword s.arg.pkt 1).toNat

/-- The address of its header, 0 for a removal. -/
def kernelAddr (s : State) : Nat := (dword s.arg.pkt 2).toNat

/-- The kernel of that index. -/
def kernelOld (s : State) : Kernel := (s.ctx s.arg.c).kernel (kernelIndex s)

/-- A REGISTER_KERNEL, not one that waits for its drain, whose fields are in range. -/
structure Registers (s : State) : Prop where
  new : s.arg.m ≠ 1
  fine : fieldsOk s.arg.pkt [0xFFF, m64] = true

/-- Its header, of bytes l, and the code that it names lie on pages where they may. -/
structure HeaderRead (s : State) (l : List Byte) : Prop where
  some' : kernelAddr s ≠ 0
  aligned : kernelAddr s % 64 = 0
  mapped : s.mapped s.arg.c (kernelAddr s) 64 (fun l => l.rd && l.cls != 4) = true
  read : s.readRange s.arg.c (kernelAddr s) 64 = .ok l
  inside : 0 ≤ (kernelAddr s : Int) + (headerOf (kernelAddr s) (vecOf l)).codeOff
  code : s.mapped s.arg.c (headerOf (kernelAddr s) (vecOf l)).codeStart (4 * (headerOf (kernelAddr s) (vecOf l)).words)
    (fun l => l.rd && l.x && l.cls != 4) = true

include k

/-- A packet that is not held is neither away from its slot nor ended by a scrub. -/
theorem begun_unheld : ((s.begin' s.arg).queue s.arg.n).held = false ∧ (s.begin' s.arg).heldAway s.arg = false := by
  have held : ((s.begin' s.arg).queue s.arg.n).held = false := by rw [queue_begin k]; exact k.enabled.2
  exact ⟨held, by rw [State.heldAway, held, Bool.and_false, Bool.false_and]⟩

variable (r : Registers s)
include r

theorem registerKernel_beyond (beyond : (s.ctx s.arg.c).kernelCount ≤ kernelIndex s) :
    registerKernel s.arg s = (s.begin' s.arg).finishPacket s.arg 3 1 := by
  obtain ⟨held, here⟩ := begun_unheld k
  simp only [kernelIndex] at beyond
  simp only [registerKernel, r.new, held, k.ring.1, here, r.fine, (aside_begin k).ctx, if_pos beyond, Bool.not_true, Bool.false_eq_true, or_self,
    false_and, if_false]

variable (within : kernelIndex s < (s.ctx s.arg.c).kernelCount)
include within

theorem registerKernel_removes (still : (kernelOld s).state ≠ 2) (none' : kernelAddr s = 0) :
    registerKernel s.arg s = (s.begin' s.arg).register s.arg (kernelIndex s) none := by
  obtain ⟨held, here⟩ := begun_unheld k
  simp only [kernelIndex, kernelOld, kernelAddr] at within still none' ⊢
  simp only [registerKernel, r.new, held, k.ring.1, here, r.fine, (aside_begin k).ctx, if_neg (Nat.not_le.2 within), still, none', Bool.not_true,
    Bool.false_eq_true, or_self, false_and, if_false, if_true]

variable {l : List Byte} (m : HeaderRead s l) (still : (kernelOld s).state ≠ 2)
include m still

/-- A packet with a header to read: the first check that it fails ends it, and else the header is taken. -/
theorem registerKernel_checks : registerKernel s.arg s =
    ((s.ctx s.arg.c).headerCheck (vecOf l) (headerOf (kernelAddr s) (vecOf l))).elim
      ((s.begin' s.arg).register s.arg (kernelIndex s) (some (headerOf (kernelAddr s) (vecOf l))))
      ((s.begin' s.arg).finishPacket s.arg 3) := by
  obtain ⟨held, here⟩ := begun_unheld k
  obtain ⟨some', aligned, mapped, read, inside, code⟩ := m
  simp only [kernelIndex, kernelOld, kernelAddr] at within still some' aligned mapped read inside code ⊢
  simp only [registerKernel, r.new, held, k.ring.1, here, r.fine, (aside_begin k).ctx, if_neg (Nat.not_le.2 within), still, some', aligned,
    (aside_begin k).mapped, mapped, (aside_begin k).readRange, read, Int.not_lt.2 inside, code, ne_eq, not_true_eq_false, Bool.not_true,
    Bool.false_eq_true, or_self, false_and, if_false]
  split
  next failed => rw [failed]; rfl
  next passed => rw [passed]; rfl

end

/-! ### What a registration does (R110, R112) -/

/-- A packet held while no queue waits for a slot keeps its own. -/
theorem State.holdPacket_alone (u : State) {a : Args} (mine : a.flag = false) (alone : u.notified = []) (ev : Instr) :
    u.holdPacket a ev = (u.setQueue a.n { u.queue a.n with held := true }).repeatPacket a ev := by
  have bound : (u.setQueue a.n { u.queue a.n with held := true }).quantumOver a.n = false := by
    rw [State.quantumOver, show (u.setQueue a.n _).notified = [] from alone]
    simp
  simp only [State.holdPacket, mine, Bool.false_eq_true, if_false, bound, Bool.and_false, Bool.false_and]

section

variable {s : State} {x : CmdDesc} (k : InRing s x)
include k

theorem kernel_begin : ((s.begin' s.arg).ctx s.arg.c).kernel (kernelIndex s) = kernelOld s := by rw [(aside_begin k).ctx]; rfl

theorem register_empty (empty : (kernelOld s).state = 0) : Retires s x 1 0 ((s.begin' s.arg).register s.arg (kernelIndex s) none) := by
  simp only [State.register, kernel_begin k, empty, Option.isNone_none, and_self, if_true]
  exact retires_begin k 1 0

/-- The kernel of an index that drains for the packet in hand, to be removed. -/
def draining (s : State) : Kernel := { kernelOld s with state := 2, next := none, queue := s.arg.n }

/-- A removal that meets live frames: the index drains, its entry is stored, and the packet is held. -/
theorem register_holds (taken : (kernelOld s).state = 1) (live : s.liveFrames s.arg.c (kernelIndex s) = true) :
    ∃ va l, (s.begin' s.arg).register s.arg (kernelIndex s) none =
      (((s.begin' s.arg).putKernel s.arg.c (kernelIndex s) (draining s)).2.fwStores s.arg.c [(va, l)] []).holdPacket { s.arg with m := 1 }
        .registerKernel := by
  obtain ⟨va, l, store⟩ := (s.begin' s.arg).putKernel_store s.arg.c (kernelIndex s) (draining s)
  refine ⟨va, l, ?_⟩
  rw [← store]
  simp only [State.register, kernel_begin k, taken, one_ne_zero, (aside_begin k).liveFrames, live, k.ring.1, false_and, and_self, Bool.false_eq_true,
    if_true, if_false]
  rfl

theorem register_drains (taken : (kernelOld s).state = 1) (live : s.liveFrames s.arg.c (kernelIndex s) = true) :
    let t := (s.begin' s.arg).register s.arg (kernelIndex s) none
    (t.ctx s.arg.c).kernel (kernelIndex s) = draining s ∧ (t.queue s.arg.n).held = true ∧
    UnderWay t .registerKernel fun b => b.n = s.arg.n ∧ b.m = 1 := by
  obtain ⟨va, l, held⟩ := register_holds k taken live
  have sent := ((s.begin' s.arg).putKernel s.arg.c (kernelIndex s) (draining s)).2.sent_fwStores s.arg.c va l []
  have alone : (((s.begin' s.arg).putKernel s.arg.c (kernelIndex s) (draining s)).2.fwStores s.arg.c [(va, l)] []).notified = [] := by
    rw [sent.rest]
    exact (congrArg State.notified (aside_begin k).rest).trans k.alone
  intro t
  rw [show t = _ from held, State.holdPacket_alone _ (a := { s.arg with m := 1 }) k.ring.1 alone]
  refine ⟨?_, congrArg Queue.held (State.queue_setQueue_same ..), State.underWay_add (List.mem_singleton_self _) ⟨rfl, rfl⟩⟩
  change ((State.fwStores _ s.arg.c [(va, l)] []).ctx s.arg.c).kernel (kernelIndex s) = draining s
  rw [State.ctx, sent.rest]
  exact (s.begin' s.arg).kernel_putKernel s.arg.c (kernelIndex s) (y := draining s) two_ne_zero

/-- A header taken for an index that is Empty: installed, and the packet ends with the store of its entry. -/
theorem register_installs {hdr : Header} (empty : (kernelOld s).state = 0) (aligned : hdr.addr % 64 = 0) :
    (s.begin' s.arg).register s.arg (kernelIndex s) (some hdr) =
      ((s.begin' s.arg).install s.arg.c (kernelIndex s) (some hdr)).2.finishAfter s.arg
        [((s.ctx s.arg.c).kernelBase.toNat + 8 * kernelIndex s, bytesOfNat 8 (hdr.addr % 2 ^ 56 + 1))] 1 0 := by
  have base : ((s.begin' s.arg).ctx s.arg.c).kernelBase = (s.ctx s.arg.c).kernelBase := by rw [(aside_begin k).ctx]
  simp only [State.register, kernel_begin k, empty, Option.isNone_some, Bool.false_eq_true, and_false, if_false, zero_ne_one, false_and,
    ((s.begin' s.arg).install_some s.arg.c (kernelIndex s) aligned).2, base]

theorem register_takes {hdr : Header} (empty : (kernelOld s).state = 0) (aligned : hdr.addr % 64 = 0) :
    let t := (s.begin' s.arg).register s.arg (kernelIndex s) (some hdr)
    EndsAfter s 1 0 t ∧ (t.ctx s.arg.c).kernel (kernelIndex s) = { state := 1, hdr := hdr, queue := 1024 } ∧
    ∃ u : State, t = u.fwSend s.uid s.arg.c ((s.ctx s.arg.c).kernelBase.toNat + 8 * kernelIndex s) (bytesOfNat 8 (hdr.addr % 2 ^ 56 + 1)) := by
  obtain ⟨b, i, c, rest⟩ := (s.begin' s.arg).install_rest s.arg.c (kernelIndex s) (some hdr)
  have uid : ((s.begin' s.arg).install s.arg.c (kernelIndex s) (some hdr)).2.uid = s.uid := by rw [rest]; exact uid_begin k
  obtain ⟨ends, sends⟩ := finishAfter_ends k ((carries_begin k).frame (by rw [rest]) (by rw [rest])) uid
    ((s.ctx s.arg.c).kernelBase.toNat + 8 * kernelIndex s) (bytesOfNat 8 (hdr.addr % 2 ^ 56 + 1)) 1 0
  intro t
  rw [show t = _ from register_installs k empty aligned]
  refine ⟨ends, ?_, sends⟩
  rw [State.ctx, (sent_finishAfter k ..).rest]
  exact ((s.begin' s.arg).install_some s.arg.c (kernelIndex s) aligned).1

end

end Sys2Proof.Machine
end

section

/-! # LAUNCH_GROUP (O56, R306-R308) -/

namespace Sys2Proof.Machine

open Sys2Proof.Safety

/-! ### A group's start (R308, R311, R312) -/

/-- The queues, firmware's stores and the groups of every die are in t as in s. -/
structure State.Announces (s t : State) : Prop where
  queues : t.queues = s.queues
  fwork : t.fwork = s.fwork
  groups : ∀ d, (t.die d).groups = (s.die d).groups

theorem State.Announces.refl (s : State) : s.Announces s := ⟨rfl, rfl, fun _ => rfl⟩

theorem State.Announces.trans {s t u : State} (h : s.Announces t) (k : t.Announces u) : s.Announces u :=
  ⟨k.queues.trans h.queues, k.fwork.trans h.fwork, fun d => (k.groups d).trans (h.groups d)⟩

theorem State.Ships.announces {s t : State} (h : s.Ships t) : s.Announces t :=
  ⟨by rw [h.rest], by rw [h.rest], fun d => by rw [State.die, h.dies]; rfl⟩

theorem State.announces_setDie {s : State} {d : Nat} {x : Die} (h : x.groups = (s.die d).groups) : s.Announces (s.setDie d x) := by
  refine ⟨rfl, rfl, fun e => ?_⟩
  rcases eq_or_ne d e with rfl | other
  · rw [State.setDie_same]; exact h
  · rw [State.setDie_other _ _ _ _ other]

theorem State.announces_enterReady (s : State) (d home slot i : Nat) (node : BitVec 32) : s.Announces (s.enterReady d home slot i node) := by
  simp only [State.enterReady]
  split
  · split
    · exact (State.announces_setDie (by rfl)).trans (State.ships_add ..).announces
    · exact .refl s
  · exact .refl s

theorem State.Announces.foldl {α : Type} {s t : State} (h : s.Announces t) (f : State → α → State)
    (hf : ∀ (u : State) a, s.Announces u → s.Announces (f u a)) (l : List α) : s.Announces (l.foldl f t) :=
  List.foldlRecOn (motive := fun u : State => s.Announces u) l f h fun u hu a _ => hf u a hu

theorem State.announces_announce (s : State) (home slot : Nat) (g : Group) (nodes : List Nat) : s.Announces (s.announce home slot g nodes) := by
  refine (State.Announces.refl s).foldl _ (fun t i ht => ht.foldl _ (fun u d hu => ?_) _) _
  dsimp only
  split
  · exact hu
  · split
    · exact hu.trans (State.announces_enterReady ..)
    · exact hu.trans (State.ships_post ..).announces

theorem State.find_putGroup (s : State) (home slot : Nat) (g : Group) : Tab.find ((s.putGroup home slot g).die home).groups slot = some g := by
  rw [State.putGroup, State.setDie_same]
  exact find_put_same ..

/-- A running group of which not every node has completed is kept in its slot, and its ready nodes are announced. -/
theorem State.settle_running (s : State) (home slot : Nat) {g : Group} (running : g.state = 1) (fresh : g.done ≠ g.nodes.length)
    (reached : List Nat) : (s.putGroup home slot g).Announces (s.settle home slot { g := g, reached := reached }) := by
  have announced := State.announces_announce (s.putGroup home slot g) home slot g
    ((List.range g.nodes.length).filter fun i => reached.contains i && ((g.nodes[i]?).getD {}).kernel != 0xFFFF)
  have kept := announced.groups home ▸ s.find_putGroup home slot g
  simp only [State.settle, fresh, and_false, if_false, List.replicate_zero, List.foldl_nil, kept, running, ne_eq, not_true_eq_false, false_and]
  exact announced

/-- What such a group's start leaves as it was, and the group in its slot. -/
theorem State.settle_start (s : State) (home slot : Nat) {g : Group} (running : g.state = 1) (fresh : g.done ≠ g.nodes.length) (reached : List Nat) :
    let t := (s.putGroup home slot g).settle home slot { g := g, reached := reached }
    t.queues = s.queues ∧ t.fwork = s.fwork ∧ Tab.find (t.die home).groups slot = some g := by
  obtain ⟨queues, fwork, groups⟩ := (s.putGroup home slot g).settle_running home slot running fresh reached
  exact ⟨queues, fwork, (congrArg (Tab.find · slot) (groups home)).trans (State.find_putGroup ..)⟩

/-- With no empty node among those that reached zero, none completes. -/
theorem GStep.empties_none {t : GStep} (h : ∀ i ∈ t.reached, ((t.g.nodes[i]?).getD {}).kernel ≠ 0xFFFF) (fuel : Nat) : t.empties fuel = t := by
  cases fuel with
  | zero => rfl
  | succ n =>
    have none' : (t.reached.filter fun i => ((t.g.nodes[i]?).getD {}).kernel == 0xFFFF && !((t.g.nodes[i]?).getD {}).complete) = [] :=
      List.filter_eq_nil_iff.2 fun i hi => by simp [h i hi]
    simp only [GStep.empties, none', List.foldl_nil, ite_self]

/-- The nodes of a group that no other precedes. -/
def Group.firstNodes (g : Group) : List Nat := (List.range g.nodes.length).filter fun i => ((g.nodes[i]?).getD {}).pred == 0

/-- A group with room and a free slot at its home, and no empty node, takes the slot as the packet ends. -/
theorem State.launchOn_slot (u : State) (a : Args) (block : Nat) {g : Group} {slot : Nat}
    (room : ((u.die g.homeDie).groups.map fun e => e.2.nodes.length).sum + g.nodes.length ≤ 16384)
    (free : ((List.range 256).find? fun i => (Tab.find (u.die g.homeDie).groups i).isNone) = some slot)
    (full : ∀ i < g.nodes.length, ((g.nodes[i]?).getD {}).kernel ≠ 0xFFFF) :
    u.launchOn a block g = ((u.finishAfter a [(block + 13, [BitVec.ofNat 8 16])] 1 0).putGroup g.homeDie slot g).settle g.homeDie slot
      { g := g, reached := g.firstNodes } := by
  have nonempty := GStep.empties_none (t := { g := g, reached := g.firstNodes })
    (fun i hi => full i (List.mem_range.1 (List.mem_filter.1 hi).1)) g.nodes.length
  rw [← nonempty]
  simp only [State.launchOn, free, if_neg (Nat.not_lt.2 room)]
  rfl

/-! ### The packet (R306) -/

section

variable {s : State} {x : CmdDesc} (k : InRing s x)

/-- The address of the block that a LAUNCH_GROUP names. -/
def groupBlock (s : State) : Nat := (dword s.arg.pkt 1).toNat

/-- The weights that it gives to the dies. -/
def groupWeights (s : State) : List Nat := weightsOf (dword s.arg.pkt 2)

/-- The address of the node table that a block names. -/
def nodeTable (w : Vec) : Nat := bits w 63 0

/-- The number of nodes that a block names. -/
def nodeCount (w : Vec) : Nat := bits w 76 64

/-- The rows of a node table of n nodes. -/
def nodeRows (n : Nat) (tb : List Byte) : List Vec := (List.range n).map fun i => vecOf ((tb.drop (64 * i)).take 64)

/-- The group that a block and its table give. -/
def groupOfBlock (s : State) (w : Vec) (tb : List Byte) : Group :=
  { ctx := s.arg.c, block := groupBlock s, table := nodeTable w, nodes := (nodeRows (nodeCount w) tb).map nodeOf, limit := bits w 127 112
    weights := groupWeights s, args := [dword w 3, dword w 4, dword w 5, dword w 6], last := (dword w 7).toNat }

theorem nodes_groupOfBlock (s : State) (w : Vec) (tb : List Byte) : (groupOfBlock s w tb).nodes.length = nodeCount w := by
  simp [groupOfBlock, nodeRows]

/-- A LAUNCH_GROUP whose block passes the checks of its page, and its bytes. -/
structure BlockRead (s : State) (l : List Byte) : Prop where
  fine : fieldsOk s.arg.pkt [m64, m64] = true
  aligned : groupBlock s % 64 = 0
  mapped : s.mapped s.arg.c (groupBlock s) 64 (fun l => l.rd && l.w && l.cls != 4 && l.cls != 5) = true
  read : s.readRange s.arg.c (groupBlock s) 64 = .ok l

/-- The node table of a block lies where it may not. -/
abbrev TableStray (s : State) (w : Vec) : Prop :=
  nodeTable w % 64 ≠ 0 ∨ (!s.mapped s.arg.c (nodeTable w) (64 * nodeCount w) fun l => l.rd && l.cls != 4) = true

/-- A block's node count, or the bits reserved beside it, are out of range. -/
abbrev Miscounts (w : Vec) : Prop := bits w 107 77 ≠ 0 ∨ nodeCount w = 0 ∨ 4096 < nodeCount w

/-- The weights name no die, or one without a coach of the context. -/
abbrev Misweighs (s : State) : Prop := (groupWeights s).sum = 0 ∨
  ((List.range 8).any fun d => ((groupWeights s)[d]?).getD 0 != 0 && !s.dieOfCtx (s.ctx s.arg.c) d) = true

theorem not_tableStray {s : State} {w : Vec} (aligned : nodeTable w % 64 = 0)
    (mapped : s.mapped s.arg.c (nodeTable w) (64 * nodeCount w) (fun l => l.rd && l.cls != 4) = true) : ¬TableStray s w := by
  simp [TableStray, aligned, mapped]

theorem not_misweighs {s : State} (some' : (groupWeights s).sum ≠ 0)
    (coaches : ∀ e < 8, ((groupWeights s)[e]?).getD 0 ≠ 0 → s.dieOfCtx (s.ctx s.arg.c) e = true) : ¬Misweighs s := by
  rintro (none' | bad)
  · exact some' none'
  · obtain ⟨e, low, heavy, foreign⟩ : ∃ e < 8, (groupWeights s)[e]?.getD 0 ≠ 0 ∧ s.dieOfCtx (s.ctx s.arg.c) e = false := by simpa using bad
    exact absurd (coaches e low heavy) (by rw [foreign]; decide)

/-- A block and its table, of bytes tb, pass every check up to those of the nodes. -/
structure TableRead (s : State) (w : Vec) (tb : List Byte) : Prop where
  idle : bits w 111 108 ≠ 1
  placed : ¬TableStray s w
  counted : ¬Miscounts w
  read : s.readRange s.arg.c (nodeTable w) (64 * nodeCount w) = .ok tb
  sound : ∀ v ∈ nodeRows (nodeCount w) tb, nodeOk v (nodeCount w) = true
  root : ∃ v ∈ nodeRows (nodeCount w) tb, bits v 55 44 = 0

include k

variable {l : List Byte} (b : BlockRead s l)
include b

/-- The checks of a block and its table's place end the packet, in this order. -/
theorem launchGroup_block : ∃ passed, launchGroup s.arg s =
    if bits (vecOf l) 111 108 = 1 then (s.begin' s.arg).finishPacket s.arg 3 1
    else if TableStray s (vecOf l) then (s.begin' s.arg).rejectGroup s.arg (groupBlock s) 2 (vecOf l)
    else if Miscounts (vecOf l) then (s.begin' s.arg).rejectGroup s.arg (groupBlock s) 3 (vecOf l)
    else passed := by
  obtain ⟨held, here⟩ := begun_unheld k
  obtain ⟨fine, aligned, mapped, read⟩ := b
  simp only [groupBlock, TableStray, Miscounts, nodeTable, nodeCount] at aligned mapped read ⊢
  simp only [launchGroup, held, k.ring.1, here, fine, aligned, (aside_begin k).mapped, mapped, (aside_begin k).readRange, read, ne_eq,
    not_true_eq_false, Bool.not_true, Bool.false_eq_true, or_self, false_and, if_false]
  exact ⟨_, rfl⟩

/-- A table whose nodes are sound: what is left are the weights, another group of the table, and the slot. -/
theorem launchGroup_table {tb : List Byte} (t : TableRead s (vecOf l) tb) :
    launchGroup s.arg s =
      if Misweighs s then (s.begin' s.arg).rejectGroup s.arg (groupBlock s) 6 (vecOf l)
      else if (s.dies.any fun e => e.2.groups.any fun g => g.2.ctx == s.arg.c && g.2.table == nodeTable (vecOf l)) = true then
        (s.begin' s.arg).rejectGroup s.arg (groupBlock s) 7 (vecOf l)
      else (s.begin' s.arg).launchOn s.arg (groupBlock s) (groupOfBlock s (vecOf l) tb) := by
  obtain ⟨held, here⟩ := begun_unheld k
  obtain ⟨fine, aligned, mapped, read⟩ := b
  obtain ⟨idle, placed, counted, contents, sound, root⟩ := t
  have sound' : ¬(nodeRows (nodeCount (vecOf l)) tb).any (fun v => !nodeOk v (nodeCount (vecOf l))) = true := by simpa using sound
  have root' : ¬(nodeRows (nodeCount (vecOf l)) tb).all (fun v => bits v 55 44 != 0) = true := by simpa using root
  have coaches : ∀ e, (s.begin' s.arg).dieOfCtx (s.ctx s.arg.c) e = s.dieOfCtx (s.ctx s.arg.c) e := fun e => by rw [(aside_begin k).rest]; rfl
  have dies : (s.begin' s.arg).dies = s.dies := by rw [(aside_begin k).rest]
  simp only [groupBlock, TableStray, Miscounts, nodeTable, nodeCount, nodeRows, Misweighs, groupWeights]
    at aligned mapped read placed counted contents sound' root' ⊢
  simp only [launchGroup, held, k.ring.1, here, fine, aligned, (aside_begin k).mapped, mapped, (aside_begin k).readRange, read, idle, if_neg placed,
    if_neg counted, contents, if_neg sound', if_neg root', (aside_begin k).ctx, coaches, dies, ne_eq, not_true_eq_false, Bool.not_true,
    Bool.false_eq_true, or_self, false_and, if_false]
  rfl

omit b

/-- A launch rejected after the first check: the packet ends so, and the block's state is stored. -/
theorem rejectGroup_ends (check : Nat) (w : Vec) : EndsAfter s 3 check ((s.begin' s.arg).rejectGroup s.arg (groupBlock s) check w) ∧
    ∃ v : State, (s.begin' s.arg).rejectGroup s.arg (groupBlock s) check w =
      v.fwSend s.uid s.arg.c (groupBlock s + 13) [BitVec.ofNat 8 (bits w 107 104 + 64)] :=
  finishAfter_ends k (carries_begin k) (uid_begin k) ..

/-- The weights, the table, the room and the slot with which a group is launched. -/
structure Launches (s : State) (w : Vec) (tb : List Byte) (slot : Nat) : Prop where
  weighs : ¬Misweighs s
  alone : ∀ e ∈ s.dies, ∀ g ∈ e.2.groups, ¬(g.2.ctx = s.arg.c ∧ g.2.table = nodeTable w)
  full : ∀ v ∈ nodeRows (nodeCount w) tb, bits v 15 0 ≠ 0xFFFF
  room : ((s.die (groupOfBlock s w tb).homeDie).groups.map fun e => e.2.nodes.length).sum + nodeCount w ≤ 16384
  free : ((List.range 256).find? fun i => (Tab.find (s.die (groupOfBlock s w tb).homeDie).groups i).isNone) = some slot

theorem launchGroup_slot (b : BlockRead s l) {tb : List Byte} (t : TableRead s (vecOf l) tb) {slot : Nat} (h : Launches s (vecOf l) tb slot) :
    launchGroup s.arg s = State.settle (((s.begin' s.arg).finishAfter s.arg [(groupBlock s + 13, [BitVec.ofNat 8 16])] 1 0).putGroup
      (groupOfBlock s (vecOf l) tb).homeDie slot (groupOfBlock s (vecOf l) tb)) (groupOfBlock s (vecOf l) tb).homeDie slot
      { g := groupOfBlock s (vecOf l) tb, reached := (groupOfBlock s (vecOf l) tb).firstNodes } := by
  have alone : ¬(s.dies.any fun e => e.2.groups.any fun g => g.2.ctx == s.arg.c && g.2.table == nodeTable (vecOf l)) = true := by
    simpa using h.alone
  have die : (s.begin' s.arg).die = s.die := by rw [(aside_begin k).rest]; rfl
  rw [launchGroup_table k b t, if_neg h.weighs, if_neg alone]
  refine State.launchOn_slot _ _ _ ?_ ?_ fun i hi => ?_
  · rw [die, nodes_groupOfBlock]
    exact h.room
  · rw [die]
    exact h.free
  · have row : ∃ v ∈ nodeRows (nodeCount (vecOf l)) tb, nodeOf v = (groupOfBlock s (vecOf l) tb).nodes[i] :=
      List.mem_map.1 (List.getElem_mem hi)
    obtain ⟨v, hv, e⟩ := row
    rw [List.getElem?_eq_getElem hi, Option.getD_some, ← e]
    exact h.full v hv

theorem launchGroup_launches (b : BlockRead s l) {tb : List Byte} (t : TableRead s (vecOf l) tb) {slot : Nat} (h : Launches s (vecOf l) tb slot) :
    EndsAfter s 1 0 (launchGroup s.arg s) ∧
    Tab.find ((launchGroup s.arg s).die (groupOfBlock s (vecOf l) tb).homeDie).groups slot = some (groupOfBlock s (vecOf l) tb) := by
  have ends := (finishAfter_ends k (carries_begin k) (uid_begin k) (groupBlock s + 13) [BitVec.ofNat 8 16] 1 0).1
  have fresh : (groupOfBlock s (vecOf l) tb).done ≠ (groupOfBlock s (vecOf l) tb).nodes.length := by
    rw [nodes_groupOfBlock]
    exact fun e => t.counted (.inr (.inl e.symm))
  obtain ⟨queues, fwork, kept⟩ := State.settle_start ((s.begin' s.arg).finishAfter s.arg [(groupBlock s + 13, [BitVec.ofNat 8 16])] 1 0)
    (groupOfBlock s (vecOf l) tb).homeDie slot (g := groupOfBlock s (vecOf l) tb) rfl fresh (groupOfBlock s (vecOf l) tb).firstNodes
  rw [launchGroup_slot k b t h]
  exact ⟨ends.frame queues fwork, kept⟩

end

end Sys2Proof.Machine
end

section

/-! # RETURN and SNAPSHOT_CUT (O56, R339, R412, R413) -/

namespace Sys2Proof.Machine

open Sys2Proof.Safety

/-! ### RETURN (R339) -/

/-- A packet of a command list of an Enabled queue in host memory, whose descriptor is x, with no reserved bit set. -/
structure InList (s : State) (x : CmdDesc) (e : Nat) : Prop where
  mine : s.arg.flag = false
  enabled : (s.queue s.arg.n).state = 1
  host : (s.queue s.arg.n).host = true
  point : (s.queue s.arg.n).point.list = some e
  desc : s.cmdDesc (s.queue s.arg.n) = some x
  fine : fieldsOk s.arg.pkt [] = true

section

variable {s : State} {x : CmdDesc} {e : Nat} (k : InList s x e)
include k

theorem queue_beginList : (s.begin' s.arg).queue s.arg.n = { s.queue s.arg.n with fetching := false } := by
  rw [State.begin', k.mine]
  exact State.queue_setQueue_same ..

theorem returnList_fields : ¬((!fieldsOk s.arg.pkt []) = true ∨ (s.queue s.arg.n).point.list.isNone = true) := by
  rw [k.fine, k.point]
  simp

omit k in
/-- A packet of a list that moves the execution point has retired (R339). -/
theorem goTo_list {u : State} {n : Nat} (inside : (u.queue n).point.list = some e) (p : Point) :
    ((u.goTo n p).queue n).point = p ∧ ((u.goTo n p).queue n).retired = (u.queue n).retired + 1 := by
  have queue : (u.goTo n p).queue n =
      { u.queue n with point := p, retired := (u.queue n).retired + 1, begun := none, held := false, waitFrom := none } := by
    simp only [State.goTo, inside, Option.isSome_some, if_true, State.countRetired, State.queue_setQueue_same]
    split <;> exact State.queue_setQueue_same ..
  exact ⟨by rw [queue], by rw [queue]⟩

theorem returnList_caller {r : Nat} {rest : List Nat} (called : (s.queue s.arg.n).point.stack = r :: rest) :
    ((returnList s.arg s).queue s.arg.n).point = { (s.queue s.arg.n).point with list := some r, stack := rest } ∧
    ((returnList s.arg s).queue s.arg.n).retired = (s.queue s.arg.n).retired + 1 := by
  have goes : returnList s.arg s = (s.begin' s.arg).goTo s.arg.n { (s.queue s.arg.n).point with list := some r, stack := rest } := by
    simp only [returnList, queue_beginList k, if_neg (returnList_fields k), called]
  have moved := goTo_list (u := s.begin' s.arg) (n := s.arg.n) (e := e) (by rw [queue_beginList k]; exact k.point)
    { (s.queue s.arg.n).point with list := some r, stack := rest }
  rw [goes]
  rwa [queue_beginList k] at moved

/-- The state in which a RETURN from the outermost list retires its ring packet. -/
def leftList (s : State) : State := s.setQueue s.arg.n { s.queue s.arg.n with point := {}, retired := (s.queue s.arg.n).retired + 1 }

/-- The same with the packet begun, which retires as the ring packet that it is. -/
def leavingList (s : State) : State :=
  (s.begin' s.arg).setQueue s.arg.n { s.queue s.arg.n with fetching := false, point := {}, retired := (s.queue s.arg.n).retired + 1 }

theorem returnList_leaves (outermost : (s.queue s.arg.n).point.stack = []) : returnList s.arg s = (leavingList s).retire s.arg.n 1 0 := by
  have queue : (leavingList s).queue s.arg.n = _ := State.queue_setQueue_same ..
  rw [State.retire, if_neg (by rw [queue]; exact not_not.2 k.enabled), queue]
  simp only [returnList, queue_beginList k, if_neg (returnList_fields k), outermost]
  rfl

theorem returnList_ends (outermost : (s.queue s.arg.n).point.stack = []) :
    ((returnList s.arg s).queue s.arg.n).point = {} ∧ Retires (leftList s) x 1 0 (returnList s.arg s) := by
  have queue : (leavingList s).queue s.arg.n = _ := State.queue_setQueue_same ..
  have left : (leftList s).queue s.arg.n = _ := State.queue_setQueue_same ..
  have hostMem : (leavingList s).hostMem = s.hostMem := by
    rw [leavingList, State.begin', k.mine]
    rfl
  have host : ((leavingList s).queue s.arg.n).host = true := by rw [queue]; exact k.host
  have desc := (State.cmdDesc_host hostMem k.host host (by rw [queue]) (by rw [queue])).trans k.desc
  obtain ⟨rest, fails, after⟩ := State.retire_ring (n := s.arg.n) (by rw [queue]; exact k.enabled) host (by rw [queue]) desc 1 0
  rw [returnList_leaves k outermost]
  refine ⟨by rw [after, queue], ?_, ?_, ?_, ?_⟩
  · rw [show (leftList s).arg = s.arg from rfl, after]
  · rw [show (leftList s).arg = s.arg from rfl, after, queue, left]
  · rw [rest]
    exact State.underWay_add (List.mem_singleton_self _) ⟨rfl, rfl, rfl⟩
  · rw [show (leftList s).arg = s.arg from rfl, rest, queue, left]
    simp only [State.add, State.hostAfter, hostMem, ringStores, true_or, if_true, List.cons_append, List.nil_append, List.foldl_cons, List.foldl_nil]
    rfl

end

/-! ### SNAPSHOT_CUT (R412, R413) -/

section

variable {s u : State} (h : s.Aside u)
include h

theorem State.Aside.copyRead (d c va n : Nat) : u.copyRead d c va n = s.copyRead d c va n := by
  rw [h.rest, State.Aside.copyRead_eq]

theorem State.Aside.tableWaits (c va n : Nat) : u.tableWaits c va n = s.tableWaits c va n := by
  simp only [State.tableWaits, h.copyRead, h.hub]

theorem State.Aside.regionTable (c va n : Nat) : u.regionTable c va n = s.regionTable c va n := by
  simp only [State.regionTable, h.copyRead, h.hub]

theorem State.Aside.mappedWritable (c va : Nat) : u.mappedWritable c va = s.mappedWritable c va := by
  simp only [State.mappedWritable, h.leaf]

theorem State.Aside.hart (d i : Nat) : u.hart d i = s.hart d i := by rw [h.rest]; rfl

theorem State.Aside.sys : u.sys = s.sys := by rw [h.rest]

end

/-- Some collective hart has called the step of a SNAPSHOT_CUT, or a later one (R413). -/
def stepCalled (s : State) (c : Nat) (step : BitVec 32) : Bool :=
  collectiveHarts.any fun e => ((Tab.find (s.hart e.1 e.2).entered c).any fun n => atOrAfter n step) ||
    ((s.hart e.1 e.2).asking.any (fun n => atOrAfter n step) && ((s.hart e.1 e.2).trapReq e.1 e.2).any fun q => q.ctx == c)

theorem stepCalled_of_entered {s : State} {c : Nat} {step n : BitVec 32} {e : Nat × Nat} (mem : e ∈ collectiveHarts)
    (entered : Tab.find (s.hart e.1 e.2).entered c = some n) (later : atOrAfter n step = true) : stepCalled s c step = true :=
  List.any_eq_true.2 ⟨e, mem, by rw [entered, Option.any_some, later, Bool.true_or]⟩

/-- No hart asks for a step, and none has entered this one or a later one. -/
theorem stepCalled_none {s : State} {c : Nat} {step : BitVec 32} (h : ∀ e ∈ collectiveHarts, (s.hart e.1 e.2).asking = none ∧
    ∀ n, Tab.find (s.hart e.1 e.2).entered c = some n → atOrAfter n step = false) : stepCalled s c step = false := by
  refine List.any_eq_false.2 fun e mem => ?_
  obtain ⟨quiet, before⟩ := h e mem
  cases entered : Tab.find (s.hart e.1 e.2).entered c with
  | none => simp [quiet]
  | some n => simp [quiet, before n entered]

theorem stepCalled_aside {s u : State} (h : s.Aside u) (c : Nat) (step : BitVec 32) : stepCalled u c step = stepCalled s c step := by
  simp only [stepCalled, h.hart]

/-- The snapshot that a packet arms, with the regions of its table. -/
def armedSnap (p : Vec) (l : List (Nat × Nat)) : Snap :=
  { state := 1, step := (dword p 1).setWidth 32, base := (dword p 2).toNat, cap := (dword p 3).toNat, record := (dword p 4).toNat, regions := l }

/-- Where the image and the completion record of a packet go may be written. -/
structure ImageWritable (s : State) (c : Nat) (p : Vec) : Prop where
  window : region (dword p 2).toNat = .peerWindow
  valid : bit (peerEntry s c (dword p 2).toNat) 0 = true
  writable : bit (peerEntry s c (dword p 2).toNat) 2 = true
  record : s.mappedWritable c (dword p 4).toNat = true

section

variable {s : State} {c : Nat} {p : Vec}

theorem snapshotCut_unaccepted (off : bit s.sys.accept 2 = false) : s.snapshotCut c p = .error 2 := by
  simp only [State.snapshotCut, off, Bool.not_false, if_true]

variable (on : bit s.sys.accept 2 = true)
include on

theorem snapshotCut_called (called : stepCalled s c ((dword p 1).setWidth 32) = true) : s.snapshotCut c p = .error 1 := by
  simp only [stepCalled] at called
  simp only [State.snapshotCut, on, called, Bool.not_true, Bool.false_eq_true, if_false, if_true]

theorem snapshotCut_arms (new : stepCalled s c ((dword p 1).setWidth 32) = false) (idle : (s.ctx c).snap.state = 0) {l : List (Nat × Nat)}
    (table : s.regionTable c (dword p 5).toNat (dword p 6).toNat = some l) (w : ImageWritable s c p) :
    s.snapshotCut c p = .ok ((s.setSnap c (armedSnap p l)).add [{ ev := .snapshotCutTaken, arg := { c := c }, due := s.clock + 1 }]) := by
  obtain ⟨window, valid, writable, record⟩ := w
  simp only [stepCalled] at new
  simp only [State.snapshotCut, on, new, idle, table, window, valid, writable, record, Bool.not_true, Bool.false_eq_true, ne_eq, not_true_eq_false,
    beq_self_eq_true, Bool.or_self, if_false]
  rfl

end

section

variable {s : State} {x : CmdDesc} (k : InRing s x)

/-- The fields of a SNAPSHOT_CUT are in range (log 82). -/
def cutFields (p : Vec) : Prop :=
  1 ≤ (dword p 6).toNat ∧ (dword p 6).toNat ≤ 64 ∧ (dword p 2).toNat % 4096 = 0 ∧ (dword p 4).toNat % 64 = 0 ∧ (dword p 5).toNat % 16 = 0

include k
variable (fine : fieldsOk s.arg.pkt [0xFFFFFFFF, m64, 0xFFFFFFFF, m64, m64, 0x7F] = true)
include fine

theorem snapshotCut_malformed (bad : ¬cutFields s.arg.pkt) : Retires s x 2 0 (snapshotCut s.arg s) := by
  simp only [cutFields] at bad
  rw [snapshotCut, if_pos (by rw [fine]; simp only [Bool.not_true, Bool.false_eq_true, false_or]; omega)]
  exact retires_begin k 2 0

variable (good : cutFields s.arg.pkt) (read : s.tableWaits s.arg.c (dword s.arg.pkt 5).toNat (dword s.arg.pkt 6).toNat = none)
include good read

/-- A packet whose table can be read at once ends with what F6 answers. -/
theorem snapshotCut_answered : (∀ t, (s.begin' s.arg).snapshotCut s.arg.c s.arg.pkt = .ok t → snapshotCut s.arg s = t.finishPacket s.arg 1 0) ∧
    ∀ cause, (s.begin' s.arg).snapshotCut s.arg.c s.arg.pkt = .error cause → snapshotCut s.arg s = (s.begin' s.arg).finishPacket s.arg 3 cause := by
  simp only [cutFields] at good
  rw [snapshotCut, if_neg (by rw [fine]; simp only [Bool.not_true, Bool.false_eq_true, false_or]; omega)]
  simp only [(aside_begin k).tableWaits, read]
  exact ⟨fun t answer => by rw [answer], fun cause answer => by rw [answer]⟩

theorem snapshotCut_refused {cause : Nat} (answer : (s.begin' s.arg).snapshotCut s.arg.c s.arg.pkt = .error cause) :
    Retires s x 3 cause (snapshotCut s.arg s) := by
  rw [(snapshotCut_answered k fine good read).2 cause answer]
  exact retires_begin k 3 cause

theorem snapshotCut_armed (on : bit s.sys.accept 2 = true) (new : stepCalled s s.arg.c ((dword s.arg.pkt 1).setWidth 32) = false)
    (idle : (s.ctx s.arg.c).snap.state = 0) {l : List (Nat × Nat)}
    (table : s.regionTable s.arg.c (dword s.arg.pkt 5).toNat (dword s.arg.pkt 6).toNat = some l) (w : ImageWritable s s.arg.c s.arg.pkt) :
    Retires s x 1 0 (snapshotCut s.arg s) ∧ UnderWay (snapshotCut s.arg s) .snapshotCutTaken (fun b => b.c = s.arg.c ∧ b.m = 0) ∧
    ((snapshotCut s.arg s).ctx s.arg.c).snap = armedSnap s.arg.pkt l := by
  have aside := aside_begin k
  have arms := snapshotCut_arms (s := s.begin' s.arg) (c := s.arg.c) (p := s.arg.pkt) (by rw [aside.sys]; exact on)
    (by rw [stepCalled_aside aside]; exact new) (by rw [aside.ctx]; exact idle) ((aside.regionTable ..).trans table)
    ⟨w.window, by rw [aside.peerEntry]; exact w.valid, by rw [aside.peerEntry]; exact w.writable, (aside.mappedWritable ..).trans w.record⟩
  rw [(snapshotCut_answered k fine good read).1 _ arms, State.finishPacket_ring _ k.ring.1]
  have armed : Carries s (((s.begin' s.arg).setSnap s.arg.c (armedSnap s.arg.pkt l)).add
    [{ ev := .snapshotCutTaken, arg := { c := s.arg.c }, due := (s.begin' s.arg).clock + 1 }]) s.arg.n := (carries_begin k).frame rfl rfl
  obtain ⟨retires, agenda, ctxs, -⟩ := armed.ends k 1 0
  refine ⟨retires, ?_, ?_⟩
  · rw [UnderWay, agenda]
    exact ⟨_, List.mem_append_left _ (List.mem_append_right _ (List.mem_singleton_self _)), by exact ⟨rfl, rfl, rfl⟩⟩
  · rw [State.ctx, ctxs]
    exact congrArg Ctx.snap (State.setCtx_same ..)

end

end Sys2Proof.Machine
end

section

/-! # The cut, the drain and the end of a snapshot (O56, R414-R420) -/

namespace Sys2Proof.Machine

open Sys2Proof.Safety

/-! ### The cut (R414) -/

section

variable (s : State) (c : Nat)

theorem State.snap_setSnap (x : Snap) : ((s.setSnap c x).ctx c).snap = x := congrArg Ctx.snap (State.setCtx_same ..)

theorem snapshotCutTaken_waits (d : Nat) (armed : (s.ctx c).snap.state = 1) (wait : s.cutNow c = false) :
    snapshotCutTaken c d 0 s = s.add [{ ev := .snapshotCutTaken, arg := { c := c }, due := s.clock + 1 }] := by
  simp only [snapshotCutTaken, armed, wait, ne_eq, not_true_eq_false, Bool.not_false, if_true, if_false]

/-- F6 takes the cut: the epoch rises, the units are fixed, and each die is told. -/
theorem snapshotCutTaken_cuts (d : Nat) (armed : (s.ctx c).snap.state = 1) (now : s.cutNow c = true) :
    snapshotCutTaken c d 0 s = (s.setCtx c { s.ctx c with
      epoch := (s.ctx c).epoch + 1
      snap := { (s.ctx c).snap with state := 2, cutCycle := s.clock, units := s.unitsOf c (s.ctx c).snap.regions } }).add
        ((List.range 8).map fun d => { ev := .snapshotCutTaken, arg := { c := c, d := d, m := 1 } }) := by
  simp only [snapshotCutTaken, armed, now, ne_eq, not_true_eq_false, Bool.not_true, Bool.false_eq_true, if_true, if_false]

variable {s c} {d : Nat} (draining : (s.ctx c).snap.state = 2) (new : d ∉ (s.ctx c).snap.advanced)
include draining new

theorem snapshotCutTaken_advances (more : (s.ctx c).snap.advanced.length < 7) :
    snapshotCutTaken c d 1 s = s.setSnap c { (s.ctx c).snap with advanced := (s.ctx c).snap.advanced ++ [d] } := by
  have short : (s.ctx c).snap.advanced.length + 1 < 8 := by omega
  simp only [snapshotCutTaken, draining, List.contains_eq_mem, new, decide_false, Bool.false_eq_true, ne_eq, not_true_eq_false, one_ne_zero, or_self,
    short, if_true, if_false]

/-- The last die's advance: the held steps are answered, and the drain begins. -/
theorem snapshotCutTaken_last (last : 7 ≤ (s.ctx c).snap.advanced.length) :
    snapshotCutTaken c d 1 s = ((s.setSnap c { (s.ctx c).snap with advanced := (s.ctx c).snap.advanced ++ [d] }).answerHeld c).add
      (((List.range 16).map fun i => { ev := .drainUnit, arg := { c := c, d := i / 2, h := 20 + i % 2 } }) ++
        [{ ev := .snapshotDone, arg := { c := c } }]) := by
  have full : ¬(s.ctx c).snap.advanced.length + 1 < 8 := by omega
  simp only [snapshotCutTaken, draining, List.contains_eq_mem, new, decide_false, Bool.false_eq_true, ne_eq, not_true_eq_false, one_ne_zero, or_self,
    full, if_false]

end

/-- What the last advance leaves: the held steps answered, and a drain under way on both snapshot harts of each die. -/
theorem snapshotCutTaken_drains {s : State} {c d : Nat} (draining : (s.ctx c).snap.state = 2) (new : d ∉ (s.ctx c).snap.advanced)
    (last : 7 ≤ (s.ctx c).snap.advanced.length) :
    let t := snapshotCutTaken c d 1 s
    (t.ctx c).snap = { (s.ctx c).snap with advanced := (s.ctx c).snap.advanced ++ [d] } ∧
    (∀ i < 16, UnderWay t .drainUnit fun b => b.c = c ∧ b.d = i / 2 ∧ b.h = 20 + i % 2) ∧ UnderWay t .snapshotDone fun b => b.c = c := by
  rw [snapshotCutTaken_last draining new last]
  refine ⟨?_, fun i low => ?_, ?_⟩
  · exact (congrArg Ctx.snap ((State.Places.refl _).answerHeld c |>.ctx c)).trans (State.snap_setSnap ..)
  · exact State.underWay_add (List.mem_append_left _ (List.mem_map_of_mem (List.mem_range.2 low))) ⟨rfl, rfl, rfl⟩
  · exact State.underWay_add (List.mem_append_right _ (List.mem_singleton_self _)) rfl

/-! ### A piece of the image (R418, R419) -/

/-- The write to storage of n bytes at an offset of a context's image. -/
def snapWrite (s : State) (c d h off : Nat) (l : List Byte) : Req :=
  { id := s.uid, src := .hart d h, ctx := c, op := .store (placed ((s.ctx c).snap.base + off) l) false false none }

/-- An offset of the image lies in the window of its base. -/
structure InWindow (sn : Snap) (off : Nat) : Prop where
  module : (sn.base + off) / 2 ^ 46 = sn.base / 2 ^ 46
  fits : sn.base + off < 2 ^ 64

/-- In t, a piece of the image of s is on its way to storage, as its last request of another module, and owed. -/
structure Pieces (s t : State) (c d h off k : Nat) (l : List Byte) : Prop where
  remote : ∃ e, t.remote = s.remote ++ [e] ∧ e.va = (s.ctx c).snap.base + off ∧ e.req = snapWrite s c d h off l
  snap : ∃ window sent, (t.ctx c).snap =
    { (s.ctx c).snap with window := window, sent := sent, owed := (s.ctx c).snap.owed ++ [(s.uid, k)] }

/-- With no cap a piece goes to storage at once (R418, R419). -/
theorem State.snapSend_goes {s : State} {c d h off : Nat} (k : Nat) (l : List Byte) (free : (s.ctx c).snap.cap = 0) (w : InWindow (s.ctx c).snap off) :
    ∃ t, s.snapSend c d h off k l = some t ∧ Pieces s t c d h off k l := by
  have uncapped : ∀ m : Nat, ¬((s.ctx c).snap.cap ≠ 0 ∧ (s.ctx c).snap.cap * 1000 < m) := fun m h => h.1 free
  simp only [State.snapSend, if_neg (uncapped _), if_pos (And.intro w.module w.fits)]
  refine ⟨_, rfl, ⟨_, rfl, rfl, rfl⟩, _, _, State.snap_setSnap { s with uid := s.uid + 1 } c _⟩

/-! ### The drain (R418, R419) -/

/-- The result of a choice is that of one of its two. -/
theorem of_orElse_eq_some {α : Type} {o : Option α} {f : Unit → Option α} {a : α} (h : o.orElse f = some a) : o = some a ∨ f () = some a := by
  cases o with
  | none => exact .inr h
  | some b => exact .inl h

theorem leastUnit_mem {key : SnapUnit → Nat} {l : List SnapUnit} {u : SnapUnit} (h : leastUnit key l = some u) : u ∈ l := by
  refine List.foldlRecOn (motive := fun o : Option SnapUnit => ∀ x, o = some x → x ∈ l) l _ (fun x e => by cases e) (fun o ho v hv x e => ?_) u h
  cases o with
  | none => cases e; exact hv
  | some y =>
    dsimp only at e
    split at e <;> cases e
    · exact hv
    · exact ho _ rfl

theorem nextUnit_mem {s : State} {c d h : Nat} {u : SnapUnit} (next : s.nextUnit c d h = some u) : u ∈ (s.ctx c).snap.units := by
  rcases of_orElse_eq_some next with first | second
  · rcases of_orElse_eq_some first with begun | asked
    · exact List.mem_of_mem_filter (List.mem_of_find?_eq_some begun)
    · exact List.mem_of_mem_filter (List.mem_of_mem_filter (List.mem_of_mem_filter (leastUnit_mem asked)))
  · rcases of_orElse_eq_some second with saved | other
    · exact List.mem_of_mem_filter (List.mem_of_mem_filter (List.mem_of_mem_filter (leastUnit_mem saved)))
    · exact List.mem_of_mem_filter (List.mem_of_mem_filter (leastUnit_mem other))

section

variable {s : State} {c d h : Nat}

/-- The number of a unit's record: its own, or the next. -/
def recordNumber (s : State) (c : Nat) (u : SnapUnit) : Nat := u.number.getD ((s.ctx c).snap.units.filter fun y => y.number.isSome).length

/-- Where the next line of a unit goes in the image. -/
def lineOffset (s : State) (c : Nat) (u : SnapUnit) : Nat := 4096 + recordNumber s c u * 65792 + (256 + 64 * u.next)

/-- The next line of a unit as it goes into the image: zero where it is poisoned. -/
def lineBytes (s : State) (c : Nat) (u : SnapUnit) : List Byte :=
  if (s.unitLine c u u.next).2 = true then List.replicate 64 0 else (s.unitLine c u u.next).1

/-- A unit after its next line is sent by hart h of die d. -/
def lineSent (s : State) (c d h : Nat) (u : SnapUnit) : SnapUnit :=
  { u with number := some (recordNumber s c u), home := d, hart := h, next := u.next + 1
           bad := if (s.unitLine c u u.next).2 = true then u.bad ++ [u.next] else u.bad }

/-- A hart that has a unit with lines left sends the next. -/
theorem drainUnit_sends (draining : (s.ctx c).snap.state = 2) (cut : 8 ≤ (s.ctx c).snap.advanced.length) {u : SnapUnit}
    (next : s.nextUnit c d h = some u) (line : u.next < 1024) {t : State}
    (sent : s.snapSend c d h (lineOffset s c u) (recordNumber s c u) (lineBytes s c u) = some t) :
    drainUnit c d h s = (t.putUnit c (lineSent s c d h u)).add [{ ev := .drainUnit, arg := { c := c, d := d, h := h }, due := t.clock + 1 }] := by
  have whole : ¬u.next + 1 = 1028 := by omega
  simp only [lineOffset, recordNumber, lineBytes] at sent
  simp only [drainUnit, draining, Nat.not_lt.2 cut, next, line, sent, whole, ne_eq, not_true_eq_false, or_self, if_true, if_false, true_and]
  rfl

theorem putUnit_mem {t : State} {u v : SnapUnit} (mem : u ∈ (t.ctx c).snap.units) (same : u.va = v.va) :
    v ∈ ((t.putUnit c v).ctx c).snap.units := by
  simp only [State.putUnit, State.snap_setSnap]
  exact List.mem_map.2 ⟨u, mem, if_pos same⟩

theorem drainUnit_drains (draining : (s.ctx c).snap.state = 2) (cut : 8 ≤ (s.ctx c).snap.advanced.length) (free : (s.ctx c).snap.cap = 0)
    {u : SnapUnit} (next : s.nextUnit c d h = some u) (line : u.next < 1024) (w : InWindow (s.ctx c).snap (lineOffset s c u)) :
    let t := drainUnit c d h s
    (∃ e, t.remote = s.remote ++ [e] ∧ e.va = (s.ctx c).snap.base + lineOffset s c u ∧
      e.req = snapWrite s c d h (lineOffset s c u) (lineBytes s c u)) ∧
    lineSent s c d h u ∈ (t.ctx c).snap.units ∧ (s.uid, recordNumber s c u) ∈ (t.ctx c).snap.owed ∧
    UnderWay t .drainUnit fun b => b.c = c ∧ b.d = d ∧ b.h = h := by
  obtain ⟨t, sent, remote, window, n, snap⟩ := State.snapSend_goes (d := d) (h := h) (recordNumber s c u) (lineBytes s c u) free w
  rw [drainUnit_sends draining cut next line sent]
  refine ⟨remote, putUnit_mem (u := u) (by rw [snap]; exact nextUnit_mem next) rfl, ?_,
    State.underWay_add (List.mem_singleton_self _) ⟨rfl, rfl, rfl⟩⟩
  change _ ∈ ((t.putUnit c (lineSent s c d h u)).ctx c).snap.owed
  rw [State.putUnit, State.snap_setSnap, snap]
  exact List.mem_append_right _ (List.mem_singleton_self _)

end

/-! ### The header, the completion record and the event (R419, R420) -/

section

variable {s : State} {c : Nat} {n : Nat}

/-- Every die has taken the cut, and every unit of the snapshot is Drained. -/
structure Drained (sn : Snap) : Prop where
  draining : sn.state = 2
  cut : 8 ≤ sn.advanced.length
  units : ∀ u ∈ sn.units, u.state = 2

variable (dr : Drained (s.ctx c).snap)
include dr

theorem Drained.ready : ¬((s.ctx c).snap.state ≠ 2 ∨ (s.ctx c).snap.advanced.length < 8 ∨
    ((s.ctx c).snap.units.any fun u => u.state != 2) = true) := by
  have units : ((s.ctx c).snap.units.any fun u => u.state != 2) = false := List.any_eq_false.2 fun u hu => by simp [dr.units u hu]
  rw [dr.draining, units]
  have := dr.cut
  simp only [ne_eq, not_true_eq_false, Bool.false_eq_true, or_false, false_or]
  omega

/-- The completion record is performed: the snapshot is over, and the context hears SNAPSHOT_DONE. -/
theorem snapshotDone_over (stage : (s.ctx c).snap.stage = 65) {v : Word × Nat} (answered : Tab.find s.answers n = some v) :
    ((snapshotDone c n s).ctx c).snap = {} ∧ UnderWay (snapshotDone c n s) .raiseEvent fun b => b.c = c ∧ b.info.code = 0x40 ∧
      b.info.addr = BitVec.ofNat 64 (s.ctx c).snap.record ∧ b.info.extra = (s.ctx c).snap.step.setWidth 64 := by
  rw [snapshotDone, if_neg dr.ready, if_pos stage, answered]
  exact ⟨State.snap_setSnap .., State.underWay_add (List.mem_singleton_self _) ⟨rfl, rfl, rfl, rfl⟩⟩

/-- The header is written: the completion record is sent. -/
theorem snapshotDone_records (stage : (s.ctx c).snap.stage = 64) (settled : (s.ctx c).snap.owed = []) :
    ((snapshotDone c n s).ctx c).snap = { (s.ctx c).snap with stage := 65 } ∧
    UnderWay (snapshotDone c n s) .snapshotDone fun b => b.c = c ∧ b.n = s.uid := by
  rw [snapshotDone, if_neg dr.ready, if_neg (by rw [stage]; decide), if_neg (by rw [settled]; decide), if_pos stage]
  exact ⟨State.snap_setSnap .., State.underWay_add (List.mem_singleton_self _) ⟨rfl, rfl⟩⟩

/-- Where the next piece of the header goes. -/
def headerOffset (sn : Snap) : Nat := if sn.stage = 63 then 0 else 64 * (sn.stage + 1)

/-- The end of the drain noted at the header's first piece. -/
def State.drainTimed (s : State) (c : Nat) : State :=
  if (s.ctx c).snap.doneCycle = 0 then s.setSnap c { (s.ctx c).snap with doneCycle := s.clock } else s

omit dr in
theorem snap_drainTimed : ((s.drainTimed c).ctx c).snap =
    { (s.ctx c).snap with doneCycle := if (s.ctx c).snap.doneCycle = 0 then s.clock else (s.ctx c).snap.doneCycle } := by
  rw [State.drainTimed]
  split
  · exact State.snap_setSnap ..
  · rfl

omit dr in
theorem remote_drainTimed : (s.drainTimed c).remote = s.remote := by
  rw [State.drainTimed]
  split <;> rfl

/-- While the header is not whole, its next piece is sent. -/
theorem snapshotDone_sends (stage : (s.ctx c).snap.stage < 64) (settled : (s.ctx c).snap.owed = []) {t : State}
    (sent : (s.drainTimed c).snapSend c 0 20 (headerOffset (s.ctx c).snap) (s.ctx c).snap.units.length
      (if (s.ctx c).snap.stage = 63 then (s.drainTimed c).imageHeader c else List.replicate 64 0) = some t) :
    snapshotDone c n s = t.setSnap c { (t.ctx c).snap with stage := (s.ctx c).snap.stage + 1 } := by
  rw [snapshotDone, if_neg dr.ready, if_neg (by omega), if_neg (by rw [settled]; decide), if_neg (by omega)]
  simp only [State.drainTimed, headerOffset] at sent
  simp only [sent]

theorem snapshotDone_heads (stage : (s.ctx c).snap.stage < 64) (settled : (s.ctx c).snap.owed = []) (free : (s.ctx c).snap.cap = 0)
    (w : InWindow (s.ctx c).snap (headerOffset (s.ctx c).snap)) :
    ((snapshotDone c n s).ctx c).snap.stage = (s.ctx c).snap.stage + 1 ∧
    ((snapshotDone c n s).ctx c).snap.doneCycle = (if (s.ctx c).snap.doneCycle = 0 then s.clock else (s.ctx c).snap.doneCycle) ∧
    ∃ e, (snapshotDone c n s).remote = s.remote ++ [e] ∧ e.va = (s.ctx c).snap.base + headerOffset (s.ctx c).snap ∧
      ∃ bytes, e.req.op = .store (placed ((s.ctx c).snap.base + headerOffset (s.ctx c).snap) bytes) false false none ∧
        ((s.ctx c).snap.stage < 63 → bytes = List.replicate 64 0) := by
  have base : ((s.drainTimed c).ctx c).snap.base = (s.ctx c).snap.base := by rw [snap_drainTimed]
  obtain ⟨t, sent, ⟨e, remote, va, req⟩, window, n', snap⟩ := State.snapSend_goes (s := s.drainTimed c) (c := c) (d := 0) (h := 20)
    (off := headerOffset (s.ctx c).snap) (s.ctx c).snap.units.length
    (if (s.ctx c).snap.stage = 63 then (s.drainTimed c).imageHeader c else List.replicate 64 0) (by rw [snap_drainTimed]; exact free)
    ⟨by rw [base]; exact w.module, by rw [base]; exact w.fits⟩
  rw [base] at va
  have op := congrArg Req.op req
  rw [snapWrite, base] at op
  rw [snapshotDone_sends dr stage settled sent, State.snap_setSnap]
  refine ⟨rfl, ?_, e, ?_, va, _, op, fun early => if_neg (by omega)⟩
  · rw [snap, snap_drainTimed]
  · exact remote.trans (congrArg (· ++ [e]) remote_drainTimed)

end

end Sys2Proof.Machine
end

section

/-! # Kernels, groups, lists and snapshots (O56) -/

namespace Sys2Proof.Machine

open Sys2Proof.Safety

section

variable {s : State} {x : CmdDesc} (k : InRing s x)
include k

theorem does_registerKernel (r : Registers s) :
    ((s.ctx s.arg.c).kernelCount ≤ kernelIndex s → Does .registerKernel s (Retires s x 3 1)) ∧
    (kernelIndex s < (s.ctx s.arg.c).kernelCount →
      ((kernelOld s).state = 0 → kernelAddr s = 0 → Does .registerKernel s (Retires s x 1 0)) ∧
      ((kernelOld s).state = 1 → kernelAddr s = 0 → s.liveFrames s.arg.c (kernelIndex s) = true → Does .registerKernel s fun t =>
        (t.ctx s.arg.c).kernel (kernelIndex s) = draining s ∧ (t.queue s.arg.n).held = true ∧
        UnderWay t .registerKernel fun b => b.n = s.arg.n ∧ b.m = 1) ∧
      ∀ l, HeaderRead s l →
        (∀ n, (kernelOld s).state ≠ 2 → (s.ctx s.arg.c).headerCheck (vecOf l) (headerOf (kernelAddr s) (vecOf l)) = some n →
          Does .registerKernel s (Retires s x 3 n)) ∧
        ((kernelOld s).state = 0 → (s.ctx s.arg.c).headerCheck (vecOf l) (headerOf (kernelAddr s) (vecOf l)) = none → Does .registerKernel s fun t =>
          EndsAfter s 1 0 t ∧ (t.ctx s.arg.c).kernel (kernelIndex s) = { state := 1, hdr := headerOf (kernelAddr s) (vecOf l), queue := 1024 } ∧
          ∃ u : State, t = u.fwSend s.uid s.arg.c ((s.ctx s.arg.c).kernelBase.toNat + 8 * kernelIndex s)
            (bytesOfNat 8 (kernelAddr s % 2 ^ 56 + 1)))) := by
  refine ⟨fun beyond => ⟨_, rfl, ?_⟩, fun within => ⟨fun empty none' => ⟨_, rfl, ?_⟩, fun taken none' live => ⟨_, rfl, ?_⟩, fun l m =>
    ⟨fun n still failed => ⟨_, rfl, ?_⟩, fun empty passed => ⟨_, rfl, ?_⟩⟩⟩⟩
  · rw [registerKernel_beyond k r beyond]
    exact retires_begin k 3 1
  · rw [registerKernel_removes k r within (by omega) none']
    exact register_empty k empty
  · rw [registerKernel_removes k r within (by omega) none']
    exact register_drains k taken live
  · rw [registerKernel_checks k r within m still, failed]
    exact retires_begin k 3 n
  · rw [registerKernel_checks k r within m (by omega), passed]
    exact register_takes k empty m.aligned

theorem does_launchGroup {l : List Byte} (b : BlockRead s l) :
    let rejected := fun (check : Nat) => Does .launchGroup s fun t => EndsAfter s 3 check t ∧
      ∃ u : State, t = u.fwSend s.uid s.arg.c (groupBlock s + 13) [BitVec.ofNat 8 (bits (vecOf l) 107 104 + 64)]
    (bits (vecOf l) 111 108 = 1 → Does .launchGroup s (Retires s x 3 1)) ∧
    (bits (vecOf l) 111 108 ≠ 1 → TableStray s (vecOf l) → rejected 2) ∧
    (bits (vecOf l) 111 108 ≠ 1 → ¬TableStray s (vecOf l) → Miscounts (vecOf l) → rejected 3) ∧
    ∀ tb, TableRead s (vecOf l) tb → (Misweighs s → rejected 6) ∧
      ∀ slot, Launches s (vecOf l) tb slot → Does .launchGroup s fun t => EndsAfter s 1 0 t ∧
        Tab.find (t.die (groupOfBlock s (vecOf l) tb).homeDie).groups slot = some (groupOfBlock s (vecOf l) tb) := by
  obtain ⟨passed, checks⟩ := launchGroup_block k b
  refine ⟨fun running => ⟨_, rfl, ?_⟩, fun idle stray => ⟨_, rfl, ?_⟩, fun idle placed bad => ⟨_, rfl, ?_⟩, fun tb t =>
    ⟨fun bad => ⟨_, rfl, ?_⟩, fun slot h => ⟨_, rfl, launchGroup_launches k b t h⟩⟩⟩
  · rw [checks, if_pos running]
    exact retires_begin k 3 1
  · rw [checks, if_neg idle, if_pos stray]
    exact rejectGroup_ends k 2 (vecOf l)
  · rw [checks, if_neg idle, if_neg placed, if_pos bad]
    exact rejectGroup_ends k 3 (vecOf l)
  · rw [launchGroup_table k b t, if_pos bad]
    exact rejectGroup_ends k 6 (vecOf l)

end

/-- Settles O56: each packet and each step of a snapshot by the lemmas of its function. -/
theorem packetsRegisterLaunchAndCut : Obligations.PacketsRegisterLaunchAndCut := by
  unfold Obligations.PacketsRegisterLaunchAndCut
  refine ⟨fun s x => ⟨fun k new => ?kernel, fun k fine => ?group, fun e mine enabled host point desc _ fine => ?list, fun k fine => ?packet⟩,
    fun s => ⟨fun first armed => ?cut, fun again draining fresh => ?advance, fun u draining cut free next line module fits => ?drain,
      fun draining cut units => ?done⟩⟩
  case kernel =>
    intro i addr old fine
    obtain ⟨beyond, rest⟩ := does_registerKernel k ⟨new, fine⟩
    refine ⟨beyond, fun within => ?_⟩
    obtain ⟨empty, live, taken⟩ := rest within
    exact ⟨empty, live, fun l some' aligned mapped read => fun inside code => taken l ⟨some', aligned, mapped, read, inside, code⟩⟩
  case group =>
    intro l tb block w table n rows weights grp rejected aligned mapped read
    obtain ⟨running, stray, miscount, sound⟩ := does_launchGroup k ⟨fine, aligned, mapped, read⟩
    refine ⟨running, fun idle odd => stray idle (.inl odd), fun idle even pages => miscount idle (not_tableStray even pages),
      fun idle even pages zero some' few contents nodes root => ?_⟩
    have counted : ¬Miscounts w := by
      change ¬(bits w 107 77 ≠ 0 ∨ n = 0 ∨ 4096 < n)
      omega
    obtain ⟨misweighs, launches⟩ := sound tb ⟨idle, not_tableStray even pages, counted, contents, nodes, root⟩
    exact ⟨fun none' => misweighs (.inl none'),
      fun slot weighs coaches alone full room free => launches slot ⟨not_misweighs weighs coaches, alone, full, room, free⟩⟩
  case list =>
    have inList : InList s x e := ⟨mine, enabled, host, point, desc, fine⟩
    exact ⟨fun r rest called => ⟨_, rfl, returnList_caller inList called⟩, fun outermost => ⟨_, rfl, returnList_ends inList outermost⟩⟩
  case packet =>
    intro base n good
    refine ⟨fun bad => ⟨_, rfl, snapshotCut_malformed k fine bad⟩, fun fields read off => ⟨_, rfl, ?_⟩,
      fun e mem y fields read on entered later => ⟨_, rfl, ?_⟩,
      fun l fields read on none' idle table window valid writable record => ⟨_, rfl, ?_⟩⟩
    · exact snapshotCut_refused k fine fields read (snapshotCut_unaccepted (by rw [(aside_begin k).sys]; exact off))
    · refine snapshotCut_refused k fine fields read (snapshotCut_called (by rw [(aside_begin k).sys]; exact on) ?_)
      rw [stepCalled_aside (aside_begin k)]
      exact stepCalled_of_entered mem entered later
    · exact snapshotCut_armed k fine fields read on (stepCalled_none none') idle table ⟨window, valid, writable, record⟩
  case cut =>
    refine ⟨fun now => ⟨_, rfl, ?_⟩, fun wait => ⟨_, rfl, ?_⟩⟩
    · rw [first, snapshotCutTaken_cuts s s.arg.c s.arg.d armed now]
      refine ⟨congrArg Ctx.epoch (State.setCtx_same ..), ?_, ?_, ?_,
        fun d low => State.underWay_add (List.mem_map_of_mem (List.mem_range.2 low)) ⟨rfl, rfl, rfl⟩⟩
      · exact congrArg (·.snap.state) (State.setCtx_same ..)
      · exact congrArg (·.snap.cutCycle) (State.setCtx_same ..)
      · exact congrArg (·.snap.units) (State.setCtx_same ..)
    · rw [first, snapshotCutTaken_waits s s.arg.c s.arg.d armed wait]
  case advance =>
    refine ⟨fun more => ⟨_, rfl, ?_⟩, fun last => ⟨_, rfl, ?_⟩⟩
    · rw [again, snapshotCutTaken_advances draining fresh more]
    · rw [again]
      exact snapshotCutTaken_drains draining fresh last
  case drain =>
    obtain ⟨⟨e, remote, va, req⟩, units, owed, goes⟩ := drainUnit_drains draining cut free next line ⟨module, fits⟩
    refine ⟨_, rfl, ⟨e, remote, va, by rw [req]; rfl, by rw [req]; rfl, by rw [req]; rfl⟩, ⟨_, units, rfl, rfl, rfl, rfl, rfl⟩, owed, goes⟩
  case done =>
    have dr : Drained (s.ctx s.arg.c).snap := ⟨draining, cut, units⟩
    exact ⟨fun stage ⟨v, answered⟩ => ⟨_, rfl, snapshotDone_over dr stage answered⟩,
      fun stage settled => ⟨_, rfl, snapshotDone_records dr stage settled⟩,
      fun stage settled free module fits => ⟨_, rfl, snapshotDone_heads dr stage settled free ⟨module, fits⟩⟩⟩

end Sys2Proof.Machine
end

section

/-! # Task words: YIELD, END, BRK, RELEASE, CLAIM, PRIO, SELF and the group words (O17, O18, O19)

A word that runs has a body (`RunsBody`). One that completes ends its activation (`RunsBody.ends`), sends entries and goes on
(`RunsBody.sends`), or goes on (`taskWord_goes`); one that stops with a fault raises it (`RunsBody.raises`). What is left to say of each word is
which body it has. -/

namespace Sys2Proof.Machine

open Sys2Proof.Safety

/-! ### How a word ends -/

/-- The outbox takes entries for which it has room (R137). -/
theorem Bogie.send_ok {b : Bogie} {l : List Op} (room : b.outbox.length + l.length ≤ 256) :
    b.send l = .ok { b with outbox := b.outbox ++ l } := if_neg (by omega)

/-- Word i runs on the top frame of bogie g, and what is left of it behind the checks that every word passes is body. -/
structure RunsBody (i : Instr) (s : State) (g : Nat) (f : Frame) (body : Except Stop BRes) : Prop extends Runs s g f i where
  does : exec i s = .next (s.afterWord g ((s.bogie g).run i g f body))

namespace RunsBody

variable {s : State} {g : Nat} {f : Frame} {i : Instr}

theorem task {body : State → Nat → Bogie → Frame → Except Stop BRes} (h : Runs s g f i) (he : exec i s = taskWord i body s) :
    RunsBody i s g f (body s g (s.bogie g) f) := ⟨h, he.trans (taskWord_bogie body h.cur h.top)⟩

theorem agent {body : State → Nat → Bogie → Frame → Except Stop BRes} {hbody : State → Nat → Nat → Except Stop State} (h : Runs s g f i)
    (he : exec i s = agentWord i body hbody s) : RunsBody i s g f (body s g (s.bogie g) f) :=
  ⟨h, he.trans (agentWord_bogie body hbody h.cur h.top)⟩

variable {body : Except Stop BRes} (k : RunsBody i s g f body)
include k

/-- A body that completes is what the word does to its bogie. -/
theorem completes {r : BRes} (hb : body = .ok r) : exec i s = .next (s.afterWord g r) := by
  rw [k.does, Bogie.run_open k.gate, hb]

theorem goes {b : Bogie} {f' : Frame} (hb : body = b.go f') : exec i s = .next (s.afterWord g { b := b.advance f' }) := k.completes hb

theorem ends {b : Bogie} {f' : Frame} {e : Boundary} (hb : body = b.commit g f' e) : Safety.Ends i s g (b.advance f') e := k.completes hb

theorem sends {f' : Frame} {l : List Op} (room : Room s g l.length) (hb : body = ((s.bogie g).send l).bind fun b => b.go f') : Sends i s g f' l :=
  k.completes (by rw [hb, Bogie.send_ok room]; rfl)

/-- A body that lacks room commits the activation before the word, and before the REP that goes with it (R135). -/
theorem commits (hb : body = .error .commit) : Safety.Ends i s g ((s.bogie g).setTop { f with
    cpu := { f.cpu with pc := f.cpu.prefixStart, pfx := {} }, instret := f.instret - f.cpu.prefixWords }) .commit := by
  unfold Safety.Ends
  rw [k.does, Bogie.run_open k.gate, hb]; rfl

/-- A body that stops with a fault raises it: a lack of room makes a commit of it (R142). -/
theorem raises {code addr val : Nat} (hb : body = .error (.fault code addr val)) (hcode : code ≠ 0x01) : Raises i s g code addr val := by
  intro f' ht'
  obtain rfl : f = f' := Option.some.inj (k.top.symm.trans ht')
  have e := k.does
  rw [Bogie.run_open k.gate, hb] at e
  constructor
  · intro room
    have stays : (s.bogie g).orCommit i f (.fault code addr val) = .fault code addr val := by
      rcases room with inRep | room
      · simp [Bogie.orCommit, inRep]
      · simp [Bogie.orCommit, room]
    simp only [stays] at e
    exact e
  · intro outside lacks
    have commits : (s.bogie g).orCommit i f (.fault code addr val) = .commit := by simp [Bogie.orCommit, hcode, outside, lacks]
    simp only [commits] at e
    exact e

end RunsBody

/-! ### YIELD, END and BRK (R143, R144, R301, R309, R310) -/

section

variable {s : State} {g : Nat} {f : Frame}

theorem exec_yield (n : BitVec 12) (s : State) : exec (.yield n) s = execYield n s := rfl
theorem exec_endTask (a : BitVec 5) (c n : BitVec 1) (s : State) : exec (.endTask a c n) s = execEndTask a c n s := rfl
theorem exec_endCont (d a : BitVec 5) (s : State) : exec (.endCont d a) s = execEndCont d a s := rfl
theorem exec_brk (n : BitVec 12) (s : State) : exec (.brk n) s = execBrk n s := rfl

theorem yield_ends {n : BitVec 12} (h : Runs s g f (.yield n)) :
    Safety.Ends (.yield n) s g ((s.bogie g).advance { f with window := if n = 0 then 4095 else n.toNat }) .commit :=
  (RunsBody.task h (exec_yield n s)).ends rfl

theorem endTask_raises {a : BitVec 5} {n : BitVec 1} (h : Runs s g f (.endTask a 1 n)) (none' : f.succ = 0) :
    Raises (.endTask a 1 n) s g 0x12 f.record 0 :=
  (RunsBody.task h (exec_endTask a 1 n s)).raises (if_pos ⟨rfl, none'⟩) (by decide)

/-- The release of the successor that END sends (R144). -/
def succRelease (a : BitVec 5) (c : BitVec 1) (f : Frame) : List Op :=
  if c = 1 then [.release none false { type := 1, prio := f.prio, ctx := f.ctx, record := f.succ, arg := (f.getX a).setWidth 32 }] else []

/-- The node-done report that END makes (R144, R310). -/
theorem nodeReport_of_end (n : BitVec 1) (f : Frame) : (if n = 1 then nodeReport f else []) =
    if n = 1 ∧ f.d0.getLsbD 33 = true then [Op.notice f.node f.inst true (f.type == 3)] else [] := by
  by_cases hn : n = 1
  · simp only [hn, if_true, true_and]; rfl
  · simp only [hn, if_false, false_and]

theorem endTask_ends {a : BitVec 5} {c n : BitVec 1} (h : Runs s g f (.endTask a c n)) (succ : ¬(c = 1 ∧ f.succ = 0))
    (room : Room s g (succRelease a c f ++ if n = 1 then nodeReport f else []).length) :
    Safety.Ends (.endTask a c n) s g (Bogie.advance
      { s.bogie g with outbox := (s.bogie g).outbox ++ (succRelease a c f ++ if n = 1 then nodeReport f else []) }
      { f with claims := [] }) .ended := by
  refine (RunsBody.task h (exec_endTask a c n s)).ends ((if_neg succ).trans ?_)
  exact congrArg (Except.bind · _) (Bogie.send_ok room)

/-- BRK is an agent's word; on a bogie it ends the task (R301). -/
theorem brk_ends {n : BitVec 12} (h : Runs s g f (.brk n)) : Safety.Ends (.brk n) s g ((s.bogie g).advance { f with claims := [] })
    (.brk { code := 0x15, extra := BitVec.ofNat 64 (n.toNat * 2 ^ 32), pc := f.cpu.pc }) :=
  (RunsBody.agent h (exec_brk n s)).ends rfl

variable {d a : BitVec 5}

theorem endCont_misaligned (h : Runs s g f (.endCont d a)) (odd : (f.getX d).toNat % 4 ≠ 0) :
    Raises (.endCont d a) s g 0x04 (f.getX d).toNat 0 :=
  (RunsBody.task h (exec_endCont d a s)).raises (if_pos odd) (by decide)

theorem endCont_node (h : Runs s g f (.endCont d a)) (even : (f.getX d).toNat % 4 = 0) (node : f.type = 3) :
    Raises (.endCont d a) s g 0x12 f.record 0 :=
  (RunsBody.task h (exec_endCont d a s)).raises ((if_neg (not_not.2 even)).trans (if_pos node)) (by decide)

theorem endCont_ends {r : Route} {b1 : Bogie} (h : Runs s g f (.endCont d a)) (even : (f.getX d).toNat % 4 = 0) (task : f.type ≠ 3)
    (passed : checkAccess s g (s.bogie g) f .store f.record 8 = .ok r)
    (written : writeRoute (s.bogie g) f false r f.record (contBytes f (f.getX d)) = .ok b1) (room : b1.outbox.length + 1 ≤ 256) :
    Safety.Ends (.endCont d a) s g (Bogie.advance
      { b1 with outbox := b1.outbox ++ [.release none false
        { type := 1, prio := f.prio, ctx := f.ctx, record := f.record, arg := (f.getX a).setWidth 32 }] } { f with claims := [] }) .ended := by
  refine (RunsBody.task h (exec_endCont d a s)).ends ((if_neg (not_not.2 even)).trans ((if_neg task).trans ?_))
  simp only [bind, Except.bind, passed, written, Bogie.send_ok (l := [_]) room]

/-- The first doubleword of the record that END with .cont writes (R144). -/
def contWord (f : Frame) : Word :=
  BitVec.ofNat 64 (bits f.d0 63 33 * 2 ^ 33 + 2 ^ 32 + bits f.d0 31 20 * 2 ^ 20 + f.prio * 2 ^ 16 + bits f.d0 15 0)

theorem contBytes_eq (f : Frame) (pc : Word) :
    contBytes f pc = [contWord f, pc, f.getX 1, f.getX 2, f.getX 3, f.getX 4].flatMap fun w => bytesOfNat 8 w.toNat := rfl

/-- The fields of that doubleword: those of the record, with resume_valid set and the priority as it stands. -/
theorem contWord_fields (level : f.prio < 16) : (contWord f).toNat / 2 ^ 33 = f.d0.toNat / 2 ^ 33 ∧ (contWord f).toNat / 2 ^ 32 % 2 = 1 ∧
    (contWord f).toNat / 2 ^ 20 % 2 ^ 12 = f.d0.toNat / 2 ^ 20 % 2 ^ 12 ∧ (contWord f).toNat / 2 ^ 16 % 16 = f.prio ∧
    (contWord f).toNat % 2 ^ 16 = f.d0.toNat % 2 ^ 16 := by
  have high := f.d0.isLt
  have value : (contWord f).toNat =
      f.d0.toNat / 2 ^ 33 * 2 ^ 33 + 2 ^ 32 + f.d0.toNat / 2 ^ 20 % 2 ^ 12 * 2 ^ 20 + f.prio * 2 ^ 16 + f.d0.toNat % 2 ^ 16 := by
    simp only [contWord, bits, BitVec.toNat_ofNat]
    omega
  rw [value]
  omega

/-- Settles O17: each word's body is its commit (`RunsBody.ends`) or a fault (`RunsBody.raises`), and the record of END with .cont begins with
`contWord`. -/
theorem tasksYieldAndEnd : Obligations.TasksYieldAndEnd := by
  unfold Obligations.TasksYieldAndEnd
  refine ⟨fun s g f => ⟨fun n => yield_ends, fun a c n h => ⟨fun hc none' => ?_, fun succ room => ?_⟩⟩, fun s g f d a h =>
    ⟨endCont_misaligned h, endCont_node h, fun even task level => ⟨contWord f, contWord_fields level, fun r b1 passed written room =>
      endCont_ends h even task passed written room⟩⟩, fun s g f n => brk_ends⟩
  · subst hc
    exact endTask_raises h none'
  · rw [← nodeReport_of_end]
    rw [← nodeReport_of_end, ← List.length_append] at room
    refine endTask_ends h (fun ⟨one, zero⟩ => succ.elim (fun e => ?_) (absurd zero)) room
    exact absurd (e.symm.trans one) (by decide)

end

end Sys2Proof.Machine
end

section

/-! # Releases and claims (O18), priority, identity and groups (O19) -/

namespace Sys2Proof.Machine

open Sys2Proof.Safety

/-! ### RELEASE (R145, R404) -/

section

theorem exec_release (d a : BitVec 5) (x : BitVec 1) (p : BitVec 4) (s : State) : exec (.release d a x p) s = execRelease d a x p s := rfl
theorem exec_releaseDie (d a : BitVec 5) (e : BitVec 4) (x : BitVec 1) (p : BitVec 4) (s : State) :
    exec (.releaseDie d a e x p) s = execReleaseDie d a e x p s := rfl
theorem exec_releasePeer (d a : BitVec 5) (x : BitVec 1) (p : BitVec 4) (s : State) :
    exec (.releasePeer d a x p) s = execReleasePeer d a x p s := rfl

/-- The release that a RELEASE word sends (R145). -/
def taskRelease (f : Frame) (d a : BitVec 5) (x : BitVec 1) (p : BitVec 4) : Release :=
  { type := 1, prio := if x = 1 then p.toNat else f.prio, ctx := f.ctx, record := (f.getX d).toNat, arg := (f.getX a).setWidth 32 }

/-- The check of a record of another module (R404). -/
def peerRecordCheck (s : State) (ctx va : Nat) : Except Stop Unit :=
  if !bit (peerEntry s ctx va) 0 then .error (.fault 0x09 va 0) else if !bit (peerEntry s ctx va) 3 then .error (.fault 0x12 va 0) else .ok ()

variable {s : State} {b : Bogie} {f : Frame} {d a : BitVec 5} {x : BitVec 1} {p : BitVec 4} {die : Option Nat} {peer : Bool}

theorem releaseWord_misaligned (odd : (f.getX d).toNat % 64 ≠ 0) :
    releaseWord s b f d a die peer x p = .error (.fault 0x04 (f.getX d).toNat 0) := if_pos odd

variable (even : (f.getX d).toNat % 64 = 0)
include even

theorem releaseWord_range (wrong : (peer != (region (f.getX d).toNat == .peerWindow)) = true) :
    releaseWord s b f d a die peer x p = .error (.fault 0x12 (f.getX d).toNat 0) := (if_neg (not_not.2 even)).trans (if_pos wrong)

theorem releaseWord_own (own : region (f.getX d).toNat ≠ .peerWindow) : releaseWord s b f d a die false x p =
    (recordCheck b f.ctx (f.getX d).toNat).bind fun _ => (b.send [.release die false (taskRelease f d a x p)]).bind fun b => b.go f :=
  (if_neg (not_not.2 even)).trans ((if_neg (by simpa using own)).trans (if_neg (by decide)))

theorem releaseWord_peer (away : region (f.getX d).toNat = .peerWindow) : releaseWord s b f d a die true x p =
    (peerRecordCheck s f.ctx (f.getX d).toNat).bind fun _ => (b.send [.release die true (taskRelease f d a x p)]).bind fun b => b.go f :=
  (if_neg (not_not.2 even)).trans ((if_neg (by simp [away])).trans (if_pos rfl))

end

section

variable {b : Bogie} {ctx va : Nat}

theorem recordCheck_outside (away : region va ≠ .glob) : recordCheck b ctx va = .error (.fault 0x09 va 0) := if_pos away

theorem recordCheck_unmapped (here : region va = .glob) (none' : b.translate ctx va = .ok none) :
    recordCheck b ctx va = .error (.fault 0x09 va 0) := by
  refine (if_neg (not_not.2 here)).trans ?_
  rw [none']; rfl

theorem recordCheck_mapped {t : TlbEntry} (here : region va = .glob) (some' : b.translate ctx va = .ok (some t)) (readable : t.rd = true) :
    recordCheck b ctx va = .ok () := by
  refine (if_neg (not_not.2 here)).trans ?_
  rw [some']
  exact if_pos readable

end

section

variable {s : State} {g : Nat} {f : Frame} {d a : BitVec 5} {e : BitVec 4} {x : BitVec 1} {p : BitVec 4}

/-- A fault of the two forms of RELEASE within the module. -/
theorem release_raises {i : Instr} (form : i ∈ [Instr.release d a x p, .releaseDie d a e x p]) (h : Runs s g f i) {code addr : Nat}
    (hcode : code ≠ 0x01) (hb : ∀ die, releaseWord s (s.bogie g) f d a die false x p = .error (.fault code addr 0)) :
    Raises i s g code addr 0 := by
  rcases List.mem_cons.1 form with rfl | form
  · exact (RunsBody.task h (exec_release d a x p s)).raises (hb none) hcode
  · obtain rfl := List.mem_singleton.1 form
    exact (RunsBody.task h (exec_releaseDie d a e x p s)).raises (hb _) hcode

theorem releasePeer_raises (h : Runs s g f (.releasePeer d a x p)) {code addr : Nat} (hcode : code ≠ 0x01)
    (hb : releaseWord s (s.bogie g) f d a none true x p = .error (.fault code addr 0)) : Raises (.releasePeer d a x p) s g code addr 0 :=
  (RunsBody.task h (exec_releasePeer d a x p s)).raises hb hcode

/-- A misaligned record stops every form. -/
theorem release_misaligned {i : Instr} (form : i ∈ [Instr.release d a x p, .releaseDie d a e x p, .releasePeer d a x p]) (h : Runs s g f i)
    (odd : (f.getX d).toNat % 64 ≠ 0) : Raises i s g 0x04 (f.getX d).toNat 0 := by
  rcases List.mem_cons.1 form with rfl | form
  · exact release_raises (e := e) List.mem_cons_self h (by decide) fun _ => releaseWord_misaligned odd
  · rcases List.mem_cons.1 form with rfl | form
    · exact release_raises (List.mem_cons_of_mem _ (List.mem_singleton_self _)) h (by decide) fun _ => releaseWord_misaligned odd
    · obtain rfl := List.mem_singleton.1 form
      exact releasePeer_raises h (by decide) (releaseWord_misaligned odd)

/-- A mapped, readable record makes the body the sending of its release. -/
theorem releaseWord_mapped {die : Option Nat} {t : TlbEntry} (even : (f.getX d).toNat % 64 = 0) (here : region (f.getX d).toNat = .glob)
    (some' : (s.bogie g).translate f.ctx (f.getX d).toNat = .ok (some t)) (readable : t.rd = true) :
    releaseWord s (s.bogie g) f d a die false x p =
      ((s.bogie g).send [.release die false (taskRelease f d a x p)]).bind fun b => b.go f := by
  rw [releaseWord_own even (by rw [here]; decide), recordCheck_mapped here some' readable]; rfl

theorem releasePeer_sends (h : Runs s g f (.releasePeer d a x p)) (even : (f.getX d).toNat % 64 = 0)
    (away : region (f.getX d).toNat = .peerWindow) (valid : bit (peerEntry s f.ctx (f.getX d).toNat) 0 = true)
    (lets : bit (peerEntry s f.ctx (f.getX d).toNat) 3 = true) (room : Room s g 1) :
    Sends (.releasePeer d a x p) s g f [.release none true (taskRelease f d a x p)] := by
  refine (RunsBody.task h (exec_releasePeer d a x p s)).sends room ?_
  have passes : peerRecordCheck s f.ctx (f.getX d).toNat = .ok () := by simp [peerRecordCheck, valid, lets]
  exact (releaseWord_peer even away).trans (by rw [passes]; rfl)

theorem releasePeer_refused (h : Runs s g f (.releasePeer d a x p)) (even : (f.getX d).toNat % 64 = 0)
    (away : region (f.getX d).toNat = .peerWindow) {code : Nat} (hcode : code ≠ 0x01)
    (refused : peerRecordCheck s f.ctx (f.getX d).toNat = .error (.fault code (f.getX d).toNat 0)) :
    Raises (.releasePeer d a x p) s g code (f.getX d).toNat 0 :=
  releasePeer_raises h hcode ((releaseWord_peer even away).trans (by rw [refused]; rfl))

end

/-! ### CLAIM and UNCLAIM (R131, R146) -/

section

variable {s : State} {g : Nat} {f : Frame} {e : BitVec 6}

theorem exec_claim (e : BitVec 6) (s : State) : exec (.claim e) s = execClaim e s := rfl
theorem exec_unclaim (e : BitVec 6) (s : State) : exec (.unclaim e) s = execUnclaim e s := rfl

theorem claim_undeclared (h : Runs s g f (.claim e)) (none' : f.hdr.res.getLsbD e.toNat = false ∨ (s.ctx f.ctx).ceiling e.toNat = none) :
    Raises (.claim e) s g 0x0D 0 e.toNat := by
  refine (RunsBody.task h (exec_claim e s)).raises ?_ (by decide)
  rcases none' with undeclared | none'
  · simp [bit, undeclared]
  · simp [none']

variable {c : Nat × Nat} (declared : f.hdr.res.getLsbD e.toNat = true) (ceiling : (s.ctx f.ctx).ceiling e.toNat = some c)
include declared ceiling

theorem claim_order (h : Runs s g f (.claim e)) (bad : e.toNat ∈ f.claims.map (·.1) ∨ f.claims.length = 8) :
    Raises (.claim e) s g 0x0E 0 e.toNat := by
  refine (RunsBody.task h (exec_claim e s)).raises ?_ (by decide)
  simp only [bit, declared, if_true, ceiling]
  exact if_pos (bad.imp_left fun mem => by simpa [List.any_eq_true] using mem)

theorem claim_goes (h : Runs s g f (.claim e)) (fresh : e.toNat ∉ f.claims.map (·.1)) (few : f.claims.length ≠ 8) :
    TaskGoes (.claim e) s g { f with claims := (e.toNat, c.1) :: f.claims } := by
  refine taskWord_goes (exec_claim e s) h ?_
  simp only [bit, declared, if_true, ceiling]
  exact if_neg (not_or.2 ⟨fun mem => fresh (by simpa [List.any_eq_true] using mem), few⟩)

end

section

variable {s : State} {g : Nat} {f : Frame} {e : BitVec 6} (h : Runs s g f (.unclaim e))
include h

theorem unclaim_undeclared (undeclared : f.hdr.res.getLsbD e.toNat = false) : Raises (.unclaim e) s g 0x0D 0 e.toNat :=
  (RunsBody.task h (exec_unclaim e s)).raises (if_pos (by simp [bit, undeclared])) (by decide)

variable (declared : f.hdr.res.getLsbD e.toNat = true)
include declared

theorem unclaim_order (other : f.claims.head?.map (·.1) ≠ some e.toNat) : Raises (.unclaim e) s g 0x0E 0 e.toNat := by
  refine (RunsBody.task h (exec_unclaim e s)).raises ((if_neg (by simp [bit, declared])).trans ?_) (by decide)
  cases top : f.claims with
  | nil => rfl
  | cons k r => exact if_neg fun same => other (by rw [top]; exact congrArg some same)

theorem unclaim_goes {c : Nat} {r : List (Nat × Nat)} (top : f.claims = (e.toNat, c) :: r) : TaskGoes (.unclaim e) s g { f with claims := r } := by
  refine taskWord_goes (exec_unclaim e s) h ((if_neg (by simp [bit, declared])).trans ?_)
  rw [top]
  exact if_pos rfl

end

/-- Settles O18: the checks of a RELEASE in their order (`releaseWord_misaligned` to `releaseWord_peer`), and each outcome of a claim. -/
theorem releasesAndClaims : Obligations.ReleasesAndClaims := by
  unfold Obligations.ReleasesAndClaims
  refine ⟨fun s g f d a e x p => ⟨fun i form h odd => release_misaligned form h odd, fun i form h even =>
      ⟨fun away => ?_, fun own outside => ?_, fun here none' => ?_⟩, fun even here t some' readable room =>
      ⟨fun h => (RunsBody.task h (exec_release d a x p s)).sends room (releaseWord_mapped even here some' readable),
        fun h => (RunsBody.task h (exec_releaseDie d a e x p s)).sends room (releaseWord_mapped even here some' readable)⟩, fun h even =>
      ⟨fun own => ?_, fun away invalid => ?_, fun away valid shut => ?_,
        fun away valid lets room => releasePeer_sends h even away valid lets room⟩⟩,
    fun s g f e => ⟨fun h => ⟨claim_undeclared h,
      fun declared c ceiling => ⟨claim_order declared ceiling h, claim_goes declared ceiling h⟩⟩, fun h =>
      ⟨unclaim_undeclared h, unclaim_order h, fun declared c r top => unclaim_goes h declared top⟩⟩⟩
  · exact release_raises form h (by decide) fun _ => releaseWord_range even (by simp [away])
  · exact release_raises form h (by decide) fun _ => by rw [releaseWord_own even own, recordCheck_outside outside]; rfl
  · exact release_raises form h (by decide) fun _ => by
      rw [releaseWord_own even (by rw [here]; decide), recordCheck_unmapped here none']; rfl
  · exact releasePeer_raises h (by decide) (releaseWord_range even (by simpa using own))
  · exact releasePeer_refused h even away (by decide) (if_pos (by simp [invalid]))
  · exact releasePeer_refused h even away (by decide) ((if_neg (by simp [valid])).trans (if_pos (by simp [shut])))

/-! ### PRIO, SELF and the group words (R147, R148, R317, R318) -/

section

variable {s : State} {g : Nat} {f : Frame} {d a : BitVec 5}

theorem exec_prioSet (d a : BitVec 5) (s : State) : exec (.prioSet d a) s = execPrioSet d a s := rfl
theorem exec_gnode (d : BitVec 5) (s : State) : exec (.gnode d) s = execGnode d s := rfl
theorem exec_gnodeN (d : BitVec 5) (s : State) : exec (.gnodeN d) s = execGnodeN d s := rfl
theorem exec_gdec (a : BitVec 5) (c : BitVec 12) (s : State) : exec (.gdec a c) s = execGdec a c s := rfl

/-- The lowest priority that PRIO.set gives (R147). -/
def lowestPrio (s : State) (b : Bogie) (f : Frame) : Nat :=
  b.stack.tail.head?.elim (s.ctx f.ctx).bandLow fun under => max (s.ctx f.ctx).bandLow (under.threshold b.floor + 1)

/-- The highest priority that PRIO.set gives (R147). -/
def highestPrio (s : State) (f : Frame) : Nat := min (s.ctx f.ctx).bandHigh (lowestCeiling (s.ctx f.ctx) f.hdr)

theorem setPrio_eq (s : State) (b : Bogie) (f : Frame) (p : Nat) : setPrio s b f p =
    if f.prio = 15 ∨ highestPrio s f < lowestPrio s b f then f.prio else min (max p (lowestPrio s b f)) (highestPrio s f) := by
  rw [setPrio, lowestPrio, highestPrio]
  cases b.stack.tail <;> rfl

theorem prioSet_goes (h : Runs s g f (.prioSet d a)) : TaskGoes (.prioSet d a) s g
    { f.setX d (prioWord (s.bogie g) f) with prio := setPrio s (s.bogie g) f ((f.getX a).toNat % 16) } :=
  taskWord_goes (exec_prioSet d a s) h rfl

theorem prioSet_stays (h : Runs s g f (.prioSet d a)) (stays : f.prio = 15 ∨ highestPrio s f < lowestPrio s (s.bogie g) f) :
    TaskGoes (.prioSet d a) s g (f.setX d (prioWord (s.bogie g) f)) := by
  have goes := prioSet_goes h
  rw [setPrio_eq, if_pos stays] at goes
  exact goes

theorem prioSet_clamps (h : Runs s g f (.prioSet d a)) (low : f.prio ≠ 15) (between : lowestPrio s (s.bogie g) f ≤ highestPrio s f) :
    TaskGoes (.prioSet d a) s g { f.setX d (prioWord (s.bogie g) f) with
      prio := min (max ((f.getX a).toNat % 16) (lowestPrio s (s.bogie g) f)) (highestPrio s f) } := by
  have goes := prioSet_goes h
  rw [setPrio_eq, if_neg (not_or.2 ⟨low, Nat.not_lt.2 between⟩)] at goes
  exact goes

theorem gnode_goes (h : Runs s g f (.gnode d)) :
    TaskGoes (.gnode d) s g (f.setX d (if f.d0.getLsbD 33 = true then f.inst ++ f.node else BitVec.allOnes 64)) :=
  taskWord_goes (exec_gnode d s) h rfl

theorem gnodeN_goes (h : Runs s g f (.gnodeN d)) :
    TaskGoes (.gnodeN d) s g (f.setX d (if f.d0.getLsbD 33 = true then BitVec.ofNat 64 f.ninst else BitVec.allOnes 64)) :=
  taskWord_goes (exec_gnodeN d s) h rfl

/-- A node reference that GDEC refuses (R317). -/
theorem gdec_refuses (x : Word) : (bits x 63 32 ≠ 0 ∨ 7 < bits x 31 28) ↔ (x.toNat / 2 ^ 32 ≠ 0 ∨ 7 < x.toNat / 2 ^ 28 % 16) := by
  have := x.isLt
  simp only [bits]
  omega

variable {c : BitVec 12} (h : Runs s g f (.gdec a c))
include h

theorem gdec_raises (bad : (f.getX a).toNat / 2 ^ 32 ≠ 0 ∨ 7 < (f.getX a).toNat / 2 ^ 28 % 16) :
    Raises (.gdec a c) s g 0x12 (f.getX a).toNat 0 :=
  (RunsBody.task h (exec_gdec a c s)).raises (if_pos ((gdec_refuses _).2 bad)) (by decide)

theorem gdec_sends (good : ¬((f.getX a).toNat / 2 ^ 32 ≠ 0 ∨ 7 < (f.getX a).toNat / 2 ^ 28 % 16)) (room : Room s g 1) :
    Sends (.gdec a c) s g f [.gdec (f.getX a) c.toNat] :=
  (RunsBody.task h (exec_gdec a c s)).sends room (if_neg ((gdec_refuses _).not.2 good))

end

/-- Settles O19: each word but GDEC goes on with one frame, and PRIO.set keeps or clamps the priority as `setPrio_eq` says. -/
theorem priorityIdentityAndGroups : Obligations.PriorityIdentityAndGroups := by
  unfold Obligations.PriorityIdentityAndGroups
  exact ⟨fun s g f d a => ⟨prio_goes, fun h => ⟨prioSet_stays h, prioSet_clamps h⟩⟩,
    fun s g f d => ⟨self_goes, selfFrame_goes, gnode_goes, gnodeN_goes⟩,
      fun s g f a c h => ⟨gdec_raises h, fun short die => gdec_sends h (by omega)⟩⟩

end Sys2Proof.Machine
end

section

/-! # Stores (O22)

A store whose access passes its checks (`checkAccess_mapped`, `checkAccess_own`) is one outbox entry, since an aligned access lies in one block of
64 bytes (`blocks_placed_one`), or a journalled write of the own scratchpad, which `Bogie.undo` takes back (`undo_scratchWrite`). -/

namespace Sys2Proof.Machine

open Sys2Proof.Safety

/-! ### Accesses that pass their checks (R191) -/

section

variable {s : State} {g : Nat} {b : Bogie} {f : Frame} {va n : Nat}

theorem alignCheck_glob (here : region va = .glob) (aligned : va % n = 0) : alignCheck va n = .ok () := by
  simp [alignCheck, aligned, here]

theorem boundCheck_glob (h : Header) (here : region va = .glob) : boundCheck h va n = .ok () := by
  simp [boundCheck, here]

/-- A page that a scalar store may write (R175, R348). -/
structure StorePage (b : Bogie) (ctx va : Nat) (e : TlbEntry) : Prop where
  mapped : b.translate ctx va = .ok (some e)
  readable : e.rd = true
  writable : e.w = true
  plain : e.cls ≠ 5

theorem pageCheck_store {ctx : Nat} {e : TlbEntry} (p : StorePage b ctx va e) {k : AccKind} (scalar : k = .store ∨ k = .stl) :
    pageCheck b ctx k va = .ok e := by
  rcases scalar with rfl | rfl <;> simp [pageCheck, p.mapped, p.readable, p.writable, p.plain, AccKind.vector, bind, Except.bind]

/-- A scalar store to a mapped page goes to a device or to memory. -/
theorem checkAccess_mapped {e : TlbEntry} (here : region va = .glob) (aligned : va % n = 0) (p : StorePage b f.ctx va e) {k : AccKind}
    (scalar : k = .store ∨ k = .stl) : checkAccess s g b f k va n = .ok (if e.cls = 4 then .device else .mem e) := by
  have range : rangeCheck s g f.ctx k va = .ok () := by simp [rangeCheck, here]
  simp only [checkAccess, range, alignCheck_glob here aligned, boundCheck_glob f.hdr here, here, pageCheck_store p scalar, bind, Except.bind]

/-- A store to the declared bytes of window 0 that no matrix command holds goes to the own scratchpad (R168, R169, R269). -/
theorem checkAccess_own {o : Nat} (here : region va = .own 0 o) (aligned : va % n = 0) (some' : 0 < n) (fits : o + n ≤ 0x10000)
    (declared : o + n ≤ f.hdr.scratch * 256) (free : scratchBusy s g b f true o (o + n) = false) :
    checkAccess s g b f .store va n = .ok (.own 0 o) := by
  have range : rangeCheck s g f.ctx .store va = .ok () := by simp [rangeCheck, here, AccKind.writes]
  have align : alignCheck va n = .ok () := by simp [alignCheck, aligned, here, windowElem, Nat.not_lt.2 fits, Nat.mod_one]
  have last : o + n - 1 + 1 = o + n := by omega
  have bound : boundCheck f.hdr va n = .ok () := by simp [boundCheck, here, rawBeyond, rawOf, windowElem, last, declared]
  simp [checkAccess, range, align, bound, here, rawSpan, rawOf, windowElem, last, AccKind.writes, free, bind, Except.bind]

end

/-! ### One block (R137) -/

theorem placed_lt {a : Nat} {l : List Byte} {e : Nat × Byte} (h : e ∈ placed a l) : e.1 < a + l.length := by
  induction l generalizing a with
  | nil => cases h
  | cons v r ih =>
    rw [List.length_cons]
    rcases List.mem_cons.1 h with rfl | h
    · exact Nat.lt_add_of_pos_right (Nat.succ_pos _)
    · have := ih h
      omega

/-- Bytes that lie in one block of 64 are one entry. -/
theorem blocks_placed_one {a : Nat} {l : List Byte} (some' : l ≠ []) (one : (a + l.length - 1) / 64 = a / 64) :
    blocks (placed a l) = [placed a l] := by
  have keys : ∀ e ∈ placed a l, e.1 / 64 = a / 64 := fun e he => by
    have low := mem_placed he
    have high := placed_lt he
    refine Nat.le_antisymm ?_ (Nat.div_le_div_right low)
    rw [← one]
    exact Nat.div_le_div_right (by omega)
  have dups : ((placed a l).map fun e => e.1 / 64).eraseDups = [a / 64] := by
    refine eraseDups_of_all_eq ?_ fun k hk => ?_
    · cases l with
      | nil => exact absurd rfl some'
      | cons v r => exact List.cons_ne_nil _ _
    · obtain ⟨e, he, rfl⟩ := List.mem_map.1 hk
      exact keys e he
  rw [blocks, dups, List.map_singleton, List.filter_eq_self.2 fun e he => by simpa using keys e he]

/-- The bytes of an aligned scalar access lie in one block. -/
theorem block_of_aligned {va k : Nat} (hk : k < 4) (aligned : va % 2 ^ k = 0) : (va + 2 ^ k - 1) / 64 = va / 64 := by
  interval_cases k <;> omega

theorem bytesOfNat_ne_nil {n v : Nat} (some' : 0 < n) : bytesOfNat n v ≠ [] :=
  List.ne_nil_of_length_pos (by rwa [bytesOfNat_length])

/-! ### ST and STL (R137, R138, R195, R196) -/

theorem exec_st (t b : BitVec 5) (d : BitVec 13) (q : BitVec 2) (s : State) : exec (.st t b d q) s = execSt t b d q s := rfl
theorem exec_stl (t b : BitVec 5) (d : BitVec 13) (q : BitVec 2) (s : State) : exec (.stl t b d q) s = execStl t b d q s := rfl

section

variable {s : State} {g : Nat} {f : Frame} {t b : BitVec 5} {d : BitVec 13} {q : BitVec 2}

/-- The bytes that a scalar store of n bytes stores, at their addresses. -/
def storeBytes (f : Frame) (t b : BitVec 5) (d : BitVec 13) (n : Nat) : Tab Byte :=
  placed (dispAddr f.cpu b d n) (bytesOfNat n (f.getX t).toNat)

/-- Where a store to mapped memory goes on: its entry is sent. -/
theorem storeWord_sends {e : TlbEntry} (here : region (dispAddr f.cpu b d (2 ^ q.toNat)) = .glob)
    (aligned : dispAddr f.cpu b d (2 ^ q.toNat) % 2 ^ q.toNat = 0) (p : StorePage (s.bogie g) f.ctx (dispAddr f.cpu b d (2 ^ q.toNat)) e) :
    storeWord s g (s.bogie g) f t b d q =
      ((s.bogie g).send [.store (storeBytes f t b d (2 ^ q.toNat)) (e.cls == 4) (modBypass f.cpu.pfx.mod) none]).bind fun b => b.go f := by
  have one : blocks (storeBytes f t b d (2 ^ q.toNat)) = [storeBytes f t b d (2 ^ q.toNat)] :=
    blocks_placed_one (bytesOfNat_ne_nil (Nat.two_pow_pos _)) (by rw [bytesOfNat_length]; exact block_of_aligned q.isLt aligned)
  have route : writeRoute (s.bogie g) f (modBypass f.cpu.pfx.mod) (if e.cls = 4 then .device else .mem e) (dispAddr f.cpu b d (2 ^ q.toNat))
      (bytesOfNat (2 ^ q.toNat) (f.getX t).toNat) =
      (s.bogie g).send [.store (storeBytes f t b d (2 ^ q.toNat)) (e.cls == 4) (modBypass f.cpu.pfx.mod) none] := by
    rw [storeBytes] at one
    by_cases device : e.cls = 4
    · simp only [device, if_true, writeRoute, one]; rfl
    · simp only [device, if_false, writeRoute, one, List.map_singleton, beq_false_of_ne device]; rfl
  simp only [storeWord, checkAccess_mapped here aligned p (.inl rfl), bind, Except.bind, route]

theorem st_sends {e : TlbEntry} (h : Runs s g f (.st t b d q)) (here : region (dispAddr f.cpu b d (2 ^ q.toNat)) = .glob)
    (aligned : dispAddr f.cpu b d (2 ^ q.toNat) % 2 ^ q.toNat = 0) (p : StorePage (s.bogie g) f.ctx (dispAddr f.cpu b d (2 ^ q.toNat)) e)
    (room : Room s g 1) :
    Sends (.st t b d q) s g f [.store (storeBytes f t b d (2 ^ q.toNat)) (e.cls == 4) (modBypass f.cpu.pfx.mod) none] :=
  (RunsBody.agent h (exec_st t b d q s)).sends room (storeWord_sends here aligned p)

theorem stl_sends {e : TlbEntry} (h : Runs s g f (.stl t b d q)) (here : region (dispAddr f.cpu b d (2 ^ q.toNat)) = .glob)
    (aligned : dispAddr f.cpu b d (2 ^ q.toNat) % 2 ^ q.toNat = 0) (p : StorePage (s.bogie g) f.ctx (dispAddr f.cpu b d (2 ^ q.toNat)) e)
    (room : Room s g 1) : Sends (.stl t b d q) s g f [.store (storeBytes f t b d (2 ^ q.toNat)) true false none] := by
  refine (RunsBody.agent h (exec_stl t b d q s)).sends room ?_
  simp only [releaseStoreWord, checkAccess_mapped here aligned p (.inr rfl), bind, Except.bind]
  by_cases device : e.cls = 4 <;> simp only [device, if_true, if_false] <;> rfl

/-- A store whose access is the own scratchpad's is a journalled write. -/
theorem storeWord_own {o : Nat} (passed : checkAccess s g (s.bogie g) f .store (dispAddr f.cpu b d (2 ^ q.toNat)) (2 ^ q.toNat) = .ok (.own 0 o)) :
    storeWord s g (s.bogie g) f t b d q =
      ((s.bogie g).ownWrite (f.sbase + o) (bytesOfNat (2 ^ q.toNat) (f.getX t).toNat)).bind fun b => b.go f := by
  simp only [storeWord, passed, bind, Except.bind, writeRoute]

end

/-! ### The journal (R135, R138, R140) -/

section

variable {b : Bogie} {a : Nat} {l : List Byte}

theorem ownWrite_ok (room : b.journal.length + (b.journalNeed a l.length).length ≤ 256) :
    b.ownWrite a l = .ok ((b.journalise a l.length).scratchWrite a l) := if_neg (by omega)

theorem ownWrite_full (full : 256 < b.journal.length + (b.journalNeed a l.length).length) : b.ownWrite a l = .error .commit := if_pos full

/-- A store to the own scratchpad is made at once, or commits the activation before it. -/
theorem st_own {s : State} {g : Nat} {f : Frame} {t b : BitVec 5} {d : BitVec 13} {q : BitVec 2} {o : Nat} (h : Runs s g f (.st t b d q))
    (passed : checkAccess s g (s.bogie g) f .store (dispAddr f.cpu b d (2 ^ q.toNat)) (2 ^ q.toNat) = .ok (.own 0 o)) :
    ((s.bogie g).journal.length + ((s.bogie g).journalNeed (f.sbase + o) (2 ^ q.toNat)).length ≤ 256 → exec (.st t b d q) s = .next (s.afterWord g
      { b := (((s.bogie g).journalise (f.sbase + o) (2 ^ q.toNat)).scratchWrite (f.sbase + o)
          (bytesOfNat (2 ^ q.toNat) (f.getX t).toNat)).advance f })) ∧
    (256 < (s.bogie g).journal.length + ((s.bogie g).journalNeed (f.sbase + o) (2 ^ q.toNat)).length →
      Safety.Ends (.st t b d q) s g ((s.bogie g).setTop { f with
        cpu := { f.cpu with pc := f.cpu.prefixStart, pfx := {} }, instret := f.instret - f.cpu.prefixWords }) .commit) := by
  have body := RunsBody.agent h (exec_st t b d q s)
  have length := bytesOfNat_length (2 ^ q.toNat) (f.getX t).toNat
  refine ⟨fun room => body.goes ((storeWord_own passed).trans ?_), fun full => body.commits ((storeWord_own passed).trans ?_)⟩
  · rw [ownWrite_ok (by rw [length]; exact room), length]; rfl
  · rw [ownWrite_full (by rw [length]; exact full)]; rfl

/-- Bytes within one sector need its entry alone. -/
theorem journalNeed_one {n : Nat} (new : b.journal = []) (some' : 0 < n) (one : a / 32 = (a + n - 1) / 32) : b.journalNeed a n = [a / 32] := by
  simp [Bogie.journalNeed, new, sectorsOf, Nat.ne_of_gt some', ← one]

/-- A journal of one sector, undone, gives that sector back. -/
theorem undo_scratch_one {k : Nat} {old : List Byte} {p : Bool} (h : b.journal = [(k, old, p)]) :
    b.undo.scratch = Tab.setList b.scratch 0 (32 * k) old := by
  simp [Bogie.undo, h]

/-- A table put back over a range reads there as it did before. -/
theorem get_setList_range (t u : Tab Byte) {lo n x : Nat} (low : lo ≤ x) (high : x < lo + n) :
    Tab.get (Tab.setList t 0 lo (Tab.range u 0 lo n)) 0 x = Tab.get u 0 x := by
  obtain ⟨i, rfl⟩ := Nat.exists_eq_add_of_le low
  have inside : i < (Tab.range u 0 lo n).length := by
    rw [Tab.range, List.length_map, List.length_range]; omega
  rw [Tab.get_setList _ _ _ _ _ inside]
  simp [Tab.range]

/-- One store within a sector, undone, leaves every byte as it was. -/
theorem undo_scratchWrite (new : b.journal = []) (some' : 0 < l.length) (one : a / 32 = (a + l.length - 1) / 32) (x : Nat) :
    Tab.get ((b.journalise a l.length).scratchWrite a l).undo.scratch 0 x = Tab.get b.scratch 0 x := by
  have journal : ((b.journalise a l.length).scratchWrite a l).journal =
      [(a / 32, Tab.range b.scratch 0 (32 * (a / 32)) 32, b.spoison.contains (a / 32))] := by
    simp [Bogie.scratchWrite, Bogie.journalise, new, journalNeed_one new some' one]
  rw [undo_scratch_one journal]
  by_cases inside : 32 * (a / 32) ≤ x ∧ x < 32 * (a / 32) + 32
  · exact get_setList_range _ _ inside.1 inside.2
  · rw [Tab.get_setList_other _ _ _ _ _ (by rw [Tab.range, List.length_map, List.length_range]; omega)]
    exact Tab.get_setList_other l b.scratch 0 a x (by omega)

end

/-- Settles O22: a store's one entry (`st_sends`, `stl_sends`), its journalled write (`storeWord_own`), and the sector given back
(`undo_scratchWrite`). -/
theorem stores : Obligations.Stores := by
  unfold Obligations.Stores
  exact ⟨fun s g f t b d q e here aligned mapped readable writable plain room =>
      ⟨fun h => st_sends h here aligned ⟨mapped, readable, writable, plain⟩ room,
        fun h => stl_sends h here aligned ⟨mapped, readable, writable, plain⟩ room⟩,
    fun s g f t b d q h o here aligned fits declared free =>
      st_own h (checkAccess_own here aligned (Nat.two_pow_pos _) fits declared free),
    fun b a l new some' one => ⟨undo_scratchWrite new some' one, rfl⟩⟩

end Sys2Proof.Machine
end

section

/-! # Activations begin (O40) -/

namespace Sys2Proof.Machine

open Sys2Proof.Safety

/-! ### Steps that change one bogie -/

theorem onlyBogie_trans {s t u : State} {g : Nat} (h : OnlyBogie s t g) (k : OnlyBogie t u g) : OnlyBogie s u g :=
  ⟨fun g' ne => (k.1 g' ne).trans (h.1 g' ne), k.2.trans h.2⟩

theorem onlyBogie_setBogie (s : State) (g : Nat) (b : Bogie) : OnlyBogie s (s.setBogie g b) g :=
  ⟨fun g' ne => s.setBogie_other g g' b (Ne.symm ne), rfl⟩

/-! ### The triggering message (R133, R163, R186) -/

section

variable {s : State} {g : Nat} {f : Frame} {r : List Frame}

/-- An activation of bogie g has begun: f0 is its checkpoint, f the frame on top, and it stands in a phase. -/
def Activates (s : State) (g : Nat) (f0 : Frame) (r : List Frame) (f : Frame) (ph : Phase) (t : State) : Prop :=
  (t.bogie g).stack = { f with acquire := false, await := none } :: r ∧ (t.bogie g).phase = ph ∧ (t.bogie g).ckpt = some f0 ∧
  (t.bogie g).cycle = s.clock ∧ (t.bogie g).outbox = [] ∧ (t.bogie g).journal = [] ∧ (t.bogie g).rep = none ∧ OnlyBogie s t g

theorem start_activates (new : (s.bogie g).ckpt = none) (top : (s.bogie g).stack = f :: r) (f' : Frame) (ph : Phase) :
    Activates s g f r f' ph (s.start g f f' ph) := by
  have latch : s.latch g = s.setBogie g { s.bogie g with cycle := s.clock, cwp := (s.coach (coachOf g)).pointers, pfLatch := s.pfCounters g } := by
    simp [State.latch, new]
  have only : OnlyBogie s (s.start g f f' ph) g := by
    rw [State.start, latch]
    exact onlyBogie_trans (onlyBogie_setBogie ..) (onlyBogie_setBogie ..)
  refine ⟨?stack, ?_, ?_, ?cycle, ?_, ?_, ?_, only⟩ <;> rw [State.start, latch, State.setBogie_same, State.setBogie_same]
  case stack => split <;> simp only [Bogie.acquireActions, top, List.tail_cons]
  case cycle => split <;> rfl

/-- A bogie waits for the triggering message of frame f, and may take it (R104, R133, R141, R171). -/
structure Awake (s : State) (g : Nat) (f : Frame) (r : List Frame) : Prop where
  stack : (s.bogie g).stack = f :: r
  phase : (s.bogie g).phase = .waiting
  thawed : (s.ctx f.ctx).freezing = false
  live : (s.ctx f.ctx).state ≠ 5
  streak : (s.bogie g).streak < 3
  held : (s.bogie g).held = []
  new : (s.bogie g).ckpt = none
  later : (s.bogie g).cycle < s.clock

/-- The fault of a word whose request failed (R203, R408, R409). -/
def awaitFault (a : Await) (e : Nat × Word) : FaultInfo :=
  if e.1 = 0x02 then { code := 0x02, addr := e.2, extra := BitVec.ofNat 64 (a.word.toNat * 2 ^ 32) } else { code := e.1, addr := e.2 }

variable (k : Awake s g f r)
include k

/-- What the message brings: by what the frame awaits and how it was answered. -/
theorem triggerDelivery_awake : triggerDelivery g s = match f.await with
    | none => s.start g f f .running
    | some a => match a.reply with
      | none => s
      | some (.ok v) => s.start g f { f.setX a.dest (a.value v) with acquire := f.acquire || a.acquire } .running
      | some (.error e) => (s.start g f { f with cpu := { f.cpu with pc := a.pc } } (.boundary (.fault (awaitFault a e)))).add
          [{ ev := .witnessVerdict, arg := { g := g } }] := by
  have ready : ¬((s.ctx f.ctx).freezing = true ∨ (s.ctx f.ctx).state = 5 ∨ 3 ≤ (s.bogie g).streak) := by
    simp [k.thawed, k.live, k.streak]
  have now : ¬((!(s.bogie g).held.isEmpty) = true ∨ ((s.bogie g).ckpt.isNone = true ∧ s.clock ≤ (s.bogie g).cycle)) := by
    simp [k.held, k.later]
  simp only [triggerDelivery, k.stack, k.phase, if_neg ready, if_neg now]
  rfl

theorem triggerDelivery_begins (none' : f.await = none) : Activates s g f r f .running (triggerDelivery g s) := by
  rw [triggerDelivery_awake k, none']
  exact start_activates k.new k.stack ..

theorem triggerDelivery_answered {a : Await} {v : Word} (awaits : f.await = some a) (reply : a.reply = some (.ok v)) :
    Activates s g f r (f.setX a.dest (a.value v)) .running (triggerDelivery g s) := by
  simp only [triggerDelivery_awake k, awaits, reply]
  exact start_activates k.new k.stack { f.setX a.dest (a.value v) with acquire := f.acquire || a.acquire } .running

theorem triggerDelivery_failed {a : Await} {e : Nat × Word} (awaits : f.await = some a) (reply : a.reply = some (.error e)) :
    Activates s g f r { f with cpu := { f.cpu with pc := a.pc } } (.boundary (.fault (awaitFault a e))) (triggerDelivery g s) := by
  simp only [triggerDelivery_awake k, awaits, reply]
  exact start_activates k.new k.stack ..

end

/-- Settles O40: a bogie that may take its message begins the activation (`start_activates`) by what its frame awaits. -/
theorem triggersBeginActivations : Obligations.TriggersBeginActivations := by
  unfold Obligations.TriggersBeginActivations
  intro s f r g b stack phase thawed live streak held new later begins
  have k : Awake s g f r := ⟨stack, phase, thawed, live, streak, held, new, later⟩
  exact ⟨fun none' => ⟨_, rfl, triggerDelivery_begins k none'⟩, fun a awaits =>
    ⟨fun v reply => ⟨_, rfl, triggerDelivery_answered k awaits reply⟩, fun e reply => ⟨_, rfl, triggerDelivery_failed k awaits reply⟩⟩⟩

end Sys2Proof.Machine
end

section

/-! # Verdicts (O41)

A match forwards the outbox (`State.forwardTop`): what it does to the bogies before that is the use of copied bytes (`State.Counts`), and what is
forwarded is the entries in their order, numbered (`forwardOps_sends`). With nothing outstanding and nothing stored at the die, the rest of the
boundary only lets the top frame go on (`afterBoundary_quiet`). -/

namespace Sys2Proof.Machine

open Sys2Proof.Safety

/-! ### What counts the use of copied bytes (R189) -/

/-- Bogie b' is b but for what counts the use of copied bytes. -/
def Bogie.Counts (b b' : Bogie) : Prop := ∃ n l, b' = { b with pfUsed := n, fresh := l }

theorem Bogie.Counts.refl (b : Bogie) : b.Counts b := ⟨_, _, rfl⟩

theorem Bogie.Counts.trans {a b c : Bogie} (h : a.Counts b) (k : b.Counts c) : a.Counts c := by
  obtain ⟨n, l, rfl⟩ := h
  obtain ⟨m, j, rfl⟩ := k
  exact ⟨m, j, rfl⟩

theorem Bogie.counts_useFresh (b : Bogie) (lo n : Nat) : b.Counts (b.useFresh lo n) := by
  simp only [Bogie.useFresh]
  split
  · exact .refl b
  · exact ⟨_, _, rfl⟩

/-- Every bogie of t is that of s but for such counts, and all else is as it was. -/
structure State.Counts (s t : State) : Prop where
  bogie : ∀ g, (s.bogie g).Counts (t.bogie g)
  rest : t = { s with bogies := t.bogies }

theorem State.Counts.refl (s : State) : s.Counts s := ⟨fun _ => .refl _, rfl⟩

theorem State.Counts.use {s t : State} (h : s.Counts t) (e : Nat × Nat × Nat) : s.Counts (t.setBogie e.1 ((t.bogie e.1).useFresh e.2.1 e.2.2)) := by
  refine ⟨fun g => ?_, by rw [State.setBogie, h.rest]⟩
  by_cases same : e.1 = g
  · subst same
    rw [State.setBogie_same]
    exact (h.bogie e.1).trans (Bogie.counts_useFresh ..)
  · rw [State.setBogie_other _ _ _ _ same]
    exact h.bogie g

/-- The bogies whose scratchpads an activation has read through the peer region, with the use counted. -/
def State.countPeers (s : State) (l : List (Nat × Nat × Nat)) : State :=
  l.foldl (fun s e => s.setBogie e.1 ((s.bogie e.1).useFresh e.2.1 e.2.2)) s

theorem State.counts_countPeers (s : State) (l : List (Nat × Nat × Nat)) : s.Counts (s.countPeers l) :=
  List.foldlRecOn (motive := fun t => s.Counts t) l _ (.refl s) fun _ h e _ => h.use e

theorem State.usePeers_eq (s : State) (g : Nat) : s.usePeers g =
    (s.countPeers (s.bogie g).peerReads).setBogie g { (s.countPeers (s.bogie g).peerReads).bogie g with peerReads := [] } := rfl

/-! ### The end of a quiet boundary (R128, R139) -/

section

variable {s : State} {g : Nat}

/-- With nothing held nothing is applied. -/
theorem releaseHeld_nil (held : (s.bogie g).held = []) (watch : Bool) : s.releaseHeld g watch = s.setBogie g (s.bogie g) := by
  have same : { s.bogie g with held := [] } = s.bogie g := by rw [← held]
  simp [State.releaseHeld, held, same]

/-- With nothing under way nothing is sent. -/
theorem pump_nil {a : Agent} (transit : s.transitOf a = []) : s.pump a = s := by simp [State.pump, transit]

/-- With no release at the die none is chosen. -/
theorem decision_nil (store : (s.die (dieOf g)).store = []) : s.decision g = none := by
  simp [State.decision, State.fifoHead, store, List.findSome?_eq_none_iff]

theorem preempt_nil (store : (s.die (dieOf g)).store = []) : s.preempt g = s := by
  rw [State.preempt, decision_nil store]

theorem retry_nil (store : (s.die (dieOf g)).store = []) (ctx : Nat) : s.retry g ctx = s := by
  rw [State.retry, store]; rfl

theorem checkBwait_idle (top : ∀ f, (s.bogie g).stack.head? = some f → f.await = none) : s.checkBwait g = s := by
  rw [State.checkBwait]
  split
  next f r stack phase => rw [top f (by rw [stack]; rfl)]
  next => rfl

/-- Nothing that bogie g has is outstanding, no release is stored at its die, and the frame on top awaits nothing. -/
structure Still (s : State) (g : Nat) : Prop where
  held : (s.bogie g).held = []
  transit : (s.bogie g).transit = []
  store : (s.die (dieOf g)).store = []
  top : ∀ f, (s.bogie g).stack.head? = some f → f.await = none

/-- The phase in which a boundary leaves a stack. -/
def phaseOf (l : List Frame) : Phase := if l.isEmpty then .idle else .waiting

/-- A boundary of bogie g ends, and leaves it as b: its top frame goes on. -/
structure Resumes (s t : State) (g : Nat) (b : Bogie) : Prop where
  bogie : t.bogie g = { b with phase := phaseOf b.stack }
  other : ∀ g', g' ≠ g → t.bogie g' = s.bogie g'
  comes : b.stack ≠ [] → UnderWay t .triggerDelivery fun a => a.g = g

theorem resumeTop_resumes (top : ∀ f, (s.bogie g).stack.head? = some f → f.await = none) : Resumes s (s.resumeTop g) g (s.bogie g) := by
  rw [State.resumeTop]
  split
  next stack =>
    refine ⟨?_, fun g' ne => s.setBogie_other g g' _ ne.symm, fun some' => absurd stack some'⟩
    rw [State.setBogie_same, phaseOf, stack]; rfl
  next some' =>
    have idle : ((s.setBogie g { s.bogie g with phase := .waiting }).add [{ ev := .triggerDelivery, arg := { g := g } }]).checkBwait g =
        (s.setBogie g { s.bogie g with phase := .waiting }).add [{ ev := .triggerDelivery, arg := { g := g } }] :=
      checkBwait_idle (by simpa using top)
    rw [idle]
    refine ⟨?_, fun g' ne => s.setBogie_other g g' _ ne.symm, fun _ => State.underWay_add (List.mem_singleton_self _) rfl⟩
    rw [State.add_bogie, State.setBogie_same, phaseOf, if_neg (by simpa using some')]

theorem afterBoundary_quiet (k : Still s g) : Resumes s (s.afterBoundary g) g (s.bogie g) := by
  have transit : ((s.setBogie g (s.bogie g)).transitOf (.bogie g)) = [] := by simpa [State.transitOf] using k.transit
  rw [State.afterBoundary, releaseHeld_nil k.held, pump_nil transit, preempt_nil (s := s.setBogie g (s.bogie g)) k.store]
  have ends := resumeTop_resumes (s := s.setBogie g (s.bogie g)) (g := g) (by simpa using k.top)
  rw [State.setBogie_same] at ends
  exact ⟨ends.bogie, fun g' ne => (ends.other g' ne).trans (s.setBogie_other g g' _ ne.symm), ends.comes⟩

end

/-! ### A match with an empty outbox (R139) -/

section

variable {s : State} {g : Nat} {f : Frame}

/-- What a match leaves of a bogie's record: no checkpoint, no journal, and the count of rollbacks ended. -/
def Bogie.committed (b : Bogie) : Bogie :=
  { b with outbox := [], journal := [], ckpt := none, rep := none, streak := 0, replaces := none, fetched := 0, peerReads := [] }

/-- The match of bogie g whose outbox is empty: bogie g is committed, and of every other at most the use of copied bytes is counted. -/
structure Commits (s t : State) (g : Nat) : Prop where
  own : ∃ b, (s.bogie g).Counts b ∧ t.bogie g = b.committed
  other : ∀ g', g' ≠ g → (s.bogie g').Counts (t.bogie g')
  alone : (s.bogie g).peerReads = [] → ∀ g', g' ≠ g → t.bogie g' = s.bogie g'
  store : (s.die (dieOf g)).store = [] → (t.die (dieOf g)).store = []
  ctxs : t.ctxs = s.ctxs
  copies : t.copies = s.copies

theorem consume_rest (s : State) (uid : Nat) : ∃ d, s.consume uid = { s with dies := d } := by
  rw [State.consume]
  split
  · exact ⟨_, rfl⟩
  · exact ⟨_, rfl⟩

theorem consume_store (s : State) (uid d : Nat) (none' : (s.die d).store = []) : ((s.consume uid).die d).store = [] := by
  rw [State.consume]
  split
  next =>
    exact State.die_mapVals (s := s) (f := fun x => { x with store := x.store.filter fun p => p.place != .pushed uid }) rfl
      (p := fun x y => x.store = [] → y.store = []) (fun x h => by simp [h]) (fun _ h => h) d none'
  next => exact none'

theorem forwardTop_nil (outbox : (s.bogie g).outbox = []) : Commits s (s.forwardTop g f []) g := by
  have counts := s.counts_countPeers (s.bogie g).peerReads
  obtain ⟨d, eq⟩ := consume_rest ((s.usePeers g).setBogie g ((s.countPeers (s.bogie g).peerReads).bogie g).committed) f.uid
  have forward : s.forwardTop g f [] = ((s.usePeers g).setBogie g ((s.countPeers (s.bogie g).peerReads).bogie g).committed).consume f.uid := by
    rw [State.forwardTop, outbox]
    simp [State.usePeers_eq, Bogie.committed, owes, State.forwardOps]
  have usePeers : ∀ g', g' ≠ g → (s.usePeers g).bogie g' = (s.countPeers (s.bogie g).peerReads).bogie g' := fun g' ne =>
    State.setBogie_other _ _ _ _ ne.symm
  have bogies : ∀ g', g' ≠ g → (s.forwardTop g f []).bogie g' = (s.countPeers (s.bogie g).peerReads).bogie g' := fun g' ne => by
    rw [forward, eq]
    exact (State.setBogie_other _ _ _ _ ne.symm).trans (usePeers g' ne)
  refine ⟨⟨_, counts.bogie g, ?_⟩, fun g' ne => ?_, fun alone g' ne => ?_, fun store => ?_, ?_, ?_⟩
  · rw [forward, eq]
    exact State.setBogie_same ..
  · rw [bogies g' ne]
    exact counts.bogie g'
  · rw [bogies g' ne, alone]; rfl
  · rw [forward]
    refine consume_store _ _ _ ?_
    rw [State.setBogie_die, State.usePeers_eq, State.setBogie_die, counts.rest]
    exact store
  · have ctxs := congrArg State.ctxs counts.rest
    rw [forward, eq]
    exact ctxs
  · have copies := congrArg State.copies counts.rest
    rw [forward, eq]
    exact copies

end

section

variable {s : State} {g : Nat}

/-! ### Matches of a bogie for which nothing is outstanding -/

/-- Bogie g made b, with nothing of it outstanding and its top frame awaiting nothing: the boundary ends. -/
theorem afterBoundary_setBogie {b : Bogie} (held : b.held = []) (transit : b.transit = []) (store : (s.die (dieOf g)).store = [])
    (top : ∀ f, b.stack.head? = some f → f.await = none) : Resumes s ((s.setBogie g b).afterBoundary g) g b := by
  have same := s.setBogie_same g b
  have ends := afterBoundary_quiet (s := s.setBogie g b) (g := g) ⟨by rwa [same], by rwa [same], store, by rwa [same]⟩
  rw [same] at ends
  exact ⟨ends.bogie, fun g' ne => (ends.other g' ne).trans (s.setBogie_other g g' b ne.symm), ends.comes⟩

/-- The frame on top, for which nothing is outstanding, pops: nothing of it drains. -/
theorem popTop_quiet {f : Frame} {r : List Frame} (top : (s.bogie g).stack = f :: r) (owed : (s.bogie g).owed = []) (copies : s.copies = [])
    (transit : (s.bogie g).transit = []) (type : f.type ≠ 2) (kernel : ((s.ctx f.ctx).kernel f.kernel).state ≠ 2)
    (store : (s.die (dieOf g)).store = []) : ∃ a l, s.popTop g =
      (s.setBogie g a).setBogie g { s.bogie g with stack := r, phase := phaseOf r, fresh := l } := by
  refine ⟨{ s.bogie g with stack := r, phase := phaseOf r },
    (s.bogie g).fresh.filter fun a => !(decide (f.sbase ≤ a) && decide (a < f.sbase + f.hdr.scratchUse)), ?_⟩
  have holds : (s.setBogie g { s.bogie g with stack := r, phase := phaseOf r }).holdsFrame g f = false := by
    simp [State.holdsFrame, owed, copies, transit]
  rw [State.popTop, top]
  simp only
  rw [show (if r.isEmpty = true then Phase.idle else .waiting) = phaseOf r from rfl]
  rw [holds, if_neg Bool.false_ne_true, if_neg type, if_neg fun h => kernel h.1, State.setBogie_same]
  refine retry_nil ?_ _
  exact store

/-- What is claimed of the other bogies and of memory after a match. -/
theorem onlyCounts_of_resumes {t u : State} {b : Bogie} (commits : Commits s t g) (ends : Resumes t u g b) (mem : u.mem = s.mem) :
    OnlyCounts s u g ∧ ((s.bogie g).peerReads = [] → OnlyBogie s u g) :=
  ⟨⟨fun g' ne => by rw [ends.other g' ne]; exact commits.other g' ne, mem⟩,
    fun none' => ⟨fun g' ne => (ends.other g' ne).trans (commits.alone none' g' ne), mem⟩⟩

variable {f : Frame} {r : List Frame} (quiet : Quiet s g) (outbox : (s.bogie g).outbox = []) (top : (s.bogie g).stack = f :: r)
include quiet outbox

/-- A match at a boundary with nothing outstanding: bogie g is committed, and of every other at most the use of copied bytes is counted. -/
theorem forwardTop_quiet : ∃ n l t, s.forwardTop g f [] = t ∧ t.bogie g = { (s.bogie g).committed with pfUsed := n, fresh := l } ∧
    (t.die (dieOf g)).store = [] ∧ t.copies = [] ∧ Commits s t g := by
  have commits := forwardTop_nil (f := f) outbox
  obtain ⟨b, ⟨n, l, rfl⟩, own⟩ := commits.own
  exact ⟨n, l, _, rfl, own, commits.store quiet.store, commits.copies.trans quiet.copies, commits⟩

include top

theorem commitTop_commit (awaits : f.await = none) (mem : (s.commitTop g .commit).mem = s.mem) :
    (fun t => (t.bogie g).stack = f :: r ∧ (t.bogie g).phase = .waiting ∧ (t.bogie g).journal = [] ∧ (t.bogie g).ckpt = none ∧
      (t.bogie g).streak = 0 ∧ (t.bogie g).scratch = (s.bogie g).scratch ∧ UnderWay t .triggerDelivery (fun a => a.g = g) ∧ OnlyCounts s t g ∧
      ((s.bogie g).peerReads = [] → OnlyBogie s t g)) (s.commitTop g .commit) := by
  obtain ⟨n, l, t, forward, own, store, -, commits⟩ := forwardTop_quiet quiet outbox (f := f)
  have ends := afterBoundary_setBogie (s := t) (g := g) (b := { t.bogie g with phase := .waiting }) (by rw [own]; exact quiet.held)
    (by rw [own]; exact quiet.transit) store (by rw [own]; simpa [Bogie.committed, top] using awaits)
  have eq : s.commitTop g .commit = (t.setBogie g { t.bogie g with phase := .waiting }).afterBoundary g := by
    simp only [State.commitTop, top, forward]
  rw [eq] at mem ⊢
  obtain ⟨counts, alone⟩ := onlyCounts_of_resumes commits ends mem
  have stack : ({ t.bogie g with phase := Phase.waiting } : Bogie).stack = f :: r := by rw [own]; exact top
  refine ⟨?_, ?_, ?_, ?_, ?_, ?_, ends.comes (by rw [stack]; exact List.cons_ne_nil f r), counts, alone⟩ <;> rw [ends.bogie]
  · exact stack
  · rw [stack]; rfl
  all_goals rw [own]; rfl

theorem commitTop_ended (type : f.type = 1) (kernel : ((s.ctx f.ctx).kernel f.kernel).state ≠ 2)
    (next : ∀ q, r.head? = some q → q.await = none) (mem : (s.commitTop g .ended).mem = s.mem) :
    (fun t => (t.bogie g).stack = r ∧ (t.bogie g).draining = (s.bogie g).draining ∧ OnlyCounts s t g ∧
      ((s.bogie g).peerReads = [] → OnlyBogie s t g)) (s.commitTop g .ended) := by
  obtain ⟨n, l, t, forward, own, store, copies, commits⟩ := forwardTop_quiet quiet outbox (f := f)
  have ctx : t.ctx f.ctx = s.ctx f.ctx := by rw [State.ctx, State.ctx, commits.ctxs]
  obtain ⟨a, l', pop⟩ := popTop_quiet (s := t) (g := g) (f := f) (r := r) (by rw [own]; exact top) (by rw [own]; exact quiet.owed) copies
    (by rw [own]; exact quiet.transit) (by simp [type]) (by rwa [ctx]) store
  have ends := afterBoundary_setBogie (s := t.setBogie g a) (g := g) (b := { t.bogie g with stack := r, phase := phaseOf r, fresh := l' })
    (by rw [own]; exact quiet.held) (by rw [own]; exact quiet.transit) store next
  have eq : s.commitTop g .ended = (t.popTop g).afterBoundary g := by
    simp [State.commitTop, top, endNotice, type, forward]
  rw [eq, pop] at mem ⊢
  have ends' : Resumes t _ g _ := ⟨ends.bogie, fun g' ne => (ends.other g' ne).trans (t.setBogie_other g g' a ne.symm), ends.comes⟩
  obtain ⟨counts, alone⟩ := onlyCounts_of_resumes commits ends' mem
  refine ⟨?_, ?_, counts, alone⟩ <;> rw [ends.bogie]
  rw [own]; rfl

end

/-! ### A mismatch (R140, R141) -/

section

variable {s : State} {g : Nat}

/-- What the journal undoes: the scratchpad, and which of its sectors are poisoned. -/
theorem undo_rest (b : Bogie) : ∃ m l, b.undo = { b with scratch := m, spoison := l, journal := [] } := by
  have fold := List.foldlRecOn (motive := fun c : Bogie => ∃ m l, c = { b with scratch := m, spoison := l }) b.journal.reverse
    (fun (b : Bogie) e => { b with scratch := Tab.setList b.scratch 0 (32 * e.1) e.2.1
                                   spoison := (b.spoison.filter fun k => k != e.1) ++ (if e.2.2 then [e.1] else []) })
    ⟨b.scratch, b.spoison, rfl⟩ (by rintro c ⟨m, l, rfl⟩ e -; exact ⟨_, _, rfl⟩)
  obtain ⟨m, l, eq⟩ := fold
  exact ⟨m, l, by rw [Bogie.undo, eq]⟩

theorem undo_streak (b : Bogie) (n : Nat) : ({ b with streak := n } : Bogie).undo = { b.undo with streak := n } :=
  congrArg (fun c : Bogie => { c with journal := [] }) (List.foldl_hom (fun c : Bogie => { c with streak := n }) fun _ _ => rfl)

/-- The frame on top is as at the checkpoint. -/
theorem rollback_top {b c : Bogie} {f f0 : Frame} {r : List Frame} (undo : b.undo = c) (ckpt : c.ckpt = some f0) (top : c.stack = f :: r) :
    b.rollback = { c with outbox := [], rep := none, unmapped := none, buf := [], fetched := 0, phase := .waiting, stack := f0 :: r } := by
  subst undo
  rw [Bogie.rollback, ckpt, top]
  rfl

/-- A bogie with nothing held rolled back: its message comes again. -/
theorem rollback_held {b : Bogie} (held : b.rollback.held = []) : (((s.setBogie g b).rollback g).bogie g) = b.rollback ∧
    (∀ g', g' ≠ g → ((s.setBogie g b).rollback g).bogie g' = s.bogie g') ∧
    UnderWay ((s.setBogie g b).rollback g) .triggerDelivery fun a => a.g = g := by
  have eq : (s.setBogie g b).rollback g =
      ((((s.setBogie g b).setBogie g b.rollback).setBogie g b.rollback)).add [{ ev := .triggerDelivery, arg := { g := g } }] := by
    rw [State.rollback, State.setBogie_same, releaseHeld_nil (by rwa [State.setBogie_same]), State.setBogie_same]
  rw [eq]
  refine ⟨State.setBogie_same .., fun g' ne => ?_, State.underWay_add (List.mem_singleton_self _) rfl⟩
  rw [State.add_bogie, State.setBogie_other _ _ _ _ ne.symm, State.setBogie_other _ _ _ _ ne.symm, State.setBogie_other _ _ _ _ ne.symm]

/-- A mismatch: what the rollback leaves of the bogie, whose message comes again (R140). -/
theorem witnessVerdict_mismatch {k : Boundary} {f f0 : Frame} {r : List Frame} (phase : (s.bogie g).phase = .boundary k)
    (top : (s.bogie g).stack = f :: r) (held : (s.bogie g).held = []) (ckpt : (s.bogie g).ckpt = some f0) :
    (fun t => (t.bogie g).stack = f0 :: r ∧ (t.bogie g).phase = .waiting ∧ (t.bogie g).outbox = [] ∧ (t.bogie g).journal = [] ∧
      (t.bogie g).scratch = (s.bogie g).undo.scratch ∧ (t.bogie g).streak = (s.bogie g).streak + 1 ∧
      UnderWay t .triggerDelivery (fun a => a.g = g) ∧ (3 ≤ (s.bogie g).streak + 1 → UnderWay t .streakLimit (fun a => a.g = g)) ∧
      OnlyBogie s t g) (witnessVerdict g true s) := by
  obtain ⟨m, l, undo⟩ := undo_rest (s.bogie g)
  have again := (undo_streak (s.bogie g) ((s.bogie g).streak + 1)).trans
    (congrArg (fun c : Bogie => { c with streak := (s.bogie g).streak + 1 }) undo)
  have back : ({ s.bogie g with streak := (s.bogie g).streak + 1 } : Bogie).rollback =
      { s.bogie g with streak := (s.bogie g).streak + 1, scratch := m, spoison := l, journal := [], outbox := [], rep := none, unmapped := none
                       buf := [], fetched := 0, phase := .waiting, stack := f0 :: r } :=
    rollback_top again ckpt top
  obtain ⟨own, other, comes⟩ := rollback_held (s := s) (g := g) (b := { s.bogie g with streak := (s.bogie g).streak + 1 })
    (by rw [back]; exact held)
  rw [back] at own
  have mem : (witnessVerdict g true s).mem = s.mem := (sameMemory_witnessVerdict ..).1
  have eq : witnessVerdict g true s = ((s.setBogie g { s.bogie g with streak := (s.bogie g).streak + 1 }).rollback g).add
      (if 3 ≤ (s.bogie g).streak + 1 then [{ ev := .streakLimit, arg := { g := g } }] else []) := by
    rw [witnessVerdict]
    split
    next =>
      rw [if_pos rfl]
      change (if 3 ≤ (s.bogie g).streak + 1 then State.add _ _ else _) = _
      by_cases third : 3 ≤ (s.bogie g).streak + 1
      · rw [if_pos third, if_pos third]
      · rw [if_neg third, if_neg third, State.add, List.append_nil]
    next other => exact absurd phase (other k)
  rw [eq] at mem ⊢
  simp only [State.add_bogie, own, undo]
  refine ⟨trivial, trivial, trivial, trivial, trivial, trivial, ?_, fun third => ?_, fun g' ne => ?_, mem⟩
  · exact UnderWay.mono (State.persists_add _ _) comes
  · rw [if_pos third]
    exact State.underWay_add (List.mem_singleton_self _) rfl
  · exact (State.add_bogie ..).trans (other g' ne)

end

/-! ### What a match forwards, in its order (R139, R206) -/

section

/-- An entry apart from the number that it gets when it leaves. -/
def bareOp (o : Op) : Op :=
  match o with
  | .matrix c => .matrix { c with id := 0 }
  | .notify _ va n => .notify 0 va n
  | o => o

/-- The entries that leave for one of the outbox, apart from their numbers: an STF within the module is its store and, after it, its
notification. -/
def bareEntries (o : Op) : List Op :=
  match o with
  | .store bytes rel bypass (some n) =>
    if remoteNote bytes (some n) = true then [o] else [.store bytes rel bypass none, .notify 0 ((bytes.head?.map (·.1)).getD 0) n]
  | o => [bareOp o]

theorem opEntries_bare (o : Op) (id : Nat) : (opEntries o id).map bareOp = bareEntries o := by
  cases o with
  | store bytes rel bypass note =>
    cases note with
    | none => rfl
    | some n =>
      by_cases remote : remoteNote bytes (some n) = true
      · simp only [opEntries, bareEntries, if_pos remote]; rfl
      · simp only [opEntries, bareEntries, if_neg remote]; rfl
  | _ => rfl

/-- The entries that leave for an outbox whose first entry gets number id. -/
def sentOps (id : Nat) : List Op → List Op
  | [] => []
  | o :: r => opEntries o id ++ sentOps (id + (opEntries o id).length) r

theorem sentOps_bare (l : List Op) (id : Nat) : (sentOps id l).map bareOp = l.flatMap bareEntries := by
  induction l generalizing id with
  | nil => rfl
  | cons o r ih => rw [sentOps, List.map_append, opEntries_bare, ih, List.flatMap_cons]

/-- Entries numbered from id. -/
def numbered (uid ctx id : Nat) (l : List Op) : List Transit := l.mapIdx fun n o => { id := id + n, uid := uid, ctx := ctx, op := o }

theorem numbered_append (uid ctx id : Nat) (a b : List Op) :
    numbered uid ctx id (a ++ b) = numbered uid ctx id a ++ numbered uid ctx (id + a.length) b := by
  simp only [numbered, List.mapIdx_append, Nat.add_assoc, Nat.add_comm a.length]

theorem numbered_op (uid ctx id : Nat) (l : List Op) : (numbered uid ctx id l).map (·.op) = l := by
  exact List.ext_getElem (by simp [numbered]) (by simp [numbered])

theorem numbered_get {uid ctx id n : Nat} {l : List Op} (h : n < (numbered uid ctx id l).length) :
    ∃ x, (numbered uid ctx id l)[n]? = some x ∧ x.id = id + n ∧ x.uid = uid ∧ x.ctx = ctx ∧ x.sent = false :=
  ⟨_, List.getElem?_eq_getElem h, by simp [numbered]⟩

/-- Bogie g has l more under way, numbered from what was the next number. -/
structure Sends (s t : State) (g uid ctx : Nat) (l : List Op) : Prop where
  bogie : t.bogie g = { s.bogie g with transit := (s.bogie g).transit ++ numbered uid ctx s.uid l }
  uid : t.uid = s.uid + l.length

variable {s t u : State} {g uid ctx : Nat}

theorem Sends.nil : Sends s s g uid ctx [] := ⟨by simp [numbered], rfl⟩

theorem Sends.append {l m : List Op} (h : Sends s t g uid ctx l) (k : Sends t u g uid ctx m) : Sends s u g uid ctx (l ++ m) := by
  refine ⟨?_, by rw [k.uid, h.uid, List.length_append, Nat.add_assoc]⟩
  rw [k.bogie, h.bogie, h.uid, numbered_append, List.append_assoc]

/-- One operation numbered and added to what is under way. -/
def State.sendOne (s : State) (g uid ctx : Nat) (o : Op) : State :=
  s.newId.2.setTransit (.bogie g) (s.newId.2.transitOf (.bogie g) ++ [{ id := s.uid, uid := uid, ctx := ctx, op := o }])

theorem sendOne_sends (o : Op) : Sends s (s.sendOne g uid ctx o) g uid ctx [o] := ⟨State.setBogie_same .., rfl⟩

theorem foldl_sendOne (l : List Op) (s : State) : Sends s (l.foldl (fun s o => s.sendOne g uid ctx o) s) g uid ctx l := by
  induction l generalizing s with
  | nil => exact .nil
  | cons o r ih => exact (sendOne_sends o).append (ih _)

theorem forwardOps_sends (l : List Op) (s : State) : Sends s (s.forwardOps (.bogie g) uid ctx l) g uid ctx (sentOps s.uid l) := by
  induction l generalizing s with
  | nil => exact .nil
  | cons o r ih =>
    have one := foldl_sendOne (g := g) (uid := uid) (ctx := ctx) (opEntries o s.uid) s
    have rest := ih ((opEntries o s.uid).foldl (fun s o => s.sendOne g uid ctx o) s)
    rw [one.uid] at rest
    exact one.append rest

/-- Bogie g has the same under way, and the next number is the same. -/
structure SameSent (s t : State) (g : Nat) : Prop where
  transit : (t.bogie g).transit = (s.bogie g).transit
  uid : t.uid = s.uid

theorem SameSent.refl (s : State) (g : Nat) : SameSent s s g := ⟨rfl, rfl⟩

theorem SameSent.trans (h : SameSent s t g) (k : SameSent t u g) : SameSent s u g := ⟨k.transit.trans h.transit, k.uid.trans h.uid⟩

theorem SameSent.setBogie (h : SameSent s t g) {b : Bogie} (same : b.transit = (t.bogie g).transit) : SameSent s (t.setBogie g b) g :=
  h.trans ⟨by rw [State.setBogie_same, same], rfl⟩

theorem consume_bogie (s : State) (n g : Nat) : (s.consume n).bogie g = s.bogie g := by
  obtain ⟨d, eq⟩ := consume_rest s n
  rw [eq]; rfl

theorem SameSent.consume (h : SameSent s t g) (n : Nat) : SameSent s (t.consume n) g := by
  obtain ⟨d, eq⟩ := consume_rest t n
  exact h.trans ⟨by rw [consume_bogie], by rw [eq]⟩

theorem sameSent_foldl {α : Type} (l : List α) (fn : State → α → State) (step : ∀ s x, SameSent s (fn s x) g) (s : State) :
    SameSent s (l.foldl fn s) g :=
  List.foldlRecOn (motive := fun t => SameSent s t g) l fn (.refl s g) fun _ h x _ => h.trans (step _ x)

theorem sameSent_usePeers (s : State) (g : Nat) : SameSent s (s.usePeers g) g := by
  have counts := s.counts_countPeers (s.bogie g).peerReads
  obtain ⟨n, l, eq⟩ := counts.bogie g
  have same : SameSent s (s.countPeers (s.bogie g).peerReads) g := ⟨by rw [eq], by rw [counts.rest]⟩
  exact same.setBogie (by rfl)

theorem sameSent_draw (s : State) (g : Nat) : SameSent s s.draw.2 g := by
  rw [State.draw]
  split
  · exact ⟨rfl, rfl⟩
  · exact ⟨rfl, rfl⟩

theorem sameSent_choose (s : State) (g n : Nat) : SameSent s (s.choose n).2 g := by
  rw [State.choose]
  split
  · exact .refl s g
  · exact sameSent_draw s g

theorem sameSent_makeRoom (s : State) (g ctx line : Nat) : SameSent s (s.makeRoom g ctx line) g := by
  simp only [State.makeRoom]
  split
  · exact .refl s g
  · split
    · exact (sameSent_choose s g _).setBogie ((sameSent_choose s g _).transit).symm
    · exact sameSent_choose s g _

theorem sameSent_commitL1 (s : State) (g ctx : Nat) (bytes : Tab Byte) : SameSent s (s.commitL1 g ctx bytes) g :=
  sameSent_foldl _ _ (fun s va => (sameSent_makeRoom s g ctx (va / 64)).setBogie (by rfl)) s

theorem sameSent_commitEntry (s : State) (g ctx : Nat) (o : Op) : SameSent s (s.commitEntry g ctx o) g := by
  unfold State.commitEntry
  split
  next bytes rel bypass note =>
    have stored : SameSent s (match s.leaf ctx (opVa (.store bytes rel bypass note)) with
        | some l => if (l.cls = 0 ∨ l.cls = 1 ∨ l.cls = 6) ∧ !bypass then s.commitL1 g ctx bytes
          else s.setBogie g ((s.bogie g).dropTouched ctx (.store bytes rel bypass none))
        | none => s) g := by
      split
      · split
        · exact sameSent_commitL1 s g ctx bytes
        · exact (SameSent.refl s g).setBogie (by rfl)
      · exact .refl s g
    cases note with
    | none => exact stored
    | some n => exact stored.setBogie (by rfl)
  next => exact (SameSent.refl s g).setBogie (by rfl)
  next => exact .refl s g

theorem forwardTop_sends (s : State) (g : Nat) (f : Frame) (more : List Op) : ∃ t, SameSent s t g ∧ (t.bogie g).outbox = [] ∧
    s.forwardTop g f more = t.forwardOps (.bogie g) f.uid f.ctx ((s.bogie g).outbox ++ more) := by
  have entries := (sameSent_usePeers s g).trans
    (sameSent_foldl ((s.bogie g).outbox ++ more) (fun s o => s.commitEntry g f.ctx o) (fun s o => sameSent_commitEntry s g f.ctx o) (s.usePeers g))
  refine ⟨_, (entries.setBogie ?_).consume _, ?_, rfl⟩
  · rfl
  · exact congrArg Bogie.outbox ((consume_bogie ..).trans (State.setBogie_same ..))

end

theorem witnessVerdict_match {s : State} {g : Nat} {flag : Bool} {k : Boundary} (match' : flag = false) (phase : (s.bogie g).phase = .boundary k) :
    witnessVerdict g flag s = s.commitTop g k := by
  rw [witnessVerdict, phase, match']
  rfl

/-- The entries that leave, apart from their numbers, are those of the outbox in its order. -/
theorem bare_sent (uid ctx id : Nat) (l : List Op) :
    ((numbered uid ctx id (sentOps id l)).map fun x => bareOp x.op) = l.flatMap bareEntries := by
  rw [← sentOps_bare l id, ← congrArg (List.map bareOp) (numbered_op uid ctx id (sentOps id l)), List.map_map]
  rfl

/-- Settles O41: what a match commits (`commitTop_commit`, `commitTop_ended`), a mismatch takes back (`witnessVerdict_mismatch`), and the outbox
becomes (`forwardTop_sends`, `forwardOps_sends`). -/
theorem verdicts : Obligations.Verdicts := by
  unfold Obligations.Verdicts
  refine ⟨fun s f r k phase top held => ⟨?_, ?_, fun upset f0 ckpt => ⟨_, rfl, ?_⟩⟩, fun s g f more => ?_⟩
  · rintro match' rfl quiet outbox awaits
    have eq : witnessVerdict s.arg.g s.arg.flag s = s.commitTop s.arg.g .commit := witnessVerdict_match match' phase
    exact ⟨_, rfl, by rw [eq]; exact commitTop_commit quiet outbox top awaits (eq ▸ (sameMemory_witnessVerdict ..).1)⟩
  · rintro match' rfl quiet outbox type kernel next
    have eq : witnessVerdict s.arg.g s.arg.flag s = s.commitTop s.arg.g .ended := witnessVerdict_match match' phase
    exact ⟨_, rfl, by rw [eq]; exact commitTop_ended quiet outbox top type kernel next (eq ▸ (sameMemory_witnessVerdict ..).1)⟩
  · rw [upset]
    exact witnessVerdict_mismatch phase top held ckpt
  · obtain ⟨t, same, none', eq⟩ := forwardTop_sends s g f more
    have sends := forwardOps_sends (g := g) (uid := f.uid) (ctx := f.ctx) ((s.bogie g).outbox ++ more) t
    rw [← eq, same.uid] at sends
    refine ⟨numbered f.uid f.ctx s.uid (sentOps s.uid ((s.bogie g).outbox ++ more)), ?_, ?_, ?_, fun n h => numbered_get h⟩
    · rw [sends.bogie, same.uid, same.transit]
    · rw [sends.bogie, none']
    · exact bare_sent ..

end Sys2Proof.Machine
end

section

/-! # Held writes and events (O43)

What reaches a bogie is held (`State.holdBack`) and, where no activation runs, applied (`releaseHeld_one`); an event of a context is logged, queued or
sent (`raiseEvent_event`), and a sent one is a store of its record and a release that waits for it (`sendEvent_writable`). -/

namespace Sys2Proof.Machine

open Sys2Proof.Safety

/-! ### What is held (R171, R214) -/

section

variable {s t u : State} {g : Nat}

/-- One thing held at bogie g, which looks at it in the next clock where it runs no activation. -/
def State.holdBack (s : State) (g : Nat) (h : Held) : State :=
  (s.setBogie g { s.bogie g with held := (s.bogie g).held ++ [(s.clock, h)] }).add
    (if (s.bogie g).active then [] else [{ ev := .barrierUpdate, arg := { g := g }, due := s.clock + 1 }])

theorem State.add_nil (s : State) : s.add [] = s := by rw [State.add, List.append_nil]

theorem heldWriteArrival_cons (g : Nat) (h : Held) (l : List Held) (s : State) :
    heldWriteArrival g (h :: l) s = heldWriteArrival g l (s.holdBack (s.target (Held.who h) g) h) := by
  rw [heldWriteArrival, List.foldl_cons, ← heldWriteArrival]
  congr 1
  rw [State.holdBack]
  by_cases runs : (s.bogie (s.target (Held.who h) g)).active = true
  · rw [if_pos runs, if_pos runs, State.add_nil]
  · rw [if_neg runs, if_neg runs]
    rfl

/-- Of every bogie at most what it holds has changed. -/
structure Holds (s t : State) : Prop where
  bogie : ∀ k, t.bogie k = { s.bogie k with held := (t.bogie k).held }
  mem : t.mem = s.mem
  sys : t.sys = s.sys

theorem Holds.refl (s : State) : Holds s s := ⟨fun _ => rfl, rfl, rfl⟩

theorem Holds.trans (h : Holds s t) (k : Holds t u) : Holds s u :=
  ⟨fun i => (k.bogie i).trans (by rw [h.bogie i]), k.mem.trans h.mem, k.sys.trans h.sys⟩

theorem Holds.ships (h : Holds s t) (k : t.Ships u) : Holds s u :=
  h.trans ⟨fun i => by rw [State.bogie, State.bogie, k.bogies], k.mem, k.sys⟩

theorem State.holdBack_bogie (s : State) (g : Nat) (h : Held) :
    (s.holdBack g h).bogie g = { s.bogie g with held := (s.bogie g).held ++ [(s.clock, h)] } := by
  rw [State.holdBack, State.add_bogie, State.setBogie_same]

theorem State.holds_holdBack (s : State) (g : Nat) (h : Held) : Holds s (s.holdBack g h) := by
  refine ⟨fun k => ?_, rfl, rfl⟩
  by_cases same : g = k
  · subst same
    rw [State.holdBack_bogie]
  · rw [State.holdBack, State.add_bogie, State.setBogie_other _ _ _ _ same]

theorem State.holdBack_looks (idle : (s.bogie g).active = false) (h : Held) : UnderWay (s.holdBack g h) .barrierUpdate fun a => a.g = g := by
  rw [State.holdBack, if_neg (by simp [idle])]
  exact State.underWay_add (List.mem_singleton_self _) rfl

theorem holds_heldWriteArrival (g : Nat) (l : List Held) (s : State) : Holds s (heldWriteArrival g l s) := by
  induction l generalizing s with
  | nil => exact .refl s
  | cons h l ih =>
    rw [heldWriteArrival_cons]
    exact (s.holds_holdBack _ h).trans (ih _)

theorem holds_handleArrival (g : Nat) (q : Req) (s : State) : Holds s (handleArrival g q s) := by
  rw [handleArrival]
  split
  · exact (holds_heldWriteArrival ..).ships (State.ships_answer ..)
  · exact .refl s

/-! ### Which bogie takes what is sent (R214) -/

theorem target_here {w : Who} (here : ((s.bogie g).frameFor w true).isSome = true) : s.target (some w) g = g := by
  rw [State.target, if_pos here]

theorem target_elsewhere {w : Who} (none' : (s.bogie g).frameFor w true = none) (some' : ∃ e ∈ s.bogies, (e.2.frameFor w true).isSome = true) :
    ∃ e ∈ s.bogies, e.1 = s.target (some w) g ∧ (e.2.frameFor w true).isSome = true := by
  obtain ⟨x, hx, fits⟩ := some'
  have found := List.find?_isSome (p := fun e : Nat × Bogie => (e.2.frameFor w true).isSome).2 ⟨x, hx, fits⟩
  obtain ⟨e, he⟩ := Option.isSome_iff_exists.1 found
  refine ⟨e, List.mem_of_find?_eq_some he, ?_, List.find?_some (p := fun e : Nat × Bogie => (e.2.frameFor w true).isSome) he⟩
  simp only [State.target, none', he]
  rfl

end

/-! ### What is applied (R211, R212, R272) -/

section

variable {s u : State} {g c : Nat} {h : Held}

/-- One thing held alone is applied. -/
theorem releaseHeld_one (held : (s.bogie g).held = [(c, h)]) (before : c < s.clock) (reads : s.scaleBusy g = false) (watch : Bool)
    (applied : (s.setBogie g { s.bogie g with held := [] }).applyClock g [h] = u) (empty : (u.bogie g).held = [])
    (idle : u.checkBwait g = u) : s.releaseHeld g watch = u := by
  have once : [c].eraseDups = [c] := rfl
  have watched : (if watch = true then u.checkBwait g else u) = u := by rw [idle, ite_self]
  simp [State.releaseHeld, held, before, reads, once, applied, watched, empty]

theorem barrierUpdate_one (inactive : (s.bogie g).active = false) (held : (s.bogie g).held = [(c, h)]) (before : c < s.clock)
    (reads : s.scaleBusy g = false) (applied : (s.setBogie g { s.bogie g with held := [] }).applyClock g [h] = u)
    (empty : (u.bogie g).held = []) (idle : u.checkBwait g = u) : barrierUpdate g s = u := by
  rw [barrierUpdate, if_neg (by simp [inactive]), releaseHeld_one held before reads true applied empty idle, idle]

theorem frameFor_top {b : Bogie} {f : Frame} {r : List Frame} (top : b.stack = f :: r) (data : Bool) : b.frameFor (.frame f.uid) data = some f := by
  simp [Bogie.frameFor, top]

variable {f : Frame} {r : List Frame} (top : (s.bogie g).stack = f :: r)
include top

/-- An arrival is the update of its barrier. -/
theorem applyClock_arrive (k : Nat) (x : Update) : s.applyClock g [.arrive (.frame f.uid) k x] =
    s.setBogie g ((s.bogie g).putBar f k (((s.bogie g).bar f k).update x)) := by
  have one : s.applyHeld g [] (.arrive (.frame f.uid) k x) = (s, [{ uid := f.uid, k := k, u := x }]) := by
    simp [State.applyHeld, frameFor_top top]
  simp [State.applyClock, one, joinUpdates, State.applyUpdate, frameFor_top top]

/-- A delivery that nothing counts is its bytes in their places. -/
theorem applyClock_deliver {src : Src} (task : src ≠ .firmware) (off : Nat) (data : List Byte) :
    s.applyClock g [.deliver 0 src (.frame f.uid) off data none] = s.setBogie g ((s.bogie g).deliver (f.sbase + off) data src) := by
  simp [State.applyClock, State.applyHeld, frameFor_top top, joinUpdates, task]

end

theorem scratchWrite_rest (b : Bogie) (a : Nat) (l : List Byte) : (b.scratchWrite a l).held = b.held ∧ (b.scratchWrite a l).stack = b.stack ∧
    (b.scratchWrite a l).scratch = Tab.setList b.scratch 0 a l := ⟨rfl, rfl, rfl⟩

theorem putBar_rest (b : Bogie) (f : Frame) (k : Nat) (x : Bar) : (b.putBar f k x).held = b.held ∧ (b.putBar f k x).stack = b.stack ∧
    (b.putBar f k x).scratch = Tab.setList b.scratch 0 (f.barAt k) (bytesOfNat 16 x.word.toNat) := by
  rw [Bogie.putBar]
  exact scratchWrite_rest ..

/-- A barrier is what the scratchpad holds. -/
theorem bar_congr {b b' : Bogie} (scratch : b.scratch = b'.scratch) (f : Frame) (k : Nat) : b.bar f k = b'.bar f k := by
  rw [Bogie.bar, Bogie.bar, scratch]

theorem deliver_rest (b : Bogie) (a : Nat) (data : List Byte) (src : Src) : (b.deliver a data src).held = b.held ∧
    (b.deliver a data src).stack = b.stack ∧ (b.deliver a data src).scratch = Tab.setList b.scratch 0 a data := by
  simp only [Bogie.deliver]
  split
  · exact ⟨rfl, rfl, rfl⟩
  · split <;> exact ⟨rfl, rfl, rfl⟩

theorem applyClock_scale (s : State) (g : Nat) (src : Src) {entry : Nat} (small : entry < 1024) (rec' : BitVec 32) :
    s.applyClock g [.scale 0 src entry [rec']] = s.setBogie g { s.bogie g with scale := Tab.set (s.bogie g).scale 0 entry rec' } := by
  simp [State.applyClock, State.applyHeld, joinUpdates, List.range_one, Nat.mod_eq_of_lt small]

/-! ### A draining frame (R123) -/

section

variable {s : State} {g uid : Nat}

theorem frameDrainEnd_kept (h : (∀ x ∈ (s.bogie g).draining, x.frame.uid ≠ uid) ∨
    ∃ x, (s.bogie g).draining = [x] ∧ s.holdsFrame g x.frame = true) : frameDrainEnd g uid s = s := by
  rw [frameDrainEnd]
  split
  next => rfl
  next x found =>
    have mem := List.mem_of_find?_eq_some found
    have named : x.frame.uid = uid := by simpa using List.find?_some found
    rcases h with none' | ⟨y, one, holds⟩
    · exact absurd named (none' x mem)
    · obtain rfl : x = y := by simpa [one] using mem
      exact if_pos holds

/-- With no release at the die, the frame gives up its holdings and no more happens. -/
theorem frameDrainEnd_ends {x : Drain} (one : (s.bogie g).draining = [x]) (named : x.frame.uid = uid) (none' : s.holdsFrame g x.frame = false)
    (store : (s.die (dieOf g)).store = []) : ∃ l, frameDrainEnd g uid s = s.setBogie g { s.bogie g with draining := [], fresh := l } := by
  have found : (s.bogie g).draining.find? (fun x => x.frame.uid == uid) = some x := by simp [one, named]
  have gone : ((s.bogie g).draining.filter fun y => y.frame.uid != uid) = [] := by simp [one, named]
  refine ⟨(s.bogie g).fresh.filter fun a => !(decide (x.frame.sbase ≤ a) && decide (a < x.frame.sbase + x.frame.hdr.scratchUse)), ?_⟩
  rw [frameDrainEnd, found]
  simp only [none', Bool.false_eq_true, if_false, gone]
  rw [retry_nil (by exact store), preempt_nil (by exact store), ite_self]

end

/-! ### The pages that an event's record is written through -/

section

variable {s t : State}

/-- A leaf rests on memory, the consists, the dies and the root of its context's table. -/
theorem leaf_of_root (hm : t.mem = s.mem) (hk : t.consists = s.consists) (hd : t.dies = s.dies) {c : Nat}
    (hr : (t.ctx c).ptRoot = (s.ctx c).ptRoot) (va : Nat) : t.leaf c va = s.leaf c va := by
  simp only [State.leaf, State.walk, hr, malformedPointer_congr hd, walkFrom_congr hm hk hd]

end

/-! ### An event (R101, R292-R294) -/

section

variable {s : State} {a : Args}

/-- The event that RAISE_EVENT brings, with its clock and die. -/
def eventInfo (s : State) (a : Args) : FaultInfo := { a.info with clock := if a.flag then a.info.clock else s.clock, die := a.d }

/-- An event of a context, by the context's state and the class that receives the code. -/
theorem raiseEvent_event (event : a.m ≠ 1) : raiseEvent a s =
    if (s.ctx a.c).state = 0 ∨ (s.ctx a.c).state = 1 ∨ (s.ctx a.c).state = 6 then
      { s with errlog := s.errlog ++ [{ code := (eventInfo s a).code, ctx := a.c, addr := (eventInfo s a).addr.toNat }] }
    else match (s.ctx a.c).receives (eventInfo s a).code with
      | none => if classOf (eventInfo s a).code = 5 then s else s.escalate a.c (eventInfo s a).code (eventInfo s a).addr.toNat
      | some k =>
        if (s.ctx a.c).state = 5 ∨ !(s.ctx a.c).slotFree k ∨ !(Tab.get (s.ctx a.c).eventq [] k).isEmpty then s.queueEvent a.c k (eventInfo s a)
        else s.sendEvent a.d a.c k (eventInfo s a) := by
  rw [raiseEvent, if_neg event]
  rfl

/-- With no handler for it, an event of a running context escalates, unless it is of a link. -/
theorem raiseEvent_escalates (event : a.m ≠ 1) (running : (s.ctx a.c).state = 3) (none' : (s.ctx a.c).receives (eventInfo s a).code = none)
    (class' : classOf (eventInfo s a).code ≠ 5) : raiseEvent a s = s.escalate a.c (eventInfo s a).code (eventInfo s a).addr.toNat := by
  rw [raiseEvent_event event, if_neg (by simp [running]), none']
  exact if_neg class'

/-- With a handler for it, an event of a running context is sent or waits in its class's order. -/
theorem raiseEvent_received (event : a.m ≠ 1) (running : (s.ctx a.c).state = 3) {k : Nat}
    (some' : (s.ctx a.c).receives (eventInfo s a).code = some k) : raiseEvent a s =
      if (s.ctx a.c).slotFree k = true ∧ Tab.get (s.ctx a.c).eventq [] k = [] then s.sendEvent a.d a.c k (eventInfo s a)
      else s.queueEvent a.c k (eventInfo s a) := by
  rw [raiseEvent_event event, if_neg (by simp [running]), some']
  by_cases free : (s.ctx a.c).slotFree k = true ∧ Tab.get (s.ctx a.c).eventq [] k = []
  · rw [if_pos free]
    exact if_neg (by simp [running, free])
  · rw [if_neg free]
    exact if_pos (by by_contra no; simp [running] at no; exact free no)

/-- The EVENT release goes once its record is written. -/
theorem raiseEvent_written (written : a.m = 1) {v : _} (answered : Tab.find s.answers a.n = some v) :
    UnderWay (raiseEvent a s) .releaseAccept fun b => b.d = a.d ∧ b.rel = a.rel := by
  rw [raiseEvent, if_pos written, answered]
  exact State.underWay_add (List.mem_singleton_self _) ⟨rfl, rfl⟩

/-- Nothing that would be in the way of the next EVENT of class k is outstanding. -/
theorem slotFree_iff {x : Ctx} {k : Nat} : x.slotFree k = true ↔
    (Tab.get x.outstanding [] k).length < 16 ∧ ∀ n ∈ Tab.get x.outstanding [] k, n.toNat % 16 ≠ (Tab.get x.seqs 0 k).toNat % 16 := by
  simp [Ctx.slotFree]

/-- An escalation is logged, and a running context's freeze begins (R101). -/
theorem escalate_running {c code addr : Nat} (running : (s.ctx c).state = 3) (thawed : (s.ctx c).freezing = false) :
    (s.escalate c code addr).errlog = s.errlog ++ [{ code := code, ctx := c, addr := addr }] ∧ ((s.escalate c code addr).ctx c).freezing = true ∧
    UnderWay (s.escalate c code addr) .freezeComplete fun b => b.c = c := by
  have eq : s.escalate c code addr =
      (({ s with errlog := s.errlog ++ [{ code := code, ctx := c, addr := addr }] } : State).setCtx c { s.ctx c with busy := true, command := 5 }).add
        [{ ev := .freezeComplete, arg := { c := c } }] := by
    rw [State.escalate, State.beginFreeze]
    exact if_pos ⟨.inl running, (congrArg Bool.not thawed : (!(s.ctx c).freezing) = true)⟩
  rw [eq]
  refine ⟨rfl, ?_, State.underWay_add (List.mem_singleton_self _) rfl⟩
  rw [State.add_ctx, State.setCtx_same]
  simp [Ctx.freezing, running]

theorem queueEvent_room {c k : Nat} {i : FaultInfo} (room : (Tab.get (s.ctx c).eventq [] k).length < 1024) :
    Tab.get ((s.queueEvent c k i).ctx c).eventq [] k = Tab.get (s.ctx c).eventq [] k ++ [i] := by
  simp only [State.queueEvent]
  rw [if_neg (by omega), State.setCtx_same, Tab.get_put_same]

/-- The record of an EVENT. -/
def eventRecord (s : State) (c k : Nat) (i : FaultInfo) : List Byte := bytesOfNat 64 (faultRecord c k (Tab.get (s.ctx c).seqs 0 k) i).toNat

/-- The address of the record's slot. -/
def eventSlot (s : State) (c k : Nat) : Nat := (Tab.get (s.ctx c).handlers 0 k).toNat + 64 * (1 + (Tab.get (s.ctx c).seqs 0 k).toNat % 16)

/-- A store of firmware to a plain page goes to the page's home. -/
theorem reaches_fwStoreId {c va : Nat} {l : Leaf} (leaf : s.leaf c va = some l) (plain : l.cls = 0) (bytes : List Byte) :
    Reaches (s.fwStoreId c va bytes).2 .homeStore fun b =>
      b.d = l.home va ∧ b.req.ctx = c ∧ b.req.op = .store (placed va bytes) true false none := by
  have leaf' : ({ s with uid := s.uid + 1 } : State).leaf c va = some l := (leaf_of_root rfl rfl rfl rfl va).trans leaf
  have eq : (s.fwStoreId c va bytes).2 = ({ s with uid := s.uid + 1 } : State).post s.hub epUnit (l.home va) c va (writeSlots (placed va bytes))
      .homeStore { d := l.home va, req := { id := s.uid, src := .firmware, ctx := c, op := .store (placed va bytes) true false none } } := by
    simp only [State.fwStoreId, State.newId, State.fwSend, leaf', plain]
    rfl
  rw [eq]
  refine Reaches.imp ?_ (State.reaches_post ..)
  rintro b rfl
  exact ⟨rfl, rfl, rfl⟩

/-- The context once the next EVENT of class k has its sequence number. -/
def Ctx.counted (x : Ctx) (k : Nat) : Ctx := { x with seqs := Tab.put x.seqs k (Tab.get x.seqs 0 k + 1) }

/-- The context once that EVENT is outstanding. -/
def Ctx.sentEvent (x : Ctx) (k : Nat) : Ctx :=
  { x.counted k with outstanding := Tab.put x.outstanding k (Tab.get x.outstanding [] k ++ [Tab.get x.seqs 0 k]) }

/-- The state in which an EVENT's record is stored. -/
def State.sentEvent (s : State) (c k : Nat) : State := (s.setCtx c ((s.ctx c).counted k)).setCtx c ((s.ctx c).sentEvent k)

theorem sendEvent_eq {d c k : Nat} {i : FaultInfo} (writable : (s.setCtx c ((s.ctx c).counted k)).slotWritable c (eventSlot s c k) = true) :
    ∃ die, s.sendEvent d c k i = ((s.sentEvent c k).fwStoreId c (eventSlot s c k) (eventRecord s c k i)).2.add
      [{ ev := .raiseEvent
         arg := { d := die, c := c, m := 1, n := s.uid
                  rel := { rel := { type := 2, prio := 15, ctx := c, arg := Tab.get (s.ctx c).seqs 0 k
                                    record := (Tab.get (s.ctx c).handlers 0 k).toNat, cls := k } } } }] := by
  refine ⟨((s.sentEvent c k).fwStoreId c (eventSlot s c k) (eventRecord s c k i)).2.eventDie c d, ?_⟩
  rw [State.sendEvent]
  refine (if_pos writable).trans ?_
  rw [State.setCtx_same]
  rfl

/-- An EVENT sent: it is outstanding with the next sequence number, its record is stored, and its release waits for that. -/
theorem sendEvent_writable {d c k : Nat} {i : FaultInfo} {l : Leaf} (leaf : s.leaf c (eventSlot s c k) = some l) (w : l.w = true)
    (plain : l.cls = 0) (clean : s.poisoned l (eventSlot s c k) = false) :
    (fun t : State => Tab.get (t.ctx c).seqs 0 k = Tab.get (s.ctx c).seqs 0 k + 1 ∧
      Tab.get (t.ctx c).outstanding [] k = Tab.get (s.ctx c).outstanding [] k ++ [Tab.get (s.ctx c).seqs 0 k] ∧
      Reaches t .homeStore (fun b => b.d = l.home (eventSlot s c k) ∧ b.req.ctx = c ∧
        b.req.op = .store (placed (eventSlot s c k) (eventRecord s c k i)) true false none) ∧
      UnderWay t .raiseEvent (fun b => b.m = 1 ∧ b.rel.rel.type = 2 ∧ b.rel.rel.prio = 15 ∧ b.rel.rel.arg = Tab.get (s.ctx c).seqs 0 k ∧
        b.rel.rel.cls = k ∧ b.rel.rel.record = (Tab.get (s.ctx c).handlers 0 k).toNat)) (s.sendEvent d c k i) := by
  have rootCounted : ((s.setCtx c ((s.ctx c).counted k)).ctx c).ptRoot = (s.ctx c).ptRoot := by rw [State.setCtx_same, Ctx.counted]
  have rootSent : ((s.sentEvent c k).ctx c).ptRoot = (s.ctx c).ptRoot := by rw [State.sentEvent, State.setCtx_same, Ctx.sentEvent, Ctx.counted]
  have counted : (s.setCtx c ((s.ctx c).counted k)).leaf c (eventSlot s c k) = some l :=
    (leaf_of_root (s := s) (t := s.setCtx c ((s.ctx c).counted k)) rfl rfl rfl rootCounted _).trans leaf
  have sent : (s.sentEvent c k).leaf c (eventSlot s c k) = some l :=
    (leaf_of_root (s := s) (t := s.sentEvent c k) rfl rfl rfl rootSent _).trans leaf
  have writable : (s.setCtx c ((s.ctx c).counted k)).slotWritable c (eventSlot s c k) = true := by
    have clean' : (s.setCtx c ((s.ctx c).counted k)).poisoned l (eventSlot s c k) = false := clean
    simp [State.slotWritable, State.mappedWritable, counted, w, plain, clean']
  have ctx : ((s.sentEvent c k).fwStoreId c (eventSlot s c k) (eventRecord s c k i)).2.ctx c = (s.ctx c).sentEvent k := by
    have same := State.sameUnits_fwSend { s.sentEvent c k with uid := s.uid + 1 } s.uid c (eventSlot s c k) (eventRecord s c k i)
    exact (State.ctx_congr same.1 ▸ rfl : _ = (s.sentEvent c k).ctx c).trans (State.setCtx_same ..)
  obtain ⟨die, eq⟩ := sendEvent_eq (d := d) (i := i) writable
  rw [eq]
  refine ⟨?_, ?_, Reaches.mono (State.persists_add ..) (reaches_fwStoreId sent plain _),
    State.underWay_add (List.mem_singleton_self _) ⟨rfl, rfl, rfl, rfl, rfl, rfl⟩⟩
  · rw [State.add_ctx, ctx, Ctx.sentEvent, Ctx.counted, Tab.get_put_same]
  · rw [State.add_ctx, ctx, Ctx.sentEvent, Tab.get_put_same]

theorem eventUnqueue_nil {c k : Nat} {seq : BitVec 32} (nil : Tab.get (s.ctx c).eventq [] k = []) :
    eventUnqueue c k seq false s =
      s.setCtx c { s.ctx c with outstanding := Tab.put (s.ctx c).outstanding k ((Tab.get (s.ctx c).outstanding [] k).erase seq) } := by
  simp [eventUnqueue, nil]

end

/-- What reaches a bogie is held there, and no more changes. -/
theorem heldWriteArrival_one {s : State} {g g' : Nat} {h : Held} (here : g = s.target (Held.who h) g') :
    (fun t => (t.bogie g).held = (s.bogie g).held ++ [(s.clock, h)] ∧ (t.bogie g).scratch = (s.bogie g).scratch ∧
      ((s.bogie g).active = false → UnderWay t .barrierUpdate fun a => a.g = g) ∧ t.mem = s.mem) (heldWriteArrival g' [h] s) := by
  rw [heldWriteArrival_cons, ← here, heldWriteArrival, List.foldl_nil]
  beta_reduce
  rw [State.holdBack_bogie]
  exact ⟨rfl, rfl, fun idle => State.holdBack_looks idle h, rfl⟩

theorem handleArrival_arrive {s : State} {g g' : Nat} {q : Req} {w : Word} {u : Update} (here : g = s.target (some (.handle w)) g')
    (op : q.op = .arrive w u) : (fun t => (t.bogie g).held = (s.bogie g).held ++ [(s.clock, .arrive (.handle w) (handleIndex w) u)] ∧
      Answers s t (dieOf g') q 0 0) (handleArrival g' q s) := by
  rw [handleArrival, op]
  refine ⟨?_, answers_answer (holds_heldWriteArrival ..).sys⟩
  have ships := State.ships_answer (heldWriteArrival g' [.arrive (.handle w) (handleIndex w) u] s) (dieOf g') q 0 0
  rw [State.bogie, ships.bogies]
  exact (heldWriteArrival_one (h := .arrive (.handle w) (handleIndex w) u) here).1

/-- The matrix commands before it have read: the record is in its place of the scale file. -/
theorem scaleFileApply_one {s : State} {g c entry : Nat} {src : Src} {rec' : BitVec 32} (inactive : (s.bogie g).active = false)
    (awaits : ∀ f, (s.bogie g).stack.head? = some f → f.await = none) (held : (s.bogie g).held = [(c, .scale 0 src entry [rec'])])
    (before : c < s.clock) (reads : s.scaleBusy g = false) (small : entry < 1024) :
    (fun t => (t.bogie g).held = [] ∧ Tab.get (t.bogie g).scale 0 entry = rec' ∧
      ∀ e, e ≠ entry → Tab.get (t.bogie g).scale 0 e = Tab.get (s.bogie g).scale 0 e) (scaleFileApply g s) := by
  have applied := applyClock_scale (s.setBogie g { s.bogie g with held := [] }) g src small rec'
  rw [State.setBogie_same] at applied
  rw [scaleFileApply, if_neg (by simp [inactive]), releaseHeld_one held before reads false applied (by rw [State.setBogie_same])
    (checkBwait_idle (by rw [State.setBogie_same]; exact awaits))]
  beta_reduce
  rw [State.setBogie_same]
  exact ⟨rfl, Tab.get_set_same .., fun e ne => Tab.get_set_other _ _ _ _ _ ne.symm⟩

section

variable {s : State} {g c : Nat} {f : Frame} {r : List Frame} (inactive : (s.bogie g).active = false)
  (awaits : f.await = none) (before : c < s.clock) (reads : s.scaleBusy g = false)
include inactive awaits before reads

/-- One held thing whose effect is on bogie g alone, applied by BARRIER_UPDATE. -/
theorem barrierUpdate_setBogie {h : Held} {b : Bogie} (held : (s.bogie g).held = [(c, h)])
    (applied : (s.setBogie g { s.bogie g with held := [] }).applyClock g [h] = (s.setBogie g { s.bogie g with held := [] }).setBogie g b)
    (empty : b.held = []) (stack : b.stack = f :: r) : (barrierUpdate g s).bogie g = b ∧ OnlyBogie s (barrierUpdate g s) g := by
  have idle : ((s.setBogie g { s.bogie g with held := [] }).setBogie g b).checkBwait g = (s.setBogie g { s.bogie g with held := [] }).setBogie g b :=
    checkBwait_idle (by rw [State.setBogie_same, stack]; rintro _ ⟨⟩; exact awaits)
  rw [barrierUpdate_one inactive held before reads applied (by rw [State.setBogie_same, empty]) idle, State.setBogie_same]
  exact ⟨rfl, onlyBogie_trans (onlyBogie_setBogie ..) (onlyBogie_setBogie ..)⟩

theorem barrierUpdate_arrive {k : Nat} {u : Update} (top : (s.bogie g).stack = f :: r)
    (held : (s.bogie g).held = [(c, .arrive (.frame f.uid) k u)]) :
    (fun t => (t.bogie g).held = [] ∧ (t.bogie g).scratch = ((s.bogie g).putBar f k (((s.bogie g).bar f k).update u)).scratch ∧ OnlyBogie s t g)
      (barrierUpdate g s) := by
  have applied := applyClock_arrive (s := s.setBogie g { s.bogie g with held := [] }) (g := g) (f := f) (r := r)
    (by rw [State.setBogie_same]; exact top) k u
  rw [State.setBogie_same] at applied
  have bar : ({ s.bogie g with held := [] } : Bogie).bar f k = (s.bogie g).bar f k := bar_congr rfl f k
  rw [bar] at applied
  generalize ((s.bogie g).bar f k).update u = x at applied ⊢
  obtain ⟨empty, stack, scratch⟩ := putBar_rest { s.bogie g with held := [] } f k x
  obtain ⟨own, only⟩ := barrierUpdate_setBogie inactive awaits before reads held applied empty (stack.trans top)
  beta_reduce
  rw [own, empty, scratch]
  exact ⟨rfl, (putBar_rest ..).2.2.symm, only⟩

theorem barrierUpdate_deliver {src : Src} {off : Nat} {data : List Byte} (top : (s.bogie g).stack = f :: r) (task : src ≠ .firmware)
    (held : (s.bogie g).held = [(c, .deliver 0 src (.frame f.uid) off data none)]) :
    (fun t => (t.bogie g).held = [] ∧ OnlyBogie s t g ∧
      (∀ n < data.length, Tab.get (t.bogie g).scratch 0 (f.sbase + off + n) = (data[n]?).getD 0) ∧
      ∀ a, (a < f.sbase + off ∨ f.sbase + off + data.length ≤ a) → Tab.get (t.bogie g).scratch 0 a = Tab.get (s.bogie g).scratch 0 a)
      (barrierUpdate g s) := by
  have applied := applyClock_deliver (s := s.setBogie g { s.bogie g with held := [] }) (g := g) (f := f) (r := r)
    (by rw [State.setBogie_same]; exact top) task off data
  rw [State.setBogie_same] at applied
  obtain ⟨empty, stack, scratch⟩ := deliver_rest { s.bogie g with held := [] } (f.sbase + off) data src
  obtain ⟨own, only⟩ := barrierUpdate_setBogie inactive awaits before reads held applied empty (stack.trans top)
  beta_reduce
  rw [own, empty, scratch]
  exact ⟨rfl, only, fun n lt => by rw [Tab.get_setList _ _ _ _ _ lt, List.getElem?_eq_getElem lt, Option.getD_some],
    fun a out => Tab.get_setList_other _ _ _ _ _ out⟩

end

/-- Settles O43: what is held and applied one thing at a time (`heldWriteArrival_one`, `releaseHeld_one`), and the ways of an event
(`raiseEvent_event`, `sendEvent_writable`). -/
theorem writesAndEventsArrive : Obligations.WritesAndEventsArrive := by
  unfold Obligations.WritesAndEventsArrive
  refine ⟨fun s => ?always, ⟨?arrives, ?applied, ?drained⟩, ?events⟩
  case always =>
    have held := holds_heldWriteArrival s.arg.g s.arg.held s
    have handle := holds_handleArrival s.arg.g s.arg.req s
    exact ⟨⟨_, rfl, held.mem, held.bogie⟩, ⟨_, rfl, handle.mem, handle.bogie⟩, ⟨_, rfl, fun runs => if_pos runs⟩,
      ⟨_, rfl, frameDrainEnd_kept⟩, ⟨_, rfl, fun runs => if_pos runs⟩, ⟨_, rfl⟩, ⟨_, rfl⟩⟩
  case arrives =>
    intro s h
    refine ⟨fun g here one => ⟨_, rfl, ?_⟩, fun g w u here op => ⟨_, rfl, handleArrival_arrive here op⟩,
      fun g w => target_here, fun g w => target_elsewhere⟩
    rw [one]
    exact heldWriteArrival_one here
  case applied =>
    intro s f r c g b top inactive awaits before reads
    refine ⟨fun k u held => ⟨_, rfl, barrierUpdate_arrive inactive awaits before reads top held⟩, fun id src off data held zero task => ?_,
      fun src entry rec' held small => ⟨_, rfl, scaleFileApply_one inactive ?_ held before reads small⟩⟩
    · subst zero
      exact ⟨_, rfl, barrierUpdate_deliver inactive awaits before reads top task held⟩
    · rw [top]
      rintro _ ⟨⟩
      exact awaits
  case drained =>
    intro s x g one named none' store
    obtain ⟨l, eq⟩ := frameDrainEnd_ends one named none' store
    refine ⟨_, rfl, ?_⟩
    rw [eq]
    beta_reduce
    rw [State.setBogie_same]
    exact ⟨rfl, rfl, onlyBogie_setBogie ..⟩
  case events =>
    intro s a x i
    refine ⟨fun event idle => ⟨_, rfl, ?_⟩, fun event running none' class' thawed => ⟨_, rfl, ?_⟩, fun k event running some' =>
      ⟨fun full room => ⟨_, rfl, ?_⟩, fun few free first l leaf w plain clean => ⟨_, rfl, ?_⟩⟩, fun written answered => ⟨_, rfl, ?_⟩,
      fun flag nil => ⟨_, rfl, ?_⟩⟩
    · rw [raiseEvent_event event, if_pos idle]
      exact ⟨rfl, rfl⟩
    · rw [raiseEvent_escalates event running none' class']
      obtain ⟨logged, freezing, comes⟩ := escalate_running (code := i.code) (addr := i.addr.toNat) running thawed
      exact ⟨logged, freezing, comes⟩
    · rw [raiseEvent_received event running some', if_neg fun free => ?_]
      · exact queueEvent_room room
      · obtain ⟨few, apart⟩ := slotFree_iff.1 free.1
        rcases full with many | ⟨n, mem, taken⟩
        · exact absurd few (Nat.not_lt.2 many)
        · exact apart n mem taken
    · rw [raiseEvent_received event running some', if_pos ⟨slotFree_iff.2 ⟨few, free⟩, first⟩]
      exact sendEvent_writable leaf w plain clean
    · obtain ⟨v, answered⟩ := answered
      exact raiseEvent_written written answered
    · rw [show eventUnqueue s.arg.c s.arg.n (s.arg.val.setWidth 32) s.arg.flag s = _ from flag ▸ eventUnqueue_nil nil]
      beta_reduce
      rw [State.setCtx_same, Tab.get_put_same]
      exact ⟨rfl, rfl⟩

end Sys2Proof.Machine
end

section

/-! # Errors, retirement and the register spaces (O60)

The counts and rates of a voltage domain; a coach that is retired once nothing holds it (`retireCoach_waits`, `retireCoach_spare`,
`retireCoach_last`); and what a write of eight bytes does in each block (`registerWrite_identity`, `registerWrite_context`). -/

namespace Sys2Proof.Machine

open Sys2Proof.Safety

/-! ### Corrected errors (R297, R431) -/

section

variable {s : State} {a : Args} {n : Nat}

theorem State.setDomain_same (s : State) (n : Nat) (x : Domain) : (s.setDomain n x).domain n = x := Tab.get_put_same ..

/-- An error counted for its array, and for its domain as it stands. -/
def State.countError (s : State) (a : Args) (x : Domain) : State :=
  let u : State := { s with sys := { s.sys with arrayErrors := Tab.put s.sys.arrayErrors a.va (Tab.get s.sys.arrayErrors 0 a.va + 1) } }
  (u.setDomain a.n { x with errors := x.errors + 1 }).add
    (if s.sys.threshold < x.errors + 1 ∧ x.above.isNone then [{ ev := .errorRateThreshold, arg := { a with flag := false } }] else [])

theorem ite_add (p : Prop) [Decidable p] (l : List Happening) : (if p then s.add l else s) = s.add (if p then l else []) := by
  split
  · rfl
  · rw [State.add_nil]

/-- Within the second the domain stands as it is. The second's length is hidden first, for nothing is to be computed from it. -/
theorem correctedError_within (within : s.clock < (s.domain a.n).since + second) : correctedError a s = s.countError a (s.domain a.n) := by
  unfold correctedError
  obtain ⟨w, hw⟩ : ∃ w, w = second := ⟨_, rfl⟩
  rw [← hw] at within ⊢
  simp only [if_neg (Nat.not_le.2 within), State.countError, ite_add]
  rfl

theorem correctedError_counted (within : s.clock < (s.domain a.n).since + second) :
    (fun t => (t.domain a.n).errors = (s.domain a.n).errors + 1 ∧ (t.domain a.n).since = (s.domain a.n).since ∧
      Tab.get t.sys.arrayErrors 0 a.va = Tab.get s.sys.arrayErrors 0 a.va + 1) (correctedError a s) := by
  have domain : (s.countError a (s.domain a.n)).domain a.n = { s.domain a.n with errors := (s.domain a.n).errors + 1 } := State.setDomain_same ..
  rw [correctedError_within within]
  beta_reduce
  rw [domain]
  exact ⟨rfl, rfl, Tab.get_put_same ..⟩

theorem correctedError_exceeds (within : s.clock < (s.domain a.n).since + second) (exceeds : s.sys.threshold < (s.domain a.n).errors + 1)
    (below : (s.domain a.n).above = none) : UnderWay (correctedError a s) .errorRateThreshold fun b =>
      b.n = a.n ∧ b.flag = false ∧ b.d = a.d ∧ b.h = a.h ∧ b.m = a.m := by
  rw [correctedError_within within, State.countError, if_pos ⟨exceeds, by rw [below]; rfl⟩]
  exact State.underWay_add (List.mem_singleton_self _) ⟨rfl, rfl, rfl, rfl, rfl⟩

/-- The rate of a domain has stayed above the threshold since clock a.va. -/
def StaysAbove (s : State) (a : Args) : Prop := (s.domain a.n).above = some a.va ∧
  (s.clock < (s.domain a.n).since + second ∨ (s.clock < (s.domain a.n).since + 2 * second ∧ s.sys.threshold < (s.domain a.n).errors))

theorem errorRateThreshold_first (first : a.flag = false) : errorRateThreshold a s =
    (s.setDomain a.n { s.domain a.n with under := false, revoked := true, above := some s.clock }).add
      [{ ev := .errorRateThreshold, arg := { a with flag := true, va := s.clock }, due := s.clock + 10 * second }] := by
  rw [errorRateThreshold]
  exact if_neg (by simp [first])

theorem errorRateThreshold_stays (later : a.flag = true) (stays : StaysAbove s a) : errorRateThreshold a s =
    (s.setDomain a.n { s.domain a.n with above := none }).add [{ ev := .unitRetire, arg := { d := a.d, h := a.h, m := a.m } }] := by
  rw [errorRateThreshold]
  exact (if_pos later).trans (if_pos stays)

theorem errorRateThreshold_fell (later : a.flag = true) (fell : ¬StaysAbove s a) : errorRateThreshold a s = s := by
  rw [errorRateThreshold]
  exact (if_pos later).trans (if_neg fell)

end

/-! ### Diagnostics (R141) -/

section

variable {s : State} {g : Nat}

/-- With no context nothing waits for a bogie to be opened. -/
theorem endClosed_nil (none' : s.ctxs = []) (g n : Nat) : s.endClosed g n = s := by
  have default' : ∀ c, s.ctx c = {} := fun c => by rw [State.ctx, none']; rfl
  have nothing : ((s.die (dieOf g)).store.filter fun p => p.place == .closed g && (s.ctx p.rel.ctx).placing) = [] := by
    simp [default', Ctx.placing]
  rw [State.endClosed, nothing]
  rfl

theorem diagnosticsDone_drawn {n : Nat} {rest : List Nat} (closed : (s.bogie g).closed = true) (none' : s.ctxs = []) (oracle : s.oracle = n :: rest) :
    diagnosticsDone g s =
      let u : State := { s with oracle := rest }
      if n % 2 = 0 then (u.setBogie g { s.bogie g with closed := false, streak := 0, quarantined := none }).reopened g
      else u.add [{ ev := .unitRetire, arg := { d := dieOf g, h := coachOf g % 24 } }] := by
  have drawn : s.choose 2 = (n % 2, { s with oracle := rest }) := by
    rw [State.choose, if_neg (by decide), State.draw, oracle]
  have unsaved : ¬(s.ctxs.any fun e => e.2.saved.any fun v => v.1 == g && v.2.moved) = true := by simp [none']
  rw [diagnosticsDone, if_neg (by simp [closed]), if_neg unsaved, drawn]
  rfl

theorem diagnosticsDone_pass {n : Nat} {rest : List Nat} (closed : (s.bogie g).closed = true) (none' : s.ctxs = []) (oracle : s.oracle = n :: rest)
    (pass : n % 2 = 0) : (fun t => (t.bogie g).closed = false ∧ (t.bogie g).streak = 0) (diagnosticsDone g s) := by
  rw [diagnosticsDone_drawn closed none' oracle]
  simp only [if_pos pass]
  rw [State.reopened, endClosed_nil (by exact none'), State.add_bogie, State.setBogie_same]
  exact ⟨rfl, rfl⟩

theorem diagnosticsDone_fail {n : Nat} {rest : List Nat} (closed : (s.bogie g).closed = true) (none' : s.ctxs = []) (oracle : s.oracle = n :: rest)
    (fail' : n % 2 = 1) : (fun t => t.bogie g = s.bogie g ∧
      UnderWay t .unitRetire fun b => b.m = 0 ∧ b.d = dieOf g ∧ b.h = coachOf g % 24) (diagnosticsDone g s) := by
  rw [diagnosticsDone_drawn closed none' oracle]
  simp only [if_neg (show ¬n % 2 = 0 by omega)]
  exact ⟨rfl, State.underWay_add (List.mem_singleton_self _) ⟨rfl, rfl, rfl⟩⟩

end

/-! ### Retirement (R432) -/

section

variable {s : State} {a : Args}

theorem unitRetire_channel (die : a.d < 8) (channel : a.m ≠ 0) : unitRetire a s = retireChannel a s := by
  rw [unitRetire, if_neg (by omega), if_neg channel]

theorem unitRetire_coach (die : a.d < 8) (coach : a.m = 0) (shown : a.h < (s.die a.d).coaches) : unitRetire a s = retireCoach a s := by
  rw [unitRetire, if_neg (by omega), if_pos coach, if_pos shown]

theorem retireChannel_spare (spare : (s.die a.d).spareCh ≠ 0) : retireChannel a s =
    (s.setDie a.d { s.die a.d with spareCh := (s.die a.d).spareCh - 1 }).log 0 0 (1000 + a.d) := by
  rw [retireChannel]
  exact if_pos spare

/-- What lies beyond the capacity that is left once a channel of die d has gone, moved, if there is room. -/
def State.shrunk (s : State) (d top : Nat) : Option State :=
  (s.setDie d { s.die d with reserve := (s.die d).reserve.filter fun f => decide ((f + 1) * 65536 ≤ top) }).pullIn d top

theorem retireChannel_shrinks (none' : (s.die a.d).spareCh = 0) (some' : (s.die a.d).channels ≠ 0) : retireChannel a s =
    match s.shrunk a.d { s.die a.d with channels := (s.die a.d).channels - 1 }.memory with
    | some t => (t.setDie a.d { t.die a.d with channels := (s.die a.d).channels - 1 }).log 0 0 (1000 + a.d)
    | none => s.add [{ ev := .unitRetire, arg := a, due := s.clock + 1 }] := by
  rw [retireChannel]
  exact (if_neg (by simp [none'])).trans (if_neg some')

/-! ### A context frozen -/

variable {c : Nat}

theorem beginFreeze_other {d : Nat} (ne : d ≠ c) : (s.beginFreeze d).ctx c = s.ctx c := by
  rw [State.beginFreeze]
  split
  · exact s.setCtx_other d c _ ne
  · split
    · exact s.setCtx_other d c _ ne
    · rfl

theorem beginFreeze_dies (s : State) (c : Nat) : (s.beginFreeze c).dies = s.dies := by
  rw [State.beginFreeze]
  split
  · rfl
  · split <;> rfl

/-- A running context is frozen, with its coaches still its own. -/
structure Freezes (s t : State) (c : Nat) : Prop where
  freezing : (t.ctx c).freezing = true
  state : (t.ctx c).state = 3
  coaches : (t.ctx c).coaches = (s.ctx c).coaches

theorem beginFreeze_freezes (running : (s.ctx c).state = 3) : Freezes s (s.beginFreeze c) c := by
  rw [State.beginFreeze]
  split
  · refine ⟨?_, ?_, ?_⟩ <;> rw [State.add_ctx, State.setCtx_same]
    · simp [Ctx.freezing, running]
    · exact running
  next not =>
    rw [if_neg (by simp [running])]
    exact ⟨by simpa [running] using not, running, rfl⟩

/-- A running context whose turn to be frozen comes, or has come, is frozen with the others. -/
theorem freezes_foldl {l : List Nat} (running : (s.ctx c).state = 3) (mine : (s.ctx c).freezing = true ∨ c ∈ l) :
    Freezes s (l.foldl (fun s c => s.beginFreeze c) s) c := by
  induction l generalizing s with
  | nil => exact ⟨mine.resolve_right List.not_mem_nil, running, rfl⟩
  | cons d l ih =>
    rw [List.foldl_cons]
    by_cases same : d = c
    · subst same
      have first := beginFreeze_freezes running
      have rest := ih first.state (.inl first.freezing)
      exact ⟨rest.freezing, rest.state, rest.coaches.trans first.coaches⟩
    · have other : (s.beginFreeze d).ctx c = s.ctx c := beginFreeze_other same
      have rest := ih (by rwa [other]) (by
        rw [other]
        exact mine.imp_right fun mem => (List.mem_cons.1 mem).resolve_left fun e => same e.symm)
      exact ⟨rest.freezing, rest.state, by rw [rest.coaches, other]⟩

theorem foldl_beginFreeze_dies (l : List Nat) (s : State) : (l.foldl (fun s c => s.beginFreeze c) s).dies = s.dies :=
  List.foldlRecOn (motive := fun t : State => t.dies = s.dies) l _ rfl fun t h c _ => (beginFreeze_dies t c).trans h

/-! ### A coach retired -/

theorem mem_holders {k j : Nat} : c ∈ s.holders k j ↔ c < 193 ∧ ((s.ctx c).hasCoach k = true ∨ (s.ctx c).hasCoach j = true) ∧
    ((s.ctx c).state = 2 ∨ (s.ctx c).state = 3 ∨ (s.ctx c).state = 4 ∨ (s.ctx c).state = 6) := by
  simp [State.holders, or_assoc]

/-- The coach that gives its number to the retired one: itself where a spare takes its place, else the highest. -/
def State.heirCoach (s : State) (a : Args) : Nat :=
  if (s.die a.d).spareCo != 0 then a.d * 24 + a.h else a.d * 24 + (s.die a.d).coaches - 1

/-- The contexts that F4 freezes for a retirement. -/
def State.toFreeze (s : State) (a : Args) : List Nat :=
  (s.holders (a.d * 24 + a.h) (s.heirCoach a)).filter fun c => !(s.ctx c).freezing && (s.ctx c).state != 6

/-- The contexts that F4 has frozen for a retirement so far. -/
def State.frozenFor (s : State) (a : Args) : List Nat := (List.range 193).filter fun c => a.va / 2 ^ c % 2 == 1 || (s.toFreeze a).contains c

/-- The numbers as they are once coach h of die d has gone: a spare has taken its number, or the highest number is presented no more. -/
def State.withoutCoach (s : State) (a : Args) (spare : Bool) (last : Nat) : State :=
  let u := (s.freshCoach (a.d * 24 + a.h)).log 0 0 (a.d * 24 + a.h)
  if spare then u.setDie a.d { u.die a.d with spareCo := (u.die a.d).spareCo - 1 }
  else ((u.freshCoach last).setDie a.d { u.die a.d with coaches := (u.die a.d).coaches - 1 }).loseCoaches (a.d * 24 + a.h) last

theorem withoutCoach_true (s : State) (a : Args) (last : Nat) : s.withoutCoach a true last =
    ((s.freshCoach (a.d * 24 + a.h)).log 0 0 (a.d * 24 + a.h)).setDie a.d
      { ((s.freshCoach (a.d * 24 + a.h)).log 0 0 (a.d * 24 + a.h)).die a.d with
        spareCo := (((s.freshCoach (a.d * 24 + a.h)).log 0 0 (a.d * 24 + a.h)).die a.d).spareCo - 1 } := rfl

theorem withoutCoach_false (s : State) (a : Args) (last : Nat) : s.withoutCoach a false last =
    ((((s.freshCoach (a.d * 24 + a.h)).log 0 0 (a.d * 24 + a.h)).freshCoach last).setDie a.d
      { ((s.freshCoach (a.d * 24 + a.h)).log 0 0 (a.d * 24 + a.h)).die a.d with
        coaches := (((s.freshCoach (a.d * 24 + a.h)).log 0 0 (a.d * 24 + a.h)).die a.d).coaches - 1 }).loseCoaches (a.d * 24 + a.h) last := rfl

/-- The contexts frozen for a retirement so far. -/
def State.freezeFor (s : State) (a : Args) : State := (s.toFreeze a).foldl (fun s c => s.beginFreeze c) s

theorem retireCoach_eq (a : Args) (s : State) : retireCoach a s =
    if !((s.freezeFor a).holders (a.d * 24 + a.h) (s.heirCoach a)).isEmpty then
      (s.freezeFor a).add [{ ev := .unitRetire, arg := { a with va := (s.frozenFor a).foldl (fun n c => n + 2 ^ c) 0 }
                             due := (s.freezeFor a).clock + 1 }]
    else (s.frozenFor a).foldl (fun s c => if (s.ctx c).state ≠ 5 then s else thaw c false s)
      ((s.freezeFor a).withoutCoach a ((s.die a.d).spareCo != 0) (a.d * 24 + (s.die a.d).coaches - 1)) := rfl

/-- While something holds one of the coaches, F4 freezes and waits. -/
theorem retireCoach_waits (held : (s.freezeFor a).holders (a.d * 24 + a.h) (s.heirCoach a) ≠ []) :
    retireCoach a s = (s.freezeFor a).add [{ ev := .unitRetire, arg := { a with va := (s.frozenFor a).foldl (fun n c => n + 2 ^ c) 0 }
                                             due := (s.freezeFor a).clock + 1 }] := by
  rw [retireCoach_eq]
  exact if_pos (by rw [Bool.not_eq_true', List.isEmpty_eq_false_iff]; exact held)

/-- With nothing on the coaches and nothing frozen, the retirement is done at once. -/
theorem retireCoach_done (free : s.holders (a.d * 24 + a.h) (s.heirCoach a) = []) (none' : a.va = 0) :
    retireCoach a s = s.withoutCoach a ((s.die a.d).spareCo != 0) (a.d * 24 + (s.die a.d).coaches - 1) := by
  have mine : s.toFreeze a = [] := by rw [State.toFreeze, free, List.filter_nil]
  have froze : s.frozenFor a = [] := by simp [State.frozenFor, mine, none']
  have frozen : s.freezeFor a = s := by rw [State.freezeFor, mine, List.foldl_nil]
  rw [retireCoach_eq, frozen, free, froze]
  rfl

/-- A bogie that has nothing but its count of pushes. -/
def Bogie.Blank (b : Bogie) : Prop := ∃ n, b = { pushes := n }

/-- The bogies of a list of coach k are blank, those that were blank are so still, and of the rest nothing has changed. -/
structure Blanks (s t : State) (k : Nat) (l : List Nat) : Prop where
  dies : t.dies = s.dies
  ctxs : t.ctxs = s.ctxs
  coaches : t.coaches = s.coaches
  own : ∀ b ∈ l, (t.bogie (k * 8 + b)).Blank
  kept : ∀ g, (s.bogie g).Blank → (t.bogie g).Blank

theorem blanks_foldl (k : Nat) (l : List Nat) (s : State) :
    Blanks s (l.foldl (fun s i => s.setBogie (k * 8 + i) { pushes := (s.bogie (k * 8 + i)).pushes }) s) k l := by
  induction l generalizing s with
  | nil => exact ⟨rfl, rfl, rfl, fun b h => absurd h List.not_mem_nil, fun g h => h⟩
  | cons i l ih =>
    have rest := ih (s.setBogie (k * 8 + i) { pushes := (s.bogie (k * 8 + i)).pushes })
    have here : ((s.setBogie (k * 8 + i) { pushes := (s.bogie (k * 8 + i)).pushes }).bogie (k * 8 + i)).Blank := ⟨_, State.setBogie_same ..⟩
    refine ⟨rest.dies, rest.ctxs, rest.coaches, fun b mem => ?_, fun g blank => rest.kept g ?_⟩
    · rcases List.mem_cons.1 mem with rfl | mem
      · exact rest.kept _ here
      · exact rest.own b mem
    · by_cases same : k * 8 + i = g
      · exact same ▸ here
      · rwa [State.setBogie_other _ _ _ _ same]

/-- What a coach's number freshly taken leaves. -/
theorem blanks_freshCoach (s : State) (k : Nat) : Blanks (s.setCoach k {}) (s.freshCoach k) k (List.range 8) := blanks_foldl ..

theorem loseCoaches_blank (k j : Nat) {g : Nat} (blank : (s.bogie g).Blank) : ((s.loseCoaches k j).bogie g).Blank :=
  State.bogie_mapVals (s := s) (t := s.loseCoaches k j)
    (f := fun b => if b.quarantined.any fun r => r / 8 == k || r / 8 == j then { b with quarantined := none } else b) rfl
    (p := fun x y => x.Blank → y.Blank) (by rintro _ ⟨n, rfl⟩; exact ⟨n, rfl⟩) (fun h => h) g blank

/-- A Frozen context that held one of the two is lost. -/
theorem loseCoaches_lost {k j : Nat} (frozen : (s.ctx c).state = 5) (held : (s.ctx c).hasCoach k = true ∨ (s.ctx c).hasCoach j = true) :
    ((s.loseCoaches k j).ctx c).lost = true :=
  get_mapVals_rel (p := fun x y : Ctx => x.state = 5 → (x.hasCoach k = true ∨ x.hasCoach j = true) → y.lost = true)
    (f := fun x => if x.state = 5 ∧ (x.hasCoach k ∨ x.hasCoach j) then { x with lost := true } else x)
    (fun x frozen held => by rw [if_pos ⟨frozen, held⟩]) (fun h => absurd h (by decide)) s.ctxs c frozen held

theorem log_bogie (s : State) (code c addr g : Nat) : (s.log code c addr).bogie g = s.bogie g := rfl

theorem log_coach (s : State) (code c addr k : Nat) : (s.log code c addr).coach k = s.coach k := rfl

theorem loseCoaches_die (s : State) (k j d : Nat) : (s.loseCoaches k j).die d = s.die d := rfl

/-- A spare takes the number of the coach. -/
theorem withoutCoach_spare (last : Nat) (die : a.d * 24 + a.h = c) :
    (fun t : State => (t.die a.d).spareCo = (s.die a.d).spareCo - 1 ∧ (t.die a.d).coaches = (s.die a.d).coaches ∧
      (t.coach c).slots = [] ∧ (t.coach c).tiles = [] ∧
      ∀ b < 8, (t.bogie (8 * c + b)).stack = [] ∧ (t.bogie (8 * c + b)).closed = false) (s.withoutCoach a true last) := by
  subst die
  have blanks := blanks_freshCoach s (a.d * 24 + a.h)
  have die : ((s.freshCoach (a.d * 24 + a.h)).log 0 0 (a.d * 24 + a.h)).die a.d = s.die a.d :=
    congrFun (State.die_congr (s := s) blanks.dies) a.d
  have coach : (s.freshCoach (a.d * 24 + a.h)).coach (a.d * 24 + a.h) = {} := by
    rw [State.coach, blanks.coaches]
    exact State.setCoach_same ..
  have eq : s.withoutCoach a true last = ((s.freshCoach (a.d * 24 + a.h)).log 0 0 (a.d * 24 + a.h)).setDie a.d
      { s.die a.d with spareCo := (s.die a.d).spareCo - 1 } := by
    rw [withoutCoach_true, die]
  rw [eq]
  rw [State.setDie_same]
  rw [State.setDie_coach, log_coach, coach]
  refine ⟨rfl, rfl, rfl, rfl, fun b lt => ?_⟩
  obtain ⟨n, blank⟩ := blanks.own b (List.mem_range.2 lt)
  rw [Nat.mul_comm 8, State.setDie_bogie, log_bogie, blank]
  exact ⟨rfl, rfl⟩

/-- With no spare the die presents one coach fewer. -/
theorem withoutCoach_last (last : Nat) (die : a.d * 24 + a.h = c) :
    (fun t : State => (t.die a.d).coaches = (s.die a.d).coaches - 1 ∧ (t.die a.d).spareCo = (s.die a.d).spareCo ∧
      (∀ i, (s.ctx i).state = 5 → ((s.ctx i).hasCoach c = true ∨ (s.ctx i).hasCoach last = true) → (t.ctx i).lost = true) ∧
      ∀ b < 8, (t.bogie (8 * c + b)).stack = []) (s.withoutCoach a false last) := by
  subst die
  have first := blanks_freshCoach s (a.d * 24 + a.h)
  have second' := blanks_freshCoach ((s.freshCoach (a.d * 24 + a.h)).log 0 0 (a.d * 24 + a.h)) last
  have die : ((s.freshCoach (a.d * 24 + a.h)).log 0 0 (a.d * 24 + a.h)).die a.d = s.die a.d :=
    congrFun (State.die_congr (s := s) first.dies) a.d
  obtain ⟨u, hu⟩ : ∃ u, u = (((s.freshCoach (a.d * 24 + a.h)).log 0 0 (a.d * 24 + a.h)).freshCoach last).setDie a.d
      { s.die a.d with coaches := (s.die a.d).coaches - 1 } := ⟨_, rfl⟩
  have eq : s.withoutCoach a false last = u.loseCoaches (a.d * 24 + a.h) last := by
    rw [withoutCoach_false, die, hu]
  have ctxs : u.ctx = s.ctx := by
    refine State.ctx_congr ?_
    rw [hu, State.setDie_ctxs, second'.ctxs, State.setCoach_ctxs, State.log]
    exact first.ctxs
  have shown : (u.loseCoaches (a.d * 24 + a.h) last).die a.d = { s.die a.d with coaches := (s.die a.d).coaches - 1 } := by
    rw [loseCoaches_die, hu, State.setDie_same]
  rw [eq]
  rw [shown]
  refine ⟨rfl, rfl, fun i frozen held => loseCoaches_lost (by rwa [ctxs]) (by rwa [ctxs]), fun b lt => ?_⟩
  have blank : (u.bogie ((a.d * 24 + a.h) * 8 + b)).Blank := by
    rw [hu, State.setDie_bogie]
    refine second'.kept _ ?_
    rw [State.setCoach_bogie, log_bogie]
    exact first.own b (List.mem_range.2 lt)
  obtain ⟨n, blank⟩ := loseCoaches_blank (a.d * 24 + a.h) last blank
  rw [Nat.mul_comm 8, blank]

end

/-! ### The accepted features (R428) -/

/-- Doubleword i of a number replaced by w. -/
def putDoubleword (n i w : Nat) : Nat := n - n / 2 ^ (64 * i) % 2 ^ 64 * 2 ^ (64 * i) + w * 2 ^ (64 * i)

/-- A number by what lies above, in and below its doubleword i. -/
theorem doublewords (n i : Nat) :
    n = 2 ^ (64 * i) * (2 ^ 64 * (n / 2 ^ (64 * i) / 2 ^ 64) + n / 2 ^ (64 * i) % 2 ^ 64) + n % 2 ^ (64 * i) := by
  rw [Nat.div_add_mod, Nat.div_add_mod]

theorem putDoubleword_eq (n i w : Nat) :
    putDoubleword n i w = 2 ^ (64 * i) * (2 ^ 64 * (n / 2 ^ (64 * i) / 2 ^ 64) + w) + n % 2 ^ (64 * i) := by
  have whole := doublewords n i
  rw [putDoubleword]
  generalize n / 2 ^ (64 * i) / 2 ^ 64 = hi at whole ⊢
  generalize n / 2 ^ (64 * i) % 2 ^ 64 = mid at whole ⊢
  generalize n % 2 ^ (64 * i) = lo at whole ⊢
  generalize 2 ^ (64 * i) = b at whole ⊢
  rw [whole, Nat.mul_add, Nat.mul_add, Nat.mul_comm mid, Nat.mul_comm w]
  omega

theorem testBit_putDoubleword {n i w : Nat} (small : w < 2 ^ 64) (k : Nat) :
    (putDoubleword n i w).testBit k = if k / 64 = i then w.testBit (k % 64) else n.testBit k := by
  have below : n % 2 ^ (64 * i) < 2 ^ (64 * i) := Nat.mod_lt _ (Nat.two_pow_pos _)
  have old : n / 2 ^ (64 * i) % 2 ^ 64 < 2 ^ 64 := Nat.mod_lt _ (Nat.two_pow_pos _)
  rw [putDoubleword_eq, Nat.testBit_two_pow_mul_add _ below]
  conv_rhs => rw [doublewords n i, Nat.testBit_two_pow_mul_add _ below]
  rw [Nat.testBit_two_pow_mul_add _ small, Nat.testBit_two_pow_mul_add _ old]
  rcases lt_or_ge k (64 * i) with under | above
  · rw [if_pos under, if_neg (show ¬k / 64 = i by omega), if_pos under]
  · simp only [if_neg (Nat.not_lt.2 above)]
    rcases lt_or_ge (k - 64 * i) 64 with here | beyond
    · rw [if_pos here, if_pos (show k / 64 = i by omega), show k % 64 = k - 64 * i by omega]
    · rw [if_neg (Nat.not_lt.2 beyond), if_neg (show ¬k / 64 = i by omega), if_neg (Nat.not_lt.2 beyond)]

/-- The accepted features with doubleword i written. -/
def putAccept (x : BitVec 256) (i : Nat) (w : Word) : BitVec 256 := BitVec.ofNat 256 (putDoubleword x.toNat i w.toNat)

theorem accept_putAccept (x : BitVec 256) {i j : Nat} (hj : j < 4) (w : Word) :
    (putAccept x i w).extractLsb' (64 * j) 64 = if j = i then w else x.extractLsb' (64 * j) 64 := by
  refine BitVec.eq_of_getLsbD_eq fun k hk => ?_
  have place : (64 * j + k) / 64 = j ∧ (64 * j + k) % 64 = k := by omega
  rw [BitVec.getLsbD_extractLsb', putAccept, BitVec.getLsbD_ofNat, testBit_putDoubleword w.isLt, place.1, place.2]
  split
  · simp [hk, show 64 * j + k < 256 by omega, BitVec.testBit_toNat]
  · rw [BitVec.getLsbD_extractLsb', BitVec.testBit_toNat]
    simp [hk, show 64 * j + k < 256 by omega]

/-! ### Writes of the register spaces (R422-R424) -/

section

variable {s : State} {c off m : Nat} {v : Word}

theorem registerWrite_refused (h : (m ≠ 1 ∧ m ≠ 2 ∧ m ≠ 4 ∧ m ≠ 8) ∨ off % m ≠ 0 ∨ s.ready = false) :
    registerWrite c off m v s = s := by
  have refused : (m ≠ 1 ∧ m ≠ 2 ∧ m ≠ 4 ∧ m ≠ 8) ∨ off % m ≠ 0 ∨ !s.ready ∨ 192 < c := by
    simpa only [Bool.not_eq_true', ← or_assoc] using Or.inl (by simpa only [or_assoc] using h)
  exact if_pos refused

variable (ready : s.ready = true) (aligned : off % m = 0)
include ready aligned

/-- A write of the identity block. -/
theorem registerWrite_identity (size : m = 1 ∨ m = 2 ∨ m = 4 ∨ m = 8) (inside : off < 0x1000) :
    registerWrite 0 off m v s = s.writeIdentity off m (BitVec.ofNat 64 (v.toNat % 2 ^ (8 * m))) := by
  have size' : ¬(m ≠ 1 ∧ m ≠ 2 ∧ m ≠ 4 ∧ m ≠ 8) := by omega
  simp [registerWrite, size', ready, aligned, inside]

end

/-- Eight bytes of a doubleword are all of it. -/
theorem toNat_mod_whole (v : Word) : v.toNat % 18446744073709551616 = v.toNat := Nat.mod_eq_of_lt v.isLt

section

variable {s : State} {c off : Nat} {v : Word} (ready : s.ready = true) (aligned : off % 8 = 0)
include ready aligned

/-- A VF's space below its notify region takes no write. -/
theorem registerWrite_vf (vf : c ≠ 0) (some' : c ≤ 192) (below : off < 0x2000) : registerWrite c off 8 v s = s := by
  simp [registerWrite, ready, aligned, vf, Nat.not_lt.2 some', Nat.not_le.2 below, show ¬0x10000 ≤ off by omega]

/-- A write in a VF's notify region notifies the queue of its offset. -/
theorem registerWrite_notify (vf : c ≠ 0) (some' : c ≤ 192) (low : 0x2000 ≤ off) (high : off < 0x4000) :
    registerWrite c off 8 v s = queueNotify c (off - 0x2000) 8 s := by
  simp [registerWrite, ready, aligned, vf, Nat.not_lt.2 some', low, high]

/-- A write of the queue table. -/
theorem registerWrite_queue (low : 0x10000 ≤ off) (high : off < 0x14000) : registerWrite 0 off 8 v s = s.writeQueue (off - 0x10000) 8 v := by
  simp [registerWrite, ready, aligned, toNat_mod_whole, low, high, show ¬off < 0x1000 by omega]

/-- A write of the context table. -/
theorem registerWrite_context (low : 0x18000 ≤ off) (high : off < 0x18000 + 24704) :
    registerWrite 0 off 8 v s = contextFieldWrite ((off - 0x18000) / 128) ((off - 0x18000) % 128) 8 v s := by
  simp [registerWrite, ready, aligned, toNat_mod_whole, low, high, show ¬off < 0x1000 by omega, show ¬off < 0x14000 by omega]

/-- A write of the peer tables. -/
theorem registerWrite_peer (low : 0x40000 ≤ off) (high : off < 0x40000 + 0xC1000) :
    registerWrite 0 off 8 v s = s.writePeer (off - 0x40000) 8 v := by
  simp [registerWrite, ready, aligned, toNat_mod_whole, low, high, show ¬off < 0x1000 by omega, show ¬off < 0x14000 by omega,
    show ¬off < 0x18000 + 24704 by omega, show ¬off < 0x20020 by omega, show ¬off < 0x20060 by omega, show ¬off < 0x24000 by omega,
    show ¬off < 0x33800 by omega]

end

theorem val_whole (v : Word) : BitVec.ofNat 64 (v.toNat % 2 ^ (8 * 8)) = v := by
  rw [show 2 ^ (8 * 8) = 18446744073709551616 from rfl, toNat_mod_whole, BitVec.ofNat_toNat, BitVec.setWidth_eq]

/-! ### What the blocks do with them -/

section

variable {s : State}

theorem dropUndervolt_accept (s : State) : s.dropUndervolt.sys.accept = s.sys.accept := by
  rw [State.dropUndervolt]
  split <;> rfl

theorem dropUndervolt_domain (nominal : bit s.sys.accept 4 = false) (n : Nat) : (s.dropUndervolt.domain n).under = false := by
  rw [State.dropUndervolt, if_neg (by simp [nominal])]
  exact get_mapVals_rel (p := fun _ x : Domain => x.under = false) (f := fun x => { x with under := false }) (fun _ => rfl) rfl s.sys.domains n

theorem writeIdentity_locked {off m : Nat} (v : Word) (low : 0x120 ≤ off) (high : off < 0x140) (locked : s.sys.locked = true) :
    s.writeIdentity off m v = s := by
  simp [State.writeIdentity, low, high, locked]

/-- A doubleword of the accepted features written, until they are locked. -/
theorem writeIdentity_accept {i : Nat} (v : Word) (hi : i < 4) (open' : s.sys.locked = false) :
    s.writeIdentity (0x120 + 8 * i) 8 v = State.dropUndervolt { s with sys := { s.sys with accept := putAccept s.sys.accept i v } } := by
  have index : (0x120 + 8 * i - 0x120) / 8 = i := by omega
  have start : (0x120 + 8 * i) % 8 = 0 := by omega
  have width : 64 * i + 63 + 1 - 64 * i = 64 := by omega
  rw [State.writeIdentity]
  simp only [if_pos (show 0x120 ≤ 0x120 + 8 * i ∧ 0x120 + 8 * i < 0x140 by omega), open', Bool.false_eq_true, if_false, index, start,
    mergeWord_whole, putAccept, putDoubleword, bits, width]

theorem writeIdentity_narrow {off m : Nat} (v : Word) (h : m = 1 ∧ off = 0x14B ∨ m = 4 ∧ off = 0x14C) : s.writeIdentity off m v = s := by
  rcases h with ⟨rfl, rfl⟩ | ⟨rfl, rfl⟩
  · rfl
  · rfl

theorem writeIdentity_commit (v : Word) : s.writeIdentity 0x140 8 v = if bit v 0 = true then featCommit s else s := by
  simp [State.writeIdentity]

theorem writeIdentity_scale (v : Word) : s.writeIdentity 0x148 8 v = scaleReq v s := by
  simp [State.writeIdentity, mergeWord_whole]

theorem writeIdentity_power (v : Word) : s.writeIdentity 0x150 8 v = pwrLimit v s := by
  simp [State.writeIdentity, mergeWord_whole]

/-- A Disabled queue given its fields and enabled by one write (R331). -/
theorem writeQueue_enable {k : Nat} {v : Word} (small : k < 1024) (disabled : (s.queue k).state = 0) (enable : bits v 1 0 = 1) :
    (fun t : State => (t.queue k).state = 1 ∧ (t.queue k).ctx = bits v 22 15 ∧ (t.queue k).host = bit v 23 ∧ (t.queue k).pasid = bits v 43 24)
      (s.writeQueue (16 * k) 8 v) := by
  have fields : s.writeQueue (16 * k) 8 v =
      queueEnable k (s.setQueue k { s.queue k with pasid := bits v 43 24, host := bit v 23, ctx := bits v 22 15 }) := by
    simp [State.writeQueue, disabled, mergeWord_whole, enable]
  have enabled : queueEnable k (s.setQueue k { s.queue k with pasid := bits v 43 24, host := bit v 23, ctx := bits v 22 15 }) = _ :=
    if_pos (by rw [State.queue_setQueue_same]; exact ⟨disabled, small⟩)
  rw [fields, enabled]
  beta_reduce
  rw [State.queue_setQueue_same, State.queue_setQueue_same]
  exact ⟨rfl, rfl, rfl, rfl⟩

theorem setWidth_mergeWord (w v : Word) : (mergeWord w 0 4 v).setWidth 32 = v.setWidth 32 := by
  have mask : ∀ i < 32, (BitVec.ofNat 64 ((2 ^ (8 * 4) - 1) * 2 ^ (8 * 0))).getLsbD i = true := by decide
  refine BitVec.eq_of_getLsbD_eq fun i hi => ?_
  simp only [mergeWord, BitVec.getLsbD_setWidth, BitVec.getLsbD_or, BitVec.getLsbD_and, BitVec.getLsbD_not, mask i hi, BitVec.getLsbD_shiftLeft]
  simp [hi, show i < 64 by omega]

/-- Entry i of the peer tables written. -/
def State.putPeer (s : State) (i : Nat) (x : BitVec 32) : State := { s with peers := Tab.put s.peers i (x &&& 0xFFF) }

theorem writePeer_pair {i : Nat} {v : Word} (one : i % 1024 ≠ s.module.toNat) (two : (i + 1) % 1024 ≠ s.module.toNat) :
    s.writePeer (4 * i) 8 v = (s.putPeer i (v.setWidth 32)).putPeer (i + 1) (v.extractLsb' 32 32) := by
  have high : (v >>> 32).setWidth 32 = v.extractLsb' 32 32 := by
    refine BitVec.eq_of_getLsbD_eq fun k hk => ?_
    simp [hk]
  simp [State.writePeer, one, two, setWidth_mergeWord, high, State.putPeer]

end

/-! ### The obligation -/

section

variable {s : State} {a : Args}

theorem log_die (s : State) (code c addr d : Nat) : (s.log code c addr).die d = s.die d := rfl

theorem unitRetire_spareChannel (die : a.d < 8) (channel : a.m ≠ 0) (spare : (s.die a.d).spareCh ≠ 0) :
    (fun t : State => (t.die a.d).spareCh = (s.die a.d).spareCh - 1 ∧ (t.die a.d).channels = (s.die a.d).channels ∧ t.mem = s.mem)
      (unitRetire a s) := by
  rw [unitRetire_channel die channel, retireChannel_spare spare]
  beta_reduce
  rw [log_die, State.setDie_same]
  exact ⟨rfl, rfl, rfl⟩

/-- A coach on which a context runs: that context is frozen first. -/
theorem unitRetire_holder {c : Nat} (die : a.d < 8) (coach : a.m = 0) (shown : a.h < (s.die a.d).coaches) (small : c ≤ 192)
    (held : (s.ctx c).hasCoach (a.d * 24 + a.h) = true) (running : (s.ctx c).state = 3) :
    (fun t : State => (t.ctx c).freezing = true ∧ t.dies = s.dies ∧ UnderWay t .unitRetire fun b => b.d = a.d ∧ b.h = a.h ∧ b.m = 0)
      (unitRetire a s) := by
  have holder : c ∈ s.holders (a.d * 24 + a.h) (s.heirCoach a) := mem_holders.2 ⟨by omega, .inl held, .inr (.inl running)⟩
  have mine : (s.ctx c).freezing = true ∨ c ∈ s.toFreeze a := by
    cases freezing : (s.ctx c).freezing with
    | true => exact .inl rfl
    | false => exact .inr (List.mem_filter.2 ⟨holder, by simp [freezing, running]⟩)
  have freezes : Freezes s (s.freezeFor a) c := freezes_foldl running mine
  have holds : c ∈ (s.freezeFor a).holders (a.d * 24 + a.h) (s.heirCoach a) := by
    refine mem_holders.2 ⟨by omega, .inl ?_, .inr (.inl freezes.state)⟩
    rw [Ctx.hasCoach, freezes.coaches]
    exact held
  rw [unitRetire_coach die coach shown, retireCoach_waits (List.ne_nil_of_mem holds)]
  exact ⟨freezes.freezing, foldl_beginFreeze_dies .., State.underWay_add (List.mem_singleton_self _) ⟨rfl, rfl, coach⟩⟩

end

/-- Settles O60: each happening and each block of the register spaces by its own lemma above. -/
theorem errorsAndRegisters : Obligations.ErrorsAndRegisters := by
  unfold Obligations.ErrorsAndRegisters
  refine ⟨fun s => ?errors, fun s => ?registers⟩
  case errors =>
    refine ⟨fun within => ⟨⟨_, rfl, correctedError_counted within⟩,
        fun exceeds below => ⟨_, rfl, correctedError_exceeds within exceeds below⟩⟩,
      fun first => ⟨_, rfl, ?first⟩, fun later above within => ⟨_, rfl, ?stays⟩, fun later fell => ⟨_, rfl, ?fell⟩,
      fun accepted kept => ⟨_, rfl, ?steps⟩, fun refused => ⟨_, rfl, ?nominal⟩,
      fun n rest closed none' oracle => ⟨fun pass => ⟨_, rfl, diagnosticsDone_pass closed none' oracle pass⟩,
        fun fail' => ⟨_, rfl, diagnosticsDone_fail closed none' oracle fail'⟩⟩,
      fun die channel spare => ⟨_, rfl, unitRetire_spareChannel die channel spare⟩, fun top die channel none' some' htop o ho => ?channel,
      fun die coach shown c small held running => ⟨_, rfl, unitRetire_holder die coach shown small held running⟩,
      fun die coach shown free none' spare => ⟨_, rfl, ?last⟩, fun die coach shown free none' spare => ⟨_, rfl, ?spare⟩⟩
    case first =>
      rw [errorRateThreshold_first first]
      exact ⟨State.setDomain_same .., rfl⟩
    case stays =>
      rw [errorRateThreshold_stays later ⟨above, within⟩]
      exact ⟨congrArg Domain.above (State.setDomain_same ..), State.underWay_add (List.mem_singleton_self _) ⟨rfl, rfl, rfl⟩⟩
    case fell =>
      refine errorRateThreshold_fell later fun stays => ?_
      obtain ⟨above, within⟩ := stays
      rcases fell with ne | late | ⟨late, low⟩
      · exact ne above
      · omega
      · omega
    case steps =>
      rw [undervoltStep, if_pos ⟨accepted, by simp [kept]⟩]
      exact State.setDomain_same ..
    case nominal =>
      rw [undervoltStep, if_neg fun step => refused.elim (fun no => by simp [no] at step) (fun revoked => by simp [revoked] at step)]
    case channel =>
      have shrunk : s.shrunk s.arg.d { s.die s.arg.d with channels := (s.die s.arg.d).channels - 1 }.memory = o := by rw [htop]; exact ho
      have eq := (unitRetire_channel die channel).trans (retireChannel_shrinks none' some')
      rw [shrunk] at eq
      refine ⟨fun no => ⟨_, rfl, ?_⟩, fun s' room => ⟨_, rfl, ?_⟩⟩
      · subst no
        rw [eq]
        exact ⟨rfl, rfl, State.underWay_add (List.mem_singleton_self _) rfl⟩
      · subst room
        rw [eq, log_die, State.setDie_same]
        exact ⟨rfl, rfl⟩
    case last =>
      have none'' : ((s.die s.arg.d).spareCo != 0) = false := by simp [spare]
      rw [unitRetire_coach die coach shown, retireCoach_done (by rw [State.heirCoach, none'']; exact free) none', none'']
      obtain ⟨fewer, kept, lost, blank⟩ := withoutCoach_last (s := s) (a := s.arg) (s.arg.d * 24 + (s.die s.arg.d).coaches - 1) rfl
      exact ⟨fewer, kept.trans spare, lost, blank⟩
    case spare =>
      have some'' : ((s.die s.arg.d).spareCo != 0) = true := by simpa using spare
      rw [unitRetire_coach die coach shown, retireCoach_done (by rw [State.heirCoach, some'']; exact free) none', some'']
      exact withoutCoach_spare _ rfl
  case registers =>
    refine ⟨fun size => ⟨_, rfl, registerWrite_refused (.inl (by omega))⟩, fun odd => ⟨_, rfl, registerWrite_refused (.inr (.inl odd))⟩,
      fun down => ⟨_, rfl, registerWrite_refused (.inr (.inr down))⟩, fun ready pf narrow => ⟨_, rfl, ?narrow⟩, fun ready whole aligned =>
      ⟨fun vf some' below => ⟨_, rfl, ?below⟩, fun vf some' low high => ⟨_, rfl, ?notify⟩,
      fun pf => ⟨fun c i hc hi off => ⟨_, rfl, ?context⟩,
        fun i off hi => ⟨fun locked => ⟨_, rfl, ?locked⟩, fun open' => ⟨_, rfl, ?accept⟩⟩,
        fun off => ⟨_, rfl, ?commit⟩, fun off => ⟨_, rfl, ?scale⟩,
        fun off => ⟨_, rfl, ?power⟩, fun k hk off disabled enable => ⟨_, rfl, ?queue⟩,
        fun i hi even one two off => ⟨_, rfl, ?peers⟩⟩⟩⟩
    case narrow =>
      have size : s.arg.m = 1 ∨ s.arg.m = 2 ∨ s.arg.m = 4 ∨ s.arg.m = 8 := by omega
      have aligned : s.arg.n % s.arg.m = 0 := by rcases narrow with ⟨m, off⟩ | ⟨m, off⟩ <;> rw [m, off]
      rw [pf, registerWrite_identity ready aligned size (by omega), writeIdentity_narrow _ narrow]
    all_goals rw [whole]
    case below => exact registerWrite_vf ready aligned vf some' below
    case notify => exact registerWrite_notify ready aligned vf some' low high
    all_goals rw [pf]
    case context =>
      rw [registerWrite_context ready aligned (by omega) (by omega), show (s.arg.n - 0x18000) / 128 = c by omega,
        show (s.arg.n - 0x18000) % 128 = 8 * i by omega]
    case queue =>
      rw [registerWrite_queue ready aligned (by omega) (by omega), show s.arg.n - 0x10000 = 16 * k by omega]
      exact writeQueue_enable hk disabled enable
    case peers =>
      rw [registerWrite_peer ready aligned (by omega) (by omega), show s.arg.n - 0x40000 = 4 * i by omega, writePeer_pair one two]
      refine ⟨?_, Tab.get_put_same ..⟩
      exact (Tab.get_put_other _ _ _ _ _ (by omega)).trans (Tab.get_put_same ..)
    all_goals rw [registerWrite_identity ready aligned (.inr (.inr (.inr rfl))) (by omega), val_whole]
    case locked => exact writeIdentity_locked _ (by omega) (by omega) locked
    case accept =>
      rw [off, writeIdentity_accept _ hi open']
      beta_reduce
      rw [dropUndervolt_accept]
      exact ⟨(accept_putAccept _ hi _).trans (if_pos rfl), fun nominal => dropUndervolt_domain nominal,
        fun j hj ne => (accept_putAccept _ hj _).trans (if_neg ne)⟩
    case commit => rw [off]; exact writeIdentity_commit _
    case scale => rw [off]; exact writeIdentity_scale _
    case power => rw [off]; exact writeIdentity_power _

end Sys2Proof.Machine
end
